-- ==== Sys2Proof/Word.lean ====
section
/-! DEFINITION. The word types of the part and the plainest arithmetic on them: 32-bit register words, bytes,
byte strings, and the two kinds of caller that may send a register access. -/

namespace Sys2Proof

/-- One octet. -/
abbrev Byte := BitVec 8

/-- A 32-bit register value (R8). -/
abbrev Word := BitVec 32

/-- A string of octets, lowest address (or first on the wire) first. -/
abbrev Bytes := List Byte

/-- A sparse table: pairs of a key and what stands there, keys rising; an absent key reads as the table's default. -/
abbrev Tbl (α : Type) := List (Nat × α)

/-- The bits hi..lo of a number, as a number. -/
def bitsOf (w hi lo : Nat) : Nat := w / 2 ^ lo % 2 ^ (hi + 1 - lo)

/-- Bit i of a number. -/
def bitOf (w i : Nat) : Bool := w / 2 ^ i % 2 == 1

/-- A one-bit number. -/
def b2n (b : Bool) : Nat := if b then 1 else 0

/-- Who sends a register access: a host function (R425 numbers it), or management firmware on one of the eight
management cores (R23). -/
inductive Who where
  | fn (f : Nat)
  | core (k : Nat)
deriving DecidableEq, Repr

/-- One admin command descriptor as R386 lays it out, beside the function and the ring index it came from. -/
structure AdminCmd where
  fn : Nat
  idx : Nat
  cookie : Nat
  opcode : Nat
  buf : Nat
  bufLen : Nat
  reserved : Nat
  params : List Nat
deriving DecidableEq, Repr

/-- What a Barometer pass reads of one hall (R529, R531): the delays of its canaries and nothing else in 1/2000 ps, the rail
voltage in half mV, the junction temperature in degrees, the set point that firmware chooses (half mV), the rail's drift in mV. -/
structure HallMeas where
  hall : Nat
  delays : List Nat
  halfMv : Nat
  tj : Int
  setHalf : Nat
  drift : Int
deriving DecidableEq, Repr

/-- A request that a host sends to a function (R402, R403, R420): a read or a write of a BAR, a read or a write of configuration space (by
the octet offset; a write of the octets given), or another request: 0 an AtomicOp, 1 one with a PASID, 2 another non-posted request, 3 a vendor-defined message of type 0, 4 of type 1. -/
inductive HostOp where
  | memRead (bar off len : Nat)
  | memWrite (bar off : Nat) (octets : Bytes)
  | cfgRead (off : Nat)
  | cfgWrite (off : Nat) (octets : Bytes)
  | other (kind : Nat)
deriving DecidableEq, Repr

end Sys2Proof
end

