-- ==== Sys2Proof/Syntax.lean ====
section
/-! DEFINITION. The commands of the part: one constructor per row of spec/opcode_table.json, in the table's order, each with
the operands its rule gives it. Every docstring is the row's rule and what the row says happens. Operands of one name mean
one thing throughout: h a hall, p a host port, at an instant of Device Time in 2^-16 ns, d the admin descriptor that
ADMIN_COMMAND_START took up, buf the octets of its buffer, who the sender of a register access. -/

namespace Sys2Proof

/-- A command to the part. -/
inductive Instr where
  /-- TREAD_START (R25). A tread boundary arrives at the flight origin plus n times 100 ns. The hall fetches or holds a bundle, and halls with no op enter F1 gating. -/
  | treadStart (errs : List (Nat × Nat)) (at_ : Nat)
  /-- LANDING (R43). A flight boundary arrives, and the pending changes take effect in their fixed order before tread 0 issues. -/
  | landing (uj : Nat) (reload : List Nat) (bad : Option (Nat × Nat × Bytes)) (at_ : Nat)
  /-- OP_NOP (R96). A NOP op occupies its slot and does nothing. -/
  | opNop (h slot : Nat)
  /-- MOVE (R105). A MOVE op pushes or pulls flits between the alcove and a pointer's endpoint, or is suppressed. -/
  | move (h : Nat)
  /-- MOVE_FLIT_DELIVER (R140). A flit of a move reaches its destination stop and is written into the alcove, a flow ring or a lane buffer. -/
  | moveFlitDeliver (mv : Nat) (bad : Bool)
  /-- ATRIUM_BEAT (R149). An Atrium read or write beat occupies its channel bus and bank. -/
  | atriumBeat (mv ecc : Nat)
  /-- REFRESH (R110). A REFRESH op refreshes one channel of one Atrium stack. -/
  | refresh (h : Nat)
  /-- EMERG_REFRESH (R155). A channel left 8,192 Gallery clocks without a refresh is refreshed by its stack controller. -/
  | emergRefresh (stack ch at_ : Nat)
  /-- SELF_REFRESH (R155). With no plan active, each controller refreshes every channel once per 4,096 clocks. -/
  | selfRefresh (stack ch at_ : Nat)
  /-- SETPTR (R111). A SETPTR op writes a pointer register and releases any buffer that the pointer held. -/
  | setptr (h : Nat)
  /-- WIN (R112). A WIN op lays out arrival, flow and OPEN issue windows in the pipeline. -/
  | win (h : Nat)
  /-- ARRIVAL_ISSUE (R113). An arrival-window clock issues one completed frame from the hall's port receive buffers into the pipeline. -/
  | arrivalIssue (h : Nat) (ptp : Bool) (ecc : List Nat) (at_ : Nat)
  /-- FLOW_ISSUE (R114). A flow-window clock issues the record at CONSUMER of a flow ring and advances CONSUMER. -/
  | flowIssue (h : Nat) (ecc : List Nat) (at_ : Nat)
  /-- OPEN_ISSUE (R115). An OPEN-window clock issues one best-effort frame or work item under the class budgets. -/
  | openIssue (h : Nat) (ptp : Bool) (ecc : List Nat) (at_ : Nat)
  /-- REPLICATE_COPY (R280). The replication unit makes one copy of a waiting flood frame per hall clock. -/
  | replicateCopy (h : Nat)
  /-- RQ_DELIVERY (R370). A frame or hand-off waiting for an RQ is delivered once a usable descriptor exists. -/
  | rqDelivery (h : Nat)
  /-- CIPHER_WINDOW (R116). A CIPHER op opens a window of the hall's cipher engine for inline frames or jobs. -/
  | cipherWindow (h at_ : Nat)
  /-- CIPHER_OP_RELEASE (R306). A cipher operation releases its result, after its tag and replay checks where these apply. -/
  | cipherOpRelease (h : Nat) (src aad tag : Bytes) (at_ : Nat)
  /-- CIPHER_JOB_FETCH (R315). A cipher job descriptor is fetched and checked, and then it enters the job queue or completes with an error. -/
  | cipherJobFetch (k at_ : Nat)
  /-- ENTROPY_HEALTH_FAIL (R307). An entropy source health test fails, and the engine moves to fixed dummy rounds. -/
  | entropyHealthFail (h test at_ : Nat)
  /-- KEY_EXHAUST (R309). A key slot that was assigned its hard-limit value becomes EXHAUSTED at the next tread boundary. -/
  | keyExhaust (k at_ : Nat)
  /-- DMA_OP (R117). A DMA op issues one planned or carrier burst on a channel. -/
  | dmaOp (h : Nat)
  /-- DMA_BURST_COMPLETE (R117). A burst's last byte crosses its host port or reaches its endpoint, which frees the channel. -/
  | dmaBurstComplete (h c : Nat) (bad : List (Nat × Nat)) (at_ : Nat)
  /-- HOST_FLIT_RELEASE (R145). A host port releases or sends one planned flit at its departure clock. -/
  | hostFlitRelease (p : Nat) (toward bad : Bool) (at_ : Nat)
  /-- READ_AHEAD_REQUEST (R351). A Nave port requests host data 64 treads ahead of a flit's release. -/
  | readAheadRequest (h c at_ : Nat)
  /-- BEST_EFFORT_TLP_SEND (R146). A host port sends a best-effort packet that fits before the next planned departure. -/
  | bestEffortTlpSend (p crossed at_ : Nat)
  /-- DESCRIPTOR_FETCH (R344). A DMA descriptor, with its scatter-gather entries, is fetched and checked. -/
  | descriptorFetch (h c : Nat) (more : Bool) (host : Bytes) (list : List Bytes) (at_ : Nat)
  /-- DESCRIPTOR_COMPLETE (R353). A DMA descriptor ends, and its completion record or write-back word is written. -/
  | descriptorComplete (h c : Nat)
  /-- DMA_ENGINE_STOP (R356). A failed read stops all 64 channels of the hall, and a hall fault is declared. -/
  | dmaEngineStop (h at_ : Nat)
  /-- DMA_CH_KICK (R354). A KICK write makes a PARKED chain channel fetch its descriptor again. -/
  | dmaChKick (who : Who) (h c : Nat)
  /-- DMA_CH_START (R359). A START write starts an IDLE or HALTED chain channel at its chain address. -/
  | dmaChStart (who : Who) (h c : Nat)
  /-- DMA_CH_CFG_WRITE (R357). A channel configuration write is staged for the next landing, or refused while the channel is active. -/
  | dmaChCfgWrite (who : Who) (h c value : Nat)
  /-- BUF_OP_ALLOC (R119). A BUF ALLOC op requests a buffer for a pointer, charged to the owner of a hand-off point. -/
  | bufOpAlloc (h : Nat)
  /-- BUF_ALLOC_RESULT (R119). 32 hall clocks after ALLOC, the pointer takes the buffer or becomes invalid. -/
  | bufAllocResult (h at_ : Nat)
  /-- BUF_OP_HAND (R119). A BUF HAND op asks for a pointer's buffer to be handed to a receive queue. -/
  | bufOpHand (h : Nat)
  /-- HAND_POST (R119). After earlier moves through the pointer have written their data, the buffer ID and fill length are posted. -/
  | handPost (h : Nat)
  /-- BUF_OP_RELEASE (R119). A BUF RELEASE op releases the buffer in a pointer. -/
  | bufOpRelease (h : Nat)
  /-- TABLE_WINDOW (R120). A TABLE op opens a window for host table writes and audit walker steps. -/
  | tableWindow (h at_ : Nat)
  /-- RFX (R121). An RFX op dispatches a kernel on a reflex core. -/
  | rfx (h : Nat)
  /-- KERNEL_BUDGET_END (R182). A kernel's budget elapses and frees its core, and the kernel aborts with OVERRUN if it has not committed. -/
  | kernelBudgetEnd (h c at_ : Nat)
  /-- WAKE (R122). A WAKE op schedules a hall's return to F0 at a named landing. -/
  | wake (h : Nat)
  /-- CTX (R123). A CTX op opens a cyclic transmit window over slots of a pool. -/
  | ctx (h : Nat)
  /-- CTX_EMISSION (R201). An emission instant sends one DATA_OUT segment of a slot, or is idle. -/
  | ctxEmission (h pool : Nat) (cut : Bool) (at_ : Nat)
  /-- CRX (R125). A CRX op opens a pool's receive window until its deadline instant. -/
  | crx (h : Nat)
  /-- POOL_DEADLINE (R207). At the deadline instant, misses are filled or held, states change and status words are written. -/
  | poolDeadline (h pool at_ : Nat)
  /-- EVT_OP (R126). An EVT op schedules one action on an event land. -/
  | evtOp (h : Nat)
  /-- SKIP (R128). A SKIP op makes its bundle cover N further treads. -/
  | skipOp (h : Nat)
  /-- LAND (R128). A LAND op covers N treads and ends the flight's program. -/
  | land (h : Nat)
  /-- ADD (R166). Reflex ADD instruction. -/
  | addOp (h c ecc rd ra rb : Nat)
  /-- SUB (R166). Reflex SUB instruction. -/
  | subOp (h c ecc rd ra rb : Nat)
  /-- AND (R166). Reflex AND instruction. -/
  | andOp (h c ecc rd ra rb : Nat)
  /-- OR (R166). Reflex OR instruction. -/
  | orOp (h c ecc rd ra rb : Nat)
  /-- XOR (R166). Reflex XOR instruction. -/
  | xorOp (h c ecc rd ra rb : Nat)
  /-- SHL (R166). Reflex left shift by register. -/
  | shl (h c ecc rd ra rb : Nat)
  /-- SHR (R166). Reflex logical right shift by register. -/
  | shr (h c ecc rd ra rb : Nat)
  /-- SAR (R166). Reflex arithmetic right shift by register. -/
  | sar (h c ecc rd ra rb : Nat)
  /-- SLT (R166). Reflex signed set-less-than. -/
  | slt (h c ecc rd ra rb : Nat)
  /-- SLTU (R166). Reflex unsigned set-less-than. -/
  | sltu (h c ecc rd ra rb : Nat)
  /-- MIN (R166). Reflex signed minimum. -/
  | minOp (h c ecc rd ra rb : Nat)
  /-- MAX (R166). Reflex signed maximum. -/
  | maxOp (h c ecc rd ra rb : Nat)
  /-- MINU (R166). Reflex unsigned minimum. -/
  | minu (h c ecc rd ra rb : Nat)
  /-- MAXU (R166). Reflex unsigned maximum. -/
  | maxu (h c ecc rd ra rb : Nat)
  /-- MUL (R166). Reflex low-word multiply. -/
  | mulOp (h c ecc rd ra rb : Nat)
  /-- MULH (R166). Reflex signed high-word multiply. -/
  | mulh (h c ecc rd ra rb : Nat)
  /-- MULHU (R166). Reflex unsigned high-word multiply. -/
  | mulhu (h c ecc rd ra rb : Nat)
  /-- DIVU (R168). Reflex unsigned divide, with a defined result for division by zero. -/
  | divu (h c ecc rd ra rb : Nat)
  /-- REMU (R168). Reflex unsigned remainder, with a defined result for division by zero. -/
  | remu (h c ecc rd ra rb : Nat)
  /-- QADD (R167). Reflex saturating add. -/
  | qadd (h c ecc rd ra rb : Nat)
  /-- QSUB (R167). Reflex saturating subtract. -/
  | qsub (h c ecc rd ra rb : Nat)
  /-- QMUL (R167). Reflex Q16.16 rounded product. -/
  | qmul (h c ecc rd ra rb : Nat)
  /-- QDIV (R167). Reflex Q16.16 truncated quotient. -/
  | qdiv (h c ecc rd ra rb : Nat)
  /-- QABS (R167). Reflex saturating absolute value. -/
  | qabs (h c ecc rd ra : Nat)
  /-- QNEG (R167). Reflex saturating negation. -/
  | qneg (h c ecc rd ra : Nat)
  /-- ADDI (R166). Reflex add immediate. -/
  | addi (h c ecc rd ra imm : Nat)
  /-- ANDI (R166). Reflex AND immediate. -/
  | andi (h c ecc rd ra imm : Nat)
  /-- ORI (R166). Reflex OR immediate. -/
  | ori (h c ecc rd ra imm : Nat)
  /-- XORI (R166). Reflex XOR immediate. -/
  | xori (h c ecc rd ra imm : Nat)
  /-- SLTI (R166). Reflex signed set-less-than immediate. -/
  | slti (h c ecc rd ra imm : Nat)
  /-- SLTIU (R166). Reflex unsigned set-less-than immediate. -/
  | sltiu (h c ecc rd ra imm : Nat)
  /-- LUI (R166). Reflex load upper immediate. -/
  | lui (h c ecc rd imm : Nat)
  /-- SHLI (R166). Reflex left shift immediate. -/
  | shli (h c ecc rd ra imm : Nat)
  /-- SHRI (R166). Reflex logical right shift immediate. -/
  | shri (h c ecc rd ra imm : Nat)
  /-- SARI (R166). Reflex arithmetic right shift immediate. -/
  | sari (h c ecc rd ra imm : Nat)
  /-- MAC (R166). Reflex saturating multiply-accumulate. -/
  | mac (h c ecc ra rb : Nat)
  /-- MSU (R166). Reflex saturating multiply-subtract. -/
  | msu (h c ecc ra rb : Nat)
  /-- ACCLR (R166). Reflex clear accumulator. -/
  | acclr (h c ecc : Nat)
  /-- ACRD (R167). Reflex read rounded, shifted accumulator. -/
  | acrd (h c ecc rd imm : Nat)
  /-- ACSET (R166). Reflex set accumulator from two registers. -/
  | acset (h c ecc ra rb : Nat)
  /-- ACGET (R166). Reflex read accumulator into a register pair. -/
  | acget (h c ecc rd : Nat)
  /-- LDW (R171). Reflex alcove word load, overlaid with the kernel's own uncommitted stores. -/
  | ldw (h c ecc rd ra imm : Nat)
  /-- LDHU (R171). Reflex alcove halfword load. -/
  | ldhu (h c ecc rd ra imm : Nat)
  /-- STW (R171). Reflex word store into the commit buffer. -/
  | stw (h c ecc rs ra imm : Nat)
  /-- STH (R171). Reflex halfword store into the commit buffer. -/
  | sth (h c ecc rs ra imm : Nat)
  /-- LDS (R164). Reflex scratch load. -/
  | lds (h c ecc rd ra imm : Nat)
  /-- STS (R164). Reflex scratch store. -/
  | sts (h c ecc rs ra imm : Nat)
  /-- BEQ (R166). Reflex branch if equal. -/
  | beq (h c ecc ra rb off : Nat)
  /-- BNE (R166). Reflex branch if not equal. -/
  | bne (h c ecc ra rb off : Nat)
  /-- BLT (R166). Reflex branch if less, signed. -/
  | blt (h c ecc ra rb off : Nat)
  /-- BGE (R166). Reflex branch if greater or equal, signed. -/
  | bge (h c ecc ra rb off : Nat)
  /-- BLTU (R166). Reflex branch if less, unsigned. -/
  | bltu (h c ecc ra rb off : Nat)
  /-- BGEU (R166). Reflex branch if greater or equal, unsigned. -/
  | bgeu (h c ecc ra rb off : Nat)
  /-- JMP (R166). Reflex forward jump. -/
  | jmp (h c ecc off : Nat)
  /-- LOOP (R170). Reflex hardware loop of COUNT iterations over BODY instructions. -/
  | loopOp (h c ecc count body : Nat)
  /-- END (R172). Reflex END, which applies the commit buffer atomically in its fourth clock. -/
  | endOp (h c ecc : Nat)
  /-- RFX_NOP (R166). Reflex no-op. -/
  | rfxNop (h c ecc : Nat)
  /-- TIME (R174). Reflex sample of nanoseconds since the flight origin. -/
  | timeOp (h c ecc rd : Nat)
  /-- ECAP (R175). Reflex read of a land's latest confirmed capture from the snapshot. -/
  | ecap (h c ecc rd land : Nat)
  /-- ELVL (R175). Reflex read of a land's level from the snapshot. -/
  | elvl (h c ecc rd land : Nat)
  /-- ESCH (R176). Reflex scheduling of a land action into the commit buffer. -/
  | esch (h c ecc ra rb act span base : Nat)
  /-- ECAN (R178). Reflex cancellation of pending kernel actions on a land, applied at commit. -/
  | ecan (h c ecc rb span base : Nat)
  /-- EVT_ACTION (R177). A pending land action takes place at its instant. -/
  | evtAction (k at_ : Nat)
  /-- EVT_HOST_WRITE (R235). An owner write of EVT_HOST acts on a land within 1 µs, or is refused. -/
  | evtHostWrite (who : Who) (k value at_ : Nat)
  /-- EVT_EDGE (R234). An edge on an armed event land is detected, subject to the glitch filter. -/
  | evtEdge (k : Nat) (rising : Bool) (at_ : Nat)
  /-- EVT_EDGE_CONFIRM (R234). An edge that has held for FILTER ns is confirmed into the host queue and the kernel snapshot. -/
  | evtEdgeConfirm (k at_ : Nat)
  /-- EVT_CAP_INFO_READ (R234). A read of EVT_CAP_INFO removes the head capture record and latches its instant. -/
  | evtCapInfoRead (who : Who) (k : Nat)
  /-- CYCLIC_FRAME_RX (R203). A received cyclic frame passes the receive steps and is accepted, learned or discarded. -/
  | cyclicFrameRx (l : Nat) (cut : Bool)
  /-- NOTIFY_OVERFLOW_SEND (R195). One NOTIFY_OVERFLOW is sent in the next flight that has room. -/
  | notifyOverflowSend (h : Nat)
  /-- LANE_FRAME_RX (R223). A received frame is admitted to its port's receive buffer and stamped, or is dropped. -/
  | laneFrameRx (l : Nat) (octets : Bytes) (ce ue stamp at_ : Nat)
  /-- PORT_FRAME_TX (R228). A port starts a queued frame that passes the gate and emission test. -/
  | portFrameTx (l : Nat) (opened : Bool) (corr stamp at_ : Nat)
  /-- LN_TXTS_INFO_READ (R230). A read of LN_TXTS_INFO removes the head egress stamp and latches it. -/
  | lnTxtsInfoRead (who : Who)
  /-- PORT_LINK_UP (R221). A lane port comes up once signal, lock and alignment hold. -/
  | portLinkUp (l : Nat) (got : List Nat) (aligned : Bool) (at_ : Nat)
  /-- PORT_LINK_DOWN (R221). A lane port loses a condition and goes down at once. -/
  | portLinkDown (l lost at_ : Nat)
  /-- EYE_NOW (R237). A write of EYE_NOW starts an eye measurement on a lane. -/
  | eyeNow (who : Who) (l at_ : Nat)
  /-- EYE_MEASURE_DONE (R237). An eye measurement completes and updates LN_EYE. -/
  | eyeMeasureDone (l height width at_ : Nat)
  /-- PPS_OUT_PULSE (R232). PPS_OUT is driven high at each Device Time second for the configured width. -/
  | ppsOutPulse (at_ : Nat)
  /-- PPS_EDGE (R36). A 1PPS edge arrives and the hardware servo corrects toward it. -/
  | ppsEdge (rising : Bool) (at_ : Nat)
  /-- PPS_TIMEOUT (R36). 2 s pass with no 1PPS edge, and the time base enters holdover. -/
  | ppsTimeout (at_ : Nat)
  /-- SERVO_HOLDOVER_TIMEOUT (R37). 4 s pass without a firmware servo write, and the time base enters holdover. -/
  | servoHoldoverTimeout (at_ : Nat)
  /-- REF10_LOSS (R38). The 10 MHz input fails, and the PLL changes over to the MEMS oscillator. -/
  | ref10Loss (at_ : Nat)
  /-- REF10_RESTORE (R38). After 1 s of continuous presence, the PLL returns to the 10 MHz input. -/
  | ref10Restore (since at_ : Nat)
  /-- TB_NOW_READ (R60). A read of TB_NOW_FRAC samples Device Time and latches the other words. -/
  | tbNowRead (who : Who) (at_ : Nat)
  /-- TB_CTRL_WRITE (R35). A TB_CTRL write selects the discipline source and settings, and reserved values are ignored. -/
  | tbCtrlWrite (who : Who) (value at_ : Nat)
  /-- TB_RATE_WRITE (R39). A TB_RATE write sets the rate correction, clamped, or is ignored under the hardware servo. -/
  | tbRateWrite (who : Who) (value at_ : Nat)
  /-- TB_STEP_WRITE (R34). A TB_STEP write steps Device Time, or adds to a slew while a plan is active. -/
  | tbStepWrite (who : Who) (value at_ : Nat)
  /-- SLEW_COMPLETE (R39). A slew finishes carrying out its requested step. -/
  | slewComplete (at_ : Nat)
  /-- TB_SET_COMMIT (R60). A TB_SET_SEC_HI write commits an absolute time set, or is refused while a plan is active. -/
  | tbSetCommit (who : Who) (value at_ : Nat)
  /-- TB_ORIGIN_WRITE (R41). A TB_ORIGIN_NS write is rounded down to 100 ns, or ignored when out of range. -/
  | tbOriginWrite (who : Who) (value : Nat)
  /-- LOW_WORD_READ (R6). A read of the low word of a 64-bit pair latches the high word for the function. -/
  | lowWordRead (who : Who) (addr at_ : Nat)
  /-- HIGH_WORD_COMMIT (R6). A write of the high word of an RW 64-bit pair commits both staged words. -/
  | highWordCommit (who : Who) (addr value at_ : Nat)
  /-- REGISTER_WRITE (R4). A write to a register with no row of its own acts under its access type and ownership rules. -/
  | registerWrite (who : Who) (addr value at_ : Nat)
  /-- LANE_ENERGY_DETECT (R56). Energy appears on a dark lane, which sets its latch and sends a thaw request and an event. -/
  | laneEnergyDetect (l : Nat)
  /-- PERST_EDGE (R48). Either edge of a port's PERST# sets its latch, and an assertion resets the port. -/
  | perstEdge (p : Nat) (asserted : Bool) (at_ : Nat)
  /-- HOST_LINK_UP (R494). After PERST# deassertion a host port trains and reaches L0. -/
  | hostLinkUp (p gen width : Nat) (flit : Bool) (at_ : Nat)
  /-- STANDBY_REQUEST (R57). A write of CALM_STANDBY.REQ requests, or withdraws, device standby. -/
  | standbyRequest (who : Who) (value : Nat)
  /-- STANDBY_ENTER (R57). The device enters F4 once REQ holds and every function is in D3 or has no link. -/
  | standbyEnter (at_ : Nat)
  /-- STANDBY_WAKE (R58). An enabled wake source brings the device out of F4 and the active plan is reloaded. -/
  | standbyWake (reason : Nat) (fail : Option Nat) (at_ : Nat)
  /-- POWER_GOOD (R480). The 48 V input holds at or above 36 V for 2 ms, and power-up begins. -/
  | powerGood
  /-- INPUT_UV (R554). The input falls below 37 V, which sets the undervoltage latch. -/
  | inputUv (at_ : Nat)
  /-- SUPPLY_SHUTDOWN (R554). The input stays below 34 V for over 20 µs, and power is removed. -/
  | supplyShutdown (at_ : Nat)
  /-- OVERVOLTAGE (R554). The input stays above 64 V for over 10 µs, and it is disconnected. -/
  | overvoltage (at_ : Nat)
  /-- MODULE_OVERCURRENT (R555). A bay's module supply exceeds 2.6 A for 100 µs and is switched off. -/
  | moduleOvercurrent (b at_ : Nat)
  /-- MODULE_SUPPLY_RETRY (R555). A switched-off module supply retries after 1 s. -/
  | moduleSupplyRetry (b at_ : Nat)
  /-- THERMAL_SAMPLE (R566). A lid or junction sample crosses a threshold and sets its latch. -/
  | thermalSample (lid : Bool) (t : Int) (at_ : Nat)
  /-- THERMAL_TRIP (R567). A trip threshold holds for 1 ms, which raises a PACKAGE device fault and THERMTRIP_N. -/
  | thermalTrip (at_ : Nat)
  /-- THERMAL_HOLD_END (R567). The lid stays 10 °C below LID_LIMIT for 60 s, and the thermal hold ends. -/
  | thermalHoldEnd (at_ : Nat)
  /-- FIRMWARE_VERIFY (R484). The boot ROM finishes verifying a firmware image and runs it, falls back, or enters recovery. -/
  | firmwareVerify (at_ : Nat)
  /-- BARO_PASS (R529). A Barometer pass reads the monitors and publishes grades, voltages and margins. -/
  | baroPass (ms : List HallMeas) (ret : List Nat) (wear at_ : Nat)
  /-- BARO_STALE (R530). 1,800 s pass with no completed Barometer pass. -/
  | baroStale (at_ : Nat)
  /-- RAIL_FAULT (R545). A hall rail drifts beyond ±15 mV for 16 consecutive samples, which raises a SUPPLY hall fault. -/
  | railFault (h at_ : Nat)
  /-- START_SELECT (R481). After the initial Barometer pass, the device chooses to resume, start standalone, or wait. -/
  | startSelect (at_ : Nat)
  /-- VERIFY_COMPLETE (R82). The verifier finishes an image and the standby slot becomes VERIFIED or REJECTED. -/
  | verifyComplete (at_ : Nat)
  /-- HALL_READY (R86). A hall's plan-store bank is written and the hall is at F0 or F1 for a swap. -/
  | hallReady (h at_ : Nat)
  /-- SWAP_TIMEOUT (R87). A first-ready swap is not ready within PLN_SWAP_TIMEOUT and is abandoned. -/
  | swapTimeout (at_ : Nat)
  /-- PLAN_LOAD (R85). Admin command: transfer an image from host memory into standby and verify it. -/
  | planLoad (d : AdminCmd) (buf : Bytes)
  /-- PLAN_LOAD_STORED (R85). Admin command: load a library entry into standby and verify it. -/
  | planLoadStored (d : AdminCmd)
  /-- PLAN_STORE (R85). Admin command: copy the standby image into a library entry. -/
  | planStore (d : AdminCmd)
  /-- PLAN_SWAP (R87). Admin command: request a swap at the first ready landing or at a named flight. -/
  | planSwap (d : AdminCmd)
  /-- PLAN_STOP (R91). Admin command: end the active plan at the next landing. -/
  | planStop (d : AdminCmd)
  /-- PLAN_DISCARD (R85). Admin command: empty the standby slot. -/
  | planDiscard (d : AdminCmd)
  /-- CHANNEL_BIND (R197). Admin command: bind a SID to a pool slot after the checks. -/
  | channelBind (d : AdminCmd)
  /-- CHANNEL_UNBIND (R199). Admin command: cancel a pending bind or make a channel UNBIND_PENDING. -/
  | channelUnbind (d : AdminCmd)
  /-- CHANNEL_SET_KEY (R200). Admin command: change a channel's GMAC keys from the next landing. -/
  | channelSetKey (d : AdminCmd)
  /-- CHANNEL_QUERY (R200). Admin command: return a channel's state and status words. -/
  | channelQuery (d : AdminCmd)
  /-- STATION_READ (R194). Admin command: read station directory entries. -/
  | stationRead (d : AdminCmd)
  /-- STATION_WRITE (R194). Admin command: write a station directory entry whole. -/
  | stationWrite (d : AdminCmd) (buf : Bytes)
  /-- STATION_CLEAR (R194). Admin command: clear a station directory entry. -/
  | stationClear (d : AdminCmd)
  /-- CLS_WRITE (R258). Admin command: write a TCAM entry, whole or action only. -/
  | clsWrite (d : AdminCmd) (buf : Bytes)
  /-- CLS_INVALIDATE (R258). Admin command: clear VALID of a range of TCAM entries. -/
  | clsInvalidate (d : AdminCmd)
  /-- CLS_READ (R258). Admin command: read TCAM entries. -/
  | clsRead (d : AdminCmd)
  /-- CLS_COUNTER_READ (R258). Admin command: read, and optionally clear, TCAM counters. -/
  | clsCounterRead (d : AdminCmd)
  /-- FRG_FLUSH (R258). Admin command: free every fragment entry of a hall. -/
  | frgFlush (d : AdminCmd)
  /-- FRAG_ENTRY_EXPIRY (R261). The background sweep frees a fragment entry whose EXPIRY has passed. -/
  | fragEntryExpiry (h set at_ : Nat)
  /-- FWD_WRITE (R289). Admin command: insert or replace a bridge entry. -/
  | fwdWrite (d : AdminCmd) (buf : Bytes)
  /-- FWD_DELETE (R289). Admin command: free a bridge entry. -/
  | fwdDelete (d : AdminCmd)
  /-- FWD_FLUSH (R289). Admin command: free matching bridge entries, one set pair per clock. -/
  | fwdFlush (d : AdminCmd)
  /-- FWD_READ (R289). Admin command: read bridge entries. -/
  | fwdRead (d : AdminCmd)
  /-- VPORT_WRITE (R289). Admin command: write a vport entry. -/
  | vportWrite (d : AdminCmd) (buf : Bytes)
  /-- VPORT_READ (R289). Admin command: read vport entries. -/
  | vportRead (d : AdminCmd)
  /-- TUN_WRITE (R285). Admin command: write a tunnel template under the invalidate-first order. -/
  | tunWrite (d : AdminCmd) (buf : Bytes)
  /-- TUN_READ (R289). Admin command: read tunnel templates. -/
  | tunRead (d : AdminCmd)
  /-- BD_WRITE (R270). Admin command: stage a bridge domain entry for the next landing. -/
  | bdWrite (d : AdminCmd) (buf : Bytes)
  /-- FLOOD_WRITE (R270). Admin command: stage flood targets for the next landing. -/
  | floodWrite (d : AdminCmd) (buf : Bytes)
  /-- BRIDGE_SWEEP_VISIT (R276). The sweep visits a set pair, ageing entries and clearing UNSTABLE and MOVES. -/
  | bridgeSweepVisit (h set at_ : Nat)
  /-- AUDIT_SHADOW_WRITE (R292). A write of a shadow digest sets the block's valid bit, unless a clearing coincides. -/
  | auditShadowWrite (who : Who) (h b value : Nat) (clash : Bool)
  /-- FWD_AUDIT_FAIL_READ (R293). A read of FWD_AUDIT_FAIL removes the head mismatch entry and latches its digest. -/
  | fwdAuditFailRead (who : Who) (h : Nat)
  /-- KEY_LOAD (R299). Admin command: unwrap and load, or rewrite, a key slot. -/
  | keyLoad (d : AdminCmd) (buf : Bytes)
  /-- KEY_COMMIT (R300). An unwrap ends and the new key commits at the next tread boundary. -/
  | keyCommit (target at_ : Nat)
  /-- KEY_ERASE (R302). Admin command: move a key slot to REVOKING. -/
  | keyErase (d : AdminCmd)
  /-- KEY_ZEROIZE (R302). Once no operation under a revoking slot is in flight, the slot is zeroized and becomes EMPTY. -/
  | keyZeroize (k at_ : Nat)
  /-- KEY_QUERY (R303). Admin command: return a key slot's state and attributes. -/
  | keyQuery (d : AdminCmd)
  /-- KEK_LOAD (R304). Admin command: load a key-encryption key wrapped under KEK0. -/
  | kekLoad (d : AdminCmd) (buf : Bytes)
  /-- KEK_ERASE (R304). Admin command: zeroize a key-encryption key. -/
  | kekErase (d : AdminCmd)
  /-- BPM_REGION_ADD (R323). Admin command: add a pool region. -/
  | bpmRegionAdd (d : AdminCmd)
  /-- BPM_REGION_REMOVE (R323). Admin command: remove a region that holds no allocated buffer. -/
  | bpmRegionRemove (d : AdminCmd)
  /-- BPM_REGION_QUERY (R333). Admin command: return a region's parameters and counts. -/
  | bpmRegionQuery (d : AdminCmd)
  /-- BPM_OWNER_CREATE (R332). Admin command: create a buffer owner. -/
  | bpmOwnerCreate (d : AdminCmd)
  /-- BPM_OWNER_SET (R333). Admin command: set an owner's ceilings and age limit for the next landing. -/
  | bpmOwnerSet (d : AdminCmd) (buf : Bytes)
  /-- BPM_OWNER_DESTROY (R332). Admin command: free an owner, or make it CLOSING until its buffers are freed. -/
  | bpmOwnerDestroy (d : AdminCmd)
  /-- BUF_ALLOC (R329). Admin command: allocate a buffer for an owner. -/
  | bufAlloc (d : AdminCmd)
  /-- BUF_REF (R331). Admin command: add a reference to a buffer. -/
  | bufRef (d : AdminCmd)
  /-- BUF_RELEASE (R331). Admin command: release up to 64 buffer IDs. -/
  | bufRelease (d : AdminCmd) (buf : Bytes)
  /-- BPM_AUDIT (R335). Admin command: write leak-audit records for a range of owners. -/
  | bpmAudit (d : AdminCmd)
  /-- STOCK_REFILL (R327). A pair's stock below 32 IDs is refilled from the frontier and the free list. -/
  | stockRefill (c loc inst : Nat)
  /-- BPM_ALARM_NEXT_READ (R334). A read of BPM_ALARM_NEXT removes the head alarmed owner index. -/
  | bpmAlarmNextRead (who : Who)
  /-- QUEUE_ENTRY_FETCH (R366). The device fetches an SQ, RQ or AQ entry and uses it when its index and phase are right. -/
  | queueEntryFetch (k idx : Nat) (entry : Bytes) (at_ : Nat)
  /-- STALE_PHASE_TIMEOUT (R366). An entry below P keeps the wrong phase for PHASE_US, and the queue enters ERROR. -/
  | stalePhaseTimeout (k at_ : Nat)
  /-- ETH_SEND (R368). An ETH send descriptor sends a frame into classification from a vport. -/
  | ethSend (k : Nat) (host : Bytes) (at_ : Nat)
  /-- STAGED_RECORD_WRITE (R379). A staged record is written once a CONSUMER write frees a place. -/
  | stagedRecordWrite (k : Nat)
  /-- CQ_STALL_TIMEOUT (R380). A CQ stays full past CQ_STALL_MS, and its feeding queues enter ERROR. -/
  | cqStallTimeout (k at_ : Nat)
  /-- DOORBELL_PRODUCER (R377). A PRODUCER doorbell write is accepted, or refused with QUEUE_OVERRUN. -/
  | doorbellProducer (fn page value : Nat)
  /-- DOORBELL_CONSUMER (R378). A CONSUMER doorbell write frees CQ entries, or puts the CQ in ERROR. -/
  | doorbellConsumer (fn page value : Nat)
  /-- DOORBELL_REARM (R383). A REARM with the current epoch returns a halted queue to ACTIVE. -/
  | doorbellRearm (fn page value : Nat)
  /-- CQ_MODERATION_WRITE (R476). A write of a CQ's moderation fields applies from its next record. -/
  | cqModerationWrite (fn page value : Nat)
  /-- AQ_CFG_WRITE (R385). A WQ_FN_AQ_CFG write enables the admin queue, or resets the admin pair. -/
  | aqCfgWrite (who : Who) (fn value : Nat)
  /-- ACQ_CFG_WRITE (R385). A WQ_FN_ACQ_CFG write enables the admin CQ, changes its vector, or resets the pair. -/
  | acqCfgWrite (who : Who) (fn value : Nat)
  /-- ADMIN_COMMAND_START (R387). The Nave starts an admin command in index order and checks it in the common order. -/
  | adminCommandStart (fn : Nat)
  /-- ASYNC_EVENT_POST (R390). An asynchronous event is posted to a function's event queue, or waits, or is dropped. -/
  | asyncEventPost
  /-- EVENT_QUEUE_DRAIN (R390). A waiting Nave event, or the dropped-events record, is posted when its queue frees a place. -/
  | eventQueueDrain (fn : Nat)
  /-- ADMIN_NOP (R388). Admin NOP command. -/
  | adminNop (d : AdminCmd)
  /-- QUEUE_CREATE (R388). Admin command: create an SQ or RQ. -/
  | queueCreate (d : AdminCmd)
  /-- QUEUE_DESTROY (R389). Admin command: destroy a queue once its work in progress has finished. -/
  | queueDestroy (d : AdminCmd)
  /-- CQ_CREATE (R388). Admin command: create a CQ. -/
  | cqCreate (d : AdminCmd)
  /-- CQ_DESTROY (R388). Admin command: destroy a CQ. -/
  | cqDestroy (d : AdminCmd)
  /-- QUEUE_QUERY (R388). Admin command: return a queue's context. -/
  | queueQuery (d : AdminCmd)
  /-- QUEUE_RESET (R382). Admin command: reset a queue to its completion watermark. -/
  | queueReset (d : AdminCmd)
  /-- EVQ_SET (R388). Admin command: name the function's event queue. -/
  | evqSet (d : AdminCmd)
  /-- HANDOFF_BIND (R388). Admin command: bind a hand-off point to an owner and an RQ at the next landing. -/
  | handoffBind (d : AdminCmd)
  /-- HANDOFF_UNBIND (R388). Admin command: unbind a hand-off point at the next landing. -/
  | handoffUnbind (d : AdminCmd)
  /-- BAR4_REQUEST (R405). A host BAR4 request is translated by the live window table, or answered with UR. -/
  | bar4Request (f : Nat) (write : Bool) (off len : Nat) (data : Bytes) (poisoned : Bool)
  /-- HOST_REQUEST (R420). A host request other than BAR4 is served, or answered with UR. -/
  | hostRequest (f : Nat) (op : HostOp) (at_ : Nat)
  /-- WIN_COMMIT (R406). A COMMIT write checks the shadow window table and copies it live at one TLP boundary. -/
  | winCommit (who : Who) (f : Nat)
  /-- WIN_LOAD (R407). A LOAD write copies the live window table into the shadow table. -/
  | winLoad (who : Who) (f : Nat)
  /-- INTERRUPT_DUE (R409). A due interrupt sends an MSI-X message, sets a pending bit, or signals PME. -/
  | interruptDue
  /-- CQ_HOLD_EXPIRY (R476). A CQ's moderation hold ends by time, and its interrupt becomes due. -/
  | cqHoldExpiry (k at_ : Nat)
  /-- VECTOR_GAP_END (R477). A vector's gap ends, and one pending message is sent. -/
  | vectorGapEnd (f v at_ : Nat)
  /-- POWERSTATE_D3HOT (R411). A PowerState write to D3hot stops new work and starts a drain. -/
  | powerstateD3hot (f at_ : Nat)
  /-- POWERSTATE_D0 (R410). A PowerState write to D0 resumes the function and sends its pending interrupts. -/
  | powerstateD0 (f : Nat)
  /-- D3_DRAIN_DEADLINE (R411). The drain deadline passes, and unfinished work is discarded under fault semantics. -/
  | d3DrainDeadline (f at_ : Nat)
  /-- PME_TURN_OFF (R413). On PME_Turn_Off the port answers PME_TO_Ack and enters L2/L3 Ready. -/
  | pmeTurnOff (p : Nat)
  /-- ASPM_L1_ENTRY (R413). A port idle for L1_IDLE_US with no planned burst enters ASPM L1. -/
  | aspmL1Entry (p at_ : Nat)
  /-- FLR (R422). A Function Level Reset discards the function's work and resets its state. -/
  | flr (f at_ : Nat)
  /-- FLR_COMPLETE (R422). An FLR completes within 100 ms, and the function serves memory requests again. -/
  | flrComplete (f at_ : Nat)
  /-- COMPLETION_TIMEOUT (R418). A non-posted request reaches its completion timeout, with consequences set by what it served. -/
  | completionTimeout (p what tag fn arg addr at_ : Nat)
  /-- READ_COMPLETION_RX (R419). A completion arrives, and it is used or discarded as late or unexpected. -/
  | readCompletionRx (p what tag status : Nat) (data : Bytes) (fn arg addr at_ : Nat)
  /-- VFN_SHARE_SET (R431). Admin command: stage a share record for the next landing. -/
  | vfnShareSet (d : AdminCmd) (buf : Bytes)
  /-- VFN_SHARE_QUERY (R443). Admin command: return a share record and its allowances. -/
  | vfnShareQuery (d : AdminCmd)
  /-- VFN_QUIESCE (R436). Admin command: stop a VF's activity and drain it to QUIESCED. -/
  | vfnQuiesce (d : AdminCmd)
  /-- QUIESCE_DEADLINE (R436). A quiesce deadline passes, and the remaining work is discarded. -/
  | quiesceDeadline (f at_ : Nat)
  /-- VFN_RESUME (R437). Admin command: return a quiesced VF to ACTIVE. -/
  | vfnResume (d : AdminCmd)
  /-- VFN_LOG_START (R438). Admin command: start dirty-page logging for a VF. -/
  | vfnLogStart (d : AdminCmd)
  /-- VFN_LOG_SWAP (R441). Admin command: switch a VF's log to a new bitmap. -/
  | vfnLogSwap (d : AdminCmd)
  /-- VFN_LOG_STOP (R441). Admin command: stop a VF's log. -/
  | vfnLogStop (d : AdminCmd)
  /-- VFN_STATE_SAVE (R442). Admin command: save a quiesced VF's queue state. -/
  | vfnStateSave (d : AdminCmd)
  /-- VFN_STATE_RESTORE (R442). Admin command: recreate queues from saved records. -/
  | vfnStateRestore (d : AdminCmd) (buf : Bytes)
  /-- STO_CONN_CREATE (R448). Admin command: create an offloaded connection and open TCP. -/
  | stoConnCreate (d : AdminCmd) (buf : Bytes)
  /-- STO_CONN_CLOSE (R448). Admin command: close a connection gracefully or abort it. -/
  | stoConnClose (d : AdminCmd)
  /-- STO_CONN_QUERY (R448). Admin command: return a connection's state. -/
  | stoConnQuery (d : AdminCmd)
  /-- STO_SEGMENT_RX (R453). A TCP segment of a connection is received and handled. -/
  | stoSegmentRx (c at_ : Nat)
  /-- RTO_EXPIRY (R451). A retransmission timeout expires, and the segment is retransmitted or the connection fails. -/
  | rtoExpiry (c at_ : Nat)
  /-- DELAYED_ACK (R451). 200 µs after an unacknowledged arrival, an ACK is sent. -/
  | delayedAck (c at_ : Nat)
  /-- STO_COMMAND_FETCH (R456). A storage descriptor is fetched and checked. -/
  | stoCommandFetch (k at_ : Nat)
  /-- STO_COMMAND_START (R457). A command that takes a free CID has its CapsuleCmd built and sent. -/
  | stoCommandStart (c : Nat) (host : Bytes) (at_ : Nat)
  /-- SEGMENT_ENQUEUE (R454). An outgoing segment is written into its flow ring once there is room. -/
  | segmentEnqueue (c : Nat) (host : Bytes) (at_ : Nat)
  /-- SIC_DELIVER (R468). The SIC delivers a pending source to an eligible core at its vector address. -/
  | sicDeliver (accepts : Nat) (pcs : List Nat)
  /-- SIC_CORE_COMPLETE (R470). A write of a source number ends an active source, or counts as spurious. -/
  | sicCoreComplete (who : Who) (core value : Nat)
  /-- SIC_SGI (R473). A write of SIC_SGI makes a software-generated edge source pending. -/
  | sicSgi (who : Who) (value : Nat)
  /-- SIC_CORE_FLUSH (R473). A FLUSH write empties a core's active stack. -/
  | sicCoreFlush (who : Who) (core : Nat)
  /-- SIC_SRC_PEND_CLEAR (R465). A write of 1 to SIC_SRC_PEND clears a pending edge source. -/
  | sicSrcPendClear (who : Who) (w value : Nat)
  /-- LULL_EXPIRY (R471). A group's lull timer expires, and its pending sources are arbitrated. -/
  | lullExpiry (g at_ accepts : Nat) (pcs : List Nat)
  /-- OWN_CLAIM (R496). Admin command: claim ownership, pending until the next landing. -/
  | ownClaim (d : AdminCmd)
  /-- OWN_RELEASE (R497). Admin command: release ownership at the next landing. -/
  | ownRelease (d : AdminCmd)
  /-- OWN_SEIZE (R496). Admin command: seize ownership with a signed record. -/
  | ownSeize (d : AdminCmd) (buf : Bytes)
  /-- OWN_DEVICE_RESET (R491). Admin command: request a device reset or a warm reset. -/
  | ownDeviceReset (d : AdminCmd) (at_ : Nat)
  /-- PLANKEY_ENROLL (R488). Admin command: enroll a plan key. -/
  | plankeyEnroll (d : AdminCmd) (buf : Bytes)
  /-- PLANKEY_REVOKE (R488). Admin command: revoke a plan key. -/
  | plankeyRevoke (d : AdminCmd) (buf : Bytes)
  /-- KEK0_INSTALL (R489). Admin command: install KEK0, encrypted to the identity key. -/
  | kek0Install (d : AdminCmd) (buf : Bytes)
  /-- COMMISSION_CLEAR (R490). Admin command: return the device to factory trust. -/
  | commissionClear (d : AdminCmd) (buf : Bytes)
  /-- FW_UPDATE (R485). Admin command: verify and write a firmware image into the idle slot. -/
  | fwUpdate (d : AdminCmd) (buf : Bytes)
  /-- FW_SVN_RAISE (R485). Admin command: raise the fused minimum SVN. -/
  | fwSvnRaise (d : AdminCmd)
  /-- OWN_IDENTITY_GET (R502). Admin command: return the identity key and the vendor signature. -/
  | ownIdentityGet (d : AdminCmd)
  /-- OWN_RENEW (R495). A write of OWN_RENEW by the owner restarts the lease, or is counted as bad. -/
  | ownRenew (who : Who) (value at_ : Nat)
  /-- LEASE_LAPSE (R495). The lease term passes without a renewal, and the lease lapses. -/
  | leaseLapse (at_ : Nat)
  /-- DEVICE_RESET (R493). A device reset initialises blocks and restarts the plan or boots afresh. -/
  | deviceReset (at_ : Nat)
  /-- WARM_RESET (R491). A warm reset restarts the management cores while the plan keeps running. -/
  | warmReset (at_ : Nat)
  /-- WDOG_KICK (R518). A KICK write restarts the firmware watchdog. -/
  | wdogKick (who : Who) (value at_ : Nat)
  /-- FIRMWARE_WATCHDOG (R518). The watchdog limit passes without a kick, and a warm reset follows. -/
  | firmwareWatchdog (at_ : Nat)
  /-- HALL_FAULT (R514). A hall fault is detected, its work is discarded and its recovery route starts. -/
  | hallFault (h cause at_ : Nat)
  /-- HALL_RESET_COMPLETE (R514). A reset in place completes, and the hall waits for its recovery landing. -/
  | hallResetComplete (h at_ : Nat)
  /-- HALF_FAULT (R516). A half fault stops a die and darkens its bays. -/
  | halfFault (e cause at_ : Nat)
  /-- DEVICE_FAULT (R517). A device fault is logged and reported to every PF. -/
  | deviceFault (cause at_ : Nat)
  /-- DEVICE_FAULT_RESET (R517). 1 ms after a device fault, a device reset is performed. -/
  | deviceFaultReset (at_ : Nat)
  /-- LANE_FAULT (R513). A lane fault brings a port down and starts its reset. -/
  | laneFault (l cause at_ : Nat)
  /-- LANE_RESET_COMPLETE (R513). A faulted port's lanes finish their reset within 1 ms and train again. -/
  | laneResetComplete (l at_ : Nat)
  /-- FLT_STATUS_PAGE_SET (R511). Admin command: set or remove a function's status page. -/
  | fltStatusPageSet (d : AdminCmd)
  /-- FLT_QUERY (R526). Admin command: return the function's last fault record. -/
  | fltQuery (d : AdminCmd)
  /-- FLT_INJECT (R526). Admin command: inject a fault of a chosen scope. -/
  | fltInject (d : AdminCmd) (at_ : Nat)
  /-- FLT_HALL_RESTORE (R515). Admin command: reset a HALTED hall in place. -/
  | fltHallRestore (d : AdminCmd) (at_ : Nat)
  /-- ALM_READ (R524). Admin command: copy Almanac entries. -/
  | almRead (d : AdminCmd)
  /-- ALM_CLEAR (R526). Admin command: empty the Almanac ring. -/
  | almClear (d : AdminCmd)
  /-- ALMANAC_WRITE (R522). A queued Almanac entry is written, suppressed or lost. -/
  | almanacWrite
  /-- ALM_UNFREEZE (R522). A write of ALM_CTRL.UNFREEZE ends an Almanac freeze. -/
  | almUnfreeze (who : Who) (value : Nat)
  /-- SMB_STATUS (R560). SMBus STATUS read, which also ends the alert. -/
  | smbStatus (pec : Bool)
  /-- SMB_LID_TEMP (R560). SMBus read of the lid temperature. -/
  | smbLidTemp (pec : Bool)
  /-- SMB_TJ_MAX (R560). SMBus read of the hottest junction temperature. -/
  | smbTjMax (pec : Bool)
  /-- SMB_VIN (R560). SMBus read of the input voltage. -/
  | smbVin (pec : Bool) (mv : Nat)
  /-- SMB_IIN (R560). SMBus read of the input current. -/
  | smbIin (pec : Bool) (ma : Nat)
  /-- SMB_PIN (R560). SMBus read of the input power. -/
  | smbPin (pec : Bool) (units : Nat)
  /-- SMB_PDEV (R560). SMBus read of the device power. -/
  | smbPdev (pec : Bool) (units : Nat)
  /-- SMB_PMOD (R560). SMBus read of the module supply power. -/
  | smbPmod (pec : Bool) (units : Nat)
  /-- SMB_BOOT (R560). SMBus read of the last reset kind and the boot stage. -/
  | smbBoot (pec : Bool)
  /-- SMB_SERIAL (R560). SMBus block read of the serial number. -/
  | smbSerial (pec : Bool)
  /-- SMB_IDCODE (R560). SMBus block read of the IDCODE. -/
  | smbIdcode (pec : Bool)
  /-- SMB_DEVICE_RESET (R560). An SMBus write of 0xA5 performs a device reset. -/
  | smbDeviceReset (pec : Bool) (value at_ : Nat)
  /-- JTAG_EXTEST (R564). JTAG EXTEST drives and samples the covered lands while no plan is active. -/
  | jtagExtest (drive sample : Nat)
  /-- JTAG_SAMPLE_PRELOAD (R564). JTAG SAMPLE/PRELOAD samples the lands without disturbing them. -/
  | jtagSamplePreload (preload sample : Nat)
  /-- JTAG_IDCODE (R564). JTAG IDCODE selects the 32-bit identification register. -/
  | jtagIdcode
  /-- JTAG_CLAMP (R564). JTAG CLAMP holds the preloaded values and selects bypass. -/
  | jtagClamp
  /-- JTAG_HIGHZ (R564). JTAG HIGHZ puts the covered outputs in high impedance. -/
  | jtagHighz
  /-- JTAG_BYPASS (R564). JTAG BYPASS selects the 1-bit bypass register. -/
  | jtagBypass
  /-- JTAG_TEST_LOGIC_RESET (R564). Entering Test-Logic-Reset after EXTEST, CLAMP or HIGHZ performs a device reset. -/
  | jtagTestLogicReset (at_ : Nat)
  /-- HOST_LINK_DOWN (R491). The link of one host port is lost, which resets that port and can make a function count as in D3cold. -/
  | hostLinkDown (p at_ : Nat)
  /-- HOT_RESET (R491). A Hot Reset received on a host link resets that port as by FLR of every function of the port. -/
  | hotReset (p at_ : Nat)
  /-- L1_EXIT (R413). A host port's link leaves ASPM or PCI-PM L1 and returns to L0. -/
  | l1Exit (p at_ : Nat)
  /-- LANE_ENERGY_GONE (R56). Signal energy disappears on a dark lane, and its detector returns to no energy so that a later appearance can set the latch. -/
  | laneEnergyGone (l : Nat)
  /-- INPUT_UV_REARM (R554). The 48 V input rises to 38.0 V, which rearms the INPUT_UV latch. -/
  | inputUvRearm (at_ : Nat)
  /-- PPS_OUT_PULSE_END (R232). PPS_OUT is driven low when WIDTH_US µs have passed after the start of its pulse. -/
  | ppsOutPulseEnd (at_ : Nat)
  /-- VF_ENABLE_WRITE (R425). A host write of VF Enable or NumVFs in a PF's SR-IOV capability brings virtual functions into or out of existence and stops their dirty-page logs. -/
  | vfEnableWrite (p : Nat) (en : Bool) (n at_ : Nat)
  /-- BUS_MASTER_ENABLE_WRITE (R414). A host write of Bus Master Enable blocks or resumes the function's requests, planned bursts and pending MSI-X messages. -/
  | busMasterEnableWrite (f : Nat) (v : Bool)
  /-- LIBRARY_COPY_COMPLETE (R85). A copy between a library entry or the active slot and the standby slot ends, which completes PLAN_STORE or starts verification. -/
  | libraryCopyComplete (ok : Bool)
deriving DecidableEq, Repr

end Sys2Proof
end

