-- ==== Sys2Proof/WellFormed.lean ====
section
/-! DEFINITION. Well-formed commands: every operand names something that the part has, or fits the field it is carried in (R9, R24, R166,
R425, R464). Instants, octet strings and meter readings are not bounded here. -/

namespace Sys2Proof

/-- A sender that exists: a function number of R425, one of the eight management cores (R23). -/
def Who.ok : Who → Bool
  | .fn f => decide (f < 8192)
  | .core k => decide (k < 8)

/-- An admin command whose fields fit the descriptor of R386. -/
def AdminCmd.ok (d : AdminCmd) : Bool :=
  decide (d.fn < 8192) && decide (d.idx < 2 ^ 32) && decide (d.cookie < 2 ^ 32) && decide (d.opcode < 256) && decide (d.buf < 2 ^ 64) &&
    decide (d.bufLen < 2 ^ 32) && d.params.all (fun p => decide (p < 2 ^ 32))

/-- A command is well formed. -/
def Instr.wellFormed : Instr → Bool
  | .queueEntryFetch k _ _ _ => decide (k < 73728)
  | .stalePhaseTimeout k _ => decide (k < 73728)
  | .stagedRecordWrite k => decide (k < 73728)
  | .cqStallTimeout k _ => decide (k < 73728)
  | .doorbellProducer fn page value => decide (fn < 8192) && decide (page < 65536) && decide (value < 2 ^ 32)
  | .doorbellConsumer fn page value => decide (fn < 8192) && decide (page < 65536) && decide (value < 2 ^ 32)
  | .doorbellRearm fn page value => decide (fn < 8192) && decide (page < 65536) && decide (value < 2 ^ 32)
  | .cqModerationWrite fn page value => decide (fn < 8192) && decide (page < 65536) && decide (value < 2 ^ 32)
  | .aqCfgWrite who fn value => who.ok && decide (fn < 8192) && decide (value < 2 ^ 32)
  | .acqCfgWrite who fn value => who.ok && decide (fn < 8192) && decide (value < 2 ^ 32)
  | .adminCommandStart fn => decide (fn < 8192)
  | .asyncEventPost => true
  | .eventQueueDrain fn => decide (fn < 8192)
  | .adminNop d => d.ok
  | .queueCreate d => d.ok
  | .queueDestroy d => d.ok
  | .cqCreate d => d.ok
  | .cqDestroy d => d.ok
  | .queueQuery d => d.ok
  | .queueReset d => d.ok
  | .evqSet d => d.ok
  | .handoffBind d => d.ok
  | .handoffUnbind d => d.ok
  | .sicDeliver _ _ => true
  | .sicCoreComplete who core value => who.ok && decide (core < 8) && decide (value < 2 ^ 32)
  | .sicSgi who value => who.ok && decide (value < 2 ^ 32)
  | .sicCoreFlush who core => who.ok && decide (core < 8)
  | .sicSrcPendClear who w value => who.ok && decide (w < 64) && decide (value < 2 ^ 32)
  | .lullExpiry g _ _ _ => decide (g < 64)
  | .interruptDue => true
  | .cqHoldExpiry k _ => decide (k < 73728)
  | .vectorGapEnd f v _ => decide (f < 8192) && decide (v < 2048)
  | .ownClaim d => d.ok
  | .ownRelease d => d.ok
  | .ownSeize d _ => d.ok
  | .ownRenew who value _ => who.ok && decide (value < 2 ^ 32)
  | .leaseLapse _ => true
  | .plankeyEnroll d _ => d.ok
  | .plankeyRevoke d _ => d.ok
  | .kek0Install d _ => d.ok
  | .firmwareVerify _ => true
  | .fwUpdate d _ => d.ok
  | .fwSvnRaise d => d.ok
  | .ownIdentityGet d => d.ok
  | .almanacWrite => true
  | .almUnfreeze who value => who.ok && decide (value < 2 ^ 32)
  | .almRead d => d.ok
  | .almClear d => d.ok
  | .fltStatusPageSet d => d.ok
  | .fltQuery d => d.ok
  | .wdogKick who value _ => who.ok && decide (value < 2 ^ 32)
  | .powerstateD3hot f _ => decide (f < 8192)
  | .powerstateD0 f => decide (f < 8192)
  | .d3DrainDeadline f _ => decide (f < 8192)
  | .pmeTurnOff p => decide (p < 8)
  | .aspmL1Entry p _ => decide (p < 8)
  | .l1Exit p _ => decide (p < 8)
  | .busMasterEnableWrite f _ => decide (f < 8192)
  | .vfnShareSet d _ => d.ok
  | .vfnQuiesce d => d.ok
  | .quiesceDeadline f _ => decide (f < 8192)
  | .vfnResume d => d.ok
  | .vfnLogStart d => d.ok
  | .vfnLogSwap d => d.ok
  | .vfnLogStop d => d.ok
  | .vfnStateSave d => d.ok
  | .vfnStateRestore d _ => d.ok
  | .tbNowRead who _ => who.ok
  | .tbCtrlWrite who value _ => who.ok && decide (value < 2 ^ 32)
  | .tbRateWrite who value _ => who.ok && decide (value < 2 ^ 32)
  | .tbStepWrite who value _ => who.ok && decide (value < 2 ^ 32)
  | .slewComplete _ => true
  | .tbSetCommit who value _ => who.ok && decide (value < 2 ^ 32)
  | .tbOriginWrite who value => who.ok && decide (value < 2 ^ 32)
  | .ppsEdge _ _ => true
  | .ppsTimeout _ => true
  | .servoHoldoverTimeout _ => true
  | .ref10Loss _ => true
  | .ref10Restore _ _ => true
  | .laneEnergyDetect l => decide (l < 256)
  | .laneEnergyGone l => decide (l < 256)
  | .standbyRequest who value => who.ok && decide (value < 2 ^ 32)
  | .stockRefill c loc inst => decide (c < 8) && decide (loc < 3) && decide (inst < 18)
  | .bpmRegionAdd d => d.ok
  | .bpmRegionRemove d => d.ok
  | .bpmRegionQuery d => d.ok
  | .bpmOwnerCreate d => d.ok
  | .bpmOwnerSet d _ => d.ok
  | .bpmOwnerDestroy d => d.ok
  | .bufAlloc d => d.ok
  | .bufRef d => d.ok
  | .bufRelease d _ => d.ok
  | .bpmAudit d => d.ok
  | .bpmAlarmNextRead who => who.ok
  | .portLinkUp l _ _ _ => decide (l < 256)
  | .portLinkDown l _ _ => decide (l < 256)
  | .laneFrameRx l _ _ _ _ _ => decide (l < 256)
  | .lnTxtsInfoRead who => who.ok
  | .eyeNow who l _ => who.ok && decide (l < 256)
  | .eyeMeasureDone l _ _ _ => decide (l < 256)
  | .ppsOutPulse _ => true
  | .ppsOutPulseEnd _ => true
  | .evtAction k _ => decide (k < 32)
  | .evtHostWrite who k value _ => who.ok && decide (k < 32) && decide (value < 2 ^ 32)
  | .evtEdge k _ _ => decide (k < 32)
  | .evtEdgeConfirm k _ => decide (k < 32)
  | .evtCapInfoRead who k => who.ok && decide (k < 32)
  | .rqDelivery h => decide (h < 18)
  | .opNop h slot => decide (h < 18) && decide (slot < 4)
  | .setptr h => decide (h < 18)
  | .move h => decide (h < 18)
  | .moveFlitDeliver _ _ => true
  | .atriumBeat _ ecc => decide (ecc < 3)
  | .refresh h => decide (h < 18)
  | .emergRefresh stack ch _ => decide (stack < 4) && decide (ch < 16)
  | .selfRefresh stack ch _ => decide (stack < 4) && decide (ch < 16)
  | .win h => decide (h < 18)
  | .skipOp h => decide (h < 18)
  | .land h => decide (h < 18)
  | .wake h => decide (h < 18)
  | .bufOpAlloc h => decide (h < 18)
  | .bufAllocResult h _ => decide (h < 18)
  | .bufOpHand h => decide (h < 18)
  | .handPost h => decide (h < 18)
  | .bufOpRelease h => decide (h < 18)
  | .evtOp h => decide (h < 18)
  | .addOp h c ecc rd ra rb => decide (h < 18) && decide (c < 4) && decide (ecc < 3) && decide (rd < 32) && decide (ra < 32) && decide (rb < 32)
  | .subOp h c ecc rd ra rb => decide (h < 18) && decide (c < 4) && decide (ecc < 3) && decide (rd < 32) && decide (ra < 32) && decide (rb < 32)
  | .andOp h c ecc rd ra rb => decide (h < 18) && decide (c < 4) && decide (ecc < 3) && decide (rd < 32) && decide (ra < 32) && decide (rb < 32)
  | .orOp h c ecc rd ra rb => decide (h < 18) && decide (c < 4) && decide (ecc < 3) && decide (rd < 32) && decide (ra < 32) && decide (rb < 32)
  | .xorOp h c ecc rd ra rb => decide (h < 18) && decide (c < 4) && decide (ecc < 3) && decide (rd < 32) && decide (ra < 32) && decide (rb < 32)
  | .shl h c ecc rd ra rb => decide (h < 18) && decide (c < 4) && decide (ecc < 3) && decide (rd < 32) && decide (ra < 32) && decide (rb < 32)
  | .shr h c ecc rd ra rb => decide (h < 18) && decide (c < 4) && decide (ecc < 3) && decide (rd < 32) && decide (ra < 32) && decide (rb < 32)
  | .sar h c ecc rd ra rb => decide (h < 18) && decide (c < 4) && decide (ecc < 3) && decide (rd < 32) && decide (ra < 32) && decide (rb < 32)
  | .slt h c ecc rd ra rb => decide (h < 18) && decide (c < 4) && decide (ecc < 3) && decide (rd < 32) && decide (ra < 32) && decide (rb < 32)
  | .sltu h c ecc rd ra rb => decide (h < 18) && decide (c < 4) && decide (ecc < 3) && decide (rd < 32) && decide (ra < 32) && decide (rb < 32)
  | .minOp h c ecc rd ra rb => decide (h < 18) && decide (c < 4) && decide (ecc < 3) && decide (rd < 32) && decide (ra < 32) && decide (rb < 32)
  | .maxOp h c ecc rd ra rb => decide (h < 18) && decide (c < 4) && decide (ecc < 3) && decide (rd < 32) && decide (ra < 32) && decide (rb < 32)
  | .minu h c ecc rd ra rb => decide (h < 18) && decide (c < 4) && decide (ecc < 3) && decide (rd < 32) && decide (ra < 32) && decide (rb < 32)
  | .maxu h c ecc rd ra rb => decide (h < 18) && decide (c < 4) && decide (ecc < 3) && decide (rd < 32) && decide (ra < 32) && decide (rb < 32)
  | .mulOp h c ecc rd ra rb => decide (h < 18) && decide (c < 4) && decide (ecc < 3) && decide (rd < 32) && decide (ra < 32) && decide (rb < 32)
  | .mulh h c ecc rd ra rb => decide (h < 18) && decide (c < 4) && decide (ecc < 3) && decide (rd < 32) && decide (ra < 32) && decide (rb < 32)
  | .mulhu h c ecc rd ra rb => decide (h < 18) && decide (c < 4) && decide (ecc < 3) && decide (rd < 32) && decide (ra < 32) && decide (rb < 32)
  | .qadd h c ecc rd ra rb => decide (h < 18) && decide (c < 4) && decide (ecc < 3) && decide (rd < 32) && decide (ra < 32) && decide (rb < 32)
  | .qsub h c ecc rd ra rb => decide (h < 18) && decide (c < 4) && decide (ecc < 3) && decide (rd < 32) && decide (ra < 32) && decide (rb < 32)
  | .qmul h c ecc rd ra rb => decide (h < 18) && decide (c < 4) && decide (ecc < 3) && decide (rd < 32) && decide (ra < 32) && decide (rb < 32)
  | .divu h c ecc rd ra rb => decide (h < 18) && decide (c < 4) && decide (ecc < 3) && decide (rd < 32) && decide (ra < 32) && decide (rb < 32)
  | .remu h c ecc rd ra rb => decide (h < 18) && decide (c < 4) && decide (ecc < 3) && decide (rd < 32) && decide (ra < 32) && decide (rb < 32)
  | .qdiv h c ecc rd ra rb => decide (h < 18) && decide (c < 4) && decide (ecc < 3) && decide (rd < 32) && decide (ra < 32) && decide (rb < 32)
  | .qabs h c ecc rd ra => decide (h < 18) && decide (c < 4) && decide (ecc < 3) && decide (rd < 32) && decide (ra < 32)
  | .qneg h c ecc rd ra => decide (h < 18) && decide (c < 4) && decide (ecc < 3) && decide (rd < 32) && decide (ra < 32)
  | .addi h c ecc rd ra imm => decide (h < 18) && decide (c < 4) && decide (ecc < 3) && decide (rd < 32) && decide (ra < 32) && decide (imm < 2 ^ 16)
  | .andi h c ecc rd ra imm => decide (h < 18) && decide (c < 4) && decide (ecc < 3) && decide (rd < 32) && decide (ra < 32) && decide (imm < 2 ^ 16)
  | .ori h c ecc rd ra imm => decide (h < 18) && decide (c < 4) && decide (ecc < 3) && decide (rd < 32) && decide (ra < 32) && decide (imm < 2 ^ 16)
  | .xori h c ecc rd ra imm => decide (h < 18) && decide (c < 4) && decide (ecc < 3) && decide (rd < 32) && decide (ra < 32) && decide (imm < 2 ^ 16)
  | .slti h c ecc rd ra imm => decide (h < 18) && decide (c < 4) && decide (ecc < 3) && decide (rd < 32) && decide (ra < 32) && decide (imm < 2 ^ 16)
  | .sltiu h c ecc rd ra imm => decide (h < 18) && decide (c < 4) && decide (ecc < 3) && decide (rd < 32) && decide (ra < 32) && decide (imm < 2 ^ 16)
  | .shli h c ecc rd ra imm => decide (h < 18) && decide (c < 4) && decide (ecc < 3) && decide (rd < 32) && decide (ra < 32) && decide (imm < 2 ^ 16)
  | .shri h c ecc rd ra imm => decide (h < 18) && decide (c < 4) && decide (ecc < 3) && decide (rd < 32) && decide (ra < 32) && decide (imm < 2 ^ 16)
  | .sari h c ecc rd ra imm => decide (h < 18) && decide (c < 4) && decide (ecc < 3) && decide (rd < 32) && decide (ra < 32) && decide (imm < 2 ^ 16)
  | .beq h c ecc ra rb off => decide (h < 18) && decide (c < 4) && decide (ecc < 3) && decide (ra < 32) && decide (rb < 32) && decide (off < 2 ^ 16)
  | .bne h c ecc ra rb off => decide (h < 18) && decide (c < 4) && decide (ecc < 3) && decide (ra < 32) && decide (rb < 32) && decide (off < 2 ^ 16)
  | .blt h c ecc ra rb off => decide (h < 18) && decide (c < 4) && decide (ecc < 3) && decide (ra < 32) && decide (rb < 32) && decide (off < 2 ^ 16)
  | .bge h c ecc ra rb off => decide (h < 18) && decide (c < 4) && decide (ecc < 3) && decide (ra < 32) && decide (rb < 32) && decide (off < 2 ^ 16)
  | .bltu h c ecc ra rb off => decide (h < 18) && decide (c < 4) && decide (ecc < 3) && decide (ra < 32) && decide (rb < 32) && decide (off < 2 ^ 16)
  | .bgeu h c ecc ra rb off => decide (h < 18) && decide (c < 4) && decide (ecc < 3) && decide (ra < 32) && decide (rb < 32) && decide (off < 2 ^ 16)
  | .lui h c ecc rd imm => decide (h < 18) && decide (c < 4) && decide (ecc < 3) && decide (rd < 32) && decide (imm < 2 ^ 16)
  | .mac h c ecc ra rb => decide (h < 18) && decide (c < 4) && decide (ecc < 3) && decide (ra < 32) && decide (rb < 32)
  | .msu h c ecc ra rb => decide (h < 18) && decide (c < 4) && decide (ecc < 3) && decide (ra < 32) && decide (rb < 32)
  | .acclr h c ecc => decide (h < 18) && decide (c < 4) && decide (ecc < 3)
  | .acrd h c ecc rd imm => decide (h < 18) && decide (c < 4) && decide (ecc < 3) && decide (rd < 32) && decide (imm < 2 ^ 16)
  | .acset h c ecc ra rb => decide (h < 18) && decide (c < 4) && decide (ecc < 3) && decide (ra < 32) && decide (rb < 32)
  | .acget h c ecc rd => decide (h < 18) && decide (c < 4) && decide (ecc < 3) && decide (rd < 32)
  | .ldw h c ecc rd ra imm => decide (h < 18) && decide (c < 4) && decide (ecc < 3) && decide (rd < 32) && decide (ra < 32) && decide (imm < 2 ^ 16)
  | .ldhu h c ecc rd ra imm => decide (h < 18) && decide (c < 4) && decide (ecc < 3) && decide (rd < 32) && decide (ra < 32) && decide (imm < 2 ^ 16)
  | .stw h c ecc rs ra imm => decide (h < 18) && decide (c < 4) && decide (ecc < 3) && decide (rs < 32) && decide (ra < 32) && decide (imm < 2 ^ 16)
  | .sth h c ecc rs ra imm => decide (h < 18) && decide (c < 4) && decide (ecc < 3) && decide (rs < 32) && decide (ra < 32) && decide (imm < 2 ^ 16)
  | .lds h c ecc rd ra imm => decide (h < 18) && decide (c < 4) && decide (ecc < 3) && decide (rd < 32) && decide (ra < 32) && decide (imm < 2 ^ 16)
  | .sts h c ecc rs ra imm => decide (h < 18) && decide (c < 4) && decide (ecc < 3) && decide (rs < 32) && decide (ra < 32) && decide (imm < 2 ^ 16)
  | .jmp h c ecc off => decide (h < 18) && decide (c < 4) && decide (ecc < 3) && decide (off < 2 ^ 16)
  | .loopOp h c ecc count body => decide (h < 18) && decide (c < 4) && decide (ecc < 3) && decide (count < 2 ^ 14) && decide (body < 2 ^ 12)
  | .rfxNop h c ecc => decide (h < 18) && decide (c < 4) && decide (ecc < 3)
  | .timeOp h c ecc rd => decide (h < 18) && decide (c < 4) && decide (ecc < 3) && decide (rd < 32)
  | .ecap h c ecc rd k => decide (h < 18) && decide (c < 4) && decide (ecc < 3) && decide (rd < 32) && decide (k < 32)
  | .elvl h c ecc rd k => decide (h < 18) && decide (c < 4) && decide (ecc < 3) && decide (rd < 32) && decide (k < 32)
  | .esch h c ecc ra rb act span base => decide (h < 18) && decide (c < 4) && decide (ecc < 3) && decide (ra < 32) && decide (rb < 32) && decide (act < 8) && decide (span < 32) && decide (base < 32)
  | .ecan h c ecc rb span base => decide (h < 18) && decide (c < 4) && decide (ecc < 3) && decide (rb < 32) && decide (span < 32) && decide (base < 32)
  | .endOp h c ecc => decide (h < 18) && decide (c < 4) && decide (ecc < 3)
  | .rfx h => decide (h < 18)
  | .kernelBudgetEnd h c _ => decide (h < 18) && decide (c < 4)
  | .keyLoad d _ => d.ok
  | .keyCommit target _ => decide (target < 65552)
  | .keyErase d => d.ok
  | .keyZeroize k _ => decide (k < 65536)
  | .keyQuery d => d.ok
  | .kekLoad d _ => d.ok
  | .kekErase d => d.ok
  | .keyExhaust k _ => decide (k < 65536)
  | .ctx h => decide (h < 18)
  | .ctxEmission h pool _ _ => decide (h < 18) && decide (pool < 65536)
  | .crx h => decide (h < 18)
  | .poolDeadline h pool _ => decide (h < 18) && decide (pool < 65536)
  | .cyclicFrameRx l _ => decide (l < 256)
  | .notifyOverflowSend h => decide (h < 18)
  | .channelBind d => d.ok
  | .channelUnbind d => d.ok
  | .channelSetKey d => d.ok
  | .channelQuery d => d.ok
  | .stationRead d => d.ok
  | .stationWrite d _ => d.ok
  | .stationClear d => d.ok
  | .portFrameTx l _ _ _ _ => decide (l < 256)
  | .replicateCopy h => decide (h < 18)
  | .bridgeSweepVisit h set _ => decide (h < 18) && decide (set < 32768)
  | .fragEntryExpiry h set _ => decide (h < 18) && decide (set < 1024)
  | .clsWrite d _ => d.ok
  | .clsInvalidate d => d.ok
  | .clsRead d => d.ok
  | .clsCounterRead d => d.ok
  | .frgFlush d => d.ok
  | .fwdWrite d _ => d.ok
  | .fwdDelete d => d.ok
  | .fwdFlush d => d.ok
  | .fwdRead d => d.ok
  | .vportWrite d _ => d.ok
  | .vportRead d => d.ok
  | .tunWrite d _ => d.ok
  | .tunRead d => d.ok
  | .bdWrite d _ => d.ok
  | .floodWrite d _ => d.ok
  | .auditShadowWrite who h b value _ => who.ok && decide (h < 18) && decide (b < 512) && decide (value < 2 ^ 32)
  | .fwdAuditFailRead who h => who.ok && decide (h < 18)
  | .tableWindow h _ => decide (h < 18)
  | .arrivalIssue h _ _ _ => decide (h < 18)
  | .flowIssue h _ _ => decide (h < 18)
  | .openIssue h _ _ _ => decide (h < 18)
  | .ethSend k _ _ => decide (k < 73728)
  | .vfnShareQuery d => d.ok
  | .cipherWindow h _ => decide (h < 18)
  | .cipherOpRelease h _ _ _ _ => decide (h < 18)
  | .cipherJobFetch k _ => decide (k < 73728)
  | .entropyHealthFail h _ _ => decide (h < 18)
  | .dmaOp h => decide (h < 18)
  | .dmaBurstComplete h c _ _ => decide (h < 18) && decide (c < 64)
  | .hostFlitRelease p _ _ _ => decide (p < 8)
  | .readAheadRequest h c _ => decide (h < 18) && decide (c < 64)
  | .bestEffortTlpSend p _ _ => decide (p < 8)
  | .descriptorFetch h c _ _ _ _ => decide (h < 18) && decide (c < 64)
  | .descriptorComplete h c => decide (h < 18) && decide (c < 64)
  | .dmaChKick who h c => who.ok && decide (h < 18) && decide (c < 64)
  | .dmaChStart who h c => who.ok && decide (h < 18) && decide (c < 64)
  | .dmaChCfgWrite who h c value => who.ok && decide (h < 18) && decide (c < 64) && decide (value < 2 ^ 32)
  | .stoConnCreate d _ => d.ok
  | .stoConnClose d => d.ok
  | .stoConnQuery d => d.ok
  | .stoSegmentRx c _ => decide (c < 4096)
  | .rtoExpiry c _ => decide (c < 4096)
  | .delayedAck c _ => decide (c < 4096)
  | .stoCommandFetch k _ => decide (k < 73728)
  | .stoCommandStart c _ _ => decide (c < 4096)
  | .segmentEnqueue c _ _ => decide (c < 4096)
  | .hallFault h cause _ => decide (h < 18) && decide (cause < 256)
  | .hallResetComplete h _ => decide (h < 18)
  | .dmaEngineStop h _ => decide (h < 18)
  | .railFault h _ => decide (h < 18)
  | .laneFault l cause _ => decide (l < 256) && decide (cause < 256)
  | .laneResetComplete l _ => decide (l < 256)
  | .deviceFault cause _ => decide (cause < 256)
  | .halfFault e cause _ => decide (e < 2) && decide (cause < 256)
  | .fltInject d _ => d.ok
  | .fltHallRestore d _ => d.ok
  | .baroPass _ _ _ _ => true
  | .baroStale _ => true
  | .planLoad d _ => d.ok
  | .planLoadStored d => d.ok
  | .planStore d => d.ok
  | .planDiscard d => d.ok
  | .planSwap d => d.ok
  | .planStop d => d.ok
  | .hallReady h _ => decide (h < 18)
  | .swapTimeout _ => true
  | .startSelect _ => true
  | .libraryCopyComplete _ => true
  | .verifyComplete _ => true
  | .landing _ _ _ _ => true
  | .treadStart _ _ => true
  | .standbyEnter _ => true
  | .standbyWake reason _ _ => decide (reason < 16)
  | .vfEnableWrite p _ _ _ => decide (p < 8)
  | .flr f _ => decide (f < 8192)
  | .flrComplete f _ => decide (f < 8192)
  | .perstEdge p _ _ => decide (p < 8)
  | .hostLinkUp p _ _ _ _ => decide (p < 8)
  | .hostLinkDown p _ => decide (p < 8)
  | .hotReset p _ => decide (p < 8)
  | .winCommit who f => who.ok && decide (f < 8192)
  | .winLoad who f => who.ok && decide (f < 8192)
  | .bar4Request f _ _ _ _ _ => decide (f < 8192)
  | .completionTimeout p _ tag fn _ _ _ => decide (p < 8) && decide (tag < 1024) && decide (fn < 8192)
  | .readCompletionRx p _ tag _ _ fn _ _ _ => decide (p < 8) && decide (tag < 1024) && decide (fn < 8192)
  | .powerGood => true
  | .deviceReset _ => true
  | .warmReset _ => true
  | .ownDeviceReset d _ => d.ok
  | .firmwareWatchdog _ => true
  | .deviceFaultReset _ => true
  | .commissionClear d _ => d.ok
  | .inputUv _ => true
  | .inputUvRearm _ => true
  | .supplyShutdown _ => true
  | .overvoltage _ => true
  | .moduleOvercurrent b _ => decide (b < 32)
  | .moduleSupplyRetry b _ => decide (b < 32)
  | .thermalSample _ _ _ => true
  | .thermalTrip _ => true
  | .thermalHoldEnd _ => true
  | .smbStatus _ => true
  | .smbLidTemp _ => true
  | .smbTjMax _ => true
  | .smbVin _ _ => true
  | .smbIin _ _ => true
  | .smbPin _ _ => true
  | .smbPdev _ _ => true
  | .smbPmod _ _ => true
  | .smbBoot _ => true
  | .smbSerial _ => true
  | .smbIdcode _ => true
  | .smbDeviceReset _ value _ => decide (value < 256)
  | .jtagExtest _ _ => true
  | .jtagSamplePreload _ _ => true
  | .jtagIdcode => true
  | .jtagClamp => true
  | .jtagHighz => true
  | .jtagBypass => true
  | .jtagTestLogicReset _ => true
  | .lowWordRead who addr _ => who.ok && decide (addr < 0x50000000)
  | .highWordCommit who addr value _ => who.ok && decide (addr < 0x50000000) && decide (value < 2 ^ 32)
  | .registerWrite who addr value _ => who.ok && decide (addr < 0x50000000) && decide (value < 2 ^ 32)
  | .hostRequest f _ _ => decide (f < 8192)

end Sys2Proof
end

