-- ==== Sys2Proof/Machine/Bits.lean ====
section
/-! DEFINITION. Bit-field, byte-order and checksum helpers, and the sparse tables that hold the part's large
arrays (one write rule, one read rule). -/

namespace Sys2Proof

/-- Read a sparse table: what stands at the key, or the default. -/
def Tbl.get {α : Type} (d : α) : Tbl α → Nat → α
  | [], _ => d
  | (k', v) :: t, k => if k' = k then v else if k < k' then d else Tbl.get d t k

/-- Write a sparse table, keys kept rising. -/
def Tbl.put {α : Type} : Tbl α → Nat → α → Tbl α
  | [], k, v => [(k, v)]
  | (k', v') :: t, k, v =>
    if k < k' then (k, v) :: (k', v') :: t
    else if k' = k then (k, v) :: t
    else (k', v') :: Tbl.put t k v

/-- Drop a key of a sparse table. -/
def Tbl.del {α : Type} (t : Tbl α) (k : Nat) : Tbl α := t.filter (fun e => !(e.1 == k))

/-- Replace the bits hi..lo of a number by the low bits of v. -/
def putBits (w hi lo v : Nat) : Nat :=
  w - bitsOf w hi lo * 2 ^ lo + v % 2 ^ (hi + 1 - lo) * 2 ^ lo

/-- n octets of a number, least significant first (R8: structures in memory are little-endian). -/
def leBytes : Nat → Nat → Bytes
  | 0, _ => []
  | n + 1, v => BitVec.ofNat 8 v :: leBytes n (v / 256)

/-- The number that octets spell, least significant first. -/
def leNat : Bytes → Nat
  | [] => 0
  | b :: t => b.toNat + 256 * leNat t

/-- n octets of a number, most significant first (R8: fields on the wire). -/
def beBytes (n v : Nat) : Bytes := (leBytes n v).reverse

/-- The number that octets spell, most significant first. -/
def beNat (b : Bytes) : Nat := leNat b.reverse

/-- n octets of a string from an offset; octets past the end read 0. -/
def sliceB (b : Bytes) (off n : Nat) : Bytes :=
  let t := (b.drop off).take n
  t ++ List.replicate (n - t.length) 0

/-- The little-endian number at an offset of a structure. -/
def leAt (b : Bytes) (off n : Nat) : Nat := leNat (sliceB b off n)

/-- The network-order number at an offset of a frame. -/
def beAt (b : Bytes) (off n : Nat) : Nat := beNat (sliceB b off n)

/-- Replace octets at an offset. -/
def spliceB (b : Bytes) (off : Nat) (v : Bytes) : Bytes :=
  b.take off ++ List.replicate (off - b.length) 0 ++ v ++ b.drop (off + v.length)

/-- A number read as signed in w bits. -/
def toSigned (w v : Nat) : Int :=
  let u := v % 2 ^ w
  if u < 2 ^ (w - 1) then (u : Int) else (u : Int) - (2 ^ w : Nat)

/-- A signed number as w bits. -/
def ofSigned (w : Nat) (i : Int) : Nat := (i % ((2 ^ w : Nat) : Int)).toNat

/-- Subtraction modulo 2^32 (R363: indices are free-running 32-bit counters). -/
def sub32 (a b : Nat) : Nat := (a + 2 ^ 32 - b % 2 ^ 32) % 2 ^ 32

/-- Addition modulo 2^32. -/
def add32 (a b : Nat) : Nat := (a + b) % 2 ^ 32

/-- One bit of a reflected CRC. -/
def crcBit (poly c : Nat) : Nat := if c % 2 = 1 then (c / 2) ^^^ poly else c / 2

/-- One octet of a reflected CRC. -/
def crcByte (poly c : Nat) (b : Byte) : Nat :=
  let x := c ^^^ b.toNat
  crcBit poly (crcBit poly (crcBit poly (crcBit poly (crcBit poly (crcBit poly (crcBit poly (crcBit poly x)))))))

/-- A 32-bit reflected CRC with all-ones start and final inversion. -/
def crc32With (poly : Nat) (b : Bytes) : Nat := (b.foldl (crcByte poly) 0xFFFFFFFF) ^^^ 0xFFFFFFFF

/-- CRC-32 of IEEE 802.3, the Ethernet frame check sequence. -/
def crc32 (b : Bytes) : Nat := crc32With 0xEDB88320 b

/-- CRC32C (Castagnoli). -/
def crc32c (b : Bytes) : Nat := crc32With 0x82F63B78 b

/-- Ones'-complement sum of 16-bit network-order words, an odd last octet padded with 0. -/
def onesSum : Bytes → Nat → Nat
  | [], acc => acc
  | [a], acc => let t := acc + a.toNat * 256; t % 65536 + t / 65536
  | a :: b :: r, acc => let t := acc + a.toNat * 256 + b.toNat; onesSum r (t % 65536 + t / 65536)

/-- Parameter word k of an admin command (R386). -/
def AdminCmd.p (d : AdminCmd) (k : Nat) : Nat := d.params.getD k 0

/-- A 64-bit parameter: the low word first (R386). -/
def AdminCmd.p64 (d : AdminCmd) (k : Nat) : Nat := d.p k + 2 ^ 32 * d.p (k + 1)

/-- The quotient rounded up. -/
def ceilDiv (a b : Nat) : Nat := (a + b - 1) / b

/-- The element at an index of a list, replaced. -/
def listSet {α : Type} (l : List α) (i : Nat) (v : α) : List α := l.set i v

/-- Remove the first element that satisfies a test. -/
def removeFirst {α : Type} (p : α → Bool) : List α → List α
  | [] => []
  | a :: t => if p a then t else a :: removeFirst p t

end Sys2Proof
end

