-- ==== Sys2Proof/Machine/Plan.lean ====
section
/-! DEFINITION. Plan images: the fields of their header, their sections and records (R64 to R80, R94 to R129), as
functions of the image's octets. -/

namespace Sys2Proof.Machine

/-- One entry of the section directory (R70). -/
structure Section where
  ty : Nat
  hall : Nat
  rsv : Nat
  off : Nat
  len : Nat
  count : Nat
deriving DecidableEq, Repr

namespace Plan

def flightLen (b : Bytes) : Nat := bitsOf (leAt b 0x20 4) 20 0
def flags (b : Bytes) : Nat := leAt b 0x24 4
def standaloneOk (b : Bytes) : Bool := bitOf (flags b) 0
def requireSync (b : Bytes) : Bool := bitOf (flags b) 1
def energy (b : Bytes) : Nat := leAt b 0x28 4
def serial (b : Bytes) : Nat := leAt b 0x30 8
def hash (b : Bytes) : Bytes := sliceB b 0x90 48

/-- HALL_MAP entry of a physical hall (R66). -/
def hallMap (b : Bytes) (h : Nat) : Nat := leAt b (0x40 + 4 * h) 4
def used (b : Bytes) (h : Nat) : Bool := bitOf (hallMap b h) 31
def spare (b : Bytes) (h : Nat) : Bool := bitOf (hallMap b h) 30
def logical (b : Bytes) (h : Nat) : Nat := bitsOf (hallMap b h) 27 24
def reqGrade (b : Bytes) (h : Nat) : Nat := bitsOf (hallMap b h) 22 20
def idleFrost (b : Bytes) (h : Nat) : Nat := bitsOf (hallMap b h) 18 16

/-- The physical hall that the image's own map gives a logical hall. -/
def phys (b : Bytes) (l : Nat) : Option Nat := (List.range 18).find? (fun h => used b h && logical b h == l)

/-- The used physical halls. -/
def usedHalls (b : Bytes) : List Nat := (List.range 18).filter (used b)

/-- DUTY_HALL byte of a host port (R67): the logical hall, if valid. -/
def duty (b : Bytes) (p : Nat) : Option Nat :=
  let v := leAt b (0x88 + p) 1
  if bitOf v 7 then some (v % 16) else none

/-- The section directory (R70). -/
def sections (b : Bytes) : List Section :=
  (List.range (min (leAt b 0x0C 4) 1024)).map (fun i =>
    let o := 0x200 + 32 * i
    { ty := leAt b o 2, hall := leAt b (o + 2) 1, rsv := leAt b (o + 3) 5 + leAt b (o + 0x1C) 4,
      off := leAt b (o + 8) 8, len := leAt b (o + 0x10) 8, count := leAt b (o + 0x18) 4 })

/-- The first section of a type and scope. -/
def sect (b : Bytes) (ty hall : Nat) : Option Section := (sections b).find? (fun s => s.ty == ty && s.hall == hall)

/-- The octets of a section. -/
def body (b : Bytes) (s : Section) : Bytes := sliceB b s.off s.len

/-- The octets of a section of a type and scope; empty where there is none. -/
def bodyOf (b : Bytes) (ty hall : Nat) : Bytes :=
  match sect b ty hall with
  | some s => body b s
  | none => []

/-- n records of w octets. -/
def chunks (w : Nat) : Nat → Bytes → List Bytes
  | 0, _ => []
  | n + 1, b => b.take w :: chunks w n (b.drop w)

def records (w : Nat) (b : Bytes) : List Bytes := chunks w (b.length / w) b

/-! ### Ops (R94 to R96) -/

def opcode (o : Nat) : Nat := bitsOf o 63 56
def offset (o : Nat) : Nat := bitsOf o 55 49

/-- The four ops of a bundle, M, P, E, C. -/
def bundle (b : Bytes) : List Nat := [leAt b 0 8, leAt b 8 8, leAt b 16 8, leAt b 24 8]

/-- A logical hall's tread program, bundle by bundle. -/
def program (b : Bytes) (l : Nat) : List (List Nat) := (records 32 (bodyOf b 1 l)).map bundle

/-- The op of a slot of a bundle. -/
def slot (bd : List Nat) (k : Nat) : Nat := bd.getD k 0

/-- How many bundles come before the first tread bundle (R97): the header and the K that PRE announces. -/
def lead (p : List (List Nat)) : Nat :=
  match p with
  | bd :: _ => if opcode (slot bd 3) = 0x57 then 1 + bitsOf (slot bd 3) 48 33 else 0
  | [] => 0

/-- Treads that a bundle covers beyond its own (R98, R128). -/
def covers (bd : List Nat) : Nat :=
  let c := slot bd 3
  if opcode c = 0x55 ∨ opcode c = 0x56 then bitsOf c 48 29 else 0

/-- Where tread n of a flight stands in the tread bundles (R98): the bundle's index, whether the tread is a covered one,
and how many covered treads remain after it. -/
def place : List (List Nat) → Nat → Nat → Option (Nat × Bool × Nat)
  | [], _, _ => none
  | bd :: t, i, n =>
    if n = 0 then some (i, false, covers bd)
    else if n ≤ covers bd then some (i, true, covers bd - n)
    else place t (i + 1) (n - 1 - covers bd)

/-- The bundle of a tread. -/
def treadPlace (p : List (List Nat)) (n : Nat) : Option (Nat × Bool × Nat) := place (p.drop (lead p)) (lead p) n

/-- The tread bundles with the tread at which each issues. -/
def timeline : List (List Nat) → Nat → List (Nat × List Nat)
  | [], _ => []
  | bd :: t, n => (n, bd) :: timeline t (n + 1 + covers bd)

def treadBundles (p : List (List Nat)) : List (Nat × List Nat) := timeline (p.drop (lead p)) 0

/-- The preamble ops in the order of R130. -/
def preamble (p : List (List Nat)) : List Nat :=
  (((p.take (lead p)).drop 1).flatten).filter (fun o => opcode o = 0x12 || opcode o = 0x70)

/-! ### Records -/

/-- A CAPACITY_POOLS record (R76). -/
structure Pool where
  id : Nat
  hall : Nat
  twin : Option Nat
  slots : Nat
  segs : Nat
  gmac : Bool
  out : Nat
  inn : Nat
  deadline : Nat
  ring : Nat
  off : Nat
  mode : Nat
deriving DecidableEq, Repr

def pool (r : Bytes) : Pool :=
  { id := leAt r 0 2, hall := leAt r 2 1 % 16, twin := if bitOf (leAt r 3 1) 7 then some (leAt r 3 1 % 16) else none,
    slots := leAt r 4 2, segs := leAt r 6 1 % 32, gmac := bitOf (leAt r 7 1) 0, out := leAt r 8 2, inn := leAt r 10 2,
    deadline := bitsOf (leAt r 0x10 4) 19 0, ring := leAt r 0x14 4, off := leAt r 0x18 4, mode := leAt r 0x1C 1 }

def pools (b : Bytes) : List Pool := (records 32 (bodyOf b 9 0xFF)).map pool
def poolOf (b : Bytes) (id : Nat) : Option Pool := (pools b).find? (fun p => p.id == id)

/-- A pool's slot stride and the area of a slot (R76). -/
def Pool.stride (p : Pool) : Nat := (p.out + p.inn + 63) / 64 * 64
def Pool.area (p : Pool) (i : Nat) : Nat := p.off + i * p.stride

/-- A hall carries a pool: its HALL or its TWIN. -/
def Pool.carriedBy (p : Pool) (l : Nat) : Bool := p.hall == l || p.twin == some l

/-- A WAKE_SCHEDULE record (R80): hall, level, period, phase, run. -/
def wakes (b : Bytes) : List (Nat × Nat × Nat × Nat × Nat) :=
  (records 16 (bodyOf b 0xB 0xFF)).map (fun r => (leAt r 0 1 % 16, leAt r 1 1, leAt r 4 4, leAt r 8 4, leAt r 12 4))
def wakeOf (b : Bytes) (l : Nat) : Option (Nat × Nat × Nat × Nat × Nat) := (wakes b).find? (fun w => w.1 == l)

/-- (f - PHASE) mod PERIOD. -/
def phaseAt (f phase period : Nat) : Nat := (f + period - phase % period) % period

/-- A logical hall runs in a flight (R80). -/
def runsIn (b : Bytes) (l f : Nat) : Bool :=
  match wakeOf b l with
  | some (_, _, period, phase, run) => decide (phaseAt f phase period < run)
  | none => true

/-- The level a used hall waits at outside its running flights. -/
def waitLevel (b : Bytes) (l : Nat) : Nat :=
  match wakeOf b l with
  | some (_, level, _) => level
  | none => 0

/-- A class record of OPEN_BUDGETS (R78): class, rank, quantum, cap. -/
def budgets (b : Bytes) (l : Nat) : List (Nat × Nat × Nat × Nat) :=
  ((records 16 (bodyOf b 0xA l)).filter (fun r => leAt r 0 1 != 0xFF)).map
    (fun r => (leAt r 0 1, leAt r 1 1, leAt r 2 2, leAt r 4 4))
/-- FLOOD_CAP of a hall's record (R78). -/
def floodCap (b : Bytes) (l : Nat) : Nat :=
  match (records 16 (bodyOf b 0xA l)).find? (fun r => leAt r 0 1 == 0xFF) with
  | some r => leAt r 4 4
  | none => 0

/-- BAY_MAP (R72): the logical hall that owns a bay, and the mode of a lane. -/
def bayHall (b : Bytes) (k : Nat) : Option Nat :=
  let v := leAt (bodyOf b 4 0xFF) (8 * k) 1
  if bitOf v 7 then some (v % 16) else none
def laneMode (b : Bytes) (lane : Nat) : Nat :=
  bitsOf (leAt (bodyOf b 4 0xFF) (8 * (lane / 8) + 4) 4) (4 * (lane % 8) + 3) (4 * (lane % 8))

/-- A REFLEX_BUDGET record (R74): kernel, code offset, code length, budget. -/
def kernels (b : Bytes) (l : Nat) : List (Nat × Nat × Nat × Nat) :=
  (records 16 (bodyOf b 7 l)).map (fun r => (leAt r 0 2, leAt r 4 4, leAt r 8 4, leAt r 12 4))
def kernel (b : Bytes) (l k : Nat) : Option (Nat × Nat × Nat × Nat) := (kernels b l).find? (fun r => r.1 == k)

/-- The instruction words of a kernel. -/
def code (b : Bytes) (l off len : Nat) : List Nat := (records 4 (sliceB (bodyOf b 6 l) off len)).map leNat

/-- A TABLE_PRELOAD block (R75): target, start, count, entry octets, data. -/
structure Block where
  target : Nat
  rsv : Nat
  start : Nat
  count : Nat
  width : Nat
  data : Bytes
  pad : Bytes
deriving DecidableEq, Repr

/-- The blocks of a TABLE_PRELOAD section; fuel bounds their number. -/
def blocks : Nat → Bytes → List Block
  | 0, _ => []
  | n + 1, b =>
    if b = [] then [] else
    let c := leAt b 8 4
    let w := leAt b 12 4
    let size := (16 + c * w + 63) / 64 * 64
    { target := leAt b 0 2, rsv := leAt b 2 2, start := leAt b 4 4, count := c, width := w,
      data := sliceB b 16 (c * w), pad := (b.take size).drop (16 + c * w) } :: blocks n (b.drop size)

/-- Every block preloaded for a logical hall. -/
def preloads (b : Bytes) (l : Nat) : List Block :=
  (((sections b).filter (fun s => s.ty == 8 && s.hall == l)).map (fun s => blocks s.count (body b s))).flatten

end Plan

end Sys2Proof.Machine
end

