-- ==== Sys2Proof/Machine/Memory.lean ====
section
/-! DEFINITION. The part's own memories, sparse and in one canonical form: addresses strictly rising, no entry equal to
what an unlisted address reads as. Host memory is outside the part: reads of it arrive as operands, writes to it leave. -/

namespace Sys2Proof.Machine

/-- A memory: the cells that differ from what an unlisted address reads as. -/
abbrev Memory := List Host.Cell

namespace Memory

/-- What an unlisted address reads as (log entry 13): no contents after power-on are given. -/
def blank : Byte := 0#8

/-- Every address of a memory lies above a bound, addresses rise, and no entry is blank. -/
def above : Option Nat → Memory → Bool
  | _, [] => true
  | b, (a, v) :: t => (match b with | none => true | some x => decide (x < a)) && v != blank && above (some a) t

/-- The canonical form. -/
def wf (m : Memory) : Bool := above none m

/-- Read one byte. -/
def read : Memory → Nat → Byte
  | [], _ => blank
  | (a', v) :: t, a => if a' = a then v else if a < a' then blank else read t a

/-- Write one byte; writing the blank value removes the entry. -/
def write : Memory → Nat → Byte → Memory
  | [], a, v => if v = blank then [] else [(a, v)]
  | (a', v') :: t, a, v =>
    if a < a' then (if v = blank then (a', v') :: t else (a, v) :: (a', v') :: t)
    else if a' = a then (if v = blank then t else (a, v) :: t)
    else (a', v') :: write t a v

/-- Read n bytes from an address. -/
def readN (m : Memory) (a : Nat) : Nat → Bytes
  | 0 => []
  | n + 1 => m.read a :: readN m (a + 1) n

/-- Write bytes from an address on. -/
def writeN (m : Memory) : Nat → Bytes → Memory
  | _, [] => m
  | a, b :: t => writeN (m.write a b) (a + 1) t

/-- Forget every byte of [lo, hi). -/
def clear (m : Memory) (lo hi : Nat) : Memory := m.filter (fun c => !(decide (lo ≤ c.1) && decide (c.1 < hi)))

end Memory

end Sys2Proof.Machine
end

