-- ==== Sys2Proof/Config.lean ====
section
/-! DEFINITION. What the spec leaves open or names without giving, as constants with no body: nothing in Lean can
evaluate them, so a theorem about the part holds whatever they are. -/

namespace Sys2Proof.Config

/-- The n-th free value: a value the spec leaves open, drawn through State's counter of them (log entry 4). -/
opaque freeValue : Nat → Nat

/-- SHA-384 of an octet string, as a 48-octet string (named by R65, R483; log entry 5). -/
opaque sha384 : Bytes → Bytes

/-- ECDSA P-384 with SHA-384: public key, signed octets, signature r then s; does it verify? (R69, R486; log entry 5). -/
opaque ecdsaVerify : Bytes → Bytes → Bytes → Bool

/-- RFC 3394 unwrap of a wrapped key under a key-encryption key; none when its integrity check fails (log entry 5). -/
opaque keyUnwrap : Bytes → Bytes → Option Bytes

/-- The wrapped octets unwrap under the key as RFC 5649 pads them, which the device does not support (R296; log entry 5). -/
opaque keyPadded : Bytes → Bytes → Bool

/-- The wrapping key of R489: from the ephemeral public key and the serial number, by the identity key (log entry 5). -/
opaque kek0WrapKey : Bytes → Bytes → Bytes

/-- AES-GCM: key, nonce, associated octets, plaintext; answers ciphertext and the 16-octet tag (log entry 5). -/
opaque gcmSeal : Bytes → Bytes → Bytes → Bytes → Bytes × Bytes

/-- AES-GCM decryption of a ciphertext (the tag is recomputed by gcmTag; log entry 5). -/
opaque gcmOpen : Bytes → Bytes → Bytes → Bytes → Bytes

/-- The GCM tag over associated octets and ciphertext (log entry 5). -/
opaque gcmTag : Bytes → Bytes → Bytes → Bytes → Bytes

/-- AES-XTS: both keys, tweak (sector) number, encrypt?, octets (log entry 5). -/
opaque xts : Bytes → Nat → Bool → Bytes → Bytes

/-- The part's own identity, fused at manufacture: device serial number (R400), 8 octets as a number (log entry 6). -/
opaque serial : BitVec 64

/-- The identity public key and the vendor's signature over it (R489; log entry 6). -/
opaque identityKey : Bytes
opaque identitySignature : Bytes

/-- The fused SHA-384 digests of the firmware keys: vendor, and OEM with whether one is programmed (R483; log entry 6). -/
opaque vendorKeyDigest : Bytes
opaque oemKeyDigest : Option Bytes

/-- Where an image carries its signer's public key inside its body header area is not given (R483): the key, from the
image's octets (log entry 5). -/
opaque imageKey : Bytes → Bytes

/-- The ordering code: true for ZG9256-XS, false for ZG9256-IS (R3; log entry 6). -/
opaque isXS : Bool

/-- Fused per hall at test (R532 to R535; log entry 6): V_CAP and the floor in mV, the reserve in mV (0 to 31), S_V in 0.001 ps per
mV, S_T in 0.01 ps per degree, and the factory reference delay of a canary in 1/2000 ps. -/
opaque vCap : Nat → Nat
opaque vFloor : Nat → Nat
opaque reserveMax : Nat → Nat
opaque slopeV : Nat → Nat
opaque slopeT : Nat → Nat
opaque canaryRef : Nat → Nat → Nat

/-- The silicon revision (R400, R564; log entry 6). -/
opaque siliconRevision : BitVec 4

/-- Subsystem ID and Subsystem Vendor ID, written into the non-volatile store at commissioning (R400; log entry 6). -/
opaque subsystem : BitVec 32

end Sys2Proof.Config
end

