-- ==== Sys2Proof/Machine/Regs.lean ====
section
/-! DEFINITION. The register map: every register of the part by the name its field table gives it, with its offset,
its strides and its fields (access type and reset value), as the field tables of the chapters and chapter 23
(R573, R578) lay them out. Function-page registers stand at 0x3000_0000 + 0x1_0000 * f + their page offset, so that
every function's page has addresses of its own (the owner's own page is shown there, R573). -/

namespace Sys2Proof

/-- The access types of R4 (a reserved field is no field: it reads 0 and ignores writes). -/
inductive Acc where
  | rw | ro | wo | w1c | w1s
deriving DecidableEq, Repr

/-- Every register, by name. A name with instances covers all of them. -/
inductive Reg where
  | CALM_STATE
  | CALM_STANDBY
  | CALM_EVT_WAKE_EN
  | CALM_THAW_CNT
  | CALM_LANE_ED
  | CALM_PERST
  | CALM_DBWAKE
  | CALM_EVT_IN
  | CALM_THERM
  | CALM_HALL_STATE
  | CALM_DUTY_PORT
  | TB_NOW_FRAC
  | TB_NOW_NS
  | TB_NOW_SEC_LO
  | TB_NOW_SEC_HI
  | TB_CTRL
  | TB_STATUS
  | TB_RATE
  | TB_STEP
  | TB_SET_NS
  | TB_SET_SEC_LO
  | TB_SET_SEC_HI
  | TB_ORIGIN_NS
  | TB_ORIGIN_SEC_LO
  | TB_ORIGIN_SEC_HI
  | TB_FLIGHT_LEN
  | TB_TREAD
  | TB_FLIGHT_LO
  | TB_FLIGHT_HI
  | PLN_ACTIVE_STATUS
  | PLN_STANDBY_STATUS
  | PLN_VERIFY_WHERE
  | PLN_VERIFY_ITEM
  | PLN_HALL_READY
  | PLN_POWER_BUDGET
  | PLN_DOMAIN
  | PLN_RANK
  | PLN_BOOT
  | PLN_SWAP_TIMEOUT
  | PLN_COUNTS
  | PLN_ENERGY_LAST
  | PLN_MIN_SERIAL_LO
  | PLN_MIN_SERIAL_HI
  | PLN_ACTIVE_SERIAL_LO
  | PLN_ACTIVE_SERIAL_HI
  | PLN_STANDBY_SERIAL_LO
  | PLN_STANDBY_SERIAL_HI
  | PLN_SWAP_FLIGHT_LO
  | PLN_SWAP_FLIGHT_HI
  | PLN_ACTIVE_HASH
  | PLN_STANDBY_HASH
  | TSQ_RUN
  | TSQ_FAULT_SUM
  | TSQ_MAP
  | TSQ_STATE
  | TSQ_BUNDLE
  | TSQ_SKIP_LEFT
  | TSQ_FAULT
  | TSQ_CNT_SUPPRESS
  | TSQ_CNT_DMA_IDLE
  | TSQ_CNT_ALLOC_FAIL
  | TSQ_CNT_ORPHAN
  | TSQ_CNT_LANEREC
  | TSQ_CNT_FLOWDROP
  | TSQ_CNT_EVT_PREEMPT
  | TSQ_CNT_HAND_UNBOUND
  | TSQ_CNT_ECC
  | TSQ_PTR_LO
  | TSQ_PTR_HI
  | TSQ_PTRBUF
  | GAL_STATUS
  | GAL_CNT_FLITS_LO
  | GAL_CNT_FLITS_HI
  | GAL_CNT_OPEN_IDLE_LO
  | GAL_CNT_OPEN_IDLE_HI
  | GAL_CNT_FLIT_ERR
  | GAL_HOSTQ_MAX
  | GAL_REMAP_OK
  | ATR_STATUS
  | ATR_CNT_CE
  | ATR_CNT_UE
  | ATR_CNT_EMERG
  | ATR_REFRESH_GAP
  | RFX_STATUS
  | RFX_CORE
  | RFX_ABORT_INFO
  | RFX_ABORT_TREAD
  | RFX_LANDS
  | RFX_CNT_DISPATCH
  | RFX_CNT_ABORT
  | RFX_MAX_CLOCKS
  | RFX_CNT_DIVZ
  | RFX_CNT_EVT_LATE
  | RFX_CNT_EVT_REJECT
  | RFX_CNT_COMMIT
  | CYC_CFG
  | CYC_STATUS
  | CYC_DIR_VALID
  | CYC_SLOTS_BOUND
  | CYC_SRC_MAC_LO
  | CYC_SRC_MAC_HI
  | CYC_CNT_TX
  | CYC_CNT_IDLE
  | CYC_CNT_RX_ONTIME
  | CYC_CNT_LATE
  | CYC_CNT_DUP
  | CYC_CNT_BAD_FRAME
  | CYC_CNT_BAD_FLIGHT
  | CYC_CNT_UNBOUND
  | CYC_CNT_SID_CONFLICT
  | CYC_CNT_DOMAIN
  | CYC_CNT_AUTH_FAIL
  | CYC_CNT_KEY
  | CYC_CNT_HELLO
  | CYC_CNT_LEARN
  | CYC_CNT_NOTIFY_DROP
  | CYC_CNT_MISS
  | CYC_CNT_BYE
  | LN_LANE_CFG
  | LN_LANE_STATUS
  | LN_LANE_DELAY
  | LN_EYE
  | LN_CNT_RXFRAMES
  | LN_CNT_RXDROP
  | LN_CNT_RXERR
  | LN_CNT_FEC_CE
  | LN_CNT_FEC_UE
  | LN_CNT_TXFRAMES
  | LN_CNT_TXDOWN
  | LN_CNT_MACCTL
  | LN_CNT_TXDROP
  | LN_TXTS_NS
  | LN_TXTS_SEC_LO
  | LN_TXTS_SEC_HI
  | LN_TXTS_INFO
  | LN_TXTS_STATUS
  | LN_DOMAIN_STATUS
  | LN_PPS_OUT
  | EVT_STATUS
  | EVT_LAND_CFG
  | EVT_CAP_INFO
  | EVT_CAP_LO
  | EVT_CAP_HI
  | EVT_LEVEL
  | EVT_HOST
  | PRS_CFG
  | PRS_TUN_PORTS
  | PRS_STATUS
  | PRS_CUSTOM
  | PRS_UDF
  | PRS_CNT_FRAMES
  | PRS_CNT_ERR
  | CLS_STATUS
  | CLS_MIRROR
  | CLS_MISS_W0
  | CLS_MISS_W1
  | CLS_MISS_W2
  | CLS_MISS_W3
  | CLS_CNT_LOOKUP
  | CLS_CNT_MISS
  | CLS_CNT_BAD_ACTION
  | CLS_CNT_DECAP_FAIL
  | FRG_CFG
  | FRG_STATUS
  | FRG_CNT_INSTALL
  | FRG_CNT_HIT
  | FRG_CNT_MISS
  | FRG_CNT_FULL
  | FRG_CNT_FREED
  | FRG_CNT_AGED
  | FWD_CFG
  | FWD_STATUS
  | FWD_ENTRIES
  | FWD_UNSTABLE_INFO
  | FWD_FLOOD_USED
  | FWD_CNT_LOOKUP
  | FWD_CNT_HIT
  | FWD_CNT_UNKNOWN
  | FWD_CNT_FLOODED
  | FWD_CNT_FLOOD_CAP
  | FWD_CNT_LEARN
  | FWD_CNT_LEARN_FULL
  | FWD_CNT_MOVES
  | FWD_CNT_MOVE_FROZEN
  | FWD_CNT_STATIC_MOVE
  | FWD_CNT_AGED
  | FWD_CNT_SPOOF
  | FWD_CNT_HAIRPIN
  | FWD_CNT_BD_INVALID
  | FWD_CNT_VPORT_DROP
  | FWD_CNT_STATION_MISS
  | FWD_CNT_REPL_DROP
  | FWD_CNT_EGRESS_DROP
  | FWD_CNT_ECC
  | FWD_AUDIT_CFG
  | FWD_AUDIT_STATUS
  | FWD_AUDIT_FAIL
  | FWD_AUDIT_FAIL_DIGEST
  | FWD_AUDIT_VALID
  | FWD_AUDIT_SHADOW
  | TUN_CFG
  | TUN_STATUS
  | TUN_CNT_ENCAP
  | TUN_CNT_DECAP
  | TUN_CNT_MTU
  | TUN_CNT_TAG_DEPTH
  | TUN_CNT_TEMPLATE_INVALID
  | TUN_CNT_NO_VNI
  | TUN_CNT_VNI_MISS
  | TUN_CNT_CRIT
  | TUN_CNT_NO_L2
  | CPH_KS_STATUS
  | CPH_KS_REVOKING
  | CPH_KEK_VALID
  | CPH_KS_CNT_LOAD
  | CPH_KS_CNT_UNWRAP_FAIL
  | CPH_KS_CNT_ERASE
  | CPH_STATUS
  | CPH_JOBQ_CFG
  | CPH_LEVELS
  | CPH_WIN_MAX
  | CPH_SLOTS_USED_LO
  | CPH_SLOTS_USED_HI
  | CPH_SLOTS_IDLE_LO
  | CPH_SLOTS_IDLE_HI
  | CPH_CNT_OPS
  | CPH_CNT_AUTH_FAIL
  | CPH_CNT_REVOKED
  | CPH_CNT_NONCE
  | CPH_CNT_KEY
  | CPH_CNT_KEY_MISMATCH
  | CPH_CNT_INLINE_DROP
  | CPH_CNT_REPLAY
  | CPH_CNT_BAD_TAG
  | CPH_CNT_LENGTH
  | CPH_CNT_ENTROPY
  | BPM_STATUS
  | BPM_CFG
  | BPM_CLASS_TOTAL
  | BPM_CLASS_FREE
  | BPM_REGIONS
  | BPM_BYTES_LO
  | BPM_BYTES_HI
  | BPM_ALARM_NEXT
  | BPM_CNT_ALLOC
  | BPM_CNT_FREED
  | BPM_CNT_QUOTA
  | BPM_CNT_NO_BUFFER
  | BPM_CNT_STOCK_EMPTY
  | BPM_CNT_BAD_RELEASE
  | BPM_CNT_NOT_OWNER
  | BPM_CNT_HDR_BAD
  | DMA_CFG
  | DMA_STATUS
  | DMA_ERR_INFO
  | DMA_ERR_ADDR_LO
  | DMA_ERR_ADDR_HI
  | DMA_CNT_DESC
  | DMA_CNT_DESC_ERR
  | DMA_CNT_LATE
  | DMA_CNT_CHAIN_LIMIT
  | DMA_CNT_SG_STALL
  | DMA_CNT_CRC_MISMATCH
  | DMA_CNT_BYTES_LO
  | DMA_CNT_BYTES_HI
  | DMA_CNT_CARRIER_IDLE_LO
  | DMA_CNT_CARRIER_IDLE_HI
  | DMA_CH_CFG
  | DMA_CH_QUEUE
  | DMA_CH_CHAIN_LO
  | DMA_CH_CHAIN_HI
  | DMA_CH_CHAIN_FN
  | DMA_CH_CTRL
  | DMA_CH_STATUS
  | DMA_CH_REMAIN
  | WQ_CFG
  | WQ_STATUS
  | WQ_QUEUES
  | WQ_CNT_OVERRUN
  | WQ_CNT_CQ_FULL
  | WQ_CNT_STALL
  | WQ_CNT_REFETCH
  | WQ_CNT_REARM_STALE
  | WQ_CNT_DB_IGNORED
  | WQ_CNT_RQ_DROP
  | WQ_CNT_EVENT_DROP
  | WQ_STAGE
  | WQ_QSEL
  | WQ_QINFO
  | WQ_QPROD
  | WQ_QCONS
  | WQ_QWMARK
  | WQ_FN_AQ_BASE_LO
  | WQ_FN_AQ_BASE_HI
  | WQ_FN_ACQ_BASE_LO
  | WQ_FN_ACQ_BASE_HI
  | WQ_FN_AQ_CFG
  | WQ_FN_ACQ_CFG
  | WQ_FN_ADMIN_STATE
  | WQ_FN_EVQ
  | EP_PORT_MAP
  | EP_PORT_MAP_STATUS
  | EP_PORT_CFG
  | EP_PORT_STATUS
  | EP_PORT_CPL
  | EP_LATE_CPL
  | EP_CNT_CTO
  | EP_CNT_UR
  | EP_CNT_UNEXP_CPL
  | EP_CNT_BAD_VECTOR
  | EP_CNT_PME
  | EP_CNT_FLR
  | EP_CNT_WIN_MISS
  | EP_FSEL
  | EP_WIN_SHADOW_W0
  | EP_WIN_SHADOW_W1
  | EP_WIN_SHADOW_W2
  | EP_WIN_SHADOW_W3
  | EP_WIN_LIVE_W0
  | EP_WIN_LIVE_W1
  | EP_WIN_LIVE_W2
  | EP_WIN_LIVE_W3
  | EP_WIN_CTRL
  | EP_WIN_STATUS
  | EP_FN_STATE
  | VFN_STATUS
  | VFN_PORT
  | VFN_FSEL
  | VFN_FINFO
  | VFN_FUSE
  | VFN_FINFLIGHT
  | VFN_CNT_ADMIT_WAIT
  | VFN_CNT_LOG_BITS
  | VFN_CNT_LOG_LINES
  | STO_CFG
  | STO_STATUS
  | STO_FLAGS
  | STO_STAGE
  | STO_CH
  | STO_CNT_PDU_TX
  | STO_CNT_PDU_RX
  | STO_CNT_HDGST_ERR
  | STO_CNT_DDGST_ERR
  | STO_CNT_RETRANS
  | STO_CNT_OOO_DROP
  | STO_CNT_CLEAR_DROP
  | STO_CNT_CONN_FAIL
  | SIC_STATUS
  | SIC_FLAGS
  | SIC_SGI
  | SIC_CNT_MERGED
  | SIC_CORE_CFG
  | SIC_CORE_VBASE_LO
  | SIC_CORE_VBASE_HI
  | SIC_CORE_STATE
  | SIC_CORE_COMPLETE
  | SIC_CORE_CTRL
  | SIC_CNT_SPURIOUS
  | SIC_CNT_DELIVERED
  | SIC_GROUP_LULL
  | SIC_CNT_LULL
  | SIC_SRC_CFG
  | SIC_SRC_PEND
  | SIC_SRC_ACTIVE
  | SIC_FN_VGAP
  | OWN_STATE
  | OWN_EPOCH
  | OWN_RENEW
  | OWN_LEASE
  | OWN_FLAGS
  | OWN_CFG
  | OWN_NONCE_LO
  | OWN_NONCE_HI
  | OWN_HALF_EPOCH
  | OWN_HALF_HASH
  | OWN_HALF_STATE
  | OWN_BOOT_STATUS
  | OWN_FW_SVN
  | OWN_PLANKEYS
  | OWN_CNT_CHANGE
  | OWN_CNT_RENEW_BAD
  | OWN_CNT_REFUSED
  | FLT_STATUS
  | FLT_CFG
  | FLT_WDOG
  | FLT_LAST_INFO
  | FLT_LAST_SEQ
  | FLT_HALL
  | FLT_HALF
  | FLT_CNT_LANE_FAULT
  | FLT_CNT_HALL_FAULT
  | FLT_CNT_HALF_FAULT
  | FLT_CNT_DEVICE_FAULT
  | FLT_CNT_FN_FAULT
  | FLT_CNT_POISON
  | FLT_CNT_POISON_USE
  | FLT_CNT_PAGE_FAIL
  | FLT_FN_EPOCH
  | FLT_FN_PAGE_LO
  | FLT_FN_PAGE_HI
  | ALM_HEAD
  | ALM_STATUS
  | ALM_CFG
  | ALM_MARK
  | ALM_CTRL
  | ALM_FROZEN_SEQ
  | ALM_CNT_LOST
  | ALM_CNT_SUPPRESSED
  | ALM_ENTRY
  | BARO_STATUS
  | BARO_CFG
  | BARO_PASS_CNT
  | BARO_PASS_SEC
  | BARO_MT_W0
  | BARO_MT_W1
  | BARO_MT_W2
  | BARO_MT_W3
  | BARO_MT_W4
  | BARO_MT_W5
  | BARO_MT_W6
  | BARO_MT_W7
  | BARO_STACK
  | BARO_RAIL
  | BARO_NVS
  | BARO_LANE_LOW
  | EP_FN_ID
deriving DecidableEq, Repr

/-- Where a register's instances stand: base, outer stride and count (hall, function or ring entry), inner stride and count. -/
structure RegInfo where
  base : Nat
  oStride : Nat
  oCount : Nat
  iStride : Nat
  iCount : Nat
deriving DecidableEq, Repr

/-- One field of a register: bits hi..lo, access type, reset value. -/
structure FieldInfo where
  hi : Nat
  lo : Nat
  acc : Acc
  reset : Nat
deriving DecidableEq, Repr

/-- A field by name: the register and the bits. -/
structure Fld where
  reg : Reg
  hi : Nat
  lo : Nat
deriving DecidableEq, Repr

/-- Offsets and strides of every register (chapter 23's index and the field tables' headings). -/
def Reg.info : Reg → RegInfo
  | .CALM_STATE => ⟨0x0, 0x0, 1, 0x0, 1⟩
  | .CALM_STANDBY => ⟨0x4, 0x0, 1, 0x0, 1⟩
  | .CALM_EVT_WAKE_EN => ⟨0x8, 0x0, 1, 0x0, 1⟩
  | .CALM_THAW_CNT => ⟨0xc, 0x0, 1, 0x0, 1⟩
  | .CALM_LANE_ED => ⟨0x100, 0x0, 1, 0x4, 8⟩
  | .CALM_PERST => ⟨0x120, 0x0, 1, 0x0, 1⟩
  | .CALM_DBWAKE => ⟨0x124, 0x0, 1, 0x0, 1⟩
  | .CALM_EVT_IN => ⟨0x128, 0x0, 1, 0x0, 1⟩
  | .CALM_THERM => ⟨0x12c, 0x0, 1, 0x0, 1⟩
  | .CALM_HALL_STATE => ⟨0x200, 0x0, 1, 0x4, 18⟩
  | .CALM_DUTY_PORT => ⟨0x300, 0x0, 1, 0x4, 8⟩
  | .TB_NOW_FRAC => ⟨0x1000, 0x0, 1, 0x0, 1⟩
  | .TB_NOW_NS => ⟨0x1004, 0x0, 1, 0x0, 1⟩
  | .TB_NOW_SEC_LO => ⟨0x1008, 0x0, 1, 0x0, 1⟩
  | .TB_NOW_SEC_HI => ⟨0x100c, 0x0, 1, 0x0, 1⟩
  | .TB_CTRL => ⟨0x1010, 0x0, 1, 0x0, 1⟩
  | .TB_STATUS => ⟨0x1014, 0x0, 1, 0x0, 1⟩
  | .TB_RATE => ⟨0x1018, 0x0, 1, 0x0, 1⟩
  | .TB_STEP => ⟨0x101c, 0x0, 1, 0x0, 1⟩
  | .TB_SET_NS => ⟨0x1020, 0x0, 1, 0x0, 1⟩
  | .TB_SET_SEC_LO => ⟨0x1024, 0x0, 1, 0x0, 1⟩
  | .TB_SET_SEC_HI => ⟨0x1028, 0x0, 1, 0x0, 1⟩
  | .TB_ORIGIN_NS => ⟨0x1030, 0x0, 1, 0x0, 1⟩
  | .TB_ORIGIN_SEC_LO => ⟨0x1034, 0x0, 1, 0x0, 1⟩
  | .TB_ORIGIN_SEC_HI => ⟨0x1038, 0x0, 1, 0x0, 1⟩
  | .TB_FLIGHT_LEN => ⟨0x1040, 0x0, 1, 0x0, 1⟩
  | .TB_TREAD => ⟨0x1044, 0x0, 1, 0x0, 1⟩
  | .TB_FLIGHT_LO => ⟨0x1048, 0x0, 1, 0x0, 1⟩
  | .TB_FLIGHT_HI => ⟨0x104c, 0x0, 1, 0x0, 1⟩
  | .PLN_ACTIVE_STATUS => ⟨0x2000000, 0x0, 1, 0x0, 1⟩
  | .PLN_STANDBY_STATUS => ⟨0x2000004, 0x0, 1, 0x0, 1⟩
  | .PLN_VERIFY_WHERE => ⟨0x2000008, 0x0, 1, 0x0, 1⟩
  | .PLN_VERIFY_ITEM => ⟨0x200000c, 0x0, 1, 0x0, 1⟩
  | .PLN_HALL_READY => ⟨0x2000010, 0x0, 1, 0x0, 1⟩
  | .PLN_POWER_BUDGET => ⟨0x2000014, 0x0, 1, 0x0, 1⟩
  | .PLN_DOMAIN => ⟨0x2000018, 0x0, 1, 0x0, 1⟩
  | .PLN_RANK => ⟨0x200001c, 0x0, 1, 0x0, 1⟩
  | .PLN_BOOT => ⟨0x2000020, 0x0, 1, 0x0, 1⟩
  | .PLN_SWAP_TIMEOUT => ⟨0x2000024, 0x0, 1, 0x0, 1⟩
  | .PLN_COUNTS => ⟨0x2000028, 0x0, 1, 0x0, 1⟩
  | .PLN_ENERGY_LAST => ⟨0x200002c, 0x0, 1, 0x0, 1⟩
  | .PLN_MIN_SERIAL_LO => ⟨0x2000030, 0x0, 1, 0x0, 1⟩
  | .PLN_MIN_SERIAL_HI => ⟨0x2000034, 0x0, 1, 0x0, 1⟩
  | .PLN_ACTIVE_SERIAL_LO => ⟨0x2000038, 0x0, 1, 0x0, 1⟩
  | .PLN_ACTIVE_SERIAL_HI => ⟨0x200003c, 0x0, 1, 0x0, 1⟩
  | .PLN_STANDBY_SERIAL_LO => ⟨0x2000040, 0x0, 1, 0x0, 1⟩
  | .PLN_STANDBY_SERIAL_HI => ⟨0x2000044, 0x0, 1, 0x0, 1⟩
  | .PLN_SWAP_FLIGHT_LO => ⟨0x2000048, 0x0, 1, 0x0, 1⟩
  | .PLN_SWAP_FLIGHT_HI => ⟨0x200004c, 0x0, 1, 0x0, 1⟩
  | .PLN_ACTIVE_HASH => ⟨0x2000100, 0x0, 1, 0x4, 12⟩
  | .PLN_STANDBY_HASH => ⟨0x2000140, 0x0, 1, 0x4, 12⟩
  | .TSQ_RUN => ⟨0x2001000, 0x0, 1, 0x0, 1⟩
  | .TSQ_FAULT_SUM => ⟨0x2001004, 0x0, 1, 0x0, 1⟩
  | .TSQ_MAP => ⟨0x2001100, 0x0, 1, 0x4, 16⟩
  | .TSQ_STATE => ⟨0x10000000, 0x1000000, 18, 0x0, 1⟩
  | .TSQ_BUNDLE => ⟨0x10000004, 0x1000000, 18, 0x0, 1⟩
  | .TSQ_SKIP_LEFT => ⟨0x10000008, 0x1000000, 18, 0x0, 1⟩
  | .TSQ_FAULT => ⟨0x1000000c, 0x1000000, 18, 0x0, 1⟩
  | .TSQ_CNT_SUPPRESS => ⟨0x10000020, 0x1000000, 18, 0x0, 1⟩
  | .TSQ_CNT_DMA_IDLE => ⟨0x10000024, 0x1000000, 18, 0x0, 1⟩
  | .TSQ_CNT_ALLOC_FAIL => ⟨0x10000028, 0x1000000, 18, 0x0, 1⟩
  | .TSQ_CNT_ORPHAN => ⟨0x1000002c, 0x1000000, 18, 0x0, 1⟩
  | .TSQ_CNT_LANEREC => ⟨0x10000030, 0x1000000, 18, 0x0, 1⟩
  | .TSQ_CNT_FLOWDROP => ⟨0x10000034, 0x1000000, 18, 0x0, 1⟩
  | .TSQ_CNT_EVT_PREEMPT => ⟨0x10000038, 0x1000000, 18, 0x0, 1⟩
  | .TSQ_CNT_HAND_UNBOUND => ⟨0x1000003c, 0x1000000, 18, 0x0, 1⟩
  | .TSQ_CNT_ECC => ⟨0x10000040, 0x1000000, 18, 0x0, 1⟩
  | .TSQ_PTR_LO => ⟨0x10000100, 0x1000000, 18, 0x8, 16⟩
  | .TSQ_PTR_HI => ⟨0x10000104, 0x1000000, 18, 0x8, 16⟩
  | .TSQ_PTRBUF => ⟨0x10000180, 0x1000000, 18, 0x4, 16⟩
  | .GAL_STATUS => ⟨0x3000000, 0x0, 1, 0x0, 1⟩
  | .GAL_CNT_FLITS_LO => ⟨0x3000008, 0x0, 1, 0x0, 1⟩
  | .GAL_CNT_FLITS_HI => ⟨0x300000c, 0x0, 1, 0x0, 1⟩
  | .GAL_CNT_OPEN_IDLE_LO => ⟨0x3000010, 0x0, 1, 0x0, 1⟩
  | .GAL_CNT_OPEN_IDLE_HI => ⟨0x3000014, 0x0, 1, 0x0, 1⟩
  | .GAL_CNT_FLIT_ERR => ⟨0x3000018, 0x0, 1, 0x0, 1⟩
  | .GAL_HOSTQ_MAX => ⟨0x3000040, 0x0, 1, 0x4, 8⟩
  | .GAL_REMAP_OK => ⟨0x3000100, 0x0, 1, 0x4, 16⟩
  | .ATR_STATUS => ⟨0x4000000, 0x0, 1, 0x0, 1⟩
  | .ATR_CNT_CE => ⟨0x4000100, 0x0, 1, 0x10, 4⟩
  | .ATR_CNT_UE => ⟨0x4000104, 0x0, 1, 0x10, 4⟩
  | .ATR_CNT_EMERG => ⟨0x4000108, 0x0, 1, 0x10, 4⟩
  | .ATR_REFRESH_GAP => ⟨0x400010c, 0x0, 1, 0x10, 4⟩
  | .RFX_STATUS => ⟨0x10000400, 0x1000000, 18, 0x0, 1⟩
  | .RFX_CORE => ⟨0x10000410, 0x1000000, 18, 0x4, 4⟩
  | .RFX_ABORT_INFO => ⟨0x10000420, 0x1000000, 18, 0x0, 1⟩
  | .RFX_ABORT_TREAD => ⟨0x10000424, 0x1000000, 18, 0x0, 1⟩
  | .RFX_LANDS => ⟨0x10000428, 0x1000000, 18, 0x0, 1⟩
  | .RFX_CNT_DISPATCH => ⟨0x10000430, 0x1000000, 18, 0x4, 4⟩
  | .RFX_CNT_ABORT => ⟨0x10000440, 0x1000000, 18, 0x4, 4⟩
  | .RFX_MAX_CLOCKS => ⟨0x10000450, 0x1000000, 18, 0x4, 4⟩
  | .RFX_CNT_DIVZ => ⟨0x10000460, 0x1000000, 18, 0x0, 1⟩
  | .RFX_CNT_EVT_LATE => ⟨0x10000464, 0x1000000, 18, 0x0, 1⟩
  | .RFX_CNT_EVT_REJECT => ⟨0x10000468, 0x1000000, 18, 0x0, 1⟩
  | .RFX_CNT_COMMIT => ⟨0x1000046c, 0x1000000, 18, 0x0, 1⟩
  | .CYC_CFG => ⟨0x10000800, 0x1000000, 18, 0x0, 1⟩
  | .CYC_STATUS => ⟨0x10000804, 0x1000000, 18, 0x0, 1⟩
  | .CYC_DIR_VALID => ⟨0x10000808, 0x1000000, 18, 0x0, 1⟩
  | .CYC_SLOTS_BOUND => ⟨0x1000080c, 0x1000000, 18, 0x0, 1⟩
  | .CYC_SRC_MAC_LO => ⟨0x10000810, 0x1000000, 18, 0x0, 1⟩
  | .CYC_SRC_MAC_HI => ⟨0x10000814, 0x1000000, 18, 0x0, 1⟩
  | .CYC_CNT_TX => ⟨0x10000840, 0x1000000, 18, 0x0, 1⟩
  | .CYC_CNT_IDLE => ⟨0x10000844, 0x1000000, 18, 0x0, 1⟩
  | .CYC_CNT_RX_ONTIME => ⟨0x10000848, 0x1000000, 18, 0x0, 1⟩
  | .CYC_CNT_LATE => ⟨0x1000084c, 0x1000000, 18, 0x0, 1⟩
  | .CYC_CNT_DUP => ⟨0x10000850, 0x1000000, 18, 0x0, 1⟩
  | .CYC_CNT_BAD_FRAME => ⟨0x10000854, 0x1000000, 18, 0x0, 1⟩
  | .CYC_CNT_BAD_FLIGHT => ⟨0x10000858, 0x1000000, 18, 0x0, 1⟩
  | .CYC_CNT_UNBOUND => ⟨0x1000085c, 0x1000000, 18, 0x0, 1⟩
  | .CYC_CNT_SID_CONFLICT => ⟨0x10000860, 0x1000000, 18, 0x0, 1⟩
  | .CYC_CNT_DOMAIN => ⟨0x10000864, 0x1000000, 18, 0x0, 1⟩
  | .CYC_CNT_AUTH_FAIL => ⟨0x10000868, 0x1000000, 18, 0x0, 1⟩
  | .CYC_CNT_KEY => ⟨0x1000086c, 0x1000000, 18, 0x0, 1⟩
  | .CYC_CNT_HELLO => ⟨0x10000870, 0x1000000, 18, 0x0, 1⟩
  | .CYC_CNT_LEARN => ⟨0x10000874, 0x1000000, 18, 0x0, 1⟩
  | .CYC_CNT_NOTIFY_DROP => ⟨0x10000878, 0x1000000, 18, 0x0, 1⟩
  | .CYC_CNT_MISS => ⟨0x1000087c, 0x1000000, 18, 0x0, 1⟩
  | .CYC_CNT_BYE => ⟨0x10000880, 0x1000000, 18, 0x0, 1⟩
  | .LN_LANE_CFG => ⟨0x9000000, 0x0, 1, 0x4, 256⟩
  | .LN_LANE_STATUS => ⟨0x9000400, 0x0, 1, 0x4, 256⟩
  | .LN_LANE_DELAY => ⟨0x9000800, 0x0, 1, 0x4, 256⟩
  | .LN_EYE => ⟨0x9000c00, 0x0, 1, 0x4, 256⟩
  | .LN_CNT_RXFRAMES => ⟨0x9001000, 0x0, 1, 0x20, 256⟩
  | .LN_CNT_RXDROP => ⟨0x9001004, 0x0, 1, 0x20, 256⟩
  | .LN_CNT_RXERR => ⟨0x9001008, 0x0, 1, 0x20, 256⟩
  | .LN_CNT_FEC_CE => ⟨0x900100c, 0x0, 1, 0x20, 256⟩
  | .LN_CNT_FEC_UE => ⟨0x9001010, 0x0, 1, 0x20, 256⟩
  | .LN_CNT_TXFRAMES => ⟨0x9001014, 0x0, 1, 0x20, 256⟩
  | .LN_CNT_TXDOWN => ⟨0x9001018, 0x0, 1, 0x20, 256⟩
  | .LN_CNT_MACCTL => ⟨0x900101c, 0x0, 1, 0x20, 256⟩
  | .LN_CNT_TXDROP => ⟨0x9003100, 0x0, 1, 0x4, 256⟩
  | .LN_TXTS_NS => ⟨0x9003000, 0x0, 1, 0x0, 1⟩
  | .LN_TXTS_SEC_LO => ⟨0x9003004, 0x0, 1, 0x0, 1⟩
  | .LN_TXTS_SEC_HI => ⟨0x9003008, 0x0, 1, 0x0, 1⟩
  | .LN_TXTS_INFO => ⟨0x900300c, 0x0, 1, 0x0, 1⟩
  | .LN_TXTS_STATUS => ⟨0x9003010, 0x0, 1, 0x0, 1⟩
  | .LN_DOMAIN_STATUS => ⟨0x9003020, 0x0, 1, 0x0, 1⟩
  | .LN_PPS_OUT => ⟨0x9003030, 0x0, 1, 0x0, 1⟩
  | .EVT_STATUS => ⟨0x9004000, 0x0, 1, 0x0, 1⟩
  | .EVT_LAND_CFG => ⟨0x9004100, 0x0, 1, 0x4, 32⟩
  | .EVT_CAP_INFO => ⟨0x9004200, 0x0, 1, 0x10, 32⟩
  | .EVT_CAP_LO => ⟨0x9004204, 0x0, 1, 0x10, 32⟩
  | .EVT_CAP_HI => ⟨0x9004208, 0x0, 1, 0x10, 32⟩
  | .EVT_LEVEL => ⟨0x900420c, 0x0, 1, 0x10, 32⟩
  | .EVT_HOST => ⟨0x9004400, 0x0, 1, 0x4, 32⟩
  | .PRS_CFG => ⟨0x10000c00, 0x1000000, 18, 0x0, 1⟩
  | .PRS_TUN_PORTS => ⟨0x10000c04, 0x1000000, 18, 0x0, 1⟩
  | .PRS_STATUS => ⟨0x10000c08, 0x1000000, 18, 0x0, 1⟩
  | .PRS_CUSTOM => ⟨0x10000c40, 0x1000000, 18, 0x4, 16⟩
  | .PRS_UDF => ⟨0x10000c80, 0x1000000, 18, 0x4, 4⟩
  | .PRS_CNT_FRAMES => ⟨0x10000d00, 0x1000000, 18, 0x0, 1⟩
  | .PRS_CNT_ERR => ⟨0x10000d04, 0x1000000, 18, 0x4, 10⟩
  | .CLS_STATUS => ⟨0x10001000, 0x1000000, 18, 0x0, 1⟩
  | .CLS_MIRROR => ⟨0x10001004, 0x1000000, 18, 0x0, 1⟩
  | .CLS_MISS_W0 => ⟨0x10001100, 0x1000000, 18, 0x10, 8⟩
  | .CLS_MISS_W1 => ⟨0x10001104, 0x1000000, 18, 0x10, 8⟩
  | .CLS_MISS_W2 => ⟨0x10001108, 0x1000000, 18, 0x10, 8⟩
  | .CLS_MISS_W3 => ⟨0x1000110c, 0x1000000, 18, 0x10, 8⟩
  | .CLS_CNT_LOOKUP => ⟨0x10001010, 0x1000000, 18, 0x0, 1⟩
  | .CLS_CNT_MISS => ⟨0x10001014, 0x1000000, 18, 0x0, 1⟩
  | .CLS_CNT_BAD_ACTION => ⟨0x10001018, 0x1000000, 18, 0x0, 1⟩
  | .CLS_CNT_DECAP_FAIL => ⟨0x1000101c, 0x1000000, 18, 0x0, 1⟩
  | .FRG_CFG => ⟨0x10001400, 0x1000000, 18, 0x0, 1⟩
  | .FRG_STATUS => ⟨0x10001404, 0x1000000, 18, 0x0, 1⟩
  | .FRG_CNT_INSTALL => ⟨0x10001410, 0x1000000, 18, 0x0, 1⟩
  | .FRG_CNT_HIT => ⟨0x10001414, 0x1000000, 18, 0x0, 1⟩
  | .FRG_CNT_MISS => ⟨0x10001418, 0x1000000, 18, 0x0, 1⟩
  | .FRG_CNT_FULL => ⟨0x1000141c, 0x1000000, 18, 0x0, 1⟩
  | .FRG_CNT_FREED => ⟨0x10001420, 0x1000000, 18, 0x0, 1⟩
  | .FRG_CNT_AGED => ⟨0x10001424, 0x1000000, 18, 0x0, 1⟩
  | .FWD_CFG => ⟨0x10001800, 0x1000000, 18, 0x0, 1⟩
  | .FWD_STATUS => ⟨0x10001804, 0x1000000, 18, 0x0, 1⟩
  | .FWD_ENTRIES => ⟨0x10001808, 0x1000000, 18, 0x0, 1⟩
  | .FWD_UNSTABLE_INFO => ⟨0x1000180c, 0x1000000, 18, 0x0, 1⟩
  | .FWD_FLOOD_USED => ⟨0x10001810, 0x1000000, 18, 0x0, 1⟩
  | .FWD_CNT_LOOKUP => ⟨0x10001840, 0x1000000, 18, 0x0, 1⟩
  | .FWD_CNT_HIT => ⟨0x10001844, 0x1000000, 18, 0x0, 1⟩
  | .FWD_CNT_UNKNOWN => ⟨0x10001848, 0x1000000, 18, 0x0, 1⟩
  | .FWD_CNT_FLOODED => ⟨0x1000184c, 0x1000000, 18, 0x0, 1⟩
  | .FWD_CNT_FLOOD_CAP => ⟨0x10001850, 0x1000000, 18, 0x0, 1⟩
  | .FWD_CNT_LEARN => ⟨0x10001854, 0x1000000, 18, 0x0, 1⟩
  | .FWD_CNT_LEARN_FULL => ⟨0x10001858, 0x1000000, 18, 0x0, 1⟩
  | .FWD_CNT_MOVES => ⟨0x1000185c, 0x1000000, 18, 0x0, 1⟩
  | .FWD_CNT_MOVE_FROZEN => ⟨0x10001860, 0x1000000, 18, 0x0, 1⟩
  | .FWD_CNT_STATIC_MOVE => ⟨0x10001864, 0x1000000, 18, 0x0, 1⟩
  | .FWD_CNT_AGED => ⟨0x10001868, 0x1000000, 18, 0x0, 1⟩
  | .FWD_CNT_SPOOF => ⟨0x1000186c, 0x1000000, 18, 0x0, 1⟩
  | .FWD_CNT_HAIRPIN => ⟨0x10001870, 0x1000000, 18, 0x0, 1⟩
  | .FWD_CNT_BD_INVALID => ⟨0x10001874, 0x1000000, 18, 0x0, 1⟩
  | .FWD_CNT_VPORT_DROP => ⟨0x10001878, 0x1000000, 18, 0x0, 1⟩
  | .FWD_CNT_STATION_MISS => ⟨0x1000187c, 0x1000000, 18, 0x0, 1⟩
  | .FWD_CNT_REPL_DROP => ⟨0x10001880, 0x1000000, 18, 0x0, 1⟩
  | .FWD_CNT_EGRESS_DROP => ⟨0x10001884, 0x1000000, 18, 0x0, 1⟩
  | .FWD_CNT_ECC => ⟨0x10001888, 0x1000000, 18, 0x0, 1⟩
  | .FWD_AUDIT_CFG => ⟨0x10001900, 0x1000000, 18, 0x0, 1⟩
  | .FWD_AUDIT_STATUS => ⟨0x10001904, 0x1000000, 18, 0x0, 1⟩
  | .FWD_AUDIT_FAIL => ⟨0x10001908, 0x1000000, 18, 0x0, 1⟩
  | .FWD_AUDIT_FAIL_DIGEST => ⟨0x1000190c, 0x1000000, 18, 0x0, 1⟩
  | .FWD_AUDIT_VALID => ⟨0x10001980, 0x1000000, 18, 0x4, 16⟩
  | .FWD_AUDIT_SHADOW => ⟨0x10002000, 0x1000000, 18, 0x4, 512⟩
  | .TUN_CFG => ⟨0x10002800, 0x1000000, 18, 0x0, 1⟩
  | .TUN_STATUS => ⟨0x10002804, 0x1000000, 18, 0x0, 1⟩
  | .TUN_CNT_ENCAP => ⟨0x10002840, 0x1000000, 18, 0x0, 1⟩
  | .TUN_CNT_DECAP => ⟨0x10002844, 0x1000000, 18, 0x0, 1⟩
  | .TUN_CNT_MTU => ⟨0x10002848, 0x1000000, 18, 0x0, 1⟩
  | .TUN_CNT_TAG_DEPTH => ⟨0x1000284c, 0x1000000, 18, 0x0, 1⟩
  | .TUN_CNT_TEMPLATE_INVALID => ⟨0x10002850, 0x1000000, 18, 0x0, 1⟩
  | .TUN_CNT_NO_VNI => ⟨0x10002854, 0x1000000, 18, 0x0, 1⟩
  | .TUN_CNT_VNI_MISS => ⟨0x10002858, 0x1000000, 18, 0x0, 1⟩
  | .TUN_CNT_CRIT => ⟨0x1000285c, 0x1000000, 18, 0x0, 1⟩
  | .TUN_CNT_NO_L2 => ⟨0x10002860, 0x1000000, 18, 0x0, 1⟩
  | .CPH_KS_STATUS => ⟨0xb000000, 0x0, 1, 0x0, 1⟩
  | .CPH_KS_REVOKING => ⟨0xb000004, 0x0, 1, 0x0, 1⟩
  | .CPH_KEK_VALID => ⟨0xb000008, 0x0, 1, 0x0, 1⟩
  | .CPH_KS_CNT_LOAD => ⟨0xb000010, 0x0, 1, 0x0, 1⟩
  | .CPH_KS_CNT_UNWRAP_FAIL => ⟨0xb000014, 0x0, 1, 0x0, 1⟩
  | .CPH_KS_CNT_ERASE => ⟨0xb000018, 0x0, 1, 0x0, 1⟩
  | .CPH_STATUS => ⟨0x10002c00, 0x1000000, 18, 0x0, 1⟩
  | .CPH_JOBQ_CFG => ⟨0x10002c04, 0x1000000, 18, 0x0, 1⟩
  | .CPH_LEVELS => ⟨0x10002c08, 0x1000000, 18, 0x0, 1⟩
  | .CPH_WIN_MAX => ⟨0x10002c0c, 0x1000000, 18, 0x0, 1⟩
  | .CPH_SLOTS_USED_LO => ⟨0x10002c10, 0x1000000, 18, 0x0, 1⟩
  | .CPH_SLOTS_USED_HI => ⟨0x10002c14, 0x1000000, 18, 0x0, 1⟩
  | .CPH_SLOTS_IDLE_LO => ⟨0x10002c18, 0x1000000, 18, 0x0, 1⟩
  | .CPH_SLOTS_IDLE_HI => ⟨0x10002c1c, 0x1000000, 18, 0x0, 1⟩
  | .CPH_CNT_OPS => ⟨0x10002c40, 0x1000000, 18, 0x0, 1⟩
  | .CPH_CNT_AUTH_FAIL => ⟨0x10002c44, 0x1000000, 18, 0x0, 1⟩
  | .CPH_CNT_REVOKED => ⟨0x10002c48, 0x1000000, 18, 0x0, 1⟩
  | .CPH_CNT_NONCE => ⟨0x10002c4c, 0x1000000, 18, 0x0, 1⟩
  | .CPH_CNT_KEY => ⟨0x10002c50, 0x1000000, 18, 0x0, 1⟩
  | .CPH_CNT_KEY_MISMATCH => ⟨0x10002c54, 0x1000000, 18, 0x0, 1⟩
  | .CPH_CNT_INLINE_DROP => ⟨0x10002c58, 0x1000000, 18, 0x0, 1⟩
  | .CPH_CNT_REPLAY => ⟨0x10002c5c, 0x1000000, 18, 0x0, 1⟩
  | .CPH_CNT_BAD_TAG => ⟨0x10002c60, 0x1000000, 18, 0x0, 1⟩
  | .CPH_CNT_LENGTH => ⟨0x10002c64, 0x1000000, 18, 0x0, 1⟩
  | .CPH_CNT_ENTROPY => ⟨0x10002c68, 0x1000000, 18, 0x0, 1⟩
  | .BPM_STATUS => ⟨0x5000000, 0x0, 1, 0x0, 1⟩
  | .BPM_CFG => ⟨0x5000004, 0x0, 1, 0x0, 1⟩
  | .BPM_CLASS_TOTAL => ⟨0x5000100, 0x0, 1, 0x8, 8⟩
  | .BPM_CLASS_FREE => ⟨0x5000104, 0x0, 1, 0x8, 8⟩
  | .BPM_REGIONS => ⟨0x5000140, 0x0, 1, 0x0, 1⟩
  | .BPM_BYTES_LO => ⟨0x5000148, 0x0, 1, 0x0, 1⟩
  | .BPM_BYTES_HI => ⟨0x500014c, 0x0, 1, 0x0, 1⟩
  | .BPM_ALARM_NEXT => ⟨0x5000150, 0x0, 1, 0x0, 1⟩
  | .BPM_CNT_ALLOC => ⟨0x5000200, 0x0, 1, 0x0, 1⟩
  | .BPM_CNT_FREED => ⟨0x5000204, 0x0, 1, 0x0, 1⟩
  | .BPM_CNT_QUOTA => ⟨0x5000208, 0x0, 1, 0x0, 1⟩
  | .BPM_CNT_NO_BUFFER => ⟨0x500020c, 0x0, 1, 0x0, 1⟩
  | .BPM_CNT_STOCK_EMPTY => ⟨0x5000210, 0x0, 1, 0x0, 1⟩
  | .BPM_CNT_BAD_RELEASE => ⟨0x5000214, 0x0, 1, 0x0, 1⟩
  | .BPM_CNT_NOT_OWNER => ⟨0x5000218, 0x0, 1, 0x0, 1⟩
  | .BPM_CNT_HDR_BAD => ⟨0x500021c, 0x0, 1, 0x0, 1⟩
  | .DMA_CFG => ⟨0x10003000, 0x1000000, 18, 0x0, 1⟩
  | .DMA_STATUS => ⟨0x10003004, 0x1000000, 18, 0x0, 1⟩
  | .DMA_ERR_INFO => ⟨0x10003008, 0x1000000, 18, 0x0, 1⟩
  | .DMA_ERR_ADDR_LO => ⟨0x1000300c, 0x1000000, 18, 0x0, 1⟩
  | .DMA_ERR_ADDR_HI => ⟨0x10003010, 0x1000000, 18, 0x0, 1⟩
  | .DMA_CNT_DESC => ⟨0x10003040, 0x1000000, 18, 0x0, 1⟩
  | .DMA_CNT_DESC_ERR => ⟨0x10003044, 0x1000000, 18, 0x0, 1⟩
  | .DMA_CNT_LATE => ⟨0x10003048, 0x1000000, 18, 0x0, 1⟩
  | .DMA_CNT_CHAIN_LIMIT => ⟨0x1000304c, 0x1000000, 18, 0x0, 1⟩
  | .DMA_CNT_SG_STALL => ⟨0x10003050, 0x1000000, 18, 0x0, 1⟩
  | .DMA_CNT_CRC_MISMATCH => ⟨0x10003054, 0x1000000, 18, 0x0, 1⟩
  | .DMA_CNT_BYTES_LO => ⟨0x10003060, 0x1000000, 18, 0x0, 1⟩
  | .DMA_CNT_BYTES_HI => ⟨0x10003064, 0x1000000, 18, 0x0, 1⟩
  | .DMA_CNT_CARRIER_IDLE_LO => ⟨0x10003068, 0x1000000, 18, 0x0, 1⟩
  | .DMA_CNT_CARRIER_IDLE_HI => ⟨0x1000306c, 0x1000000, 18, 0x0, 1⟩
  | .DMA_CH_CFG => ⟨0x10003100, 0x1000000, 18, 0x20, 64⟩
  | .DMA_CH_QUEUE => ⟨0x10003104, 0x1000000, 18, 0x20, 64⟩
  | .DMA_CH_CHAIN_LO => ⟨0x10003108, 0x1000000, 18, 0x20, 64⟩
  | .DMA_CH_CHAIN_HI => ⟨0x1000310c, 0x1000000, 18, 0x20, 64⟩
  | .DMA_CH_CHAIN_FN => ⟨0x10003110, 0x1000000, 18, 0x20, 64⟩
  | .DMA_CH_CTRL => ⟨0x10003114, 0x1000000, 18, 0x20, 64⟩
  | .DMA_CH_STATUS => ⟨0x10003118, 0x1000000, 18, 0x20, 64⟩
  | .DMA_CH_REMAIN => ⟨0x1000311c, 0x1000000, 18, 0x20, 64⟩
  | .WQ_CFG => ⟨0xc000000, 0x0, 1, 0x0, 1⟩
  | .WQ_STATUS => ⟨0xc000004, 0x0, 1, 0x0, 1⟩
  | .WQ_QUEUES => ⟨0xc000008, 0x0, 1, 0x0, 1⟩
  | .WQ_CNT_OVERRUN => ⟨0xc000040, 0x0, 1, 0x0, 1⟩
  | .WQ_CNT_CQ_FULL => ⟨0xc000044, 0x0, 1, 0x0, 1⟩
  | .WQ_CNT_STALL => ⟨0xc000048, 0x0, 1, 0x0, 1⟩
  | .WQ_CNT_REFETCH => ⟨0xc00004c, 0x0, 1, 0x0, 1⟩
  | .WQ_CNT_REARM_STALE => ⟨0xc000050, 0x0, 1, 0x0, 1⟩
  | .WQ_CNT_DB_IGNORED => ⟨0xc000054, 0x0, 1, 0x0, 1⟩
  | .WQ_CNT_RQ_DROP => ⟨0xc000058, 0x0, 1, 0x0, 1⟩
  | .WQ_CNT_EVENT_DROP => ⟨0xc00005c, 0x0, 1, 0x0, 1⟩
  | .WQ_STAGE => ⟨0xc000100, 0x0, 1, 0x4, 18⟩
  | .WQ_QSEL => ⟨0xc000200, 0x0, 1, 0x0, 1⟩
  | .WQ_QINFO => ⟨0xc000204, 0x0, 1, 0x0, 1⟩
  | .WQ_QPROD => ⟨0xc000208, 0x0, 1, 0x0, 1⟩
  | .WQ_QCONS => ⟨0xc00020c, 0x0, 1, 0x0, 1⟩
  | .WQ_QWMARK => ⟨0xc000210, 0x0, 1, 0x0, 1⟩
  | .WQ_FN_AQ_BASE_LO => ⟨0xc100000, 0x100, 8192, 0x0, 1⟩
  | .WQ_FN_AQ_BASE_HI => ⟨0xc100004, 0x100, 8192, 0x0, 1⟩
  | .WQ_FN_ACQ_BASE_LO => ⟨0xc10000c, 0x100, 8192, 0x0, 1⟩
  | .WQ_FN_ACQ_BASE_HI => ⟨0xc100010, 0x100, 8192, 0x0, 1⟩
  | .WQ_FN_AQ_CFG => ⟨0xc100008, 0x100, 8192, 0x0, 1⟩
  | .WQ_FN_ACQ_CFG => ⟨0xc100014, 0x100, 8192, 0x0, 1⟩
  | .WQ_FN_ADMIN_STATE => ⟨0xc100018, 0x100, 8192, 0x0, 1⟩
  | .WQ_FN_EVQ => ⟨0xc10001c, 0x100, 8192, 0x0, 1⟩
  | .EP_PORT_MAP => ⟨0x1000000, 0x0, 1, 0x4, 8⟩
  | .EP_PORT_MAP_STATUS => ⟨0x1000020, 0x0, 1, 0x0, 1⟩
  | .EP_PORT_CFG => ⟨0x1000040, 0x0, 1, 0x4, 8⟩
  | .EP_PORT_STATUS => ⟨0x1000080, 0x0, 1, 0x4, 8⟩
  | .EP_PORT_CPL => ⟨0x10000c0, 0x0, 1, 0x4, 8⟩
  | .EP_LATE_CPL => ⟨0x1000100, 0x0, 1, 0x20, 8⟩
  | .EP_CNT_CTO => ⟨0x1000104, 0x0, 1, 0x20, 8⟩
  | .EP_CNT_UR => ⟨0x1000108, 0x0, 1, 0x20, 8⟩
  | .EP_CNT_UNEXP_CPL => ⟨0x100010c, 0x0, 1, 0x20, 8⟩
  | .EP_CNT_BAD_VECTOR => ⟨0x1000110, 0x0, 1, 0x20, 8⟩
  | .EP_CNT_PME => ⟨0x1000114, 0x0, 1, 0x20, 8⟩
  | .EP_CNT_FLR => ⟨0x1000118, 0x0, 1, 0x20, 8⟩
  | .EP_CNT_WIN_MISS => ⟨0x100011c, 0x0, 1, 0x20, 8⟩
  | .EP_FSEL => ⟨0x1000200, 0x0, 1, 0x0, 1⟩
  | .EP_WIN_SHADOW_W0 => ⟨0x30009000, 0x10000, 8192, 0x10, 64⟩
  | .EP_WIN_SHADOW_W1 => ⟨0x30009004, 0x10000, 8192, 0x10, 64⟩
  | .EP_WIN_SHADOW_W2 => ⟨0x30009008, 0x10000, 8192, 0x10, 64⟩
  | .EP_WIN_SHADOW_W3 => ⟨0x3000900c, 0x10000, 8192, 0x10, 64⟩
  | .EP_WIN_LIVE_W0 => ⟨0x30009400, 0x10000, 8192, 0x10, 64⟩
  | .EP_WIN_LIVE_W1 => ⟨0x30009404, 0x10000, 8192, 0x10, 64⟩
  | .EP_WIN_LIVE_W2 => ⟨0x30009408, 0x10000, 8192, 0x10, 64⟩
  | .EP_WIN_LIVE_W3 => ⟨0x3000940c, 0x10000, 8192, 0x10, 64⟩
  | .EP_WIN_CTRL => ⟨0x30009800, 0x10000, 8192, 0x0, 1⟩
  | .EP_WIN_STATUS => ⟨0x30009804, 0x10000, 8192, 0x0, 1⟩
  | .EP_FN_STATE => ⟨0x30009808, 0x10000, 8192, 0x0, 1⟩
  | .VFN_STATUS => ⟨0xa000000, 0x0, 1, 0x0, 1⟩
  | .VFN_PORT => ⟨0xa000100, 0x0, 1, 0x4, 8⟩
  | .VFN_FSEL => ⟨0xa000200, 0x0, 1, 0x0, 1⟩
  | .VFN_FINFO => ⟨0xa000204, 0x0, 1, 0x0, 1⟩
  | .VFN_FUSE => ⟨0xa000208, 0x0, 1, 0x0, 1⟩
  | .VFN_FINFLIGHT => ⟨0xa00020c, 0x0, 1, 0x0, 1⟩
  | .VFN_CNT_ADMIT_WAIT => ⟨0xa000210, 0x0, 1, 0x0, 1⟩
  | .VFN_CNT_LOG_BITS => ⟨0xa000214, 0x0, 1, 0x0, 1⟩
  | .VFN_CNT_LOG_LINES => ⟨0xa000218, 0x0, 1, 0x0, 1⟩
  | .STO_CFG => ⟨0xd000000, 0x0, 1, 0x0, 1⟩
  | .STO_STATUS => ⟨0xd000004, 0x0, 1, 0x0, 1⟩
  | .STO_FLAGS => ⟨0xd000008, 0x0, 1, 0x0, 1⟩
  | .STO_STAGE => ⟨0xd000100, 0x0, 1, 0x4, 16⟩
  | .STO_CH => ⟨0xd000140, 0x0, 1, 0x4, 16⟩
  | .STO_CNT_PDU_TX => ⟨0xd000200, 0x0, 1, 0x0, 1⟩
  | .STO_CNT_PDU_RX => ⟨0xd000204, 0x0, 1, 0x0, 1⟩
  | .STO_CNT_HDGST_ERR => ⟨0xd000208, 0x0, 1, 0x0, 1⟩
  | .STO_CNT_DDGST_ERR => ⟨0xd00020c, 0x0, 1, 0x0, 1⟩
  | .STO_CNT_RETRANS => ⟨0xd000210, 0x0, 1, 0x0, 1⟩
  | .STO_CNT_OOO_DROP => ⟨0xd000214, 0x0, 1, 0x0, 1⟩
  | .STO_CNT_CLEAR_DROP => ⟨0xd000218, 0x0, 1, 0x0, 1⟩
  | .STO_CNT_CONN_FAIL => ⟨0xd00021c, 0x0, 1, 0x0, 1⟩
  | .SIC_STATUS => ⟨0x6000000, 0x0, 1, 0x0, 1⟩
  | .SIC_FLAGS => ⟨0x6000004, 0x0, 1, 0x0, 1⟩
  | .SIC_SGI => ⟨0x6000010, 0x0, 1, 0x0, 1⟩
  | .SIC_CNT_MERGED => ⟨0x6000014, 0x0, 1, 0x0, 1⟩
  | .SIC_CORE_CFG => ⟨0x6000100, 0x0, 1, 0x40, 8⟩
  | .SIC_CORE_VBASE_LO => ⟨0x6000104, 0x0, 1, 0x40, 8⟩
  | .SIC_CORE_VBASE_HI => ⟨0x6000108, 0x0, 1, 0x40, 8⟩
  | .SIC_CORE_STATE => ⟨0x600010c, 0x0, 1, 0x40, 8⟩
  | .SIC_CORE_COMPLETE => ⟨0x6000110, 0x0, 1, 0x40, 8⟩
  | .SIC_CORE_CTRL => ⟨0x6000114, 0x0, 1, 0x40, 8⟩
  | .SIC_CNT_SPURIOUS => ⟨0x6000118, 0x0, 1, 0x40, 8⟩
  | .SIC_CNT_DELIVERED => ⟨0x600011c, 0x0, 1, 0x40, 8⟩
  | .SIC_GROUP_LULL => ⟨0x6000400, 0x0, 1, 0x4, 64⟩
  | .SIC_CNT_LULL => ⟨0x6000500, 0x0, 1, 0x4, 64⟩
  | .SIC_SRC_CFG => ⟨0x6001000, 0x0, 1, 0x4, 2048⟩
  | .SIC_SRC_PEND => ⟨0x6003000, 0x0, 1, 0x4, 64⟩
  | .SIC_SRC_ACTIVE => ⟨0x6003100, 0x0, 1, 0x4, 64⟩
  | .SIC_FN_VGAP => ⟨0x3000a000, 0x10000, 8192, 0x4, 2048⟩
  | .OWN_STATE => ⟨0x2000, 0x0, 1, 0x0, 1⟩
  | .OWN_EPOCH => ⟨0x2004, 0x0, 1, 0x0, 1⟩
  | .OWN_RENEW => ⟨0x2008, 0x0, 1, 0x0, 1⟩
  | .OWN_LEASE => ⟨0x200c, 0x0, 1, 0x0, 1⟩
  | .OWN_FLAGS => ⟨0x2010, 0x0, 1, 0x0, 1⟩
  | .OWN_CFG => ⟨0x2014, 0x0, 1, 0x0, 1⟩
  | .OWN_NONCE_LO => ⟨0x2018, 0x0, 1, 0x0, 1⟩
  | .OWN_NONCE_HI => ⟨0x201c, 0x0, 1, 0x0, 1⟩
  | .OWN_HALF_EPOCH => ⟨0x2020, 0x0, 1, 0x10, 2⟩
  | .OWN_HALF_HASH => ⟨0x2024, 0x0, 1, 0x10, 2⟩
  | .OWN_HALF_STATE => ⟨0x2028, 0x0, 1, 0x10, 2⟩
  | .OWN_BOOT_STATUS => ⟨0x2040, 0x0, 1, 0x0, 1⟩
  | .OWN_FW_SVN => ⟨0x2044, 0x0, 1, 0x0, 1⟩
  | .OWN_PLANKEYS => ⟨0x2048, 0x0, 1, 0x0, 1⟩
  | .OWN_CNT_CHANGE => ⟨0x2050, 0x0, 1, 0x0, 1⟩
  | .OWN_CNT_RENEW_BAD => ⟨0x2054, 0x0, 1, 0x0, 1⟩
  | .OWN_CNT_REFUSED => ⟨0x2058, 0x0, 1, 0x0, 1⟩
  | .FLT_STATUS => ⟨0x7000000, 0x0, 1, 0x0, 1⟩
  | .FLT_CFG => ⟨0x7000004, 0x0, 1, 0x0, 1⟩
  | .FLT_WDOG => ⟨0x7000008, 0x0, 1, 0x0, 1⟩
  | .FLT_LAST_INFO => ⟨0x700000c, 0x0, 1, 0x0, 1⟩
  | .FLT_LAST_SEQ => ⟨0x7000010, 0x0, 1, 0x0, 1⟩
  | .FLT_HALL => ⟨0x7000100, 0x0, 1, 0x4, 18⟩
  | .FLT_HALF => ⟨0x7000180, 0x0, 1, 0x4, 2⟩
  | .FLT_CNT_LANE_FAULT => ⟨0x7000200, 0x0, 1, 0x0, 1⟩
  | .FLT_CNT_HALL_FAULT => ⟨0x7000204, 0x0, 1, 0x0, 1⟩
  | .FLT_CNT_HALF_FAULT => ⟨0x7000208, 0x0, 1, 0x0, 1⟩
  | .FLT_CNT_DEVICE_FAULT => ⟨0x700020c, 0x0, 1, 0x0, 1⟩
  | .FLT_CNT_FN_FAULT => ⟨0x7000210, 0x0, 1, 0x0, 1⟩
  | .FLT_CNT_POISON => ⟨0x7000214, 0x0, 1, 0x0, 1⟩
  | .FLT_CNT_POISON_USE => ⟨0x7000218, 0x0, 1, 0x0, 1⟩
  | .FLT_CNT_PAGE_FAIL => ⟨0x700021c, 0x0, 1, 0x0, 1⟩
  | .FLT_FN_EPOCH => ⟨0x3000c000, 0x10000, 8192, 0x0, 1⟩
  | .FLT_FN_PAGE_LO => ⟨0x3000c004, 0x10000, 8192, 0x0, 1⟩
  | .FLT_FN_PAGE_HI => ⟨0x3000c008, 0x10000, 8192, 0x0, 1⟩
  | .ALM_HEAD => ⟨0x7001000, 0x0, 1, 0x0, 1⟩
  | .ALM_STATUS => ⟨0x7001004, 0x0, 1, 0x0, 1⟩
  | .ALM_CFG => ⟨0x7001008, 0x0, 1, 0x0, 1⟩
  | .ALM_MARK => ⟨0x700100c, 0x0, 1, 0x0, 1⟩
  | .ALM_CTRL => ⟨0x7001010, 0x0, 1, 0x0, 1⟩
  | .ALM_FROZEN_SEQ => ⟨0x7001014, 0x0, 1, 0x0, 1⟩
  | .ALM_CNT_LOST => ⟨0x7001018, 0x0, 1, 0x0, 1⟩
  | .ALM_CNT_SUPPRESSED => ⟨0x700101c, 0x0, 1, 0x0, 1⟩
  | .ALM_ENTRY => ⟨0x7800000, 0x40, 32768, 0x4, 16⟩
  | .BARO_STATUS => ⟨0x8000000, 0x0, 1, 0x0, 1⟩
  | .BARO_CFG => ⟨0x8000004, 0x0, 1, 0x0, 1⟩
  | .BARO_PASS_CNT => ⟨0x8000008, 0x0, 1, 0x0, 1⟩
  | .BARO_PASS_SEC => ⟨0x800000c, 0x0, 1, 0x0, 1⟩
  | .BARO_MT_W0 => ⟨0x8000100, 0x0, 1, 0x20, 18⟩
  | .BARO_MT_W1 => ⟨0x8000104, 0x0, 1, 0x20, 18⟩
  | .BARO_MT_W2 => ⟨0x8000108, 0x0, 1, 0x20, 18⟩
  | .BARO_MT_W3 => ⟨0x800010c, 0x0, 1, 0x20, 18⟩
  | .BARO_MT_W4 => ⟨0x8000110, 0x0, 1, 0x20, 18⟩
  | .BARO_MT_W5 => ⟨0x8000114, 0x0, 1, 0x20, 18⟩
  | .BARO_MT_W6 => ⟨0x8000118, 0x0, 1, 0x20, 18⟩
  | .BARO_MT_W7 => ⟨0x800011c, 0x0, 1, 0x20, 18⟩
  | .BARO_STACK => ⟨0x8000400, 0x0, 1, 0x4, 4⟩
  | .BARO_RAIL => ⟨0x8000500, 0x0, 1, 0x4, 18⟩
  | .BARO_NVS => ⟨0x8000600, 0x0, 1, 0x0, 1⟩
  | .BARO_LANE_LOW => ⟨0x8000700, 0x0, 1, 0x4, 8⟩
  | .EP_FN_ID => ⟨0x3000e000, 0x10000, 8192, 0x0, 1⟩

/-- The fields of every register. A reset the spec calls fused, drawn or per instance stands as 0 here; Reg.reset and log entry 6 say the rest. -/
def Reg.fields : Reg → List FieldInfo
  | .CALM_STATE => [⟨7, 4, .ro, 0x0⟩, ⟨1, 1, .ro, 0⟩, ⟨0, 0, .ro, 0⟩]
  | .CALM_STANDBY => [⟨4, 4, .rw, 0⟩, ⟨3, 3, .rw, 0⟩, ⟨2, 2, .rw, 1⟩, ⟨1, 1, .rw, 1⟩, ⟨0, 0, .rw, 0⟩]
  | .CALM_EVT_WAKE_EN => [⟨31, 0, .rw, 0x0⟩]
  | .CALM_THAW_CNT => [⟨31, 0, .ro, 0x0⟩]
  | .CALM_LANE_ED => [⟨31, 0, .w1c, 0x0⟩]
  | .CALM_PERST => [⟨15, 8, .ro, 0⟩, ⟨7, 0, .w1c, 0x0⟩]
  | .CALM_DBWAKE => [⟨7, 0, .w1c, 0x0⟩]
  | .CALM_EVT_IN => [⟨31, 0, .w1c, 0x0⟩]
  | .CALM_THERM => [⟨3, 3, .w1c, 0⟩, ⟨2, 2, .w1c, 0⟩, ⟨1, 1, .w1c, 0⟩, ⟨0, 0, .w1c, 0⟩]
  | .CALM_HALL_STATE => [⟨31, 16, .ro, 0x0⟩, ⟨12, 12, .ro, 0⟩, ⟨11, 11, .ro, 0⟩, ⟨10, 8, .ro, 0x3⟩, ⟨6, 4, .ro, 0x0⟩, ⟨2, 0, .ro, 0x3⟩]
  | .CALM_DUTY_PORT => [⟨31, 31, .ro, 0⟩, ⟨4, 0, .ro, 0x0⟩]
  | .TB_NOW_FRAC => [⟨15, 0, .ro, 0x0⟩]
  | .TB_NOW_NS => [⟨31, 0, .ro, 0x0⟩]
  | .TB_NOW_SEC_LO => [⟨31, 0, .ro, 0x0⟩]
  | .TB_NOW_SEC_HI => [⟨15, 0, .ro, 0x0⟩]
  | .TB_CTRL => [⟨31, 16, .rw, 0x0⟩, ⟨15, 8, .rw, 0xa⟩, ⟨3, 3, .rw, 0⟩, ⟨2, 0, .rw, 0x0⟩]
  | .TB_STATUS => [⟨31, 16, .ro, 0x0⟩, ⟨7, 7, .w1c, 0⟩, ⟨6, 6, .w1c, 0⟩, ⟨5, 5, .w1c, 0⟩, ⟨4, 4, .ro, 0⟩, ⟨3, 3, .ro, 0⟩, ⟨2, 2, .ro, 0⟩, ⟨1, 1, .ro, 0⟩, ⟨0, 0, .ro, 0⟩]
  | .TB_RATE => [⟨31, 0, .rw, 0x0⟩]
  | .TB_STEP => [⟨31, 0, .wo, 0x0⟩]
  | .TB_SET_NS => [⟨31, 0, .wo, 0x0⟩]
  | .TB_SET_SEC_LO => [⟨31, 0, .wo, 0x0⟩]
  | .TB_SET_SEC_HI => [⟨15, 0, .wo, 0x0⟩]
  | .TB_ORIGIN_NS => [⟨31, 0, .rw, 0x0⟩]
  | .TB_ORIGIN_SEC_LO => [⟨31, 0, .rw, 0x0⟩]
  | .TB_ORIGIN_SEC_HI => [⟨15, 0, .rw, 0x0⟩]
  | .TB_FLIGHT_LEN => [⟨20, 0, .ro, 0x0⟩]
  | .TB_TREAD => [⟨19, 0, .ro, 0x0⟩]
  | .TB_FLIGHT_LO => [⟨31, 0, .ro, 0x0⟩]
  | .TB_FLIGHT_HI => [⟨31, 0, .ro, 0x0⟩]
  | .PLN_ACTIVE_STATUS => [⟨19, 19, .ro, 0⟩, ⟨18, 18, .w1c, 0⟩, ⟨17, 17, .w1c, 0⟩, ⟨16, 16, .ro, 0⟩, ⟨1, 0, .ro, 0x0⟩]
  | .PLN_STANDBY_STATUS => [⟨31, 24, .ro, 0x0⟩, ⟨7, 7, .ro, 0⟩, ⟨2, 0, .ro, 0x0⟩]
  | .PLN_VERIFY_WHERE => [⟨31, 31, .ro, 0⟩, ⟨28, 24, .ro, 0x0⟩, ⟨19, 0, .ro, 0x0⟩]
  | .PLN_VERIFY_ITEM => [⟨31, 16, .ro, 0xffff⟩, ⟨10, 9, .ro, 0x0⟩, ⟨7, 0, .ro, 0xff⟩]
  | .PLN_HALL_READY => [⟨17, 0, .ro, 0x0⟩]
  | .PLN_POWER_BUDGET => [⟨8, 0, .rw, 0x1e0⟩]
  | .PLN_DOMAIN => [⟨31, 0, .rw, 0x0⟩]
  | .PLN_RANK => [⟨9, 0, .rw, 0x0⟩]
  | .PLN_BOOT => [⟨31, 31, .rw, 0⟩, ⟨3, 0, .rw, 0x0⟩]
  | .PLN_SWAP_TIMEOUT => [⟨15, 0, .rw, 0x7d0⟩]
  | .PLN_COUNTS => [⟨31, 16, .ro, 0x0⟩, ⟨15, 0, .ro, 0x0⟩]
  | .PLN_ENERGY_LAST => [⟨31, 0, .ro, 0x0⟩]
  | .PLN_MIN_SERIAL_LO => [⟨31, 0, .rw, 0x0⟩]
  | .PLN_MIN_SERIAL_HI => [⟨31, 0, .rw, 0x0⟩]
  | .PLN_ACTIVE_SERIAL_LO => [⟨31, 0, .ro, 0x0⟩]
  | .PLN_ACTIVE_SERIAL_HI => [⟨31, 0, .ro, 0x0⟩]
  | .PLN_STANDBY_SERIAL_LO => [⟨31, 0, .ro, 0x0⟩]
  | .PLN_STANDBY_SERIAL_HI => [⟨31, 0, .ro, 0x0⟩]
  | .PLN_SWAP_FLIGHT_LO => [⟨31, 0, .ro, 0x0⟩]
  | .PLN_SWAP_FLIGHT_HI => [⟨31, 0, .ro, 0x0⟩]
  | .PLN_ACTIVE_HASH => [⟨31, 0, .ro, 0x0⟩]
  | .PLN_STANDBY_HASH => [⟨31, 0, .ro, 0x0⟩]
  | .TSQ_RUN => [⟨17, 0, .ro, 0x0⟩]
  | .TSQ_FAULT_SUM => [⟨17, 0, .ro, 0x0⟩]
  | .TSQ_MAP => [⟨31, 31, .ro, 0⟩, ⟨4, 0, .ro, 0x0⟩]
  | .TSQ_STATE => [⟨27, 24, .ro, 0x0⟩, ⟨23, 22, .ro, 0x0⟩, ⟨21, 21, .ro, 0⟩, ⟨20, 20, .ro, 0⟩, ⟨2, 0, .ro, 0x0⟩]
  | .TSQ_BUNDLE => [⟨16, 16, .ro, 0⟩, ⟨15, 0, .ro, 0x0⟩]
  | .TSQ_SKIP_LEFT => [⟨19, 0, .ro, 0x0⟩]
  | .TSQ_FAULT => [⟨2, 2, .w1c, 0⟩, ⟨1, 1, .w1c, 0⟩, ⟨0, 0, .w1c, 0⟩]
  | .TSQ_CNT_SUPPRESS => [⟨31, 0, .ro, 0x0⟩]
  | .TSQ_CNT_DMA_IDLE => [⟨31, 0, .ro, 0x0⟩]
  | .TSQ_CNT_ALLOC_FAIL => [⟨31, 0, .ro, 0x0⟩]
  | .TSQ_CNT_ORPHAN => [⟨31, 0, .ro, 0x0⟩]
  | .TSQ_CNT_LANEREC => [⟨31, 0, .ro, 0x0⟩]
  | .TSQ_CNT_FLOWDROP => [⟨31, 0, .ro, 0x0⟩]
  | .TSQ_CNT_EVT_PREEMPT => [⟨31, 0, .ro, 0x0⟩]
  | .TSQ_CNT_HAND_UNBOUND => [⟨31, 0, .ro, 0x0⟩]
  | .TSQ_CNT_ECC => [⟨31, 0, .ro, 0x0⟩]
  | .TSQ_PTR_LO => [⟨31, 0, .ro, 0x0⟩]
  | .TSQ_PTR_HI => [⟨31, 31, .ro, 0⟩, ⟨30, 30, .ro, 0⟩, ⟨21, 16, .ro, 0x3f⟩, ⟨6, 0, .ro, 0x0⟩]
  | .TSQ_PTRBUF => [⟨31, 0, .ro, 0x0⟩]
  | .GAL_STATUS => [⟨2, 2, .w1c, 0⟩, ⟨1, 1, .w1c, 0⟩, ⟨0, 0, .w1c, 0⟩]
  | .GAL_CNT_FLITS_LO => [⟨31, 0, .ro, 0x0⟩]
  | .GAL_CNT_FLITS_HI => [⟨31, 0, .ro, 0x0⟩]
  | .GAL_CNT_OPEN_IDLE_LO => [⟨31, 0, .ro, 0x0⟩]
  | .GAL_CNT_OPEN_IDLE_HI => [⟨31, 0, .ro, 0x0⟩]
  | .GAL_CNT_FLIT_ERR => [⟨31, 0, .ro, 0x0⟩]
  | .GAL_HOSTQ_MAX => [⟨25, 16, .ro, 0x0⟩, ⟨9, 0, .ro, 0x0⟩]
  | .GAL_REMAP_OK => [⟨17, 0, .ro, 0x0⟩]
  | .ATR_STATUS => [⟨19, 16, .w1c, 0x0⟩, ⟨3, 0, .ro, 0x0⟩]
  | .ATR_CNT_CE => [⟨31, 0, .ro, 0x0⟩]
  | .ATR_CNT_UE => [⟨31, 0, .ro, 0x0⟩]
  | .ATR_CNT_EMERG => [⟨31, 0, .ro, 0x0⟩]
  | .ATR_REFRESH_GAP => [⟨15, 0, .ro, 0x0⟩]
  | .RFX_STATUS => [⟨11, 8, .w1c, 0x0⟩, ⟨3, 0, .ro, 0x0⟩]
  | .RFX_CORE => [⟨31, 30, .ro, 0x0⟩, ⟨27, 24, .ro, 0x0⟩, ⟨23, 16, .ro, 0x0⟩, ⟨15, 15, .ro, 0⟩, ⟨13, 0, .ro, 0x0⟩]
  | .RFX_ABORT_INFO => [⟨31, 28, .ro, 0x0⟩, ⟨27, 26, .ro, 0x0⟩, ⟨23, 16, .ro, 0x0⟩, ⟨13, 0, .ro, 0x0⟩]
  | .RFX_ABORT_TREAD => [⟨19, 0, .ro, 0x0⟩]
  | .RFX_LANDS => [⟨31, 0, .ro, 0x0⟩]
  | .RFX_CNT_DISPATCH => [⟨31, 0, .ro, 0x0⟩]
  | .RFX_CNT_ABORT => [⟨31, 0, .ro, 0x0⟩]
  | .RFX_MAX_CLOCKS => [⟨31, 24, .ro, 0x0⟩, ⟨23, 0, .ro, 0x0⟩]
  | .RFX_CNT_DIVZ => [⟨31, 0, .ro, 0x0⟩]
  | .RFX_CNT_EVT_LATE => [⟨31, 0, .ro, 0x0⟩]
  | .RFX_CNT_EVT_REJECT => [⟨31, 0, .ro, 0x0⟩]
  | .RFX_CNT_COMMIT => [⟨31, 0, .ro, 0x0⟩]
  | .CYC_CFG => [⟨23, 16, .rw, 0x40⟩, ⟨1, 1, .rw, 1⟩, ⟨0, 0, .rw, 1⟩]
  | .CYC_STATUS => [⟨5, 5, .w1c, 0⟩, ⟨4, 4, .w1c, 0⟩, ⟨3, 3, .w1c, 0⟩, ⟨2, 2, .w1c, 0⟩, ⟨1, 1, .w1c, 0⟩, ⟨0, 0, .w1c, 0⟩]
  | .CYC_DIR_VALID => [⟨16, 0, .ro, 0x0⟩]
  | .CYC_SLOTS_BOUND => [⟨16, 0, .ro, 0x0⟩]
  | .CYC_SRC_MAC_LO => [⟨31, 0, .rw, 0x0⟩]
  | .CYC_SRC_MAC_HI => [⟨15, 0, .rw, 0x0⟩]
  | .CYC_CNT_TX => [⟨31, 0, .ro, 0x0⟩]
  | .CYC_CNT_IDLE => [⟨31, 0, .ro, 0x0⟩]
  | .CYC_CNT_RX_ONTIME => [⟨31, 0, .ro, 0x0⟩]
  | .CYC_CNT_LATE => [⟨31, 0, .ro, 0x0⟩]
  | .CYC_CNT_DUP => [⟨31, 0, .ro, 0x0⟩]
  | .CYC_CNT_BAD_FRAME => [⟨31, 0, .ro, 0x0⟩]
  | .CYC_CNT_BAD_FLIGHT => [⟨31, 0, .ro, 0x0⟩]
  | .CYC_CNT_UNBOUND => [⟨31, 0, .ro, 0x0⟩]
  | .CYC_CNT_SID_CONFLICT => [⟨31, 0, .ro, 0x0⟩]
  | .CYC_CNT_DOMAIN => [⟨31, 0, .ro, 0x0⟩]
  | .CYC_CNT_AUTH_FAIL => [⟨31, 0, .ro, 0x0⟩]
  | .CYC_CNT_KEY => [⟨31, 0, .ro, 0x0⟩]
  | .CYC_CNT_HELLO => [⟨31, 0, .ro, 0x0⟩]
  | .CYC_CNT_LEARN => [⟨31, 0, .ro, 0x0⟩]
  | .CYC_CNT_NOTIFY_DROP => [⟨31, 0, .ro, 0x0⟩]
  | .CYC_CNT_MISS => [⟨31, 0, .ro, 0x0⟩]
  | .CYC_CNT_BYE => [⟨31, 0, .ro, 0x0⟩]
  | .LN_LANE_CFG => [⟨7, 7, .wo, 0⟩, ⟨6, 6, .rw, 1⟩, ⟨5, 5, .rw, 0⟩, ⟨4, 4, .rw, 0⟩, ⟨1, 0, .rw, 0x0⟩]
  | .LN_LANE_STATUS => [⟨11, 8, .ro, 0x0⟩, ⟨7, 7, .w1c, 0⟩, ⟨6, 6, .ro, 0⟩, ⟨5, 5, .ro, 0⟩, ⟨4, 4, .ro, 0⟩, ⟨3, 3, .ro, 0⟩, ⟨2, 2, .ro, 0⟩, ⟨1, 1, .ro, 0⟩, ⟨0, 0, .ro, 0⟩]
  | .LN_LANE_DELAY => [⟨31, 16, .rw, 0x0⟩, ⟨15, 0, .rw, 0x0⟩]
  | .LN_EYE => [⟨31, 31, .ro, 0⟩, ⟨23, 16, .ro, 0x0⟩, ⟨15, 8, .ro, 0x0⟩, ⟨7, 0, .ro, 0x0⟩]
  | .LN_CNT_RXFRAMES => [⟨31, 0, .ro, 0x0⟩]
  | .LN_CNT_RXDROP => [⟨31, 0, .ro, 0x0⟩]
  | .LN_CNT_RXERR => [⟨31, 0, .ro, 0x0⟩]
  | .LN_CNT_FEC_CE => [⟨31, 0, .ro, 0x0⟩]
  | .LN_CNT_FEC_UE => [⟨31, 0, .ro, 0x0⟩]
  | .LN_CNT_TXFRAMES => [⟨31, 0, .ro, 0x0⟩]
  | .LN_CNT_TXDOWN => [⟨31, 0, .ro, 0x0⟩]
  | .LN_CNT_MACCTL => [⟨31, 0, .ro, 0x0⟩]
  | .LN_CNT_TXDROP => [⟨31, 0, .ro, 0x0⟩]
  | .LN_TXTS_NS => [⟨31, 0, .ro, 0x0⟩]
  | .LN_TXTS_SEC_LO => [⟨31, 0, .ro, 0x0⟩]
  | .LN_TXTS_SEC_HI => [⟨31, 16, .ro, 0x0⟩, ⟨15, 0, .ro, 0x0⟩]
  | .LN_TXTS_INFO => [⟨31, 31, .ro, 0⟩, ⟨23, 16, .ro, 0x0⟩, ⟨15, 0, .ro, 0x0⟩]
  | .LN_TXTS_STATUS => [⟨31, 31, .w1c, 0⟩, ⟨26, 16, .ro, 0x0⟩, ⟨15, 0, .ro, 0x0⟩]
  | .LN_DOMAIN_STATUS => [⟨31, 31, .ro, 0⟩, ⟨15, 0, .ro, 0x0⟩]
  | .LN_PPS_OUT => [⟨31, 31, .rw, 0⟩, ⟨18, 0, .rw, 0x3e8⟩]
  | .EVT_STATUS => [⟨1, 1, .w1c, 0⟩, ⟨0, 0, .ro, 0⟩]
  | .EVT_LAND_CFG => [⟨7, 0, .rw, 0x0⟩]
  | .EVT_CAP_INFO => [⟨31, 31, .ro, 0⟩, ⟨30, 30, .ro, 0⟩, ⟨29, 29, .w1c, 0⟩, ⟨28, 24, .ro, 0x0⟩, ⟨23, 16, .ro, 0x0⟩, ⟨15, 0, .ro, 0x0⟩]
  | .EVT_CAP_LO => [⟨31, 0, .ro, 0x0⟩]
  | .EVT_CAP_HI => [⟨31, 0, .ro, 0x0⟩]
  | .EVT_LEVEL => [⟨2, 2, .ro, 0⟩, ⟨1, 1, .ro, 0⟩, ⟨0, 0, .ro, 0⟩]
  | .EVT_HOST => [⟨18, 3, .wo, 0x0⟩, ⟨2, 0, .wo, 0x0⟩]
  | .PRS_CFG => [⟨31, 16, .rw, 0x9100⟩, ⟨4, 4, .rw, 0⟩, ⟨1, 0, .rw, 0x0⟩]
  | .PRS_TUN_PORTS => [⟨31, 16, .rw, 0x12b5⟩, ⟨15, 0, .rw, 0x17c1⟩]
  | .PRS_STATUS => [⟨0, 0, .ro, 0⟩]
  | .PRS_CUSTOM => [⟨31, 31, .rw, 0⟩, ⟨30, 29, .rw, 0x0⟩, ⟨28, 27, .rw, 0x0⟩, ⟨20, 16, .rw, 0x1⟩, ⟨15, 0, .rw, 0x0⟩]
  | .PRS_UDF => [⟨31, 31, .rw, 0⟩, ⟨26, 24, .rw, 0x0⟩, ⟨7, 0, .rw, 0x0⟩]
  | .PRS_CNT_FRAMES => [⟨31, 0, .ro, 0x0⟩]
  | .PRS_CNT_ERR => [⟨31, 0, .ro, 0x0⟩]
  | .CLS_STATUS => [⟨30, 16, .ro, 0x0⟩, ⟨1, 1, .w1c, 0⟩, ⟨0, 0, .w1c, 0⟩]
  | .CLS_MIRROR => [⟨31, 31, .rw, 0⟩, ⟨15, 0, .rw, 0x0⟩]
  | .CLS_MISS_W0 => [⟨31, 0, .rw, 0x0⟩]
  | .CLS_MISS_W1 => [⟨31, 0, .rw, 0x0⟩]
  | .CLS_MISS_W2 => [⟨31, 0, .rw, 0x0⟩]
  | .CLS_MISS_W3 => [⟨31, 0, .rw, 0x10000000⟩]
  | .CLS_CNT_LOOKUP => [⟨31, 0, .ro, 0x0⟩]
  | .CLS_CNT_MISS => [⟨31, 0, .ro, 0x0⟩]
  | .CLS_CNT_BAD_ACTION => [⟨31, 0, .ro, 0x0⟩]
  | .CLS_CNT_DECAP_FAIL => [⟨31, 0, .ro, 0x0⟩]
  | .FRG_CFG => [⟨31, 12, .rw, 0x2710⟩, ⟨2, 2, .rw, 1⟩, ⟨1, 0, .rw, 0x1⟩]
  | .FRG_STATUS => [⟨28, 16, .ro, 0x0⟩, ⟨0, 0, .w1c, 0⟩]
  | .FRG_CNT_INSTALL => [⟨31, 0, .ro, 0x0⟩]
  | .FRG_CNT_HIT => [⟨31, 0, .ro, 0x0⟩]
  | .FRG_CNT_MISS => [⟨31, 0, .ro, 0x0⟩]
  | .FRG_CNT_FULL => [⟨31, 0, .ro, 0x0⟩]
  | .FRG_CNT_FREED => [⟨31, 0, .ro, 0x0⟩]
  | .FRG_CNT_AGED => [⟨31, 0, .ro, 0x0⟩]
  | .FWD_CFG => [⟨31, 20, .rw, 0x12c⟩, ⟨0, 0, .rw, 1⟩]
  | .FWD_STATUS => [⟨4, 4, .w1c, 0⟩, ⟨3, 3, .w1c, 0⟩, ⟨2, 2, .w1c, 0⟩, ⟨1, 1, .w1c, 0⟩, ⟨0, 0, .w1c, 0⟩]
  | .FWD_ENTRIES => [⟨18, 0, .ro, 0x0⟩]
  | .FWD_UNSTABLE_INFO => [⟨31, 31, .ro, 0⟩, ⟨17, 0, .ro, 0x0⟩]
  | .FWD_FLOOD_USED => [⟨31, 0, .ro, 0x0⟩]
  | .FWD_CNT_LOOKUP => [⟨31, 0, .ro, 0x0⟩]
  | .FWD_CNT_HIT => [⟨31, 0, .ro, 0x0⟩]
  | .FWD_CNT_UNKNOWN => [⟨31, 0, .ro, 0x0⟩]
  | .FWD_CNT_FLOODED => [⟨31, 0, .ro, 0x0⟩]
  | .FWD_CNT_FLOOD_CAP => [⟨31, 0, .ro, 0x0⟩]
  | .FWD_CNT_LEARN => [⟨31, 0, .ro, 0x0⟩]
  | .FWD_CNT_LEARN_FULL => [⟨31, 0, .ro, 0x0⟩]
  | .FWD_CNT_MOVES => [⟨31, 0, .ro, 0x0⟩]
  | .FWD_CNT_MOVE_FROZEN => [⟨31, 0, .ro, 0x0⟩]
  | .FWD_CNT_STATIC_MOVE => [⟨31, 0, .ro, 0x0⟩]
  | .FWD_CNT_AGED => [⟨31, 0, .ro, 0x0⟩]
  | .FWD_CNT_SPOOF => [⟨31, 0, .ro, 0x0⟩]
  | .FWD_CNT_HAIRPIN => [⟨31, 0, .ro, 0x0⟩]
  | .FWD_CNT_BD_INVALID => [⟨31, 0, .ro, 0x0⟩]
  | .FWD_CNT_VPORT_DROP => [⟨31, 0, .ro, 0x0⟩]
  | .FWD_CNT_STATION_MISS => [⟨31, 0, .ro, 0x0⟩]
  | .FWD_CNT_REPL_DROP => [⟨31, 0, .ro, 0x0⟩]
  | .FWD_CNT_EGRESS_DROP => [⟨31, 0, .ro, 0x0⟩]
  | .FWD_CNT_ECC => [⟨31, 0, .ro, 0x0⟩]
  | .FWD_AUDIT_CFG => [⟨0, 0, .rw, 1⟩]
  | .FWD_AUDIT_STATUS => [⟨31, 16, .ro, 0x0⟩, ⟨2, 2, .w1c, 0⟩, ⟨1, 1, .w1c, 0⟩, ⟨0, 0, .ro, 0⟩]
  | .FWD_AUDIT_FAIL => [⟨31, 31, .ro, 0⟩, ⟨20, 16, .ro, 0x0⟩, ⟨8, 0, .ro, 0x0⟩]
  | .FWD_AUDIT_FAIL_DIGEST => [⟨31, 0, .ro, 0x0⟩]
  | .FWD_AUDIT_VALID => [⟨31, 0, .w1c, 0x0⟩]
  | .FWD_AUDIT_SHADOW => [⟨31, 0, .rw, 0x0⟩]
  | .TUN_CFG => [⟨0, 0, .rw, 0⟩]
  | .TUN_STATUS => [⟨3, 3, .w1c, 0⟩, ⟨2, 2, .w1c, 0⟩, ⟨1, 1, .w1c, 0⟩, ⟨0, 0, .w1c, 0⟩]
  | .TUN_CNT_ENCAP => [⟨31, 0, .ro, 0x0⟩]
  | .TUN_CNT_DECAP => [⟨31, 0, .ro, 0x0⟩]
  | .TUN_CNT_MTU => [⟨31, 0, .ro, 0x0⟩]
  | .TUN_CNT_TAG_DEPTH => [⟨31, 0, .ro, 0x0⟩]
  | .TUN_CNT_TEMPLATE_INVALID => [⟨31, 0, .ro, 0x0⟩]
  | .TUN_CNT_NO_VNI => [⟨31, 0, .ro, 0x0⟩]
  | .TUN_CNT_VNI_MISS => [⟨31, 0, .ro, 0x0⟩]
  | .TUN_CNT_CRIT => [⟨31, 0, .ro, 0x0⟩]
  | .TUN_CNT_NO_L2 => [⟨31, 0, .ro, 0x0⟩]
  | .CPH_KS_STATUS => [⟨16, 0, .ro, 0x0⟩]
  | .CPH_KS_REVOKING => [⟨16, 0, .ro, 0x0⟩]
  | .CPH_KEK_VALID => [⟨15, 0, .ro, 0x0⟩]
  | .CPH_KS_CNT_LOAD => [⟨31, 0, .ro, 0x0⟩]
  | .CPH_KS_CNT_UNWRAP_FAIL => [⟨31, 0, .ro, 0x0⟩]
  | .CPH_KS_CNT_ERASE => [⟨31, 0, .ro, 0x0⟩]
  | .CPH_STATUS => [⟨3, 3, .w1c, 0⟩, ⟨2, 2, .w1c, 0⟩, ⟨1, 1, .w1c, 0⟩, ⟨0, 0, .w1c, 0⟩]
  | .CPH_JOBQ_CFG => [⟨5, 0, .rw, 0x3f⟩]
  | .CPH_LEVELS => [⟨31, 21, .ro, 0x0⟩, ⟨17, 9, .ro, 0x0⟩, ⟨8, 0, .ro, 0x0⟩]
  | .CPH_WIN_MAX => [⟨31, 16, .ro, 0x0⟩, ⟨15, 0, .ro, 0x0⟩]
  | .CPH_SLOTS_USED_LO => [⟨31, 0, .ro, 0x0⟩]
  | .CPH_SLOTS_USED_HI => [⟨31, 0, .ro, 0x0⟩]
  | .CPH_SLOTS_IDLE_LO => [⟨31, 0, .ro, 0x0⟩]
  | .CPH_SLOTS_IDLE_HI => [⟨31, 0, .ro, 0x0⟩]
  | .CPH_CNT_OPS => [⟨31, 0, .ro, 0x0⟩]
  | .CPH_CNT_AUTH_FAIL => [⟨31, 0, .ro, 0x0⟩]
  | .CPH_CNT_REVOKED => [⟨31, 0, .ro, 0x0⟩]
  | .CPH_CNT_NONCE => [⟨31, 0, .ro, 0x0⟩]
  | .CPH_CNT_KEY => [⟨31, 0, .ro, 0x0⟩]
  | .CPH_CNT_KEY_MISMATCH => [⟨31, 0, .ro, 0x0⟩]
  | .CPH_CNT_INLINE_DROP => [⟨31, 0, .ro, 0x0⟩]
  | .CPH_CNT_REPLAY => [⟨31, 0, .ro, 0x0⟩]
  | .CPH_CNT_BAD_TAG => [⟨31, 0, .ro, 0x0⟩]
  | .CPH_CNT_LENGTH => [⟨31, 0, .ro, 0x0⟩]
  | .CPH_CNT_ENTROPY => [⟨31, 0, .ro, 0x0⟩]
  | .BPM_STATUS => [⟨4, 4, .w1c, 0⟩, ⟨3, 3, .w1c, 0⟩, ⟨2, 2, .w1c, 0⟩, ⟨1, 1, .w1c, 0⟩, ⟨0, 0, .w1c, 0⟩]
  | .BPM_CFG => [⟨3, 0, .rw, 0x4⟩]
  | .BPM_CLASS_TOTAL => [⟨29, 0, .ro, 0x0⟩]
  | .BPM_CLASS_FREE => [⟨29, 0, .ro, 0x0⟩]
  | .BPM_REGIONS => [⟨8, 0, .ro, 0x0⟩]
  | .BPM_BYTES_LO => [⟨31, 0, .ro, 0x0⟩]
  | .BPM_BYTES_HI => [⟨31, 0, .ro, 0x0⟩]
  | .BPM_ALARM_NEXT => [⟨31, 31, .ro, 0⟩, ⟨22, 16, .ro, 0x0⟩, ⟨12, 0, .ro, 0x0⟩]
  | .BPM_CNT_ALLOC => [⟨31, 0, .ro, 0x0⟩]
  | .BPM_CNT_FREED => [⟨31, 0, .ro, 0x0⟩]
  | .BPM_CNT_QUOTA => [⟨31, 0, .ro, 0x0⟩]
  | .BPM_CNT_NO_BUFFER => [⟨31, 0, .ro, 0x0⟩]
  | .BPM_CNT_STOCK_EMPTY => [⟨31, 0, .ro, 0x0⟩]
  | .BPM_CNT_BAD_RELEASE => [⟨31, 0, .ro, 0x0⟩]
  | .BPM_CNT_NOT_OWNER => [⟨31, 0, .ro, 0x0⟩]
  | .BPM_CNT_HDR_BAD => [⟨31, 0, .ro, 0x0⟩]
  | .DMA_CFG => [⟨16, 0, .rw, 0x1000⟩]
  | .DMA_STATUS => [⟨4, 4, .w1c, 0⟩, ⟨3, 3, .w1c, 0⟩, ⟨2, 2, .w1c, 0⟩, ⟨1, 1, .w1c, 0⟩, ⟨0, 0, .ro, 0⟩]
  | .DMA_ERR_INFO => [⟨31, 31, .ro, 0⟩, ⟨30, 28, .ro, 0x0⟩, ⟨26, 24, .ro, 0x0⟩, ⟨21, 16, .ro, 0x0⟩, ⟨12, 0, .ro, 0x0⟩]
  | .DMA_ERR_ADDR_LO => [⟨31, 0, .ro, 0x0⟩]
  | .DMA_ERR_ADDR_HI => [⟨31, 0, .ro, 0x0⟩]
  | .DMA_CNT_DESC => [⟨31, 0, .ro, 0x0⟩]
  | .DMA_CNT_DESC_ERR => [⟨31, 0, .ro, 0x0⟩]
  | .DMA_CNT_LATE => [⟨31, 0, .ro, 0x0⟩]
  | .DMA_CNT_CHAIN_LIMIT => [⟨31, 0, .ro, 0x0⟩]
  | .DMA_CNT_SG_STALL => [⟨31, 0, .ro, 0x0⟩]
  | .DMA_CNT_CRC_MISMATCH => [⟨31, 0, .ro, 0x0⟩]
  | .DMA_CNT_BYTES_LO => [⟨31, 0, .ro, 0x0⟩]
  | .DMA_CNT_BYTES_HI => [⟨31, 0, .ro, 0x0⟩]
  | .DMA_CNT_CARRIER_IDLE_LO => [⟨31, 0, .ro, 0x0⟩]
  | .DMA_CNT_CARRIER_IDLE_HI => [⟨31, 0, .ro, 0x0⟩]
  | .DMA_CH_CFG => [⟨10, 8, .rw, 0x0⟩, ⟨2, 2, .rw, 0⟩, ⟨1, 0, .rw, 0x0⟩]
  | .DMA_CH_QUEUE => [⟨31, 0, .ro, 0x0⟩]
  | .DMA_CH_CHAIN_LO => [⟨31, 0, .rw, 0x0⟩]
  | .DMA_CH_CHAIN_HI => [⟨31, 0, .rw, 0x0⟩]
  | .DMA_CH_CHAIN_FN => [⟨31, 31, .rw, 0⟩, ⟨12, 0, .rw, 0x0⟩]
  | .DMA_CH_CTRL => [⟨1, 1, .wo, 0⟩, ⟨0, 0, .wo, 0⟩]
  | .DMA_CH_STATUS => [⟨23, 16, .ro, 0x0⟩, ⟨10, 10, .w1c, 0⟩, ⟨8, 8, .w1c, 0⟩, ⟨2, 0, .ro, 0x0⟩]
  | .DMA_CH_REMAIN => [⟨30, 0, .ro, 0x0⟩]
  | .WQ_CFG => [⟨31, 16, .rw, 0x3e8⟩, ⟨15, 0, .rw, 0x64⟩]
  | .WQ_STATUS => [⟨3, 3, .w1c, 0⟩, ⟨2, 2, .w1c, 0⟩, ⟨1, 1, .w1c, 0⟩, ⟨0, 0, .w1c, 0⟩]
  | .WQ_QUEUES => [⟨31, 16, .ro, 0x0⟩, ⟨15, 0, .ro, 0x0⟩]
  | .WQ_CNT_OVERRUN => [⟨31, 0, .ro, 0x0⟩]
  | .WQ_CNT_CQ_FULL => [⟨31, 0, .ro, 0x0⟩]
  | .WQ_CNT_STALL => [⟨31, 0, .ro, 0x0⟩]
  | .WQ_CNT_REFETCH => [⟨31, 0, .ro, 0x0⟩]
  | .WQ_CNT_REARM_STALE => [⟨31, 0, .ro, 0x0⟩]
  | .WQ_CNT_DB_IGNORED => [⟨31, 0, .ro, 0x0⟩]
  | .WQ_CNT_RQ_DROP => [⟨31, 0, .ro, 0x0⟩]
  | .WQ_CNT_EVENT_DROP => [⟨31, 0, .ro, 0x0⟩]
  | .WQ_STAGE => [⟨24, 16, .ro, 0x0⟩, ⟨8, 0, .ro, 0x0⟩]
  | .WQ_QSEL => [⟨16, 16, .rw, 0⟩, ⟨15, 0, .rw, 0x0⟩]
  | .WQ_QINFO => [⟨31, 31, .ro, 0⟩, ⟨23, 16, .ro, 0x0⟩, ⟨12, 8, .ro, 0x0⟩, ⟨2, 0, .ro, 0x0⟩]
  | .WQ_QPROD => [⟨31, 0, .ro, 0x0⟩]
  | .WQ_QCONS => [⟨31, 0, .ro, 0x0⟩]
  | .WQ_QWMARK => [⟨31, 0, .ro, 0x0⟩]
  | .WQ_FN_AQ_BASE_LO => [⟨31, 12, .rw, 0x0⟩]
  | .WQ_FN_AQ_BASE_HI => [⟨31, 0, .rw, 0x0⟩]
  | .WQ_FN_ACQ_BASE_LO => [⟨31, 12, .rw, 0x0⟩]
  | .WQ_FN_ACQ_BASE_HI => [⟨31, 0, .rw, 0x0⟩]
  | .WQ_FN_AQ_CFG => [⟨31, 31, .rw, 0⟩, ⟨26, 16, .rw, 0x0⟩, ⟨4, 0, .rw, 0x4⟩]
  | .WQ_FN_ACQ_CFG => [⟨31, 31, .rw, 0⟩, ⟨26, 16, .rw, 0x0⟩, ⟨4, 0, .rw, 0x4⟩]
  | .WQ_FN_ADMIN_STATE => [⟨31, 16, .ro, 0x0⟩, ⟨15, 8, .ro, 0x0⟩, ⟨6, 4, .ro, 0x0⟩, ⟨2, 0, .ro, 0x0⟩]
  | .WQ_FN_EVQ => [⟨31, 0, .ro, 0x20010000⟩]
  | .EP_PORT_MAP => [⟨8, 8, .rw, 0⟩, ⟨5, 4, .rw, 0⟩, ⟨2, 0, .rw, 0⟩]
  | .EP_PORT_MAP_STATUS => [⟨1, 1, .ro, 0⟩, ⟨0, 0, .ro, 0⟩]
  | .EP_PORT_CFG => [⟨31, 16, .rw, 0x0⟩, ⟨1, 0, .rw, 0x3⟩]
  | .EP_PORT_STATUS => [⟨31, 31, .ro, 0⟩, ⟨30, 30, .ro, 0⟩, ⟨29, 28, .ro, 0x0⟩, ⟨27, 25, .ro, 0x0⟩, ⟨24, 22, .ro, 0x0⟩, ⟨21, 21, .ro, 0⟩, ⟨20, 20, .ro, 0⟩, ⟨19, 19, .ro, 0⟩, ⟨18, 18, .ro, 0⟩, ⟨9, 0, .ro, 0x0⟩]
  | .EP_PORT_CPL => [⟨25, 0, .ro, 0xc350⟩]
  | .EP_LATE_CPL => [⟨31, 0, .ro, 0x0⟩]
  | .EP_CNT_CTO => [⟨31, 0, .ro, 0x0⟩]
  | .EP_CNT_UR => [⟨31, 0, .ro, 0x0⟩]
  | .EP_CNT_UNEXP_CPL => [⟨31, 0, .ro, 0x0⟩]
  | .EP_CNT_BAD_VECTOR => [⟨31, 0, .ro, 0x0⟩]
  | .EP_CNT_PME => [⟨31, 0, .ro, 0x0⟩]
  | .EP_CNT_FLR => [⟨31, 0, .ro, 0x0⟩]
  | .EP_CNT_WIN_MISS => [⟨31, 0, .ro, 0x0⟩]
  | .EP_FSEL => [⟨12, 0, .rw, 0x0⟩]
  | .EP_WIN_SHADOW_W0 => [⟨31, 31, .rw, 0⟩, ⟨30, 30, .rw, 0⟩, ⟨29, 29, .rw, 0⟩, ⟨26, 24, .rw, 0x0⟩, ⟨23, 20, .rw, 0x0⟩, ⟨19, 19, .rw, 0⟩, ⟨15, 0, .rw, 0x0⟩]
  | .EP_WIN_SHADOW_W1 => [⟨31, 26, .rw, 0x0⟩, ⟨25, 0, .rw, 0x0⟩]
  | .EP_WIN_SHADOW_W2 => [⟨31, 0, .rw, 0x0⟩]
  | .EP_WIN_SHADOW_W3 => [⟨31, 0, .rw, 0x0⟩]
  | .EP_WIN_LIVE_W0 => [⟨31, 31, .rw, 0⟩, ⟨30, 30, .rw, 0⟩, ⟨29, 29, .rw, 0⟩, ⟨26, 24, .rw, 0x0⟩, ⟨23, 20, .rw, 0x0⟩, ⟨19, 19, .rw, 0⟩, ⟨15, 0, .rw, 0x0⟩]
  | .EP_WIN_LIVE_W1 => [⟨31, 26, .rw, 0x0⟩, ⟨25, 0, .rw, 0x0⟩]
  | .EP_WIN_LIVE_W2 => [⟨31, 0, .rw, 0x0⟩]
  | .EP_WIN_LIVE_W3 => [⟨31, 0, .rw, 0x0⟩]
  | .EP_WIN_CTRL => [⟨1, 1, .wo, 0⟩, ⟨0, 0, .wo, 0⟩]
  | .EP_WIN_STATUS => [⟨31, 31, .w1c, 0⟩, ⟨30, 30, .ro, 0⟩, ⟨21, 16, .ro, 0x0⟩, ⟨7, 0, .ro, 0x0⟩]
  | .EP_FN_STATE => [⟨4, 4, .ro, 0⟩, ⟨3, 3, .ro, 0⟩, ⟨2, 2, .ro, 0⟩, ⟨1, 0, .ro, 0x0⟩]
  | .VFN_STATUS => [⟨1, 1, .ro, 0⟩, ⟨0, 0, .w1c, 0⟩]
  | .VFN_PORT => [⟨31, 31, .ro, 0⟩, ⟨25, 16, .ro, 0x0⟩, ⟨9, 0, .ro, 0x0⟩]
  | .VFN_FSEL => [⟨12, 0, .rw, 0x0⟩]
  | .VFN_FINFO => [⟨31, 31, .ro, 0⟩, ⟨7, 6, .ro, 0x0⟩, ⟨5, 5, .ro, 0⟩, ⟨1, 0, .ro, 0x0⟩]
  | .VFN_FUSE => [⟨31, 16, .ro, 0x0⟩, ⟨15, 0, .ro, 0x0⟩]
  | .VFN_FINFLIGHT => [⟨31, 16, .ro, 0x0⟩, ⟨15, 0, .ro, 0x0⟩]
  | .VFN_CNT_ADMIT_WAIT => [⟨31, 0, .ro, 0x0⟩]
  | .VFN_CNT_LOG_BITS => [⟨31, 0, .ro, 0x0⟩]
  | .VFN_CNT_LOG_LINES => [⟨31, 0, .ro, 0x0⟩]
  | .STO_CFG => [⟨23, 16, .rw, 0x8⟩, ⟨15, 0, .rw, 0xc8⟩]
  | .STO_STATUS => [⟨12, 0, .ro, 0x0⟩]
  | .STO_FLAGS => [⟨2, 2, .w1c, 0⟩, ⟨1, 1, .w1c, 0⟩, ⟨0, 0, .w1c, 0⟩]
  | .STO_STAGE => [⟨31, 12, .rw, 0x0⟩, ⟨3, 0, .rw, 0x0⟩]
  | .STO_CH => [⟨13, 8, .rw, 0x3f⟩, ⟨5, 0, .rw, 0x3f⟩]
  | .STO_CNT_PDU_TX => [⟨31, 0, .ro, 0x0⟩]
  | .STO_CNT_PDU_RX => [⟨31, 0, .ro, 0x0⟩]
  | .STO_CNT_HDGST_ERR => [⟨31, 0, .ro, 0x0⟩]
  | .STO_CNT_DDGST_ERR => [⟨31, 0, .ro, 0x0⟩]
  | .STO_CNT_RETRANS => [⟨31, 0, .ro, 0x0⟩]
  | .STO_CNT_OOO_DROP => [⟨31, 0, .ro, 0x0⟩]
  | .STO_CNT_CLEAR_DROP => [⟨31, 0, .ro, 0x0⟩]
  | .STO_CNT_CONN_FAIL => [⟨31, 0, .ro, 0x0⟩]
  | .SIC_STATUS => [⟨11, 0, .ro, 0x0⟩]
  | .SIC_FLAGS => [⟨0, 0, .w1c, 0⟩]
  | .SIC_SGI => [⟨4, 0, .wo, 0x0⟩]
  | .SIC_CNT_MERGED => [⟨31, 0, .ro, 0x0⟩]
  | .SIC_CORE_CFG => [⟨11, 8, .rw, 0xf⟩, ⟨0, 0, .rw, 0⟩]
  | .SIC_CORE_VBASE_LO => [⟨31, 17, .rw, 0x0⟩]
  | .SIC_CORE_VBASE_HI => [⟨31, 0, .rw, 0x0⟩]
  | .SIC_CORE_STATE => [⟨26, 16, .ro, 0x0⟩, ⟨11, 8, .ro, 0x0⟩, ⟨3, 0, .ro, 0x0⟩]
  | .SIC_CORE_COMPLETE => [⟨10, 0, .wo, 0x0⟩]
  | .SIC_CORE_CTRL => [⟨0, 0, .wo, 0⟩]
  | .SIC_CNT_SPURIOUS => [⟨31, 0, .ro, 0x0⟩]
  | .SIC_CNT_DELIVERED => [⟨31, 0, .ro, 0x0⟩]
  | .SIC_GROUP_LULL => [⟨31, 31, .ro, 0⟩, ⟨23, 0, .rw, 0x0⟩]
  | .SIC_CNT_LULL => [⟨31, 0, .ro, 0x0⟩]
  | .SIC_SRC_CFG => [⟨24, 24, .ro, 0⟩, ⟨21, 16, .rw, 0x0⟩, ⟨15, 8, .rw, 0x0⟩, ⟨3, 0, .rw, 0x0⟩]
  | .SIC_SRC_PEND => [⟨31, 0, .w1c, 0x0⟩]
  | .SIC_SRC_ACTIVE => [⟨31, 0, .ro, 0x0⟩]
  | .SIC_FN_VGAP => [⟨15, 0, .rw, 0x0⟩]
  | .OWN_STATE => [⟨31, 31, .ro, 0⟩, ⟨30, 30, .ro, 0⟩, ⟨29, 29, .ro, 0⟩, ⟨28, 27, .ro, 0x0⟩, ⟨26, 24, .ro, 0x0⟩, ⟨18, 16, .ro, 0x0⟩]
  | .OWN_EPOCH => [⟨31, 0, .ro, 0x0⟩]
  | .OWN_RENEW => [⟨31, 0, .wo, 0x0⟩]
  | .OWN_LEASE => [⟨31, 16, .rw, 0xbb8⟩, ⟨15, 0, .ro, 0x0⟩]
  | .OWN_FLAGS => [⟨5, 5, .w1c, 0⟩, ⟨4, 4, .w1c, 0⟩, ⟨3, 3, .w1c, 0⟩, ⟨2, 2, .w1c, 0⟩, ⟨1, 1, .w1c, 0⟩, ⟨0, 0, .w1c, 0⟩]
  | .OWN_CFG => [⟨0, 0, .rw, 0⟩]
  | .OWN_NONCE_LO => [⟨31, 0, .ro, 0⟩]
  | .OWN_NONCE_HI => [⟨31, 0, .ro, 0⟩]
  | .OWN_HALF_EPOCH => [⟨31, 0, .ro, 0x0⟩]
  | .OWN_HALF_HASH => [⟨31, 0, .ro, 0x0⟩]
  | .OWN_HALF_STATE => [⟨31, 31, .ro, 0⟩, ⟨15, 0, .ro, 0x0⟩]
  | .OWN_BOOT_STATUS => [⟨31, 28, .ro, 0x0⟩, ⟨27, 24, .ro, 0x0⟩, ⟨19, 19, .ro, 0⟩, ⟨18, 18, .ro, 0⟩, ⟨17, 17, .ro, 0⟩, ⟨16, 16, .ro, 0⟩, ⟨9, 8, .ro, 0x0⟩, ⟨7, 0, .ro, 0x0⟩]
  | .OWN_FW_SVN => [⟨15, 8, .ro, 0⟩, ⟨7, 0, .ro, 0x0⟩]
  | .OWN_PLANKEYS => [⟨7, 4, .ro, 0x0⟩, ⟨3, 0, .ro, 0x0⟩]
  | .OWN_CNT_CHANGE => [⟨31, 0, .ro, 0x0⟩]
  | .OWN_CNT_RENEW_BAD => [⟨31, 0, .ro, 0x0⟩]
  | .OWN_CNT_REFUSED => [⟨31, 0, .ro, 0x0⟩]
  | .FLT_STATUS => [⟨8, 8, .w1c, 0⟩, ⟨7, 7, .w1c, 0⟩, ⟨6, 6, .w1c, 0⟩, ⟨5, 5, .w1c, 0⟩, ⟨4, 4, .w1c, 0⟩, ⟨3, 3, .w1c, 0⟩, ⟨2, 2, .w1c, 0⟩, ⟨1, 1, .w1c, 0⟩, ⟨0, 0, .w1c, 0⟩]
  | .FLT_CFG => [⟨31, 31, .rw, 0⟩, ⟨23, 16, .rw, 0x3⟩, ⟨15, 0, .rw, 0x3c⟩]
  | .FLT_WDOG => [⟨31, 16, .rw, 0x3e8⟩, ⟨0, 0, .wo, 0⟩]
  | .FLT_LAST_INFO => [⟨26, 24, .ro, 0x0⟩, ⟨23, 16, .ro, 0x0⟩, ⟨15, 8, .ro, 0xff⟩]
  | .FLT_LAST_SEQ => [⟨31, 0, .ro, 0x0⟩]
  | .FLT_HALL => [⟨31, 16, .ro, 0x0⟩, ⟨15, 8, .ro, 0x0⟩, ⟨2, 0, .ro, 0x0⟩]
  | .FLT_HALF => [⟨31, 16, .ro, 0x0⟩, ⟨15, 8, .ro, 0x0⟩, ⟨2, 0, .ro, 0x0⟩]
  | .FLT_CNT_LANE_FAULT => [⟨31, 0, .ro, 0x0⟩]
  | .FLT_CNT_HALL_FAULT => [⟨31, 0, .ro, 0x0⟩]
  | .FLT_CNT_HALF_FAULT => [⟨31, 0, .ro, 0x0⟩]
  | .FLT_CNT_DEVICE_FAULT => [⟨31, 0, .ro, 0x0⟩]
  | .FLT_CNT_FN_FAULT => [⟨31, 0, .ro, 0x0⟩]
  | .FLT_CNT_POISON => [⟨31, 0, .ro, 0x0⟩]
  | .FLT_CNT_POISON_USE => [⟨31, 0, .ro, 0x0⟩]
  | .FLT_CNT_PAGE_FAIL => [⟨31, 0, .ro, 0x0⟩]
  | .FLT_FN_EPOCH => [⟨15, 0, .ro, 0x0⟩]
  | .FLT_FN_PAGE_LO => [⟨31, 6, .ro, 0x0⟩, ⟨0, 0, .ro, 0⟩]
  | .FLT_FN_PAGE_HI => [⟨31, 0, .ro, 0x0⟩]
  | .ALM_HEAD => [⟨31, 0, .ro, 0x1⟩]
  | .ALM_STATUS => [⟨16, 16, .ro, 0⟩, ⟨3, 3, .w1c, 0⟩, ⟨2, 2, .w1c, 0⟩, ⟨1, 1, .w1c, 0⟩, ⟨0, 0, .w1c, 0⟩]
  | .ALM_CFG => [⟨31, 31, .rw, 0⟩, ⟨30, 16, .rw, 0x6000⟩, ⟨7, 0, .rw, 0x10⟩]
  | .ALM_MARK => [⟨31, 0, .rw, 0x0⟩]
  | .ALM_CTRL => [⟨0, 0, .wo, 0⟩]
  | .ALM_FROZEN_SEQ => [⟨31, 0, .ro, 0x0⟩]
  | .ALM_CNT_LOST => [⟨31, 0, .ro, 0x0⟩]
  | .ALM_CNT_SUPPRESSED => [⟨31, 0, .ro, 0x0⟩]
  | .ALM_ENTRY => [⟨31, 0, .ro, 0x0⟩]
  | .BARO_STATUS => [⟨8, 8, .ro, 0⟩, ⟨7, 7, .w1c, 0⟩, ⟨6, 6, .w1c, 0⟩, ⟨5, 5, .w1c, 0⟩, ⟨4, 4, .w1c, 0⟩, ⟨3, 3, .w1c, 0⟩, ⟨2, 2, .w1c, 0⟩, ⟨1, 1, .w1c, 0⟩, ⟨0, 0, .w1c, 0⟩]
  | .BARO_CFG => [⟨31, 31, .rw, 1⟩, ⟨15, 8, .rw, 0x40⟩, ⟨7, 0, .rw, 0x14⟩]
  | .BARO_PASS_CNT => [⟨31, 0, .ro, 0x0⟩]
  | .BARO_PASS_SEC => [⟨31, 0, .ro, 0x0⟩]
  | .BARO_MT_W0 => [⟨31, 29, .ro, 0x7⟩, ⟨28, 26, .ro, 0x7⟩, ⟨25, 23, .ro, 0x0⟩, ⟨22, 20, .ro, 0x7⟩, ⟨15, 0, .ro, 0xffff⟩]
  | .BARO_MT_W1 => [⟨31, 20, .ro, 0x0⟩, ⟨19, 10, .ro, 0⟩, ⟨9, 5, .ro, 0x0⟩, ⟨4, 0, .ro, 0⟩]
  | .BARO_MT_W2 => [⟨31, 16, .ro, 0x0⟩, ⟨15, 0, .ro, 0x0⟩]
  | .BARO_MT_W3 => [⟨31, 16, .ro, 0x0⟩, ⟨15, 0, .ro, 0x0⟩]
  | .BARO_MT_W4 => [⟨31, 16, .ro, 0x0⟩, ⟨15, 8, .ro, 0x0⟩, ⟨4, 0, .ro, 0x0⟩]
  | .BARO_MT_W5 => [⟨31, 0, .ro, 0x0⟩]
  | .BARO_MT_W6 => [⟨31, 20, .ro, 0⟩, ⟨19, 12, .ro, 0⟩, ⟨4, 0, .ro, 0x0⟩]
  | .BARO_MT_W7 => [⟨31, 0, .ro, 0x0⟩]
  | .BARO_STACK => [⟨7, 0, .ro, 0x0⟩]
  | .BARO_RAIL => [⟨31, 20, .ro, 0x0⟩, ⟨7, 0, .ro, 0x0⟩]
  | .BARO_NVS => [⟨7, 0, .ro, 0x0⟩]
  | .BARO_LANE_LOW => [⟨31, 0, .ro, 0x0⟩]
  | .EP_FN_ID => [⟨31, 31, .ro, 0⟩, ⟨30, 30, .ro, 0⟩, ⟨12, 0, .ro, 0⟩]

def Reg.list0 : List Reg := [.CALM_STATE, .CALM_STANDBY, .CALM_EVT_WAKE_EN, .CALM_THAW_CNT, .CALM_LANE_ED, .CALM_PERST, .CALM_DBWAKE, .CALM_EVT_IN, .CALM_THERM, .CALM_HALL_STATE, .CALM_DUTY_PORT, .TB_NOW_FRAC, .TB_NOW_NS, .TB_NOW_SEC_LO, .TB_NOW_SEC_HI, .TB_CTRL, .TB_STATUS, .TB_RATE, .TB_STEP, .TB_SET_NS, .TB_SET_SEC_LO, .TB_SET_SEC_HI, .TB_ORIGIN_NS, .TB_ORIGIN_SEC_LO, .TB_ORIGIN_SEC_HI, .TB_FLIGHT_LEN, .TB_TREAD, .TB_FLIGHT_LO, .TB_FLIGHT_HI, .PLN_ACTIVE_STATUS, .PLN_STANDBY_STATUS, .PLN_VERIFY_WHERE, .PLN_VERIFY_ITEM, .PLN_HALL_READY, .PLN_POWER_BUDGET, .PLN_DOMAIN, .PLN_RANK, .PLN_BOOT, .PLN_SWAP_TIMEOUT, .PLN_COUNTS, .PLN_ENERGY_LAST, .PLN_MIN_SERIAL_LO, .PLN_MIN_SERIAL_HI, .PLN_ACTIVE_SERIAL_LO, .PLN_ACTIVE_SERIAL_HI, .PLN_STANDBY_SERIAL_LO, .PLN_STANDBY_SERIAL_HI, .PLN_SWAP_FLIGHT_LO, .PLN_SWAP_FLIGHT_HI, .PLN_ACTIVE_HASH, .PLN_STANDBY_HASH, .TSQ_RUN, .TSQ_FAULT_SUM, .TSQ_MAP, .TSQ_STATE, .TSQ_BUNDLE, .TSQ_SKIP_LEFT, .TSQ_FAULT, .TSQ_CNT_SUPPRESS, .TSQ_CNT_DMA_IDLE]
def Reg.list1 : List Reg := [.TSQ_CNT_ALLOC_FAIL, .TSQ_CNT_ORPHAN, .TSQ_CNT_LANEREC, .TSQ_CNT_FLOWDROP, .TSQ_CNT_EVT_PREEMPT, .TSQ_CNT_HAND_UNBOUND, .TSQ_CNT_ECC, .TSQ_PTR_LO, .TSQ_PTR_HI, .TSQ_PTRBUF, .GAL_STATUS, .GAL_CNT_FLITS_LO, .GAL_CNT_FLITS_HI, .GAL_CNT_OPEN_IDLE_LO, .GAL_CNT_OPEN_IDLE_HI, .GAL_CNT_FLIT_ERR, .GAL_HOSTQ_MAX, .GAL_REMAP_OK, .ATR_STATUS, .ATR_CNT_CE, .ATR_CNT_UE, .ATR_CNT_EMERG, .ATR_REFRESH_GAP, .RFX_STATUS, .RFX_CORE, .RFX_ABORT_INFO, .RFX_ABORT_TREAD, .RFX_LANDS, .RFX_CNT_DISPATCH, .RFX_CNT_ABORT, .RFX_MAX_CLOCKS, .RFX_CNT_DIVZ, .RFX_CNT_EVT_LATE, .RFX_CNT_EVT_REJECT, .RFX_CNT_COMMIT, .CYC_CFG, .CYC_STATUS, .CYC_DIR_VALID, .CYC_SLOTS_BOUND, .CYC_SRC_MAC_LO, .CYC_SRC_MAC_HI, .CYC_CNT_TX, .CYC_CNT_IDLE, .CYC_CNT_RX_ONTIME, .CYC_CNT_LATE, .CYC_CNT_DUP, .CYC_CNT_BAD_FRAME, .CYC_CNT_BAD_FLIGHT, .CYC_CNT_UNBOUND, .CYC_CNT_SID_CONFLICT, .CYC_CNT_DOMAIN, .CYC_CNT_AUTH_FAIL, .CYC_CNT_KEY, .CYC_CNT_HELLO, .CYC_CNT_LEARN, .CYC_CNT_NOTIFY_DROP, .CYC_CNT_MISS, .CYC_CNT_BYE, .LN_LANE_CFG, .LN_LANE_STATUS]
def Reg.list2 : List Reg := [.LN_LANE_DELAY, .LN_EYE, .LN_CNT_RXFRAMES, .LN_CNT_RXDROP, .LN_CNT_RXERR, .LN_CNT_FEC_CE, .LN_CNT_FEC_UE, .LN_CNT_TXFRAMES, .LN_CNT_TXDOWN, .LN_CNT_MACCTL, .LN_CNT_TXDROP, .LN_TXTS_NS, .LN_TXTS_SEC_LO, .LN_TXTS_SEC_HI, .LN_TXTS_INFO, .LN_TXTS_STATUS, .LN_DOMAIN_STATUS, .LN_PPS_OUT, .EVT_STATUS, .EVT_LAND_CFG, .EVT_CAP_INFO, .EVT_CAP_LO, .EVT_CAP_HI, .EVT_LEVEL, .EVT_HOST, .PRS_CFG, .PRS_TUN_PORTS, .PRS_STATUS, .PRS_CUSTOM, .PRS_UDF, .PRS_CNT_FRAMES, .PRS_CNT_ERR, .CLS_STATUS, .CLS_MIRROR, .CLS_MISS_W0, .CLS_MISS_W1, .CLS_MISS_W2, .CLS_MISS_W3, .CLS_CNT_LOOKUP, .CLS_CNT_MISS, .CLS_CNT_BAD_ACTION, .CLS_CNT_DECAP_FAIL, .FRG_CFG, .FRG_STATUS, .FRG_CNT_INSTALL, .FRG_CNT_HIT, .FRG_CNT_MISS, .FRG_CNT_FULL, .FRG_CNT_FREED, .FRG_CNT_AGED, .FWD_CFG, .FWD_STATUS, .FWD_ENTRIES, .FWD_UNSTABLE_INFO, .FWD_FLOOD_USED, .FWD_CNT_LOOKUP, .FWD_CNT_HIT, .FWD_CNT_UNKNOWN, .FWD_CNT_FLOODED, .FWD_CNT_FLOOD_CAP]
def Reg.list3 : List Reg := [.FWD_CNT_LEARN, .FWD_CNT_LEARN_FULL, .FWD_CNT_MOVES, .FWD_CNT_MOVE_FROZEN, .FWD_CNT_STATIC_MOVE, .FWD_CNT_AGED, .FWD_CNT_SPOOF, .FWD_CNT_HAIRPIN, .FWD_CNT_BD_INVALID, .FWD_CNT_VPORT_DROP, .FWD_CNT_STATION_MISS, .FWD_CNT_REPL_DROP, .FWD_CNT_EGRESS_DROP, .FWD_CNT_ECC, .FWD_AUDIT_CFG, .FWD_AUDIT_STATUS, .FWD_AUDIT_FAIL, .FWD_AUDIT_FAIL_DIGEST, .FWD_AUDIT_VALID, .FWD_AUDIT_SHADOW, .TUN_CFG, .TUN_STATUS, .TUN_CNT_ENCAP, .TUN_CNT_DECAP, .TUN_CNT_MTU, .TUN_CNT_TAG_DEPTH, .TUN_CNT_TEMPLATE_INVALID, .TUN_CNT_NO_VNI, .TUN_CNT_VNI_MISS, .TUN_CNT_CRIT, .TUN_CNT_NO_L2, .CPH_KS_STATUS, .CPH_KS_REVOKING, .CPH_KEK_VALID, .CPH_KS_CNT_LOAD, .CPH_KS_CNT_UNWRAP_FAIL, .CPH_KS_CNT_ERASE, .CPH_STATUS, .CPH_JOBQ_CFG, .CPH_LEVELS, .CPH_WIN_MAX, .CPH_SLOTS_USED_LO, .CPH_SLOTS_USED_HI, .CPH_SLOTS_IDLE_LO, .CPH_SLOTS_IDLE_HI, .CPH_CNT_OPS, .CPH_CNT_AUTH_FAIL, .CPH_CNT_REVOKED, .CPH_CNT_NONCE, .CPH_CNT_KEY, .CPH_CNT_KEY_MISMATCH, .CPH_CNT_INLINE_DROP, .CPH_CNT_REPLAY, .CPH_CNT_BAD_TAG, .CPH_CNT_LENGTH, .CPH_CNT_ENTROPY, .BPM_STATUS, .BPM_CFG, .BPM_CLASS_TOTAL, .BPM_CLASS_FREE]
def Reg.list4 : List Reg := [.BPM_REGIONS, .BPM_BYTES_LO, .BPM_BYTES_HI, .BPM_ALARM_NEXT, .BPM_CNT_ALLOC, .BPM_CNT_FREED, .BPM_CNT_QUOTA, .BPM_CNT_NO_BUFFER, .BPM_CNT_STOCK_EMPTY, .BPM_CNT_BAD_RELEASE, .BPM_CNT_NOT_OWNER, .BPM_CNT_HDR_BAD, .DMA_CFG, .DMA_STATUS, .DMA_ERR_INFO, .DMA_ERR_ADDR_LO, .DMA_ERR_ADDR_HI, .DMA_CNT_DESC, .DMA_CNT_DESC_ERR, .DMA_CNT_LATE, .DMA_CNT_CHAIN_LIMIT, .DMA_CNT_SG_STALL, .DMA_CNT_CRC_MISMATCH, .DMA_CNT_BYTES_LO, .DMA_CNT_BYTES_HI, .DMA_CNT_CARRIER_IDLE_LO, .DMA_CNT_CARRIER_IDLE_HI, .DMA_CH_CFG, .DMA_CH_QUEUE, .DMA_CH_CHAIN_LO, .DMA_CH_CHAIN_HI, .DMA_CH_CHAIN_FN, .DMA_CH_CTRL, .DMA_CH_STATUS, .DMA_CH_REMAIN, .WQ_CFG, .WQ_STATUS, .WQ_QUEUES, .WQ_CNT_OVERRUN, .WQ_CNT_CQ_FULL, .WQ_CNT_STALL, .WQ_CNT_REFETCH, .WQ_CNT_REARM_STALE, .WQ_CNT_DB_IGNORED, .WQ_CNT_RQ_DROP, .WQ_CNT_EVENT_DROP, .WQ_STAGE, .WQ_QSEL, .WQ_QINFO, .WQ_QPROD, .WQ_QCONS, .WQ_QWMARK, .WQ_FN_AQ_BASE_LO, .WQ_FN_AQ_BASE_HI, .WQ_FN_ACQ_BASE_LO, .WQ_FN_ACQ_BASE_HI, .WQ_FN_AQ_CFG, .WQ_FN_ACQ_CFG, .WQ_FN_ADMIN_STATE, .WQ_FN_EVQ]
def Reg.list5 : List Reg := [.EP_PORT_MAP, .EP_PORT_MAP_STATUS, .EP_PORT_CFG, .EP_PORT_STATUS, .EP_PORT_CPL, .EP_LATE_CPL, .EP_CNT_CTO, .EP_CNT_UR, .EP_CNT_UNEXP_CPL, .EP_CNT_BAD_VECTOR, .EP_CNT_PME, .EP_CNT_FLR, .EP_CNT_WIN_MISS, .EP_FSEL, .EP_WIN_SHADOW_W0, .EP_WIN_SHADOW_W1, .EP_WIN_SHADOW_W2, .EP_WIN_SHADOW_W3, .EP_WIN_LIVE_W0, .EP_WIN_LIVE_W1, .EP_WIN_LIVE_W2, .EP_WIN_LIVE_W3, .EP_WIN_CTRL, .EP_WIN_STATUS, .EP_FN_STATE, .VFN_STATUS, .VFN_PORT, .VFN_FSEL, .VFN_FINFO, .VFN_FUSE, .VFN_FINFLIGHT, .VFN_CNT_ADMIT_WAIT, .VFN_CNT_LOG_BITS, .VFN_CNT_LOG_LINES, .STO_CFG, .STO_STATUS, .STO_FLAGS, .STO_STAGE, .STO_CH, .STO_CNT_PDU_TX, .STO_CNT_PDU_RX, .STO_CNT_HDGST_ERR, .STO_CNT_DDGST_ERR, .STO_CNT_RETRANS, .STO_CNT_OOO_DROP, .STO_CNT_CLEAR_DROP, .STO_CNT_CONN_FAIL, .SIC_STATUS, .SIC_FLAGS, .SIC_SGI, .SIC_CNT_MERGED, .SIC_CORE_CFG, .SIC_CORE_VBASE_LO, .SIC_CORE_VBASE_HI, .SIC_CORE_STATE, .SIC_CORE_COMPLETE, .SIC_CORE_CTRL, .SIC_CNT_SPURIOUS, .SIC_CNT_DELIVERED, .SIC_GROUP_LULL]
def Reg.list6 : List Reg := [.SIC_CNT_LULL, .SIC_SRC_CFG, .SIC_SRC_PEND, .SIC_SRC_ACTIVE, .SIC_FN_VGAP, .OWN_STATE, .OWN_EPOCH, .OWN_RENEW, .OWN_LEASE, .OWN_FLAGS, .OWN_CFG, .OWN_NONCE_LO, .OWN_NONCE_HI, .OWN_HALF_EPOCH, .OWN_HALF_HASH, .OWN_HALF_STATE, .OWN_BOOT_STATUS, .OWN_FW_SVN, .OWN_PLANKEYS, .OWN_CNT_CHANGE, .OWN_CNT_RENEW_BAD, .OWN_CNT_REFUSED, .FLT_STATUS, .FLT_CFG, .FLT_WDOG, .FLT_LAST_INFO, .FLT_LAST_SEQ, .FLT_HALL, .FLT_HALF, .FLT_CNT_LANE_FAULT, .FLT_CNT_HALL_FAULT, .FLT_CNT_HALF_FAULT, .FLT_CNT_DEVICE_FAULT, .FLT_CNT_FN_FAULT, .FLT_CNT_POISON, .FLT_CNT_POISON_USE, .FLT_CNT_PAGE_FAIL, .FLT_FN_EPOCH, .FLT_FN_PAGE_LO, .FLT_FN_PAGE_HI, .ALM_HEAD, .ALM_STATUS, .ALM_CFG, .ALM_MARK, .ALM_CTRL, .ALM_FROZEN_SEQ, .ALM_CNT_LOST, .ALM_CNT_SUPPRESSED, .ALM_ENTRY, .BARO_STATUS, .BARO_CFG, .BARO_PASS_CNT, .BARO_PASS_SEC, .BARO_MT_W0, .BARO_MT_W1, .BARO_MT_W2, .BARO_MT_W3, .BARO_MT_W4, .BARO_MT_W5, .BARO_MT_W6]
def Reg.list7 : List Reg := [.BARO_MT_W7, .BARO_STACK, .BARO_RAIL, .BARO_NVS, .BARO_LANE_LOW, .EP_FN_ID]

/-- Every register, in the order of the chapters. -/
def Reg.all : List Reg := Reg.list0 ++ Reg.list1 ++ Reg.list2 ++ Reg.list3 ++ Reg.list4 ++ Reg.list5 ++ Reg.list6 ++ Reg.list7

namespace Fld
def CALM_STATE_WAKE_REASON : Fld := ⟨.CALM_STATE, 7, 4⟩
def CALM_STATE_STANDBY_PENDING : Fld := ⟨.CALM_STATE, 1, 1⟩
def CALM_STATE_STANDBY : Fld := ⟨.CALM_STATE, 0, 0⟩
def CALM_STANDBY_WAKE_LANE : Fld := ⟨.CALM_STANDBY, 4, 4⟩
def CALM_STANDBY_WAKE_EVT : Fld := ⟨.CALM_STANDBY, 3, 3⟩
def CALM_STANDBY_WAKE_PERST : Fld := ⟨.CALM_STANDBY, 2, 2⟩
def CALM_STANDBY_WAKE_D0 : Fld := ⟨.CALM_STANDBY, 1, 1⟩
def CALM_STANDBY_REQ : Fld := ⟨.CALM_STANDBY, 0, 0⟩
def CALM_EVT_WAKE_EN_EN : Fld := ⟨.CALM_EVT_WAKE_EN, 31, 0⟩
def CALM_THAW_CNT_COUNT : Fld := ⟨.CALM_THAW_CNT, 31, 0⟩
def CALM_LANE_ED_ED : Fld := ⟨.CALM_LANE_ED, 31, 0⟩
def CALM_PERST_LEVEL : Fld := ⟨.CALM_PERST, 15, 8⟩
def CALM_PERST_EDGE : Fld := ⟨.CALM_PERST, 7, 0⟩
def CALM_DBWAKE_PORT : Fld := ⟨.CALM_DBWAKE, 7, 0⟩
def CALM_EVT_IN_EDGE : Fld := ⟨.CALM_EVT_IN, 31, 0⟩
def CALM_THERM_INPUT_UV : Fld := ⟨.CALM_THERM, 3, 3⟩
def CALM_THERM_JUNCTION_HOT : Fld := ⟨.CALM_THERM, 2, 2⟩
def CALM_THERM_LID_LIMIT : Fld := ⟨.CALM_THERM, 1, 1⟩
def CALM_THERM_LID_WARN : Fld := ⟨.CALM_THERM, 0, 0⟩
def CALM_HALL_STATE_TRANSITIONS : Fld := ⟨.CALM_HALL_STATE, 31, 16⟩
def CALM_HALL_STATE_DRAIN_WAIT : Fld := ⟨.CALM_HALL_STATE, 12, 12⟩
def CALM_HALL_STATE_PENDING : Fld := ⟨.CALM_HALL_STATE, 11, 11⟩
def CALM_HALL_STATE_TARGET : Fld := ⟨.CALM_HALL_STATE, 10, 8⟩
def CALM_HALL_STATE_GRADE : Fld := ⟨.CALM_HALL_STATE, 6, 4⟩
def CALM_HALL_STATE_FROST : Fld := ⟨.CALM_HALL_STATE, 2, 0⟩
def CALM_DUTY_PORT_VALID : Fld := ⟨.CALM_DUTY_PORT, 31, 31⟩
def CALM_DUTY_PORT_HALL : Fld := ⟨.CALM_DUTY_PORT, 4, 0⟩
def TB_NOW_FRAC_FRAC : Fld := ⟨.TB_NOW_FRAC, 15, 0⟩
def TB_NOW_NS_NS : Fld := ⟨.TB_NOW_NS, 31, 0⟩
def TB_NOW_SEC_LO_SEC : Fld := ⟨.TB_NOW_SEC_LO, 31, 0⟩
def TB_NOW_SEC_HI_SEC : Fld := ⟨.TB_NOW_SEC_HI, 15, 0⟩
def TB_CTRL_PPS_DELAY : Fld := ⟨.TB_CTRL, 31, 16⟩
def TB_CTRL_SLEW : Fld := ⟨.TB_CTRL, 15, 8⟩
def TB_CTRL_PPS_EDGE : Fld := ⟨.TB_CTRL, 3, 3⟩
def TB_CTRL_SRC : Fld := ⟨.TB_CTRL, 2, 0⟩
def TB_STATUS_PPS_OFFSET : Fld := ⟨.TB_STATUS, 31, 16⟩
def TB_STATUS_SRC_WRITE_IGNORED : Fld := ⟨.TB_STATUS, 7, 7⟩
def TB_STATUS_SET_REFUSED : Fld := ⟨.TB_STATUS, 6, 6⟩
def TB_STATUS_RATE_CLAMP : Fld := ⟨.TB_STATUS, 5, 5⟩
def TB_STATUS_REF10_PRESENT : Fld := ⟨.TB_STATUS, 4, 4⟩
def TB_STATUS_PPS_PRESENT : Fld := ⟨.TB_STATUS, 3, 3⟩
def TB_STATUS_SLEWING : Fld := ⟨.TB_STATUS, 2, 2⟩
def TB_STATUS_HOLDOVER : Fld := ⟨.TB_STATUS, 1, 1⟩
def TB_STATUS_LOCKED : Fld := ⟨.TB_STATUS, 0, 0⟩
def TB_RATE_RATE : Fld := ⟨.TB_RATE, 31, 0⟩
def TB_STEP_STEP : Fld := ⟨.TB_STEP, 31, 0⟩
def TB_SET_NS_NS : Fld := ⟨.TB_SET_NS, 31, 0⟩
def TB_SET_SEC_LO_SEC : Fld := ⟨.TB_SET_SEC_LO, 31, 0⟩
def TB_SET_SEC_HI_SEC : Fld := ⟨.TB_SET_SEC_HI, 15, 0⟩
def TB_ORIGIN_NS_NS : Fld := ⟨.TB_ORIGIN_NS, 31, 0⟩
def TB_ORIGIN_SEC_LO_SEC : Fld := ⟨.TB_ORIGIN_SEC_LO, 31, 0⟩
def TB_ORIGIN_SEC_HI_SEC : Fld := ⟨.TB_ORIGIN_SEC_HI, 15, 0⟩
def TB_FLIGHT_LEN_L : Fld := ⟨.TB_FLIGHT_LEN, 20, 0⟩
def TB_TREAD_TREAD : Fld := ⟨.TB_TREAD, 19, 0⟩
def TB_FLIGHT_LO_FLIGHT : Fld := ⟨.TB_FLIGHT_LO, 31, 0⟩
def TB_FLIGHT_HI_FLIGHT : Fld := ⟨.TB_FLIGHT_HI, 31, 0⟩
def PLN_ACTIVE_STATUS_STANDALONE : Fld := ⟨.PLN_ACTIVE_STATUS, 19, 19⟩
def PLN_ACTIVE_STATUS_ENERGY_OVER : Fld := ⟨.PLN_ACTIVE_STATUS, 18, 18⟩
def PLN_ACTIVE_STATUS_RELOAD_FAIL : Fld := ⟨.PLN_ACTIVE_STATUS, 17, 17⟩
def PLN_ACTIVE_STATUS_REMAPPED : Fld := ⟨.PLN_ACTIVE_STATUS, 16, 16⟩
def PLN_ACTIVE_STATUS_STATE : Fld := ⟨.PLN_ACTIVE_STATUS, 1, 0⟩
def PLN_STANDBY_STATUS_REASON : Fld := ⟨.PLN_STANDBY_STATUS, 31, 24⟩
def PLN_STANDBY_STATUS_SOURCE : Fld := ⟨.PLN_STANDBY_STATUS, 7, 7⟩
def PLN_STANDBY_STATUS_STATE : Fld := ⟨.PLN_STANDBY_STATUS, 2, 0⟩
def PLN_VERIFY_WHERE_VALID : Fld := ⟨.PLN_VERIFY_WHERE, 31, 31⟩
def PLN_VERIFY_WHERE_HALL : Fld := ⟨.PLN_VERIFY_WHERE, 28, 24⟩
def PLN_VERIFY_WHERE_TREAD : Fld := ⟨.PLN_VERIFY_WHERE, 19, 0⟩
def PLN_VERIFY_ITEM_RECORD : Fld := ⟨.PLN_VERIFY_ITEM, 31, 16⟩
def PLN_VERIFY_ITEM_SLOT : Fld := ⟨.PLN_VERIFY_ITEM, 10, 9⟩
def PLN_VERIFY_ITEM_CLOCK : Fld := ⟨.PLN_VERIFY_ITEM, 7, 0⟩
def PLN_HALL_READY_READY : Fld := ⟨.PLN_HALL_READY, 17, 0⟩
def PLN_POWER_BUDGET_WATTS : Fld := ⟨.PLN_POWER_BUDGET, 8, 0⟩
def PLN_DOMAIN_DOMAIN_ID : Fld := ⟨.PLN_DOMAIN, 31, 0⟩
def PLN_RANK_RANK : Fld := ⟨.PLN_RANK, 9, 0⟩
def PLN_BOOT_AUTO : Fld := ⟨.PLN_BOOT, 31, 31⟩
def PLN_BOOT_INDEX : Fld := ⟨.PLN_BOOT, 3, 0⟩
def PLN_SWAP_TIMEOUT_MS : Fld := ⟨.PLN_SWAP_TIMEOUT, 15, 0⟩
def PLN_COUNTS_REJECTS : Fld := ⟨.PLN_COUNTS, 31, 16⟩
def PLN_COUNTS_SWAPS : Fld := ⟨.PLN_COUNTS, 15, 0⟩
def PLN_ENERGY_LAST_UJ : Fld := ⟨.PLN_ENERGY_LAST, 31, 0⟩
def PLN_MIN_SERIAL_LO_SERIAL : Fld := ⟨.PLN_MIN_SERIAL_LO, 31, 0⟩
def PLN_MIN_SERIAL_HI_SERIAL : Fld := ⟨.PLN_MIN_SERIAL_HI, 31, 0⟩
def PLN_ACTIVE_SERIAL_LO_SERIAL : Fld := ⟨.PLN_ACTIVE_SERIAL_LO, 31, 0⟩
def PLN_ACTIVE_SERIAL_HI_SERIAL : Fld := ⟨.PLN_ACTIVE_SERIAL_HI, 31, 0⟩
def PLN_STANDBY_SERIAL_LO_SERIAL : Fld := ⟨.PLN_STANDBY_SERIAL_LO, 31, 0⟩
def PLN_STANDBY_SERIAL_HI_SERIAL : Fld := ⟨.PLN_STANDBY_SERIAL_HI, 31, 0⟩
def PLN_SWAP_FLIGHT_LO_FLIGHT : Fld := ⟨.PLN_SWAP_FLIGHT_LO, 31, 0⟩
def PLN_SWAP_FLIGHT_HI_FLIGHT : Fld := ⟨.PLN_SWAP_FLIGHT_HI, 31, 0⟩
def PLN_ACTIVE_HASH_HASH : Fld := ⟨.PLN_ACTIVE_HASH, 31, 0⟩
def PLN_STANDBY_HASH_HASH : Fld := ⟨.PLN_STANDBY_HASH, 31, 0⟩
def TSQ_RUN_RUN : Fld := ⟨.TSQ_RUN, 17, 0⟩
def TSQ_FAULT_SUM_HALL : Fld := ⟨.TSQ_FAULT_SUM, 17, 0⟩
def TSQ_MAP_VALID : Fld := ⟨.TSQ_MAP, 31, 31⟩
def TSQ_MAP_PHYS : Fld := ⟨.TSQ_MAP, 4, 0⟩
def TSQ_STATE_LOGICAL : Fld := ⟨.TSQ_STATE, 27, 24⟩
def TSQ_STATE_ROLE : Fld := ⟨.TSQ_STATE, 23, 22⟩
def TSQ_STATE_BANK : Fld := ⟨.TSQ_STATE, 21, 21⟩
def TSQ_STATE_PRE_DONE : Fld := ⟨.TSQ_STATE, 20, 20⟩
def TSQ_STATE_STATE : Fld := ⟨.TSQ_STATE, 2, 0⟩
def TSQ_BUNDLE_SKIPPING : Fld := ⟨.TSQ_BUNDLE, 16, 16⟩
def TSQ_BUNDLE_INDEX : Fld := ⟨.TSQ_BUNDLE, 15, 0⟩
def TSQ_SKIP_LEFT_LEFT : Fld := ⟨.TSQ_SKIP_LEFT, 19, 0⟩
def TSQ_FAULT_NOT_RUNNING : Fld := ⟨.TSQ_FAULT, 2, 2⟩
def TSQ_FAULT_BAD_OPCODE : Fld := ⟨.TSQ_FAULT, 1, 1⟩
def TSQ_FAULT_STORE_ECC : Fld := ⟨.TSQ_FAULT, 0, 0⟩
def TSQ_CNT_SUPPRESS_COUNT : Fld := ⟨.TSQ_CNT_SUPPRESS, 31, 0⟩
def TSQ_CNT_DMA_IDLE_COUNT : Fld := ⟨.TSQ_CNT_DMA_IDLE, 31, 0⟩
def TSQ_CNT_ALLOC_FAIL_COUNT : Fld := ⟨.TSQ_CNT_ALLOC_FAIL, 31, 0⟩
def TSQ_CNT_ORPHAN_COUNT : Fld := ⟨.TSQ_CNT_ORPHAN, 31, 0⟩
def TSQ_CNT_LANEREC_COUNT : Fld := ⟨.TSQ_CNT_LANEREC, 31, 0⟩
def TSQ_CNT_FLOWDROP_COUNT : Fld := ⟨.TSQ_CNT_FLOWDROP, 31, 0⟩
def TSQ_CNT_EVT_PREEMPT_COUNT : Fld := ⟨.TSQ_CNT_EVT_PREEMPT, 31, 0⟩
def TSQ_CNT_HAND_UNBOUND_COUNT : Fld := ⟨.TSQ_CNT_HAND_UNBOUND, 31, 0⟩
def TSQ_CNT_ECC_COUNT : Fld := ⟨.TSQ_CNT_ECC, 31, 0⟩
def TSQ_PTR_LO_ADDRESS : Fld := ⟨.TSQ_PTR_LO, 31, 0⟩
def TSQ_PTR_HI_VALID : Fld := ⟨.TSQ_PTR_HI, 31, 31⟩
def TSQ_PTR_HI_BUFFER : Fld := ⟨.TSQ_PTR_HI, 30, 30⟩
def TSQ_PTR_HI_ENDPOINT : Fld := ⟨.TSQ_PTR_HI, 21, 16⟩
def TSQ_PTR_HI_ADDRESS : Fld := ⟨.TSQ_PTR_HI, 6, 0⟩
def TSQ_PTRBUF_BUFFER_ID : Fld := ⟨.TSQ_PTRBUF, 31, 0⟩
def GAL_STATUS_HOST_SLOW : Fld := ⟨.GAL_STATUS, 2, 2⟩
def GAL_STATUS_HOSTQ_OVF : Fld := ⟨.GAL_STATUS, 1, 1⟩
def GAL_STATUS_FLIT_ERR : Fld := ⟨.GAL_STATUS, 0, 0⟩
def GAL_CNT_FLITS_LO_COUNT : Fld := ⟨.GAL_CNT_FLITS_LO, 31, 0⟩
def GAL_CNT_FLITS_HI_COUNT : Fld := ⟨.GAL_CNT_FLITS_HI, 31, 0⟩
def GAL_CNT_OPEN_IDLE_LO_COUNT : Fld := ⟨.GAL_CNT_OPEN_IDLE_LO, 31, 0⟩
def GAL_CNT_OPEN_IDLE_HI_COUNT : Fld := ⟨.GAL_CNT_OPEN_IDLE_HI, 31, 0⟩
def GAL_CNT_FLIT_ERR_COUNT : Fld := ⟨.GAL_CNT_FLIT_ERR, 31, 0⟩
def GAL_HOSTQ_MAX_MAX_IN : Fld := ⟨.GAL_HOSTQ_MAX, 25, 16⟩
def GAL_HOSTQ_MAX_MAX_OUT : Fld := ⟨.GAL_HOSTQ_MAX, 9, 0⟩
def GAL_REMAP_OK_PHYS : Fld := ⟨.GAL_REMAP_OK, 17, 0⟩
def ATR_STATUS_EMERG : Fld := ⟨.ATR_STATUS, 19, 16⟩
def ATR_STATUS_POWERED : Fld := ⟨.ATR_STATUS, 3, 0⟩
def ATR_CNT_CE_COUNT : Fld := ⟨.ATR_CNT_CE, 31, 0⟩
def ATR_CNT_UE_COUNT : Fld := ⟨.ATR_CNT_UE, 31, 0⟩
def ATR_CNT_EMERG_COUNT : Fld := ⟨.ATR_CNT_EMERG, 31, 0⟩
def ATR_REFRESH_GAP_CLOCKS : Fld := ⟨.ATR_REFRESH_GAP, 15, 0⟩
def RFX_STATUS_ABORTED : Fld := ⟨.RFX_STATUS, 11, 8⟩
def RFX_STATUS_BUSY : Fld := ⟨.RFX_STATUS, 3, 0⟩
def RFX_CORE_OUTCOME : Fld := ⟨.RFX_CORE, 31, 30⟩
def RFX_CORE_REASON : Fld := ⟨.RFX_CORE, 27, 24⟩
def RFX_CORE_KERNEL : Fld := ⟨.RFX_CORE, 23, 16⟩
def RFX_CORE_RUNNING : Fld := ⟨.RFX_CORE, 15, 15⟩
def RFX_CORE_INDEX : Fld := ⟨.RFX_CORE, 13, 0⟩
def RFX_ABORT_INFO_REASON : Fld := ⟨.RFX_ABORT_INFO, 31, 28⟩
def RFX_ABORT_INFO_CORE : Fld := ⟨.RFX_ABORT_INFO, 27, 26⟩
def RFX_ABORT_INFO_KERNEL : Fld := ⟨.RFX_ABORT_INFO, 23, 16⟩
def RFX_ABORT_INFO_INDEX : Fld := ⟨.RFX_ABORT_INFO, 13, 0⟩
def RFX_ABORT_TREAD_TREAD : Fld := ⟨.RFX_ABORT_TREAD, 19, 0⟩
def RFX_LANDS_LANDS : Fld := ⟨.RFX_LANDS, 31, 0⟩
def RFX_CNT_DISPATCH_COUNT : Fld := ⟨.RFX_CNT_DISPATCH, 31, 0⟩
def RFX_CNT_ABORT_COUNT : Fld := ⟨.RFX_CNT_ABORT, 31, 0⟩
def RFX_MAX_CLOCKS_KERNEL : Fld := ⟨.RFX_MAX_CLOCKS, 31, 24⟩
def RFX_MAX_CLOCKS_CLOCKS : Fld := ⟨.RFX_MAX_CLOCKS, 23, 0⟩
def RFX_CNT_DIVZ_COUNT : Fld := ⟨.RFX_CNT_DIVZ, 31, 0⟩
def RFX_CNT_EVT_LATE_COUNT : Fld := ⟨.RFX_CNT_EVT_LATE, 31, 0⟩
def RFX_CNT_EVT_REJECT_COUNT : Fld := ⟨.RFX_CNT_EVT_REJECT, 31, 0⟩
def RFX_CNT_COMMIT_COUNT : Fld := ⟨.RFX_CNT_COMMIT, 31, 0⟩
def CYC_CFG_NOTIFY_LIMIT : Fld := ⟨.CYC_CFG, 23, 16⟩
def CYC_CFG_LEARN_DATA : Fld := ⟨.CYC_CFG, 1, 1⟩
def CYC_CFG_LEARN : Fld := ⟨.CYC_CFG, 0, 0⟩
def CYC_STATUS_LOST : Fld := ⟨.CYC_STATUS, 5, 5⟩
def CYC_STATUS_LATE : Fld := ⟨.CYC_STATUS, 4, 4⟩
def CYC_STATUS_KEY_HARD : Fld := ⟨.CYC_STATUS, 3, 3⟩
def CYC_STATUS_KEY_SOFT : Fld := ⟨.CYC_STATUS, 2, 2⟩
def CYC_STATUS_SID_CONFLICT : Fld := ⟨.CYC_STATUS, 1, 1⟩
def CYC_STATUS_NOTIFY_LOST : Fld := ⟨.CYC_STATUS, 0, 0⟩
def CYC_DIR_VALID_COUNT : Fld := ⟨.CYC_DIR_VALID, 16, 0⟩
def CYC_SLOTS_BOUND_COUNT : Fld := ⟨.CYC_SLOTS_BOUND, 16, 0⟩
def CYC_SRC_MAC_LO_MAC : Fld := ⟨.CYC_SRC_MAC_LO, 31, 0⟩
def CYC_SRC_MAC_HI_MAC : Fld := ⟨.CYC_SRC_MAC_HI, 15, 0⟩
def CYC_CNT_TX_COUNT : Fld := ⟨.CYC_CNT_TX, 31, 0⟩
def CYC_CNT_IDLE_COUNT : Fld := ⟨.CYC_CNT_IDLE, 31, 0⟩
def CYC_CNT_RX_ONTIME_COUNT : Fld := ⟨.CYC_CNT_RX_ONTIME, 31, 0⟩
def CYC_CNT_LATE_COUNT : Fld := ⟨.CYC_CNT_LATE, 31, 0⟩
def CYC_CNT_DUP_COUNT : Fld := ⟨.CYC_CNT_DUP, 31, 0⟩
def CYC_CNT_BAD_FRAME_COUNT : Fld := ⟨.CYC_CNT_BAD_FRAME, 31, 0⟩
def CYC_CNT_BAD_FLIGHT_COUNT : Fld := ⟨.CYC_CNT_BAD_FLIGHT, 31, 0⟩
def CYC_CNT_UNBOUND_COUNT : Fld := ⟨.CYC_CNT_UNBOUND, 31, 0⟩
def CYC_CNT_SID_CONFLICT_COUNT : Fld := ⟨.CYC_CNT_SID_CONFLICT, 31, 0⟩
def CYC_CNT_DOMAIN_COUNT : Fld := ⟨.CYC_CNT_DOMAIN, 31, 0⟩
def CYC_CNT_AUTH_FAIL_COUNT : Fld := ⟨.CYC_CNT_AUTH_FAIL, 31, 0⟩
def CYC_CNT_KEY_COUNT : Fld := ⟨.CYC_CNT_KEY, 31, 0⟩
def CYC_CNT_HELLO_COUNT : Fld := ⟨.CYC_CNT_HELLO, 31, 0⟩
def CYC_CNT_LEARN_COUNT : Fld := ⟨.CYC_CNT_LEARN, 31, 0⟩
def CYC_CNT_NOTIFY_DROP_COUNT : Fld := ⟨.CYC_CNT_NOTIFY_DROP, 31, 0⟩
def CYC_CNT_MISS_COUNT : Fld := ⟨.CYC_CNT_MISS, 31, 0⟩
def CYC_CNT_BYE_COUNT : Fld := ⟨.CYC_CNT_BYE, 31, 0⟩
def LN_LANE_CFG_EYE_NOW : Fld := ⟨.LN_LANE_CFG, 7, 7⟩
def LN_LANE_CFG_TRAIN : Fld := ⟨.LN_LANE_CFG, 6, 6⟩
def LN_LANE_CFG_POL_TX : Fld := ⟨.LN_LANE_CFG, 5, 5⟩
def LN_LANE_CFG_POL_RX : Fld := ⟨.LN_LANE_CFG, 4, 4⟩
def LN_LANE_CFG_FEC : Fld := ⟨.LN_LANE_CFG, 1, 0⟩
def LN_LANE_STATUS_MODE : Fld := ⟨.LN_LANE_STATUS, 11, 8⟩
def LN_LANE_STATUS_LINK_CHANGE : Fld := ⟨.LN_LANE_STATUS, 7, 7⟩
def LN_LANE_STATUS_FEC_DEFAULT : Fld := ⟨.LN_LANE_STATUS, 6, 6⟩
def LN_LANE_STATUS_TRAINING : Fld := ⟨.LN_LANE_STATUS, 5, 5⟩
def LN_LANE_STATUS_ALIGNED : Fld := ⟨.LN_LANE_STATUS, 4, 4⟩
def LN_LANE_STATUS_FEC_LOCK : Fld := ⟨.LN_LANE_STATUS, 3, 3⟩
def LN_LANE_STATUS_BLOCK_LOCK : Fld := ⟨.LN_LANE_STATUS, 2, 2⟩
def LN_LANE_STATUS_SIGNAL : Fld := ⟨.LN_LANE_STATUS, 1, 1⟩
def LN_LANE_STATUS_LINK_UP : Fld := ⟨.LN_LANE_STATUS, 0, 0⟩
def LN_LANE_DELAY_TX_PS : Fld := ⟨.LN_LANE_DELAY, 31, 16⟩
def LN_LANE_DELAY_RX_PS : Fld := ⟨.LN_LANE_DELAY, 15, 0⟩
def LN_EYE_VALID : Fld := ⟨.LN_EYE, 31, 31⟩
def LN_EYE_HEIGHT : Fld := ⟨.LN_EYE, 23, 16⟩
def LN_EYE_WIDTH : Fld := ⟨.LN_EYE, 15, 8⟩
def LN_EYE_AGE : Fld := ⟨.LN_EYE, 7, 0⟩
def LN_CNT_RXFRAMES_COUNT : Fld := ⟨.LN_CNT_RXFRAMES, 31, 0⟩
def LN_CNT_RXDROP_COUNT : Fld := ⟨.LN_CNT_RXDROP, 31, 0⟩
def LN_CNT_RXERR_COUNT : Fld := ⟨.LN_CNT_RXERR, 31, 0⟩
def LN_CNT_FEC_CE_COUNT : Fld := ⟨.LN_CNT_FEC_CE, 31, 0⟩
def LN_CNT_FEC_UE_COUNT : Fld := ⟨.LN_CNT_FEC_UE, 31, 0⟩
def LN_CNT_TXFRAMES_COUNT : Fld := ⟨.LN_CNT_TXFRAMES, 31, 0⟩
def LN_CNT_TXDOWN_COUNT : Fld := ⟨.LN_CNT_TXDOWN, 31, 0⟩
def LN_CNT_MACCTL_COUNT : Fld := ⟨.LN_CNT_MACCTL, 31, 0⟩
def LN_CNT_TXDROP_COUNT : Fld := ⟨.LN_CNT_TXDROP, 31, 0⟩
def LN_TXTS_NS_NS : Fld := ⟨.LN_TXTS_NS, 31, 0⟩
def LN_TXTS_SEC_LO_SEC : Fld := ⟨.LN_TXTS_SEC_LO, 31, 0⟩
def LN_TXTS_SEC_HI_FRAC : Fld := ⟨.LN_TXTS_SEC_HI, 31, 16⟩
def LN_TXTS_SEC_HI_SEC : Fld := ⟨.LN_TXTS_SEC_HI, 15, 0⟩
def LN_TXTS_INFO_VALID : Fld := ⟨.LN_TXTS_INFO, 31, 31⟩
def LN_TXTS_INFO_LANE : Fld := ⟨.LN_TXTS_INFO, 23, 16⟩
def LN_TXTS_INFO_SEQ : Fld := ⟨.LN_TXTS_INFO, 15, 0⟩
def LN_TXTS_STATUS_OVERFLOW : Fld := ⟨.LN_TXTS_STATUS, 31, 31⟩
def LN_TXTS_STATUS_LEVEL : Fld := ⟨.LN_TXTS_STATUS, 26, 16⟩
def LN_TXTS_STATUS_LOST : Fld := ⟨.LN_TXTS_STATUS, 15, 0⟩
def LN_DOMAIN_STATUS_ALIGNED : Fld := ⟨.LN_DOMAIN_STATUS, 31, 31⟩
def LN_DOMAIN_STATUS_OFFSET_NS : Fld := ⟨.LN_DOMAIN_STATUS, 15, 0⟩
def LN_PPS_OUT_EN : Fld := ⟨.LN_PPS_OUT, 31, 31⟩
def LN_PPS_OUT_WIDTH_US : Fld := ⟨.LN_PPS_OUT, 18, 0⟩
def EVT_STATUS_HOST_REFUSED : Fld := ⟨.EVT_STATUS, 1, 1⟩
def EVT_STATUS_POWERED : Fld := ⟨.EVT_STATUS, 0, 0⟩
def EVT_LAND_CFG_FILTER : Fld := ⟨.EVT_LAND_CFG, 7, 0⟩
def EVT_CAP_INFO_VALID : Fld := ⟨.EVT_CAP_INFO, 31, 31⟩
def EVT_CAP_INFO_RISING : Fld := ⟨.EVT_CAP_INFO, 30, 30⟩
def EVT_CAP_INFO_OVF : Fld := ⟨.EVT_CAP_INFO, 29, 29⟩
def EVT_CAP_INFO_LEVEL : Fld := ⟨.EVT_CAP_INFO, 28, 24⟩
def EVT_CAP_INFO_GLITCH : Fld := ⟨.EVT_CAP_INFO, 23, 16⟩
def EVT_CAP_INFO_COUNT : Fld := ⟨.EVT_CAP_INFO, 15, 0⟩
def EVT_CAP_LO_NS : Fld := ⟨.EVT_CAP_LO, 31, 0⟩
def EVT_CAP_HI_NS : Fld := ⟨.EVT_CAP_HI, 31, 0⟩
def EVT_LEVEL_ARMED : Fld := ⟨.EVT_LEVEL, 2, 2⟩
def EVT_LEVEL_DRIVEN : Fld := ⟨.EVT_LEVEL, 1, 1⟩
def EVT_LEVEL_PIN : Fld := ⟨.EVT_LEVEL, 0, 0⟩
def EVT_HOST_PULSE : Fld := ⟨.EVT_HOST, 18, 3⟩
def EVT_HOST_ACT : Fld := ⟨.EVT_HOST, 2, 0⟩
def PRS_CFG_ALT_STPID : Fld := ⟨.PRS_CFG, 31, 16⟩
def PRS_CFG_ALT_EN : Fld := ⟨.PRS_CFG, 4, 4⟩
def PRS_CFG_ERR_ACT : Fld := ⟨.PRS_CFG, 1, 0⟩
def PRS_TUN_PORTS_VXLAN : Fld := ⟨.PRS_TUN_PORTS, 31, 16⟩
def PRS_TUN_PORTS_GENEVE : Fld := ⟨.PRS_TUN_PORTS, 15, 0⟩
def PRS_STATUS_PENDING : Fld := ⟨.PRS_STATUS, 0, 0⟩
def PRS_CUSTOM_EN : Fld := ⟨.PRS_CUSTOM, 31, 31⟩
def PRS_CUSTOM_KIND : Fld := ⟨.PRS_CUSTOM, 30, 29⟩
def PRS_CUSTOM_NEXT : Fld := ⟨.PRS_CUSTOM, 28, 27⟩
def PRS_CUSTOM_LEN : Fld := ⟨.PRS_CUSTOM, 20, 16⟩
def PRS_CUSTOM_VALUE : Fld := ⟨.PRS_CUSTOM, 15, 0⟩
def PRS_UDF_EN : Fld := ⟨.PRS_UDF, 31, 31⟩
def PRS_UDF_ANCHOR : Fld := ⟨.PRS_UDF, 26, 24⟩
def PRS_UDF_OFFSET : Fld := ⟨.PRS_UDF, 7, 0⟩
def PRS_CNT_FRAMES_COUNT : Fld := ⟨.PRS_CNT_FRAMES, 31, 0⟩
def PRS_CNT_ERR_COUNT : Fld := ⟨.PRS_CNT_ERR, 31, 0⟩
def CLS_STATUS_VALID : Fld := ⟨.CLS_STATUS, 30, 16⟩
def CLS_STATUS_DECAP_FAIL : Fld := ⟨.CLS_STATUS, 1, 1⟩
def CLS_STATUS_BAD_ACTION : Fld := ⟨.CLS_STATUS, 0, 0⟩
def CLS_MIRROR_EN : Fld := ⟨.CLS_MIRROR, 31, 31⟩
def CLS_MIRROR_TARGET : Fld := ⟨.CLS_MIRROR, 15, 0⟩
def CLS_MISS_W0_ACTION : Fld := ⟨.CLS_MISS_W0, 31, 0⟩
def CLS_MISS_W1_ACTION : Fld := ⟨.CLS_MISS_W1, 31, 0⟩
def CLS_MISS_W2_ACTION : Fld := ⟨.CLS_MISS_W2, 31, 0⟩
def CLS_MISS_W3_ACTION : Fld := ⟨.CLS_MISS_W3, 31, 0⟩
def CLS_CNT_LOOKUP_COUNT : Fld := ⟨.CLS_CNT_LOOKUP, 31, 0⟩
def CLS_CNT_MISS_COUNT : Fld := ⟨.CLS_CNT_MISS, 31, 0⟩
def CLS_CNT_BAD_ACTION_COUNT : Fld := ⟨.CLS_CNT_BAD_ACTION, 31, 0⟩
def CLS_CNT_DECAP_FAIL_COUNT : Fld := ⟨.CLS_CNT_DECAP_FAIL, 31, 0⟩
def FRG_CFG_AGE_US : Fld := ⟨.FRG_CFG, 31, 12⟩
def FRG_CFG_EN : Fld := ⟨.FRG_CFG, 2, 2⟩
def FRG_CFG_MISS : Fld := ⟨.FRG_CFG, 1, 0⟩
def FRG_STATUS_IN_USE : Fld := ⟨.FRG_STATUS, 28, 16⟩
def FRG_STATUS_FULL : Fld := ⟨.FRG_STATUS, 0, 0⟩
def FRG_CNT_INSTALL_COUNT : Fld := ⟨.FRG_CNT_INSTALL, 31, 0⟩
def FRG_CNT_HIT_COUNT : Fld := ⟨.FRG_CNT_HIT, 31, 0⟩
def FRG_CNT_MISS_COUNT : Fld := ⟨.FRG_CNT_MISS, 31, 0⟩
def FRG_CNT_FULL_COUNT : Fld := ⟨.FRG_CNT_FULL, 31, 0⟩
def FRG_CNT_FREED_COUNT : Fld := ⟨.FRG_CNT_FREED, 31, 0⟩
def FRG_CNT_AGED_COUNT : Fld := ⟨.FRG_CNT_AGED, 31, 0⟩
def FWD_CFG_AGE_S : Fld := ⟨.FWD_CFG, 31, 20⟩
def FWD_CFG_LEARN : Fld := ⟨.FWD_CFG, 0, 0⟩
def FWD_STATUS_EGRESS_DROP : Fld := ⟨.FWD_STATUS, 4, 4⟩
def FWD_STATUS_SPOOF : Fld := ⟨.FWD_STATUS, 3, 3⟩
def FWD_STATUS_FLOOD_CAP : Fld := ⟨.FWD_STATUS, 2, 2⟩
def FWD_STATUS_LEARN_FULL : Fld := ⟨.FWD_STATUS, 1, 1⟩
def FWD_STATUS_UNSTABLE : Fld := ⟨.FWD_STATUS, 0, 0⟩
def FWD_ENTRIES_COUNT : Fld := ⟨.FWD_ENTRIES, 18, 0⟩
def FWD_UNSTABLE_INFO_VALID : Fld := ⟨.FWD_UNSTABLE_INFO, 31, 31⟩
def FWD_UNSTABLE_INFO_INDEX : Fld := ⟨.FWD_UNSTABLE_INFO, 17, 0⟩
def FWD_FLOOD_USED_COUNT : Fld := ⟨.FWD_FLOOD_USED, 31, 0⟩
def FWD_CNT_LOOKUP_COUNT : Fld := ⟨.FWD_CNT_LOOKUP, 31, 0⟩
def FWD_CNT_HIT_COUNT : Fld := ⟨.FWD_CNT_HIT, 31, 0⟩
def FWD_CNT_UNKNOWN_COUNT : Fld := ⟨.FWD_CNT_UNKNOWN, 31, 0⟩
def FWD_CNT_FLOODED_COUNT : Fld := ⟨.FWD_CNT_FLOODED, 31, 0⟩
def FWD_CNT_FLOOD_CAP_COUNT : Fld := ⟨.FWD_CNT_FLOOD_CAP, 31, 0⟩
def FWD_CNT_LEARN_COUNT : Fld := ⟨.FWD_CNT_LEARN, 31, 0⟩
def FWD_CNT_LEARN_FULL_COUNT : Fld := ⟨.FWD_CNT_LEARN_FULL, 31, 0⟩
def FWD_CNT_MOVES_COUNT : Fld := ⟨.FWD_CNT_MOVES, 31, 0⟩
def FWD_CNT_MOVE_FROZEN_COUNT : Fld := ⟨.FWD_CNT_MOVE_FROZEN, 31, 0⟩
def FWD_CNT_STATIC_MOVE_COUNT : Fld := ⟨.FWD_CNT_STATIC_MOVE, 31, 0⟩
def FWD_CNT_AGED_COUNT : Fld := ⟨.FWD_CNT_AGED, 31, 0⟩
def FWD_CNT_SPOOF_COUNT : Fld := ⟨.FWD_CNT_SPOOF, 31, 0⟩
def FWD_CNT_HAIRPIN_COUNT : Fld := ⟨.FWD_CNT_HAIRPIN, 31, 0⟩
def FWD_CNT_BD_INVALID_COUNT : Fld := ⟨.FWD_CNT_BD_INVALID, 31, 0⟩
def FWD_CNT_VPORT_DROP_COUNT : Fld := ⟨.FWD_CNT_VPORT_DROP, 31, 0⟩
def FWD_CNT_STATION_MISS_COUNT : Fld := ⟨.FWD_CNT_STATION_MISS, 31, 0⟩
def FWD_CNT_REPL_DROP_COUNT : Fld := ⟨.FWD_CNT_REPL_DROP, 31, 0⟩
def FWD_CNT_EGRESS_DROP_COUNT : Fld := ⟨.FWD_CNT_EGRESS_DROP, 31, 0⟩
def FWD_CNT_ECC_COUNT : Fld := ⟨.FWD_CNT_ECC, 31, 0⟩
def FWD_AUDIT_CFG_EN : Fld := ⟨.FWD_AUDIT_CFG, 0, 0⟩
def FWD_AUDIT_STATUS_PASSES : Fld := ⟨.FWD_AUDIT_STATUS, 31, 16⟩
def FWD_AUDIT_STATUS_FAIL_OVF : Fld := ⟨.FWD_AUDIT_STATUS, 2, 2⟩
def FWD_AUDIT_STATUS_MISMATCH : Fld := ⟨.FWD_AUDIT_STATUS, 1, 1⟩
def FWD_AUDIT_STATUS_ACTIVE : Fld := ⟨.FWD_AUDIT_STATUS, 0, 0⟩
def FWD_AUDIT_FAIL_VALID : Fld := ⟨.FWD_AUDIT_FAIL, 31, 31⟩
def FWD_AUDIT_FAIL_LEVEL : Fld := ⟨.FWD_AUDIT_FAIL, 20, 16⟩
def FWD_AUDIT_FAIL_BLOCK : Fld := ⟨.FWD_AUDIT_FAIL, 8, 0⟩
def FWD_AUDIT_FAIL_DIGEST_DIGEST : Fld := ⟨.FWD_AUDIT_FAIL_DIGEST, 31, 0⟩
def FWD_AUDIT_VALID_VALID : Fld := ⟨.FWD_AUDIT_VALID, 31, 0⟩
def FWD_AUDIT_SHADOW_DIGEST : Fld := ⟨.FWD_AUDIT_SHADOW, 31, 0⟩
def TUN_CFG_CRIT_PASS : Fld := ⟨.TUN_CFG, 0, 0⟩
def TUN_STATUS_MTU : Fld := ⟨.TUN_STATUS, 3, 3⟩
def TUN_STATUS_VNI_MISS : Fld := ⟨.TUN_STATUS, 2, 2⟩
def TUN_STATUS_CRIT : Fld := ⟨.TUN_STATUS, 1, 1⟩
def TUN_STATUS_TEMPLATE_INVALID : Fld := ⟨.TUN_STATUS, 0, 0⟩
def TUN_CNT_ENCAP_COUNT : Fld := ⟨.TUN_CNT_ENCAP, 31, 0⟩
def TUN_CNT_DECAP_COUNT : Fld := ⟨.TUN_CNT_DECAP, 31, 0⟩
def TUN_CNT_MTU_COUNT : Fld := ⟨.TUN_CNT_MTU, 31, 0⟩
def TUN_CNT_TAG_DEPTH_COUNT : Fld := ⟨.TUN_CNT_TAG_DEPTH, 31, 0⟩
def TUN_CNT_TEMPLATE_INVALID_COUNT : Fld := ⟨.TUN_CNT_TEMPLATE_INVALID, 31, 0⟩
def TUN_CNT_NO_VNI_COUNT : Fld := ⟨.TUN_CNT_NO_VNI, 31, 0⟩
def TUN_CNT_VNI_MISS_COUNT : Fld := ⟨.TUN_CNT_VNI_MISS, 31, 0⟩
def TUN_CNT_CRIT_COUNT : Fld := ⟨.TUN_CNT_CRIT, 31, 0⟩
def TUN_CNT_NO_L2_COUNT : Fld := ⟨.TUN_CNT_NO_L2, 31, 0⟩
def CPH_KS_STATUS_READY : Fld := ⟨.CPH_KS_STATUS, 16, 0⟩
def CPH_KS_REVOKING_COUNT : Fld := ⟨.CPH_KS_REVOKING, 16, 0⟩
def CPH_KEK_VALID_VALID : Fld := ⟨.CPH_KEK_VALID, 15, 0⟩
def CPH_KS_CNT_LOAD_COUNT : Fld := ⟨.CPH_KS_CNT_LOAD, 31, 0⟩
def CPH_KS_CNT_UNWRAP_FAIL_COUNT : Fld := ⟨.CPH_KS_CNT_UNWRAP_FAIL, 31, 0⟩
def CPH_KS_CNT_ERASE_COUNT : Fld := ⟨.CPH_KS_CNT_ERASE, 31, 0⟩
def CPH_STATUS_HARD_LIMIT : Fld := ⟨.CPH_STATUS, 3, 3⟩
def CPH_STATUS_SOFT_LIMIT : Fld := ⟨.CPH_STATUS, 2, 2⟩
def CPH_STATUS_ENTROPY_FAIL : Fld := ⟨.CPH_STATUS, 1, 1⟩
def CPH_STATUS_AUTH_FAIL : Fld := ⟨.CPH_STATUS, 0, 0⟩
def CPH_JOBQ_CFG_DMA_CH : Fld := ⟨.CPH_JOBQ_CFG, 5, 0⟩
def CPH_LEVELS_JOBQ : Fld := ⟨.CPH_LEVELS, 31, 21⟩
def CPH_LEVELS_REENTRY : Fld := ⟨.CPH_LEVELS, 17, 9⟩
def CPH_LEVELS_INLINE : Fld := ⟨.CPH_LEVELS, 8, 0⟩
def CPH_WIN_MAX_JOBS : Fld := ⟨.CPH_WIN_MAX, 31, 16⟩
def CPH_WIN_MAX_INLINE : Fld := ⟨.CPH_WIN_MAX, 15, 0⟩
def CPH_SLOTS_USED_LO_COUNT : Fld := ⟨.CPH_SLOTS_USED_LO, 31, 0⟩
def CPH_SLOTS_USED_HI_COUNT : Fld := ⟨.CPH_SLOTS_USED_HI, 31, 0⟩
def CPH_SLOTS_IDLE_LO_COUNT : Fld := ⟨.CPH_SLOTS_IDLE_LO, 31, 0⟩
def CPH_SLOTS_IDLE_HI_COUNT : Fld := ⟨.CPH_SLOTS_IDLE_HI, 31, 0⟩
def CPH_CNT_OPS_COUNT : Fld := ⟨.CPH_CNT_OPS, 31, 0⟩
def CPH_CNT_AUTH_FAIL_COUNT : Fld := ⟨.CPH_CNT_AUTH_FAIL, 31, 0⟩
def CPH_CNT_REVOKED_COUNT : Fld := ⟨.CPH_CNT_REVOKED, 31, 0⟩
def CPH_CNT_NONCE_COUNT : Fld := ⟨.CPH_CNT_NONCE, 31, 0⟩
def CPH_CNT_KEY_COUNT : Fld := ⟨.CPH_CNT_KEY, 31, 0⟩
def CPH_CNT_KEY_MISMATCH_COUNT : Fld := ⟨.CPH_CNT_KEY_MISMATCH, 31, 0⟩
def CPH_CNT_INLINE_DROP_COUNT : Fld := ⟨.CPH_CNT_INLINE_DROP, 31, 0⟩
def CPH_CNT_REPLAY_COUNT : Fld := ⟨.CPH_CNT_REPLAY, 31, 0⟩
def CPH_CNT_BAD_TAG_COUNT : Fld := ⟨.CPH_CNT_BAD_TAG, 31, 0⟩
def CPH_CNT_LENGTH_COUNT : Fld := ⟨.CPH_CNT_LENGTH, 31, 0⟩
def CPH_CNT_ENTROPY_COUNT : Fld := ⟨.CPH_CNT_ENTROPY, 31, 0⟩
def BPM_STATUS_ALARM_OVF : Fld := ⟨.BPM_STATUS, 4, 4⟩
def BPM_STATUS_ALARM : Fld := ⟨.BPM_STATUS, 3, 3⟩
def BPM_STATUS_LIST_BROKEN : Fld := ⟨.BPM_STATUS, 2, 2⟩
def BPM_STATUS_HDR_BAD : Fld := ⟨.BPM_STATUS, 1, 1⟩
def BPM_STATUS_STOCK_EMPTY : Fld := ⟨.BPM_STATUS, 0, 0⟩
def BPM_CFG_SPAN_LOG2 : Fld := ⟨.BPM_CFG, 3, 0⟩
def BPM_CLASS_TOTAL_COUNT : Fld := ⟨.BPM_CLASS_TOTAL, 29, 0⟩
def BPM_CLASS_FREE_COUNT : Fld := ⟨.BPM_CLASS_FREE, 29, 0⟩
def BPM_REGIONS_COUNT : Fld := ⟨.BPM_REGIONS, 8, 0⟩
def BPM_BYTES_LO_BYTES : Fld := ⟨.BPM_BYTES_LO, 31, 0⟩
def BPM_BYTES_HI_BYTES : Fld := ⟨.BPM_BYTES_HI, 31, 0⟩
def BPM_ALARM_NEXT_VALID : Fld := ⟨.BPM_ALARM_NEXT, 31, 31⟩
def BPM_ALARM_NEXT_LEVEL : Fld := ⟨.BPM_ALARM_NEXT, 22, 16⟩
def BPM_ALARM_NEXT_INDEX : Fld := ⟨.BPM_ALARM_NEXT, 12, 0⟩
def BPM_CNT_ALLOC_COUNT : Fld := ⟨.BPM_CNT_ALLOC, 31, 0⟩
def BPM_CNT_FREED_COUNT : Fld := ⟨.BPM_CNT_FREED, 31, 0⟩
def BPM_CNT_QUOTA_COUNT : Fld := ⟨.BPM_CNT_QUOTA, 31, 0⟩
def BPM_CNT_NO_BUFFER_COUNT : Fld := ⟨.BPM_CNT_NO_BUFFER, 31, 0⟩
def BPM_CNT_STOCK_EMPTY_COUNT : Fld := ⟨.BPM_CNT_STOCK_EMPTY, 31, 0⟩
def BPM_CNT_BAD_RELEASE_COUNT : Fld := ⟨.BPM_CNT_BAD_RELEASE, 31, 0⟩
def BPM_CNT_NOT_OWNER_COUNT : Fld := ⟨.BPM_CNT_NOT_OWNER, 31, 0⟩
def BPM_CNT_HDR_BAD_COUNT : Fld := ⟨.BPM_CNT_HDR_BAD, 31, 0⟩
def DMA_CFG_CHAIN_LIMIT : Fld := ⟨.DMA_CFG, 16, 0⟩
def DMA_STATUS_SG_STALL : Fld := ⟨.DMA_STATUS, 4, 4⟩
def DMA_STATUS_LATE_DATA : Fld := ⟨.DMA_STATUS, 3, 3⟩
def DMA_STATUS_CHAIN_LIMIT : Fld := ⟨.DMA_STATUS, 2, 2⟩
def DMA_STATUS_BUS_ERROR : Fld := ⟨.DMA_STATUS, 1, 1⟩
def DMA_STATUS_STOPPED : Fld := ⟨.DMA_STATUS, 0, 0⟩
def DMA_ERR_INFO_VALID : Fld := ⟨.DMA_ERR_INFO, 31, 31⟩
def DMA_ERR_INFO_KIND : Fld := ⟨.DMA_ERR_INFO, 30, 28⟩
def DMA_ERR_INFO_PORT : Fld := ⟨.DMA_ERR_INFO, 26, 24⟩
def DMA_ERR_INFO_CH : Fld := ⟨.DMA_ERR_INFO, 21, 16⟩
def DMA_ERR_INFO_FUNCTION : Fld := ⟨.DMA_ERR_INFO, 12, 0⟩
def DMA_ERR_ADDR_LO_ADDR : Fld := ⟨.DMA_ERR_ADDR_LO, 31, 0⟩
def DMA_ERR_ADDR_HI_ADDR : Fld := ⟨.DMA_ERR_ADDR_HI, 31, 0⟩
def DMA_CNT_DESC_COUNT : Fld := ⟨.DMA_CNT_DESC, 31, 0⟩
def DMA_CNT_DESC_ERR_COUNT : Fld := ⟨.DMA_CNT_DESC_ERR, 31, 0⟩
def DMA_CNT_LATE_COUNT : Fld := ⟨.DMA_CNT_LATE, 31, 0⟩
def DMA_CNT_CHAIN_LIMIT_COUNT : Fld := ⟨.DMA_CNT_CHAIN_LIMIT, 31, 0⟩
def DMA_CNT_SG_STALL_COUNT : Fld := ⟨.DMA_CNT_SG_STALL, 31, 0⟩
def DMA_CNT_CRC_MISMATCH_COUNT : Fld := ⟨.DMA_CNT_CRC_MISMATCH, 31, 0⟩
def DMA_CNT_BYTES_LO_COUNT : Fld := ⟨.DMA_CNT_BYTES_LO, 31, 0⟩
def DMA_CNT_BYTES_HI_COUNT : Fld := ⟨.DMA_CNT_BYTES_HI, 31, 0⟩
def DMA_CNT_CARRIER_IDLE_LO_COUNT : Fld := ⟨.DMA_CNT_CARRIER_IDLE_LO, 31, 0⟩
def DMA_CNT_CARRIER_IDLE_HI_COUNT : Fld := ⟨.DMA_CNT_CARRIER_IDLE_HI, 31, 0⟩
def DMA_CH_CFG_CLASS : Fld := ⟨.DMA_CH_CFG, 10, 8⟩
def DMA_CH_CFG_SOURCE : Fld := ⟨.DMA_CH_CFG, 2, 2⟩
def DMA_CH_CFG_SERVICE : Fld := ⟨.DMA_CH_CFG, 1, 0⟩
def DMA_CH_QUEUE_HANDLE : Fld := ⟨.DMA_CH_QUEUE, 31, 0⟩
def DMA_CH_CHAIN_LO_ADDR : Fld := ⟨.DMA_CH_CHAIN_LO, 31, 0⟩
def DMA_CH_CHAIN_HI_ADDR : Fld := ⟨.DMA_CH_CHAIN_HI, 31, 0⟩
def DMA_CH_CHAIN_FN_ALCOVE : Fld := ⟨.DMA_CH_CHAIN_FN, 31, 31⟩
def DMA_CH_CHAIN_FN_FUNCTION : Fld := ⟨.DMA_CH_CHAIN_FN, 12, 0⟩
def DMA_CH_CTRL_START : Fld := ⟨.DMA_CH_CTRL, 1, 1⟩
def DMA_CH_CTRL_KICK : Fld := ⟨.DMA_CH_CTRL, 0, 0⟩
def DMA_CH_STATUS_LAST_STATUS : Fld := ⟨.DMA_CH_STATUS, 23, 16⟩
def DMA_CH_STATUS_CFG_REFUSED : Fld := ⟨.DMA_CH_STATUS, 10, 10⟩
def DMA_CH_STATUS_WB_DONE : Fld := ⟨.DMA_CH_STATUS, 8, 8⟩
def DMA_CH_STATUS_STATE : Fld := ⟨.DMA_CH_STATUS, 2, 0⟩
def DMA_CH_REMAIN_BYTES : Fld := ⟨.DMA_CH_REMAIN, 30, 0⟩
def WQ_CFG_PHASE_US : Fld := ⟨.WQ_CFG, 31, 16⟩
def WQ_CFG_CQ_STALL_MS : Fld := ⟨.WQ_CFG, 15, 0⟩
def WQ_STATUS_PHASE : Fld := ⟨.WQ_STATUS, 3, 3⟩
def WQ_STATUS_STALL : Fld := ⟨.WQ_STATUS, 2, 2⟩
def WQ_STATUS_CQ_FULL : Fld := ⟨.WQ_STATUS, 1, 1⟩
def WQ_STATUS_OVERRUN : Fld := ⟨.WQ_STATUS, 0, 0⟩
def WQ_QUEUES_CQS : Fld := ⟨.WQ_QUEUES, 31, 16⟩
def WQ_QUEUES_QUEUES : Fld := ⟨.WQ_QUEUES, 15, 0⟩
def WQ_CNT_OVERRUN_COUNT : Fld := ⟨.WQ_CNT_OVERRUN, 31, 0⟩
def WQ_CNT_CQ_FULL_COUNT : Fld := ⟨.WQ_CNT_CQ_FULL, 31, 0⟩
def WQ_CNT_STALL_COUNT : Fld := ⟨.WQ_CNT_STALL, 31, 0⟩
def WQ_CNT_REFETCH_COUNT : Fld := ⟨.WQ_CNT_REFETCH, 31, 0⟩
def WQ_CNT_REARM_STALE_COUNT : Fld := ⟨.WQ_CNT_REARM_STALE, 31, 0⟩
def WQ_CNT_DB_IGNORED_COUNT : Fld := ⟨.WQ_CNT_DB_IGNORED, 31, 0⟩
def WQ_CNT_RQ_DROP_COUNT : Fld := ⟨.WQ_CNT_RQ_DROP, 31, 0⟩
def WQ_CNT_EVENT_DROP_COUNT : Fld := ⟨.WQ_CNT_EVENT_DROP, 31, 0⟩
def WQ_STAGE_MAX : Fld := ⟨.WQ_STAGE, 24, 16⟩
def WQ_STAGE_LEVEL : Fld := ⟨.WQ_STAGE, 8, 0⟩
def WQ_QSEL_CQ : Fld := ⟨.WQ_QSEL, 16, 16⟩
def WQ_QSEL_INDEX : Fld := ⟨.WQ_QSEL, 15, 0⟩
def WQ_QINFO_VALID : Fld := ⟨.WQ_QINFO, 31, 31⟩
def WQ_QINFO_DETAIL : Fld := ⟨.WQ_QINFO, 23, 16⟩
def WQ_QINFO_SIZE_LOG2 : Fld := ⟨.WQ_QINFO, 12, 8⟩
def WQ_QINFO_STATE : Fld := ⟨.WQ_QINFO, 2, 0⟩
def WQ_QPROD_P : Fld := ⟨.WQ_QPROD, 31, 0⟩
def WQ_QCONS_C : Fld := ⟨.WQ_QCONS, 31, 0⟩
def WQ_QWMARK_WATERMARK : Fld := ⟨.WQ_QWMARK, 31, 0⟩
def WQ_FN_AQ_BASE_LO_ADDR : Fld := ⟨.WQ_FN_AQ_BASE_LO, 31, 12⟩
def WQ_FN_AQ_BASE_HI_ADDR : Fld := ⟨.WQ_FN_AQ_BASE_HI, 31, 0⟩
def WQ_FN_ACQ_BASE_LO_ADDR : Fld := ⟨.WQ_FN_ACQ_BASE_LO, 31, 12⟩
def WQ_FN_ACQ_BASE_HI_ADDR : Fld := ⟨.WQ_FN_ACQ_BASE_HI, 31, 0⟩
def WQ_FN_AQ_CFG_EN : Fld := ⟨.WQ_FN_AQ_CFG, 31, 31⟩
def WQ_FN_AQ_CFG_VECTOR : Fld := ⟨.WQ_FN_AQ_CFG, 26, 16⟩
def WQ_FN_AQ_CFG_SIZE_LOG2 : Fld := ⟨.WQ_FN_AQ_CFG, 4, 0⟩
def WQ_FN_ACQ_CFG_EN : Fld := ⟨.WQ_FN_ACQ_CFG, 31, 31⟩
def WQ_FN_ACQ_CFG_VECTOR : Fld := ⟨.WQ_FN_ACQ_CFG, 26, 16⟩
def WQ_FN_ACQ_CFG_SIZE_LOG2 : Fld := ⟨.WQ_FN_ACQ_CFG, 4, 0⟩
def WQ_FN_ADMIN_STATE_INFLIGHT : Fld := ⟨.WQ_FN_ADMIN_STATE, 31, 16⟩
def WQ_FN_ADMIN_STATE_DETAIL : Fld := ⟨.WQ_FN_ADMIN_STATE, 15, 8⟩
def WQ_FN_ADMIN_STATE_ACQ : Fld := ⟨.WQ_FN_ADMIN_STATE, 6, 4⟩
def WQ_FN_ADMIN_STATE_AQ : Fld := ⟨.WQ_FN_ADMIN_STATE, 2, 0⟩
def WQ_FN_EVQ_HANDLE : Fld := ⟨.WQ_FN_EVQ, 31, 0⟩
def EP_PORT_MAP_EN : Fld := ⟨.EP_PORT_MAP, 8, 8⟩
def EP_PORT_MAP_WIDTH : Fld := ⟨.EP_PORT_MAP, 5, 4⟩
def EP_PORT_MAP_QUAD : Fld := ⟨.EP_PORT_MAP, 2, 0⟩
def EP_PORT_MAP_STATUS_PENDING : Fld := ⟨.EP_PORT_MAP_STATUS, 1, 1⟩
def EP_PORT_MAP_STATUS_FALLBACK : Fld := ⟨.EP_PORT_MAP_STATUS, 0, 0⟩
def EP_PORT_CFG_L1_IDLE_US : Fld := ⟨.EP_PORT_CFG, 31, 16⟩
def EP_PORT_CFG_GEN : Fld := ⟨.EP_PORT_CFG, 1, 0⟩
def EP_PORT_STATUS_LINK_UP : Fld := ⟨.EP_PORT_STATUS, 31, 31⟩
def EP_PORT_STATUS_FLIT : Fld := ⟨.EP_PORT_STATUS, 30, 30⟩
def EP_PORT_STATUS_GEN : Fld := ⟨.EP_PORT_STATUS, 29, 28⟩
def EP_PORT_STATUS_WIDTH : Fld := ⟨.EP_PORT_STATUS, 27, 25⟩
def EP_PORT_STATUS_LSTATE : Fld := ⟨.EP_PORT_STATUS, 24, 22⟩
def EP_PORT_STATUS_WAKE_N : Fld := ⟨.EP_PORT_STATUS, 21, 21⟩
def EP_PORT_STATUS_PLANNED_BLOCKED : Fld := ⟨.EP_PORT_STATUS, 20, 20⟩
def EP_PORT_STATUS_READ_SHORT : Fld := ⟨.EP_PORT_STATUS, 19, 19⟩
def EP_PORT_STATUS_PF_D3 : Fld := ⟨.EP_PORT_STATUS, 18, 18⟩
def EP_PORT_STATUS_TAGS_OUT : Fld := ⟨.EP_PORT_STATUS, 9, 0⟩
def EP_PORT_CPL_CTO_US : Fld := ⟨.EP_PORT_CPL, 25, 0⟩
def EP_LATE_CPL_COUNT : Fld := ⟨.EP_LATE_CPL, 31, 0⟩
def EP_CNT_CTO_COUNT : Fld := ⟨.EP_CNT_CTO, 31, 0⟩
def EP_CNT_UR_COUNT : Fld := ⟨.EP_CNT_UR, 31, 0⟩
def EP_CNT_UNEXP_CPL_COUNT : Fld := ⟨.EP_CNT_UNEXP_CPL, 31, 0⟩
def EP_CNT_BAD_VECTOR_COUNT : Fld := ⟨.EP_CNT_BAD_VECTOR, 31, 0⟩
def EP_CNT_PME_COUNT : Fld := ⟨.EP_CNT_PME, 31, 0⟩
def EP_CNT_FLR_COUNT : Fld := ⟨.EP_CNT_FLR, 31, 0⟩
def EP_CNT_WIN_MISS_COUNT : Fld := ⟨.EP_CNT_WIN_MISS, 31, 0⟩
def EP_FSEL_FUNCTION : Fld := ⟨.EP_FSEL, 12, 0⟩
def EP_WIN_SHADOW_W0_VALID : Fld := ⟨.EP_WIN_SHADOW_W0, 31, 31⟩
def EP_WIN_SHADOW_W0_RD : Fld := ⟨.EP_WIN_SHADOW_W0, 30, 30⟩
def EP_WIN_SHADOW_W0_WR : Fld := ⟨.EP_WIN_SHADOW_W0, 29, 29⟩
def EP_WIN_SHADOW_W0_KIND : Fld := ⟨.EP_WIN_SHADOW_W0, 26, 24⟩
def EP_WIN_SHADOW_W0_INDEX : Fld := ⟨.EP_WIN_SHADOW_W0, 23, 20⟩
def EP_WIN_SHADOW_W0_TWIN : Fld := ⟨.EP_WIN_SHADOW_W0, 19, 19⟩
def EP_WIN_SHADOW_W0_POOL_ID : Fld := ⟨.EP_WIN_SHADOW_W0, 15, 0⟩
def EP_WIN_SHADOW_W1_SIZE_LOG2 : Fld := ⟨.EP_WIN_SHADOW_W1, 31, 26⟩
def EP_WIN_SHADOW_W1_BAR_OFFSET : Fld := ⟨.EP_WIN_SHADOW_W1, 25, 0⟩
def EP_WIN_SHADOW_W2_TARGET : Fld := ⟨.EP_WIN_SHADOW_W2, 31, 0⟩
def EP_WIN_SHADOW_W3_TARGET : Fld := ⟨.EP_WIN_SHADOW_W3, 31, 0⟩
def EP_WIN_LIVE_W0_VALID : Fld := ⟨.EP_WIN_LIVE_W0, 31, 31⟩
def EP_WIN_LIVE_W0_RD : Fld := ⟨.EP_WIN_LIVE_W0, 30, 30⟩
def EP_WIN_LIVE_W0_WR : Fld := ⟨.EP_WIN_LIVE_W0, 29, 29⟩
def EP_WIN_LIVE_W0_KIND : Fld := ⟨.EP_WIN_LIVE_W0, 26, 24⟩
def EP_WIN_LIVE_W0_INDEX : Fld := ⟨.EP_WIN_LIVE_W0, 23, 20⟩
def EP_WIN_LIVE_W0_TWIN : Fld := ⟨.EP_WIN_LIVE_W0, 19, 19⟩
def EP_WIN_LIVE_W0_POOL_ID : Fld := ⟨.EP_WIN_LIVE_W0, 15, 0⟩
def EP_WIN_LIVE_W1_SIZE_LOG2 : Fld := ⟨.EP_WIN_LIVE_W1, 31, 26⟩
def EP_WIN_LIVE_W1_BAR_OFFSET : Fld := ⟨.EP_WIN_LIVE_W1, 25, 0⟩
def EP_WIN_LIVE_W2_TARGET : Fld := ⟨.EP_WIN_LIVE_W2, 31, 0⟩
def EP_WIN_LIVE_W3_TARGET : Fld := ⟨.EP_WIN_LIVE_W3, 31, 0⟩
def EP_WIN_CTRL_LOAD : Fld := ⟨.EP_WIN_CTRL, 1, 1⟩
def EP_WIN_CTRL_COMMIT : Fld := ⟨.EP_WIN_CTRL, 0, 0⟩
def EP_WIN_STATUS_ERROR : Fld := ⟨.EP_WIN_STATUS, 31, 31⟩
def EP_WIN_STATUS_BUSY : Fld := ⟨.EP_WIN_STATUS, 30, 30⟩
def EP_WIN_STATUS_ENTRY : Fld := ⟨.EP_WIN_STATUS, 21, 16⟩
def EP_WIN_STATUS_REASON : Fld := ⟨.EP_WIN_STATUS, 7, 0⟩
def EP_FN_STATE_D3COLD : Fld := ⟨.EP_FN_STATE, 4, 4⟩
def EP_FN_STATE_FLR_BUSY : Fld := ⟨.EP_FN_STATE, 3, 3⟩
def EP_FN_STATE_DRAINING : Fld := ⟨.EP_FN_STATE, 2, 2⟩
def EP_FN_STATE_DSTATE : Fld := ⟨.EP_FN_STATE, 1, 0⟩
def VFN_STATUS_SHARE_PENDING : Fld := ⟨.VFN_STATUS, 1, 1⟩
def VFN_STATUS_LOG_FAIL : Fld := ⟨.VFN_STATUS, 0, 0⟩
def VFN_PORT_VF_EN : Fld := ⟨.VFN_PORT, 31, 31⟩
def VFN_PORT_LOGS : Fld := ⟨.VFN_PORT, 25, 16⟩
def VFN_PORT_NUM_VFS : Fld := ⟨.VFN_PORT, 9, 0⟩
def VFN_FSEL_FUNCTION : Fld := ⟨.VFN_FSEL, 12, 0⟩
def VFN_FINFO_VALID : Fld := ⟨.VFN_FINFO, 31, 31⟩
def VFN_FINFO_LOG : Fld := ⟨.VFN_FINFO, 7, 6⟩
def VFN_FINFO_STAGED : Fld := ⟨.VFN_FINFO, 5, 5⟩
def VFN_FINFO_STATE : Fld := ⟨.VFN_FINFO, 1, 0⟩
def VFN_FUSE_CQS : Fld := ⟨.VFN_FUSE, 31, 16⟩
def VFN_FUSE_QUEUES : Fld := ⟨.VFN_FUSE, 15, 0⟩
def VFN_FINFLIGHT_LIMIT : Fld := ⟨.VFN_FINFLIGHT, 31, 16⟩
def VFN_FINFLIGHT_COUNT : Fld := ⟨.VFN_FINFLIGHT, 15, 0⟩
def VFN_CNT_ADMIT_WAIT_COUNT : Fld := ⟨.VFN_CNT_ADMIT_WAIT, 31, 0⟩
def VFN_CNT_LOG_BITS_COUNT : Fld := ⟨.VFN_CNT_LOG_BITS, 31, 0⟩
def VFN_CNT_LOG_LINES_COUNT : Fld := ⟨.VFN_CNT_LOG_LINES, 31, 0⟩
def STO_CFG_RETRIES : Fld := ⟨.STO_CFG, 23, 16⟩
def STO_CFG_RTO_MIN_MS : Fld := ⟨.STO_CFG, 15, 0⟩
def STO_STATUS_CONNS : Fld := ⟨.STO_STATUS, 12, 0⟩
def STO_FLAGS_CLEAR_DROP : Fld := ⟨.STO_FLAGS, 2, 2⟩
def STO_FLAGS_DIGEST : Fld := ⟨.STO_FLAGS, 1, 1⟩
def STO_FLAGS_CONN_FAIL : Fld := ⟨.STO_FLAGS, 0, 0⟩
def STO_STAGE_BASE : Fld := ⟨.STO_STAGE, 31, 12⟩
def STO_STAGE_SIZE : Fld := ⟨.STO_STAGE, 3, 0⟩
def STO_CH_STORE : Fld := ⟨.STO_CH, 13, 8⟩
def STO_CH_FETCH : Fld := ⟨.STO_CH, 5, 0⟩
def STO_CNT_PDU_TX_COUNT : Fld := ⟨.STO_CNT_PDU_TX, 31, 0⟩
def STO_CNT_PDU_RX_COUNT : Fld := ⟨.STO_CNT_PDU_RX, 31, 0⟩
def STO_CNT_HDGST_ERR_COUNT : Fld := ⟨.STO_CNT_HDGST_ERR, 31, 0⟩
def STO_CNT_DDGST_ERR_COUNT : Fld := ⟨.STO_CNT_DDGST_ERR, 31, 0⟩
def STO_CNT_RETRANS_COUNT : Fld := ⟨.STO_CNT_RETRANS, 31, 0⟩
def STO_CNT_OOO_DROP_COUNT : Fld := ⟨.STO_CNT_OOO_DROP, 31, 0⟩
def STO_CNT_CLEAR_DROP_COUNT : Fld := ⟨.STO_CNT_CLEAR_DROP, 31, 0⟩
def STO_CNT_CONN_FAIL_COUNT : Fld := ⟨.STO_CNT_CONN_FAIL, 31, 0⟩
def SIC_STATUS_PENDING : Fld := ⟨.SIC_STATUS, 11, 0⟩
def SIC_FLAGS_SPURIOUS : Fld := ⟨.SIC_FLAGS, 0, 0⟩
def SIC_SGI_INDEX : Fld := ⟨.SIC_SGI, 4, 0⟩
def SIC_CNT_MERGED_COUNT : Fld := ⟨.SIC_CNT_MERGED, 31, 0⟩
def SIC_CORE_CFG_THRESHOLD : Fld := ⟨.SIC_CORE_CFG, 11, 8⟩
def SIC_CORE_CFG_MODE : Fld := ⟨.SIC_CORE_CFG, 0, 0⟩
def SIC_CORE_VBASE_LO_ADDR : Fld := ⟨.SIC_CORE_VBASE_LO, 31, 17⟩
def SIC_CORE_VBASE_HI_ADDR : Fld := ⟨.SIC_CORE_VBASE_HI, 31, 0⟩
def SIC_CORE_STATE_TOP : Fld := ⟨.SIC_CORE_STATE, 26, 16⟩
def SIC_CORE_STATE_DEPTH : Fld := ⟨.SIC_CORE_STATE, 11, 8⟩
def SIC_CORE_STATE_RUNNING : Fld := ⟨.SIC_CORE_STATE, 3, 0⟩
def SIC_CORE_COMPLETE_SOURCE : Fld := ⟨.SIC_CORE_COMPLETE, 10, 0⟩
def SIC_CORE_CTRL_FLUSH : Fld := ⟨.SIC_CORE_CTRL, 0, 0⟩
def SIC_CNT_SPURIOUS_COUNT : Fld := ⟨.SIC_CNT_SPURIOUS, 31, 0⟩
def SIC_CNT_DELIVERED_COUNT : Fld := ⟨.SIC_CNT_DELIVERED, 31, 0⟩
def SIC_GROUP_LULL_LULLING : Fld := ⟨.SIC_GROUP_LULL, 31, 31⟩
def SIC_GROUP_LULL_LULL : Fld := ⟨.SIC_GROUP_LULL, 23, 0⟩
def SIC_CNT_LULL_COUNT : Fld := ⟨.SIC_CNT_LULL, 31, 0⟩
def SIC_SRC_CFG_TYPE : Fld := ⟨.SIC_SRC_CFG, 24, 24⟩
def SIC_SRC_CFG_GROUP : Fld := ⟨.SIC_SRC_CFG, 21, 16⟩
def SIC_SRC_CFG_TARGETS : Fld := ⟨.SIC_SRC_CFG, 15, 8⟩
def SIC_SRC_CFG_PRIORITY : Fld := ⟨.SIC_SRC_CFG, 3, 0⟩
def SIC_SRC_PEND_PEND : Fld := ⟨.SIC_SRC_PEND, 31, 0⟩
def SIC_SRC_ACTIVE_ACTIVE : Fld := ⟨.SIC_SRC_ACTIVE, 31, 0⟩
def SIC_FN_VGAP_GAP_US : Fld := ⟨.SIC_FN_VGAP, 15, 0⟩
def OWN_STATE_OWNER_VALID : Fld := ⟨.OWN_STATE, 31, 31⟩
def OWN_STATE_LAPSED : Fld := ⟨.OWN_STATE, 30, 30⟩
def OWN_STATE_PENDING : Fld := ⟨.OWN_STATE, 29, 29⟩
def OWN_STATE_PENDING_KIND : Fld := ⟨.OWN_STATE, 28, 27⟩
def OWN_STATE_PENDING_PORT : Fld := ⟨.OWN_STATE, 26, 24⟩
def OWN_STATE_OWNER_PORT : Fld := ⟨.OWN_STATE, 18, 16⟩
def OWN_EPOCH_EPOCH : Fld := ⟨.OWN_EPOCH, 31, 0⟩
def OWN_RENEW_EPOCH : Fld := ⟨.OWN_RENEW, 31, 0⟩
def OWN_LEASE_TERM_MS : Fld := ⟨.OWN_LEASE, 31, 16⟩
def OWN_LEASE_LEFT_MS : Fld := ⟨.OWN_LEASE, 15, 0⟩
def OWN_FLAGS_RESTORE_FAIL : Fld := ⟨.OWN_FLAGS, 5, 5⟩
def OWN_FLAGS_BOOT_FALLBACK : Fld := ⟨.OWN_FLAGS, 4, 4⟩
def OWN_FLAGS_RENEW_BAD : Fld := ⟨.OWN_FLAGS, 3, 3⟩
def OWN_FLAGS_FENCED : Fld := ⟨.OWN_FLAGS, 2, 2⟩
def OWN_FLAGS_LAPSED : Fld := ⟨.OWN_FLAGS, 1, 1⟩
def OWN_FLAGS_CHANGED : Fld := ⟨.OWN_FLAGS, 0, 0⟩
def OWN_CFG_RESUME : Fld := ⟨.OWN_CFG, 0, 0⟩
def OWN_NONCE_LO_NONCE : Fld := ⟨.OWN_NONCE_LO, 31, 0⟩
def OWN_NONCE_HI_NONCE : Fld := ⟨.OWN_NONCE_HI, 31, 0⟩
def OWN_HALF_EPOCH_EPOCH : Fld := ⟨.OWN_HALF_EPOCH, 31, 0⟩
def OWN_HALF_HASH_HASH : Fld := ⟨.OWN_HALF_HASH, 31, 0⟩
def OWN_HALF_STATE_FENCED : Fld := ⟨.OWN_HALF_STATE, 31, 31⟩
def OWN_HALF_STATE_FENCES : Fld := ⟨.OWN_HALF_STATE, 15, 0⟩
def OWN_BOOT_STATUS_LAST_RESET : Fld := ⟨.OWN_BOOT_STATUS, 31, 28⟩
def OWN_BOOT_STATUS_STAGE : Fld := ⟨.OWN_BOOT_STATUS, 27, 24⟩
def OWN_BOOT_STATUS_IMAGE : Fld := ⟨.OWN_BOOT_STATUS, 19, 19⟩
def OWN_BOOT_STATUS_B_BAD : Fld := ⟨.OWN_BOOT_STATUS, 18, 18⟩
def OWN_BOOT_STATUS_A_BAD : Fld := ⟨.OWN_BOOT_STATUS, 17, 17⟩
def OWN_BOOT_STATUS_PREFER : Fld := ⟨.OWN_BOOT_STATUS, 16, 16⟩
def OWN_BOOT_STATUS_START : Fld := ⟨.OWN_BOOT_STATUS, 9, 8⟩
def OWN_BOOT_STATUS_REASON : Fld := ⟨.OWN_BOOT_STATUS, 7, 0⟩
def OWN_FW_SVN_MIN : Fld := ⟨.OWN_FW_SVN, 15, 8⟩
def OWN_FW_SVN_RUNNING : Fld := ⟨.OWN_FW_SVN, 7, 0⟩
def OWN_PLANKEYS_REVOKED : Fld := ⟨.OWN_PLANKEYS, 7, 4⟩
def OWN_PLANKEYS_ENROLLED : Fld := ⟨.OWN_PLANKEYS, 3, 0⟩
def OWN_CNT_CHANGE_COUNT : Fld := ⟨.OWN_CNT_CHANGE, 31, 0⟩
def OWN_CNT_RENEW_BAD_COUNT : Fld := ⟨.OWN_CNT_RENEW_BAD, 31, 0⟩
def OWN_CNT_REFUSED_COUNT : Fld := ⟨.OWN_CNT_REFUSED, 31, 0⟩
def FLT_STATUS_PAGE_FAIL : Fld := ⟨.FLT_STATUS, 8, 8⟩
def FLT_STATUS_HALTED : Fld := ⟨.FLT_STATUS, 7, 7⟩
def FLT_STATUS_WATCHDOG : Fld := ⟨.FLT_STATUS, 6, 6⟩
def FLT_STATUS_POISON : Fld := ⟨.FLT_STATUS, 5, 5⟩
def FLT_STATUS_DEVICE_RESET : Fld := ⟨.FLT_STATUS, 4, 4⟩
def FLT_STATUS_HALF : Fld := ⟨.FLT_STATUS, 3, 3⟩
def FLT_STATUS_HALL : Fld := ⟨.FLT_STATUS, 2, 2⟩
def FLT_STATUS_LANE : Fld := ⟨.FLT_STATUS, 1, 1⟩
def FLT_STATUS_FUNCTION : Fld := ⟨.FLT_STATUS, 0, 0⟩
def FLT_CFG_INJECT_EN : Fld := ⟨.FLT_CFG, 31, 31⟩
def FLT_CFG_REPEAT_COUNT : Fld := ⟨.FLT_CFG, 23, 16⟩
def FLT_CFG_REPEAT_S : Fld := ⟨.FLT_CFG, 15, 0⟩
def FLT_WDOG_LIMIT_MS : Fld := ⟨.FLT_WDOG, 31, 16⟩
def FLT_WDOG_KICK : Fld := ⟨.FLT_WDOG, 0, 0⟩
def FLT_LAST_INFO_SCOPE : Fld := ⟨.FLT_LAST_INFO, 26, 24⟩
def FLT_LAST_INFO_CAUSE : Fld := ⟨.FLT_LAST_INFO, 23, 16⟩
def FLT_LAST_INFO_HALL : Fld := ⟨.FLT_LAST_INFO, 15, 8⟩
def FLT_LAST_SEQ_SEQ : Fld := ⟨.FLT_LAST_SEQ, 31, 0⟩
def FLT_HALL_FAULTS : Fld := ⟨.FLT_HALL, 31, 16⟩
def FLT_HALL_CAUSE : Fld := ⟨.FLT_HALL, 15, 8⟩
def FLT_HALL_STATE : Fld := ⟨.FLT_HALL, 2, 0⟩
def FLT_HALF_FAULTS : Fld := ⟨.FLT_HALF, 31, 16⟩
def FLT_HALF_CAUSE : Fld := ⟨.FLT_HALF, 15, 8⟩
def FLT_HALF_STATE : Fld := ⟨.FLT_HALF, 2, 0⟩
def FLT_CNT_LANE_FAULT_COUNT : Fld := ⟨.FLT_CNT_LANE_FAULT, 31, 0⟩
def FLT_CNT_HALL_FAULT_COUNT : Fld := ⟨.FLT_CNT_HALL_FAULT, 31, 0⟩
def FLT_CNT_HALF_FAULT_COUNT : Fld := ⟨.FLT_CNT_HALF_FAULT, 31, 0⟩
def FLT_CNT_DEVICE_FAULT_COUNT : Fld := ⟨.FLT_CNT_DEVICE_FAULT, 31, 0⟩
def FLT_CNT_FN_FAULT_COUNT : Fld := ⟨.FLT_CNT_FN_FAULT, 31, 0⟩
def FLT_CNT_POISON_COUNT : Fld := ⟨.FLT_CNT_POISON, 31, 0⟩
def FLT_CNT_POISON_USE_COUNT : Fld := ⟨.FLT_CNT_POISON_USE, 31, 0⟩
def FLT_CNT_PAGE_FAIL_COUNT : Fld := ⟨.FLT_CNT_PAGE_FAIL, 31, 0⟩
def FLT_FN_EPOCH_EPOCH : Fld := ⟨.FLT_FN_EPOCH, 15, 0⟩
def FLT_FN_PAGE_LO_ADDR : Fld := ⟨.FLT_FN_PAGE_LO, 31, 6⟩
def FLT_FN_PAGE_LO_VALID : Fld := ⟨.FLT_FN_PAGE_LO, 0, 0⟩
def FLT_FN_PAGE_HI_ADDR : Fld := ⟨.FLT_FN_PAGE_HI, 31, 0⟩
def ALM_HEAD_SEQ : Fld := ⟨.ALM_HEAD, 31, 0⟩
def ALM_STATUS_FROZEN : Fld := ⟨.ALM_STATUS, 16, 16⟩
def ALM_STATUS_HIGH_WATER : Fld := ⟨.ALM_STATUS, 3, 3⟩
def ALM_STATUS_SUPPRESSED : Fld := ⟨.ALM_STATUS, 2, 2⟩
def ALM_STATUS_FROZE : Fld := ⟨.ALM_STATUS, 1, 1⟩
def ALM_STATUS_LOST : Fld := ⟨.ALM_STATUS, 0, 0⟩
def ALM_CFG_FREEZE_EN : Fld := ⟨.ALM_CFG, 31, 31⟩
def ALM_CFG_HIGH_WATER : Fld := ⟨.ALM_CFG, 30, 16⟩
def ALM_CFG_CODE_RATE : Fld := ⟨.ALM_CFG, 7, 0⟩
def ALM_MARK_SEQ : Fld := ⟨.ALM_MARK, 31, 0⟩
def ALM_CTRL_UNFREEZE : Fld := ⟨.ALM_CTRL, 0, 0⟩
def ALM_FROZEN_SEQ_SEQ : Fld := ⟨.ALM_FROZEN_SEQ, 31, 0⟩
def ALM_CNT_LOST_COUNT : Fld := ⟨.ALM_CNT_LOST, 31, 0⟩
def ALM_CNT_SUPPRESSED_COUNT : Fld := ⟨.ALM_CNT_SUPPRESSED, 31, 0⟩
def ALM_ENTRY_ENTRY : Fld := ⟨.ALM_ENTRY, 31, 0⟩
def BARO_STATUS_STALE : Fld := ⟨.BARO_STATUS, 8, 8⟩
def BARO_STATUS_CANARY : Fld := ⟨.BARO_STATUS, 7, 7⟩
def BARO_STATUS_NVS_WEAR : Fld := ⟨.BARO_STATUS, 6, 6⟩
def BARO_STATUS_RAIL_DRIFT : Fld := ⟨.BARO_STATUS, 5, 5⟩
def BARO_STATUS_RETENTION : Fld := ⟨.BARO_STATUS, 4, 4⟩
def BARO_STATUS_LANE_EYE : Fld := ⟨.BARO_STATUS, 3, 3⟩
def BARO_STATUS_RESERVE : Fld := ⟨.BARO_STATUS, 2, 2⟩
def BARO_STATUS_GRADE_DROP : Fld := ⟨.BARO_STATUS, 1, 1⟩
def BARO_STATUS_FRONT : Fld := ⟨.BARO_STATUS, 0, 0⟩
def BARO_CFG_RESERVE_EN : Fld := ⟨.BARO_CFG, 31, 31⟩
def BARO_CFG_EYE_MIN_UI : Fld := ⟨.BARO_CFG, 15, 8⟩
def BARO_CFG_EYE_MIN_MV : Fld := ⟨.BARO_CFG, 7, 0⟩
def BARO_PASS_CNT_COUNT : Fld := ⟨.BARO_PASS_CNT, 31, 0⟩
def BARO_PASS_SEC_SEC : Fld := ⟨.BARO_PASS_SEC, 31, 0⟩
def BARO_MT_W0_CERT_G : Fld := ⟨.BARO_MT_W0, 31, 29⟩
def BARO_MT_W0_CERT_G_RES : Fld := ⟨.BARO_MT_W0, 28, 26⟩
def BARO_MT_W0_RUN_G : Fld := ⟨.BARO_MT_W0, 25, 23⟩
def BARO_MT_W0_REQ_G : Fld := ⟨.BARO_MT_W0, 22, 20⟩
def BARO_MT_W0_DAYS : Fld := ⟨.BARO_MT_W0, 15, 0⟩
def BARO_MT_W1_VOLT_MV : Fld := ⟨.BARO_MT_W1, 31, 20⟩
def BARO_MT_W1_V_CAP_MV : Fld := ⟨.BARO_MT_W1, 19, 10⟩
def BARO_MT_W1_RESERVE_MV : Fld := ⟨.BARO_MT_W1, 9, 5⟩
def BARO_MT_W1_RESERVE_MAX_MV : Fld := ⟨.BARO_MT_W1, 4, 0⟩
def BARO_MT_W2_T_WORST : Fld := ⟨.BARO_MT_W2, 31, 16⟩
def BARO_MT_W2_T_WORST_RES : Fld := ⟨.BARO_MT_W2, 15, 0⟩
def BARO_MT_W3_MARGIN_RUN : Fld := ⟨.BARO_MT_W3, 31, 16⟩
def BARO_MT_W3_T_MEAS : Fld := ⟨.BARO_MT_W3, 15, 0⟩
def BARO_MT_W4_DRIFT : Fld := ⟨.BARO_MT_W4, 31, 16⟩
def BARO_MT_W4_TJ : Fld := ⟨.BARO_MT_W4, 15, 8⟩
def BARO_MT_W4_CANARY_OK : Fld := ⟨.BARO_MT_W4, 4, 0⟩
def BARO_MT_W5_RESERVE_S : Fld := ⟨.BARO_MT_W5, 31, 0⟩
def BARO_MT_W6_S_V : Fld := ⟨.BARO_MT_W6, 31, 20⟩
def BARO_MT_W6_S_T : Fld := ⟨.BARO_MT_W6, 19, 12⟩
def BARO_MT_W6_WORST : Fld := ⟨.BARO_MT_W6, 4, 0⟩
def BARO_MT_W7_PASS : Fld := ⟨.BARO_MT_W7, 31, 0⟩
def BARO_STACK_RET_Q : Fld := ⟨.BARO_STACK, 7, 0⟩
def BARO_RAIL_SET_MV : Fld := ⟨.BARO_RAIL, 31, 20⟩
def BARO_RAIL_DRIFT_MV : Fld := ⟨.BARO_RAIL, 7, 0⟩
def BARO_NVS_WEAR_PCT : Fld := ⟨.BARO_NVS, 7, 0⟩
def BARO_LANE_LOW_LOW : Fld := ⟨.BARO_LANE_LOW, 31, 0⟩
def EP_FN_ID_OWNER : Fld := ⟨.EP_FN_ID, 31, 31⟩
def EP_FN_ID_VF : Fld := ⟨.EP_FN_ID, 30, 30⟩
def EP_FN_ID_FUNCTION : Fld := ⟨.EP_FN_ID, 12, 0⟩
end Fld

/-- The address of an instance of a register. -/
def Reg.addr (r : Reg) (o i : Nat) : Nat := r.info.base + r.info.oStride * o + r.info.iStride * i

/-- The bits of one access type in a register. -/
def accMask (a : Acc) (fs : List FieldInfo) : Nat :=
  fs.foldl (fun m f => if f.acc = a then m + (2 ^ (f.hi + 1 - f.lo) - 1) * 2 ^ f.lo else m) 0

/-- The reset value that the field table gives a register. -/
def resetOf (fs : List FieldInfo) : Nat := fs.foldl (fun m f => m + f.reset * 2 ^ f.lo) 0

/-- The value of a register's instance after a reset that initialises it (R7): the field table's, and the ones it
gives per instance: EP_PORT_MAP (host ports 0 and 1 enabled x16, R394) and the TYPE of SIC_SRC_CFG (R464). -/
def Reg.reset (r : Reg) (_o i : Nat) : Word :=
  match r with
  | .EP_PORT_MAP => if i = 0 then 0x120 else if i = 1 then 0x124 else BitVec.ofNat 32 (resetOf Reg.EP_PORT_MAP.fields)
  | .SIC_SRC_CFG => if 96 ≤ i ∧ i ≤ 127 then 0x01000000 else 0
  | .CLS_MISS_W3 => 0x10000000
  | r => BitVec.ofNat 32 (resetOf r.fields)

/-- The instance (outer, inner) of a register that stands at an address, if one does. -/
def Reg.hit (a : Nat) (r : Reg) : Option (Nat × Nat) :=
  let g := r.info
  if a < g.base then none else
  let d := a - g.base
  let o := if g.oStride = 0 then 0 else if g.iStride > g.oStride then 0 else d / g.oStride
  let e := d - o * g.oStride
  let i := if g.iStride = 0 then 0 else e / g.iStride
  if o < g.oCount ∧ i < g.iCount ∧ g.oStride * o + g.iStride * i = d then some (o, i) else none

/-- The register at an address, with its instance. -/
def Reg.atAddr (a : Nat) : Option (Reg × Nat × Nat) :=
  Reg.all.findSome? (fun r => (Reg.hit a r).map (fun p => (r, p.1, p.2)))

end Sys2Proof
end

