-- ==== Sys2Proof/Machine/State.lean ====
section
/-! DEFINITION. The state of the part as plain data: the register file, the time base, and every queue, table, buffer
and engine state that the chapters give it, with the queue of waiting commands; the state after power-on reset; the
ways a step can stop. Fields hold numbers modulo nothing: the operations that write them keep their widths. -/

namespace Sys2Proof.Machine

/-- Why a step stops with a fault.
outsideAddressSpace: kept for an access to an octet that no memory of the part has. No command raises it: every access to the
alcove (R16), the Atrium (R148) or a register (R574) that a rule allows stays inside its space, and the rules give the others
an effect. Safe: nothing ends in it. -/
inductive Fault where
  | outsideAddressSpace
deriving DecidableEq, Repr

/-- Why a step is refused.
notModelled: raised only by exec's arm of a command that has no meaning yet; there is none left. Safe. -/
inductive Refusal where
  | notModelled (mnemonic : String)
deriving DecidableEq, Repr

/-- What leaves the part, in order (log entry 3): frames on lanes, transaction-layer packets and writes toward hosts,
levels on pins, answers to reads, records of what a command moved. -/
inductive Out where
  | frame (lane : Nat) (octets : Bytes) (badFcs : Bool)
  | hostWrite (fn addr : Nat) (octets : Bytes)
  | hostRead (fn addr len : Nat)
  | msix (fn vector addr data : Nat)
  | tlp (port : Nat) (kind : Nat) (args : List Nat) (octets : Bytes)
  | readValue (who : Who) (addr : Nat) (value : Nat)
  | readBytes (fn : Nat) (octets : Bytes)
  | unsupported (port : Nat)
  | pin (name : Nat) (index : Nat) (level : Bool)
  | smb (code : Nat) (octets : Bytes)
  | jtag (register : Nat) (value : Nat)
  | trap (hall code : Nat) (octets : Bytes)
  | ptp (hall lane stamp : Nat) (octets : Bytes)
  | note (kind : Nat) (args : List Nat)
deriving DecidableEq, Repr



/-! ### Register accesses on their way to a hall (chapter 1) -/

/-- What an access of the register network does: it reads a word, writes one, or reads a run of octets for a host's memory read. -/
inductive HallAct where
  | read
  | write (value : Nat)
  | load (len : Nat)
deriving DecidableEq, Repr

/-- A register access that waits for its hall's next tread boundary (R20): the hall, the sender, the offset it names. -/
structure HallAccess where
  hall : Nat
  who : Who
  addr : Nat
  act : HallAct
deriving DecidableEq, Repr


/-! ### Time base and the calm domain (chapter 2) -/

/-- The hidden part of the time base. slew is the step still to be carried out (signed, in 2^-16 ns; R34, R39) and
slewAt the instant up to which it has been; good and servo serve R36 and R37, edge is the later of the last 1PPS edge and the write that
selected the source (R36), edgeAt the last edge itself (TB_STATUS.PPS_PRESENT); ref10Since is when the 10 MHz input
came back (R38). energy is each lane's detector and edLanes the lanes whose energy waits for an OPEN window of the owner's duty hall
(R56), wakeAt and
ppsEnd what a wake and the PPS_OUT pulse wait for; hadPlan is whether a plan was active when the device entered F4 (R58). -/
structure TimeSt where
  slew : Int := 0
  slewAt : Nat := 0
  good : Nat := 0
  edge : Nat := 0
  edgeAt : Option Nat := none
  servo : Nat := 0
  ref10In : Bool := false
  ref10Since : Nat := 0
  energy : Tbl Bool := []
  edLanes : List Nat := []
  hadPlan : Bool := false
  wakeAt : Option Nat := none
  ppsEnd : Option Nat := none
deriving DecidableEq, Repr


/-! ### Lanes and ports, event lands (chapter 8) -/

/-- A frame in a port's receive buffer (R223, R224): its octets with FCS, its arrival instant, its event stamp. -/
structure RxFrame where
  octets : Bytes
  arrival : Nat
  stamp : Nat
deriving DecidableEq, Repr

/-- The ETH send descriptor of a frame (R368): its queue, index, cookie and length, whether it ends its batch, and whether it
asked for its egress stamp. -/
structure SendRef where
  queue : Nat
  idx : Nat
  cookie : Nat
  len : Nat
  batchEnd : Bool
  tstamp : Bool
deriving DecidableEq, Repr

/-- A frame in a transmit queue, without FCS (R108, R225): whether an egress stamp goes to the stamp queue (R230), the
pool buffers whose references are released when it has left, and the send descriptor that ends then. -/
structure TxFrame where
  octets : Bytes
  tstamp : Bool
  drops : List Nat
  send : Option SendRef
deriving DecidableEq, Repr

/-- What a port keeps, under its first lane (R223, R225, R230): frames received, the planned and the open queue, stamps taken, when the port is idle
again, and the instants and octets of frames that left the receive buffer of late. -/
structure PortSt where
  rx : List RxFrame := []
  planned : List TxFrame := []
  opened : List TxFrame := []
  seq : Nat := 0
  freeAt : Nat := 0
  gone : List (Nat × Nat) := []
deriving DecidableEq, Repr

structure LnSt where
  ports : Tbl PortSt := []
  stamps : List (Nat × Nat × Nat) := []
  eyes : Tbl Nat := []
  eyeAt : Tbl Nat := []
deriving DecidableEq, Repr

/-- A captured edge (R234): its instant, whether rising. -/
structure Capture where
  time : Nat
  rising : Bool
deriving DecidableEq, Repr

/-- An action on an event land that has been scheduled and has not taken place (R126, R176, R177): the instant, the
ACT of R126 (8: the drive-low that ends a pulse), the pulse width in ns, whether a kernel scheduled it, the hall. -/
structure LandAct where
  time : Nat
  act : Nat
  width : Nat
  kernel : Bool
  hall : Nat
deriving DecidableEq, Repr

/-- One event land (R233 to R235). snap is what the snapshot of R175 holds for kernels, snapNext the one after it: the
level, the latest confirmed edge, and the count of captured edges; was are the pin's levels of late, each with the instant at which it ended. -/
structure LandSt where
  pin : Bool := false
  driven : Bool := false
  level : Bool := false
  lastDriven : Option Bool := none
  armRise : Bool := false
  armFall : Bool := false
  queue : List Capture := []
  latest : Option Capture := none
  candidate : Option Capture := none
  acts : List LandAct := []
  was : List (Nat × Bool) := []
  snap : Bool × Option Capture × Nat := (false, none, 0)
  snapNext : Bool × Option Capture × Nat := (false, none, 0)
deriving DecidableEq, Repr

/-- A best-effort record that waits in a hall for an open move to an endpoint (R107, R267): the endpoint code, the lane or
flow, the service class, the frame. -/
structure StageRec where
  endp : Nat
  addr : Nat
  cls : Nat
  frame : TxFrame
deriving DecidableEq, Repr


/-! ### The plan contract (chapter 3) and the tread sequencers (chapter 4) -/

/-- A requested swap (R86 to R89): a named flight or the first ready landing, the epoch at the request, when it was
made, the command that waits, the halls woken only for it with the instant at which each is up, and whether it is a
standalone start (R92). -/
structure Swap where
  named : Option Nat
  epoch : Nat
  since : Nat
  cmd : Option AdminCmd
  woken : Tbl Nat
  standalone : Bool
deriving DecidableEq, Repr

/-- A copy that the loader has in hand (R84, R85, R481): 0 an image into a library entry, 1 an entry into standby, 2 the active slot into
standby; the entry, the image to store, the command that waits. -/
structure PlanCopy where
  kind : Nat
  idx : Nat
  image : Bytes
  cmd : Option AdminCmd
deriving DecidableEq, Repr

/-- The plan slots, the library, and what the loader and the verifier have in hand (R81 to R92). origin is the flight origin that the
running plan read; lastFlight the last flight that has landed; verdict what the verifier will answer: the reason and the two words of
the place, and the halls that R160 permits; remaps and activeRemaps that permission for the two slots; activeSource where the active
plan came from, as PLN_STANDBY_STATUS.SOURCE will say once a swap makes it the standby plan. bootCase says which case of
R481 a load serves (0 a command), selected that the case has been chosen. overs counts the flights of R83; wakes holds, per logical
hall, the flights of the wakes that have fired (R122); bankCrc the CRC32C of R86 by physical hall; deferred per hall the landings of R51;
tables which logical hall's tables a physical hall holds (R75); ending is whether the plan has ended and only its halls still drain (R91). -/
structure PlnSt where
  active : Bytes := []
  standby : Bytes := []
  library : Tbl Bytes := []
  origin : Nat := 0
  lastFlight : Option Nat := none
  swap : Option Swap := none
  load : Option AdminCmd := none
  copies : List PlanCopy := []
  verdict : Option (Nat × Nat × Nat × List Nat) := none
  remaps : List Nat := []
  activeRemaps : List Nat := []
  activeSource : Nat := 0
  bootCase : Nat := 0
  selected : Bool := false
  stops : List AdminCmd := []
  overs : Nat := 0
  wakes : Tbl (List Nat) := []
  bankCrc : Tbl Nat := []
  deferred : Tbl Nat := []
  tables : Tbl Nat := []
  ending : Bool := false
deriving DecidableEq, Repr

/-- The windows of a WIN in the current tread (R112): the hall clock at which they start, their widths, the flow that the flow
window serves, the first clock that no issue has used, where the OPEN window stands in the ranks (the place and the issues of that turn,
R79), and the PRODUCER that the flow window has read (R109). -/
structure Win where
  start : Nat := 0
  rx : Nat := 0
  flow : Nat := 0
  fl : Nat := 0
  op : Nat := 0
  next : Nat := 0
  rank : Nat := 0
  turn : Nat := 0
  seen : Option Nat := none
deriving DecidableEq, Repr

/-- A pointer register as it stood before the hall clock at which an op of the current tread wrote it (R101): the register, the clock,
endpoint, address, buffer, data area. -/
structure PtrWas where
  ptr : Nat
  clock : Nat
  endp : Nat
  addr : Nat
  buf : Option Nat
  span : Nat × Nat
deriving DecidableEq, Repr

/-- An ALLOC whose result is to take effect (R119): the pointer, the instant, the buffer ID and its data area. -/
structure Alloc where
  ptr : Nat
  due : Nat
  stack : Nat
  result : Option (Nat × Nat × Nat)
deriving DecidableEq, Repr

/-- A HAND that waits for earlier moves (R119): the moves it waits for, the pointer, its buffer, HX. -/
structure Hand where
  moves : List Nat
  ptr : Nat
  buffer : Nat
  hx : Nat
deriving DecidableEq, Repr

/-- One hall's tread sequencer beyond its registers (R98, R101, R130): the ops of the current tread that have not
issued (M, P, E, C; 0 for none), the tread and its instant, the instant until which some op occupies a block (R49),
the windows, the pointers as they stood before the tread's writes, the open table window, the data areas of buffer pointers, and ALLOCs and HANDs
under way. issues counts the OPEN issues of each
class in the flight (R78); touched is the last tread boundary at which an access to the hall's window was served (R49). -/
structure SeqSt where
  ops : List Nat := []
  tread : Nat := 0
  start : Nat := 0
  busy : Nat := 0
  win : Win := {}
  former : List PtrWas := []
  table : Option (Nat × Nat × Nat × Nat) := none
  spans : Tbl (Nat × Nat) := []
  allocs : List Alloc := []
  hands : List Hand := []
  issues : Tbl Nat := []
  touched : Option Nat := none
deriving DecidableEq, Repr

/-! ### Gallery and Atrium (chapter 5) -/

/-- A move under way (R140, R141): hall is physical; far is the physical hall of an alcove, lane or flow endpoint; data
holds the octets on their way; sent counts flits delivered and beats those done; used is how much of a record endpoint's
data has been taken into records; dead: the rest of its records is discarded. base, clock and rate give the clocks at which its flits are written: the
start of its tread, the clock of flit 0, and the clocks in a tread. -/
structure Move where
  id : Nat
  base : Nat
  clock : Nat
  rate : Nat
  ring : Nat
  hall : Nat
  pull : Bool
  endp : Nat
  far : Nat
  addr : Nat
  laddr : Nat
  flits : Nat
  ptr : Nat
  data : Bytes
  sent : Nat
  beats : Nat
  used : Nat
  dead : Bool
  bad : List Nat
  opened : Bool
  frames : List TxFrame
deriving DecidableEq, Repr

/-- The Gallery and the Atrium: moves under way, the last refresh start of each channel (key 16 times stack plus
channel), the last departure of a planned flit of each host port in each direction, in 880ths of a tick (R145). -/
structure GalSt where
  moves : List Move := []
  nextMove : Nat := 1
  refreshed : Tbl Nat := []
  hostIn : Tbl Nat := []
  hostOut : Tbl Nat := []
deriving DecidableEq, Repr


/-! ### Reflex cores (chapter 6) -/

/-- An active hardware loop (R170): iterations left, the body's first instruction, its continuation. -/
structure RLoop where
  left : Nat
  first : Nat
  stop : Nat
deriving DecidableEq, Repr

/-- A commit-buffer entry (R171, R176, R178). -/
inductive CommitEntry where
  | store (addr : Nat) (octets : Bytes)
  | sched (off span base act time width : Nat)
  | cancel (off span base : Nat)
deriving DecidableEq, Repr

/-- One reflex core (R163): w1 to w31 (absent: 0), the accumulator, the loop stack, scratch, the commit buffer; when it was
dispatched (tread start, issue clock, tread), its clocks so far, its budget in clocks and the clocks per tread at its
hall's grade; the index of the instruction that starts next; and the flight in which an abort of it was last logged (R184). -/
structure RCore where
  w : Tbl Word := []
  acc : Int := 0
  loops : List RLoop := []
  scratch : List Host.Cell := []
  commit : List CommitEntry := []
  start : Nat := 0
  issue : Nat := 0
  tread : Nat := 0
  clock : Nat := 0
  budget : Nat := 0
  rate : Nat := 128
  pc : Nat := 0
  logged : Option Nat := none
deriving DecidableEq, Repr


/-! ### Buffer pools (chapter 12) -/

/-- A pool region (R322, R323): location 0 alcove, 1 Atrium stack, 2 host memory, and which; next is the
lowest index that neither an allocation nor the stock has taken, used the lowest never allocated (R326); held counts the buffers that each owner holds in it
(R328). -/
structure Region where
  cls : Nat
  loc : Nat
  inst : Nat
  base : Nat
  count : Nat
  first : Nat
  next : Nat
  used : Nat
  allocated : Nat
  held : Tbl Nat := []
deriving DecidableEq, Repr

/-- The stock and the in-band list of a pair of class and location (R326, R327), the next to serve first; broken: the list has been abandoned, and cut: a
region has been removed since (R331). -/
structure PoolPair where
  stock : List Nat := []
  head : Option Nat := none
  listed : Nat := 0
  broken : Bool := false
  cut : Bool := false
deriving DecidableEq, Repr

/-- A buffer owner (R330, R332, R334). buckets holds, per bucket period, the buffers allocated in it that are live. -/
structure BufOwner where
  fn : Nat
  ceil : List Nat
  staged : Option (List Nat × Nat)
  ageLimit : Nat
  closing : Option AdminCmd
  counts : List Nat
  buckets : Tbl Nat
  old : Nat
  oldFlight : Nat
  alarm : Bool
deriving DecidableEq, Repr

/-- The buffer pool manager. The device owner, index 0, is present from reset (R332); hostHeaders is what the manager
has last written to the header lines of host regions (R325), at 2^64 times the port plus the address; logged holds the
owners whose first bad release of the flight has been logged (R331). -/
structure BpmSt where
  regions : Tbl Region := []
  pairs : Tbl PoolPair := []
  owners : Tbl BufOwner := [(0, { fn := 8192, ceil := [0, 0, 0, 0, 0, 0, 0, 0], staged := none, ageLimit := 0, closing := none, counts := [0, 0, 0, 0, 0, 0, 0, 0], buckets := [], old := 0, oldFlight := 0, alarm := false })]
  span : Nat := 4
  alarms : List Nat := []
  hostHeaders : List Host.Cell := []
  logged : List Nat := []
deriving DecidableEq, Repr

/-! ### DMA engines (chapter 13) -/

/-- A fetched descriptor (R344 to R349). sg are the data entries fetched of its list, sgNext the address of the next one, sgCount
those followed; since when it was fetched; asked the octets requested from a host, got what has arrived of them by offset; moved
the octets taken into bursts, landed those delivered; crc the running CRC, farCrc the CRC octets read; stop: nothing beyond moves; readyAt is
when it became ready (R344). -/
structure DmaDesc where
  id : Nat
  idx : Nat
  addr : Nat
  bytes : Bytes
  fn : Nat
  since : Nat
  sg : List (Nat × Nat) := []
  sgNext : Option Nat := none
  sgCount : Nat := 0
  asked : Nat := 0
  got : List (Nat × Bytes) := []
  moved : Nat := 0
  landed : Nat := 0
  crc : Nat := 0
  farCrc : Bytes := []
  stop : Option Nat := none
  status : Nat := 0
  detail : Nat := 0
  readyAt : Option Nat := none
deriving DecidableEq, Repr

/-- A channel of a hall: the next descriptor of its chain, whether the chain has ended, the link-only descriptors in a row, and the
descriptors it holds, in source order. -/
structure DmaCh where
  next : Nat := 0
  atEnd : Bool := false
  links : Nat := 0
  descs : List DmaDesc := []
deriving DecidableEq, Repr

/-- A 64-octet unit of a burst (R342, R345). kind: 0 data of a descriptor of a channel, 1 a read request for it, 2 a part of what the hall
posts, 3 a request or 4 data of another read of the hall; desc numbers what it belongs to. -/
structure DmaUnit where
  kind : Nat
  ch : Nat
  desc : Nat
  off : Nat
  len : Nat
  data : Bytes
  bad : Bool
deriving DecidableEq, Repr

/-- A burst under way (R117, R145): its flits, of which those beyond its units are idle. port is its host port; first is the instant at which
its first flit, or its command, reaches that port, or at which a burst to another end has reached it; arrived and sent count flits, drop are those discarded at a full
staging queue; last is the departure of the last flit sent, in 880ths of a tick. -/
structure Burst where
  id : Nat
  hall : Nat
  ch : Nat
  port : Option Nat
  toward : Bool
  units : List DmaUnit
  flits : Nat
  first : Nat
  arrived : Nat
  sent : Nat
  drop : List Nat
  last : Nat
deriving DecidableEq, Repr

/-- A best-effort read that a hall makes through its carriers beside QUEUE data (R341, R350): what it is for (kind: 0 an entry of a ring, 1 a chain
descriptor, 2 entries of a scatter-gather list, 3 a frame to send, 4 a cipher job's source, 5 data of a storage command; key and arg name it), its pieces, and the octets asked for, arrived at the port,
taken into bursts, and brought into the hall; again are requests that were discarded since they were asked for, bad is whether a flit of it carried a poison mark. -/
structure HallRead where
  id : Nat
  hall : Nat
  kind : Nat
  key : Nat
  arg : Nat
  fn : Nat
  pieces : List (Nat × Nat)
  asked : Nat := 0
  here : Nat := 0
  taken : Nat := 0
  carried : Nat := 0
  again : List (Nat × Nat) := []
  bad : Bool := false
deriving DecidableEq, Repr

/-- The read that stops an engine (R356): kind, port, channel, function, address. -/
structure DmaErr where
  kind : Nat
  port : Nat
  ch : Nat
  fn : Nat
  addr : Nat
deriving DecidableEq, Repr

/-- The DMA engines: channels by hall and number, bursts in issue order, staged DMA_CH_CFG writes by logical hall and channel,
errors that have been reported and not yet stopped their hall's engine; reads are the halls' other best-effort reads, oldest first; conf keeps the configuration of logical halls that no hall runs, by 2^24 times
the logical hall plus the register's offset in a window. -/
structure DmaSt where
  chans : Tbl DmaCh := []
  bursts : List Burst := []
  nextId : Nat := 1
  cfgNew : Tbl Word := []
  errs : Tbl DmaErr := []
  reads : List HallRead := []
  conf : Tbl Word := []
deriving DecidableEq, Repr


/-! ### Work queues, completion queues, admin commands (chapter 14) and interrupts (chapter 18) -/

/-- The states of an SQ, RQ or AQ (R381). -/
inductive QState where
  | active | paused | haltedEpoch | error | destroying
deriving DecidableEq, Repr

/-- A fetched descriptor that may be used (R366, R367). -/
structure Desc where
  idx : Nat
  cookie : Nat
  opcode : Nat
  batchEnd : Bool
  bytes : Bytes
deriving DecidableEq, Repr

/-- What a finished descriptor will say in its record. -/
structure DoneRec where
  cookie : Nat
  batchEnd : Bool
  status : Nat
  detail : Nat
  opspec : Nat
  bytes : Nat
  info : Nat
  low : Nat
deriving DecidableEq, Repr

/-- An SQ, RQ or AQ (R360 to R364, R374, R375, R381). hall is a logical hall, 0xFF the duty hall, 0xFE none;
cq is the key of its CQ in the CQ table; wm is the completion watermark;
finished are descriptors whose record waits for an earlier one's (R373). -/
structure Queue where
  present : Bool := false
  isRq : Bool := false
  kind : Nat := 0
  batch : Bool := false
  stopOnErr : Bool := false
  sizeLog2 : Nat := 4
  hall : Nat := 0xFE
  ch : Nat := 0
  cq : Nat := 0
  base : Nat := 0
  vport : Nat := 0
  owner : Nat := 0
  loc : Nat := 0
  locIdx : Nat := 0
  fn : Nat := 0
  p : Nat := 0
  c : Nat := 0
  state : QState := .active
  detail : Nat := 0
  wm : Nat := 0
  batchSum : Nat := 0
  ready : List Desc := []
  inProg : List Nat := []
  finished : List (Nat × DoneRec) := []
  staleSince : Option Nat := none
  destroyCmd : Option AdminCmd := none
deriving DecidableEq, Repr

/-- A completion record before its trailer's phase is known (R371, R372). low is the trailer's bits 29..0; mark is the queue whose
completion watermark the record moves once it is written, with the new watermark (R375). -/
structure CRec where
  body : Bytes
  event : Bool
  low : Nat
  mark : Option (Nat × Nat) := none
deriving DecidableEq, Repr

/-- A staged record: the hall whose staging area holds it (18: the Nave) and the queue that it completes. -/
structure Staged where
  hall : Nat
  crec : CRec
deriving DecidableEq, Repr

/-- A CQ or ACQ with its moderation (R363, R364, R379, R380, R476). state: 0 ACTIVE, 1 FULL, 3 ERROR; posted counts the records that hold a
place while they wait for a carrier (R342). -/
structure Cq where
  present : Bool := false
  fn : Nat := 0
  base : Nat := 0
  sizeLog2 : Nat := 4
  vector : Nat := 0
  p : Nat := 0
  c : Nat := 0
  state : Nat := 0
  detail : Nat := 0
  reserved : Nat := 0
  staged : List Staged := []
  stallStart : Option Nat := none
  posted : Nat := 0
  irqEn : Bool := true
  holdUs : Nat := 0
  holdCnt : Nat := 0
  holding : Bool := false
  holdStart : Nat := 0
  holdSeen : Nat := 0
deriving DecidableEq, Repr

/-- An asynchronous event (R372, R390): the function, its source, and the 28-octet body. -/
structure Event where
  fn : Nat
  source : Nat
  body : Bytes
  hall : Option Nat
deriving DecidableEq, Repr

/-- Events waiting and events dropped for one function (R390, R580). -/
structure EvWait where
  waiting : List Event := []
  dropped : Nat := 0
  bits : Nat := 0
deriving DecidableEq, Repr

/-- A frame or hand-off that waits for an RQ (R370): data octets or a pool buffer, its length, what the record says. -/
structure Delivery where
  queue : Nat
  buffer : Option Nat
  data : Bytes
  len : Nat
  mark : Nat
  low : Nat
  stamp : Nat
deriving DecidableEq, Repr

/-- What a hall sends to a host in carriers (R341, R342): a completion record for a CQ, a write-back word, or data for a function's memory. -/
inductive Load where
  | record (cq : Nat) (crec : CRec)
  | word (fn addr : Nat) (octets : Bytes)
  | data (fn addr : Nat) (octets : Bytes)
deriving DecidableEq, Repr

/-- One thing that waits in a hall for its carriers: what it is, since when, the service class of data, the octets of it taken into bursts (again are the
places of units that were discarded since), the octets that have left the port, and the descriptor whose record follows the data (queue and index, R355, R373). -/
structure Post where
  id : Nat
  load : Load
  since : Nat
  cls : Nat
  taken : Nat
  again : List Nat
  gone : Nat
  own : Option (Nat × Nat)
deriving DecidableEq, Repr

/-- Rings, events, deliveries and admin commands; posts are what waits in halls for carriers, by 8 times the hall plus the port, nextPost their
numbers. -/
structure WqSt where
  queues : Tbl Queue := []
  cqs : Tbl Cq := []
  gens : Tbl Nat := []
  pages : Tbl (Nat × Bool) := []
  raised : List Event := []
  evWait : Tbl EvWait := []
  delivery : Tbl (List Delivery) := []
  inflight : List AdminCmd := []
  gone : List (Nat × Nat) := []
  muted : List AdminCmd := []
  dueIrqs : List (Nat × Nat) := []
  posts : Tbl (List Post) := []
  nextPost : Nat := 0
deriving DecidableEq, Repr

/-- A lull timer of one group (R471): when it expires, and the sources already counted as held by it. -/
structure Lull where
  expiry : Option Nat := none
  counted : List Nat := []
deriving DecidableEq, Repr

/-- What delivery writes in a management core (R468), and its active stack, top first, each source with the priority
it was delivered at (R469). -/
structure MCore where
  stack : List (Nat × Nat) := []
  mepc : Nat := 0
  mcause : Nat := 0
  sepc : Nat := 0
  scause : Nat := 0
  fetch : Nat := 0
deriving DecidableEq, Repr

structure SicSt where
  edge : List Nat := []
  cores : Tbl MCore := []
  lulls : Tbl Lull := []
deriving DecidableEq, Repr


/-! ### Key store and cipher engines (chapter 11) -/

/-- What a key slot held before a rewrite, for the operations that started under it (R301): which load it was, its attributes, its counter and the
numbers seen. -/
structure OldKey where
  load : Nat
  attr : Bytes
  counter : Nat
  seen : List Nat
deriving DecidableEq, Repr

/-- A key slot (R297 to R310). state: 0 EMPTY, 1 LOADING, 2 READY, 3 EXHAUSTED; it is REVOKING from eraseAt on. attr is
the attribute block of R299, key the unwrapped material. counter is the next value of a transmitting slot, and the
lowest acceptable number (MACsec) or the highest accepted plus 1 (ESP) of a receiving one, whose window is seen. load counts the commits
to the slot, former what it held before those that operations in flight outlast; users are the halls in which the key has been used. firstFlight is the flight of its first cyclic use, useHall and useSid where its last
one was (R216). -/
structure KeySlot where
  state : Nat := 0
  attr : Bytes := []
  key : Bytes := []
  counter : Nat := 0
  seen : List Nat := []
  loader : Nat := 0
  eraseAt : Option Nat := none
  eraseCmd : Option AdminCmd := none
  exhaustAt : Option Nat := none
  softDone : Bool := false
  firstFlight : Option Nat := none
  load : Nat := 0
  former : List OldKey := []
  users : List Nat := []
  useHall : Nat := 0
  useSid : Nat := 0
deriving DecidableEq, Repr

/-- An unwrap under way (R300): its target, a key slot or 65536 plus a KEK, the command, the attributes, whether the slot was
EMPTY, whether the octets are a padded wrap (R296), and what the unwrap gives. -/
structure KeyLoad where
  target : Nat
  cmd : AdminCmd
  attr : Bytes
  fresh : Bool
  padded : Bool
  material : Option Bytes
deriving DecidableEq, Repr

structure KeySt where
  slots : Tbl KeySlot := []
  keks : Tbl Bytes := []
  loads : List KeyLoad := []
deriving DecidableEq, Repr

/-- A job of a cipher engine (R314 to R318): what posted it (0 a queue, 1 storage offload), its queue and descriptor, its
fields (key is the handle), how much of its text has started and released, what of its source has been read, whether some
of it was poisoned or failed to be read, and how it will end. -/
structure CphJob where
  id : Nat
  src : Nat
  queue : Nat
  desc : Desc
  fn : Nat
  key : Nat
  mode : Nat
  decrypt : Bool
  srcHost : Bool
  dstHost : Bool
  unit : Nat
  aadLen : Nat
  len : Nat
  from_ : Nat
  to_ : Nat
  aad : Nat
  iv : Bytes
  started : Nat
  released : Nat
  text : Bytes
  value : Nat
  bad : Bool
  failed : Option Nat
deriving DecidableEq, Repr

/-- An inline frame (R311): the frame without FCS, its source, the CLASS, MARK and TARGET of its action, its arrival stamp, when it joined the
queue, what ends with it. -/
structure InlineFrame where
  octets : Bytes
  srcKind : Nat
  srcIdx : Nat
  orig : Nat
  cls : Nat
  mark : Nat
  target : Nat
  stamp : Nat
  joined : Nat
  send : Option SendRef
  drops : List Nat
deriving DecidableEq, Repr

/-- An operation that has started and not released (R305, R306): the slot with its key, attributes and load at the
start, the value it was assigned or the number that it recovered, the release instant, and its job (with the offset and length of its text) or frame. -/
structure CphOp where
  slot : Nat
  key : Bytes
  attr : Bytes
  load : Nat
  value : Nat
  start : Nat
  due : Nat
  job : Option (Nat × Nat × Nat)
  frame : Option InlineFrame
deriving DecidableEq, Repr

/-- A CIPHER window (R116, R305): its source, the start of the tread it issued in, its offset and length in clocks, the hall's
clocks per tread, the block slots behind the next operation, and those among them that no operation used. -/
structure CphWin where
  src : Nat
  tread : Nat
  off : Nat
  len : Nat
  rate : Nat
  used : Nat
  idle : Nat
deriving DecidableEq, Repr

/-- A hall's cipher engine: its queues, the open window, operations in flight. -/
structure CphSt where
  inl : List InlineFrame := []
  jobs : List CphJob := []
  nextJob : Nat := 1
  window : Option CphWin := none
  ops : List CphOp := []
deriving DecidableEq, Repr


/-! ### Table windows (R120, R257, R258) -/

/-- A table command in a hall's table queue: the command, its buffer's octets, how many of its clocks are done,
what it has read, and the status that another hall has given it. -/
structure TblJob where
  cmd : AdminCmd
  buf : Bytes
  pos : Nat
  acc : Bytes
  st : Nat := 0
deriving DecidableEq, Repr

/-! ### Cyclic exchange (chapter 7) -/

/-- A channel (R196 to R200). phase: 1 BIND_PENDING, 2 bound, 7 UNBIND_PENDING; newKeys is what CHANNEL_SET_KEY staged:
TX_KEY, KEY_A, KEY_B; shown is the state that a twin pool's copies show (R212). -/
structure Chan where
  sid : Nat
  pool : Nat
  slot : Nat
  hold : Bool
  lost : Nat
  pcp : Nat
  keyA : Nat
  keyB : Nat
  txKey : Nat
  newKeys : Option (Nat × Nat × Nat)
  phase : Nat
  shown : Nat := 0
deriving DecidableEq, Repr

/-- A channel's slot in one physical hall (R208 to R210). state is the code of R210; port the port that R197 checked, armed
whether it starts at the next landing; blocked: its emissions and DATA_IN are refused until it is rebound (R193, R197);
wait: the entry was relearned and emissions return at the next landing (R194); quiet: LEFT, and a landing has passed. -/
structure ChanHall where
  state : Nat := 1
  port : Option Nat := none
  armed : Bool := false
  blocked : Bool := false
  wait : Bool := false
  age : Nat := 0
  rxMap : Nat := 0
  late : Bool := false
  auth : Bool := false
  stn : Nat := 0
  bye : Bool := false
  hello : Bool := false
  quiet : Bool := false
  rejoin : Bool := false
  lateFlight : Option Nat := none
deriving DecidableEq, Repr

/-- An open cyclic transmit window (R123, R124): emission 0 is at base, next is the next one. -/
structure CtxWin where
  hall : Nat
  pool : Nat
  first : Nat
  count : Nat
  pace : Nat
  base : Nat
  flight : Nat
  next : Nat
deriving DecidableEq, Repr

/-- The last receive window of a pool in a hall (R125, R204): the flight it issued in, its start and its deadline instant, and
whether that deadline has been dealt with; past: another plan has started since it issued (R203). -/
structure CrxWin where
  flight : Nat
  start : Nat
  deadline : Nat
  done : Bool
  past : Bool := false
deriving DecidableEq, Repr

/-- Cyclic exchange. dirs is the station directory by hall and SID; chans by channel index; halls by hall and channel;
crx by hall and pool; sent counts a hall's notifications of the flight, and overflow holds the halls that owe a
NOTIFY_OVERFLOW with the flight of the loss; conflicts are the SIDs already reported in the flight. -/
structure CycSt where
  dirs : Tbl Bytes := []
  chans : Tbl Chan := []
  halls : Tbl ChanHall := []
  wins : List CtxWin := []
  crx : Tbl CrxWin := []
  sent : Tbl Nat := []
  overflow : Tbl Nat := []
  conflicts : List Nat := []
deriving DecidableEq, Repr


/-! ### Classification, forwarding, open issue (chapters 9 and 10) -/

/-- A fragment-table entry (R261): key, action, the datagram length once known, data octets seen, expiry. -/
structure FragEntry where
  key : Bytes
  action : Nat
  end_ : Option Nat
  sum : Nat
  expiry : Nat
deriving DecidableEq, Repr

/-- A VALID bridge entry (R272 to R274): key, destination word, STATE word. -/
structure Bridge where
  bd : Nat
  mac : Bytes
  dest : Nat
  state : Nat
deriving DecidableEq, Repr

/-- Work that waits for an OPEN window (R115): an ETH send or a decrypted frame, without FCS. orig is the source kind before
decryption, rxKey the receive slot that decrypted it, fn the function whose allowance it draws on. -/
structure OpenWork where
  octets : Bytes
  srcKind : Nat
  srcIdx : Nat
  orig : Nat
  cls : Nat
  fn : Option Nat
  rxKey : Option Nat
  send : Option SendRef
  drops : List Nat
deriving DecidableEq, Repr

/-- A frame in forwarding (R268): its octets without FCS, its source, what its action and its parse hand on. low is the
trailer of a receive record, hash what R287 spreads over UDP source ports; bd is its bridge domain. -/
structure PFrame where
  octets : Bytes
  srcKind : Nat
  srcIdx : Nat
  orig : Nat
  stamp : Nat
  mark : Nat
  low : Nat
  hash : Nat
  bd : Option Nat
  decap : Bool
  send : Option SendRef
  drops : List Nat
deriving DecidableEq, Repr

/-- A frame in a replication unit (R280) with the destinations still to be served; shared are the buffers that
every copy holds a reference to (R331). -/
structure ReplJob where
  frame : PFrame
  dests : List Nat
  shared : List Nat
deriving DecidableEq, Repr

/-- An audit walker (R293): whether a block is in progress, which block and entry is next, the running digest, what FWD_AUDIT_FAIL
holds. -/
structure AuditSt where
  active : Bool := false
  block : Nat := 0
  entry : Nat := 0
  raw : Nat := 0xFFFFFFFF
  fails : List (Nat × Nat) := []
deriving DecidableEq, Repr

/-- A source that a hall learns at an instant (R268, R278): its bridge domain, MAC and destination. -/
structure Learning where
  hall : Nat
  due : Nat
  bd : Nat
  mac : Bytes
  dest : Nat
deriving DecidableEq, Repr

/-- The tables of the halls, keyed by hall and index, and the Nave's. bdNew and floodNew are staged writes; renew counts the
sweep visits left in the first pass after F2 (R276); opened is what waits for OPEN windows;
repl the replication units; learns the learning writes still to come. -/
structure FwdSt where
  frags : Tbl FragEntry := []
  tcam : Tbl Bytes := []
  counters : Tbl (Nat × Nat) := []
  bds : Tbl Bytes := []
  floods : Tbl Nat := []
  bdNew : List (AdminCmd × Nat × Bytes) := []
  floodNew : List (AdminCmd × Nat × List Nat) := []
  bridge : Tbl Bridge := []
  vports : Tbl Bytes := []
  tuns : Tbl Bytes := []
  opened : Tbl (List OpenWork) := []
  repl : Tbl (List ReplJob) := []
  audit : Tbl AuditSt := []
  renew : Tbl Nat := []
  learns : List Learning := []
deriving DecidableEq, Repr

/-! ### Host endpoint (chapter 15) and virtual functions (chapter 16) -/

/-- One MSI-X table entry (R408): address, data, vector control (bit 0 is Mask; it is masked at reset, as the PCI
Express base standard that R408 names has it, log entry 8). -/
structure Msix where
  addr : Nat := 0
  data : Nat := 0
  ctrl : Nat := 1
deriving DecidableEq, Repr

/-- A drain under R411 or R436: landings still to come before its deadline, and the instant that stands for it with
no plan active. -/
structure Drain where
  landings : Nat
  deadline : Nat
deriving DecidableEq, Repr

/-- A dirty-page log (R438 to R441). bits are the pages whose bit is set in the active map; waiting are host writes
that a FAILED log holds back. -/
structure VfLog where
  issuer : Nat
  base : Nat
  pages : Nat
  map : Nat
  failed : Bool
  bits : List Nat
  count : Nat
  waiting : List (Nat × Bytes)
deriving DecidableEq, Repr

/-- What the endpoint and the Nave keep per function. -/
structure FnSt where
  msixEn : Bool := false
  fnMask : Bool := false
  bme : Bool := false
  relaxed : Bool := true
  pmeEn : Bool := false
  pmeStatus : Bool := false
  msix : Tbl Msix := []
  pba : List Nat := []
  gaps : Tbl Nat := []
  drain : Option Drain := none
  vstate : Nat := 0
  quiesce : Option (AdminCmd × Drain) := none
  discarded : Nat := 0
  log : Option VfLog := none
  lines : List Nat := []
  admitWait : Nat := 0
  logBits : Nat := 0
  logLines : Nat := 0
deriving DecidableEq, Repr

/-- An outstanding non-posted request of a host port (R415 to R419): its tag, function and address, what it serves,
and when it was sent. -/
structure HostReq where
  tag : Nat
  fn : Nat
  addr : Nat
  len : Nat
  purpose : Nat
  arg : Nat
  arg2 : Nat
  sent : Nat
deriving DecidableEq, Repr

/-- What a host port keeps beyond its registers: PERST#, the capability settings that host software writes in the
PF's configuration space (payload and request sizes, tags, ASPM, completion timeout, AER status, masks and severities, the error
reporting enables), requests outstanding, the idle clock. -/
structure HpSt where
  perst : Bool := true
  mps : Nat := 0
  mrrs : Nat := 2
  tags10 : Bool := false
  aspm : Nat := 0
  ctoValue : Nat := 0
  reqs : List HostReq := []
  nextTag : Nat := 0
  late : List Nat := []
  idleSince : Nat := 0
  aerUncorr : Nat := 0
  aerCorr : Nat := 0
  aerMask : Nat := 0
  aerSev : Nat := 0x462010
  aerCorrMask : Nat := 0x6000
  errEn : Nat := 0
deriving DecidableEq, Repr

structure EpSt where
  fns : Tbl FnSt := []
  ports : Tbl HpSt := []
  mapStored : Tbl Word := []
  tlps : Tbl (List Out) := []
deriving DecidableEq, Repr

structure VfnSt where
  shares : Tbl Bytes := []
  staged : Tbl (Bytes × List AdminCmd) := []
  used : Tbl Nat := []
deriving DecidableEq, Repr

/-! ### Storage offload (chapter 17) -/

/-- A command with a CID (R457 to R461). r2ts are the R2Ts not yet answered in full: transfer tag, next offset, octets left, whether an
XTS job has been posted for it, and the octets that it gave. moved counts data octets; rx is what a decrypting command has
received, got how much of it, dec how many octets before it have gone into XTS jobs, hold those that the job under way has taken; resp is the completion: CQE dwords 0 and 1, INFO; waits: an XTS job of it is under way. -/
structure StoCmd where
  cid : Nat
  desc : Desc
  r2ts : List (Nat × Nat × Nat × Bool × Bytes) := []
  moved : Nat := 0
  rx : Bytes := []
  got : Nat := 0
  dec : Nat := 0
  hold : Nat := 0
  digest : Bool := false
  status : Nat := 0
  resp : Option (Nat × Nat) := none
  waits : Bool := false
deriving DecidableEq, Repr

/-- C2HData whose data is arriving (R459): its command, the next offset, what is left, the data's CRC, the digest octets to come, LAST
and SUCCESS. -/
structure StoData where
  cid : Nat
  off : Nat
  left : Nat
  crc : Nat
  digest : Nat
  last : Bool
  success : Bool
deriving DecidableEq, Repr

/-- A connection (R447 to R452): its record, state and reason, the commands that wait for it, and TCP. tcp: 0 the SYN is sent, 1 synchronised,
2 our FIN is sent, 3 closed. una is the oldest unacknowledged sequence number; outq the stream from there on (the SYN and FIN apart),
sent how much of it has been sent, high how much ever was; rcv the next number expected. The rest is as its RFC names it; times are
instants, srtt, rttvar and rto in microseconds. asks are the CIDs whose R2Ts wait, oldest first (R458). -/
structure StoConn where
  record : Bytes
  fn : Nat := 0
  sq : Nat := 0
  state : Nat := 0
  reason : Nat := 0
  createCmd : Option AdminCmd := none
  closeCmd : Option AdminCmd := none
  tcp : Nat := 0
  iss : Nat := 0
  una : Nat := 0
  outq : Bytes := []
  sent : Nat := 0
  high : Nat := 0
  rcv : Nat := 0
  wnd : Nat := 0
  peerMss : Nat := 536
  peerScale : Nat := 0
  scale : Nat := 0
  ts : Bool := false
  tsRecent : Nat := 0
  cwnd : Nat := 0
  ssthresh : Nat := 1073741824
  dups : Nat := 0
  recovering : Bool := false
  srtt : Nat := 0
  rttvar : Nat := 0
  rto : Nat := 1000000
  rtoAt : Option Nat := none
  timed : Option (Nat × Nat) := none
  retries : Nat := 0
  retrans : Nat := 0
  needSyn : Bool := false
  needAck : Bool := false
  needRst : Bool := false
  needFin : Bool := false
  finSeen : Bool := false
  rexmit : Bool := false
  full : Nat := 0
  ackAt : Option Nat := none
  rx : Bytes := []
  data : Option StoData := none
  cpda : Nat := 0
  hdgst : Bool := false
  ddgst : Bool := false
  maxH2c : Nat := 0
  waiting : List Desc := []
  cmds : List StoCmd := []
  asks : List Nat := []
deriving DecidableEq, Repr

/-- An XTS job of storage that has ended (R458, R459): connection, CID, offset in the command's data, status, octets. -/
structure StoXts where
  conn : Nat
  cid : Nat
  off : Nat
  status : Nat
  octets : Bytes
deriving DecidableEq, Repr

/-- Storage offload: connections by index, the TCP segments that a hall has taken for each, oldest first, and XTS jobs ended. -/
structure StoSt where
  conns : Tbl StoConn := []
  rx : Tbl (List Bytes) := []
  xts : List StoXts := []
deriving DecidableEq, Repr

/-! ### Bring-up and ownership (chapter 19) -/

/-- What stands in a plan-key slot (R488). -/
structure PlanKey where
  key : Bytes
  revoked : Bool
deriving DecidableEq, Repr

/-- The boot, the ownership arbiter's hidden part, and the trust anchors. The arbiter's visible part (owner, epoch,
pending change, lapse) stands in OWN_STATE and OWN_EPOCH, the boot's in OWN_BOOT_STATUS and OWN_FW_SVN. -/
structure OwnSt where
  leaseStart : Nat := 0
  changeCmd : Option AdminCmd := none
  clearCmd : Option AdminCmd := none
  halfHash : Tbl Bytes := []
  planKeys : Tbl PlanKey := []
  kek0 : Option Bytes := none
  imageA : Bytes := []
  imageB : Bytes := []
  entry : Nat := 0
  powered : Bool := false
  restoreEvent : Option Nat := none
  planWasRunning : Bool := false
deriving DecidableEq, Repr

/-! ### Faults and the Almanac (chapter 20) -/

/-- An Almanac entry that waits to be written (R521): code, scope, hall, source kind and index, the sampled Device
Time and flight, the payload. -/
structure AlmEntry where
  code : Nat
  scope : Nat
  hall : Nat
  srcKind : Nat
  srcIdx : Nat
  time : Nat
  flight : Nat
  payload : Bytes
deriving DecidableEq, Repr

/-- The recovery of a faulted hall (R514): route 0 reset in place, 1 remap, 2 HALTED. -/
structure Recovery where
  route : Nat
  cause : Nat
  since : Nat
  logical : Option Nat
  spare : Option Nat
  resetDone : Bool
  minTreads : Nat
  cmd : Option AdminCmd
deriving DecidableEq, Repr

/-- The last fault that affected a function (R511, R526). -/
structure FnFault where
  epoch : Nat := 0
  scope : Nat := 0
  cause : Nat := 0
  hall : Nat := 0xFF
  seq : Nat := 0
  flight : Nat := 0
deriving DecidableEq, Repr

structure FltSt where
  times : Tbl (List Nat) := []
  recov : Tbl (Option Recovery) := []
  halfRecov : Tbl (Option Recovery) := []
  lastFn : Tbl FnFault := []
  ring : Tbl Bytes := []
  almQueue : List AlmEntry := []
  almCounts : Tbl Nat := []
  almPeriod : Nat := 0
  freezeLeft : Option Nat := none
  wdogKick : Nat := 0
  wdogCore : Nat := 0
  laneReset : Tbl (Option Nat) := []
  deviceFault : Option Nat := none
  faultCause : Nat := 0
  poisonAlcove : List Nat := []
  poisonAtrium : List Nat := []
deriving DecidableEq, Repr


/-! ### Ageing and margins (chapter 21) -/

/-- What the non-volatile store and the firmware keep of a hall: the certified grade with and without reserve (R536: 0 to 4, 7 none;
absent before the first pass of its life), passes in a row with 60 ps at each grade, the largest T_WORST of each day in 1/2000 ps
(R543), the grade whose front has fired (R544), the reserve in use in steps of 2.5 mV (R535), the voltage set point in half mV. -/
structure HallAge where
  kept : Option Nat := none
  keptRes : Option Nat := none
  streak : List Nat := [0, 0, 0, 0, 0]
  streakRes : List Nat := [0, 0, 0, 0, 0]
  days : List (Nat × Int) := []
  fired : Option Nat := none
  reserve : Nat := 0
  reserveSec : Nat := 0
  setHalf : Nat := 0
deriving DecidableEq, Repr

/-- The Barometer: per hall, the instant of the last pass (or of power-up), passes since power-up. -/
structure BaroSt where
  halls : Tbl HallAge := []
  passAt : Nat := 0
  passes : Nat := 0
deriving DecidableEq, Repr


/-! ### Package (chapter 22) -/

/-- Supply, heat and boundary scan (R554 to R567). lid and tj are the last samples, in 1/16 of a degree; the armed flags say which latches can
set; tripSince and coolSince are since when a trip threshold holds and since when the lid is 10 degrees below its limit; tripped is from a
thermal trip to the end of its hold; ocOff holds the bays whose supply is switched off, with the instant; jtag is the instruction that the
test access port holds (0 IDCODE, 1 EXTEST, 2 SAMPLE/PRELOAD, 3 CLAMP, 4 HIGHZ, 5 BYPASS), scan the boundary register's preloaded value,
scanned whether an instruction that takes the lands has been in effect since Test-Logic-Reset. -/
structure PkgSt where
  lid : Int := 0
  tj : Int := 0
  warnArmed : Bool := true
  limitArmed : Bool := true
  hotArmed : Bool := true
  uvArmed : Bool := true
  alert : Bool := false
  tripSince : Option Nat := none
  coolSince : Option Nat := none
  tripped : Bool := false
  hold : Bool := false
  ocOff : Tbl Nat := []
  jtag : Nat := 0
  scan : Nat := 0
  scanned : Bool := false
deriving DecidableEq, Repr



/-- The state of the part. regs is the register file by offset (absent: at its reset value); latched holds, per
function and low word, what R6 keeps of a 64-bit pair; wide the adapter-wide values in force (R246; absent: as at reset); now is Device Time in units of 2^-16 ns (R32);
hallq holds the register accesses that wait for a tread boundary (R20); freeCtr counts the free values drawn (the model's own field, log entry 4); out is what has left the part (the model's
own field, log entry 3); pending is the queue of commands that wait. -/
structure State where
  regs : Tbl Word := []
  latched : Tbl Word := []
  wide : Tbl Word := []
  now : Nat := 0
  freeCtr : Nat := 0
  tb : TimeSt := {}
  wq : WqSt := {}
  sic : SicSt := {}
  own : OwnSt := {}
  flt : FltSt := {}
  ep : EpSt := {}
  vfn : VfnSt := {}
  pln : PlnSt := {}
  seqs : Tbl SeqSt := []
  gal : GalSt := {}
  stageq : Tbl (List StageRec) := []
  flows : Tbl (Nat × Nat) := []
  alcove : List Host.Cell := []
  atrium : List Host.Cell := []
  bpm : BpmSt := {}
  planBursts : List Nat := []
  ln : LnSt := {}
  lands : Tbl LandSt := []
  cores : Tbl RCore := []
  handoffs : Tbl (Nat × Nat) := []
  handoffPending : List (AdminCmd × Option (Nat × Nat)) := []
  dma : DmaSt := {}
  tblq : Tbl (List TblJob) := []
  cyc : CycSt := {}
  keys : KeySt := {}
  cph : Tbl CphSt := []
  fw : FwdSt := {}
  sto : StoSt := {}
  baro : BaroSt := {}
  pkg : PkgSt := {}
  hallq : List HallAccess := []
  out : List Out := []
  pending : List Instr := []
deriving DecidableEq, Repr

/-- The part when power has been applied and before anything has happened: every register at the reset its field table
gives, every table empty, no plan, no owner, no power good yet (R480, R492). -/
def State.reset : State := {}

end Sys2Proof.Machine
end

