-- ==== Sys2Proof/Machine/Ops.lean ====
section
/-! DEFINITION. The operations every family shares: register fields, Device Time, free values, who may write, handles
and generations, the Almanac's queue, events, completion records, admin completions, and function faults. -/

namespace Sys2Proof.Machine

/-- The answer of a step. -/
abbrev Answer := Host.Outcome State Fault Refusal

/-! ### Register fields (R4, R7) -/

/-- Look up a key of a sparse table. -/
def look {α : Type} : Tbl α → Nat → Option α
  | [], _ => none
  | (k', v) :: t, k => if k' = k then some v else if k < k' then none else look t k

/-- The word that a register's instance holds. -/
def State.word (s : State) (r : Reg) (o : Nat := 0) (i : Nat := 0) : Word :=
  (look s.regs (r.addr o i)).getD (r.reset o i)

/-- Store a register's instance, whole. -/
def State.setWord (s : State) (r : Reg) (v : Word) (o : Nat := 0) (i : Nat := 0) : State :=
  { s with regs := s.regs.put (r.addr o i) v }

/-- A field of a register. -/
def State.fld (s : State) (f : Fld) (o : Nat := 0) (i : Nat := 0) : Nat :=
  bitsOf (s.word f.reg o i).toNat f.hi f.lo

/-- A one-bit field, or whether a wider one is not 0. -/
def State.flag (s : State) (f : Fld) (o : Nat := 0) (i : Nat := 0) : Bool := s.fld f o i != 0

/-- Store a field of a register; the other bits stay. -/
def State.setFld (s : State) (f : Fld) (v : Nat) (o : Nat := 0) (i : Nat := 0) : State :=
  s.setWord f.reg (BitVec.ofNat 32 (putBits (s.word f.reg o i).toNat f.hi f.lo v)) o i

/-- Set a one-bit flag. -/
def State.raise (s : State) (f : Fld) (o : Nat := 0) (i : Nat := 0) : State := s.setFld f 1 o i

/-- Add to a counter field; it wraps at its width. -/
def State.bumpBy (s : State) (f : Fld) (n : Nat) (o : Nat := 0) (i : Nat := 0) : State :=
  s.setFld f (s.fld f o i + n) o i

/-- Count one event in a counter field; it wraps at its width. -/
def State.bump (s : State) (f : Fld) (o : Nat := 0) (i : Nat := 0) : State := s.bumpBy f 1 o i

/-- Count one event in a counter field that saturates. -/
def State.bumpSat (s : State) (f : Fld) (o : Nat := 0) (i : Nat := 0) : State :=
  if s.fld f o i + 1 < 2 ^ (f.hi + 1 - f.lo) then s.bump f o i else s

/-- Add to a 64-bit counter that stands in a low and a high word. -/
def State.bump64 (s : State) (lo hi : Fld) (n : Nat) (o : Nat := 0) (i : Nat := 0) : State :=
  let v := s.fld lo o i + 2 ^ 32 * s.fld hi o i + n
  (s.setFld lo v o i).setFld hi (v / 2 ^ 32) o i

/-- Return the registers of an address range to their reset values (R7). -/
def State.initRange (s : State) (lo hi : Nat) : State :=
  { s with regs := s.regs.filter (fun e => !(decide (lo ≤ e.1) && decide (e.1 < hi))) }

/-! ### Device Time (R32) -/

/-- Ticks of 2^-16 ns in a nanosecond. -/
def nsTicks : Nat := 65536

/-- Ticks in a tread of 100 ns (R25). -/
def treadTicks : Nat := 6553600

/-- Ticks in a second. -/
def secTicks : Nat := 65536000000000

/-- Move Device Time forward to an instant; an instant in the past changes nothing (log entry 2). -/
def State.atTime (s : State) (t : Nat) : State := { s with now := max s.now t }

/-- A wait that may last until an instant has timed out: an event of that very instant still arrives in time (R28). -/
def State.expired (s : State) (t : Nat) : Bool := decide (t < s.now)

/-- Seconds, nanoseconds and fraction of an instant. -/
def secsOf (t : Nat) : Nat := t / secTicks
def nsOf (t : Nat) : Nat := t / nsTicks % 1000000000
def fracOf (t : Nat) : Nat := t % nsTicks

/-- Draw a free value (log entry 4). -/
def State.free (s : State) : Nat := Config.freeValue s.freeCtr
def State.drawn (s : State) : State := { s with freeCtr := s.freeCtr + 1 }

/-- The host port that a packet leaves by. -/
def outPort : Out → Option Nat
  | .hostWrite f _ _ => some (f / 1024)
  | .hostRead f _ _ => some (f / 1024)
  | .msix f _ _ _ => some (f / 1024)
  | .readBytes f _ => some (f / 1024)
  | .tlp p _ _ _ => some p
  | .unsupported p => some p
  | _ => none

/-- Add to what has left the part. -/
def State.leave (s : State) (o : Out) : State := { s with out := s.out ++ [o] }

/-- Hand something on: a packet waits at its host port, in order, for the time that planned flits leave (R146); anything else
leaves at once. -/
def State.emit (s : State) (o : Out) : State :=
  match outPort o with
  | some p => { s with ep := { s.ep with tlps := s.ep.tlps.put p (s.ep.tlps.get [] p ++ [o]) } }
  | none => s.leave o

/-! ### Functions and the owner (R425, R495, R577) -/

/-- The host port of a function, and whether it is that port's PF. -/
def portOf (f : Nat) : Nat := f / 1024
def isPf (f : Nat) : Bool := f % 1024 == 0

/-- A function exists: its port is enabled, and it is the PF, or a VF that VF Enable and NumVFs bring into being. -/
def State.fnExists (s : State) (f : Nat) : Bool :=
  decide (f < 8192) && s.flag Fld.EP_PORT_MAP_EN 0 (portOf f) &&
    (isPf f || (s.flag Fld.VFN_PORT_VF_EN 0 (portOf f) && decide (f % 1024 ≤ s.fld Fld.VFN_PORT_NUM_VFS 0 (portOf f))))

/-- There is an owner. -/
def State.ownerValid (s : State) : Bool := s.flag Fld.OWN_STATE_OWNER_VALID

/-- The owner's PF. -/
def State.ownerFn (s : State) : Nat := 1024 * s.fld Fld.OWN_STATE_OWNER_PORT

/-- A function is the owner's PF. -/
def State.isOwner (s : State) (f : Nat) : Bool := s.ownerValid && f == s.ownerFn

/-- The sender may write what is reserved to the owner: the owner, or management firmware (R497). -/
def State.mayWrite (s : State) : Who → Bool
  | .fn f => s.isOwner f
  | .core _ => true

/-- The PFs of the enabled ports. -/
def State.pfs (s : State) : List Nat :=
  ((List.range 8).filter (fun p => s.flag Fld.EP_PORT_MAP_EN 0 p)).map (· * 1024)

/-- A plan is active: the active slot is RUNNING or STOPPING (R84). -/
def State.planActive (s : State) : Bool := decide (2 ≤ s.fld Fld.PLN_ACTIVE_STATUS_STATE)

/-! ### Handles (R9, R10) -/

/-- The generation that an index of an object type has now; the first is 0x001 (R10). -/
def State.gen (s : State) (ty i : Nat) : Nat := s.wq.gens.get 1 (ty * 65536 + i)

/-- The handle of an object. -/
def State.handle (s : State) (ty i : Nat) : Nat := ty * 2 ^ 28 + s.gen ty i * 2 ^ 16 + i

/-- Advance the generation of an index when its object is destroyed: after 0xFFF comes 0x001 (R10). -/
def State.nextGen (s : State) (ty i : Nat) : State :=
  let g := s.gen ty i
  { s with wq := { s.wq with gens := s.wq.gens.put (ty * 65536 + i) (if g ≥ 0xFFF then 1 else g + 1) } }

/-- The index that a handle of the wanted type names, when its generation is current (R10). -/
def State.resolve (s : State) (ty h : Nat) : Option Nat :=
  let i := h % 65536
  if h / 2 ^ 28 = ty ∧ bitsOf h 27 16 = s.gen ty i then some i else none

/-- The key of a function's own admin ring in the queue and CQ tables (R360). -/
def adminKey (fn : Nat) : Nat := 65536 + fn

/-- The queue or CQ that a handle names for a function: index 0 is the function's own admin ring (R360). -/
def State.ringKey (s : State) (ty h fn : Nat) : Option Nat :=
  if h = ty * 2 ^ 28 + 0x10000 then some (adminKey fn)
  else if h % 65536 = 0 then none else s.resolve ty h

/-! ### The Almanac's write queue (R521, R522) -/

/-- Flight length of the active plan (R40). -/
def State.flightLen (s : State) : Nat := s.fld Fld.TB_FLIGHT_LEN_L

/-- The flight origin that the running plan read at its start (R41). -/
def State.origin (s : State) : Nat := s.pln.origin

/-- Treads since the origin (R42). -/
def State.treadsSince (s : State) : Nat := (s.now - s.origin) / treadTicks

/-- Flight number and tread index of Device Time (R42): 0 with no plan active. -/
def State.flightNow (s : State) : Nat := if s.planActive then s.treadsSince / s.flightLen else 0
def State.treadAt (s : State) : Nat := if s.planActive then s.treadsSince % s.flightLen else 0

/-- The instant at which tread n of flight k begins (R40). -/
def State.startOf (s : State) (k n : Nat) : Nat := s.origin + (k * s.flightLen + n) * treadTicks

/-- An Almanac code that CODE_RATE never suppresses (R522). -/
def neverSuppressed (code : Nat) : Bool := decide (0x0C00 ≤ code ∧ code ≤ 0x0DFF)

/-- Queue an Almanac entry at the instant its event is recognised; with the queue of 256 full it is lost. -/
def State.alm (s : State) (code scope hall srcKind srcIdx : Nat) (payload : Bytes) : State :=
  if s.flt.almQueue.length ≥ 256 then (s.bump Fld.ALM_CNT_LOST_COUNT).raise Fld.ALM_STATUS_LOST
  else { s with flt := { s.flt with almQueue := s.flt.almQueue ++
    [{ code := code, scope := scope, hall := hall, srcKind := srcKind, srcIdx := srcIdx,
       time := s.now, flight := s.flightNow, payload := payload }] } }

/-- An Almanac entry about the whole device. -/
def State.almDev (s : State) (code : Nat) (payload : Bytes) : State := s.alm code 5 0xFF 0 0 payload

/-- An Almanac entry about a hall. -/
def State.almHall (s : State) (code hall : Nat) (payload : Bytes) : State := s.alm code 3 hall 0 0 payload

/-- The sequence number after one (R521: after 0xFFFF_FFFF comes 1). -/
def seqNext (q : Nat) : Nat := if q ≥ 0xFFFFFFFF then 1 else q + 1

/-- The SEQ that the last entry of the write queue will take: one number for every queued entry that CODE_RATE
will not suppress. -/
def seqAfter : List AlmEntry → (Nat → Nat) → Nat → Nat → Nat
  | [], _, _, q => q
  | e :: t, seen, rate, q =>
    if neverSuppressed e.code || decide (seen e.code < rate)
    then seqAfter t (fun c => if c = e.code then seen c + 1 else seen c) rate (if t = [] then q else seqNext q)
    else seqAfter t seen rate q

/-- The SEQ of the entry queued last. -/
def State.lastSeq (s : State) : Nat :=
  seqAfter s.flt.almQueue (fun c => s.flt.almCounts.get 0 c) (s.fld Fld.ALM_CFG_CODE_RATE) (s.fld Fld.ALM_HEAD_SEQ)

/-! ### Events (R372, R390) -/

/-- Raise an asynchronous event for a function; ASYNC_EVENT_POST posts it. -/
def State.event (s : State) (fn source : Nat) (body : Bytes) (hall : Option Nat := none) : State :=
  { s with wq := { s.wq with raised := s.wq.raised ++ [{ fn := fn, source := source, body := sliceB body 0 28, hall := hall }] } }

/-- Raise an event for the owner, if there is one. -/
def State.eventOwner (s : State) (source : Nat) (body : Bytes) (hall : Option Nat := none) : State :=
  if s.ownerValid then s.event s.ownerFn source body hall else s

/-- Raise one event for every PF. -/
def State.eventPfs (s : State) (source : Nat) (body : Bytes) : State :=
  s.pfs.foldl (fun s f => s.event f source body) s

/-! ### Writes into host memory and the dirty-page log (R438 to R440) -/

/-- What the part keeps of a function. -/
def State.fn (s : State) (f : Nat) : FnSt := s.ep.fns.get {} f
def State.setFn (s : State) (f : Nat) (v : FnSt) : State := { s with ep := { s.ep with fns := s.ep.fns.put f v } }

/-- The pages of the covered range that a write touches (R439). -/
def logPages (l : VfLog) (a n : Nat) : List Nat :=
  if n = 0 then [] else
  let first := a / 4096
  ((List.range ((a + n - 1) / 4096 - first + 1)).map (· + first)).filterMap (fun p =>
    let b := l.base / 4096
    if b ≤ p ∧ p < b + l.pages then some (p - b) else none)

/-- Set one page's bit: the 64-octet line of the active map that holds it is rewritten ahead of the data (R439, R440). -/
def State.setLogBit (s : State) (f k : Nat) : State :=
  match (s.fn f).log with
  | none => s
  | some l =>
    let t := s.fn f
    let line := k / 512
    let miss := !t.lines.contains line
    let t := if miss then { t with lines := (line :: t.lines).take 1024, logLines := add32 t.logLines 1 } else t
    if l.bits.contains k then s.setFn f t
    else
      let l := { l with bits := l.bits ++ [k], count := l.count + 1 }
      let s := s.setFn f { t with log := some l, logBits := add32 t.logBits 1 }
      let octets := (List.range 64).map (fun j => BitVec.ofNat 8 ((List.range 8).foldl (fun m b =>
        if l.bits.contains (line * 512 + 8 * j + b) then m + 2 ^ b else m) 0))
      s.emit (.hostWrite l.issuer (l.map + 64 * line) octets)

/-- A device write into host memory: logged first where a dirty-page log covers it, held back by a FAILED one (R439,
R440). -/
def State.hostWrite (s : State) (f a : Nat) (b : Bytes) : State :=
  match (s.fn f).log with
  | none => s.emit (.hostWrite f a b)
  | some l =>
    let ps := logPages l a b.length
    if ps = [] then s.emit (.hostWrite f a b)
    else if l.failed then s.setFn f { s.fn f with log := some { l with waiting := l.waiting ++ [(a, b)] } }
    else (ps.foldl (fun s k => s.setLogBit f k) s).emit (.hostWrite f a b)

/-! ### Queues and CQs -/

def State.queue (s : State) (k : Nat) : Queue := s.wq.queues.get {} k
def State.setQueue (s : State) (k : Nat) (q : Queue) : State :=
  { s with wq := { s.wq with queues := s.wq.queues.put k q } }
def State.cq (s : State) (k : Nat) : Cq := s.wq.cqs.get {} k
def State.setCq (s : State) (k : Nat) (c : Cq) : State :=
  { s with wq := { s.wq with cqs := s.wq.cqs.put k c } }

/-- Bytes 0x00 to 0x1B of a completion record (R371). -/
def recBody (opspec queue cookie bytes info index status detail : Nat) : Bytes :=
  leBytes 8 opspec ++ leBytes 4 queue ++ leBytes 4 cookie ++ leBytes 4 bytes ++ leBytes 4 info ++
    leBytes 2 index ++ leBytes 1 status ++ leBytes 1 detail

/-- The phase of an index (R363). -/
def phaseOf (i sizeLog2 : Nat) : Nat := 1 - i / 2 ^ sizeLog2 % 2

/-- Places of a CQ that no record has, written or on its way. -/
def Cq.space (c : Cq) : Nat := 2 ^ c.sizeLog2 - sub32 c.p c.c - c.posted

/-- Free places of a CQ, counted as R379 counts them. -/
def Cq.places (c : Cq) : Nat := c.space - c.reserved

/-- An interrupt of a vector becomes due; INTERRUPT_DUE sends or holds it (R409). -/
def State.irqDue (s : State) (fn vec : Nat) : State :=
  { s with wq := { s.wq with dueIrqs := s.wq.dueIrqs ++ [(fn, vec)] } }

/-- Moderation of one record whose trailer has been written (R476). -/
def State.moderate (s : State) (k : Nat) : State :=
  let c := s.cq k
  if !c.irqEn then s
  else if c.holdUs = 0 ∧ c.holdCnt = 0 then s.irqDue c.fn c.vector
  else
    let seen := if c.holding then c.holdSeen + 1 else 1
    let start := if c.holding then c.holdStart else s.now
    if c.holdCnt ≠ 0 ∧ seen ≥ c.holdCnt
    then (s.setCq k { c with holding := false, holdSeen := 0 }).irqDue c.fn c.vector
    else s.setCq k { c with holding := true, holdStart := start, holdSeen := seen }

/-- A written record moves its queue's completion watermark (R375). -/
def State.markDone (s : State) (r : CRec) : State :=
  match r.mark with
  | some (k, w) => if s.handle 1 k = leAt r.body 8 4 then s.setQueue k { s.queue k with wm := w } else s
  | none => s

/-- Write a record at the CQ's producer index: bytes 0x00 to 0x1B, then the trailer in a second write (R373). put is the way to host memory. -/
def State.cqWrite (s : State) (put : State → Nat → Nat → Bytes → State) (k : Nat) (r : CRec) : State :=
  let c := s.cq k
  let a := c.base + 32 * (c.p % 2 ^ c.sizeLog2)
  let tr := phaseOf c.p c.sizeLog2 * 2 ^ 31 + b2n r.event * 2 ^ 30 + r.low % 2 ^ 30
  let s := put (put s c.fn a r.body) c.fn (a + 28) (leBytes 4 tr)
  ((s.setCq k { c with p := add32 c.p 1 }).markDone r).moderate k

/-! ### What waits for a carrier (R341, R342) -/

/-- The posts of a hall for a host port, oldest first. -/
def State.posts (s : State) (h p : Nat) : List Post := s.wq.posts.get [] (h * 8 + p)
def State.setPosts (s : State) (h p : Nat) (l : List Post) : State := { s with wq := { s.wq with posts := s.wq.posts.put (h * 8 + p) l } }

/-- Something waits in a hall for its carriers toward a port. -/
def State.addPost (s : State) (h p : Nat) (x : Load) (cls : Nat) (own : Option (Nat × Nat)) : State :=
  let s := s.setPosts h p (s.posts h p ++ [{ id := s.wq.nextPost, load := x, since := s.now, cls := cls, taken := 0, again := [], gone := 0, own := own }])
  { s with wq := { s.wq with nextPost := s.wq.nextPost + 1 } }

/-- A write into a function's memory by a hall waits for the hall's carriers; where no hall makes it, it waits at the host port. -/
def State.hallWrite (s : State) (h cls : Nat) (own : Option (Nat × Nat)) (f a : Nat) (b : Bytes) : State :=
  if b = [] then s else if h < 18 then s.addPost h (portOf f) (.data f a b) cls own else s.hostWrite f a b

/-- A write that a planned flit brings out of a port leaves at once, but for one behind a dirty-page log (R439, R440). -/
def State.hostPut (s : State) (f a : Nat) (b : Bytes) : State :=
  if (s.fn f).log.isSome then s.hostWrite f a b else s.leave (.hostWrite f a b)

/-- A hall's record waits for a carrier, with a place of its CQ. -/
def State.postRecord (s : State) (k h : Nat) (r : CRec) : State :=
  let c := s.cq k
  (s.setCq k { c with posted := c.posted + 1 }).addPost h (portOf c.fn) (.record k r) 0 none

/-! ### Best-effort reads of a hall (R341, R342, R350) -/

/-- Octets that a read covers. -/
def HallRead.total (r : HallRead) : Nat := r.pieces.foldl (fun n (e : Nat × Nat) => n + e.2) 0

/-- The read of a hall for something. -/
def State.readFor (s : State) (h kind key arg : Nat) : Option HallRead :=
  s.dma.reads.find? (fun r => r.hall == h && r.kind == kind && r.key == key && r.arg == arg)

/-- The octets of a read that the hall's carriers have brought in, and whether that is all of it. -/
def State.readCarried (s : State) (h kind key arg : Nat) : Nat := match s.readFor h kind key arg with | some r => r.carried | none => 0
def State.readDone (s : State) (h kind key arg : Nat) : Bool :=
  match s.readFor h kind key arg with | some r => decide (r.total ≤ r.carried) | none => false

/-- A read has served its purpose. -/
def State.endRead (s : State) (h kind key arg : Nat) : State :=
  { s with dma := { s.dma with reads := s.dma.reads.filter (fun r => !(r.hall == h && r.kind == kind && r.key == key && r.arg == arg)) } }

/-! ### Posts of a queue -/

/-- What a record or data post of a queue is for. -/
def Post.ofQueue (x : Post) (k : Nat) : Bool :=
  (match x.own with | some o => o.1 == k | none => false) ||
    (match x.load with
    | .record _ r => (match r.mark with | some m => m.1 == k | none => false)
    | _ => false)

/-- Posts are given up: places that records held are free again. -/
def State.forgetPosts (s : State) (gone : Nat → Post → Bool) : State :=
  let lost := s.wq.posts.flatMap (fun (e : Nat × List Post) => e.2.filter (gone (e.1 / 8)))
  let s := { s with wq := { s.wq with posts := s.wq.posts.map (fun (e : Nat × List Post) => (e.1, e.2.filter (fun x => !gone (e.1 / 8) x))) } }
  lost.foldl (fun (s : State) (x : Post) =>
    match x.load with
    | .record k _ => s.setCq k { s.cq k with posted := (s.cq k).posted - 1 }
    | _ => s) s

/-- The staging level of a hall: records staged for any CQ (WQ_STAGE_n). -/
def State.stageLevel (s : State) (h : Nat) : Nat :=
  s.wq.cqs.foldl (fun n e => n + (e.2.staged.filter (fun r => r.hall == h)).length) 0

/-- Show a hall's staging level and its maximum (WQ_STAGE_n). -/
def State.showStage (s : State) (h : Nat) : State :=
  if h ≥ 18 then s else
  let l := s.stageLevel h
  (s.setFld Fld.WQ_STAGE_LEVEL l 0 h).setFld Fld.WQ_STAGE_MAX (max l (s.fld Fld.WQ_STAGE_MAX 0 h)) 0 h

/-- Pause or resume every queue that feeds a CQ (R379). -/
def State.pauseFeeders (s : State) (k : Nat) (paused : Bool) : State :=
  { s with wq := { s.wq with queues := s.wq.queues.map (fun e =>
      if e.2.present && e.2.cq == k then
        if paused && e.2.state == .active then (e.1, { e.2 with state := .paused })
        else if !paused && e.2.state == .paused then (e.1, { e.2 with state := .active })
        else e
      else e) } }

/-- The CQ that a function's events go to (R385, R390). -/
def State.evqKey (s : State) (fn : Nat) : Nat :=
  let h := s.fld Fld.WQ_FN_EVQ_HANDLE fn
  (s.ringKey 2 h fn).getD (adminKey fn)

/-- Stage a record for a CQ with no place; the first one opens a full episode (R379). -/
def State.stage (s : State) (k hall : Nat) (r : CRec) : State :=
  let c := s.cq k
  let s1 := s.setCq k { c with staged := c.staged ++ [{ hall := hall, crec := r }] }
  let s2 :=
    if c.state = 0 then
      let c1 := s1.cq k
      let t := ((s1.setCq k { c1 with state := 1, stallStart := some s.now }).bump Fld.WQ_CNT_CQ_FULL_COUNT).raise Fld.WQ_STATUS_CQ_FULL
      let t := t.pauseFeeders k true
      if t.evqKey c.fn = k then t
      else t.event c.fn 0x06 ([1, 0, 0, 0] ++ leBytes 4 (if k ≥ 65536 then 0x20010000 else t.handle 2 k)) (if hall < 18 then some hall else none)
    else s1
  s2.showStage hall

/-- Post a completion record: when the CQ has a place and holds none staged, a hall's record waits for a carrier (R341) and another is written; else it is
staged; never lost while the CQ exists (R379). rsv: a place was reserved when the descriptor started. -/
def State.cqPost (s : State) (k hall : Nat) (r : CRec) (rsv : Bool) : State :=
  let c := s.cq k
  if !c.present then s
  else
    let c := if rsv then { c with reserved := c.reserved - 1 } else c
    let s := s.setCq k c
    if c.state ≠ 3 ∧ c.staged = [] ∧ 0 < c.places then (if hall < 18 then s.postRecord k hall r else s.cqWrite State.hostWrite k r) else s.stage k hall r

/-! ### Event lands -/

def State.land (s : State) (k : Nat) : LandSt := s.lands.get {} k
def State.setLand (s : State) (k : Nat) (l : LandSt) : State := { s with lands := s.lands.put k l }

/-- Captures that wait in a land's queue (EVT_CAP_INFO_k.LEVEL). -/
def State.capLevel (s : State) (k : Nat) : Nat := (s.land k).queue.length

/-! ### Admin completions (R386, R387, R392) -/

namespace St
def success : Nat := 0x00
def lengthLimit : Nat := 0x02
def authFail : Nat := 0x03
def keyRevoked : Nat := 0x04
def nonceExhausted : Nat := 0x05
def keySlotEmpty : Nat := 0x06
def busError : Nat := 0x08
def chainLimit : Nat := 0x09
def badDescriptor : Nat := 0x0A
def accessDenied : Nat := 0x0B
def quota : Nat := 0x0C
def noBuffer : Nat := 0x0D
def badRelease : Nat := 0x0E
def notOwner : Nat := 0x0F
def badHandle : Nat := 0x10
def queueOverrun : Nat := 0x11
def cqStall : Nat := 0x12
def planRejected : Nat := 0x13
def notPlanOwner : Nat := 0x14
def crcMismatch : Nat := 0x15
def deadlineMissed : Nat := 0x16
def unsupported : Nat := 0x17
end St

/-- The completion watermark of an AQ: the lowest index whose command has not completed (R387). -/
def aqWatermark (q : Queue) : Nat :=
  q.inProg.foldl (fun m i => if sub32 q.c i > sub32 q.c m then i else m) q.c

/-- Complete an admin command: its record goes to the function's ACQ, it leaves the commands in progress, and the AQ's watermark
follows. The record of a command that was started before its rings were reset is discarded (R385); one that a fault has
discarded writes none (R383, R506). -/
def State.adminDone (s : State) (d : AdminCmd) (status detail opspec info : Nat) : State :=
  if s.wq.gone.contains (d.fn, d.idx) then { s with wq := { s.wq with gone := removeFirst (· == (d.fn, d.idx)) s.wq.gone } } else
  let s := { s with wq := { s.wq with inflight := removeFirst (· == d) s.wq.inflight } }
  if s.wq.muted.contains d then { s with wq := { s.wq with muted := removeFirst (· == d) s.wq.muted } } else
  let k := adminKey d.fn
  let q := s.queue k
  let q1 := { q with inProg := removeFirst (· == d.idx) q.inProg }
  let s := s.setQueue k { q1 with wm := aqWatermark q1 }
  s.cqPost k 18 { body := recBody opspec (0x10010000) d.cookie 0 info (d.idx % 65536) status detail, event := false, low := 0 } false

/-- Commands in progress whose effect is still to come, wherever one waits. -/
def State.heldCommands (s : State) : List AdminCmd :=
  let plan := (s.pln.swap.bind (fun w => w.cmd)).toList ++ s.pln.load.toList ++ s.pln.copies.filterMap (fun c => c.cmd) ++ s.pln.stops
  let own := s.own.changeCmd.toList ++ s.own.clearCmd.toList
  let keys := s.keys.loads.map (fun l => l.cmd) ++ s.keys.slots.filterMap (fun (e : Nat × KeySlot) => e.2.eraseCmd)
  let rings := s.wq.queues.filterMap (fun (e : Nat × Queue) => e.2.destroyCmd) ++ s.bpm.owners.filterMap (fun (e : Nat × BufOwner) => e.2.closing) ++ s.handoffPending.map (fun e => e.1)
  let tables := s.fw.bdNew.map (fun e => e.1) ++ s.fw.floodNew.map (fun e => e.1) ++ s.tblq.flatMap (fun (e : Nat × List TblJob) => e.2.map (fun j => j.cmd))
  let fns := s.vfn.staged.flatMap (fun (e : Nat × (Bytes × List AdminCmd)) => e.2.2) ++ s.ep.fns.filterMap (fun (e : Nat × FnSt) => e.2.quiesce.map (fun q => q.1))
  let rest := s.flt.recov.filterMap (fun (e : Nat × Option Recovery) => e.2.bind (fun r => r.cmd)) ++ s.sto.conns.flatMap (fun (e : Nat × StoConn) => e.2.createCmd.toList ++ e.2.closeCmd.toList)
  plan ++ own ++ keys ++ rings ++ tables ++ fns ++ rest

/-- Complete with a status and a detail only. -/
def State.adminFail (s : State) (d : AdminCmd) (status : Nat) (detail : Nat := 0) : State :=
  s.adminDone d status detail 0 0

/-- Complete with SUCCESS. -/
def State.adminOk (s : State) (d : AdminCmd) (opspec : Nat := 0) (info : Nat := 0) : State :=
  s.adminDone d St.success 0 opspec info

/-- Write a command's output to its buffer in the function's address space (R386). -/
def State.adminOut (s : State) (d : AdminCmd) (b : Bytes) : State := s.hostWrite d.fn d.buf b

/-! ### Function faults (R509 to R511) -/

/-- The status page (R511), and what FLT_QUERY answers (R526). -/
def faultPage (f : FnFault) : Bytes :=
  leBytes 2 f.epoch ++ leBytes 1 f.scope ++ leBytes 1 f.cause ++ leBytes 1 f.hall ++ leBytes 3 0 ++
    leBytes 4 f.seq ++ leBytes 4 0 ++ leBytes 8 f.flight ++ leBytes 40 0

/-- Halt a queue that a fault touches: its descriptors in progress are discarded with no record (R383). An admin ring keeps
count of the commands in progress, from which its watermark follows. -/
def haltQueue (k : Nat) (q : Queue) : Queue :=
  let q := if q.state = .active ∨ q.state = .paused then { q with state := .haltedEpoch, batchSum := 0 } else q
  if k < 65536 then { q with inProg := [], finished := [], ready := [] } else { q with ready := [] }

/-- Release the places that a queue's discarded descriptors had reserved (R383). -/
def State.unreserve (s : State) (k n : Nat) : State :=
  let c := s.cq k
  if c.present then s.setCq k { c with reserved := c.reserved - n } else s

/-- Records of a queue's descriptors that wait for a carrier or are staged, and data of the queue's that waits, whose writes were not issued, are
discarded; the full episode ends when none is left staged (R379, R391). -/
def State.unstage (s : State) (k : Nat) : State :=
  let s := s.forgetPosts (fun _ x => x.ofQueue k)
  let ck := (s.queue k).cq
  let c := s.cq ck
  let mine := fun (r : Staged) => match r.crec.mark with | some m => m.1 == k | none => false
  let left := c.staged.filter (fun r => !mine r)
  if left = c.staged then s
  else
    let s := s.setCq ck { c with staged := left }
    let s := (c.staged.filter mine).foldl (fun (s : State) (r : Staged) => s.showStage r.hall) s
    if left = [] ∧ c.state = 1 then (s.setCq ck { s.cq ck with state := 0, stallStart := none }).pauseFeeders ck false else s

/-- Apply R383 to those queues of a function that a test picks. -/
def State.haltQueues (s : State) (fn : Nat) (touched : Nat → Queue → Bool) : State :=
  s.wq.queues.foldl (fun s e =>
    if e.2.present && e.2.fn == fn && touched e.1 e.2
    then ((s.unreserve e.2.cq (if e.1 < 65536 then e.2.inProg.length else 0)).setQueue e.1 (haltQueue e.1 e.2)).unstage e.1 else s) s

/-- A fault affects a function (R510): its epoch advances, its touched queues halt, its status page and then its
event are written. -/
def State.affect (s : State) (fn scope cause hall seq : Nat) (touched : Nat → Queue → Bool) : State :=
  let s := s.setFld Fld.FLT_FN_EPOCH_EPOCH (s.fld Fld.FLT_FN_EPOCH_EPOCH fn + 1) fn
  let s := s.haltQueues fn touched
  let e := s.fld Fld.FLT_FN_EPOCH_EPOCH fn
  let f : FnFault := { epoch := e, scope := scope, cause := cause, hall := hall, seq := seq, flight := s.flightNow }
  let s := { s with flt := { s.flt with lastFn := s.flt.lastFn.put fn f } }
  let a := s.fld Fld.FLT_FN_PAGE_LO_ADDR fn * 64 + 2 ^ 32 * s.fld Fld.FLT_FN_PAGE_HI_ADDR fn
  let s := if s.flag Fld.FLT_FN_PAGE_LO_VALID fn
    then (s.hostWrite fn (a + 2) ((faultPage f).drop 2)).hostWrite fn a ((faultPage f).take 2) else s
  s.event fn 0x09 (leBytes 2 e ++ leBytes 1 scope ++ leBytes 1 cause ++ leBytes 1 hall ++ leBytes 3 0 ++ leBytes 4 seq)

/-- The share record in effect of a function (R427): the empty record where none was set (R434). -/
def State.share (s : State) (f : Nat) : Bytes := s.vfn.shares.get (List.replicate 128 0) f

/-- A field of a function's share. -/
def State.shareAt (s : State) (f off n : Nat) : Nat := leAt (s.share f) off n

/-- New work of a function may start: it is in D0, not draining, not in an FLR, and not quiesced (R411, R422, R436). -/
def State.fnRuns (s : State) (f : Nat) : Bool :=
  s.fld Fld.EP_FN_STATE_DSTATE f == 0 && !s.flag Fld.EP_FN_STATE_FLR_BUSY f && (s.fn f).vstate == 0

/-- The SQ descriptors of a function that are in progress (R432). -/
def State.sqInflight (s : State) (f : Nat) : Nat :=
  s.wq.queues.foldl (fun n e => if e.2.present && e.2.fn == f && e.1 < 65536 && !e.2.isRq then n + e.2.inProg.length else n) 0

/-- Descriptors that a function's queues have in progress. -/
def State.inProgress (s : State) (fn : Nat) : Nat :=
  s.wq.queues.foldl (fun n e => if e.2.present && e.2.fn == fn && e.1 < 65536 then n + e.2.inProg.length else n) 0

/-! ### Frost levels and thaw requests (R49, R55, R56) -/

/-- Frost level of a hall: 0 to 3 (R49). -/
def State.frost (s : State) (h : Nat) : Nat := s.fld Fld.CALM_HALL_STATE_FROST 0 h
def State.setFrost (s : State) (h v : Nat) : State := s.setFld Fld.CALM_HALL_STATE_FROST v 0 h

/-- A hall is at F0 or F1. -/
def State.awake (s : State) (h : Nat) : Bool := decide (s.frost h ≤ 1)

/-- The duty hall of a host port, when the active plan names one (R55). -/
def State.dutyHall (s : State) (p : Nat) : Option Nat :=
  if s.flag Fld.CALM_DUTY_PORT_VALID 0 p then some (s.fld Fld.CALM_DUTY_PORT_HALL 0 p) else none

/-- A thaw request takes a hall out of F1 (R56) and is counted. -/
def State.thaw (s : State) (h : Nat) : State :=
  let s := s.bump Fld.CALM_THAW_CNT_COUNT
  if s.frost h = 1 then s.setFrost h 0 else s

end Sys2Proof.Machine
end

