-- ==== Sys2Proof/Machine/Admin.lean ====
section
/-! DEFINITION. The common frame of admin commands (R385 to R388): reserved bits, authority, the need for a plan, in
the order of R387, and the parse of a command descriptor. -/

namespace Sys2Proof.Machine

/-- The bits of P0 to P9 that each opcode's row names (R388, R443, R448, R502, R526); every other bit is reserved. -/
def paramMask (op : Nat) : List Nat :=
  match op with
  | 0x01 => [0x3FFF1FFF, 0xFFFFFFFF, 0xFFFFFFFF, 0xFFFFFFFF, 0x1FFF, 0xFFFFFFFF, 0xF3]
  | 0x02 => [0xFFFFFFFF]
  | 0x03 => [0x07FF001F, 0, 0xFFFFFFFF, 0xFFFFFFFF]
  | 0x04 | 0x05 | 0x06 | 0x07 => [0xFFFFFFFF]
  | 0x08 => [0xFFFF, 0xFFFFFFFF, 0xFFFFFFFF]
  | 0x09 => [0xFFFF]
  | 0x11 | 0x12 => [0xF]
  | 0x13 => [0x1, 0xFFFFFFFF, 0xFFFFFFFF]
  | 0x18 => [0xFFFFFFFF, 0xFF1FFFFF, 0xFFFFFFFF, 0xFFFFFFFF]
  | 0x19 | 0x1B => [0xFFFFFFFF]
  | 0x1A => [0xFFFFFFFF, 0x7, 0xFFFFFFFF, 0xFFFFFFFF]
  | 0x1C => [0xFF, 0xFFFF, 0xFFFFFFFF]
  | 0x1D | 0x1E => [0xFF, 0xFFFF]
  | 0x20 => [0x1FF, 0x3FFF]
  | 0x21 | 0x22 => [0xFF, 0xFFFFFFFF, 0xFFFFFFFF]
  | 0x23 => [0x1FF, 0xFFFFFFFF, 0xFFFFFFFF]
  | 0x24 | 0x28 => [0xFF]
  | 0x29 => [0xFF, 0xFFF, 0xFFFFFFFF, 0xFFFF]
  | 0x2A => [0x1FF, 0xFFFF, 0xFFFFFFFF]
  | 0x2B | 0x2D | 0x2F => [0xFF, 0xFFFFFFFF, 0xFFFFFFFF]
  | 0x2C | 0x2E => [0xFF, 0xFFFFFFFF]
  | 0x30 => [0, 0xFFFFFFFF]
  | 0x31 => [0, 0xFFFFFFFF, 0xFFFFFFFF]
  | 0x38 | 0x39 | 0x3A => [0xFFFFFFFF]
  | 0x3B | 0x3C => [0xF]
  | 0x40 => [0x1F37, 0xFFFFFFFF, 0xFFFFFFFF, 0xFFFFFFFF]
  | 0x41 | 0x42 => [0xFF]
  | 0x43 => [0x1FFF]
  | 0x44 => [0xFFFFFFFF, 0xFFFFFFFF]
  | 0x45 | 0x47 | 0x48 => [0xFFFFFFFF]
  | 0x46 => [0xFFFFFFFF, 0x1F3F, 0xFFFFFFFF]
  | 0x49 => [0xFFFFFFFF, 0xFFFFFFFF]
  | 0x51 | 0x52 | 0x53 | 0x56 | 0x57 => [0xFFFFFFFF]
  | 0x54 => [0xFFFFFFFF, 0xFFFFFFFF, 0xFFFFFFFF, 0xFFFFFFFF, 0xFFFFFFFF, 0xFFFFFFFF]
  | 0x55 => [0xFFFFFFFF, 0, 0, 0, 0xFFFFFFFF, 0xFFFFFFFF]
  | 0x58 => [0xFFFFFFFF, 0xFFFFFFFF]
  | 0x60 => []
  | 0x61 => [0xFFFFFFFF, 0x1]
  | 0x62 => [0xFFFFFFFF]
  | 0x70 => [0xFFFFFFFF]
  | 0x73 => [0x1]
  | 0x80 => [0xFFFFFFFF, 0xFFFFFFFF]
  | 0x82 => [0x7, 0xFFFFFFFF]
  | 0x83 => [0xFFFFFFFF]
  | 0x84 => [0xFFFFFFFF, 0xFFFFFFFF]
  | _ => []

/-- The buffer octets that a command needs at least (R386 and its row). -/
def bufNeed (d : AdminCmd) (op : Nat) : Nat :=
  match op with
  | 0x05 => 32
  | 0x10 => 1
  | 0x1B => 32
  | 0x1C => 16 * d.p 2
  | 0x1D => 16
  | 0x20 => 160
  | 0x22 => 160 * d.p 2
  | 0x23 => 16 * d.p 2
  | 0x28 => 16
  | 0x2B => 16 * d.p 2
  | 0x2C => 32
  | 0x2D => 32 * d.p 2
  | 0x2E => 128
  | 0x2F => 128 * d.p 2
  | 0x30 => 32
  | 0x31 => 4 * d.p 2
  | 0x38 => 48
  | 0x3A => 64
  | 0x3B => 40
  | 0x42 => 32
  | 0x44 => 32
  | 0x48 => 4 * d.p 0
  | 0x49 => 64 * d.p 1
  | 0x50 => 128
  | 0x51 => 768
  | 0x58 => 32 * d.p 1
  | 0x60 => 128
  | 0x62 => 128
  | 0x72 | 0x74 | 0x75 | 0x76 | 0x77 => 288
  | 0x78 => 512
  | 0x7A => 204
  | 0x81 => 64
  | 0x84 => 64 * d.p 1
  | _ => 0

/-- Commands that need an active plan (R388's Plan column), but for CLS_WRITE, whose entry R259 judges first. -/
def needsPlan (op : Nat) : Bool :=
  op == 0x08 || op == 0x09 || op == 0x14 || (decide (0x18 ≤ op) && decide (op ≤ 0x31) && op != 0x20) || op == 0x60 || op == 0x61 || op == 0x62

/-- The opcodes that R388 and the ranges' chapters assign. -/
def opAssigned (op : Nat) : Bool :=
  decide (op ≤ 0x09) || (decide (0x10 ≤ op) && decide (op ≤ 0x15)) || (decide (0x18 ≤ op) && decide (op ≤ 0x1E)) ||
  (decide (0x20 ≤ op) && decide (op ≤ 0x24)) || (decide (0x28 ≤ op) && decide (op ≤ 0x31)) ||
  (decide (0x38 ≤ op) && decide (op ≤ 0x3C)) || (decide (0x40 ≤ op) && decide (op ≤ 0x49)) ||
  (decide (0x50 ≤ op) && decide (op ≤ 0x58)) || (decide (0x60 ≤ op) && decide (op ≤ 0x62)) ||
  (decide (0x70 ≤ op) && decide (op ≤ 0x7A)) || (decide (0x80 ≤ op) && decide (op ≤ 0x85))

/-- A word has no bit outside a mask. -/
def inMask (w m : Nat) : Bool := (BitVec.ofNat 32 w &&& ~~~ (BitVec.ofNat 32 m)) == 0#32 && decide (w < 2 ^ 32)

/-- The index range that a TCAM command of a function names lies in its share (R259): entries, or counters. -/
def State.tcamRange (s : State) (d : AdminCmd) (op : Nat) : Bool :=
  let within := fun (a n f c : Nat) => decide (f ≤ a) && decide (a + n ≤ f + c)
  let share := fun (o : Nat) => leAt (s.vfn.shares.get (List.replicate 128 0) d.fn) o 2
  s.isOwner d.fn ||
    (match op with
    | 0x20 => within (d.p 1) 1 (share 0x18) (share 0x1A)
    | 0x21 | 0x22 => within (d.p 1) (d.p 2) (share 0x18) (share 0x1A)
    | 0x23 => within (d.p 1) (d.p 2) (share 0x1C) (share 0x1E)
    | _ => true)

/-- Step 1 of R387: no reserved bit, a buffer on a multiple of 8, of allowed and sufficient length. -/
def descriptorOk (d : AdminCmd) (op : Nat) : Bool :=
  d.reserved == 0 && d.buf % 8 == 0 && decide (d.bufLen ≤ 268435456) && decide (bufNeed d op ≤ d.bufLen) &&
    (List.range 10).all (fun k => inMask (d.p k) ((paramMask op).getD k 0))

/-- The authority check that opcodes share (step 2 of R387): those reserved to the owner, and those open to PFs. A
check that depends on the object named is made by the command itself. -/
def State.authority (s : State) (fn op : Nat) : Option (Nat × Nat) :=
  let owner := s.isOwner fn
  if decide (0x10 ≤ op) && decide (op ≤ 0x15) || decide (0x18 ≤ op) && decide (op ≤ 0x1E) then
    if owner then none else some (St.notPlanOwner, 0)
  else if op == 0x08 || op == 0x09 then if owner then none else some (St.notPlanOwner, 0)
  else if decide (0x28 ≤ op) && decide (op ≤ 0x31) then if owner then none else some (St.accessDenied, 0)
  else if op == 0x24 || op == 0x3B || op == 0x3C || op == 0x40 || op == 0x41 || op == 0x42 || op == 0x50 || op == 0x60 || op == 0x61 then
    if owner then none else some (St.accessDenied, 0)
  else if op == 0x70 || op == 0x72 || op == 0x7A then if isPf fn then none else some (St.accessDenied, 1)
  else if op == 0x78 then
    if owner || (s.fld Fld.OWN_BOOT_STATUS_STAGE == 3 && isPf fn) then none
    else if !isPf fn then some (St.accessDenied, 1) else some (if s.ownerValid then St.accessDenied else St.notPlanOwner, 0)
  else if op == 0x71 || op == 0x79 || (decide (0x73 ≤ op) && decide (op ≤ 0x77)) then
    if owner then none
    else if !isPf fn then some (St.accessDenied, 1) else some (if s.ownerValid then St.accessDenied else St.notPlanOwner, 0)
  else if op == 0x82 then
    if owner && s.flag Fld.FLT_CFG_INJECT_EN then none else if owner then some (St.unsupported, 0)
    else some (if s.ownerValid then St.accessDenied else St.notPlanOwner, 0)
  else if decide (0x83 ≤ op) && decide (op ≤ 0x85) then
    if owner then none else some (if s.ownerValid then St.accessDenied else St.notPlanOwner, 0)
  else none

/-- Steps 1 to 3 of R387, with recovery's narrowing (R484): the status and detail that refuse the command, or none.
CHANNEL_BIND's details are those of R197. -/
def State.adminCheck (s : State) (d : AdminCmd) (op : Nat) : Option (Nat × Nat) :=
  if s.fld Fld.OWN_BOOT_STATUS_STAGE = 3 ∧ !(isPf d.fn && (op == 0x78 || op == 0x70 || op == 0x73)) then some (St.unsupported, 0)
  else if !descriptorOk d op then some (St.badDescriptor, if op = 0x18 then 2 else 0)
  else match s.authority d.fn op with
    | some r => some r
    | none => if !s.tcamRange d op then some (St.accessDenied, 0) else if needsPlan op && !s.planActive then some (St.unsupported, if op = 0x18 then 1 else 0) else none

/-- Run an admin command: nothing of it is left where a fault has discarded it (R506), else it is refused under R387's first three steps, or handed to its own checks and effect. -/
def State.admin (s : State) (d : AdminCmd) (op : Nat) (k : State → State) : State :=
  if s.wq.gone.contains (d.fn, d.idx) then s else
  match s.adminCheck d op with
  | some (st, dt) => s.adminFail d st dt
  | none => k s

/-- The command that a 64-octet AQ entry spells (R367, R386). -/
def parseAdmin (fn idx : Nat) (b : Bytes) : AdminCmd :=
  let h := leAt b 0 4
  { fn := fn, idx := idx, cookie := leAt b 4 4, opcode := bitsOf h 31 24, buf := leAt b 8 8, bufLen := leAt b 16 4,
    reserved := bitsOf h 23 17 + bitsOf h 15 1 + leAt b 20 4,
    params := (List.range 10).map (fun k => leAt b (24 + 4 * k) 4) }

end Sys2Proof.Machine
end

