-- ==== Sys2Proof/Machine/WorkQueues.lean ====
section
/-! DEFINITION. Work queues and completion queues (chapter 14): entries, doorbells, records, stalls, admin rings,
events, and the queue commands. -/

namespace Sys2Proof.Machine

/-! ### Descriptors and their records (R366, R373 to R375) -/

/-- Give back one place that a descriptor reserved and does not use. -/
def State.giveBack (s : State) (k : Nat) : State := s.unreserve k 1

/-- The hall that serves a queue: its logical hall's physical hall (TSQ_MAP), or the duty hall of the function's
port (R362); 18 when none does. -/
def State.servingHall (s : State) (q : Queue) : Nat :=
  if q.hall = 0xFF then
    if s.flag Fld.CALM_DUTY_PORT_VALID 0 (portOf q.fn) then s.fld Fld.CALM_DUTY_PORT_HALL 0 (portOf q.fn) else 18
  else if q.hall < 16 ∧ s.flag Fld.TSQ_MAP_VALID 0 q.hall then s.fld Fld.TSQ_MAP_PHYS 0 q.hall
  else 18

/-- The hall that serves a queue runs (R341, R512). -/
def State.queueServed (s : State) (q : Queue) : Bool :=
  let h := s.servingHall q
  decide (h < 18) && s.fld Fld.TSQ_STATE_STATE h == 2

/-- A record of a queue's descriptors is still staged, or on its way. -/
def State.recordStaged (s : State) (k : Nat) : Bool :=
  (s.cq (s.queue k).cq).staged.any (fun r => match r.crec.mark with | some m => m.1 == k | none => false) ||
    s.wq.posts.any (fun (e : Nat × List Post) => e.2.any (fun x => x.ofQueue k))

/-- Finish a queue whose destroy has waited for its descriptors to write their records (R389). -/
def State.finishDestroy (s : State) (k : Nat) : State :=
  let q := s.queue k
  match q.destroyCmd with
  | some d =>
    if q.inProg = [] ∧ !s.recordStaged k then
      let s := (s.setQueue k {}).nextGen 1 k
      let s := { s with wq := { s.wq with pages := s.wq.pages.filter (fun e => !(e.2 == (k, false))) } }
      (s.setFld Fld.WQ_QUEUES_QUEUES (s.fld Fld.WQ_QUEUES_QUEUES - 1)).adminOk d
    else s
  | none => s

/-- The record of a finished descriptor is written, merged into its batch, or stops the queue (R374, R375, R382). -/
def State.descWrite (s : State) (k idx : Nat) (r : DoneRec) : State :=
  let q := s.queue k
  let q1 := { q with inProg := removeFirst (· == idx) q.inProg, finished := q.finished.filter (fun e => e.1 != idx) }
  let hall := s.servingHall q
  let post := fun (s : State) (bytes : Nat) =>
    s.cqPost q.cq hall { body := recBody r.opspec (s.handle 1 k) r.cookie bytes r.info (idx % 65536) r.status r.detail, event := false, low := r.low, mark := some (k, add32 idx 1) } (!q.isRq)
  if q.batch ∧ r.status = St.success ∧ !r.batchEnd then
    (s.setQueue k { q1 with batchSum := add32 q.batchSum r.bytes }).giveBack q.cq
  else if q.batch ∧ r.status = St.success then
    post (s.setQueue k { q1 with batchSum := 0 }) (add32 q.batchSum r.bytes)
  else
    let q2 := if r.status ≠ St.success ∧ q.stopOnErr ∧ q.state ≠ .destroying then { q1 with state := .error, detail := 5 } else q1
    post (s.setQueue k q2) r.bytes

/-- Write the records of finished descriptors in descriptor order, up to the first that has not finished (R373). -/
def State.drainDone (s : State) (k : Nat) : Nat → State
  | 0 => s
  | n + 1 =>
    match (s.queue k).inProg with
    | [] => s
    | i :: _ =>
      match (s.queue k).finished.find? (fun e => e.1 == i) with
      | some (_, r) => (s.descWrite k i r).drainDone k n
      | none => s

/-- A descriptor of an SQ or RQ ends. One that a fault, reset or FLR discarded ends with no record (R383). -/
def State.descDone (s : State) (k idx : Nat) (r : DoneRec) : State :=
  let q := s.queue k
  if !q.inProg.contains idx then s
  else ((s.setQueue k { q with finished := q.finished ++ [(idx, r)] }).drainDone k q.inProg.length).finishDestroy k

/-- A place can be reserved for a descriptor's record: in the CQ, or in the hall's staging area of 256 (R379). -/
def State.canReserve (s : State) (q : Queue) : Bool :=
  let c := s.cq q.cq
  c.present && (decide (0 < c.places) || decide (s.stageLevel (s.servingHall q) < 256)) && c.staged == []

/-- An SQ descriptor may start (R379, R411, R432). -/
def State.admits (s : State) (q : Queue) : Bool :=
  q.state == .active && s.fnRuns q.fn && s.canReserve q &&
    (s.isOwner q.fn || s.shareAt q.fn 8 2 == 0 || decide (s.sqInflight q.fn < s.shareAt q.fn 8 2))

/-- The function's admitted work is held back by INFLIGHT alone (R432). -/
def State.inflightBlocks (s : State) (q : Queue) : Bool :=
  q.state == .active && s.fnRuns q.fn && !s.isOwner q.fn && s.shareAt q.fn 8 2 != 0 &&
    decide (s.shareAt q.fn 8 2 ≤ s.sqInflight q.fn)

/-- The AQ of a function is fetched: both rings enabled, the firmware running or in recovery, the AQ ACTIVE (R385, R494). -/
def State.aqFetches (s : State) (fn : Nat) : Bool :=
  s.flag Fld.WQ_FN_AQ_CFG_EN fn && s.flag Fld.WQ_FN_ACQ_CFG_EN fn && decide (2 ≤ s.fld Fld.OWN_BOOT_STATUS_STAGE) &&
    s.flag Fld.EP_PORT_STATUS_LINK_UP 0 (portOf fn) && s.fnRuns fn

/-- A fetched entry as a descriptor (R367). -/
def parseDesc (idx : Nat) (b : Bytes) : Desc :=
  let h := leAt b 0 4
  { idx := idx, cookie := leAt b 4 4, opcode := bitsOf h 31 24, batchEnd := bitOf h 16, bytes := b }

/-- Reserved bits of a descriptor's common header are 0 (R367). -/
def headerOk (b : Bytes) : Bool := let h := leAt b 0 4; bitsOf h 23 17 == 0 && bitsOf h 15 1 == 0

/-- How a receive descriptor ends that is for no delivery: a NOP, or one that its format refuses (R367, R369; log entry 51). -/
def rqFault (kind : Nat) (d : Desc) : Option Nat :=
  let len := leAt d.bytes 0x10 4
  if !headerOk d.bytes then some St.badDescriptor
  else if d.opcode = 0 then some St.success
  else if d.opcode ≠ 1 ∨ d.batchEnd ∨ leNat (d.bytes.drop 0x14) ≠ 0 then some St.badDescriptor
  else if kind = 0 then (if len < 64 ∨ 9216 < len then some St.lengthLimit else none)
  else if leAt d.bytes 8 8 ≠ 0 ∨ len ≠ 0 then some St.badDescriptor else none

/-- End the receive descriptors at the head of a queue that are for no delivery. -/
def State.rqSkim (s : State) (k : Nat) : Nat → State
  | 0 => s
  | n + 1 =>
    let q := s.queue k
    match q.ready with
    | [] => s
    | e :: t =>
      match rqFault q.kind e with
      | none => s
      | some st =>
        if q.present ∧ q.isRq ∧ q.state = .active ∧ s.canReserve q then
          ((s.setQueue k { q with ready := t, c := add32 q.c 1, inProg := e.idx :: q.inProg }).descDone k e.idx ⟨e.cookie, false, st, 0, 0, 0, 0, 0⟩).rqSkim k n
        else s

/-- QUEUE_ENTRY_FETCH (R366, R367, R379, R432): an entry that the device fetches is used when its index is the next
one below P and its phase is right; otherwise it is dropped, to be fetched again. Receive descriptors and admin commands are
held until a delivery or a start consumes them. The Nave fetches an AQ itself; an entry of another ring comes in the carriers of the hall that serves
it (R341, R385). -/
def execQueueEntryFetch (k idx : Nat) (entry : Bytes) (at_ : Nat) (s : State) : Answer :=
  let s := s.atTime at_
  let q := s.queue k
  let fetches := if k ≥ 65536 then s.aqFetches q.fn && q.present && q.state == .active else q.present && q.state == .active && s.fnRuns q.fn && s.queueServed q
  let held := decide (k ≥ 65536) || q.isRq
  let h := s.servingHall q
  let brought := decide (k ≥ 65536) || s.readDone h 0 k idx
  if !fetches ∨ !brought ∨ 16 ≤ sub32 idx q.p ∧ sub32 idx q.c ≥ sub32 q.p q.c ∨ sub32 idx q.c ≥ 2 ^ q.sizeLog2 then .next s
  else
    let below := decide (sub32 idx q.c < sub32 q.p q.c)
    let right := leAt entry 0 1 % 2 == phaseOf idx q.sizeLog2
    if !(below && right) then
      let s := (s.endRead h 0 k idx).bump Fld.WQ_CNT_REFETCH_COUNT
      .next (if below then s.setQueue k { q with staleSince := some (q.staleSince.getD s.now) } else s)
    else if idx ≠ (if held then add32 q.c q.ready.length else q.c) then .next s
    else
      let d := parseDesc idx entry
      let q1 := { q with c := add32 idx 1, staleSince := none }
      if held then
        let s := (s.endRead h 0 k idx).setQueue k { q with staleSince := none, ready := q.ready ++ [d] }
        .next (if q.isRq then s.rqSkim k 1 else s)
      else if !s.admits q then
        if s.inflightBlocks q then
          .next (s.setFn q.fn { s.fn q.fn with admitWait := add32 (s.fn q.fn).admitWait 1 })
        else .next s
      else
        let c := s.cq q.cq
        let s := ((s.endRead h 0 k idx).setQueue k { q1 with inProg := q.inProg ++ [idx] }).setCq q.cq { c with reserved := c.reserved + 1 }
        if d.opcode = 0 ∧ headerOk entry then .next (s.descDone k idx ⟨d.cookie, d.batchEnd, St.success, 0, 0, 0, 0, 0⟩)
        else if d.opcode = 1 ∧ headerOk entry then
          .next (s.setQueue k { s.queue k with ready := q.ready ++ [d] })
        else .next (s.descDone k idx ⟨d.cookie, d.batchEnd, St.badDescriptor, 0, 0, 0, 0, 0⟩)

/-- STALE_PHASE_TIMEOUT (R366): an entry below P has kept a wrong PHASE for WQ_CFG.PHASE_US. -/
def execStalePhaseTimeout (k at_ : Nat) (s : State) : Answer :=
  let s := s.atTime at_
  let q := s.queue k
  match q.staleSince with
  | some t =>
    if q.present ∧ q.state = .active ∧ s.expired (t + s.fld Fld.WQ_CFG_PHASE_US * 1000 * nsTicks) then
      .next ((s.setQueue k { q with state := .error, detail := 3, staleSince := none }).raise Fld.WQ_STATUS_PHASE)
    else .next s
  | none => .next s

/-! ### Doorbells (R376 to R378, R383) -/

/-- What a doorbell page of a function holds: the ring's key, and whether it is a CQ (R376). -/
def State.pageOf (s : State) (fn page : Nat) : Option (Nat × Bool) :=
  if page = 0 then (if s.flag Fld.WQ_FN_AQ_CFG_EN fn then some (adminKey fn, false) else none)
  else if page = 1 then (if s.flag Fld.WQ_FN_ACQ_CFG_EN fn then some (adminKey fn, true) else none)
  else look s.wq.pages (fn * 65536 + page)

/-- The ring behind a doorbell page, when the function takes doorbells and the ring is there and not being destroyed. -/
def State.bell (s : State) (fn page : Nat) (isCq : Bool) : Option Nat :=
  if s.fld Fld.EP_FN_STATE_DSTATE fn ≠ 0 then none else
  match s.pageOf fn page with
  | some (k, c) =>
    if c = isCq ∧ (if isCq then (s.cq k).present else (s.queue k).present && (s.queue k).state != .destroying) then some k else none
  | none => none

/-- Doorbells of a function whose duty hall is at F1 set the doorbell-wake latch, which makes a thaw request to that hall (R378, R48, R56). -/
def State.dbWake (s : State) (fn : Nat) : State :=
  match s.dutyHall (portOf fn) with
  | some h => if s.frost h = 1 then (s.setFld ⟨.CALM_DBWAKE, portOf fn, portOf fn⟩ 1).thaw h else s
  | none => s

/-- A doorbell access that holds no queue is ignored and counted (R376). -/
def State.bellIgnored (s : State) : State := s.bump Fld.WQ_CNT_DB_IGNORED_COUNT

/-- A PRODUCER write is accepted (R377). -/
def producerOk (q : Queue) (pn : Nat) : Bool := decide (sub32 pn q.p + sub32 q.p q.c ≤ 2 ^ q.sizeLog2)

/-- The record that reports a refused doorbell or a stall (R377, R380). -/
def State.queueReport (s : State) (k p opspec status detail : Nat) : CRec :=
  { body := recBody opspec (if k ≥ 65536 then 0x10010000 else s.handle 1 k) 0 0 0 (p % 65536) status detail, event := false, low := 0 }

/-- DOORBELL_PRODUCER (R377). -/
def execDoorbellProducer (fn page value : Nat) (s : State) : Answer :=
  match s.bell fn page false with
  | none => .next s.bellIgnored
  | some k =>
    let s := s.dbWake fn
    let q := s.queue k
    if producerOk q value then .next (s.setQueue k { q with p := value })
    else
      let cqk := if k ≥ 65536 then k else q.cq
      let s := s.setQueue k { q with state := .error, detail := 1 }
      let s := (s.raise Fld.WQ_STATUS_OVERRUN).bump Fld.WQ_CNT_OVERRUN_COUNT
      .next (s.cqPost cqk (if k ≥ 65536 then 18 else s.servingHall q) (s.queueReport k q.p value St.queueOverrun 1) false)

/-- Staged records take places while these last, a hall's to wait for a carrier; the full episode ends when none is staged (R379). A CQ that its staged records fill again
is full from then (log entry 51). -/
def State.drainStaged (s : State) (k : Nat) : Nat → State
  | 0 => s
  | n + 1 =>
    let c := s.cq k
    match c.staged with
    | [] => s
    | r :: t =>
      if c.state ≠ 3 ∧ 0 < c.space then
        let s := s.setCq k { c with staged := t }
        let s := (if r.hall < 18 then s.postRecord k r.hall r.crec else s.cqWrite State.hostWrite k r.crec).showStage r.hall
        let c := s.cq k
        let s := if t = [] ∧ c.state = 1 then (s.setCq k { c with state := 0, stallStart := none }).pauseFeeders k false
          else if c.state = 1 ∧ c.stallStart = none ∧ c.space = 0 then s.setCq k { c with stallStart := some s.now } else s
        let s := match r.crec.mark with | some m => s.finishDestroy m.1 | none => s
        State.drainStaged s k n
      else s

/-- STAGED_RECORD_WRITE (R379): one staged record is written into a free place. -/
def execStagedRecordWrite (k : Nat) (s : State) : Answer := .next (s.drainStaged k 1)

/-- DOORBELL_CONSUMER (R378): an accepted write frees the entries it passes. -/
def execDoorbellConsumer (fn page value : Nat) (s : State) : Answer :=
  match s.bell fn page true with
  | none => .next s.bellIgnored
  | some k =>
    let s := s.dbWake fn
    let c := s.cq k
    if sub32 value c.c ≤ sub32 c.p c.c then
      .next (s.setCq k { c with c := value, stallStart := if value = c.c then c.stallStart else none })
    else
      let s := s.setCq k { c with state := 3, detail := 4 }
      let s := (s.raise Fld.WQ_STATUS_OVERRUN).bump Fld.WQ_CNT_OVERRUN_COUNT
      .next (s.pauseFeeders k true)

/-- DOORBELL_REARM (R383): with the function's current fault epoch, a halted queue returns to ACTIVE at its watermark. -/
def execDoorbellRearm (fn page value : Nat) (s : State) : Answer :=
  match s.bell fn page false with
  | none => .next s.bellIgnored
  | some k =>
    let q := s.queue k
    if q.state = .haltedEpoch ∧ value % 65536 = s.fld Fld.FLT_FN_EPOCH_EPOCH fn then
      .next ((s.dbWake fn).setQueue k { q with state := .active, c := q.wm, ready := [], inProg := [], finished := [], batchSum := 0, staleSince := none })
    else .next ((s.dbWake fn).bump Fld.WQ_CNT_REARM_STALE_COUNT)

/-- CQ_MODERATION_WRITE (R476): the fields apply from the next record. -/
def execCqModerationWrite (fn page value : Nat) (s : State) : Answer :=
  match s.bell fn page true with
  | none => .next s.bellIgnored
  | some k =>
    let c := s.cq k
    .next (s.setCq k { c with irqEn := bitOf value 31, holdCnt := bitsOf value 27 16, holdUs := bitsOf value 15 0 })

/-- A queue that feeds a stalled CQ enters ERROR and has a record staged behind the others (R380). -/
def State.stallQueue (s : State) (k cqk : Nat) : State :=
  let q := s.queue k
  let s := s.setQueue k { q with state := .error, detail := 2 }
  let c := s.cq cqk
  let h := s.servingHall q
  (s.setCq cqk { c with staged := c.staged ++ [{ hall := h, crec := s.queueReport k q.p 0 St.cqStall 2 }] }).showStage h

/-- CQ_STALL_TIMEOUT (R380). -/
def execCqStallTimeout (k at_ : Nat) (s : State) : Answer :=
  let s := s.atTime at_
  let c := s.cq k
  match c.stallStart with
  | some t =>
    if c.present ∧ c.state = 1 ∧ s.expired (t + s.fld Fld.WQ_CFG_CQ_STALL_MS * 1000000 * nsTicks) then
      let feeders := (s.wq.queues.filter (fun e => e.2.present && e.2.cq == k &&
        (e.2.state == .active || e.2.state == .paused || e.2.state == .haltedEpoch))).map (·.1)
      let s := feeders.foldl (fun s q => s.stallQueue q k) s
      let s := s.setCq k { s.cq k with stallStart := none }
      .next ((s.raise Fld.WQ_STATUS_STALL).bump Fld.WQ_CNT_STALL_COUNT)
    else .next s
  | none => .next s

/-! ### The admin rings (R385) -/

/-- Reset both admin rings of a function (R385): commands already started complete, but their records are discarded. -/
def State.resetAdminRings (s : State) (fn : Nat) : State :=
  let k := adminKey fn
  let s := (s.setFld Fld.WQ_FN_AQ_CFG_EN 0 fn).setFld Fld.WQ_FN_ACQ_CFG_EN 0 fn
  let s := { s with wq := { s.wq with muted := s.wq.muted ++ s.wq.inflight.filter (fun (d : AdminCmd) => d.fn == fn && !s.wq.muted.contains d) } }
  (s.setQueue k {}).setCq k {}

/-- The sender may write a function's WQ_FN registers: that function, the owner, or management firmware (R393). -/
def State.mayWriteFn (s : State) (who : Who) (fn : Nat) : Bool :=
  match who with
  | .fn f => f == fn || s.isOwner f
  | .core _ => true

/-- SIZE_LOG2 that an admin ring takes: 4 to 12; other values are ignored (R393). -/
def ringSize (old v : Nat) : Nat := let z := v % 32; if 4 ≤ z ∧ z ≤ 12 then z else old

/-- AQ_CFG_WRITE (R385, R393). -/
def execAqCfgWrite (who : Who) (fn value : Nat) (s : State) : Answer :=
  if !s.mayWriteFn who fn then .next s else
  let was := s.flag Fld.WQ_FN_AQ_CFG_EN fn
  let en := bitOf value 31
  if was ∧ !en then .next (s.resetAdminRings fn)
  else if was then .next s
  else if en then
    let z := ringSize (s.fld Fld.WQ_FN_AQ_CFG_SIZE_LOG2 fn) value
    let s := (s.setFld Fld.WQ_FN_AQ_CFG_SIZE_LOG2 z fn).setFld Fld.WQ_FN_AQ_CFG_EN 1 fn
    .next (s.setQueue (adminKey fn) { present := true, fn := fn, sizeLog2 := z, cq := adminKey fn, base := s.fld Fld.WQ_FN_AQ_BASE_LO_ADDR fn * 4096 + 2 ^ 32 * s.fld Fld.WQ_FN_AQ_BASE_HI_ADDR fn })
  else .next (s.setFld Fld.WQ_FN_AQ_CFG_SIZE_LOG2 (ringSize (s.fld Fld.WQ_FN_AQ_CFG_SIZE_LOG2 fn) value) fn)

/-- ACQ_CFG_WRITE (R385, R393). -/
def execAcqCfgWrite (who : Who) (fn value : Nat) (s : State) : Answer :=
  if !s.mayWriteFn who fn then .next s else
  let k := adminKey fn
  let was := s.flag Fld.WQ_FN_ACQ_CFG_EN fn
  let en := bitOf value 31
  let vec := bitsOf value 26 16
  if was ∧ !en then .next (s.resetAdminRings fn)
  else if was then .next ((s.setFld Fld.WQ_FN_ACQ_CFG_VECTOR vec fn).setCq k { s.cq k with vector := vec })
  else
    let z := ringSize (s.fld Fld.WQ_FN_ACQ_CFG_SIZE_LOG2 fn) value
    let s := (s.setFld Fld.WQ_FN_ACQ_CFG_SIZE_LOG2 z fn).setFld Fld.WQ_FN_ACQ_CFG_VECTOR vec fn
    if en then
      .next ((s.setFld Fld.WQ_FN_ACQ_CFG_EN 1 fn).setCq k { present := true, fn := fn, sizeLog2 := z, vector := vec, base := s.fld Fld.WQ_FN_ACQ_BASE_LO_ADDR fn * 4096 + 2 ^ 32 * s.fld Fld.WQ_FN_ACQ_BASE_HI_ADDR fn })
    else .next s

/-- ADMIN_COMMAND_START (R387): the Nave starts the next fetched command of a function's AQ, at most 64 at once; a
command that the first three steps refuse, or whose opcode no chapter assigns, completes at once. -/
def execAdminCommandStart (fn : Nat) (s : State) : Answer :=
  let k := adminKey fn
  let q := s.queue k
  match q.ready with
  | [] => .next s
  | d :: t =>
    if !s.aqFetches fn ∨ q.inProg.length ≥ 64 then .next s
    else
      let c := parseAdmin fn d.idx d.bytes
      let s := s.setQueue k { q with ready := t, c := add32 q.c 1, inProg := q.inProg ++ [d.idx] }
      let s := { s with wq := { s.wq with inflight := s.wq.inflight ++ [c], gone := s.wq.gone.filter (· != (fn, d.idx)) } }
      if !opAssigned c.opcode then
        .next (if c.reserved ≠ 0 then s.adminFail c St.badDescriptor else s.adminFail c St.unsupported)
      else match s.adminCheck c c.opcode with
        | some (st, dt) => .next (s.adminFail c st dt)
        | none => .next s

/-! ### Events (R390, R580) -/

/-- The record of an event. -/
def eventRec (e : Event) : CRec := { body := e.body, event := true, low := e.source % 256 * 65536 }

/-- A CQ can take an event record now: it is there, has a place, holds none staged, and its function is in D0 (R390,
R412: events for a function outside D0 wait). -/
def State.cqRoom (s : State) (k : Nat) : Bool :=
  let c := s.cq k
  c.present && s.fld Fld.EP_FN_STATE_DSTATE c.fn == 0 && c.state != 3 && c.staged == [] && decide (0 < c.places)

/-- Keep what waits for a function's event queue. -/
def State.setEvWait (s : State) (fn : Nat) (w : EvWait) : State :=
  { s with wq := { s.wq with evWait := s.wq.evWait.put fn w } }

/-- Post one event: to the function's event queue, to the hall's staging, to the Nave's queue of 64, or dropped. -/
def State.postEvent (s : State) (e : Event) : State :=
  let k := s.evqKey e.fn
  let w := s.wq.evWait.get {} e.fn
  if s.cqRoom k ∧ w.waiting = [] ∧ w.dropped = 0 then s.cqPost k 18 (eventRec e) false
  else
    let bits := if e.source < 16 ∧ !bitOf w.bits e.source then w.bits + 2 ^ e.source else w.bits
    let lost := (s.setEvWait e.fn { w with dropped := min 0xFFFFFFFF (w.dropped + 1), bits := bits }).bump Fld.WQ_CNT_EVENT_DROP_COUNT
    match (if (s.cq k).present then e.hall else none) with
    | some h => if s.stageLevel h < 256 then s.stage k h (eventRec e) else lost
    | none => if w.waiting.length < 64 then s.setEvWait e.fn { w with waiting := w.waiting ++ [e] } else lost

/-- ASYNC_EVENT_POST (R390): the oldest raised event is posted, waits, or is dropped. -/
def execAsyncEventPost (s : State) : Answer :=
  match s.wq.raised with
  | [] => .next s
  | e :: t => .next (({ s with wq := { s.wq with raised := t } }).postEvent e)

/-- The dropped-events record (R580 KIND 0x02). -/
def droppedRec (w : EvWait) : CRec :=
  { body := leBytes 4 2 ++ leBytes 4 w.dropped ++ leBytes 2 w.bits ++ leBytes 18 0, event := true, low := 0x060000 }

/-- EVENT_QUEUE_DRAIN (R390): a place freed in a function's event queue takes the dropped-events record, which the
rule gives the first free place, else the oldest waiting event (log entry 9). -/
def execEventQueueDrain (fn : Nat) (s : State) : Answer :=
  let k := s.evqKey fn
  let w := s.wq.evWait.get {} fn
  if !s.cqRoom k then .next s
  else if w.dropped ≠ 0 then
    .next ((s.setEvWait fn { w with dropped := 0, bits := 0 }).cqPost k 18 (droppedRec w) false)
  else match w.waiting with
    | [] => .next s
    | e :: t => .next ((s.setEvWait fn { w with waiting := t }).cqPost k 18 (eventRec e) false)

/-! ### Queue commands (R388, R389) -/

/-- ADMIN_NOP (R388). -/
def execAdminNop (d : AdminCmd) (s : State) : Answer := .next (s.admin d 0x00 (fun s => s.adminOk d))

/-- The lowest free index of a ring type, 1 to 65,535 (log entry 10). -/
def State.freeIndex (s : State) (isCq : Bool) : Nat → Nat → Option Nat
  | _, 0 => none
  | i, n + 1 =>
    if (if isCq then (s.cq i).present else (s.queue i).present) then State.freeIndex s isCq (i + 1) n else some i

/-- The lowest free doorbell page of a function, from 2 (R376; log entry 10). -/
def State.freePage (s : State) (fn : Nat) : Nat → Nat → Option Nat
  | _, 0 => none
  | i, n + 1 => if (look s.wq.pages (fn * 65536 + i)).isSome then State.freePage s fn (i + 1) n else some i

/-- Doorbell pages of a function beside the admin ones: 2,046 for a VF (R402, R426). -/
def pageLimit (fn : Nat) : Nat := if isPf fn then 65534 else 2046

/-- SQs and RQs, or CQs, that a function holds. -/
def State.queuesOf (s : State) (fn : Nat) : Nat :=
  (s.wq.queues.filter (fun e => e.2.present && e.2.fn == fn && decide (e.1 < 65536))).length
def State.cqsOf (s : State) (fn : Nat) : Nat :=
  (s.wq.cqs.filter (fun e => e.2.present && e.2.fn == fn && decide (e.1 < 65536))).length

/-- Register a ring's doorbell page. -/
def State.setPage (s : State) (fn page k : Nat) (isCq : Bool) : State :=
  { s with wq := { s.wq with pages := s.wq.pages.put (fn * 65536 + page) (k, isCq) } }

/-- A function owns a vport (R433). -/
def State.ownsVport (s : State) (fn v : Nat) : Bool :=
  s.isOwner fn || (decide (s.shareAt fn 0x0C 2 ≤ v) && decide (v < s.shareAt fn 0x0C 2 + s.shareAt fn 0x0E 2))

/-- The buffer owner that a handle names (type 0x5), when it is present. -/
def State.ownerIdx (s : State) (h : Nat) : Option Nat :=
  match (if h = 0x50010000 then some 0 else s.resolve 5 h) with
  | some o => if s.bpm.owners.any (fun e => e.1 == o) then some o else none
  | none => none

/-- QUEUE_CREATE (R361 to R364, R388). -/
def execQueueCreate (d : AdminCmd) (s : State) : Answer :=
  .next (s.admin d 0x01 (fun s =>
    let ty := d.p 0 % 4
    let kind := bitsOf (d.p 0) 5 2
    let z := bitsOf (d.p 0) 12 8
    let hall := bitsOf (d.p 0) 23 16
    let isRq := ty == 1
    let batch := bitOf (d.p 0) 6
    let pool := isRq && kind == 1
    let loc := d.p 6 % 4
    let inst := bitsOf (d.p 6) 7 4
    if 2 ≤ ty ∨ (isRq ∧ 2 ≤ kind) ∨ 4 ≤ kind ∨ (pool ∧ loc = 3) then s.adminFail d St.badDescriptor
    else if !isRq ∧ kind = 2 ∧ !s.isOwner d.fn then s.adminFail d St.accessDenied
    else if z < 4 ∨ 16 < z ∨ (isRq ∧ batch) ∨ d.p64 2 % 4096 ≠ 0 ∨ !(hall = 0xFF ∨ hall < 16) ∨
        (pool ∧ (loc = 1 ∧ 4 ≤ inst ∨ loc = 2 ∧ 8 ≤ inst)) then s.adminFail d St.badDescriptor
    else match s.ringKey 2 (d.p 1) d.fn with
      | none => s.adminFail d St.badHandle
      | some cqk =>
        if !(s.cq cqk).present then s.adminFail d St.badHandle
        else if (s.cq cqk).fn ≠ d.fn then s.adminFail d St.accessDenied
        else if pool ∧ (s.ownerIdx (d.p 5)).isNone then s.adminFail d St.badHandle
        else if pool ∧ !s.isOwner d.fn ∧ !(s.bpm.owners.any (fun e => some e.1 == s.ownerIdx (d.p 5) && e.2.fn == d.fn)) then s.adminFail d St.accessDenied
        else if !s.isOwner d.fn ∧ s.shareAt d.fn 4 2 ≤ s.queuesOf d.fn then s.adminFail d St.quota
        else match s.freeIndex false 1 65535, s.freePage d.fn 2 (pageLimit d.fn) with
          | some k, some pg =>
            let q : Queue := { present := true, isRq := isRq, kind := kind, batch := batch, stopOnErr := bitOf (d.p 0) 7, sizeLog2 := z, hall := hall, ch := bitsOf (d.p 0) 29 24, cq := cqk, base := d.p64 2, vport := d.p 4 % 8192, owner := if pool then d.p 5 else 0, loc := loc, locIdx := inst, fn := d.fn }
            let s := ((s.setQueue k q).setPage d.fn pg k false).setFld Fld.WQ_QUEUES_QUEUES (s.fld Fld.WQ_QUEUES_QUEUES + 1)
            s.adminOk d (s.handle 1 k + 2 ^ 32 * pg)
          | _, _ => s.adminFail d St.quota))

/-- A DMA channel whose configuration in force takes its descriptors from a ring, or a hand-off point, is bound to a queue (R343,
log entry 24). -/
def State.queueBound (s : State) (k : Nat) : Bool :=
  let q := s.queue k
  let h := s.fld Fld.TSQ_MAP_PHYS 0 q.hall
  (q.kind == 2 && !q.isRq && decide (q.hall < 16) && s.flag Fld.TSQ_MAP_VALID 0 q.hall && s.fld Fld.DMA_CH_CFG_SERVICE h q.ch % 2 == 1 && s.fld Fld.DMA_CH_CFG_SOURCE h q.ch == 0)
    || s.handoffs.any (fun e => e.2.2 == k)

/-- The queue that a handle names for a command, with the authority of R389. -/
def State.queueFor (s : State) (d : AdminCmd) (ownerToo : Bool) (k : Nat → State) : State :=
  match s.ringKey 1 (d.p 0) d.fn with
  | none => s.adminFail d St.badHandle
  | some q =>
    if !(s.queue q).present then s.adminFail d St.badHandle
    else if (s.queue q).fn = d.fn ∨ (ownerToo ∧ s.isOwner d.fn) then k q
    else s.adminFail d St.accessDenied

/-- QUEUE_DESTROY (R388, R389): fetching stops; the command completes when work in progress has written its records. -/
def execQueueDestroy (d : AdminCmd) (s : State) : Answer :=
  .next (s.admin d 0x02 (fun s => s.queueFor d true (fun k =>
    if k ≥ 65536 then s.adminFail d St.badHandle
    else if s.queueBound k then s.adminFail d St.accessDenied
    else if (s.queue k).state = .destroying then s.adminFail d St.unsupported
    else
      let q := s.queue k
      (s.setQueue k { q with state := .destroying, destroyCmd := some d, ready := q.ready.filter (fun e => q.inProg.contains e.idx) }).finishDestroy k)))

/-- MSI-X vectors of a function (R408). -/
def vectorLimit (fn : Nat) : Nat := if isPf fn then 2048 else 64

/-- CQ_CREATE (R388, R408). -/
def execCqCreate (d : AdminCmd) (s : State) : Answer :=
  .next (s.admin d 0x03 (fun s =>
    let z := d.p 0 % 32
    let vec := bitsOf (d.p 0) 26 16
    if z < 4 ∨ 16 < z ∨ d.p64 2 % 4096 ≠ 0 ∨ vectorLimit d.fn ≤ vec then s.adminFail d St.badDescriptor
    else if !s.isOwner d.fn ∧ s.shareAt d.fn 6 2 ≤ s.cqsOf d.fn then s.adminFail d St.quota
    else match s.freeIndex true 1 65535, s.freePage d.fn 2 (pageLimit d.fn) with
      | some k, some pg =>
        let s := s.setCq k { present := true, fn := d.fn, base := d.p64 2, sizeLog2 := z, vector := vec }
        let s := (s.setPage d.fn pg k true).setFld Fld.WQ_QUEUES_CQS (s.fld Fld.WQ_QUEUES_CQS + 1)
        s.adminOk d (s.handle 2 k + 2 ^ 32 * pg)
      | _, _ => s.adminFail d St.quota))

/-- The CQ that a handle names for a command. -/
def State.cqFor (s : State) (d : AdminCmd) (k : Nat → State) : State :=
  match s.ringKey 2 (d.p 0) d.fn with
  | none => s.adminFail d St.badHandle
  | some c =>
    if !(s.cq c).present then s.adminFail d St.badHandle
    else if (s.cq c).fn ≠ d.fn then s.adminFail d St.accessDenied
    else k c

/-- CQ_DESTROY (R388): refused while a queue or EVQ_SET names it. -/
def execCqDestroy (d : AdminCmd) (s : State) : Answer :=
  .next (s.admin d 0x04 (fun s => s.cqFor d (fun k =>
    if k ≥ 65536 then s.adminFail d St.badHandle
    else if s.wq.queues.any (fun e => e.2.present && e.2.cq == k) ∨ s.fld Fld.WQ_FN_EVQ_HANDLE d.fn = s.handle 2 k then
      s.adminFail d St.accessDenied
    else
      let s := (s.setCq k {}).nextGen 2 k
      let s := { s with wq := { s.wq with pages := s.wq.pages.filter (fun e => !(e.2 == (k, true))) } }
      (s.setFld Fld.WQ_QUEUES_CQS (s.fld Fld.WQ_QUEUES_CQS - 1)).adminOk d)))

/-- The code of a queue state (R381). -/
def QState.code : QState → Nat
  | .active => 0
  | .paused => 1
  | .haltedEpoch => 2
  | .error => 3
  | .destroying => 4

/-- The 32 octets of QUEUE_QUERY (R388). -/
def queueQuery (p c wm st dt z hall cq : Nat) : Bytes :=
  leBytes 4 p ++ leBytes 4 c ++ leBytes 4 wm ++ leBytes 4 (st + dt * 256 + z * 65536 + hall * 2 ^ 24) ++ leBytes 4 cq ++ leBytes 12 0

/-- QUEUE_QUERY (R388): of an SQ, RQ or AQ, or of a CQ or ACQ, which no hall serves. -/
def execQueueQuery (d : AdminCmd) (s : State) : Answer :=
  .next (s.admin d 0x05 (fun s =>
    if d.p 0 / 2 ^ 28 = 2 then
      match s.ringKey 2 (d.p 0) d.fn with
      | none => s.adminFail d St.badHandle
      | some k =>
        let c := s.cq k
        if !c.present then s.adminFail d St.badHandle
        else if c.fn ≠ d.fn ∧ !s.isOwner d.fn then s.adminFail d St.accessDenied
        else (s.adminOut d (queueQuery c.p c.c 0 c.state c.detail c.sizeLog2 0xFE (d.p 0))).adminOk d
    else s.queueFor d true (fun k =>
      let q := s.queue k
      let h := if q.cq ≥ 65536 then 0x20010000 else s.handle 2 q.cq
      (s.adminOut d (queueQuery q.p q.c q.wm q.state.code q.detail q.sizeLog2 (if k ≥ 65536 then 0xFE else q.hall) h)).adminOk d)))

/-- EVQ_SET (R388). -/
def execEvqSet (d : AdminCmd) (s : State) : Answer :=
  .next (s.admin d 0x07 (fun s =>
    if d.p 0 = 0x20010000 then (s.setFld Fld.WQ_FN_EVQ_HANDLE 0x20010000 d.fn).adminOk d
    else s.cqFor d (fun _ => (s.setFld Fld.WQ_FN_EVQ_HANDLE (d.p 0) d.fn).adminOk d)))

/-- HANDOFF_BIND (R388): bound at the next landing, at which the command completes. -/
def execHandoffBind (d : AdminCmd) (s : State) : Answer :=
  .next (s.admin d 0x08 (fun s =>
    if !(d.p 0 % 256 < 16 ∧ s.flag Fld.TSQ_MAP_VALID 0 (d.p 0 % 256)) then s.adminFail d St.badDescriptor
    else match s.ownerIdx (d.p 1), s.ringKey 1 (d.p 2) d.fn with
      | some _, some k =>
        if !(s.queue k).present ∨ k ≥ 65536 then s.adminFail d St.badHandle
        else if !(s.queue k).isRq ∨ (s.queue k).kind ≠ 1 then s.adminFail d St.badDescriptor
        else { s with handoffPending := s.handoffPending ++ [(d, some (d.p 1, k))] }
      | _, _ => s.adminFail d St.badHandle))

/-- HANDOFF_UNBIND (R388): unbound at the next landing, at which the command completes. -/
def execHandoffUnbind (d : AdminCmd) (s : State) : Answer :=
  .next (s.admin d 0x09 (fun s =>
    if !(d.p 0 % 256 < 16 ∧ s.flag Fld.TSQ_MAP_VALID 0 (d.p 0 % 256)) then s.adminFail d St.badDescriptor
    else { s with handoffPending := s.handoffPending ++ [(d, none)] }))

/-- One pending binding takes effect at a landing (R119, R388): the hand-off point is named by logical hall and HX. One that a fault has discarded
has no effect. -/
def State.handoffLand (s : State) (e : AdminCmd × Option (Nat × Nat)) : State :=
  let key := e.1.p 0 % 256 * 256 + bitsOf (e.1.p 0) 15 8
  if s.wq.gone.contains (e.1.fn, e.1.idx) then s.adminOk e.1
  else
    let s := match e.2 with
      | some b => { s with handoffs := s.handoffs.put key b }
      | none => { s with handoffs := s.handoffs.del key }
    s.adminOk e.1

end Sys2Proof.Machine
end

