-- ==== Sys2Proof/Machine/Interrupts.lean ====
section
/-! DEFINITION. Interrupts (chapter 18): the internal controller's sources, arbitration and delivery, lull timers,
completions; and the host's MSI-X messages with their moderation, gaps and power management events (R408 to R412). -/

namespace Sys2Proof.Machine

/-! ### Sources (R464, R465) -/

/-- Any bit of a word. -/
def State.any (s : State) (r : Reg) (o : Nat := 0) (i : Nat := 0) : Bool := s.word r o i != 0#32

/-- Any bit of a mask in a word. -/
def State.anyOf (s : State) (r : Reg) (m : Word) (o : Nat := 0) (i : Nat := 0) : Bool := (s.word r o i &&& m) != 0#32

/-- A source that R464 assigns. -/
def sourceExists (n : Nat) : Bool :=
  (decide (1 ≤ n) && decide (n ≤ 7)) || (decide (16 ≤ n) && decide (n ≤ 22)) || (decide (24 ≤ n) && decide (n ≤ 28)) ||
    (decide (32 ≤ n) && decide (n ≤ 127)) || (decide (128 ≤ n) && decide (n < 1280) && decide ((n - 128) % 64 < 10))

/-- An edge source: the software-generated interrupts (R464, R473). -/
def isEdge (n : Nat) : Bool := decide (96 ≤ n) && decide (n ≤ 127)

/-- The mask of a register's W1C fields. -/
def w1cMask (r : Reg) : Word := BitVec.ofNat 32 (accMask .w1c r.fields)

/-- A per-hall source's condition (R464's second table). -/
def State.hallCond (s : State) (n j : Nat) : Bool :=
  match j with
  | 0 => s.anyOf .TSQ_FAULT (w1cMask .TSQ_FAULT) n
  | 1 => s.flag Fld.RFX_STATUS_ABORTED n
  | 2 => s.anyOf .CYC_STATUS (w1cMask .CYC_STATUS) n
  | 3 => s.anyOf .CLS_STATUS (w1cMask .CLS_STATUS) n
  | 4 => s.flag Fld.FRG_STATUS_FULL n
  | 5 => s.anyOf .FWD_STATUS (w1cMask .FWD_STATUS) n
  | 6 => s.flag Fld.FWD_AUDIT_STATUS_MISMATCH n || s.flag Fld.FWD_AUDIT_STATUS_FAIL_OVF n
  | 7 => s.anyOf .TUN_STATUS (w1cMask .TUN_STATUS) n
  | 8 => s.anyOf .CPH_STATUS (w1cMask .CPH_STATUS) n
  | 9 => s.anyOf .DMA_STATUS (w1cMask .DMA_STATUS) n || (List.range 64).any (fun c => s.flag Fld.DMA_CH_STATUS_WB_DONE n c)
  | _ => false

/-- A level source's condition (R464). -/
def State.levelCond (s : State) (n : Nat) : Bool :=
  match n with
  | 1 => (List.range 8).any (fun i => s.any .CALM_LANE_ED 0 i)
  | 2 => s.flag Fld.CALM_DBWAKE_PORT
  | 3 => s.flag Fld.CALM_PERST_EDGE
  | 4 => s.flag Fld.CALM_EVT_IN_EDGE
  | 5 => s.anyOf .CALM_THERM (w1cMask .CALM_THERM)
  | 6 => s.anyOf .TB_STATUS (w1cMask .TB_STATUS)
  | 7 => s.anyOf .OWN_FLAGS (w1cMask .OWN_FLAGS)
  | 16 => s.flag Fld.PLN_ACTIVE_STATUS_ENERGY_OVER || s.flag Fld.PLN_ACTIVE_STATUS_RELOAD_FAIL
  | 17 => s.anyOf .ALM_STATUS (w1cMask .ALM_STATUS)
  | 18 => s.anyOf .FLT_STATUS (w1cMask .FLT_STATUS)
  | 19 => s.anyOf .BPM_STATUS (w1cMask .BPM_STATUS)
  | 20 => s.anyOf .WQ_STATUS (w1cMask .WQ_STATUS)
  | 21 => s.flag Fld.VFN_STATUS_LOG_FAIL
  | 22 => s.anyOf .STO_FLAGS (w1cMask .STO_FLAGS)
  | 24 => s.anyOf .GAL_STATUS (w1cMask .GAL_STATUS)
  | 25 => s.flag Fld.ATR_STATUS_EMERG
  | 26 => s.anyOf .BARO_STATUS (w1cMask .BARO_STATUS)
  | 27 => s.flag Fld.EVT_STATUS_HOST_REFUSED
  | 28 => s.flag Fld.LN_TXTS_STATUS_OVERFLOW || s.flag Fld.LN_TXTS_STATUS_LEVEL
  | n =>
    if n < 32 then false
    else if n < 64 then (List.range 8).any (fun j => s.flag Fld.LN_LANE_STATUS_LINK_CHANGE 0 (8 * (n - 32) + j))
    else if n < 96 then decide (0 < s.capLevel (n - 64)) || s.flag Fld.EVT_CAP_INFO_OVF 0 (n - 64)
    else if n < 128 then false
    else if n < 1280 then s.hallCond ((n - 128) / 64) ((n - 128) % 64)
    else false

/-- A source is pending (R465). -/
def State.srcPending (s : State) (n : Nat) : Bool := if isEdge n then s.sic.edge.contains n else s.levelCond n

/-- A core's state. -/
def State.mcore (s : State) (k : Nat) : MCore := s.sic.cores.get {} k
def State.setMcore (s : State) (k : Nat) (c : MCore) : State :=
  { s with sic := { s.sic with cores := s.sic.cores.put k c } }

/-- A source is active on some core (R469). -/
def State.srcActive (s : State) (n : Nat) : Bool := s.sic.cores.any (fun e => e.2.stack.any (fun t => t.1 == n))

/-- Show a core's stack in SIC_CORE_STATE_k (R469, R470). -/
def State.showCore (s : State) (k : Nat) : State :=
  let c := s.mcore k
  let top := c.stack.headD (0, 0)
  ((s.setFld Fld.SIC_CORE_STATE_TOP top.1 0 k).setFld Fld.SIC_CORE_STATE_DEPTH c.stack.length 0 k).setFld
    Fld.SIC_CORE_STATE_RUNNING top.2 0 k

/-! ### Arbitration (R467 to R469, R471) -/

def State.lull (s : State) (g : Nat) : Lull := s.sic.lulls.get {} g
def State.setLull (s : State) (g : Nat) (l : Lull) : State :=
  { s with sic := { s.sic with lulls := s.sic.lulls.put g l } }

/-- The sources that software has given a priority: the others are never delivered (R466). -/
def State.configured (s : State) : List Nat :=
  (s.regs.filter (fun e => decide (0x06001000 ≤ e.1) && decide (e.1 < 0x06003000))).map (fun e => (e.1 - 0x06001000) / 4)

def State.prio (s : State) (n : Nat) : Nat := s.fld Fld.SIC_SRC_CFG_PRIORITY 0 n
def State.group (s : State) (n : Nat) : Nat := s.fld Fld.SIC_SRC_CFG_GROUP 0 n

/-- A source's group is in its lull (R471). -/
def State.lulled (s : State) (n : Nat) : Bool := (s.lull (s.group n)).expiry.isSome

/-- Insert a source in the order of R467: priority falling, then number rising. -/
def insertSrc (s : State) (n : Nat) : List Nat → List Nat
  | [] => [n]
  | m :: t => if s.prio m < s.prio n ∨ (s.prio m = s.prio n ∧ n < m) then n :: m :: t else m :: insertSrc s n t

/-- The sources to arbitrate, in order. -/
def State.candidates (s : State) : List Nat :=
  (s.configured.filter (fun n => sourceExists n && decide (0 < s.prio n) && s.srcPending n && !s.srcActive n)).foldr (insertSrc s) []

/-- A core may take a source (R467). accepts has bit k set when core k's interrupts are enabled. -/
def State.eligible (s : State) (accepts n k : Nat) : Bool :=
  bitOf (s.fld Fld.SIC_SRC_CFG_TARGETS 0 n) k && bitOf accepts k &&
    decide (max (s.fld Fld.SIC_CORE_CFG_THRESHOLD 0 k) (s.fld Fld.SIC_CORE_STATE_RUNNING 0 k) < s.prio n)

/-- Of two cores, the one with the lower RUNNING, then the lower number. -/
def betterCore (s : State) (a : Option Nat) (k : Nat) : Option Nat :=
  match a with
  | none => some k
  | some j => if s.fld Fld.SIC_CORE_STATE_RUNNING 0 k < s.fld Fld.SIC_CORE_STATE_RUNNING 0 j then some k else some j

/-- Deliver a source to a core (R468, R469): the trap's registers, the vector fetched, the stack, the lull. -/
def State.deliver (s : State) (n k pc : Nat) : State :=
  let c := s.mcore k
  let vbase := s.fld Fld.SIC_CORE_VBASE_LO_ADDR 0 k * 2 ^ 17 + 2 ^ 32 * s.fld Fld.SIC_CORE_VBASE_HI_ADDR 0 k
  let c := { c with stack := (n, s.prio n) :: c.stack, fetch := vbase + 64 * n }
  let c := if s.flag Fld.SIC_CORE_CFG_MODE 0 k then { c with sepc := pc, scause := 0x8000000000000009 }
    else { c with mepc := pc, mcause := 0x800000000000000B }
  let g := s.group n
  let l := s.fld Fld.SIC_GROUP_LULL_LULL 0 g
  let s := (s.setMcore k c).showCore k
  let s := if isEdge n then { s with sic := { s.sic with edge := s.sic.edge.filter (· != n) } } else s
  let s := s.bump Fld.SIC_CNT_DELIVERED_COUNT 0 k
  if l = 0 then s
  else (s.setLull g { expiry := some (s.now + l * treadTicks), counted := [] }).raise Fld.SIC_GROUP_LULL_LULLING 0 g

/-- Arbitrate the ordered sources in one clock; taken are the cores already given a source. -/
def State.arbitrate (accepts : Nat) (pcs : List Nat) : List Nat → List Nat → State → State
  | [], _, s => s
  | n :: t, taken, s =>
    let cores := (List.range 8).filter (fun k => !taken.contains k && s.eligible accepts n k)
    if s.lulled n then
      let g := s.group n
      let l := s.lull g
      let s := if (List.range 8).any (fun k => s.eligible accepts n k) ∧ !l.counted.contains n
        then (s.setLull g { l with counted := n :: l.counted }).bump Fld.SIC_CNT_LULL_COUNT 0 g else s
      State.arbitrate accepts pcs t taken s
    else match cores.foldl (betterCore s) none with
      | some k => State.arbitrate accepts pcs t (k :: taken) (s.deliver n k (pcs.getD k 0))
      | none => State.arbitrate accepts pcs t taken s

/-- SIC_DELIVER (R467 to R469): one clock of arbitration. accepts and pcs are what the cores show: whose interrupts
are enabled, and their program counters. -/
def execSicDeliver (accepts : Nat) (pcs : List Nat) (s : State) : Answer :=
  if s.flag Fld.CALM_STATE_STANDBY then .next s
  else .next (State.arbitrate accepts pcs s.candidates [] s)

/-- LULL_EXPIRY (R471): the timer ends and the group's pending sources are arbitrated in that clock; with the controller's clock stopped it waits
(R472). -/
def execLullExpiry (g at_ accepts : Nat) (pcs : List Nat) (s : State) : Answer :=
  let s := s.atTime at_
  match (s.lull g).expiry with
  | some t =>
    if s.expired t ∧ !s.flag Fld.CALM_STATE_STANDBY then
      let s := (s.setLull g {}).setFld Fld.SIC_GROUP_LULL_LULLING 0 0 g
      .next (State.arbitrate accepts pcs s.candidates [] s)
    else .next s
  | none => .next s

/-- SIC_CORE_COMPLETE (R470): a source number ends that source, wherever it lies in the core's stack, or counts as spurious. -/
def execSicCoreComplete (who : Who) (core value : Nat) (s : State) : Answer :=
  if !s.mayWrite who then .next s else
  let n := value % 2048
  let c := s.mcore core
  if c.stack.any (fun t => t.1 == n) then
    .next ((s.setMcore core { c with stack := c.stack.filter (fun t => t.1 != n) }).showCore core)
  else .next ((s.bump Fld.SIC_CNT_SPURIOUS_COUNT 0 core).raise Fld.SIC_FLAGS_SPURIOUS)

/-- An event of an edge source: pending, or merged with one that is pending already (R465). -/
def State.edgeEvent (s : State) (n : Nat) : State :=
  if s.sic.edge.contains n then s.bump Fld.SIC_CNT_MERGED_COUNT
  else { s with sic := { s.sic with edge := s.sic.edge ++ [n] } }

/-- SIC_SGI (R473). -/
def execSicSgi (who : Who) (value : Nat) (s : State) : Answer :=
  if !s.mayWrite who then .next s else .next (s.edgeEvent (96 + value % 32))

/-- SIC_CORE_FLUSH (R473): the stack empties; its edge sources are pending again. -/
def execSicCoreFlush (who : Who) (core : Nat) (s : State) : Answer :=
  if !s.mayWrite who then .next s else
  let c := s.mcore core
  let s := (s.setMcore core { c with stack := [] }).showCore core
  .next { s with sic := { s.sic with edge := s.sic.edge ++ ((c.stack.map (fun t => t.1)).filter (fun n => isEdge n && !s.sic.edge.contains n)) } }

/-- SIC_SRC_PEND_CLEAR (R465): a 1 clears a pending edge source; a level source follows its condition. -/
def execSicSrcPendClear (who : Who) (w value : Nat) (s : State) : Answer :=
  if !s.mayWrite who then .next s else
  .next { s with sic := { s.sic with edge := s.sic.edge.filter (fun n => !(n / 32 == w && bitOf value (n % 32))) } }

/-! ### Host interrupts (R408, R409, R412, R475 to R477) -/

/-- The function is in D0. -/
def State.inD0 (s : State) (f : Nat) : Bool := s.fld Fld.EP_FN_STATE_DSTATE f == 0

/-- The four conditions of R409, for one vector. -/
def State.msixOpen (s : State) (f v : Nat) : Bool :=
  let t := s.fn f
  t.msixEn && !t.fnMask && t.bme && !bitOf ((t.msix.get {} v).ctrl) 0

/-- Set a vector's pending bit. -/
def State.setPba (s : State) (f v : Nat) : State :=
  let t := s.fn f
  if t.pba.contains v then s else s.setFn f { t with pba := t.pba ++ [v] }

/-- Send a vector's message: its pending bit clears and its gap starts (R409, R477). -/
def State.sendMsix (s : State) (f v : Nat) : State :=
  let t := s.fn f
  let m := t.msix.get {} v
  let gap := s.fld Fld.SIC_FN_VGAP_GAP_US f v
  let gaps := if gap = 0 then t.gaps else t.gaps.put v (s.now + gap * 1000 * nsTicks)
  (s.setFn f { t with pba := t.pba.filter (· != v), gaps := gaps }).emit (.msix f v m.addr m.data)

/-- The gap of a vector is running (R477). -/
def State.gapRuns (s : State) (f v : Nat) : Bool :=
  match look (s.fn f).gaps v with
  | some e => decide (s.now < e)
  | none => false

/-- Signal PME for a function outside D0 (R412). -/
def State.pme (s : State) (f : Nat) : State :=
  let t := s.fn f
  let p := portOf f
  let s := s.setFn f { t with pmeStatus := true }
  if !t.pmeEn then s
  else if s.flag Fld.EP_FN_STATE_D3COLD f then
    if s.flag Fld.EP_PORT_STATUS_WAKE_N 0 p then s
    else ((s.bump Fld.EP_CNT_PME_COUNT 0 p).raise Fld.EP_PORT_STATUS_WAKE_N 0 p).emit (.pin 1 p false)
  else
      let s := s.bump Fld.EP_CNT_PME_COUNT 0 p
      let s := if s.fld Fld.EP_PORT_STATUS_LSTATE 0 p = 2 then s.setFld Fld.EP_PORT_STATUS_LSTATE 1 0 p else s
      s.emit (.tlp p 1 [f] [])

/-- An interrupt that is due (R408, R409, R412, R436, R477). -/
def State.irq (s : State) (f v : Nat) : State :=
  if vectorLimit f ≤ v then s.bump Fld.EP_CNT_BAD_VECTOR_COUNT 0 (portOf f)
  else if !s.inD0 f then (s.setPba f v).pme f
  else if (s.fn f).vstate ≠ 0 ∨ s.gapRuns f v ∨ !s.msixOpen f v then s.setPba f v
  else s.sendMsix f v

/-- Send what is pending of a function, as far as the conditions hold (R409, R410, R437). -/
def State.sendPending (s : State) (f : Nat) : State :=
  if !s.inD0 f ∨ (s.fn f).vstate ≠ 0 then s
  else (s.fn f).pba.foldl (fun s v => if s.msixOpen f v && !s.gapRuns f v then s.sendMsix f v else s) s

/-- INTERRUPT_DUE (R409): the oldest due interrupt is sent or held. -/
def execInterruptDue (s : State) : Answer :=
  match s.wq.dueIrqs with
  | [] => .next s
  | e :: t => .next (({ s with wq := { s.wq with dueIrqs := t } }).irq e.1 e.2)

/-- CQ_HOLD_EXPIRY (R476): HOLD_US have passed since the trailer that started the hold. -/
def execCqHoldExpiry (k at_ : Nat) (s : State) : Answer :=
  let s := s.atTime at_
  let c := s.cq k
  if c.holding ∧ s.expired (c.holdStart + c.holdUs * 1000 * nsTicks) then
    .next ((s.setCq k { c with holding := false, holdSeen := 0 }).irqDue c.fn c.vector)
  else .next s

/-- VECTOR_GAP_END (R477): at the end of the gap one message covers everything that became due on the vector. -/
def execVectorGapEnd (f v at_ : Nat) (s : State) : Answer :=
  let s := s.atTime at_
  let t := s.fn f
  match look t.gaps v with
  | some e =>
    if s.expired e then
      let s := s.setFn f { t with gaps := t.gaps.del v }
      .next (if t.pba.contains v && s.inD0 f && t.vstate == 0 && s.msixOpen f v then s.sendMsix f v else s)
    else .next s
  | none => .next s

end Sys2Proof.Machine
end

