-- ==== Sys2Proof/Machine/Ownership.lean ====
section
/-! DEFINITION. Ownership, commissioning and the firmware images (chapter 19): claims, seizures, releases and the
lease; signed records and what they change; the boot ROM's verification. -/

namespace Sys2Proof.Machine

/-- The ownership epoch. -/
def State.epoch (s : State) : Nat := s.fld Fld.OWN_EPOCH_EPOCH

/-- A refused claim, seizure or signed record is counted (R502, R503). -/
def State.refused (s : State) (d : AdminCmd) (status detail : Nat) : State :=
  (s.bump Fld.OWN_CNT_REFUSED_COUNT).adminFail d status detail

/-- The body of a SOURCE 0x08 event (R498). -/
def ownBody (port epoch cause : Nat) : Bytes := leBytes 4 port ++ leBytes 4 epoch ++ leBytes 1 cause

/-- An ownership change takes effect (R496 to R498). kind: 0 claim, 1 seizure, 2 release. -/
def State.applyOwnerChange (s : State) : State :=
  if !s.flag Fld.OWN_STATE_PENDING then s else
  let kind := s.fld Fld.OWN_STATE_PENDING_KIND
  let port := s.fld Fld.OWN_STATE_PENDING_PORT
  let e := s.epoch + 1
  let s := s.setFld Fld.OWN_EPOCH_EPOCH e
  let s := ((s.setFld Fld.OWN_STATE_PENDING 0).setFld Fld.OWN_STATE_PENDING_KIND 0).setFld Fld.OWN_STATE_PENDING_PORT 0
  let s := (s.setFld Fld.OWN_STATE_LAPSED 0).setFld Fld.OWN_STATE_OWNER_VALID (if kind = 2 then 0 else 1)
  let s := s.setFld Fld.OWN_STATE_OWNER_PORT (if kind = 2 then 0 else port)
  let cmd := s.own.changeCmd
  let s := { s with own := { s.own with leaseStart := s.now, changeCmd := none } }
  let s := (s.raise Fld.OWN_FLAGS_CHANGED).bump Fld.OWN_CNT_CHANGE_COUNT
  let shown := if kind = 2 then 0xFF else port
  let s := s.almDev 0x0C04 (leBytes 1 shown ++ leBytes 1 kind ++ leBytes 2 0 ++ leBytes 4 e)
  let s := s.eventPfs 0x08 (ownBody shown e kind)
  match cmd with
  | some d => s.adminOk d e
  | none => s

/-- Make a change pending: for the next landing, or at once with no plan active (R496). -/
def State.pendChange (s : State) (d : AdminCmd) (kind port : Nat) : State :=
  let s := ((s.raise Fld.OWN_STATE_PENDING).setFld Fld.OWN_STATE_PENDING_KIND kind).setFld Fld.OWN_STATE_PENDING_PORT port
  let s := { s with own := { s.own with changeCmd := some d } }
  if s.planActive then s else s.applyOwnerChange

/-- OWN_CLAIM (R496), its checks in the rule's order. -/
def execOwnClaim (d : AdminCmd) (s : State) : Answer :=
  .next (if s.wq.gone.contains (d.fn, d.idx) then s else match s.adminCheck d 0x70 with
  | some (st, dt) => s.refused d st dt
  | none =>
    if d.p 0 ≠ s.epoch then s.refused d St.accessDenied 2
    else if s.isOwner d.fn ∧ !s.flag Fld.OWN_STATE_PENDING then s.adminOk d s.epoch
    else if s.flag Fld.OWN_STATE_PENDING then s.refused d St.accessDenied 4
    else if s.epoch ≥ 0xFFFFFFFF then s.refused d St.quota 5
    else if s.ownerValid ∧ !s.flag Fld.OWN_STATE_LAPSED then s.refused d St.accessDenied 3
    else s.pendChange d 0 (portOf d.fn))

/-- OWN_RELEASE (R497). -/
def execOwnRelease (d : AdminCmd) (s : State) : Answer :=
  .next (s.admin d 0x71 (fun s =>
    if s.flag Fld.OWN_STATE_PENDING then s.adminFail d St.accessDenied 4
    else if s.epoch ≥ 0xFFFFFFFF then s.adminFail d St.quota 5
    else s.pendChange d 2 0))

/-- A payload octet of a signed record (R486). -/
def payloadAt (b : Bytes) (off n : Nat) : Bytes := sliceB b (0x18 + off) n

/-- All octets are 0. -/
def allZero (b : Bytes) : Bool := b.all (· == 0#8)

/-- An enrolled, unrevoked plan key. -/
def State.planKey (s : State) (i : Nat) : Option PlanKey :=
  match look s.own.planKeys i with
  | some k => if k.revoked then none else some k
  | none => none

/-- The checks of a signed record in the order of R502's detail table; used is how many payload octets the command uses. -/
def State.signedCheck (s : State) (op used : Nat) (payloadOk : Bool) (b : Bytes) : Option (Nat × Nat) :=
  let ki := leAt b 5 1
  if leAt b 0 4 ≠ 0x43455253 ∨ leAt b 4 1 ≠ op ∨ leAt b 6 2 ≠ 0 ∨ !payloadOk ∨
      !allZero (payloadAt b used (168 - used)) ∨ (4 ≤ ki ∧ ki ≠ 0xFF) ∨ (ki = 0xFF ∧ !allZero (sliceB b 0xC0 96)) then
    some (St.badDescriptor, 6)
  else if leAt b 8 8 ≠ Config.serial.toNat then some (St.authFail, 7)
  else if leAt b 16 8 ≠ s.fld Fld.OWN_NONCE_LO_NONCE + 2 ^ 32 * s.fld Fld.OWN_NONCE_HI_NONCE then some (St.authFail, 8)
  else if ki = 0xFF then
    if op = 0x74 ∧ s.own.planKeys = [] then none else some (St.authFail, 9)
  else match s.planKey ki with
    | none => some (St.authFail, 9)
    | some k => if Config.ecdsaVerify k.key (b.take 0xC0) (sliceB b 0xC0 96) then none else some (St.authFail, 10)

/-- Draw a new nonce after an accepted signed record (R487): a free value, from the Nave's entropy source. -/
def State.newNonce (s : State) : State :=
  ((s.setFld Fld.OWN_NONCE_LO_NONCE s.free).setFld Fld.OWN_NONCE_HI_NONCE (s.free / 2 ^ 32)).drawn

/-- Run a command that carries a signed record (R486, R487). -/
def State.signed (s : State) (d : AdminCmd) (b : Bytes) (op used : Nat) (payloadOk : Bool) (k : State → State) : State :=
  if s.wq.gone.contains (d.fn, d.idx) then s else
  match s.adminCheck d op with
  | some (st, dt) => s.refused d st dt
  | none => match s.signedCheck op used payloadOk b with
    | some (st, dt) => s.refused d st dt
    | none => k s

/-- OWN_SEIZE (R496, R499): its record, then checks 4 and 5; it replaces a pending claim. -/
def execOwnSeize (d : AdminCmd) (b : Bytes) (s : State) : Answer :=
  .next (s.signed d b 0x72 1 (leAt b 0x18 1 == portOf d.fn) (fun s =>
    let pend := s.flag Fld.OWN_STATE_PENDING
    let kind := s.fld Fld.OWN_STATE_PENDING_KIND
    if pend ∧ kind ≠ 0 then s.refused d St.accessDenied 4
    else if s.epoch ≥ 0xFFFFFFFF then s.refused d St.quota 5
    else
      let s := match pend, s.own.changeCmd with
        | true, some c => s.refused c St.accessDenied 4
        | _, _ => s
      s.newNonce.pendChange d 1 (portOf d.fn)))

/-- OWN_RENEW (R495). -/
def execOwnRenew (who : Who) (value at_ : Nat) (s : State) : Answer :=
  let s := s.atTime at_
  let good := match who with
    | .fn f => s.isOwner f && value == s.epoch
    | .core _ => false
  if good then
    .next ({ s with own := { s.own with leaseStart := s.now } }.setFld Fld.OWN_STATE_LAPSED 0)
  else .next ((s.bump Fld.OWN_CNT_RENEW_BAD_COUNT).raise Fld.OWN_FLAGS_RENEW_BAD)

/-- LEASE_LAPSE (R495): TERM_MS have passed without a renewal. -/
def execLeaseLapse (at_ : Nat) (s : State) : Answer :=
  let s := s.atTime at_
  if s.ownerValid ∧ !s.flag Fld.OWN_STATE_LAPSED ∧ s.expired (s.own.leaseStart + s.fld Fld.OWN_LEASE_TERM_MS * 1000000 * nsTicks) then
    let p := s.fld Fld.OWN_STATE_OWNER_PORT
    let s := (s.raise Fld.OWN_STATE_LAPSED).raise Fld.OWN_FLAGS_LAPSED
    let s := s.almDev 0x0C05 (leBytes 4 p ++ leBytes 4 s.epoch)
    .next (s.eventPfs 0x08 (ownBody p s.epoch 3))
  else .next s

/-- Show which plan-key slots hold a key and which are revoked (OWN_PLANKEYS). -/
def State.showPlanKeys (s : State) : State :=
  let en := s.own.planKeys.foldl (fun m e => m + 2 ^ e.1) 0
  let rv := s.own.planKeys.foldl (fun m e => if e.2.revoked then m + 2 ^ e.1 else m) 0
  (s.setFld Fld.OWN_PLANKEYS_ENROLLED en).setFld Fld.OWN_PLANKEYS_REVOKED rv

/-- PLANKEY_ENROLL (R488). -/
def execPlankeyEnroll (d : AdminCmd) (b : Bytes) (s : State) : Answer :=
  let slot := leAt b 0x18 1
  .next (s.signed d b 0x74 98 (decide (slot < 4) && leAt b 0x19 1 == 4) (fun s =>
    if (look s.own.planKeys slot).isSome then s.refused d St.unsupported 12
    else
      let s := { s with own := { s.own with planKeys := s.own.planKeys.put slot ⟨payloadAt b 1 97, false⟩ } }
      s.showPlanKeys.newNonce.adminOk d))

/-- PLANKEY_REVOKE (R488). -/
def execPlankeyRevoke (d : AdminCmd) (b : Bytes) (s : State) : Answer :=
  let slot := leAt b 0x18 1
  .next (s.signed d b 0x75 1 (decide (slot < 4)) (fun s =>
    match s.planKey slot with
    | none => s.refused d St.unsupported 12
    | some k =>
      if (s.own.planKeys.filter (fun e => !e.2.revoked)).length ≤ 1 then s.refused d St.quota 13
      else
        let s := { s with own := { s.own with planKeys := s.own.planKeys.put slot { k with revoked := true } } }
        s.showPlanKeys.newNonce.adminOk d))

/-- KEK0_INSTALL (R489). -/
def execKek0Install (d : AdminCmd) (b : Bytes) (s : State) : Answer :=
  .next (s.signed d b 0x76 137 true (fun s =>
    match Config.keyUnwrap (Config.kek0WrapKey (payloadAt b 0 97) (beBytes 8 Config.serial.toNat)) (payloadAt b 97 40) with
    | none => s.refused d St.authFail 11
    | some k =>
      let s := { s with own := { s.own with kek0 := some k } }
      (s.setFld ⟨.CPH_KEK_VALID, 0, 0⟩ 1).newNonce.adminOk d))

/-! ### Firmware images (R483 to R485) -/

/-- An image passes (R484). -/
def State.imageOk (s : State) (b : Bytes) : Bool :=
  let body := b.drop 512
  let signer := leAt b 9 1
  let digest := Config.sha384 (Config.imageKey b)
  let fused := if signer = 0 then some Config.vendorKeyDigest else if signer = 1 then Config.oemKeyDigest else none
  leAt b 0 4 == 0x57464C5A && decide (leAt b 8 1 ≤ 63) && leAt b 10 2 == 0 && decide (b.length ≤ 33554432) &&
    leAt b 12 4 == body.length && decide (512 ≤ b.length) && allZero (sliceB b 0xA8 344) && fused == some digest &&
    Config.ecdsaVerify (Config.imageKey b) (b.take 0x48) (sliceB b 0x48 96) &&
    Config.sha384 body == sliceB b 0x18 48 && decide (s.fld Fld.OWN_FW_SVN_MIN ≤ leAt b 8 1)

/-- Run an image that has passed: slot 0 is A, 1 is B. The Atrium is powered from then on, where it was not (log entry 28). -/
def State.runImage (s : State) (slot : Nat) (b : Bytes) : State :=
  let s := (s.setFld Fld.OWN_BOOT_STATUS_STAGE 2).setFld Fld.OWN_BOOT_STATUS_IMAGE slot
  let s := if s.flag Fld.CALM_STATE_STANDBY then s else s.setFld Fld.ATR_STATUS_POWERED 15
  let s := s.setFld Fld.OWN_FW_SVN_RUNNING (leAt b 8 1)
  { s with own := { s.own with entry := leAt b 16 8 }, flt := { s.flt with wdogKick := s.now } }

/-- Admin commands that a warm reset cut off complete with UNSUPPORTED once the firmware runs again (R492). -/
def State.failInflight (s : State) : State :=
  let held := s.heldCommands.filter (fun d => s.wq.inflight.contains d)
  let s := s.wq.inflight.foldl (fun s d => s.adminFail d St.unsupported) s
  { s with wq := { s.wq with gone := s.wq.gone ++ held.map (fun d => (d.fn, d.idx)) } }

/-- FIRMWARE_VERIFY (R484): the boot ROM tries the preferred image, then the other; with neither, recovery. -/
def execFirmwareVerify (at_ : Nat) (s : State) : Answer :=
  let s := s.atTime at_
  if 2 ≤ s.fld Fld.OWN_BOOT_STATUS_STAGE ∨ !s.own.powered then .next s else
  let pref := s.fld Fld.OWN_BOOT_STATUS_PREFER
  let img := fun (n : Nat) => if n = 0 then s.own.imageA else s.own.imageB
  let bad := fun (s : State) (n v : Nat) => if n = 0 then s.setFld Fld.OWN_BOOT_STATUS_A_BAD v else s.setFld Fld.OWN_BOOT_STATUS_B_BAD v
  let s1 :=
    if s.imageOk (img pref) then (bad s pref 0).runImage pref (img pref)
    else
      let s := bad s pref 1
      if s.imageOk (img (1 - pref)) then
        let s := ((bad s (1 - pref) 0).runImage (1 - pref) (img (1 - pref))).raise Fld.OWN_FLAGS_BOOT_FALLBACK
        s.almDev 0x0C02 (leBytes 1 (1 - pref) ++ leBytes 1 (leAt (img (1 - pref)) 8 1))
      else (bad s (1 - pref) 1).setFld Fld.OWN_BOOT_STATUS_STAGE 3
  .next (if s1.fld Fld.OWN_BOOT_STATUS_LAST_RESET = 2 then s1.failInflight else s1)

/-- FW_UPDATE (R485): the image goes into the slot that is not running, which becomes preferred. -/
def execFwUpdate (d : AdminCmd) (b : Bytes) (s : State) : Answer :=
  .next (s.admin d 0x78 (fun s =>
    if !s.imageOk b then s.adminFail d St.authFail 10
    else
      let slot := 1 - s.fld Fld.OWN_BOOT_STATUS_IMAGE
      let s := { s with own := if slot = 0 then { s.own with imageA := b } else { s.own with imageB := b } }
      (s.setFld Fld.OWN_BOOT_STATUS_PREFER slot).adminOk d))

/-- FW_SVN_RAISE (R485): the fused minimum rises to the running image's SVN and never falls. -/
def execFwSvnRaise (d : AdminCmd) (s : State) : Answer :=
  .next (s.admin d 0x79 (fun s =>
    let m := max (s.fld Fld.OWN_FW_SVN_MIN) (s.fld Fld.OWN_FW_SVN_RUNNING)
    (s.setFld Fld.OWN_FW_SVN_MIN m).adminOk d m))

/-- OWN_IDENTITY_GET (R489, R502). -/
def execOwnIdentityGet (d : AdminCmd) (s : State) : Answer :=
  .next (s.admin d 0x7A (fun s =>
    (s.adminOut d (leBytes 8 Config.serial.toNat ++ sliceB Config.identityKey 0 97 ++ leBytes 3 0 ++
      sliceB Config.identitySignature 0 96)).adminOk d))

end Sys2Proof.Machine
end

