-- ==== Sys2Proof/Machine/Almanac.lean ====
section
/-! DEFINITION. The Almanac (R521 to R526), the status pages, and the firmware watchdog's kick (R518). -/

namespace Sys2Proof.Machine

/-- The 64 octets of an entry (R521). -/
def almBytes (seq : Nat) (e : AlmEntry) : Bytes :=
  leBytes 4 seq ++ leBytes 2 e.code ++ leBytes 1 e.scope ++ leBytes 1 e.hall ++ leBytes 4 (nsOf e.time) ++
    leBytes 2 (fracOf e.time) ++ leBytes 2 (e.srcKind * 8192 + e.srcIdx % 8192) ++ leBytes 6 (secsOf e.time) ++
    leBytes 2 0 ++ leBytes 8 e.flight ++ sliceB e.payload 0 32

/-- Write an entry into the ring at the next SEQ (R522). -/
def State.almWrite (s : State) (e : AlmEntry) : State :=
  let q := s.fld Fld.ALM_HEAD_SEQ
  let left := s.flt.freezeLeft
  let s := { s with flt := { s.flt with ring := s.flt.ring.put (q % 32768) (almBytes q e) } }
  let s := s.setFld Fld.ALM_HEAD_SEQ (seqNext q)
  let s := if s.fld Fld.ALM_CFG_HIGH_WATER < sub32 (seqNext q) (s.fld Fld.ALM_MARK_SEQ) then s.raise Fld.ALM_STATUS_HIGH_WATER else s
  match left with
  | some n =>
    if n ≤ 1 then
      let s := { s with flt := { s.flt with freezeLeft := none } }
      ((s.raise Fld.ALM_STATUS_FROZEN).raise Fld.ALM_STATUS_FROZE).setFld Fld.ALM_FROZEN_SEQ_SEQ q
    else { s with flt := { s.flt with freezeLeft := some (n - 1) } }
  | none =>
    if s.flag Fld.ALM_CFG_FREEZE_EN ∧ (e.code = 0x0D02 ∨ e.code = 0x0D03 ∨ e.code = 0x0D04)
    then { s with flt := { s.flt with freezeLeft := some 1024 } } else s

/-- ALMANAC_WRITE (R522): the entry at the head of the write queue is lost while the Almanac is frozen, suppressed
beyond CODE_RATE, or written. -/
def execAlmanacWrite (s : State) : Answer :=
  match s.flt.almQueue with
  | [] => .next s
  | e :: t =>
    let s := { s with flt := { s.flt with almQueue := t } }
    if s.flag Fld.ALM_STATUS_FROZEN then .next (s.bump Fld.ALM_CNT_LOST_COUNT)
    else
      let n := s.flt.almCounts.get 0 e.code
      if !neverSuppressed e.code && decide (s.fld Fld.ALM_CFG_CODE_RATE ≤ n) then
        .next ((s.bump Fld.ALM_CNT_SUPPRESSED_COUNT).raise Fld.ALM_STATUS_SUPPRESSED)
      else
        .next (({ s with flt := { s.flt with almCounts := s.flt.almCounts.put e.code (n + 1) } }).almWrite e)

/-- End a freeze. -/
def State.unfreeze (s : State) : State :=
  { s with flt := { s.flt with freezeLeft := none } }.setFld Fld.ALM_STATUS_FROZEN 0

/-- ALM_UNFREEZE (R522). -/
def execAlmUnfreeze (who : Who) (value : Nat) (s : State) : Answer :=
  if !s.mayWrite who ∨ value % 2 = 0 then .next s else .next s.unfreeze

/-- The entry with a SEQ, or zeros when it was overwritten or is not written yet (R524, R526). -/
def State.almEntry (s : State) (q : Nat) : Bytes :=
  let b := s.flt.ring.get (List.replicate 64 0) (q % 32768)
  if q ≠ 0 ∧ leAt b 0 4 = q then b else List.replicate 64 0

/-- n sequence numbers from one on. -/
def seqRange : Nat → Nat → List Nat
  | _, 0 => []
  | q, n + 1 => q :: seqRange (seqNext q) n

/-- ALM_READ (R526). -/
def execAlmRead (d : AdminCmd) (s : State) : Answer :=
  .next (s.admin d 0x84 (fun s =>
    let n := d.p 1
    if n = 0 ∨ 32768 < n then s.adminFail d St.badDescriptor
    else
      let es := (seqRange (d.p 0) n).map s.almEntry
      let found := (es.filter (fun b => leAt b 0 4 != 0)).length
      (s.adminOut d es.flatten).adminOk d (s.fld Fld.ALM_HEAD_SEQ) found))

/-- ALM_CLEAR (R526): the ring empties, a freeze ends, and ALMANAC_CLEARED is the next entry. -/
def execAlmClear (d : AdminCmd) (s : State) : Answer :=
  .next (s.admin d 0x85 (fun s =>
    let head := s.fld Fld.ALM_HEAD_SEQ
    let s := { s with flt := { s.flt with ring := [] } }.unfreeze
    let e : AlmEntry := { code := 0x0D08, scope := 5, hall := 0xFF, srcKind := 0, srcIdx := 0, time := s.now, flight := s.flightNow, payload := leBytes 4 head }
    ({ s with flt := { s.flt with almQueue := e :: s.flt.almQueue } }).adminOk d))

/-- FLT_STATUS_PAGE_SET (R511): a multiple of 64, or 0 to remove the page. -/
def execFltStatusPageSet (d : AdminCmd) (s : State) : Answer :=
  .next (s.admin d 0x80 (fun s =>
    let a := d.p64 0
    if a % 64 ≠ 0 then s.adminFail d St.badDescriptor
    else
      let s := (s.setFld Fld.FLT_FN_PAGE_LO_ADDR (a / 64) d.fn).setFld Fld.FLT_FN_PAGE_HI_ADDR (a / 2 ^ 32) d.fn
      (s.setFld Fld.FLT_FN_PAGE_LO_VALID (if a = 0 then 0 else 1) d.fn).adminOk d))

/-- FLT_QUERY (R526): the last fault that affected the function, or none. -/
def execFltQuery (d : AdminCmd) (s : State) : Answer :=
  .next (s.admin d 0x81 (fun s =>
    let e := s.fld Fld.FLT_FN_EPOCH_EPOCH d.fn
    let f := (look s.flt.lastFn d.fn).getD { epoch := e }
    (s.adminOut d (faultPage f)).adminOk d e))

/-- WDOG_KICK (R518): management firmware restarts the watchdog. -/
def execWdogKick (who : Who) (value at_ : Nat) (s : State) : Answer :=
  let s := s.atTime at_
  match who with
  | .core k => if value % 2 = 1 then .next { s with flt := { s.flt with wdogKick := s.now, wdogCore := k } } else .next s
  | .fn _ => .next s

end Sys2Proof.Machine
end

