-- ==== Sys2Proof/Machine/Functions.lean ====
section
/-! DEFINITION. Functions as hosts see them: power states and their drains (R410 to R414), link power, quiesce, share
records, dirty-page logs, and saved queue state (chapter 16). -/

namespace Sys2Proof.Machine

def State.hp (s : State) (p : Nat) : HpSt := s.ep.ports.get {} p
def State.setHp (s : State) (p : Nat) (v : HpSt) : State := { s with ep := { s.ep with ports := s.ep.ports.put p v } }

/-- An error is logged in the port's AER capability, and its message is sent where it is enabled and not masked (R421; the bit numbers and
the message rule are the standard's, log entry 27): 0 correctable, 1 non-fatal, 2 fatal. advisory: it is handled as Advisory Non-Fatal
while its severity is non-fatal. -/
def State.aer (s : State) (p bit : Nat) (advisory : Bool) : State :=
  let h := s.hp p
  let s := s.setHp p { h with aerUncorr := putBits h.aerUncorr bit bit 1 }
  if bitOf h.aerMask bit then s
  else if advisory && !bitOf h.aerSev bit then
    let h := s.hp p
    let s := s.setHp p { h with aerCorr := putBits h.aerCorr 13 13 1 }
    if bitOf h.errEn 0 && !bitOf h.aerCorrMask 13 then s.emit (.tlp p 7 [0] []) else s
  else
    let c := if bitOf h.aerSev bit then 2 else 1
    if bitOf h.errEn c then s.emit (.tlp p 7 [c] []) else s

/-- The functions of a port that exist. -/
def State.portFns (s : State) (p : Nat) : List Nat :=
  if !s.flag Fld.EP_PORT_MAP_EN 0 p then [] else
  (1024 * p) :: (if s.flag Fld.VFN_PORT_VF_EN 0 p then (List.range (s.fld Fld.VFN_PORT_NUM_VFS 0 p)).map (fun v => 1024 * p + v + 1) else [])

/-- The drain of R411 and R436: the second landing, or 1 ms with no plan active. -/
def State.newDrain (s : State) : Drain := { landings := 2, deadline := s.now + 1000000 * nsTicks }

/-- A drain's deadline has come. -/
def State.drainOver (s : State) (d : Drain) : Bool :=
  if s.planActive then d.landings == 0 else s.expired d.deadline || d.landings == 0

/-- POWERSTATE_D3HOT (R411): nothing new starts, work in progress drains; with every function of the port in D3hot the
link enters L1 (R413). -/
def execPowerstateD3hot (f at_ : Nat) (s : State) : Answer :=
  let s := s.atTime at_
  if !s.inD0 f ∨ !s.fnExists f then .next s else
  let p := portOf f
  let s := s.setFld Fld.EP_FN_STATE_DSTATE 3 f
  let s := s.setFn f { s.fn f with drain := if s.inProgress f = 0 then none else some s.newDrain }
  let s := s.setFld Fld.EP_FN_STATE_DRAINING (if s.inProgress f = 0 then 0 else 1) f
  let s := if isPf f then (s.raise Fld.EP_PORT_STATUS_PF_D3 0 p).raise Fld.EP_PORT_STATUS_PLANNED_BLOCKED 0 p else s
  .next (if (s.portFns p).all (fun g => !s.inD0 g) ∧ s.fld Fld.EP_PORT_STATUS_LSTATE 0 p = 1
    then s.setFld Fld.EP_PORT_STATUS_LSTATE 2 0 p else s)

/-- Planned bursts of a port are blocked (R414): its PF outside D0, Bus Master Enable 0, or the link not in L0. -/
def State.plannedBlocked (s : State) (p : Nat) : Bool :=
  !s.inD0 (1024 * p) || !(s.fn (1024 * p)).bme || s.fld Fld.EP_PORT_STATUS_LSTATE 0 p != 1

/-- Show PLANNED_BLOCKED (R414). -/
def State.showBlocked (s : State) (p : Nat) : State :=
  s.setFld Fld.EP_PORT_STATUS_PLANNED_BLOCKED (b2n (s.plannedBlocked p)) 0 p

/-- POWERSTATE_D0 (R410): the function resumes with its state kept, and its pending interrupts are sent. A function that
counts as in D3cold leaves it only through a reset of its port. -/
def execPowerstateD0 (f : Nat) (s : State) : Answer :=
  if s.inD0 f ∨ s.flag Fld.EP_FN_STATE_D3COLD f then .next s else
  let p := portOf f
  let s := (s.setFld Fld.EP_FN_STATE_DSTATE 0 f).setFld Fld.EP_FN_STATE_DRAINING 0 f
  let s := s.setFn f { s.fn f with drain := none }
  let s := if isPf f then (s.setFld Fld.EP_PORT_STATUS_PF_D3 0 0 p).showBlocked p else s
  .next (s.sendPending f)

/-- PME_TURN_OFF (R413): PME_TO_Ack waits behind every posted write already issued; a link in L1 returns to L0 for it. -/
def execPmeTurnOff (p : Nat) (s : State) : Answer :=
  if !s.flag Fld.EP_PORT_STATUS_LINK_UP 0 p then .next s else
  let s := if s.fld Fld.EP_PORT_STATUS_LSTATE 0 p = 2 then s.setFld Fld.EP_PORT_STATUS_LSTATE 1 0 p else s
  .next ((s.emit (.tlp p 2 [] [])).showBlocked p)

/-- A packet has left its port: after PME_TO_Ack the link is in L2/L3 Ready (R413), and functions in D3hot count as in D3cold from
then (R410). -/
def State.afterPacket (s : State) (o : Out) : State :=
  match o with
  | .tlp p 2 _ _ => ((s.portFns p).foldl (fun s f => if s.inD0 f then s else s.raise Fld.EP_FN_STATE_D3COLD f) (s.setFld Fld.EP_PORT_STATUS_LSTATE 3 0 p)).showBlocked p
  | _ => s

/-- ASPM_L1_ENTRY (R413). planned: the active plan holds a DMA or carrier burst for the port. -/
def execAspmL1Entry (p at_ : Nat) (s : State) : Answer :=
  let s := s.atTime at_
  let h := s.hp p
  let idle := s.fld Fld.EP_PORT_CFG_L1_IDLE_US 0 p
  if bitOf h.aspm 1 ∧ idle ≠ 0 ∧ s.fld Fld.EP_PORT_STATUS_LSTATE 0 p = 1 ∧ h.idleSince + idle * 1000 * nsTicks ≤ s.now ∧
      !s.planBursts.contains p then
    .next ((s.setFld Fld.EP_PORT_STATUS_LSTATE 2 0 p).showBlocked p)
  else .next s

/-- L1_EXIT (R413): the link returns to L0. -/
def execL1Exit (p at_ : Nat) (s : State) : Answer :=
  let s := s.atTime at_
  if s.fld Fld.EP_PORT_STATUS_LSTATE 0 p ≠ 2 then .next s else
  let s := s.setFld Fld.EP_PORT_STATUS_LSTATE 1 0 p
  .next ((s.setHp p { s.hp p with idleSince := s.now }).showBlocked p)

/-- BUS_MASTER_ENABLE_WRITE (R409, R414). -/
def execBusMasterEnableWrite (f : Nat) (v : Bool) (s : State) : Answer :=
  let s := s.setFn f { s.fn f with bme := v }
  let s := if isPf f then s.showBlocked (portOf f) else s
  .next (if v then s.sendPending f else s)

/-! ### Share records (R426 to R431) -/

/-- Two ranges [a, a+n) and [b, b+m) meet. -/
def rangesMeet (a n b m : Nat) : Bool := decide (0 < n) && decide (0 < m) && decide (a < b + m) && decide (b < a + n)

/-- Two share records overlap in their key, TCAM, counter or vport ranges (R428). -/
def sharesOverlap (a b : Bytes) : Bool :=
  rangesMeet (leAt a 0x10 4) (leAt a 0x14 4) (leAt b 0x10 4) (leAt b 0x14 4) ||
  rangesMeet (leAt a 0x18 2) (leAt a 0x1A 2) (leAt b 0x18 2) (leAt b 0x1A 2) ||
  rangesMeet (leAt a 0x1C 2) (leAt a 0x1E 2) (leAt b 0x1C 2) (leAt b 0x1E 2) ||
  rangesMeet (leAt a 0x0C 2) (leAt a 0x0E 2) (leAt b 0x0C 2) (leAt b 0x0E 2)

/-- A share record's fields are within R427. -/
def shareParamOk (s : State) (b : Bytes) : Bool :=
  let f := leAt b 0 2
  s.fnExists f && leAt b 2 2 == 0 && decide (leAt b 0x0A 2 ≤ 8191) &&
    decide (leAt b 0x0C 2 + leAt b 0x0E 2 ≤ 8192) && decide (leAt b 0x0C 2 < 8192) &&
    decide (leAt b 0x10 4 < 65536) && decide (leAt b 0x10 4 + leAt b 0x14 4 ≤ 65536) &&
    decide (leAt b 0x18 2 < 16384) && decide (leAt b 0x18 2 + leAt b 0x1A 2 ≤ 16384) &&
    decide (leAt b 0x1C 2 < 16384) && decide (leAt b 0x1C 2 + leAt b 0x1E 2 ≤ 16384) &&
    bitsOf (leAt b 0x48 1) 6 2 == 0 && allZero (sliceB b 0x49 7) &&
    leAt b 0x50 8 % 4096 == 0 && leAt b 0x58 8 % 4096 == 0 && decide (leAt b 0x50 8 + leAt b 0x58 8 ≤ 2 ^ 35) &&
    bitsOf (leAt b 0x62 1) 7 3 == 0 && allZero (sliceB b 0x63 29)

/-- The refusal of VFN_SHARE_SET, in table order (R428). -/
def State.shareCheck (s : State) (b : Bytes) : Option Nat :=
  let f := leAt b 0 2
  if !shareParamOk s b then some 1
  else if s.isOwner f then some 2
  else if s.vfn.shares.any (fun e => e.1 != f && sharesOverlap e.2 b) || s.vfn.staged.any (fun e => e.1 != f && sharesOverlap e.2.1 b)
  then some 3
  else none

/-- A staged record takes effect and its commands complete (R431). -/
def State.shareLand (s : State) (e : Nat × (Bytes × List AdminCmd)) : State :=
  e.2.2.foldl (fun s d => s.adminOk d) { s with vfn := { s.vfn with shares := s.vfn.shares.put e.1 e.2.1 } }

/-- Every staged record takes effect: step 4 of the landing order (R43, R431). Allowances are full again (R429). -/
def State.sharesLand (s : State) : State :=
  let st := s.vfn.staged
  (st.foldl State.shareLand { s with vfn := { s.vfn with staged := [], used := [] } }).setFld Fld.VFN_STATUS_SHARE_PENDING 0

/-- VFN_SHARE_SET (R428, R431). -/
def execVfnShareSet (d : AdminCmd) (b : Bytes) (s : State) : Answer :=
  .next (s.admin d 0x50 (fun s =>
    match s.shareCheck b with
    | some r => s.adminFail d St.badDescriptor r
    | none =>
      let f := leAt b 0 2
      let rec_ := sliceB b 0 128
      if s.planActive then
        let old := match look s.vfn.staged f with
          | some e => e.2
          | none => []
        ({ s with vfn := { s.vfn with staged := s.vfn.staged.put f (rec_, old ++ [d]) } }).raise Fld.VFN_STATUS_SHARE_PENDING
      else s.shareLand (f, rec_, [d])))

/-! ### Quiesce (R436, R437) -/

/-- The VF that a command names, when the sender may act on it: the owner, or the PF of its port (R443). -/
def State.vfFor (s : State) (d : AdminCmd) (k : Nat → State) : State :=
  let f := d.p 0
  if !(s.isOwner d.fn || d.fn == 1024 * portOf f) then s.adminFail d St.accessDenied
  else if !(s.fnExists f && !isPf f) then s.adminFail d St.badDescriptor
  else k f

/-- A VF reaches QUIESCED, and its command completes. -/
def State.quiesced (s : State) (f : Nat) : State :=
  let t := s.fn f
  match t.quiesce with
  | some (d, _) => (s.setFn f { t with vstate := 2, quiesce := none }).adminOk d 0 t.discarded
  | none => s

/-- VFN_QUIESCE (R436). -/
def execVfnQuiesce (d : AdminCmd) (s : State) : Answer :=
  .next (s.admin d 0x52 (fun s => s.vfFor d (fun f =>
    let t := s.fn f
    if t.vstate = 1 then s.adminFail d St.unsupported
    else
      let s := s.setFn f { t with vstate := 1, quiesce := some (d, s.newDrain), discarded := 0 }
      if s.inProgress f = 0 then s.quiesced f else s)))

/-- VFN_RESUME (R437). -/
def execVfnResume (d : AdminCmd) (s : State) : Answer :=
  .next (s.admin d 0x53 (fun s => s.vfFor d (fun f =>
    if (s.fn f).vstate ≠ 2 then s.adminFail d St.unsupported
    else ((s.setFn f { s.fn f with vstate := 0 }).sendPending f).adminOk d)))

/-! ### Dirty-page logs (R438 to R441) -/

/-- Show how many VFs of a port have a log running (VFN_PORT_p.LOGS). -/
def State.showLogs (s : State) (p : Nat) : State :=
  let n := (s.ep.fns.filter (fun e => portOf e.1 == p && (match e.2.log with | some l => !l.failed | none => false))).length
  s.setFld Fld.VFN_PORT_LOGS n 0 p

/-- VFN_LOG_START (R438). -/
def execVfnLogStart (d : AdminCmd) (s : State) : Answer :=
  .next (s.admin d 0x54 (fun s => s.vfFor d (fun f =>
    if (s.fn f).log.isSome then s.adminFail d St.unsupported
    else if d.p64 1 % 4096 ≠ 0 ∨ d.p 3 = 0 ∨ 2 ^ 28 < d.p 3 ∨ d.p64 4 % 64 ≠ 0 then s.adminFail d St.badDescriptor
    else
      let l : VfLog := { issuer := d.fn, base := d.p64 1, pages := d.p 3, map := d.p64 4, failed := false, bits := [], count := 0, waiting := [] }
      ((s.setFn f { s.fn f with log := some l }).showLogs (portOf f)).adminOk d)))

/-- The log that a swap or stop names, by its issuer (R443). -/
def State.logFor (s : State) (d : AdminCmd) (k : Nat → VfLog → State) : State :=
  let f := d.p 0
  if !(s.fnExists f && !isPf f) then s.adminFail d St.badDescriptor
  else match (s.fn f).log with
    | none => s.adminFail d St.unsupported
    | some l => if l.issuer = d.fn then k f l else s.adminFail d St.accessDenied

/-- VFN_LOG_SWAP (R441): later writes are logged in the new, zeroed map. -/
def execVfnLogSwap (d : AdminCmd) (s : State) : Answer :=
  .next (s.admin d 0x55 (fun s => s.logFor d (fun f l =>
    if l.failed then s.adminFail d St.unsupported
    else if d.p64 4 % 64 ≠ 0 then s.adminFail d St.badDescriptor
    else (s.setFn f { s.fn f with log := some { l with map := d.p64 4, bits := [], count := 0 }, lines := [] }).adminOk d l.count)))

/-- Stop a log: writes that a FAILED log held back are released (R440, R441). -/
def State.stopLog (s : State) (f : Nat) : State :=
  match (s.fn f).log with
  | none => s
  | some l =>
    let s := s.setFn f { s.fn f with log := none, lines := [] }
    (l.waiting.foldl (fun s w => s.emit (.hostWrite f w.1 w.2)) s).showLogs (portOf f)

/-- VFN_LOG_STOP (R441). -/
def execVfnLogStop (d : AdminCmd) (s : State) : Answer :=
  .next (s.admin d 0x56 (fun s => s.logFor d (fun f l => (s.stopLog f).adminOk d l.count)))

/-- A log fails (R440). -/
def State.failLog (s : State) (f : Nat) : State :=
  match (s.fn f).log with
  | none => s
  | some l =>
    let s := s.setFn f { s.fn f with log := some { l with failed := true } }
    let s := (s.raise Fld.VFN_STATUS_LOG_FAIL).showLogs (portOf f)
    let s := s.event l.issuer 0x06 (leBytes 2 3 ++ leBytes 2 f ++ leBytes 4 0 ++ leBytes 8 l.map)
    s.alm 0x0B01 1 0xFF 1 f (leBytes 8 l.map)

/-! ### Saved queue state (R442) -/

/-- The record of one queue or CQ. -/
def saveRec (handle ty kind batch stop z st hall base p c wm cq : Nat) : Bytes :=
  leBytes 4 handle ++ leBytes 4 (ty + kind * 4 + batch * 64 + stop * 128 + z * 256 + st * 8192 + hall * 65536) ++
    leBytes 8 base ++ leBytes 4 p ++ leBytes 4 c ++ leBytes 4 wm ++ leBytes 4 cq

/-- A save or restore needs a QUIESCED VF (R443). -/
def State.quiescedFor (s : State) (d : AdminCmd) (k : Nat → State) : State :=
  s.vfFor d (fun f => if (s.fn f).vstate ≠ 2 then s.adminFail d St.unsupported else k f)

/-- VFN_STATE_SAVE (R442): one record per SQ, RQ and CQ, by handle index. -/
def execVfnStateSave (d : AdminCmd) (s : State) : Answer :=
  .next (s.admin d 0x57 (fun s => s.quiescedFor d (fun f =>
    let qs := (s.wq.queues.filter (fun e => e.2.present && e.2.fn == f && decide (e.1 < 65536))).map (fun e => (e.1, saveRec
      (s.handle 1 e.1) (b2n e.2.isRq) e.2.kind (b2n e.2.batch) (b2n e.2.stopOnErr) e.2.sizeLog2 e.2.state.code e.2.hall e.2.base
      e.2.p e.2.c e.2.wm (if e.2.cq ≥ 65536 then 0x20010000 else s.handle 2 e.2.cq)))
    let cs := (s.wq.cqs.filter (fun e => e.2.present && e.2.fn == f && decide (e.1 < 65536))).map (fun e => (e.1, saveRec
      (s.handle 2 e.1) 2 0 0 0 e.2.sizeLog2 e.2.state 0 e.2.base e.2.p e.2.c 0 0))
    let all := cs.foldl (fun (acc : List (Nat × Bytes)) e =>
      (acc.filter (fun x => decide (x.1 < e.1))) ++ [e] ++ acc.filter (fun x => decide (e.1 ≤ x.1))) qs
    if d.bufLen < 32 * all.length then s.adminFail d St.badDescriptor
    else (s.adminOut d (all.map (·.2)).flatten).adminOk d 0 all.length)))

/-- The INFO word and fields of a saved record are well formed. -/
def saveOk (b : Bytes) : Bool :=
  let i := leAt b 4 4
  decide (i % 4 ≤ 2) && bitsOf i 31 24 == 0 && decide (4 ≤ bitsOf i 12 8) && decide (bitsOf i 12 8 ≤ 16) && leAt b 8 8 % 4096 == 0 &&
    decide (bitsOf i 5 2 < (if i % 4 == 0 then 4 else if i % 4 == 1 then 2 else 1))

/-- The CQ of a saved queue is the ACQ or one of the records. -/
def saveCqOk (recs : List Bytes) (b : Bytes) : Bool :=
  leAt b 4 4 % 4 == 2 || leAt b 28 4 == 0x20010000 || recs.any (fun c => leAt c 4 4 % 4 == 2 && leAt c 0 4 == leAt b 28 4)

/-- Restore one CQ: the new index and page; answers the mapping of source handle to new index. -/
def State.restoreCq (s : State) (f : Nat) (b : Bytes) : State × (Nat × Nat × Nat) :=
  let k := (s.freeIndex true 1 65535).getD 0
  let pg := (s.freePage f 2 (pageLimit f)).getD 0
  let i := leAt b 4 4
  let s := s.setCq k { present := true, fn := f, base := leAt b 8 8, sizeLog2 := bitsOf i 12 8, p := leAt b 16 4, c := leAt b 20 4 }
  let s := (s.setPage f pg k true).setFld Fld.WQ_QUEUES_CQS (s.fld Fld.WQ_QUEUES_CQS + 1)
  (s, leAt b 0 4, k, pg)

/-- Restore one SQ or RQ in HALTED_EPOCH at its watermark (R442). -/
def State.restoreQueue (s : State) (f : Nat) (cqs : List (Nat × Nat × Nat)) (b : Bytes) : State × (Nat × Nat × Nat) :=
  let k := (s.freeIndex false 1 65535).getD 0
  let pg := (s.freePage f 2 (pageLimit f)).getD 0
  let i := leAt b 4 4
  let cq := match cqs.find? (fun e => e.1 == leAt b 28 4) with
    | some e => e.2.1
    | none => adminKey f
  let q : Queue := { present := true, isRq := i % 4 == 1, kind := bitsOf i 5 2, batch := bitOf i 6, stopOnErr := bitOf i 7, sizeLog2 := bitsOf i 12 8, hall := bitsOf i 23 16, cq := cq, base := leAt b 8 8, fn := f, p := leAt b 16 4, c := leAt b 24 4, wm := leAt b 24 4, state := .haltedEpoch }
  let s := ((s.setQueue k q).setPage f pg k false).setFld Fld.WQ_QUEUES_QUEUES (s.fld Fld.WQ_QUEUES_QUEUES + 1)
  (s, leAt b 0 4, k, pg)

/-- VFN_STATE_RESTORE (R442): CQs first, then queues; the new handles and pages go back into the buffer. -/
def execVfnStateRestore (d : AdminCmd) (buf : Bytes) (s : State) : Answer :=
  .next (s.admin d 0x58 (fun s => s.quiescedFor d (fun f =>
    let n := d.p 1
    let recs := (List.range n).map (fun j => sliceB buf (32 * j) 32)
    let isCq := fun (b : Bytes) => leAt b 4 4 % 4 == 2
    let nq := (recs.filter (fun b => !isCq b)).length
    let nc := (recs.filter isCq).length
    if s.queuesOf f ≠ 0 ∨ s.cqsOf f ≠ 0 then s.adminFail d St.unsupported
    else if !recs.all (fun b => saveOk b && saveCqOk recs b) then s.adminFail d St.badDescriptor
    else if s.shareAt f 4 2 < nq ∨ s.shareAt f 6 2 < nc ∨ 65535 < s.fld Fld.WQ_QUEUES_QUEUES + nq ∨
        65535 < s.fld Fld.WQ_QUEUES_CQS + nc ∨ pageLimit f < nq + nc then s.adminFail d St.quota
    else
      let r1 := recs.foldl (fun (a : State × List (Nat × Nat × Nat)) b =>
        if isCq b then let x := a.1.restoreCq f b; (x.1, a.2 ++ [x.2]) else a) (s, [])
      let r2 := recs.foldl (fun (a : State × List (Nat × Nat × Nat)) b =>
        if isCq b then a else let x := a.1.restoreQueue f r1.2 b; (x.1, a.2 ++ [x.2])) (r1.1, [])
      let s := r2.1
      let out := recs.map (fun b =>
        let e := ((if isCq b then r1.2 else r2.2).find? (fun e => e.1 == leAt b 0 4)).getD (0, 0, 0)
        let i := leAt b 4 4
        spliceB b 0 (leBytes 4 (s.handle (if isCq b then 2 else 1) e.2.1) ++ leBytes 4 (i % 65536 + e.2.2 * 65536)))
      (s.adminOut d out.flatten).adminOk d 0 nq)))

end Sys2Proof.Machine
end

