-- ==== Sys2Proof/Machine/Time.lean ====
section
/-! DEFINITION. The time base (R32 to R42, R60), its discipline, and the calm domain's latches and thaw requests
(R48, R55, R56). -/

namespace Sys2Proof.Machine

/-! ### Flights and treads (R40 to R42) -/

/-- An instant from a time register triple. -/
def instantOf (sec ns frac : Nat) : Nat := sec * secTicks + ns * nsTicks + frac

/-- The origin registers as they stand (R41). -/
def State.originRegs (s : State) : Nat :=
  instantOf (s.fld Fld.TB_ORIGIN_SEC_LO_SEC + 2 ^ 32 * s.fld Fld.TB_ORIGIN_SEC_HI_SEC) (s.fld Fld.TB_ORIGIN_NS_NS) 0


/-! ### Discipline (R34 to R39) -/

/-- The selected discipline source. -/
def State.tbSrc (s : State) : Nat := s.fld Fld.TB_CTRL_SRC

/-- The bound of R39, in units of 2^-16 ppb. -/
def rateBound : Int := 30000 * 65536

/-- TB_RATE as a signed number of 2^-16 ppb. -/
def State.tbRate (s : State) : Int := toSigned 32 (s.fld Fld.TB_RATE_RATE)

/-- The rate at which a slew in the direction of the remaining step runs (R39), in 2^-16 ppb: TB_CTRL.SLEW ppm, or
what TB_RATE leaves of the bound in that direction. -/
def State.slewRate (s : State) : Nat :=
  let want : Int := (s.fld Fld.TB_CTRL_SLEW : Int) * 1000 * 65536
  let room := if s.tb.slew ≥ 0 then rateBound - s.tbRate else rateBound + s.tbRate
  (min want room).toNat

/-- Ticks of slew carried out over a span of Device Time. -/
def slewDone (rate span : Nat) : Nat := span * rate / (1000000000 * 65536)

/-- Account for the slew up to the present (log entry 11). -/
def State.runSlew (s : State) : State :=
  let n := min (slewDone s.slewRate (s.now - s.tb.slewAt)) s.tb.slew.natAbs
  let r : Int := if s.tb.slew ≥ 0 then s.tb.slew - n else s.tb.slew + n
  let t := { s with tb := { s.tb with slew := r, slewAt := s.now } }
  t.setFld Fld.TB_STATUS_SLEWING (if r = 0 then 0 else 1)

/-- Enter holdover (R36, R37): the rate stays; an Almanac entry says so. -/
def State.enterHoldover (s : State) : State :=
  if s.flag Fld.TB_STATUS_HOLDOVER then s
  else ((s.raise Fld.TB_STATUS_HOLDOVER).setFld Fld.TB_STATUS_LOCKED 0).almDev 0x0105 (leBytes 1 s.tbSrc)

/-- A write that a firmware servo makes under SRC 1 or 2 restarts the 4 s and leaves holdover (R37). -/
def State.servoWrite (s : State) : State :=
  if s.tbSrc = 1 ∨ s.tbSrc = 2 then { s.setFld Fld.TB_STATUS_HOLDOVER 0 with tb := { s.tb with servo := s.now } } else s

/-- The hardware servo owns TB_RATE and TB_STEP (R36). -/
def State.hwServo (s : State) : Bool := s.tbSrc == 3 || s.tbSrc == 4

/-- Store a rate, clamped to the bound (R39). -/
def State.putRate (s : State) (r : Int) : State :=
  let c := max (-rateBound) (min rateBound r)
  let s := s.setFld Fld.TB_RATE_RATE (ofSigned 32 c)
  if c = r then s else s.raise Fld.TB_STATUS_RATE_CLAMP

/-- TB_RATE_WRITE (R35 to R37, R39). -/
def execTbRateWrite (who : Who) (value at_ : Nat) (s : State) : Answer :=
  let s := s.atTime at_
  if !s.mayWrite who then .next s
  else if s.hwServo then .next (s.raise Fld.TB_STATUS_SRC_WRITE_IGNORED)
  else .next (s.runSlew.servoWrite.putRate (toSigned 32 value))

/-- An instant after Device Time has been moved by a signed number of ticks; instants do not go below 0. -/
def movedBy (d : Int) (t : Nat) : Nat := ((t : Int) + d).toNat

/-- The instants that running timers count from or to, moved with Device Time: a step with no plan active changes what the
clock reads, and no time that has passed (log entry 60). What an Almanac entry, a capture or a fragment entry holds is a reading and stays. -/
def State.moveTimers (s : State) (d : Int) : State :=
  let m := movedBy d
  let w := { s.wq with
    queues := s.wq.queues.map (fun (e : Nat × Queue) => (e.1, { e.2 with staleSince := e.2.staleSince.map m }))
    cqs := s.wq.cqs.map (fun (e : Nat × Cq) => (e.1, { e.2 with stallStart := e.2.stallStart.map m, holdStart := m e.2.holdStart })) }
  let fns := s.ep.fns.map (fun (e : Nat × FnSt) => (e.1, { e.2 with
    gaps := e.2.gaps.map (fun (g : Nat × Nat) => (g.1, m g.2)), drain := e.2.drain.map (fun (x : Drain) => { x with deadline := m x.deadline }),
    quiesce := e.2.quiesce.map (fun (x : AdminCmd × Drain) => (x.1, { x.2 with deadline := m x.2.deadline })) }))
  let ports := s.ep.ports.map (fun (e : Nat × HpSt) => (e.1, { e.2 with idleSince := m e.2.idleSince, reqs := e.2.reqs.map (fun (r : HostReq) => { r with sent := m r.sent }) }))
  let conns := s.sto.conns.map (fun (e : Nat × StoConn) => (e.1, { e.2 with rtoAt := e.2.rtoAt.map m, ackAt := e.2.ackAt.map m, timed := e.2.timed.map (fun (x : Nat × Nat) => (x.1, m x.2)) }))
  let f := { s.flt with
    times := s.flt.times.map (fun (e : Nat × List Nat) => (e.1, e.2.map m)), recov := s.flt.recov.map (fun (e : Nat × Option Recovery) => (e.1, e.2.map (fun (r : Recovery) => { r with since := m r.since }))),
    halfRecov := s.flt.halfRecov.map (fun (e : Nat × Option Recovery) => (e.1, e.2.map (fun (r : Recovery) => { r with since := m r.since }))),
    wdogKick := m s.flt.wdogKick, laneReset := s.flt.laneReset.map (fun (e : Nat × Option Nat) => (e.1, e.2.map m)), deviceFault := s.flt.deviceFault.map m }
  let k := { s.keys with slots := s.keys.slots.map (fun (e : Nat × KeySlot) => (e.1, { e.2 with eraseAt := e.2.eraseAt.map m, exhaustAt := e.2.exhaustAt.map m })) }
  { s with
    tb := { s.tb with slewAt := m s.tb.slewAt, edge := m s.tb.edge, edgeAt := s.tb.edgeAt.map m, servo := m s.tb.servo, ref10Since := m s.tb.ref10Since, ppsEnd := s.tb.ppsEnd.map m }
    wq := w
    ep := { s.ep with fns := fns, ports := ports }
    sto := { s.sto with conns := conns }
    flt := f
    keys := k
    sic := { s.sic with lulls := s.sic.lulls.map (fun (e : Nat × Lull) => (e.1, { e.2 with expiry := e.2.expiry.map m })) }
    own := { s.own with leaseStart := m s.own.leaseStart }
    baro := { s.baro with passAt := m s.baro.passAt }
    ln := { s.ln with eyes := s.ln.eyes.map (fun (e : Nat × Nat) => (e.1, m e.2)), eyeAt := s.ln.eyeAt.map (fun (e : Nat × Nat) => (e.1, m e.2)) }
    lands := s.lands.map (fun (e : Nat × LandSt) => (e.1, { e.2 with acts := e.2.acts.map (fun (a : LandAct) => { a with time := m a.time }) }))
    pln := { s.pln with swap := s.pln.swap.map (fun (x : Swap) => { x with since := m x.since, woken := x.woken.map (fun (e : Nat × Nat) => (e.1, m e.2)) }) }
    pkg := { s.pkg with tripSince := s.pkg.tripSince.map m, coolSince := s.pkg.coolSince.map m, ocOff := s.pkg.ocOff.map (fun (e : Nat × Nat) => (e.1, m e.2)) } }

/-- Move Device Time by a signed number of ticks; it does not go below 0. -/
def State.shift (s : State) (d : Int) : State := { s.moveTimers d with now := movedBy d s.now }

/-- TB_STEP_WRITE (R34): a step at once, or with a plan active an addition to the slew. STEP is at most 2,147,483,647 in
size, so 0x8000_0000 acts as the bound (log entry 11). -/
def execTbStepWrite (who : Who) (value at_ : Nat) (s : State) : Answer :=
  let s := s.atTime at_
  if !s.mayWrite who then .next s
  else if s.hwServo then .next (s.raise Fld.TB_STATUS_SRC_WRITE_IGNORED)
  else
    let d : Int := max (-2147483647) (toSigned 32 value) * nsTicks
    if s.planActive then
      let s := s.servoWrite.runSlew
      let s := { s with tb := { s.tb with slew := s.tb.slew + d } }
      .next (s.setFld Fld.TB_STATUS_SLEWING (if s.tb.slew = 0 then 0 else 1))
    else .next (s.runSlew.shift d).servoWrite

/-- SLEW_COMPLETE (R39): the slew has been carried out by the instant. -/
def execSlewComplete (at_ : Nat) (s : State) : Answer := .next (s.atTime at_).runSlew

/-- TB_CTRL_WRITE (R35, R37): a reserved SRC and a SLEW out of range keep their values; a new source starts afresh. -/
def execTbCtrlWrite (who : Who) (value at_ : Nat) (s : State) : Answer :=
  let s := s.atTime at_
  if !s.mayWrite who then .next s else
  let s := s.runSlew
  let src := bitsOf value 2 0
  let slew := bitsOf value 15 8
  let old := s.tbSrc
  let s := (s.setFld Fld.TB_CTRL_PPS_DELAY (bitsOf value 31 16)).setFld Fld.TB_CTRL_PPS_EDGE (bitsOf value 3 3)
  let s := if 1 ≤ slew ∧ slew ≤ 30 then s.setFld Fld.TB_CTRL_SLEW slew else s
  let s := if src ≤ 4 then s.setFld Fld.TB_CTRL_SRC src else s
  if s.tbSrc = old then .next s
  else
    let s := (s.setFld Fld.TB_STATUS_LOCKED 0).setFld Fld.TB_STATUS_HOLDOVER 0
    let s := { s with tb := { s.tb with good := 0, edge := s.now, servo := s.now } }
    .next (s.setFld Fld.TB_STATUS_REF10_PRESENT (b2n (s.tbSrc == 4 && s.tb.ref10In && decide (s.tb.ref10Since + secTicks ≤ s.now))))

/-- The offset of an instant from the nearest whole second, in ns. -/
def secondOffset (t : Int) : Int :=
  let r := t % (secTicks : Int)
  let r := if r * 2 ≥ (secTicks : Int) then r - secTicks else r
  r / (nsTicks : Int)

/-- PPS_EDGE (R36): an edge of the selected sense. What the hardware servo makes of the rate is a free value within the
bound of R39 (log entry 12). An edge between 50 ns and 500 ns off starts the count of 8 again and leaves LOCKED as it is: the model's choice, as R36
says only when LOCKED is set and when holdover begins (log entry 12). -/
def execPpsEdge (rising : Bool) (at_ : Nat) (s : State) : Answer :=
  let s := s.atTime at_
  if rising == s.flag Fld.TB_CTRL_PPS_EDGE then .next s else
  let off := secondOffset ((s.now : Int) - (s.fld Fld.TB_CTRL_PPS_DELAY * nsTicks : Nat))
  let shown := max (-32767) (min 32767 off)
  let s := (s.setFld Fld.TB_STATUS_PPS_OFFSET (ofSigned 16 shown)).raise Fld.TB_STATUS_PPS_PRESENT
  let s := { s with tb := { s.tb with edge := s.now, edgeAt := some s.now } }
  if !s.hwServo then .next s
  else if off.natAbs > 500 then .next { s.enterHoldover with tb := { s.enterHoldover.tb with good := 0 } }
  else
    let n := if off.natAbs ≤ 50 then s.tb.good + 1 else 0
    let s := { (s.runSlew.setFld Fld.TB_STATUS_HOLDOVER 0) with tb := { s.runSlew.tb with good := n } }
    let s := (s.putRate (toSigned 32 s.free)).drawn
    .next (if n ≥ 8 then s.raise Fld.TB_STATUS_LOCKED else s)

/-- PPS_TIMEOUT (R36): 2 s without an edge. PPS_PRESENT counts from the last edge, holdover from the later of it and the selection of the
source (log entry 12). -/
def execPpsTimeout (at_ : Nat) (s : State) : Answer :=
  let s := s.atTime at_
  let gone := match s.tb.edgeAt with | some t => s.expired (t + 2 * secTicks) | none => true
  let s := if gone then s.setFld Fld.TB_STATUS_PPS_PRESENT 0 else s
  if s.hwServo ∧ s.expired (s.tb.edge + 2 * secTicks) then .next { s.enterHoldover with tb := { s.enterHoldover.tb with good := 0 } } else .next s

/-- SERVO_HOLDOVER_TIMEOUT (R37): 4 s without a servo write. -/
def execServoHoldoverTimeout (at_ : Nat) (s : State) : Answer :=
  let s := s.atTime at_
  if (s.tbSrc = 1 ∨ s.tbSrc = 2) ∧ s.expired (s.tb.servo + 4 * secTicks) then .next s.enterHoldover else .next s

/-- REF10_LOSS (R38): the PLL changes over to the MEMS oscillator. -/
def execRef10Loss (at_ : Nat) (s : State) : Answer :=
  let s := s.atTime at_
  .next ({ s with tb := { s.tb with ref10In := false } }.setFld Fld.TB_STATUS_REF10_PRESENT 0)

/-- REF10_RESTORE (R38): since is when the input came back; after 1 s of presence the PLL returns to it under SRC 4. -/
def execRef10Restore (since at_ : Nat) (s : State) : Answer :=
  let s := s.atTime at_
  let s := { s with tb := { s.tb with ref10In := true, ref10Since := since } }
  if since + secTicks ≤ s.now ∧ s.tbSrc = 4 then .next (s.raise Fld.TB_STATUS_REF10_PRESENT) else .next s

/-! ### Reading and setting Device Time (R6, R60) -/

/-- Who reads, as a key: each function and each core has its own latches (R6, R576). -/
def whoKey : Who → Nat
  | .fn f => f
  | .core k => 8192 + k

/-- Keep a latched or staged word of a sender, under a register's offset. -/
def State.latch (s : State) (who : Who) (a : Nat) (v : Nat) : State :=
  { s with latched := s.latched.put (whoKey who * 2 ^ 30 + a) (BitVec.ofNat 32 v) }
def State.latchOf (s : State) (who : Who) (a : Nat) : Nat := (s.latched.get 0#32 (whoKey who * 2 ^ 30 + a)).toNat

/-- Answer a register read. -/
def State.answer (s : State) (who : Who) (a v : Nat) : State := s.emit (.readValue who a v)

/-- TB_NOW_READ (R60): the fraction is answered, the other three words are latched for the reader. -/
def execTbNowRead (who : Who) (at_ : Nat) (s : State) : Answer :=
  let s := s.atTime at_
  let t := s.now
  let s := s.latch who (Reg.addr .TB_NOW_NS 0 0) (nsOf t)
  let s := s.latch who (Reg.addr .TB_NOW_SEC_LO 0 0) (secsOf t)
  let s := s.latch who (Reg.addr .TB_NOW_SEC_HI 0 0) (secsOf t / 2 ^ 32 % 65536)
  .next (s.answer who (Reg.addr .TB_NOW_FRAC 0 0) (fracOf t))

/-- TB_SET_COMMIT (R34, R60): the staged words and the high seconds set Device Time, its fraction 0. The words are staged per sender and stand
for later commits too: the model's choice (log entry 62). -/
def execTbSetCommit (who : Who) (value at_ : Nat) (s : State) : Answer :=
  let s := s.atTime at_
  if !s.mayWrite who then .next s else
  let ns := s.latchOf who (Reg.addr .TB_SET_NS 0 0)
  let sec := s.latchOf who (Reg.addr .TB_SET_SEC_LO 0 0) + 2 ^ 32 * (value % 65536)
  if s.planActive ∨ ns > 999999999 then .next (s.raise Fld.TB_STATUS_SET_REFUSED)
  else .next (s.runSlew.shift ((instantOf sec ns 0 : Int) - s.now))

/-- TB_ORIGIN_WRITE (R41). -/
def execTbOriginWrite (who : Who) (value : Nat) (s : State) : Answer :=
  if !s.mayWrite who ∨ value > 999999999 then .next s
  else .next (s.setFld Fld.TB_ORIGIN_NS_NS (value / 100 * 100))

/-! ### The calm domain (R48, R55, R56) -/

/-- The owner's duty hall. -/
def State.ownerDuty (s : State) : Option Nat := if s.ownerValid then s.dutyHall (s.fld Fld.OWN_STATE_OWNER_PORT) else none

/-- Energy on a dark lane is reported to the owner. -/
def State.energyEvent (s : State) (l : Nat) : State := s.eventOwner 0x04 (leBytes 1 l ++ leBytes 1 1)

/-- The reports that wait are made. -/
def State.reportEnergy (s : State) : State :=
  s.tb.edLanes.foldl State.energyEvent { s with tb := { s.tb with edLanes := [] } }

/-- An OPEN window begins in a hall: it serves the thaw requests of the owner's duty hall. -/
def State.serveThaw (s : State) (h : Nat) : State := if s.ownerDuty = some h then s.reportEnergy else s

/-- The device is at F4. -/
def State.atF4 (s : State) : Bool := s.flag Fld.CALM_STATE_STANDBY

/-- A lane is dark (R18, R50): the mode it runs is 0. -/
def State.laneDark (s : State) (l : Nat) : Bool := s.fld Fld.LN_LANE_STATUS_MODE 0 l == 0

/-- LANE_ENERGY_DETECT (R48, R56): energy appears on a dark lane. The report waits for an OPEN window of the owner's duty hall; with no such hall
it is made at once (log entry 64). -/
def execLaneEnergyDetect (l : Nat) (s : State) : Answer :=
  if !s.laneDark l ∨ s.tb.energy.get false l ∨ l ≥ 256 then .next { s with tb := { s.tb with energy := s.tb.energy.put l true } }
  else
    let s := { s with tb := { s.tb with energy := s.tb.energy.put l true } }
    let w := s.fld Fld.CALM_LANE_ED_ED 0 (l / 32)
    let s := s.setFld Fld.CALM_LANE_ED_ED (w ||| 2 ^ (l % 32)) 0 (l / 32)
    .next (match s.ownerDuty with
      | some h => { s.thaw h with tb := { s.tb with edLanes := s.tb.edLanes ++ [l] } }
      | none => s.energyEvent l)

/-- LANE_ENERGY_GONE (R56): a later appearance can set the latch. -/
def execLaneEnergyGone (l : Nat) (s : State) : Answer :=
  .next { s with tb := { s.tb with energy := s.tb.energy.put l false } }

/-- STANDBY_REQUEST (R57): a write of CALM_STANDBY. -/
def execStandbyRequest (who : Who) (value : Nat) (s : State) : Answer :=
  if !s.mayWrite who then .next s else
  let s := s.setWord .CALM_STANDBY (BitVec.ofNat 32 (value % 32))
  .next (s.setFld Fld.CALM_STATE_STANDBY_PENDING (if s.atF4 then 0 else value % 2))

end Sys2Proof.Machine
end

