-- ==== Sys2Proof/Machine/Pools.lean ====
section
/-! DEFINITION. The buffer pool manager (chapter 12): regions, headers, free lists and stocks, allocation, references
and release, owners and the leak audit. -/

namespace Sys2Proof.Machine

/-! ### The part's memories as the manager and the engines reach them (R16, R148) -/

/-- Read octets of a hall's alcove, of an Atrium stack. -/
def State.alcoveRead (s : State) (h a n : Nat) : Bytes := Memory.readN s.alcove (h * 2 ^ 25 + a) n
def State.alcoveWrite (s : State) (h a : Nat) (b : Bytes) : State :=
  { s with alcove := Memory.writeN s.alcove (h * 2 ^ 25 + a) b }
def State.atriumRead (s : State) (k a n : Nat) : Bytes := Memory.readN s.atrium (k * 2 ^ 35 + a) n
def State.atriumWrite (s : State) (k a : Nat) (b : Bytes) : State :=
  { s with atrium := Memory.writeN s.atrium (k * 2 ^ 35 + a) b }

/-- The lower 28 MiB of an alcove, which programs may write (R16). -/
def alcoveTop : Nat := 0x01C00000

/-- Octets of one Atrium stack (R148). -/
def stackSize : Nat := 2 ^ 35

/-! ### Classes and slots (R321) -/

/-- Data area of a class. -/
def classSize (c : Nat) : Nat := [256, 512, 1024, 2048, 4096, 9216, 65536, 1048576].getD c 0

/-- Header line of a class at a location. -/
def headerLine (c loc : Nat) : Nat := if loc = 1 then [0, 512, 1024, 2048, 4096, 1024, 8192, 8192].getD c 0 else 64

/-- Slot stride of a class at a location. -/
def slotStride (c loc : Nat) : Nat := classSize c + headerLine c loc

/-- A buffer ID (R11). -/
def bufId (c i : Nat) : Nat := c * 2 ^ 29 + i

/-! ### Regions (R322 to R324) -/

/-- The key of a pair of class and location. -/
def pairKey (c loc inst : Nat) : Nat := c * 1024 + loc * 256 + inst
def Region.key (r : Region) : Nat := pairKey r.cls r.loc r.inst

def State.pair (s : State) (k : Nat) : PoolPair := s.bpm.pairs.get {} k
def State.setPair (s : State) (k : Nat) (p : PoolPair) : State := { s with bpm := { s.bpm with pairs := s.bpm.pairs.put k p } }

/-- The region that holds an index of a class (R323), with its number. -/
def State.regionOf (s : State) (id : Nat) : Option (Nat × Region) :=
  let c := id / 2 ^ 29
  let i := id % 2 ^ 29
  (s.bpm.regions.find? (fun e => e.2.cls == c && decide (e.2.first ≤ i) && decide (i < e.2.first + e.2.count)))

def State.setRegion (s : State) (n : Nat) (r : Region) : State := { s with bpm := { s.bpm with regions := s.bpm.regions.put n r } }

/-- Where a buffer's data starts, and where its header stands (R323). -/
def Region.dataAt (r : Region) (id : Nat) : Nat := r.base + (id % 2 ^ 29 - r.first) * slotStride r.cls r.loc
def Region.headerAt (r : Region) (id : Nat) : Nat := r.dataAt id + classSize r.cls

/-- A host region is unreachable while its link is not in L0 or its PF is not in D0 (R324). -/
def State.unreachable (s : State) (r : Region) : Bool :=
  r.loc == 2 && (s.fld Fld.EP_PORT_STATUS_LSTATE 0 r.inst != 1 || !s.inD0 (1024 * r.inst))

/-- A region lies in a hall's alcove: the hall stays at F2 or above (R324). -/
def State.holdsRegion (s : State) (h : Nat) : Bool := s.bpm.regions.any (fun e => e.2.loc == 0 && e.2.inst == h)

/-- Read and write a header at a location (R325). -/
def State.headerRead (s : State) (r : Region) (a : Nat) : Bytes :=
  match r.loc with
  | 0 => s.alcoveRead r.inst a 32
  | 1 => s.atriumRead r.inst a 32
  | _ => Memory.readN s.bpm.hostHeaders (r.inst * 2 ^ 64 + a) 32
def State.headerWrite (s : State) (r : Region) (a : Nat) (b : Bytes) : State :=
  match r.loc with
  | 0 => s.alcoveWrite r.inst a b
  | 1 => s.atriumWrite r.inst a b
  | _ => ({ s with bpm := { s.bpm with hostHeaders := Memory.writeN s.bpm.hostHeaders (r.inst * 2 ^ 64 + a) b } }).hostWrite (1024 * r.inst) a b

/-- A buffer header (R325). -/
structure Header where
  next : Nat
  owner : Nat
  refs : Nat
  state : Nat
  tag : Nat
  flight : Nat
deriving DecidableEq, Repr

def Header.bytes (h : Header) : Bytes :=
  leBytes 4 h.next ++ leBytes 4 h.owner ++ leBytes 2 h.refs ++ leBytes 1 h.state ++ leBytes 1 h.tag ++ leBytes 4 0 ++
    leBytes 8 h.flight ++ leBytes 8 0
def headerOf (b : Bytes) : Header :=
  { next := leAt b 0 4, owner := leAt b 4 4, refs := leAt b 8 2, state := leAt b 10 1, tag := leAt b 11 1, flight := leAt b 16 8 }

def State.header (s : State) (r : Region) (id : Nat) : Header := headerOf (s.headerRead r (r.headerAt id))
def State.putHeader (s : State) (r : Region) (id : Nat) (h : Header) : State := s.headerWrite r (r.headerAt id) h.bytes

/-! ### Owners (R332) -/

def noOwner : BufOwner :=
  { fn := 8192, ceil := [], staged := none, ageLimit := 0, closing := none, counts := [], buckets := [], old := 0, oldFlight := 0, alarm := false }
def State.bufOwner (s : State) (o : Nat) : BufOwner := s.bpm.owners.get noOwner o
def State.setBufOwner (s : State) (o : Nat) (v : BufOwner) : State := { s with bpm := { s.bpm with owners := s.bpm.owners.put o v } }

/-- Buffers that an owner holds. -/
def BufOwner.total (o : BufOwner) : Nat := o.counts.foldl (· + ·) 0

/-- Add to one entry of a list of counts. -/
def addAt (l : List Nat) (c : Nat) (n : Nat) : List Nat := l.set c (l.getD c 0 + n)
def subAt (l : List Nat) (c : Nat) (n : Nat) : List Nat := l.set c (l.getD c 0 - n)

/-- The handle of an owner. -/
def State.ownerHandle (s : State) (o : Nat) : Nat := if o = 0 then 0x50010000 else s.handle 5 o

/-- Buffers of a class over all owners that a function holds (R330). -/
def State.fnBuffers (s : State) (f c : Nat) : Nat :=
  s.bpm.owners.foldl (fun n e => if e.2.fn == f then n + e.2.counts.getD c 0 else n) 0

/-- The bucket period of a flight (R334). -/
def State.periodOf (s : State) (f : Nat) : Nat := f / 2 ^ s.bpm.span

/-- Show the populated and free counts and the sizes (BPM registers). -/
def State.showPools (s : State) : State :=
  let total := fun c => s.bpm.regions.foldl (fun n e => if e.2.cls == c then n + e.2.count else n) 0
  let used := fun c => s.bpm.regions.foldl (fun n e => if e.2.cls == c then n + e.2.allocated else n) 0
  let s1 := (List.range 8).foldl (fun (t : State) c =>
    (t.setFld Fld.BPM_CLASS_TOTAL_COUNT (total c) 0 c).setFld Fld.BPM_CLASS_FREE_COUNT (total c - used c) 0 c) s
  let bytes := s.bpm.regions.foldl (fun n e => n + e.2.count * slotStride e.2.cls e.2.loc) 0
  ((s1.setFld Fld.BPM_REGIONS_COUNT s.bpm.regions.length).setFld Fld.BPM_BYTES_LO_BYTES bytes).setFld Fld.BPM_BYTES_HI_BYTES (bytes / 2 ^ 32)

/-! ### Allocation (R326, R327, R329, R330) -/

/-- The pair's frontier: the region of the pair with the lowest index never allocated (R326). -/
def State.frontier (s : State) (k : Nat) : Option (Nat × Region) :=
  (s.bpm.regions.filter (fun e => e.2.key == k && decide (e.2.next < e.2.first + e.2.count) && !s.unreachable e.2)).foldl
    (fun best e => match best with
      | none => some e
      | some b => if e.2.next < b.2.next then some e else some b) none

/-- Take a free buffer of a pair: from the stock, or from the frontier when neither stock nor list holds one. none with
true: the stock is empty while the list is not (R327). -/
def State.takeFree (s : State) (k : Nat) : State × Option Nat × Bool :=
  let p := s.pair k
  match p.stock with
  | id :: t => (s.setPair k { p with stock := t }, some id, false)
  | [] =>
    if p.listed > 0 ∧ !p.broken then (s, none, true)
    else match s.frontier k with
      | some (n, r) => (s.setRegion n { r with next := r.next + 1 }, some (bufId r.cls r.next), false)
      | none => (s, none, false)

/-- An owner is refused a buffer of a class (R330): CLOSING, at its ceiling, or its function, other than the owner host (R426), at its share's. -/
def State.quotaFull (s : State) (o c : Nat) : Bool :=
  let w := s.bufOwner o
  let share := s.shareAt w.fn (0x20 + 4 * c) 4
  w.closing.isSome || (w.ceil.getD c 0 != 0 && decide (w.ceil.getD c 0 ≤ w.counts.getD c 0)) ||
    (share != 0 && !s.isOwner w.fn && decide (share ≤ s.fnBuffers w.fn c))

/-- Allocate a buffer of a class at a location for an owner index; answers the buffer ID or the status (R329). -/
def State.allocBuffer (s : State) (o c loc inst : Nat) : State × (Nat ⊕ Nat) :=
  if s.quotaFull o c then (s.bump Fld.BPM_CNT_QUOTA_COUNT, .inr St.quota)
  else
    let reach := (s.bpm.regions.any (fun e => e.2.key == pairKey c loc inst && !s.unreachable e.2))
    match (if reach then s.takeFree (pairKey c loc inst) else (s, none, false)) with
    | (s, none, true) =>
      (((s.bump Fld.BPM_CNT_NO_BUFFER_COUNT).bump Fld.BPM_CNT_STOCK_EMPTY_COUNT).raise Fld.BPM_STATUS_STOCK_EMPTY, .inr St.noBuffer)
    | (s, none, false) => (s.bump Fld.BPM_CNT_NO_BUFFER_COUNT, .inr St.noBuffer)
    | (s, some id, _) =>
      match s.regionOf id with
      | none => (s.bump Fld.BPM_CNT_NO_BUFFER_COUNT, .inr St.noBuffer)
      | some (n, r) =>
        let f := s.flightNow
        let s := s.putHeader r id { next := 0xFFFFFFFF, owner := s.ownerHandle o, refs := 1, state := 1, tag := id % 256, flight := f }
        let s := s.setRegion n { r with allocated := r.allocated + 1, used := max r.used (id % 2 ^ 29 + 1), held := r.held.put o (r.held.get 0 o + 1) }
        let w := s.bufOwner o
        let p := s.periodOf f
        let s := s.setBufOwner o { w with counts := addAt w.counts c 1, buckets := w.buckets.put p (w.buckets.get 0 p + 1) }
        ((s.bump Fld.BPM_CNT_ALLOC_COUNT).showPools, .inl id)

/-- Allocate for what a handle names: BAD_HANDLE where the owner is gone, whatever its index now names (R10, R329). -/
def State.allocFor (s : State) (hd c loc inst : Nat) : State × (Nat ⊕ Nat) :=
  match s.ownerIdx hd with
  | none => (s, .inr St.badHandle)
  | some o => s.allocBuffer o c loc inst

/-- The smallest class that holds a length and has a region at the location (R329). -/
def State.classFor (s : State) (len loc inst : Nat) : Option Nat :=
  (List.range 8).find? (fun c => decide (len ≤ classSize c) && s.bpm.regions.any (fun e => e.2.key == pairKey c loc inst))

/-! ### References and release (R331) -/

/-- The owner index that a header's OWNER names. -/
def ownerOfHandle (h : Nat) : Nat := h % 65536

/-- Count a refused release or reference; the first of an owner in a flight is logged (R331). -/
def State.badRelease (s : State) (id status fn : Nat) (o : Nat) : State :=
  let s := if status = St.notOwner then s.bump Fld.BPM_CNT_NOT_OWNER_COUNT else s.bump Fld.BPM_CNT_BAD_RELEASE_COUNT
  if s.bpm.logged.contains o then s
  else ({ s with bpm := { s.bpm with logged := o :: s.bpm.logged } }).almDev 0x0901
    (leBytes 4 id ++ leBytes 1 status ++ leBytes 1 0 ++ leBytes 2 fn)

/-- A CLOSING owner whose last buffer is freed is destroyed (R332). -/
def State.finishOwner (s : State) (o : Nat) : State :=
  let w := s.bufOwner o
  match w.closing with
  | some d => if w.total = 0 then (({ s with bpm := { s.bpm with owners := s.bpm.owners.del o } }).nextGen 5 o).adminOk d else s
  | none => s

/-- A buffer becomes free: it leaves its owner's counts and returns to its pair (R327, R331, R334). -/
def State.freeBuffer (s : State) (n : Nat) (r : Region) (id : Nat) (h : Header) : State :=
  let k := r.key
  let p := s.pair k
  let toStock := decide (p.stock.length < 64)
  let s := s.putHeader r id { h with next := if toStock ∨ p.broken then 0xFFFFFFFF else p.head.getD 0xFFFFFFFF, refs := 0, state := 0 }
  let s := s.setPair k (if toStock then { p with stock := id :: p.stock } else if p.broken then p else { p with head := some id, listed := p.listed + 1 })
  let o := ownerOfHandle h.owner
  let s := s.setRegion n { r with allocated := r.allocated - 1, held := r.held.put o (r.held.get 0 o - 1) }
  let w := s.bufOwner o
  let q := s.periodOf h.flight
  let live := w.buckets.get 0 q
  let w := { w with counts := subAt w.counts r.cls 1 }
  let w := if 0 < live then { w with buckets := w.buckets.put q (live - 1) } else { w with old := w.old - 1 }
  let s := s.setBufOwner o w
  ((s.bump Fld.BPM_CNT_FREED_COUNT).showPools).finishOwner o

/-- A function may release or reference a buffer of an owner: the owner host, or the holder of the owner (R331). -/
def State.mayTouch (s : State) (f : Option Nat) (o : Nat) : Bool :=
  match f with
  | none => true
  | some f => s.isOwner f || (s.bufOwner o).fn == f

/-- The failure of a release or a reference, if any: in the order of R331's table. -/
def State.refFault (s : State) (id : Nat) (f : Option Nat) : Option Nat :=
  match s.regionOf id with
  | none => some St.badRelease
  | some (_, r) =>
    if r.used ≤ id % 2 ^ 29 then some St.badRelease
    else if s.unreachable r then some St.busError
    else
      let h := s.header r id
      if h.state ≠ 1 ∨ h.tag ≠ id % 256 then some St.badRelease
      else if !s.mayTouch f (ownerOfHandle h.owner) then some St.notOwner
      else none

/-- A corrupt header is found (R331). -/
def State.corruptHeader (s : State) (id : Nat) : Bool :=
  match s.regionOf id with
  | none => false
  | some (_, r) => decide (id % 2 ^ 29 < r.used) && !s.unreachable r &&
      (decide (2 ≤ (s.header r id).state) || (s.header r id).tag != id % 256)

/-- The owner that a buffer's header names; 8192 when the ID names no header. -/
def State.bufferOwner (s : State) (id : Nat) : Nat :=
  match s.regionOf id with
  | none => 8192
  | some (_, r) => if r.used ≤ id % 2 ^ 29 then 8192 else ownerOfHandle (s.header r id).owner

/-- Note a refused release or reference of a buffer (R331). A BUS_ERROR is counted nowhere. A device block has no
function number: the payload then holds a free value (log entry 4). -/
def State.noteRefFault (s : State) (id status : Nat) (f : Option Nat) : State :=
  let s := if s.corruptHeader id then (s.raise Fld.BPM_STATUS_HDR_BAD).bump Fld.BPM_CNT_HDR_BAD_COUNT else s
  if status = St.busError then s
  else match f with
    | some f => s.badRelease id status f (s.bufferOwner id)
    | none => s.drawn.badRelease id status (s.free % 65536) (s.bufferOwner id)

/-- Release one reference of a buffer; none: released (R331). -/
def State.release (s : State) (id : Nat) (f : Option Nat) : State × Option Nat :=
  match s.refFault id f, s.regionOf id with
  | some st, _ => (s.noteRefFault id st f, some st)
  | none, none => (s, some St.badRelease)
  | none, some (n, r) =>
    let h := s.header r id
    if h.refs ≤ 1 then (s.freeBuffer n r id h, none)
    else (s.putHeader r id { h with refs := h.refs - 1 }, none)

/-- A device block releases a reference. -/
def State.drop (s : State) (id : Nat) : State := (s.release id none).1

/-- Add references to a buffer (R331): the replication unit's copies, or BUF_REF's one. -/
def State.addRefs (s : State) (id n : Nat) (f : Option Nat) : State × Option Nat :=
  match s.refFault id f, s.regionOf id with
  | some st, _ => (s.noteRefFault id st f, some st)
  | none, none => (s, some St.badRelease)
  | none, some (_, r) =>
    let h := s.header r id
    if h.refs + n > 65535 then (s, some St.quota) else (s.putHeader r id { h with refs := h.refs + n }, none)

/-! ### Stocks (R326, R327) -/

/-- Refill a stock: from the in-band list, then from the frontier, up to 64. -/
def State.refill (s : State) (k : Nat) : Nat → State
  | 0 => s
  | fuel + 1 =>
    let p := s.pair k
    if 64 ≤ p.stock.length then s
    else match (if p.broken then none else p.head) with
      | some id =>
        match s.regionOf id with
        | none => s.setPair k { p with head := none, listed := 0 }
        | some (_, r) =>
          if s.unreachable r then s else
          let h := s.header r id
          if h.state ≠ 0 ∨ h.tag ≠ id % 256 then
            ((s.setPair k { p with broken := true, head := none, listed := 0 }).raise Fld.BPM_STATUS_LIST_BROKEN).almDev 0x0902
              (leBytes 4 id ++ leBytes 1 r.cls ++ leBytes 1 r.loc ++ leBytes 1 r.inst)
          else
            (s.setPair k { p with stock := p.stock ++ [id], head := if h.next = 0xFFFFFFFF then none else some h.next, listed := p.listed - 1 }).refill k fuel
      | none =>
        match s.frontier k with
        | some (n, r) => ((s.setRegion n { r with next := r.next + 1 }).setPair k { p with stock := p.stock ++ [bufId r.cls r.next] }).refill k fuel
        | none => s

/-- STOCK_REFILL (R327). -/
def execStockRefill (c loc inst : Nat) (s : State) : Answer :=
  let k := pairKey c loc inst
  if (s.pair k).stock.length < 32 then .next (s.refill k 64) else .next s

/-! ### Regions and the reset of R328 -/

/-- The buffers that an owner holds in a region that is reset leave its counts (R328). -/
def State.forget (s : State) (r : Region) (e : Nat × Nat) : State :=
  let w := s.bufOwner e.1
  if s.bpm.owners.any (fun x => x.1 == e.1) then s.setBufOwner e.1 { w with counts := subAt w.counts r.cls e.2 } else s

/-- All of an owner's bucket counts move into OLD (R334). -/
def BufOwner.bucketsToOld (w : BufOwner) (span : Nat) : BufOwner :=
  let live := w.buckets.filter (fun e => e.2 != 0)
  let n := live.foldl (fun n e => n + e.2) 0
  match live with
  | [] => { w with buckets := [] }
  | e :: _ => { w with buckets := [], old := w.old + n, oldFlight := if w.old = 0 then e.1 * 2 ^ span else min w.oldFlight (e.1 * 2 ^ span) }

/-- The buffers of a counts list. -/
def BufOwner.clip (w : BufOwner) : BufOwner := { w with old := min w.old w.total }

/-- The region reset of R328: every alcove and Atrium region. -/
def State.resetRegions (s : State) : State :=
  let s := s.bpm.regions.foldl (fun (s : State) e =>
    if e.2.loc = 2 then s else
    let s := e.2.held.foldl (fun (s : State) x => s.forget e.2 x) s
    s.setRegion e.1 { e.2 with next := e.2.first, used := e.2.first, allocated := 0, held := [] }) s
  let s := { s with bpm := { s.bpm with pairs := s.bpm.pairs.filter (fun e => e.1 / 256 % 4 == 2), owners := s.bpm.owners.map (fun (e : Nat × BufOwner) => (e.1, (e.2.bucketsToOld s.bpm.span).clip)) } }
  (s.bpm.owners.foldl (fun (s : State) e => s.finishOwner e.1) s).showPools

/-- The lowest run of indices of a class that no region holds (R323). -/
def State.freeRun (s : State) (c count : Nat) : Nat :=
  let ends := 0 :: (s.bpm.regions.filter (fun e => e.2.cls == c)).map (fun e => e.2.first + e.2.count)
  let fits := fun f => s.bpm.regions.all (fun e => e.2.cls != c || decide (f + count ≤ e.2.first) || decide (e.2.first + e.2.count ≤ f))
  (ends.filter fits).foldl min (2 ^ 29)

/-- A region's parameters are within R322. -/
def State.regionOk (s : State) (c loc inst base count : Nat) : Bool :=
  let top := base + count * slotStride c loc
  let place := match loc with
    | 0 => decide (inst < 18) && base % 64 == 0 && decide (top ≤ alcoveTop)
    | 1 => decide (inst < 4) && c != 0 && base % headerLine c 1 == 0 && decide (top ≤ stackSize)
    | 2 => decide (inst < 8) && base % 4096 == 0
    | _ => false
  place && decide (1 ≤ count) && s.bpm.regions.all (fun e => e.2.loc != loc || e.2.inst != inst ||
    decide (top ≤ e.2.base) || decide (e.2.base + e.2.count * slotStride e.2.cls e.2.loc ≤ base))

/-- The lowest free region number (log entry 10). -/
def State.freeRegion (s : State) : Option Nat := (List.range 256).find? (fun n => !(s.bpm.regions.any (fun e => e.1 == n)))

/-- BPM_REGION_ADD (R322 to R324, R331): a hall at F3 that takes a region in its alcove is at F2 from then on (log entry 70). -/
def execBpmRegionAdd (d : AdminCmd) (s : State) : Answer :=
  .next (s.admin d 0x40 (fun s =>
    let c := d.p 0 % 8
    let loc := bitsOf (d.p 0) 5 4
    let inst := bitsOf (d.p 0) 12 8
    let count := d.p 3
    if !s.regionOk c loc inst (d.p64 1) count then s.adminFail d St.badDescriptor
    else
      let sum := fun (f : Region → Nat) => s.bpm.regions.foldl (fun n e => n + f e.2) 0
      let held := sum (fun r => if r.cls = c then r.count else 0)
      let bytes := sum (fun r => r.count * slotStride r.cls r.loc)
      let first := s.freeRun c count
      match s.freeRegion with
      | some n =>
        if 2 ^ 29 < held + count ∨ 2 ^ 29 < first + count ∨ 2 ^ 42 < bytes + count * slotStride c loc then s.adminFail d St.quota
        else
          let s := if loc = 0 ∧ s.frost inst = 3 ∧ !s.atF4 then (s.setFrost inst 2).setFld Fld.CALM_HALL_STATE_TARGET 2 0 inst else s
          let p := s.pair (pairKey c loc inst)
          let s := if p.cut then s.setPair (pairKey c loc inst) { p with broken := false, cut := false } else s
          let s := s.setRegion n { cls := c, loc := loc, inst := inst, base := d.p64 1, count := count, first := first, next := first, used := first, allocated := 0 }
          s.showPools.adminOk d first n
      | none => s.adminFail d St.quota))

/-- The buffers of an in-band free list in its order; the fuel bounds them, and a corrupt header ends the walk (R325, R326). -/
def State.freeList (s : State) : Nat → Option Nat → List Nat
  | 0, _ => []
  | _, none => []
  | n + 1, some id =>
    match s.regionOf id with
    | none => []
    | some (_, r) =>
      let h := s.header r id
      id :: s.freeList n (if h.state ≠ 0 ∨ h.tag ≠ id % 256 ∨ h.next = 0xFFFFFFFF then none else some h.next)

/-- Thread free buffers through NEXT in the order given. -/
def State.thread (s : State) (ids : List Nat) : State :=
  (ids.zip (ids.drop 1 ++ [0xFFFFFFFF])).foldl (fun (s : State) (e : Nat × Nat) =>
    match s.regionOf e.1 with
    | none => s
    | some (_, r) => s.putHeader r e.1 { s.header r e.1 with next := e.2 }) s

/-- BPM_REGION_REMOVE (R323): the region's free buffers leave its pair; a pair with no region left is served afresh. A list that
must be threaded again needs its headers (R324). -/
def execBpmRegionRemove (d : AdminCmd) (s : State) : Answer :=
  .next (s.admin d 0x41 (fun s =>
    match look s.bpm.regions (d.p 0) with
    | none => s.adminFail d St.badDescriptor
    | some r =>
      if r.allocated ≠ 0 then s.adminFail d St.quota
      else
        let inside := fun id => decide (bufId r.cls r.first ≤ id) && decide (id < bufId r.cls r.first + r.count)
        let p := s.pair r.key
        let s1 : State := { s with bpm := { s.bpm with regions := s.bpm.regions.del (d.p 0) } }
        if !(s1.bpm.regions.any (fun e => e.2.key == r.key)) then ((s1.setPair r.key {}).showPools).adminOk d
        else
          let ids := s.freeList p.listed p.head
          let keep := ids.filter (fun id => !inside id)
          if keep = ids then ((s1.setPair r.key { p with stock := p.stock.filter (fun id => !inside id), cut := p.broken }).showPools).adminOk d
          else if s.unreachable r then s.adminFail d St.busError
          else (((s1.thread keep).setPair r.key { p with stock := p.stock.filter (fun id => !inside id), head := keep.head?, listed := keep.length }).showPools).adminOk d))

/-- BPM_REGION_QUERY (R333, R388). -/
def execBpmRegionQuery (d : AdminCmd) (s : State) : Answer :=
  .next (s.admin d 0x42 (fun s =>
    match look s.bpm.regions (d.p 0) with
    | none => s.adminFail d St.badDescriptor
    | some r =>
      let p0 := r.cls + r.loc * 16 + r.inst * 256
      (s.adminOut d (leBytes 4 p0 ++ leBytes 8 r.base ++ leBytes 4 r.count ++ leBytes 4 r.used ++ leBytes 4 (r.count - r.allocated) ++ leBytes 4 r.allocated ++ leBytes 4 0)).adminOk d))

/-! ### Owner commands (R332, R333) -/

/-- Owners that a function holds. -/
def State.ownersOf (s : State) (f : Nat) : Nat := (s.bpm.owners.filter (fun e => e.2.fn == f && e.1 != 0)).length

/-- The lowest free owner index (log entry 10). -/
def State.freeOwner (s : State) : Option Nat := (List.range 8192).find? (fun n => !(s.bpm.owners.any (fun e => e.1 == n)))

/-- BPM_OWNER_CREATE (R332): a function for itself within its share, the owner host for any function. -/
def execBpmOwnerCreate (d : AdminCmd) (s : State) : Answer :=
  .next (s.admin d 0x43 (fun s =>
    let f := if s.isOwner d.fn ∧ d.p 0 ≠ 0 then d.p 0 else d.fn
    if !s.isOwner d.fn ∧ d.p 0 ≠ 0 then s.adminFail d St.badDescriptor
    else if !s.fnExists f then s.adminFail d St.badDescriptor
    else if !s.isOwner d.fn ∧ s.shareAt d.fn 0x0A 2 ≤ s.ownersOf d.fn then s.adminFail d St.quota
    else match s.freeOwner with
      | none => s.adminFail d St.quota
      | some o =>
        let z := List.replicate 8 0
        let s := s.setBufOwner o { noOwner with fn := f, ceil := z, counts := z }
        s.adminOk d (s.ownerHandle o)))

/-- The owner that a handle names for a command of its holder or the owner host. -/
def State.ownerFor (s : State) (d : AdminCmd) (h : Nat) (k : Nat → State) : State :=
  match s.ownerIdx h with
  | none => s.adminFail d St.badHandle
  | some o =>
    if !(s.bpm.owners.any (fun e => e.1 == o)) then s.adminFail d St.badHandle
    else if !(s.isOwner d.fn) ∧ (s.bufOwner o).fn ≠ d.fn then s.adminFail d St.accessDenied
    else k o

/-- BPM_OWNER_SET (R330, R333, R44): ceilings and age limit, from the next landing. -/
def execBpmOwnerSet (d : AdminCmd) (buf : Bytes) (s : State) : Answer :=
  .next (s.admin d 0x44 (fun s => s.ownerFor d (d.p 0) (fun o =>
    let w := s.bufOwner o
    let ceil := (List.range 8).map (fun c => leAt buf (4 * c) 4)
    let w := if s.planActive then { w with staged := some (ceil, d.p 1) } else { w with ceil := ceil, ageLimit := d.p 1 }
    (s.setBufOwner o w).adminOk d)))

/-- BPM_OWNER_DESTROY (R332). The device owner is present always (DEDUCED: R332 has it present from reset and names no
end of it), so its destroy is refused. -/
def execBpmOwnerDestroy (d : AdminCmd) (s : State) : Answer :=
  .next (s.admin d 0x45 (fun s => s.ownerFor d (d.p 0) (fun o =>
    if o = 0 then s.adminFail d St.accessDenied
    else if (s.bufOwner o).closing.isSome then s.adminFail d St.unsupported
    else (s.setBufOwner o { s.bufOwner o with closing := some d }).finishOwner o)))

/-- BUF_ALLOC (R329, R333). -/
def execBufAlloc (d : AdminCmd) (s : State) : Answer :=
  .next (s.admin d 0x46 (fun s =>
    let byLen := bitOf (d.p 1) 3
    let loc := bitsOf (d.p 1) 5 4
    let inst := bitsOf (d.p 1) 12 8
    let len := d.p 2
    if loc = 3 ∨ (loc = 0 ∧ 18 ≤ inst) ∨ (loc = 1 ∧ 4 ≤ inst) ∨ (loc = 2 ∧ 8 ≤ inst) ∨ (byLen ∧ len = 0) then s.adminFail d St.badDescriptor
    else if byLen ∧ 1048576 < len then s.adminFail d St.lengthLimit
    else s.ownerFor d (d.p 0) (fun o =>
      match (if byLen then s.classFor len loc inst else some (d.p 1 % 8)) with
      | none =>
        if (s.bufOwner o).closing.isSome then (s.bump Fld.BPM_CNT_QUOTA_COUNT).adminFail d St.quota
        else (s.bump Fld.BPM_CNT_NO_BUFFER_COUNT).adminFail d St.noBuffer
      | some c =>
        match s.allocBuffer o c loc inst with
        | (s, .inl id) => s.adminOk d (match s.regionOf id with | some (_, r) => r.dataAt id | none => 0) id
        | (s, .inr st) => s.adminFail d st)))

/-- BUF_REF (R331). -/
def execBufRef (d : AdminCmd) (s : State) : Answer :=
  .next (s.admin d 0x47 (fun s =>
    match s.addRefs (d.p 0) 1 (some d.fn) with
    | (s, none) => s.adminOk d
    | (s, some st) => s.adminFail d st))

/-- Release each ID of a list; how many were released and the first failure (R333). -/
def State.releaseAll (s : State) (f : Nat) : List Nat → State × Nat × Option Nat
  | [] => (s, 0, none)
  | id :: t =>
    let (s1, r) := s.release id (some f)
    let (s2, n, st) := s1.releaseAll f t
    match r with
    | none => (s2, n + 1, st)
    | some e => (s2, n, some e)

/-- BUF_RELEASE (R331, R333): 1 to 64 IDs, each on its own. -/
def execBufRelease (d : AdminCmd) (buf : Bytes) (s : State) : Answer :=
  .next (s.admin d 0x48 (fun s =>
    if d.p 0 = 0 ∨ 64 < d.p 0 then s.adminFail d St.badDescriptor
    else match s.releaseAll d.fn ((List.range (d.p 0)).map (fun i => leAt buf (4 * i) 4)) with
      | (s, n, st) => s.adminDone d (st.getD St.success) 0 0 n))

/-! ### Leak audit (R334, R335) -/

/-- The first flight of the oldest buffer as the manager knows it; none when nothing is allocated. -/
def State.oldest (s : State) (w : BufOwner) : Option Nat :=
  if w.old ≠ 0 then some w.oldFlight
  else match w.buckets.find? (fun e => e.2 != 0) with
    | some e => some (e.1 * 2 ^ s.bpm.span)
    | none => none

/-- One record of BPM_AUDIT. -/
def State.auditRecord (s : State) (o : Nat) : Bytes :=
  if !(s.bpm.owners.any (fun e => e.1 == o)) then List.replicate 8 0 ++ leBytes 8 0xFFFFFFFFFFFFFFFF ++ List.replicate 48 0
  else
    let w := s.bufOwner o
    let full := (List.range 8).any (fun c => w.ceil.getD c 0 != 0 && decide (w.ceil.getD c 0 ≤ w.counts.getD c 0))
    let flags := b2n w.alarm + 2 * b2n w.closing.isSome + 4 * b2n full
    let bytes := (List.range 8).foldl (fun n c => n + w.counts.getD c 0 * classSize c) 0
    leBytes 4 (s.ownerHandle o) ++ leBytes 2 w.fn ++ leBytes 1 flags ++ leBytes 1 0 ++
      leBytes 8 ((s.oldest w).getD 0xFFFFFFFFFFFFFFFF) ++ leBytes 4 w.ageLimit ++ leBytes 4 0 ++
      ((List.range 8).map (fun c => leBytes 4 (w.counts.getD c 0))).flatten ++ leBytes 8 bytes

/-- BPM_AUDIT (R333, R335). -/
def execBpmAudit (d : AdminCmd) (s : State) : Answer :=
  .next (s.admin d 0x49 (fun s =>
    let idx := (List.range (d.p 1)).map (fun i => d.p 0 + i)
    if 8191 < d.p 0 ∨ d.p 1 = 0 ∨ 8192 < d.p 0 + d.p 1 then s.adminFail d St.badDescriptor
    else if !s.isOwner d.fn ∧ s.bpm.owners.any (fun e => decide (d.p 0 ≤ e.1) && decide (e.1 < d.p 0 + d.p 1) && e.2.fn != d.fn) then
      s.adminFail d St.accessDenied
    else (s.adminOut d (idx.map s.auditRecord).flatten).adminOk d))

/-- Take effect at a landing: staged ceilings and age limits (R330, R333). -/
def State.ceilingsLand (s : State) : State :=
  { s with bpm := { s.bpm with logged := [], owners := s.bpm.owners.map (fun e => match e.2.staged with
      | some (c, a) => (e.1, { e.2 with ceil := c, ageLimit := a, staged := none })
      | none => e) } }

/-- Buckets 32 periods old move into OLD (R334). -/
def BufOwner.rollTo (w : BufOwner) (period span : Nat) : BufOwner :=
  let due := fun (e : Nat × Nat) => decide (e.1 + 32 ≤ period)
  let gone := w.buckets.filter (fun e => due e && e.2 != 0)
  let keep := w.buckets.filter (fun e => !due e)
  match gone with
  | [] => { w with buckets := keep }
  | e :: _ =>
    { w with buckets := keep, old := w.old + gone.foldl (fun n e => n + e.2) 0, oldFlight := if w.old = 0 then e.1 * 2 ^ span else min w.oldFlight (e.1 * 2 ^ span) }

/-- An owner's age at a landing against its limit (R334). -/
def State.ageCheck (s : State) (o : Nat) (flight : Nat) : State :=
  let w := s.bufOwner o
  let age := match s.oldest w with
    | some f => flight - f
    | none => 0
  let tooOld := w.ageLimit != 0 && decide (w.ageLimit < age) && (s.oldest w).isSome
  if tooOld && !w.alarm then
    let s := (s.setBufOwner o { w with alarm := true }).raise Fld.BPM_STATUS_ALARM
    let s := if s.bpm.alarms.length < 64 then { s with bpm := { s.bpm with alarms := s.bpm.alarms ++ [o] } } else s.raise Fld.BPM_STATUS_ALARM_OVF
    let body := leBytes 28 s.free
    let s := s.drawn
    let s := if w.fn < 8192 ∧ !s.isOwner w.fn then s.event w.fn 0x02 body else s
    (s.eventOwner 0x02 body).almDev 0x0903 (leBytes 4 (s.ownerHandle o) ++ leBytes 4 age ++ leBytes 8 ((s.oldest w).getD 0))
  else if !tooOld && w.alarm then s.setBufOwner o { w with alarm := false }
  else s

/-- AGE_CHECK at a landing (R334): a changed SPAN_LOG2, bucket roll-over, then each owner's age. -/
def State.ageLand (s : State) (flight : Nat) : State :=
  let span := s.fld Fld.BPM_CFG_SPAN_LOG2
  let s := if span = s.bpm.span then s
    else { s with bpm := { s.bpm with span := span, owners := s.bpm.owners.map (fun (e : Nat × BufOwner) => (e.1, e.2.bucketsToOld s.bpm.span)) } }
  let p := flight / 2 ^ s.bpm.span
  let s := { s with bpm := { s.bpm with owners := s.bpm.owners.map (fun (e : Nat × BufOwner) => (e.1, e.2.rollTo p s.bpm.span)) } }
  s.bpm.owners.foldl (fun (s : State) e => s.ageCheck e.1 flight) s

/-- BPM_ALARM_NEXT_READ (R334): the head of the queue of alarmed owners leaves it. -/
def execBpmAlarmNextRead (who : Who) (s : State) : Answer :=
  let a := Reg.addr .BPM_ALARM_NEXT 0 0
  match s.bpm.alarms with
  | [] => .next (s.answer who a 0)
  | o :: t => .next (({ s with bpm := { s.bpm with alarms := t } }).answer who a (2 ^ 31 + t.length * 2 ^ 16 + o))

end Sys2Proof.Machine
end

