-- ==== Sys2Proof/Machine/Lanes.lean ====
section
/-! DEFINITION. Lanes and ports (R218 to R225, R237), the pulse-per-second output (R232), and the event lands (R233 to R235,
R126, R177, R581). -/

namespace Sys2Proof.Machine

/-! ### Ports (R218, R221) -/

/-- Lanes of a port of a mode (R218): 0 for a dark or a continuation lane. -/
def modeLanes (m : Nat) : Nat := [0, 1, 1, 1, 1, 1, 2, 4, 8].getD m 0

/-- The Ethernet rate of a mode in Mb/s (R72). -/
def modeMbps (m : Nat) : Nat := [0, 1000, 2500, 10000, 25000, 50000, 100000, 200000, 400000].getD m 0

/-- The mode a lane runs. -/
def State.laneMode (s : State) (l : Nat) : Nat := s.fld Fld.LN_LANE_STATUS_MODE 0 l

/-- The lane is the first lane of a lit port. -/
def State.isPort (s : State) (l : Nat) : Bool := decide (l < 256) && modeLanes (s.laneMode l) != 0

/-- The physical hall that runs a bay (R18, R67): the active plan's bay map through the hall map in effect. -/
def State.bayOwner (s : State) (k : Nat) : Option Nat :=
  if !s.planActive then none else
  match Plan.bayHall s.pln.active k with
  | some l => if s.flag Fld.TSQ_MAP_VALID 0 l then some (s.fld Fld.TSQ_MAP_PHYS 0 l) else none
  | none => none

/-- The ports in the bays of a hall, by first lane. -/
def State.hallPorts (s : State) (h : Nat) : List Nat :=
  (List.range 256).filter (fun l => s.isPort l && s.bayOwner (l / 8) == some h)

def State.port (s : State) (l : Nat) : PortSt := s.ln.ports.get {} l
def State.setPort (s : State) (l : Nat) (p : PortSt) : State := { s with ln := { s.ln with ports := s.ln.ports.put l p } }

/-- A port is up (R221). -/
def State.portUp (s : State) (l : Nat) : Bool := s.flag Fld.LN_LANE_STATUS_LINK_UP 0 l

/-- A lane that continues a multi-lane port. -/
def State.continues (s : State) (l : Nat) : Bool := s.laneMode l != 0 && modeLanes (s.laneMode l) == 0

/-- The FEC that a mode runs under a choice (R218): 0 none, 2 Clause 74, 3 RS(528,514), 4 RS(544,514). -/
def fecOf (mode choice : Nat) : Nat :=
  if mode = 3 then (if choice = 2 then 2 else 0)
  else if mode = 4 then (if choice = 1 then 0 else if choice = 2 then 2 else 3)
  else if 5 ≤ mode then 4 else 0

/-- The FEC in use on a port; the configuration in force stands in wide. -/
def State.portFec (s : State) (l : Nat) : Nat :=
  fecOf (s.laneMode l) (bitsOf ((look s.wide (Reg.addr .LN_LANE_CFG 0 l)).getD (Reg.reset .LN_LANE_CFG 0 l)).toNat 1 0)

/-- A mode whose links train (R219). -/
def trains (mode : Nat) (cfg : Bool) : Bool := (decide (5 ≤ mode) && modeLanes mode != 0) || ((mode == 3 || mode == 4) && cfg)

/-- A port whose link is down trains, where its mode does (R219). -/
def State.train (s : State) (l : Nat) : State :=
  s.setFld Fld.LN_LANE_STATUS_TRAINING (b2n (trains (s.laneMode l) (s.flag Fld.LN_LANE_CFG_TRAIN 0 l))) 0 l

/-- What the lanes of a port show (R221, R238), lane by lane: 1 signal, 2 block lock, 4 FEC lock, which stands where no FEC is in use; ALIGNED is the
port's. -/
def State.showLanes (s : State) (l : Nat) (got : List Nat) (aligned : Bool) : State :=
  let s := (List.range (modeLanes (s.laneMode l))).foldl (fun (s : State) i =>
    let g := got.getD i 0
    ((s.setFld Fld.LN_LANE_STATUS_SIGNAL (b2n (bitOf g 0)) 0 (l + i)).setFld Fld.LN_LANE_STATUS_BLOCK_LOCK (b2n (bitOf g 1)) 0 (l + i)).setFld Fld.LN_LANE_STATUS_FEC_LOCK (b2n (bitOf g 2 || s.portFec l == 0)) 0 (l + i)) s
  s.setFld Fld.LN_LANE_STATUS_ALIGNED (b2n aligned) 0 l

/-- What a port needs to come up (R221). -/
def State.linkReady (s : State) (l : Nat) (got : List Nat) (aligned : Bool) : Bool :=
  let n := modeLanes (s.laneMode l)
  (aligned || n == 1) && (List.range n).all (fun i => bitOf (got.getD i 0) 0 && bitOf (got.getD i 0) 1 && (bitOf (got.getD i 0) 2 || s.portFec l == 0))

/-- A link change is flagged on the port's first lane and logged (R221). -/
def State.linkChange (s : State) (l : Nat) (up : Bool) : State :=
  (s.raise Fld.LN_LANE_STATUS_LINK_CHANGE 0 l).alm 0x0601 2 ((s.bayOwner (l / 8)).getD 0xFF) 2 l (leBytes 1 l ++ leBytes 1 (b2n up))

/-- PORT_LINK_UP (R221, R555): what the lanes of a port that is down have reached, as LN_LANE_STATUS shows it; the port comes up with all of it, and
the module supply on. -/
def execPortLinkUp (l : Nat) (got : List Nat) (aligned : Bool) (at_ : Nat) (s : State) : Answer :=
  let s := s.atTime at_
  if !s.isPort l ∨ s.portUp l ∨ (s.flt.laneReset.get none l).isSome ∨ (look s.pkg.ocOff (l / 8)).isSome then .next s
  else
    let s := s.showLanes l got (aligned || modeLanes (s.laneMode l) == 1)
    .next (if s.linkReady l got aligned then ((s.raise Fld.LN_LANE_STATUS_LINK_UP 0 l).setFld Fld.LN_LANE_STATUS_TRAINING 0 0 l).linkChange l true else s)

/-- A port goes down, and trains anew where its mode does: what it lost is the operand (1 signal, 2 block lock, 4 FEC lock, 8 alignment). -/
def State.portDown (s : State) (l lost : Nat) : State :=
  let was := s.portUp l
  let got := (List.range (modeLanes (s.laneMode l))).map (fun i =>
    (s.fld Fld.LN_LANE_STATUS_SIGNAL 0 (l + i) + 2 * s.fld Fld.LN_LANE_STATUS_BLOCK_LOCK 0 (l + i) + 4 * s.fld Fld.LN_LANE_STATUS_FEC_LOCK 0 (l + i)) &&& (7 - lost % 8))
  let s := (s.showLanes l got (s.flag Fld.LN_LANE_STATUS_ALIGNED 0 l && !bitOf lost 3)).train l
  if was then (s.setFld Fld.LN_LANE_STATUS_LINK_UP 0 0 l).linkChange l false else s

/-- PORT_LINK_DOWN (R221): the port goes down at once; one that is down shows what it has lost. -/
def execPortLinkDown (l lost at_ : Nat) (s : State) : Answer :=
  let s := s.atTime at_
  .next (if s.isPort l ∧ lost % 16 ≠ 0 then s.portDown l lost else s)

/-! ### Receive (R220, R223, R224) -/

/-- The receive latency of R224, lands to buffer, in ns. -/
def rxLatency (mode fec : Nat) : Nat :=
  match mode with
  | 1 => 56
  | 2 => 40
  | 3 => if fec = 2 then 240 else 36
  | 4 => if fec = 0 then 30 else if fec = 2 then 120 else 260
  | 5 => 180
  | 6 => 200
  | 7 => 210
  | _ => 220

/-- The time of so many octets at a port's rate, in ticks (R223; log entry 68). -/
def octetTicks (mode n : Nat) : Nat := n * 8000 * nsTicks / modeMbps mode

/-- A signed board delay of LN_LANE_DELAY in ticks, from picoseconds (R229). -/
def boardTicks (ps : Nat) : Int := toSigned 16 ps * nsTicks / 1000

/-- Octets that admitted frames hold in a port's receive buffer, as at an instant (R223): those there still, and those that have left since. -/
def PortSt.rxUsed (p : PortSt) (t : Nat) : Nat :=
  p.rx.foldl (fun n f => n + f.octets.length) 0 + p.gone.foldl (fun n e => if t < e.1 then n + e.2 else n) 0

/-- A frame leaves a port's receive buffer. -/
def State.takeRx (s : State) (l : Nat) (f : RxFrame) : State :=
  let p := s.port l
  s.setPort l { p with rx := removeFirst (fun x => x == f) p.rx, gone := (s.now, f.octets.length) :: p.gone.filter (fun e => decide (s.now < e.1 + 1000000 * nsTicks)) }

/-- The last four octets of a frame are its FCS. -/
def fcsOk (b : Bytes) : Bool := decide (4 ≤ b.length) && leNat (b.drop (b.length - 4)) == crc32 (b.take (b.length - 4))

/-- LANE_FRAME_RX (R220, R223, R224, R229, R237): octets with FCS; the FEC codewords corrected and uncorrectable that came with them; the instants at
which the end of the start-of-frame delimiter and the last octet pass the lands. The frame arrives the receive latency later, its event stamp stands for
the connector, and room is judged when its first octet came into the buffer. One that is admitted and then found bad, or MAC control, leaves again. -/
def execLaneFrameRx (l : Nat) (octets : Bytes) (ce ue stamp at_ : Nat) (s : State) : Answer :=
  if !s.isPort l ∨ !s.portUp l then .next (s.atTime at_) else
  let mode := s.laneMode l
  let s := s.atTime (at_ + rxLatency mode (s.portFec l) * nsTicks)
  let s := if s.portFec l = 0 then s else (s.bumpBy Fld.LN_CNT_FEC_CE_COUNT ce 0 l).bumpBy Fld.LN_CNT_FEC_UE_COUNT ue 0 l
  let p := s.port l
  if modeLanes mode * 65536 < p.rxUsed (s.now - octetTicks mode octets.length) + 9216 then .next (s.bump Fld.LN_CNT_RXDROP_COUNT 0 l)
  else
    let s := s.bump Fld.LN_CNT_RXFRAMES_COUNT 0 l
    if octets.length < 64 ∨ 9216 < octets.length ∨ !fcsOk octets then .next (s.bump Fld.LN_CNT_RXERR_COUNT 0 l)
    else if beAt octets 12 2 = 0x8808 then .next (s.bump Fld.LN_CNT_MACCTL_COUNT 0 l)
    else
      let event := ((stamp : Int) - boardTicks (s.fld Fld.LN_LANE_DELAY_RX_PS 0 l)).toNat
      .next (s.setPort l { p with rx := p.rx ++ [{ octets := octets, arrival := s.now, stamp := event }] })

/-! ### Transmit queues (R108, R225) -/

/-- Octets that a queue holds. -/
def queued (q : List TxFrame) : Nat := q.foldl (fun n f => n + f.octets.length) 0

/-- A frame has left, at an event stamp, or will not: its buffer references are released and its send descriptor ends. -/
def State.frameDone (s : State) (f : TxFrame) (stamp : Nat) : State :=
  let s := f.drops.foldl State.drop s
  match f.send with
  | none => s
  | some d =>
    let ops := if d.tstamp then secsOf stamp % 2 ^ 32 * 2 ^ 32 + nsOf stamp else 0
    s.descDone d.queue d.idx { cookie := d.cookie, batchEnd := d.batchEnd, status := St.success, detail := 0, opspec := ops, bytes := d.len, info := 0, low := 0 }
def State.dropFrame (s : State) (f : TxFrame) : State := s.frameDone f 0

/-- Put a best-effort frame into a port's open queue (R221, R225). -/
def State.openEnqueue (s : State) (l : Nat) (f : TxFrame) : State :=
  if !s.portUp l then (s.bump Fld.LN_CNT_TXDOWN_COUNT 0 l).dropFrame f
  else if 65536 < queued (s.port l).opened + f.octets.length then (s.bump Fld.LN_CNT_TXDROP_COUNT 0 l).dropFrame f
  else s.setPort l { s.port l with opened := (s.port l).opened ++ [f] }

/-- LN_TXTS_INFO_READ (R230): the head stamp leaves its queue and is latched for the reader. -/
def execLnTxtsInfoRead (who : Who) (s : State) : Answer :=
  let a := Reg.addr .LN_TXTS_INFO 0 0
  match s.ln.stamps with
  | [] => .next (s.answer who a 0)
  | (l, q, t) :: r =>
    let s := { s with ln := { s.ln with stamps := r } }
    let s := s.setFld Fld.LN_TXTS_STATUS_LEVEL r.length
    let s := s.latch who (Reg.addr .LN_TXTS_NS 0 0) (nsOf t)
    let s := s.latch who (Reg.addr .LN_TXTS_SEC_LO 0 0) (secsOf t)
    let s := s.latch who (Reg.addr .LN_TXTS_SEC_HI 0 0) (fracOf t * 65536 + secsOf t / 2 ^ 32 % 65536)
    .next (s.answer who a (2 ^ 31 + l * 65536 + q % 65536))

/-- An egress stamp enters the stamp queue, or is lost (R230). -/
def State.pushStamp (s : State) (l t : Nat) : State :=
  let p := s.port l
  let s := s.setPort l { p with seq := p.seq + 1 }
  if 1024 ≤ s.ln.stamps.length then (s.raise Fld.LN_TXTS_STATUS_OVERFLOW).bumpSat Fld.LN_TXTS_STATUS_LOST
  else
    let s := { s with ln := { s.ln with stamps := s.ln.stamps ++ [(l, p.seq + 1, t)] } }
    s.setFld Fld.LN_TXTS_STATUS_LEVEL s.ln.stamps.length

/-! ### Eye monitors (R237) -/

/-- EYE_NOW: a write of LN_LANE_CFG.EYE_NOW with 1 starts a measurement on a lane that is lit (R18). -/
def execEyeNow (who : Who) (l at_ : Nat) (s : State) : Answer :=
  let s := s.atTime at_
  if !s.mayWrite who ∨ 256 ≤ l ∨ s.laneDark l then .next s else .next { s with ln := { s.ln with eyes := s.ln.eyes.put l s.now } }

/-- EYE_MEASURE_DONE: what was measured, in mV and 1/256 UI. -/
def execEyeMeasureDone (l height width at_ : Nat) (s : State) : Answer :=
  let s := s.atTime at_
  if 256 ≤ l ∨ s.laneDark l then .next s else
  let s := { s with ln := { s.ln with eyes := s.ln.eyes.del l, eyeAt := s.ln.eyeAt.put l s.now } }
  let s := (s.raise Fld.LN_EYE_VALID 0 l).setFld Fld.LN_EYE_HEIGHT (min height 255) 0 l
  .next ((s.setFld Fld.LN_EYE_WIDTH (min width 255) 0 l).setFld Fld.LN_EYE_AGE 0 0 l)

/-! ### Pulse per second (R232) -/

/-- PPS_OUT_PULSE: at a whole second, with EN. Pin kind 2 is PPS_OUT. -/
def execPpsOutPulse (at_ : Nat) (s : State) : Answer :=
  let s := s.atTime at_
  if s.flag Fld.LN_PPS_OUT_EN ∧ s.now % secTicks = 0 then
    .next ({ s with tb := { s.tb with ppsEnd := some (s.now + s.fld Fld.LN_PPS_OUT_WIDTH_US * 1000 * nsTicks) } }.emit (.pin 2 0 true))
  else .next s

/-- PPS_OUT_PULSE_END: the width has passed. -/
def execPpsOutPulseEnd (at_ : Nat) (s : State) : Answer :=
  let s := s.atTime at_
  match s.tb.ppsEnd with
  | some e => if e ≤ s.now then .next ({ s with tb := { s.tb with ppsEnd := none } }.emit (.pin 2 0 false)) else .next s
  | none => .next s

/-! ### Event lands: capture (R234) -/

/-- The land is armed. -/
def LandSt.armed (l : LandSt) : Bool := l.armRise || l.armFall

/-- A confirmed edge of an armed polarity is a capture: it is counted, it is the kernel's latest, and it enters the host
queue if that has room. -/
def State.capture (s : State) (k : Nat) (c : Capture) : State :=
  let l := s.land k
  if !(if c.rising then l.armRise else l.armFall) then s
  else
    let s := s.bump Fld.EVT_CAP_INFO_COUNT 0 k
    let l := { l with latest := some c }
    if l.queue.length < 16 then s.setLand k { l with queue := l.queue ++ [c] }
    else (s.setLand k l).raise Fld.EVT_CAP_INFO_OVF 0 k

/-- The filter of a land, in ticks. -/
def State.filterTicks (s : State) (k : Nat) : Nat := s.fld Fld.EVT_LAND_CFG_FILTER 0 k * nsTicks

/-- Confirm a candidate edge whose level has held for FILTER ns by an instant. -/
def State.confirm (s : State) (k t : Nat) : State :=
  match (s.land k).candidate with
  | some c => if c.time + s.filterTicks k ≤ t then (s.setLand k { s.land k with candidate := none }).capture k c else s
  | none => s

/-- The pin changes at an instant; its levels of the last treads are kept for R175. -/
def LandSt.pinSet (l : LandSt) (v : Bool) (t : Nat) : LandSt := { l with pin := v, was := l.was.filter (fun e => decide (t < e.1 + 4 * treadTicks)) ++ [(t, l.pin)] }

/-- The level of the pin at an instant of late. -/
def LandSt.levelAt (l : LandSt) (t : Nat) : Bool := match l.was.find? (fun e => decide (t < e.1)) with | some e => e.2 | none => l.pin

/-- The pin takes a level at an instant: an edge is captured, or held for the filter, or ends a pulse too short for it. -/
def State.pinTo (s : State) (k : Nat) (v : Bool) (t : Nat) : State :=
  if (s.land k).pin == v then s
  else
    let s := s.confirm k t
    let l := s.land k
    let s := s.setLand k (l.pinSet v t)
    if !l.armed then s
    else match l.candidate with
      | some _ => (s.setLand k { s.land k with candidate := none }).bumpSat Fld.EVT_CAP_INFO_GLITCH 0 k
      | none =>
        if s.filterTicks k = 0 then s.capture k { time := t, rising := v }
        else s.setLand k { s.land k with candidate := some { time := t, rising := v } }

/-- EVT_EDGE (R234, R48): the pin of a land that the device does not drive changes. With the event I/O unit powered down,
an edge of the armed polarity sets only the calm-domain latch. -/
def execEvtEdge (k : Nat) (rising : Bool) (at_ : Nat) (s : State) : Answer :=
  let s := s.atTime at_
  let l := s.land k
  if 32 ≤ k ∨ l.driven ∨ l.pin == rising then .next s
  else if s.flag Fld.EVT_STATUS_POWERED then .next (s.pinTo k rising s.now)
  else
    let s := s.setLand k (l.pinSet rising s.now)
    .next (if (if rising then l.armRise else l.armFall) then s.setFld Fld.CALM_EVT_IN_EDGE (s.fld Fld.CALM_EVT_IN_EDGE ||| 2 ^ k) else s)

/-- EVT_EDGE_CONFIRM (R234). -/
def execEvtEdgeConfirm (k at_ : Nat) (s : State) : Answer :=
  let s := s.atTime at_
  .next (if k < 32 ∧ s.flag Fld.EVT_STATUS_POWERED then s.confirm k s.now else s)

/-- Nanoseconds since the flight origin: that of the plan, or with none what the registers hold (R174, R234). -/
def State.nsSince (s : State) (t : Nat) : Nat := (t - (if s.planActive then s.origin else s.originRegs)) / nsTicks

/-- EVT_CAP_INFO_READ (R234): the head capture leaves the queue and its instant is latched for the reader. -/
def execEvtCapInfoRead (who : Who) (k : Nat) (s : State) : Answer :=
  if 32 ≤ k then .next s else
  let a := Reg.addr .EVT_CAP_INFO 0 k
  let l := s.land k
  let rest := s.fld Fld.EVT_CAP_INFO_OVF 0 k * 2 ^ 29 + s.fld Fld.EVT_CAP_INFO_GLITCH 0 k * 65536 + s.fld Fld.EVT_CAP_INFO_COUNT 0 k
  match l.queue with
  | [] => .next (s.answer who a rest)
  | c :: t =>
    let s := s.setLand k { l with queue := t }
    let n := s.nsSince c.time
    let s := (s.latch who (Reg.addr .EVT_CAP_LO 0 k) n).latch who (Reg.addr .EVT_CAP_HI 0 k) (n / 2 ^ 32)
    .next (s.answer who a (2 ^ 31 + b2n c.rising * 2 ^ 30 + t.length * 2 ^ 24 + rest))

/-! ### Event lands: actions (R126, R177, R233, R235) -/

/-- Drive a land; pin kind 0 is an event land. -/
def LandSt.drive (l : LandSt) (v : Bool) : LandSt := { l with driven := true, level := v, lastDriven := some v }

/-- What an ACT does to a land, before capture sees the level. A pulse's drive-low (8) drives low. -/
def LandSt.act (l : LandSt) (a : LandAct) : LandSt :=
  match a.act with
  | 0 => l.drive false
  | 1 => l.drive true
  | 2 => { l.drive true with acts := l.acts ++ [{ a with time := a.time + a.width * nsTicks, act := 8 }] }
  | 3 => l.drive (if l.driven then !l.level else match l.lastDriven with | some v => !v | none => true)
  | 4 => { l with armRise := true, armFall := false }
  | 5 => { l with armRise := false, armFall := true }
  | 6 => { l with armRise := true, armFall := true }
  | 7 => { l with driven := false, armRise := false, armFall := false, candidate := none }
  | _ => l.drive false

/-- The level settles after the actions of one instant: the land shows it, and capture observes it (R177). -/
def State.settle (s : State) (k t : Nat) (was : Bool × Bool) : State :=
  let l := s.land k
  let s := if (l.driven, l.level) == was then s else s.emit (.pin 0 k (l.driven && l.level))
  if l.driven then s.pinTo k l.level t else s

/-- The earliest instant among a land's pending actions. -/
def LandSt.nextAct (l : LandSt) : Option Nat :=
  l.acts.foldl (fun m a => match m with | none => some a.time | some t => some (min t a.time)) none

/-- Every action of one instant: pulse ends, then the EVT op, or the kernel action when there is no EVT op, then the host's (R127, R177). -/
def State.actsAt (s : State) (k t : Nat) : State :=
  let l := s.land k
  let due := l.acts.filter (fun a => a.time == t)
  let l0 := { l with acts := l.acts.filter (fun a => a.time != t) }
  let ends := due.filter (fun a => a.act == 8)
  let ops := due.filter (fun a => a.act != 8 && !a.kernel && a.hall != 18)
  let host := due.filter (fun a => a.act != 8 && !a.kernel && a.hall == 18)
  let kern := due.filter (fun a => a.act != 8 && a.kernel)
  let l1 := (ends ++ (if ops = [] then kern else ops) ++ host).foldl LandSt.act l0
  let s := if ops = [] then s else kern.foldl (fun (s : State) a => s.bump Fld.TSQ_CNT_EVT_PREEMPT_COUNT a.hall) s
  (s.setLand k l1).settle k t (l.driven, l.level)

/-- Carry out the actions of a land that are due by an instant, in the order of their instants. -/
def State.actsDue (s : State) (k t : Nat) : Nat → State
  | 0 => s
  | n + 1 =>
    match (s.land k).nextAct with
    | some u => if u ≤ t then (s.actsAt k u).actsDue k t n else s
    | none => s

/-- EVT_ACTION: pending actions of a land take place at their instants. -/
def execEvtAction (k at_ : Nat) (s : State) : Answer :=
  let s := s.atTime at_
  .next (if k < 32 ∧ s.flag Fld.EVT_STATUS_POWERED then s.actsDue k s.now (2 * (s.land k).acts.length + 1) else s)

/-- A host's action on a land takes place at the next whole nanosecond, with whatever else falls on it (R177, R235); hall 18 marks it. -/
def State.actSoon (s : State) (k act width : Nat) : State :=
  let l := s.land k
  s.setLand k { l with acts := l.acts ++ [{ time := (s.now + nsTicks - 1) / nsTicks * nsTicks, act := act, width := width, kernel := false, hall := 18 }] }

/-- Act on a land at once. -/
def State.actNow (s : State) (k act width : Nat) : State :=
  let l := s.land k
  (s.setLand k (l.act { time := s.now, act := act, width := width, kernel := false, hall := 0 })).settle k s.now (l.driven, l.level)

/-- Release a land of an ended plan, or one that a swap adds to a land set: as by ACT 7, its pending actions withdrawn
(R235, R581). -/
def State.releaseLand (s : State) (k : Nat) : State := ({ s with lands := s.lands.put k { s.land k with acts := [] } }).actNow k 7 0

end Sys2Proof.Machine
end

