-- ==== Sys2Proof/Machine/Deliver.lean ====
section
/-! DEFINITION. What a hall's sequencer keeps (R95, R98, R103); poisoned data in the part's memories (R508), and deliveries to receive queues (R369, R370). -/

namespace Sys2Proof.Machine

/-! ### The sequencer of a hall (R95, R98, R103) -/

def State.seq (s : State) (h : Nat) : SeqSt := s.seqs.get {} h
def State.setSeq (s : State) (h : Nat) (q : SeqSt) : State := { s with seqs := s.seqs.put h q }

/-- Clocks per tread at a hall's grade (R45). -/
def State.clocks (s : State) (h : Nat) : Nat := 128 - 8 * s.fld Fld.CALM_HALL_STATE_GRADE 0 h

/-- The instant of a hall clock counted from a tread's start (R45). -/
def clockAt (start c rate : Nat) : Nat := start + c * treadTicks / rate

/-- The logical hall that a physical hall runs. -/
def State.logicalOf (s : State) (h : Nat) : Option Nat :=
  if s.fld Fld.TSQ_STATE_ROLE h = 1 then some (s.fld Fld.TSQ_STATE_LOGICAL h) else none

/-- The physical hall that runs a logical hall. -/
def State.physOf (s : State) (l : Nat) : Option Nat :=
  if l < 16 ∧ s.flag Fld.TSQ_MAP_VALID 0 l then some (s.fld Fld.TSQ_MAP_PHYS 0 l) else none

/-- A hall executes a tread program. -/
def State.running (s : State) (h : Nat) : Bool := decide (h < 18) && s.fld Fld.TSQ_STATE_STATE h == 2

/-- The hall clock in which Device Time stands, counted from the start of the hall's tread; none before it or past its end. -/
def State.clockNow (s : State) (h : Nat) : Option Nat :=
  let q := s.seq h
  let c := ((s.now - q.start + 1) * s.clocks h - 1) / treadTicks
  if q.start ≤ s.now ∧ c < s.clocks h then some c else none

/-! ### Flow rings as the windows read them (R109, R129) -/

/-- The ring of a hall's flow: base of its header, octets of its data area. -/
def State.flow (s : State) (h f : Nat) : Option (Nat × Nat) := look s.flows (h * 4096 + f)

def State.producer (s : State) (h base : Nat) : Nat := leNat (s.alcoveRead h base 4)
def State.consumer (s : State) (h base : Nat) : Nat := leNat (s.alcoveRead h (base + 4) 4)

/-- The flow window of a hall has begun. -/
def State.flowBegun (s : State) (h : Nat) : Bool :=
  let q := s.seq h
  decide (0 < q.win.fl) && decide (clockAt q.start (q.win.start + q.win.rx) (s.clocks h) ≤ s.now)

/-- The flow window of a hall reads PRODUCER of its ring at its first clock, before whatever is written in that clock (R109). -/
def State.readProducer (s : State) (h : Nat) : State :=
  let q := s.seq h
  if !s.flowBegun h ∨ q.win.seen.isSome then s
  else match s.flow h q.win.flow with
    | some (base, _) => s.setSeq h { q with win := { q.win with seen := some (s.producer h base) } }
    | none => s

/-! ### Poison (R508) -/

/-- The 64-octet lines, or 512-octet beats, of w octets that an area meets. -/
def unitsOf (w a n : Nat) : List Nat := if n = 0 then [] else (List.range ((a + n - 1) / w - a / w + 1)).map (· + a / w)

/-- Those that it covers wholly. -/
def wholeUnits (w a n : Nat) : List Nat := (unitsOf w a n).filter (fun u => decide (a ≤ u * w) && decide (u * w + w ≤ a + n))

/-- Write into an alcove, behind the read of PRODUCER by a flow window that has begun: a poison mark clears where its line is wholly
rewritten. -/
def State.putAlcove (s : State) (h a : Nat) (b : Bytes) : State :=
  let s := s.readProducer h
  let gone := (wholeUnits 64 a b.length).map (· + h * 2 ^ 19)
  let s := s.alcoveWrite h a b
  { s with flt := { s.flt with poisonAlcove := s.flt.poisonAlcove.filter (fun u => !gone.contains u) } }

/-- Write a beat into the Atrium, clean. -/
def State.putBeat (s : State) (k a : Nat) (b : Bytes) : State :=
  let s := s.atriumWrite k a b
  { s with flt := { s.flt with poisonAtrium := s.flt.poisonAtrium.filter (fun u => !(u == k * 2 ^ 26 + a / 512)) } }

/-- Write into the Atrium: a beat's poison mark clears where the beat is wholly rewritten. -/
def State.putAtrium (s : State) (k a : Nat) (b : Bytes) : State :=
  let gone := (wholeUnits 512 a b.length).map (· + k * 2 ^ 26)
  let s := s.atriumWrite k a b
  { s with flt := { s.flt with poisonAtrium := s.flt.poisonAtrium.filter (fun u => !gone.contains u) } }

/-- Mark what has been written into an alcove, or a beat, as poisoned; it is counted and logged. kind: 0 flit, 1 beat,
2 late data. -/
def State.poisonAlcove (s : State) (h a n kind : Nat) : State :=
  let s := { s with flt := { s.flt with poisonAlcove := ((unitsOf 64 a n).map (· + h * 2 ^ 19)) ++ s.flt.poisonAlcove } }
  (s.bump Fld.FLT_CNT_POISON_COUNT).almHall 0x0302 h (leBytes 1 kind ++ leBytes 1 h ++ leBytes 8 a)
def State.poisonBeat (s : State) (k a kind : Nat) : State :=
  let s := { s with flt := { s.flt with poisonAtrium := (k * 2 ^ 26 + a / 512) :: s.flt.poisonAtrium } }
  (s.bump Fld.FLT_CNT_POISON_COUNT).alm 0x0302 5 0xFF 5 k (leBytes 1 kind ++ leBytes 1 k ++ leBytes 8 a)

/-- An area holds poisoned data. -/
def State.alcoveBad (s : State) (h a n : Nat) : Bool := (unitsOf 64 a n).any (fun u => s.flt.poisonAlcove.contains (u + h * 2 ^ 19))
def State.beatBad (s : State) (k a : Nat) : Bool := s.flt.poisonAtrium.contains (k * 2 ^ 26 + a / 512)

/-- A read of poisoned data is counted and flagged. -/
def State.poisonUse (s : State) (bad : Bool) : State :=
  if bad then (s.bump Fld.FLT_CNT_POISON_USE_COUNT).raise Fld.FLT_STATUS_POISON else s

/-! ### Deliveries (R369, R370) -/

/-- The service class of a delivery (R372). -/
def Delivery.cls (d : Delivery) : Nat := d.low / 2 ^ 27 % 8

/-- Write a delivered frame into a pool buffer's data area; one in host memory is written through the carriers of the hall that delivers. -/
def State.fillBuffer (s : State) (h cls : Nat) (own : Option (Nat × Nat)) (id : Nat) (b : Bytes) : State :=
  match s.regionOf id with
  | none => s
  | some (_, r) =>
    match r.loc with
    | 0 => s.putAlcove r.inst (r.dataAt id) b
    | 1 => s.putAtrium r.inst (r.dataAt id) b
    | _ => s.hallWrite h cls own (1024 * r.inst) (r.dataAt id) b

/-- A frame for an RQ that is dropped (R370); a handed-off buffer is released. -/
def State.dropDelivery (s : State) (d : Delivery) : State :=
  let s := s.bump Fld.WQ_CNT_RQ_DROP_COUNT
  match d.buffer with
  | some id => s.drop id
  | none => s

/-- An RQ has a usable descriptor, and a place for its record (R370, R379). -/
def State.rqReady (s : State) (k : Nat) : Bool :=
  let q := s.queue k
  q.present && q.isRq && (match q.ready with | e :: _ => rqFault q.kind e == none | [] => false) && q.state == .active && s.fnRuns q.fn && s.canReserve q

/-- Consume an RQ's first descriptor and write its record (R369, R371, R372). -/
def State.rqDone (s : State) (k status info cookie len : Nat) (d : Delivery) : State :=
  let q := s.queue k
  match q.ready with
  | [] => s
  | e :: t =>
    let s := s.setQueue k { q with ready := t, c := add32 q.c 1, inProg := e.idx :: q.inProg }
    let ops := secsOf d.stamp % 2 ^ 32 * 2 ^ 32 + nsOf d.stamp
    s.descDone k e.idx { cookie := cookie, batchEnd := false, status := status, detail := 0, opspec := ops, bytes := len, info := info, low := d.low }

/-- Deliver to an RQ that has a usable descriptor: what goes to host memory, and the record behind it, wait for the carriers of the hall that serves the
RQ (R341). -/
def State.deliverNow (s : State) (d : Delivery) : State :=
  let q := s.queue d.queue
  match q.ready with
  | [] => s
  | e :: _ =>
    if q.kind = 0 then
      if leAt e.bytes 0x10 4 < d.len then s.rqDone d.queue St.lengthLimit d.mark e.cookie d.len d
      else (s.hallWrite (s.servingHall q) d.cls (some (d.queue, e.idx)) q.fn (leAt e.bytes 8 8) d.data).rqDone d.queue St.success d.mark e.cookie d.len d
    else match d.buffer with
      | some id => s.rqDone d.queue St.success d.mark id d.len d
      | none =>
        match s.classFor d.len q.loc q.locIdx with
        | none => s.dropDelivery d
        | some c =>
          match s.allocFor q.owner c q.loc q.locIdx with
          | (s, .inl id) => (s.fillBuffer (s.servingHall q) d.cls (some (d.queue, e.idx)) id d.data).rqDone d.queue St.success d.mark id d.len d
          | (s, .inr _) => s.dropDelivery d

/-- What waits in a hall's delivery queue. -/
def State.waiting (s : State) (h : Nat) : List Delivery := s.wq.delivery.get [] h
def State.setWaiting (s : State) (h : Nat) (l : List Delivery) : State :=
  { s with wq := { s.wq with delivery := s.wq.delivery.put h l } }

/-- An RQ is there. -/
def State.rqThere (s : State) (k : Nat) : Bool := (s.queue k).present && (s.queue k).isRq

/-- A frame or hand-off for an RQ arrives in a hall: delivered, or queued, or dropped at a full queue of 64 (R370). One for a queue
that is gone is dropped (log entry 51). -/
def State.offer (s : State) (h : Nat) (d : Delivery) : State :=
  let s := s.rqSkim d.queue 16
  if !s.rqThere d.queue then s.dropDelivery d
  else if s.rqReady d.queue ∧ !((s.waiting h).any (fun e => e.queue == d.queue)) then s.deliverNow d
  else if (s.waiting h).length < 64 then s.setWaiting h (s.waiting h ++ [d])
  else s.dropDelivery d

/-- RQ_DELIVERY (R369, R370): the oldest entry of a hall's delivery queue whose RQ has a usable descriptor, or is gone. -/
def execRqDelivery (h : Nat) (s : State) : Answer :=
  let s := (s.waiting h).foldl (fun (s : State) (d : Delivery) => s.rqSkim d.queue 16) s
  match (s.waiting h).find? (fun d => s.rqReady d.queue || !s.rqThere d.queue) with
  | none => .next s
  | some d =>
    let s := s.setWaiting h (removeFirst (fun e => e == d) (s.waiting h))
    .next (if s.rqThere d.queue then s.deliverNow d else s.dropDelivery d)

end Sys2Proof.Machine
end

