-- ==== Sys2Proof/Machine/PlanOps.lean ====
section
/-! DEFINITION. The ops of a plan with the clocks at which they issue (R94 to R98, R135), what may be known of their pointers (R101, R106,
R152), and the stops, links and paths of the Gallery (R136 to R138, R142). -/

namespace Sys2Proof.Machine

/-- What a SETPTR word says: index, endpoint, address (R111). -/
def setptrFields (o : Nat) : Nat × Nat × Nat := (bitsOf o 48 45, bitsOf o 44 39, bitsOf o 38 0)

/-- The flits of a MOVE (R105). -/
def moveFlits (o : Nat) : Nat := if bitsOf o 23 16 = 0 then 256 else bitsOf o 23 16

end Sys2Proof.Machine

namespace Sys2Proof.Machine.Plan

/-- Hall clocks per tread at a logical hall's REQ_GRADE (R45). -/
def rateOf (b : Bytes) (l : Nat) : Nat := match phys b l with | some h => 128 - 8 * reqGrade b h | none => 128

/-- Insert by a strict order, after its equals. -/
def insertBy {α : Type} (lt : α → α → Bool) (x : α) : List α → List α
  | [] => [x]
  | a :: t => if lt x a then x :: a :: t else a :: insertBy lt x t

/-- Sort by a strict order, equals kept as they stand. -/
def sortBy {α : Type} (lt : α → α → Bool) (l : List α) : List α := l.foldl (fun acc x => insertBy lt x acc) []

/-- Lexicographic order of two lists of numbers. -/
def lexLt : List Nat → List Nat → Bool
  | a :: t, b :: u => decide (a < b) || (a == b && lexLt t u)
  | [], _ :: _ => true
  | _, [] => false

/-! ### Ops (R94 to R98) -/

/-- An op of a tread bundle: where it stands and when it issues. -/
structure PlanOp where
  hall : Nat
  tread : Nat
  bundle : Nat
  slot : Nat
  word : Nat
deriving DecidableEq, Repr

def PlanOp.code (o : PlanOp) : Nat := opcode o.word
def PlanOp.off (o : PlanOp) : Nat := offset o.word
def PlanOp.key (o : PlanOp) : List Nat := [o.hall, o.tread, o.off, o.slot]

/-- The issue clock of an op, in hall clocks of the flight. -/
def PlanOp.clockOf (b : Bytes) (o : PlanOp) : Nat := o.tread * rateOf b o.hall + o.off

/-- The Gallery clock at which an op enters the Gallery (R135). -/
def PlanOp.gal (b : Bytes) (o : PlanOp) : Nat := 128 * o.tread + ceilDiv (o.off * 128) (rateOf b o.hall)

/-- Tread bundles with their tread and their index. -/
def numbered : List (Nat × List Nat) → Nat → List (Nat × Nat × List Nat)
  | [], _ => []
  | (n, bd) :: t, i => (n, i, bd) :: numbered t (i + 1)

/-- The ops of a logical hall's tread bundles, in program order; a repeated P op counts once, where it is held. -/
def opsOf (b : Bytes) (l : Nat) : List PlanOp :=
  let p := program b l
  ((numbered (treadBundles p) (lead p)).map (fun e => (List.range 4).filterMap (fun k =>
    let w := slot e.2.2 k
    if w = 0 then none else some { hall := l, tread := e.1, bundle := e.2.1, slot := k, word := w }))).flatten

/-- The ops of an opcode. -/
def opsCode (b : Bytes) (l c : Nat) : List PlanOp := (opsOf b l).filter (fun o => o.code == c)

/-- The logical halls of a plan. -/
def logicals (b : Bytes) : List Nat := (List.range 16).filter (fun l => (phys b l).isSome)

/-- Every op of every hall. -/
def allOps (b : Bytes) : List PlanOp := ((logicals b).map (opsOf b)).flatten

/-! ### What the verifier knows of a pointer (R101, R106, R152) -/

/-- The bytes that a MOVE moves. -/
def moveBytes (w : Nat) : Nat := 128 * moveFlits w

/-- What a pointer may hold: its endpoints by the writes that reach here, its ADDRESS if it is known exactly, and which multiples of 512
ADDRESS mod 8,192 may be. -/
structure PtrInfo where
  ends : List Nat := []
  exact : Option Nat := none
  offs : List Nat := []
deriving DecidableEq, Repr

/-- Two paths meet. -/
def PtrInfo.join (x y : PtrInfo) : PtrInfo :=
  if x.ends = [] then y else if y.ends = [] then x else
  { ends := x.ends ++ y.ends.filter (fun e => !x.ends.contains e), exact := if x.exact = y.exact then x.exact else none,
    offs := (List.range 16).filter (fun i => x.offs.contains i || y.offs.contains i) }

/-- The data-start alignment of a buffer class, in 512 octets (R152). -/
def classAlign (c : Nat) : Nat := [16, 1, 2, 4, 8, 2, 16, 16].getD c 16

/-- A write of a pointer. -/
inductive PtrWrite where
  | set (endp addr : Nat)
  | alloc (stack cls : Nat)
  | inc (n : Nat)
deriving DecidableEq, Repr

def PtrWrite.apply (w : PtrWrite) (p : PtrInfo) : PtrInfo :=
  match w with
  | .set e a => { ends := [e], exact := some a, offs := [a / 512 % 16] }
  | .alloc s c => { ends := [0x20 + s], exact := none, offs := (List.range 16).filter (fun i => i % classAlign c == 0) }
  | .inc n => { p with exact := p.exact.map (· + n), offs := (List.range 16).filter (fun i => p.offs.any (fun j => (j + n / 512) % 16 == i)) }

/-- The writes that an op makes of pointers: the clock in which each takes effect, the pointer, the write (R101). -/
def ptrWrites (b : Bytes) (o : PlanOp) : List (Nat × Nat × PtrWrite) :=
  let t := o.clockOf b
  if o.code = 0x12 then let (i, e, a) := setptrFields o.word; [(t + 1, i, .set e a)]
  else if o.code = 0x10 ∧ bitOf o.word 43 then [(t + 1, bitsOf o.word 47 44, .inc (moveBytes o.word))]
  else if o.code = 0x32 ∧ bitsOf o.word 48 46 = 0 then [(t + 32, bitsOf o.word 45 42, .alloc (bitsOf o.word 38 37) (bitsOf o.word 41 39))]
  else []

/-- The writes of one pointer over a flight, in the order in which they take effect. -/
def writesOf (b : Bytes) (l k : Nat) : List (Nat × PtrWrite) :=
  sortBy (fun x y => decide (x.1 < y.1)) ((((opsOf b l).map (ptrWrites b)).flatten).filterMap (fun e => if e.2.1 = k then some (e.1, e.2.2) else none))

/-- The preamble's write of a pointer. -/
def preambleWrite (b : Bytes) (l k : Nat) : PtrInfo :=
  (preamble (program b l)).foldl (fun (p : PtrInfo) w =>
    let (i, e, a) := setptrFields w
    if opcode w = 0x12 ∧ i = k then (PtrWrite.set e a).apply p else p) {}

/-- What a pointer holds before a clock of the flight, from what it holds at the landing. -/
def ptrRun (ws : List (Nat × PtrWrite)) (p : PtrInfo) (t : Nat) : PtrInfo := ws.foldl (fun p w => if w.1 ≤ t then w.2.apply p else p) p

/-- What a pointer may hold at a landing: its preamble value joined with what the flights before may leave, until nothing changes. -/
def ptrFix (ws : List (Nat × PtrWrite)) (stop : Nat) : Nat → PtrInfo → PtrInfo
  | 0, p => p
  | n + 1, p => let q := p.join (ptrRun ws p stop); if q = p then p else ptrFix ws stop n q

/-- What a pointer may hold when an op issues. -/
def ptrAt (b : Bytes) (l k t : Nat) : PtrInfo :=
  let ws := writesOf b l k
  ptrRun ws (ptrFix ws (flightLen b * 128 + 32) 24 (preambleWrite b l k)) t

/-- The one endpoint of a MOVE that every path agrees on (R106). -/
def moveEnd (b : Bytes) (o : PlanOp) : Option Nat :=
  match (ptrAt b o.hall (bitsOf o.word 47 44) (o.clockOf b)).ends with
  | [e] => if e = 0x3F then none else some e
  | _ => none

/-! ### Stops, links and paths (R136 to R138) -/

/-- Die and position of a physical hall, and of a quarter of a stack. -/
def hallStop (h : Nat) : Nat × Nat := (h / 9, [1, 2, 3, 8, 9, 10, 15, 16, 17].getD (h % 9) 0)
def quarterStop (s q : Nat) : Nat × Nat := (s / 2, (if s % 2 = 0 then 4 else 11) + q)

/-- Hops from one position to another on a ring. -/
def hops (r x y : Nat) : Nat := if r = 0 then (y + 19 - x) % 19 else (x + 19 - y) % 19

/-- The links of n hops from a position, each with the clock after which a flit enters it. -/
def ringLinks (side d r x n t : Nat) : List (Nat × Nat) :=
  (List.range n).map (fun i => (side * 0x1000 + d * 0x100 + r * 0x80 + (if r = 0 then (x + i) % 19 else (x + 19 - i) % 19), t + 2 * i))

/-- A path on a ring number: the links with their delays, and the delay of the last stop: 2 h + 24 b. side is 1 on the request
sideband. -/
def route (side r : Nat) (x y : Nat × Nat) : List (Nat × Nat) × Nat :=
  if x.1 = y.1 then (ringLinks side x.1 r x.2 (hops r x.2 y.2) 0, 2 * hops r x.2 y.2)
  else
    let a := hops r x.2 18
    let c := hops r 18 y.2
    (ringLinks side x.1 r x.2 a 0 ++ [(0x2000 + x.1 * 0x100 + r * 0x80 + side * 0x40, 2 * a)] ++ ringLinks side y.1 r 18 c (2 * a + 24), 2 * a + 24 + 2 * c)

/-- Clocks from one stop to another on a ring number: 2 h + 24 b (R138). -/
def pathDelay (r : Nat) (x y : Nat × Nat) : Nat := (route 0 r x y).2

/-- Hops of a path, counted on both dies. -/
def pathHops (r : Nat) (x y : Nat × Nat) : Nat := if x.1 = y.1 then hops r x.2 y.2 else hops r x.2 18 + hops r 18 y.2

/-- The ring with the fewer hops, 0 when equal (R142), over the farthest of some far ends. -/
def shortRing (x : Nat × Nat) (ys : List (Nat × Nat)) (toward : Bool) : Nat :=
  let far := fun r => ys.foldl (fun m y => max m (if toward then pathHops r x y else pathHops r y x)) 0
  if far 0 ≤ far 1 then 0 else 1

/-! ### Beats and Nave ports (R142, R148, R152) -/

/-- The channels that beat k of a move may use, and the bank if the address is known exactly. -/
def beatPlaces (p : PtrInfo) (k : Nat) : List Nat × Option Nat :=
  match p.exact with
  | some a => ([(a / 512 + k) % 16], some ((a + 512 * k) / 8192 % 16))
  | none => ((List.range 16).filter (fun c => p.offs.any (fun j => (j + k) % 16 == c)), none)

/-- The ring and the hops between a hall and its die's Nave port (R142). -/
def naveRing (h : Nat) (toward : Bool) : Nat := shortRing (hallStop h) [(h / 9, 0)] toward
def naveHops (h : Nat) (toward : Bool) : Nat :=
  if toward then hops (naveRing h true) (hallStop h).2 0 else hops (naveRing h false) 0 (hallStop h).2

end Sys2Proof.Machine.Plan
end

