-- ==== Sys2Proof/Machine/Treads.lean ====
section
/-! DEFINITION. The ops of tread programs that move data and set pointers (chapter 4), and the Gallery and Atrium events that
carry them out (chapter 5). An op row acts on the op that the hall's current tread holds in the op's slot and has not
issued; where the slot holds another op, or none, the row has no effect (log entry 15). -/

namespace Sys2Proof.Machine

/-! ### Ops (R95, R98, R103) -/

/-- Take the op of a slot (0 M, 1 P, 2 E, 3 C) if it has the opcode: the op, the state with it issued at its clock. -/
def State.takeOp (s : State) (h slot opc : Nat) : Option (Nat × State) :=
  let q := s.seq h
  let o := q.ops.getD slot 0
  if s.running h ∧ o ≠ 0 ∧ Plan.opcode o = opc then
    some (o, (s.setSeq h { q with ops := q.ops.set slot 0 }).atTime (clockAt q.start (Plan.offset o) (s.clocks h)))
  else none

/-- An op occupies a block of the hall until a number of hall clocks after its issue clock (R49, R100). -/
def State.occupy (s : State) (h o clocks : Nat) : State :=
  let q := s.seq h
  s.setSeq h { q with busy := max q.busy (clockAt q.start (Plan.offset o + clocks) (s.clocks h)) }

/-- OP_NOP (R96): a NOP occupies its slot and does nothing. -/
def execOpNop (h slot : Nat) (s : State) : Answer := .next (match s.takeOp h slot 0 with | some (_, s) => s | none => s)

/-! ### Pointer registers (R103, R104, R111) -/

def State.ptrEndp (s : State) (h k : Nat) : Nat := s.fld Fld.TSQ_PTR_HI_ENDPOINT h k
def State.ptrAddr (s : State) (h k : Nat) : Nat := s.fld Fld.TSQ_PTR_LO_ADDRESS h k + 2 ^ 32 * s.fld Fld.TSQ_PTR_HI_ADDRESS h k

/-- Write a pointer's endpoint and address; the buffer it may hold is the operand. -/
def State.setPtr (s : State) (h k endp addr : Nat) (buf : Option Nat) : State :=
  let s := (s.setFld Fld.TSQ_PTR_LO_ADDRESS addr h k).setFld Fld.TSQ_PTR_HI_ADDRESS (addr / 2 ^ 32) h k
  let s := (s.setFld Fld.TSQ_PTR_HI_ENDPOINT endp h k).setFld Fld.TSQ_PTR_HI_VALID (if endp = 0x3F then 0 else 1) h k
  (s.setFld Fld.TSQ_PTR_HI_BUFFER (b2n buf.isSome) h k).setFld Fld.TSQ_PTRBUF_BUFFER_ID (buf.getD 0) h k

/-- A pointer becomes invalid. -/
def State.voidPtr (s : State) (h k : Nat) : State := s.setPtr h k 0x3F 0 none

/-- The buffer that a pointer holds. -/
def State.ptrBuf (s : State) (h k : Nat) : Option Nat :=
  if s.flag Fld.TSQ_PTR_HI_BUFFER h k then some (s.fld Fld.TSQ_PTRBUF_BUFFER_ID h k) else none

/-- Release a buffer that a pointer still holds (R111, R119). -/
def State.orphan (s : State) (h k : Nat) : State :=
  match s.ptrBuf h k with
  | some id => (s.bump Fld.TSQ_CNT_ORPHAN_COUNT h).drop id
  | none => s

/-- The result of an ALLOC reaches its pointer. -/
def State.allocLand (s : State) (h : Nat) (a : Alloc) : State :=
  match a.result with
  | none => s.voidPtr h a.ptr
  | some (id, lo, hi) => (s.setSeq h { s.seq h with spans := (s.seq h).spans.put a.ptr (lo, hi) }).setPtr h a.ptr (0x20 + a.stack) lo (some id)

/-- Results of ALLOCs take effect whose 32 clocks have passed: an op that issues in their clock reads them (R101, R119). -/
def State.allocsLand (s : State) (h : Nat) : State :=
  let q := s.seq h
  let due := q.allocs.filter (fun a => decide (a.due ≤ s.now))
  due.foldl (fun (s : State) a => s.allocLand h a) (s.setSeq h { q with allocs := q.allocs.filter (fun a => !decide (a.due ≤ s.now)) })

/-- Keep a pointer as it stands before an op of the tread writes it. -/
def State.notePtr (s : State) (h k o : Nat) : State :=
  let q := s.seq h
  s.setSeq h { q with former := q.former ++ [{ ptr := k, clock := Plan.offset o, endp := s.ptrEndp h k, addr := s.ptrAddr h k, buf := s.ptrBuf h k, span := q.spans.get (0, 0) k }] }

/-- A pointer as an op reads it (R101): as it stood before the op's clock. -/
def State.ptrFor (s : State) (h k o : Nat) : PtrWas :=
  let q := s.seq h
  match q.former.find? (fun x => x.ptr == k && x.clock == Plan.offset o) with
  | some x => x
  | none => { ptr := k, clock := Plan.offset o, endp := s.ptrEndp h k, addr := s.ptrAddr h k, buf := s.ptrBuf h k, span := q.spans.get (0, 0) k }

/-- Carry out a SETPTR. -/
def State.doSetptr (s : State) (h o : Nat) : State :=
  let (k, e, a) := setptrFields o
  ((s.notePtr h k o).orphan h k).setPtr h k e a none

/-- SETPTR (R111). -/
def execSetptr (h : Nat) (s : State) : Answer :=
  .next (match s.takeOp h 0 0x12 with | some (o, s) => (s.allocsLand h).doSetptr h o | none => s)

/-! ### MOVE (R105 to R107) -/

/-- The lane is the first lane of a port in a hall's bays. -/
def State.portOfHall (s : State) (h l : Nat) : Bool := decide (l < 256) && s.isPort l && s.bayOwner (l / 8) == some h

/-- Where an endpoint and address lead: the physical hall (or the stack), when the address obeys R104 for that many bytes. R106 names the ADDRESS
alone; that a move whose area runs past the end of the far alcove or stack is suppressed too is the model's reading (log entry 65). -/
def State.farEnd (s : State) (e a n : Nat) : Option Nat :=
  if e < 0x10 then
    match s.physOf e with
    | some f => if a % 64 = 0 ∧ a + n ≤ alcoveTop then some f else none
    | none => none
  else if e < 0x20 then
    match s.physOf (e - 0x10) with
    | some f => if a < 256 ∧ s.portOfHall f a then some f else none
    | none => none
  else if e < 0x24 then if a % 512 = 0 ∧ a + n ≤ stackSize then some (e - 0x20) else none
  else if e < 0x34 then
    match s.physOf (e - 0x24) with
    | some f => if a < 4096 ∧ s.flows.any (fun x => x.1 == f * 4096 + a) then some f else none
    | none => none
  else none

/-- The octets of a frame record (R108): header, frame, padding to 64. -/
def frameRecord (b : Bytes) (tstamp : Bool) : Bytes :=
  let r := leBytes 8 (b.length + b2n tstamp * 65536) ++ b
  r ++ List.replicate ((64 - r.length % 64) % 64) 0

/-- Octets that a frame takes as a record. -/
def recordSize (n : Nat) : Nat := (8 + n + 63) / 64 * 64

/-- Take whole records of one class for an endpoint, oldest first, while they fit (R107). -/
def takeRecords (e a c : Nat) : List StageRec → Nat → List TxFrame × List StageRec × Nat
  | [], room => ([], [], room)
  | r :: t, room =>
    if r.endp = e ∧ r.addr = a ∧ r.cls = c then
      if recordSize r.frame.octets.length ≤ room then
        let (x, y, z) := takeRecords e a c t (room - recordSize r.frame.octets.length)
        (r.frame :: x, y, z)
      else ([], r :: t, room)
    else
      let (x, y, z) := takeRecords e a c t room
      (x, r :: y, z)

/-- Fill an open move over the classes in the order of their ranks. -/
def fillOpen (e a : Nat) : List Nat → List StageRec → Nat → List TxFrame × List StageRec × Nat
  | [], q, room => ([], q, room)
  | c :: t, q, room =>
    let (x, q1, r1) := takeRecords e a c q room
    let (y, q2, r2) := fillOpen e a t q1 r1
    (x ++ y, q2, r2)

/-- Insert a class record by its rank. -/
def insertRank (x : Nat × Nat × Nat × Nat) : List (Nat × Nat × Nat × Nat) → List (Nat × Nat × Nat × Nat)
  | [] => [x]
  | y :: t => if x.2.1 ≤ y.2.1 then x :: y :: t else y :: insertRank x t

/-- The class records of a hall in ascending rank (R78, R79). -/
def State.ranked (s : State) (h : Nat) : List (Nat × Nat × Nat × Nat) :=
  match s.logicalOf h with
  | some l => (Plan.budgets s.pln.active l).foldl (fun acc x => insertRank x acc) []
  | none => []

/-- Add a move under way. -/
def State.addMove (s : State) (m : Move) : State :=
  { s with gal := { s.gal with moves := s.gal.moves ++ [{ m with id := s.gal.nextMove }], nextMove := s.gal.nextMove + 1 } }

/-- A span of so many hall clocks of a hall's tread, and one that starts at or after an instant of the tread, as clocks from the tread's start. -/
def State.clockFrom (s : State) (h start t : Nat) : Nat := ceilDiv ((t - start) * s.clocks h) treadTicks

/-- The Gallery clock of its tread at which an op enters the Gallery (R135). -/
def State.galleryClock (s : State) (h o : Nat) : Nat := ceilDiv (Plan.offset o * 128) (s.clocks h)

/-- What the verifier knows of the pointer of a hall's op (R152): its exact ADDRESS, or the places it may have. -/
def State.ptrKnown (s : State) (h k o : Nat) : Plan.PtrInfo :=
  match s.logicalOf h with
  | some l => Plan.ptrAt s.pln.active l k ((s.seq h).tread * s.clocks h + Plan.offset o)
  | none => {}

/-- Clocks from the farthest quarter stop that a pull from a stack uses, or may use, to its hall (R141, R152). -/
def State.pullDelay (s : State) (h stack ring k o beats : Nat) : Nat :=
  let p := s.ptrKnown h k o
  (List.range beats).foldl (fun m i => (Plan.beatPlaces p i).1.foldl (fun m c => max m (Plan.pathDelay ring (Plan.quarterStop stack (c / 4)) (Plan.hallStop h))) m) 0

/-- When the flits of a move are written (R140, R141, R143): the tread's start, the clock of flit 0 and the clocks in a tread, those of the Gallery, or
of the hall whose own path a lane-buffer record, or a move within a hall, takes. -/
def State.moveTiming (s : State) (h o e far a : Nat) (pull : Bool) : Nat × Nat × Nat :=
  let start := (s.seq h).start
  let g := s.galleryClock h o
  let ring := bitsOf o 15 15
  let lane := decide (0x10 ≤ e) && decide (e < 0x20)
  if pull then
    if 0x20 ≤ e then (start, g + 4 + 2 * s.pullDelay h far ring (bitsOf o 47 44) o (moveFlits o / 4) + 28 + 4, 128)
    else (start, g + 4 + 2 * Plan.pathDelay ring (Plan.hallStop far) (Plan.hallStop h) + 8 + 4, 128)
  else if 0x20 ≤ e ∧ e < 0x24 then (start, g + 4, 128)
  else if 0x10 ≤ e ∧ far = h then (start, Plan.offset o + 1, s.clocks h)
  else
    let x := g + 4 + Plan.pathDelay ring (Plan.hallStop h) (Plan.hallStop far) + 4
    if lane then (start, s.clockFrom far start (clockAt start x 128) + 1, s.clocks far) else (start, x, 128)

/-- Clocks between a move's hall and the quarter stop of its beat k, the way its flits go (R138, R148). -/
def Move.beatDelay (m : Move) (k : Nat) : Nat :=
  let q := Plan.quarterStop m.far ((m.addr + 512 * k) / 2048 % 4)
  if m.pull then Plan.pathDelay m.ring q (Plan.hallStop m.hall) else Plan.pathDelay m.ring (Plan.hallStop m.hall) q

/-- The instant at which a flit of a move is written, or reaches its quarter stop (R140, R141, R143). -/
def Move.flitTime (m : Move) (f : Nat) : Nat :=
  clockAt m.base (m.clock + f + (if !m.pull ∧ 0x20 ≤ m.endp ∧ m.endp < 0x24 then m.beatDelay (f / 4) else 0)) m.rate

/-- The instant at which a beat counts as written, or its first flit leaves the quarter stop (R149, R150). -/
def Move.beatTime (m : Move) (k : Nat) : Nat :=
  if m.pull then clockAt m.base (m.clock + 4 * k - 4 - m.beatDelay k) 128 else clockAt m.base (m.clock + 4 * k + 3 + m.beatDelay k + 12) 128

/-- The flits of an area whose alcove lines are poisoned. -/
def State.badFlits (s : State) (h a n : Nat) : List Nat := (List.range n).filter (fun f => s.alcoveBad h (a + 128 * f) 128)

/-- MOVE (R105 to R107): suppressed, or under way. A push carries what the alcove holds at the issue. -/
def execMove (h : Nat) (s : State) : Answer :=
  match s.takeOp h 0 0x10 with
  | none => .next s
  | some (o, s) =>
    let s := s.allocsLand h
    let pull := bitOf o 48
    let k := bitsOf o 47 44
    let la := bitsOf o 42 24 * 64
    let n := moveFlits o
    let bytes := 128 * n
    let w := s.ptrFor h k o
    let e := w.endp
    let a := w.addr
    let s := s.occupy h o (if 0x10 ≤ e ∧ e < 0x20 then n else (n * s.clocks h + 127) / 128)
    let beyond := w.buf.isSome && decide (w.span.2 < a + bytes)
    match (if beyond then none else s.farEnd e a bytes) with
    | none => .next (s.bump Fld.TSQ_CNT_SUPPRESS_COUNT h)
    | some far =>
      let (base, clock, rate) := s.moveTiming h o e far a pull
      let m : Move := { id := 0, base := base, clock := clock, rate := rate, ring := bitsOf o 15 15, hall := h, pull := pull, endp := e, far := far, addr := a, laddr := la, flits := n, ptr := k, data := [], sent := 0, beats := 0, used := 0, dead := false, bad := [], opened := false, frames := [] }
      let s := if bitOf o 43 then (s.notePtr h k o).setPtr h k e (a + bytes) w.buf else s
      if bitOf o 14 then
        let (fr, rest, room) := fillOpen e a ((s.ranked h).map (fun r => r.1)) (s.stageq.get [] h) bytes
        let s := { s with stageq := s.stageq.put h rest }
        let s := s.bump64 Fld.GAL_CNT_OPEN_IDLE_LO_COUNT Fld.GAL_CNT_OPEN_IDLE_HI_COUNT (room / 128)
        .next (s.addMove { m with data := (fr.map (fun f => frameRecord f.octets f.tstamp)).flatten, opened := true, frames := fr })
      else if pull then .next (s.addMove m)
      else
        let bad := s.badFlits h la n
        .next ((s.poisonUse (bad != [])).addMove { m with data := s.alcoveRead h la bytes, bad := bad })

/-! ### Flow rings (R109, R129) -/

/-- Room in a flow ring. -/
def State.flowRoom (s : State) (h base size : Nat) : Nat := size - sub32 (s.producer h base) (s.consumer h base)

/-- Write a record at PRODUCER, with a pad record first where it would cross the end of the data area; none when there is
no room (R109). The answer is whether it was written. -/
def State.flowAppend (s : State) (h f : Nat) (r : Bytes) : State × Bool :=
  match s.flow h f with
  | none => (s, false)
  | some (base, size) =>
    let p := s.producer h base
    let left := size - p % size
    let pad := if left < r.length then left else 0
    if s.flowRoom h base size < pad + r.length then (s, false)
    else
      let s := if pad = 0 then s else s.putAlcove h (base + 64 + p % size) (leBytes 8 0xFFFF)
      let s := s.putAlcove h (base + 64 + (p + pad) % size) r
      (s.putAlcove h base (leBytes 4 (add32 p (pad + r.length))), true)

/-- The records that data holds, each at a multiple of 64 octets. -/
def recordCount (b : Bytes) : Nat :=
  ((List.range ((b.length + 63) / 64)).foldl (fun (x : Nat × Nat) j =>
    if x.1 ≤ 64 * j ∧ 0x3C ≤ leAt b (64 * j) 2 ∧ leAt b (64 * j) 2 ≤ 0x23FC then (64 * j + recordSize (leAt b (64 * j) 2), x.2 + 1) else x) (0, 0)).2

/-- Append the records of a push, in order; at the first that does not fit it and the rest are dropped, and at a malformed
one the rest of the data is discarded (R108, R109). The counters are those of the hall that holds the ring (log entry 65). Fuel bounds the records. -/
def State.flowPush (s : State) (h src f : Nat) : Nat → Bytes → State
  | 0, _ => s
  | fuel + 1, b =>
    if b.length < 64 then s else
    let len := leAt b 0 2
    if len = 0xFFFF then
      match s.flow h f with
      | none => s
      | some (base, size) =>
        let p := s.producer h base
        let left := size - p % size
        if s.flowRoom h base size < left then s.bumpBy Fld.TSQ_CNT_FLOWDROP_COUNT (1 + recordCount (b.drop left)) h
        else
          let s := s.putAlcove h (base + 64 + p % size) (leBytes 8 0xFFFF)
          (s.putAlcove h base (leBytes 4 (add32 p left))).flowPush h src f fuel (b.drop left)
    else if len < 0x3C ∨ 0x23FC < len then s.bump Fld.TSQ_CNT_LANEREC_COUNT h
    else
      let n := recordSize len
      match s.flowAppend h f (sliceB b 0 n) with
      | (s, true) => s.flowPush h src f fuel (b.drop n)
      | (s, false) => s.bumpBy Fld.TSQ_CNT_FLOWDROP_COUNT (recordCount b) h

/-! ### Lane-buffer records (R108, R143) -/

/-- A record joins its port's planned queue, or is dropped (R108, R221). What a record takes of the queue's 64 KiB is its frame's octets, without
header, padding and FCS; R108 does not say (log entry 65). -/
def State.planEnqueue (s : State) (h l : Nat) (b : Bytes) (tstamp : Bool) : State :=
  if !s.portUp l then s.bump Fld.LN_CNT_TXDOWN_COUNT 0 l
  else if 65536 < queued (s.port l).planned + b.length then s.bump Fld.TSQ_CNT_LANEREC_COUNT h
  else s.setPort l { s.port l with planned := (s.port l).planned ++ [{ octets := b, tstamp := tstamp, drops := [], send := none }] }

/-- Take into the port's queue every record of a lane-buffer push whose last flit has been written. A record that the end of the move cuts off is
ignored, and a push into another hall counts in the hall that receives it: R108 says neither (log entry 65). -/
def State.laneRecords (s : State) (m : Move) : Nat → State × Move
  | 0 => (s, m)
  | fuel + 1 =>
    let have_ := 128 * m.sent
    if m.dead ∨ have_ < m.used + 64 ∨ m.data.length < m.used + 64 then (s, m)
    else
      let len := leAt m.data m.used 2
      let ts := bitOf (leAt m.data m.used 8) 16
      if len < 0x3C ∨ 0x23FC < len then (s.bump Fld.TSQ_CNT_LANEREC_COUNT m.far, { m with dead := true })
      else
        let n := recordSize len
        if have_ < m.used + n then (s, m)
        else
          let hurt := m.bad.any (fun f => decide (m.used < 128 * f + 128) && decide (128 * f < m.used + n))
          let s := s.poisonUse hurt
          let m1 := { m with used := m.used + n }
          match m.opened, m.frames with
          | true, f :: t =>
            let s := if hurt then s.dropFrame f else s.openEnqueue m.addr f
            s.laneRecords { m1 with frames := t } fuel
          | _, _ =>
            let s := if hurt then s else s.planEnqueue m.far m.addr (sliceB m.data (m.used + 8) len) ts
            s.laneRecords m1 fuel

/-! ### The Gallery and the Atrium (R140, R141, R149, R150, R156) -/

/-- Replace or remove a move. -/
def State.setMove (s : State) (m : Move) : State :=
  { s with gal := { s.gal with moves := s.gal.moves.map (fun x => if x.id = m.id then m else x) } }
def State.endMove (s : State) (i : Nat) : State := { s with gal := { s.gal with moves := s.gal.moves.filter (fun x => x.id != i) } }
def State.moveOf (s : State) (i : Nat) : Option Move := s.gal.moves.find? (fun x => x.id == i)

/-- The endpoint is an Atrium stack. -/
def isAtrium (e : Nat) : Bool := decide (0x20 ≤ e) && decide (e < 0x24)

/-- A move uses no Gallery resource: it stays within its hall (R143). -/
def Move.isLocal (m : Move) : Bool := decide (0x10 ≤ m.endp) && !isAtrium m.endp && m.far == m.hall

/-- One flit delivered: into an alcove, a quarter stop's beat, a lane buffer or a flow ring. -/
def State.deliverFlit (s : State) (m : Move) : State :=
  let f := m.sent
  let hurt := m.bad.contains f
  if m.pull then
    if isAtrium m.endp then
      let s := s.putAlcove m.hall (m.laddr + 128 * f) (sliceB m.data (128 * f) 128)
      let s := if hurt then s.poisonAlcove m.hall (m.laddr + 128 * f) 128 0 else s
      if f + 1 = m.flits then s.endMove m.id else s.setMove { m with sent := f + 1 }
    else
      let bad := hurt || s.alcoveBad m.far (m.addr + 128 * f) 128
      let s := s.poisonUse (s.alcoveBad m.far (m.addr + 128 * f) 128)
      let s := s.putAlcove m.hall (m.laddr + 128 * f) (s.alcoveRead m.far (m.addr + 128 * f) 128)
      let s := if bad then s.poisonAlcove m.hall (m.laddr + 128 * f) 128 0 else s
      if f + 1 = m.flits then s.endMove m.id else s.setMove { m with sent := f + 1 }
  else if isAtrium m.endp then s.setMove { m with sent := f + 1 }
  else if m.endp < 0x10 then
    let s := s.putAlcove m.far (m.addr + 128 * f) (sliceB m.data (128 * f) 128)
    let s := if hurt then s.poisonAlcove m.far (m.addr + 128 * f) 128 0 else s
    if f + 1 = m.flits then s.endMove m.id else s.setMove { m with sent := f + 1 }
  else if m.endp < 0x20 then
    let (s, m) := s.laneRecords { m with sent := f + 1 } (m.flits * 2 + 1)
    if f + 1 = m.flits then s.endMove m.id else s.setMove m
  else if f + 1 = m.flits then (s.flowPush m.far m.hall m.addr (m.flits * 2 + 1) m.data).endMove m.id
  else s.setMove { m with sent := f + 1 }

/-- A flit may be delivered now: a pull from the Atrium waits for its beat. -/
def Move.flitDue (m : Move) : Bool := decide (m.sent < m.flits) && (!(m.pull && isAtrium m.endp) || decide (m.sent < 4 * m.beats))

/-- MOVE_FLIT_DELIVER (R138 to R141, R143, R156): the next flit of a move reaches its stop, at its clock; bad: it fails its link check. -/
def execMoveFlitDeliver (i : Nat) (bad : Bool) (s : State) : Answer :=
  match s.moveOf i with
  | none => .next s
  | some m =>
    if !m.flitDue then .next s else
    let s := s.atTime (m.flitTime m.sent)
    let s := if m.isLocal then s else s.bump64 Fld.GAL_CNT_FLITS_LO_COUNT Fld.GAL_CNT_FLITS_HI_COUNT 1
    if bad ∧ !m.isLocal then
      let s := (s.bump Fld.GAL_CNT_FLIT_ERR_COUNT).raise Fld.GAL_STATUS_FLIT_ERR
      .next (s.deliverFlit { m with bad := m.sent :: m.bad })
    else .next (s.deliverFlit m)

/-- The address of a move's next beat. -/
def Move.beatAt (m : Move) : Nat := m.addr + 512 * m.beats

/-- Some flit of a write beat carries a poison mark. -/
def Move.beatHurt (m : Move) : Bool := (List.range 4).any (fun j => m.bad.contains (4 * m.beats + j))

/-- ATRIUM_BEAT (R149, R150, R156): the next beat of a move, at its clock; for a read, ecc is 0 clean, 1 corrected, 2 uncorrectable. -/
def execAtriumBeat (i ecc : Nat) (s : State) : Answer :=
  match s.moveOf i with
  | none => .next s
  | some m =>
    if !isAtrium m.endp ∨ m.flits ≤ 4 * m.beats then .next s
    else if m.pull then
      let s := s.atTime (m.beatTime m.beats)
      let stored := s.beatBad m.far m.beatAt
      let s := s.poisonUse stored
      let s := if ecc = 1 then s.bump Fld.ATR_CNT_CE_COUNT 0 m.far else s
      let s := if 2 ≤ ecc then (s.bump Fld.ATR_CNT_UE_COUNT 0 m.far).alm 0x0302 5 0xFF 5 m.far (leBytes 1 1 ++ leBytes 1 m.far ++ leBytes 8 m.beatAt) else s
      let hurt := if stored ∨ 2 ≤ ecc then (List.range 4).map (· + 4 * m.beats) else []
      .next (s.setMove { m with data := m.data ++ s.atriumRead m.far m.beatAt 512, beats := m.beats + 1, bad := hurt ++ m.bad })
    else if m.sent < 4 * (m.beats + 1) then .next s
    else
      let s := s.atTime (m.beatTime m.beats)
      let s := s.putBeat m.far m.beatAt (sliceB m.data (512 * m.beats) 512)
      let s := if m.beatHurt then s.poisonBeat m.far m.beatAt 0 else s
      .next (if m.flits ≤ 4 * (m.beats + 1) then s.endMove m.id else s.setMove { m with beats := m.beats + 1 })

/-! ### Refresh (R110, R153 to R155) -/

/-- Gallery clocks in a span of Device Time. -/
def galClocks (t : Nat) : Nat := t * 128 / treadTicks

/-- A refresh starts on a channel: the gap since the one before it may be the stack's largest since the plan started. -/
def State.refresh (s : State) (stack ch t : Nat) : State :=
  let k := stack * 16 + ch
  let gap := match look s.gal.refreshed k with
    | some p => galClocks (t - p)
    | none => 0
  let s := { s with gal := { s.gal with refreshed := s.gal.refreshed.put k t } }
  s.setFld Fld.ATR_REFRESH_GAP_CLOCKS (min 0xFFFF (max gap (s.fld Fld.ATR_REFRESH_GAP_CLOCKS 0 stack))) 0 stack

/-- The Gallery clock at which an op enters the Gallery (R135), as an instant, and a number of clocks later. -/
def State.galleryAt (s : State) (h o later : Nat) : Nat :=
  clockAt (s.seq h).start (s.galleryClock h o + later) 128

/-- REFRESH (R110, R153): it starts 8 Gallery clocks after it enters. -/
def execRefresh (h : Nat) (s : State) : Answer :=
  match s.takeOp h 0 0x11 with
  | none => .next s
  | some (o, s) => .next ((s.occupy h o 1).refresh (bitsOf o 48 47) (bitsOf o 46 43) (s.galleryAt h o 8))

/-- EMERG_REFRESH (R155): a channel 8,192 Gallery clocks without a start is refreshed by its stack controller. -/
def execEmergRefresh (stack ch at_ : Nat) (s : State) : Answer :=
  let s := s.atTime at_
  let last := (look s.gal.refreshed (stack * 16 + ch)).getD 0
  if 4 ≤ stack ∨ 16 ≤ ch ∨ !s.planActive ∨ galClocks (s.now - last) < 8192 then .next s
  else
    let s := s.refresh stack ch s.now
    let s := s.setFld Fld.ATR_STATUS_EMERG (s.fld Fld.ATR_STATUS_EMERG ||| 2 ^ stack)
    .next ((s.bump Fld.ATR_CNT_EMERG_COUNT 0 stack).alm 0x0301 5 0xFF 5 stack (leBytes 1 stack ++ leBytes 1 ch))

/-- A channel has started a refresh within the last 4,096 Gallery clocks. -/
def State.freshChannel (s : State) (k : Nat) : Bool :=
  match look s.gal.refreshed k with
  | some t => decide (galClocks (s.now - t) < 4096)
  | none => false

/-- SELF_REFRESH (R155): with no plan active, every channel of a powered stack once per 4,096 clocks. -/
def execSelfRefresh (stack ch at_ : Nat) (s : State) : Answer :=
  let s := s.atTime at_
  if 4 ≤ stack ∨ 16 ≤ ch ∨ s.planActive ∨ !bitOf (s.fld Fld.ATR_STATUS_POWERED) stack ∨ s.freshChannel (stack * 16 + ch) then .next s
  else .next { s with gal := { s.gal with refreshed := s.gal.refreshed.put (stack * 16 + ch) s.now } }

/-! ### WIN, SKIP, LAND, WAKE (R112, R122, R128) -/

/-- WIN (R112): the three windows of the tread, from the op's clock on. -/
def execWin (h : Nat) (s : State) : Answer :=
  match s.takeOp h 1 0x20 with
  | none => .next s
  | some (o, s) =>
    let rx := bitsOf o 48 41
    let fl := bitsOf o 28 21
    let op := bitsOf o 20 13
    let s := s.occupy h o (rx + fl + op)
    .next (s.setSeq h { s.seq h with win := { start := Plan.offset o, rx := rx, flow := bitsOf o 40 29, fl := fl, op := op, next := Plan.offset o, rank := 0, turn := 0, seen := none } })

/-- SKIP and LAND (R98, R128): the bundle covers its further treads, which the sequencer's place in the program shows. -/
def execSkipOp (h : Nat) (s : State) : Answer := .next (match s.takeOp h 3 0x55 with | some (_, s) => s | none => s)
def execLand (h : Nat) (s : State) : Answer := .next (match s.takeOp h 3 0x56 with | some (_, s) => s | none => s)

/-- WAKE (R122): it fires only in a flight for which the named landing is a scheduled return of the named hall. -/
def execWake (h : Nat) (s : State) : Answer :=
  match s.takeOp h 3 0x51 with
  | none => .next s
  | some (o, s) =>
    let l := bitsOf o 48 45
    let f := s.flightNow + bitsOf o 44 29
    match Plan.wakeOf s.pln.active l with
    | some (_, _, period, phase, _) =>
      if Plan.phaseAt f phase period = 0 then .next { s with pln := { s.pln with wakes := s.pln.wakes.put l (f :: s.pln.wakes.get [] l) } }
      else .next s
    | none => .next s

/-! ### BUF ops (R118, R119) -/

/-- The hand-off point of a hall: the buffer owner and the RQ bound to it. -/
def State.handoff (s : State) (h hx : Nat) : Option (Nat × Nat) :=
  match s.logicalOf h with
  | some l => look s.handoffs (l * 256 + hx)
  | none => none

/-- BUF_OP_ALLOC (R119): the allocation is made now, its result reaches the pointer 32 hall clocks later. What a pointer that held a buffer shows
until then the rules do not say: the model makes it invalid at the issue (log entry 65). -/
def execBufOpAlloc (h : Nat) (s : State) : Answer :=
  match s.takeOp h 2 0x32 with
  | none => .next s
  | some (o, t) =>
    if bitsOf o 48 46 ≠ 0 then .next s else
    let k := bitsOf o 45 42
    let c := bitsOf o 41 39
    let stack := bitsOf o 38 37
    let s := (t.occupy h o 1).allocsLand h
    let held := (s.ptrBuf h k).isSome
    let s := ((s.notePtr h k o).orphan h k)
    let s := if held then s.voidPtr h k else s
    let due := clockAt (s.seq h).start (Plan.offset o + 32) (s.clocks h)
    let (s, r) := match s.handoff h (bitsOf o 36 29) with
      | none => (s.bump Fld.TSQ_CNT_ALLOC_FAIL_COUNT h, none)
      | some (own, _) =>
        match s.allocFor own c 1 stack with
        | (s, .inl id) => (s, match s.regionOf id with | some (_, r) => some (id, r.dataAt id, r.dataAt id + classSize c) | none => none)
        | (s, .inr _) => (s.bump Fld.TSQ_CNT_ALLOC_FAIL_COUNT h, none)
    .next (s.setSeq h { s.seq h with allocs := (s.seq h).allocs ++ [{ ptr := k, due := due, stack := stack, result := r }] })

/-- BUF_ALLOC_RESULT (R101, R119): the oldest ALLOC of a hall whose 32 clocks have passed. -/
def execBufAllocResult (h at_ : Nat) (s : State) : Answer :=
  let s := s.atTime at_
  match (s.seq h).allocs with
  | [] => .next s
  | a :: t =>
    if s.now < a.due then .next s else
    .next ((s.setSeq h { s.seq h with allocs := t }).allocLand h a)

/-- BUF_OP_HAND (R119): it waits for the moves through the pointer that issued before it. -/
def execBufOpHand (h : Nat) (s : State) : Answer :=
  match s.takeOp h 2 0x32 with
  | none => .next s
  | some (o, t) =>
    if bitsOf o 48 46 ≠ 1 then .next s else
    let k := bitsOf o 45 42
    let s := (t.occupy h o 1).allocsLand h
    match (s.ptrFor h k o).buf with
    | none => .next s
    | some id =>
      let ms := (s.gal.moves.filter (fun m => m.hall == h && m.ptr == k)).map (fun m => m.id)
      .next (s.setSeq h { s.seq h with hands := (s.seq h).hands ++ [{ moves := ms, ptr := k, buffer := id, hx := bitsOf o 36 29 }] })

/-- The moves that a HAND waits for have written their last data. -/
def State.handDue (s : State) (x : Hand) : Bool := !x.moves.any (fun i => (s.moveOf i).isSome)

/-- HAND_POST (R119, R370): the oldest HAND of a hall whose own moves have written their last data. -/
def execHandPost (h : Nat) (s : State) : Answer :=
  match (s.seq h).hands.find? s.handDue with
  | none => .next s
  | some x =>
    let t := removeFirst (fun y => y == x) (s.seq h).hands
    let len := s.ptrAddr h x.ptr - ((s.seq h).spans.get (0, 0) x.ptr).1
    let held := s.ptrBuf h x.ptr == some x.buffer
    let s := s.setSeq h { s.seq h with hands := t }
    if !held then .next s else
    let s := s.voidPtr h x.ptr
    match s.handoff h x.hx with
    | none => .next ((s.bump Fld.TSQ_CNT_HAND_UNBOUND_COUNT h).drop x.buffer)
    | some (_, q) => .next (s.offer h { queue := q, buffer := some x.buffer, data := [], len := len, mark := 0, low := 0, stamp := s.now })

/-- BUF_OP_RELEASE (R119). -/
def execBufOpRelease (h : Nat) (s : State) : Answer :=
  match s.takeOp h 2 0x32 with
  | none => .next s
  | some (o, t) =>
    if bitsOf o 48 46 ≠ 2 then .next s else
    let k := bitsOf o 45 42
    let s := (t.occupy h o 1).allocsLand h
    match (s.ptrFor h k o).buf with
    | none => .next s
    | some id => .next (((s.notePtr h k o).drop id).voidPtr h k)

/-! ### EVT ops (R126) -/

/-- EVT_OP (R126): the action is scheduled at the start of the next tread plus FINE ns. -/
def execEvtOp (h : Nat) (s : State) : Answer :=
  match s.takeOp h 3 0x54 with
  | none => .next s
  | some (o, s) =>
    let k := bitsOf o 48 44
    let t := (s.seq h).start + treadTicks + bitsOf o 40 34 * nsTicks
    let a : LandAct := { time := t, act := bitsOf o 43 41, width := bitsOf o 33 18, kernel := false, hall := h }
    .next (s.setLand k { s.land k with acts := (s.land k).acts ++ [a] })

end Sys2Proof.Machine
end

