-- ==== Sys2Proof/Machine/Reflex.lean ====
section
/-! DEFINITION. The reflex cores (chapter 6). A row of a kernel instruction is the next instruction of the kernel that runs on
core c of hall h: it takes effect where the kernel's word at the core's next index is the row's own word (R165, R166), and a core whose next word is
another, or that runs no kernel, ignores it (log entry 16). ecc is what the plan store's code says of the word: 0 clean, 1 corrected, 2 not. -/

namespace Sys2Proof.Machine

/-! ### A core and its registers (R163) -/

def State.rcore (s : State) (h c : Nat) : RCore := s.cores.get {} (4 * h + c)
def State.setCore (s : State) (h c : Nat) (m : RCore) : State := { s with cores := s.cores.put (4 * h + c) m }

/-- Read a register: w0 reads 0. -/
def RCore.r (m : RCore) (i : Nat) : Word := if i % 32 = 0 then 0#32 else m.w.get 0#32 (i % 32)
/-- Write a register: a write of w0 is discarded. -/
def RCore.set (m : RCore) (i : Nat) (v : Word) : RCore := if i % 32 = 0 then m else { m with w := m.w.put (i % 32) v }

/-- IMM sign-extended and zero-extended (R165). -/
def sext (imm : Nat) : Word := (BitVec.ofNat 16 imm).signExtend 32
def zext (imm : Nat) : Word := BitVec.ofNat 32 (imm % 65536)
def boolW (b : Bool) : Word := if b then 1#32 else 0#32

/-- s() and s64() of R166. -/
def clamp (lo hi x : Int) : Int := if x < lo then lo else if hi < x then hi else x
def sat32 (x : Int) : Word := BitVec.ofInt 32 (clamp (-2 ^ 31) (2 ^ 31 - 1) x)
def sat64 (x : Int) : Int := clamp (-2 ^ 63) (2 ^ 63 - 1) x

/-! ### Instruction words (R165, R166) -/

/-- The words of formats R, I, B, L, T and E. -/
def fmtR (op fn rd ra rb : Nat) : Nat := op * 2 ^ 26 + rd % 32 * 2 ^ 21 + ra % 32 * 2 ^ 16 + rb % 32 * 2 ^ 11 + fn % 2 ^ 11
def fmtI (op rd ra imm : Nat) : Nat := op * 2 ^ 26 + rd % 32 * 2 ^ 21 + ra % 32 * 2 ^ 16 + imm % 2 ^ 16
def fmtB (op ra rb off : Nat) : Nat := fmtI op ra rb off
def fmtL (op count body : Nat) : Nat := op * 2 ^ 26 + count % 2 ^ 14 * 2 ^ 12 + body % 2 ^ 12
def fmtT (op rd land : Nat) : Nat := op * 2 ^ 26 + rd % 32 * 2 ^ 21 + land % 32
def fmtE (op ra rb act span base : Nat) : Nat := op * 2 ^ 26 + ra % 32 * 2 ^ 21 + rb % 32 * 2 ^ 16 + act % 8 * 2 ^ 13 + (span + 31) % 32 * 2 ^ 8 + base % 32 * 8

/-- The word at an index of the kernel that runs on a core (R165). -/
def State.codeWord (s : State) (h c i : Nat) : Option Nat :=
  let l := s.fld Fld.TSQ_STATE_LOGICAL h
  match Plan.kernel s.pln.active l (s.fld Fld.RFX_CORE_KERNEL h c) with
  | some (_, off, len, _) => if 4 * i + 4 ≤ len then some (leAt (Plan.bodyOf s.pln.active 6 l) (off + 4 * i) 4) else none
  | none => none

/-- The kernel on a core is executing. -/
def State.kernelRuns (s : State) (h c : Nat) : Bool := decide (h < 18) && decide (c < 4) && s.flag Fld.RFX_CORE_RUNNING h c

/-- A bit of a core in a field of RFX_STATUS, set or cleared. -/
def withBit (w c : Nat) (v : Bool) : Nat := putBits w c c (b2n v)

/-! ### Aborts and the end of a budget (R182 to R184) -/

/-- A kernel aborts at an instant: the commit buffer is discarded, and the abort is counted, recorded with the instruction that is executing and the
tread, and, once per core and flight, logged. -/
def State.kernelAbort (s : State) (h c reason at_ : Nat) : State :=
  let m := s.rcore h c
  let k := s.fld Fld.RFX_CORE_KERNEL h c
  let i := s.fld Fld.RFX_CORE_INDEX h c
  let t := m.tread + (at_ - m.start) / treadTicks
  let s := ((s.setFld Fld.RFX_CORE_RUNNING 0 h c).setFld Fld.RFX_CORE_OUTCOME 2 h c).setFld Fld.RFX_CORE_REASON reason h c
  let s := (s.bump Fld.RFX_CNT_ABORT_COUNT h c).setFld Fld.RFX_STATUS_ABORTED (withBit (s.fld Fld.RFX_STATUS_ABORTED h) c true) h
  let s := ((s.setFld Fld.RFX_ABORT_INFO_REASON reason h).setFld Fld.RFX_ABORT_INFO_CORE c h).setFld Fld.RFX_ABORT_INFO_KERNEL k h
  let s := (s.setFld Fld.RFX_ABORT_INFO_INDEX i h).setFld Fld.RFX_ABORT_TREAD_TREAD t h
  let s := s.setCore h c { m with commit := [], logged := some s.flightNow }
  if m.logged = some s.flightNow then s
  else s.alm 0x0401 3 h 3 (4 * h + c) (leBytes 1 k ++ leBytes 1 c ++ leBytes 1 reason ++ leBytes 1 0 ++ leBytes 2 i ++ leBytes 2 0 ++ leBytes 4 t)

/-- A core is within a kernel's budget. -/
def State.coreBusy (s : State) (h c : Nat) : Bool := bitOf (s.fld Fld.RFX_STATUS_BUSY h) c

/-- When a core's budget elapses. -/
def RCore.budgetEnd (m : RCore) : Nat := clockAt m.start (m.issue + m.budget) m.rate

/-- The budget of a core has elapsed by an instant: a kernel that has not committed is aborted in the last clock of its budget,
and the core is free. -/
def State.endBudget (s : State) (h c t : Nat) : State :=
  if s.coreBusy h c ∧ (s.rcore h c).budgetEnd ≤ t then
    let s := if s.kernelRuns h c then s.kernelAbort h c 1 ((s.rcore h c).budgetEnd - 1) else s
    s.setFld Fld.RFX_STATUS_BUSY (withBit (s.fld Fld.RFX_STATUS_BUSY h) c false) h
  else s

/-- KERNEL_BUDGET_END (R182, R183). -/
def execKernelBudgetEnd (h c at_ : Nat) (s : State) : Answer :=
  let s := s.atTime at_
  .next (if h < 18 ∧ c < 4 then s.endBudget h c s.now else s)

/-! ### Dispatch (R121, R163, R182) -/

/-- RFX: the kernel of the op starts on its core in the issue clock. -/
def execRfx (h : Nat) (s : State) : Answer :=
  match s.takeOp h 3 0x50 with
  | none => .next s
  | some (o, s) =>
    let c := bitsOf o 48 47
    let k := bitsOf o 46 39
    let l := s.fld Fld.TSQ_STATE_LOGICAL h
    match Plan.kernel s.pln.active l k with
    | none => .next s
    | some (_, _, _, budget) =>
      let q := s.seq h
      let s := s.endBudget h c s.now
      let w : Tbl Word := [(1, BitVec.ofNat 32 s.flightNow), (2, BitVec.ofNat 32 q.tread), (3, BitVec.ofNat 32 (k * 65536 + l * 256 + c))]
      let m : RCore := { w := w, start := q.start, issue := Plan.offset o, tread := q.tread, budget := budget, rate := s.clocks h, logged := (s.rcore h c).logged }
      let s := ((s.setCore h c m).occupy h o budget).bump Fld.RFX_CNT_DISPATCH_COUNT h c
      let s := s.setFld Fld.RFX_STATUS_BUSY (withBit (s.fld Fld.RFX_STATUS_BUSY h) c true) h
      .next (((s.setFld Fld.RFX_CORE_KERNEL k h c).setFld Fld.RFX_CORE_RUNNING 1 h c).setFld Fld.RFX_CORE_INDEX 0 h c)

/-! ### One instruction (R162, R170, R183) -/

/-- Where control goes after an instruction whose successor is given: at the continuation of the innermost loop the next
iteration starts, or the loop ends (R170). -/
def wrapLoops : List RLoop → Nat → List RLoop × Nat
  | [], n => ([], n)
  | l :: t, n => if n = l.stop then (if 1 < l.left then ({ l with left := l.left - 1 } :: t, l.first) else wrapLoops t n) else (l :: t, n)

/-- When a core's next instruction starts. -/
def RCore.next (m : RCore) : Nat := clockAt m.start (m.issue + m.clock) m.rate

/-- An instruction of a running core, by its word: one whose budget has elapsed starts no more, one whose word cannot be read aborts the kernel; the word
that comes next does what the operand says, from the core as it stands. -/
def State.rfx (s : State) (h c w ecc : Nat) (k : State → RCore → State) : State :=
  if !s.kernelRuns h c then s
  else
    let m := s.rcore h c
    if m.budget ≤ m.clock then (s.atTime m.budgetEnd).endBudget h c (max s.now m.budgetEnd)
    else if ecc < 2 ∧ s.codeWord h c m.pc ≠ some w then s
    else
      let s := (s.atTime m.next).setFld Fld.RFX_CORE_INDEX m.pc h c
      if 2 ≤ ecc then s.kernelAbort h c 4 m.next
      else k (if ecc = 1 then s.bump Fld.TSQ_CNT_ECC_COUNT h else s) m

/-- An instruction ends: its clocks have passed, and the next one is at an index, as the loops have it. -/
def State.rfxTo (s : State) (h c : Nat) (m : RCore) (clocks next : Nat) : State :=
  let (ls, n) := wrapLoops m.loops next
  s.setCore h c { m with clock := m.clock + clocks, loops := ls, pc := n }

/-- An instruction that changes the core only. -/
def State.rfxCore (s : State) (h c w ecc clocks : Nat) (f : RCore → RCore) : State :=
  s.rfx h c w ecc (fun s m => s.rfxTo h c (f m) clocks (m.pc + 1))

/-- Format R of OP 0: RD from RA and RB. -/
def State.rfxR (s : State) (h c ecc fn clocks rd ra rb : Nat) (f : Word → Word → Word) : State :=
  s.rfxCore h c (fmtR 0 fn rd ra rb) ecc clocks (fun m => m.set rd (f (m.r ra) (m.r rb)))

/-- Format I: RD from RA and IMM. -/
def State.rfxI (s : State) (h c ecc op rd ra imm : Nat) (f : Word → Word) : State :=
  s.rfxCore h c (fmtI op rd ra imm) ecc 1 (fun m => m.set rd (f (m.r ra)))

/-- A division: a divisor of 0 is counted (R168). -/
def State.rfxDiv (s : State) (h c ecc fn clocks rd ra rb : Nat) (f : Word → Word → Word) : State :=
  s.rfx h c (fmtR 0 fn rd ra rb) ecc (fun s m =>
    let s := if m.r rb = 0#32 then s.bump Fld.RFX_CNT_DIVZ_COUNT h else s
    s.rfxTo h c (m.set rd (f (m.r ra) (m.r rb))) clocks (m.pc + 1))

/-! ### Arithmetic and logic (R166 to R168) -/

/-- ADD: RA + RB, wraps. -/
def execAddOp (h c ecc rd ra rb : Nat) (s : State) : Answer := .next (s.rfxR h c ecc 0x00 1 rd ra rb (fun a b => a + b))
/-- SUB: RA - RB, wraps. -/
def execSubOp (h c ecc rd ra rb : Nat) (s : State) : Answer := .next (s.rfxR h c ecc 0x01 1 rd ra rb (fun a b => a - b))
/-- AND: RA & RB. -/
def execAndOp (h c ecc rd ra rb : Nat) (s : State) : Answer := .next (s.rfxR h c ecc 0x02 1 rd ra rb (fun a b => a &&& b))
/-- OR: RA | RB. -/
def execOrOp (h c ecc rd ra rb : Nat) (s : State) : Answer := .next (s.rfxR h c ecc 0x03 1 rd ra rb (fun a b => a ||| b))
/-- XOR: RA ^ RB. -/
def execXorOp (h c ecc rd ra rb : Nat) (s : State) : Answer := .next (s.rfxR h c ecc 0x04 1 rd ra rb (fun a b => a ^^^ b))
/-- SHL: RA << RB[4:0]. -/
def execShl (h c ecc rd ra rb : Nat) (s : State) : Answer := .next (s.rfxR h c ecc 0x05 1 rd ra rb (fun a b => a <<< (b.toNat % 32)))
/-- SHR: RA >> RB[4:0], logical. -/
def execShr (h c ecc rd ra rb : Nat) (s : State) : Answer := .next (s.rfxR h c ecc 0x06 1 rd ra rb (fun a b => a >>> (b.toNat % 32)))
/-- SAR: RA >> RB[4:0], arithmetic. -/
def execSar (h c ecc rd ra rb : Nat) (s : State) : Answer := .next (s.rfxR h c ecc 0x07 1 rd ra rb (fun a b => a.sshiftRight (b.toNat % 32)))
/-- SLT: 1 if RA < RB signed. -/
def execSlt (h c ecc rd ra rb : Nat) (s : State) : Answer := .next (s.rfxR h c ecc 0x08 1 rd ra rb (fun a b => boolW (decide (a.toInt < b.toInt))))
/-- SLTU: 1 if RA < RB unsigned. -/
def execSltu (h c ecc rd ra rb : Nat) (s : State) : Answer := .next (s.rfxR h c ecc 0x09 1 rd ra rb (fun a b => boolW (decide (a.toNat < b.toNat))))
/-- MIN: signed minimum. -/
def execMinOp (h c ecc rd ra rb : Nat) (s : State) : Answer := .next (s.rfxR h c ecc 0x0A 1 rd ra rb (fun a b => if a.toInt ≤ b.toInt then a else b))
/-- MAX: signed maximum. -/
def execMaxOp (h c ecc rd ra rb : Nat) (s : State) : Answer := .next (s.rfxR h c ecc 0x0B 1 rd ra rb (fun a b => if a.toInt ≤ b.toInt then b else a))
/-- MINU: unsigned minimum. -/
def execMinu (h c ecc rd ra rb : Nat) (s : State) : Answer := .next (s.rfxR h c ecc 0x0C 1 rd ra rb (fun a b => if a.toNat ≤ b.toNat then a else b))
/-- MAXU: unsigned maximum. -/
def execMaxu (h c ecc rd ra rb : Nat) (s : State) : Answer := .next (s.rfxR h c ecc 0x0D 1 rd ra rb (fun a b => if a.toNat ≤ b.toNat then b else a))
/-- MUL: (RA × RB)[31:0]. -/
def execMulOp (h c ecc rd ra rb : Nat) (s : State) : Answer := .next (s.rfxR h c ecc 0x10 2 rd ra rb (fun a b => a * b))
/-- MULH: (RA × RB)[63:32], signed. -/
def execMulh (h c ecc rd ra rb : Nat) (s : State) : Answer := .next (s.rfxR h c ecc 0x11 2 rd ra rb (fun a b => BitVec.ofInt 32 (a.toInt * b.toInt / 2 ^ 32)))
/-- MULHU: (RA × RB)[63:32], unsigned. -/
def execMulhu (h c ecc rd ra rb : Nat) (s : State) : Answer := .next (s.rfxR h c ecc 0x12 2 rd ra rb (fun a b => BitVec.ofNat 32 (a.toNat * b.toNat / 2 ^ 32)))
/-- QADD: s(RA + RB). -/
def execQadd (h c ecc rd ra rb : Nat) (s : State) : Answer := .next (s.rfxR h c ecc 0x20 1 rd ra rb (fun a b => sat32 (a.toInt + b.toInt)))
/-- QSUB: s(RA - RB). -/
def execQsub (h c ecc rd ra rb : Nat) (s : State) : Answer := .next (s.rfxR h c ecc 0x21 1 rd ra rb (fun a b => sat32 (a.toInt - b.toInt)))
/-- QMUL: the rounded Q16.16 product. -/
def execQmul (h c ecc rd ra rb : Nat) (s : State) : Answer := .next (s.rfxR h c ecc 0x22 2 rd ra rb (fun a b => sat32 ((a.toInt * b.toInt + 0x8000) / 65536)))
/-- DIVU: RA / RB, all ones by 0. -/
def execDivu (h c ecc rd ra rb : Nat) (s : State) : Answer := .next (s.rfxDiv h c ecc 0x14 34 rd ra rb (fun a b => if b = 0#32 then 0xFFFFFFFF#32 else a / b))
/-- REMU: RA mod RB, RA by 0. -/
def execRemu (h c ecc rd ra rb : Nat) (s : State) : Answer := .next (s.rfxDiv h c ecc 0x15 34 rd ra rb (fun a b => if b = 0#32 then a else a % b))
/-- QDIV: the truncated Q16.16 quotient. -/
def execQdiv (h c ecc rd ra rb : Nat) (s : State) : Answer := .next (s.rfxDiv h c ecc 0x23 36 rd ra rb (fun a b => if b = 0#32 then (if 0 ≤ a.toInt then 0x7FFFFFFF#32 else 0x80000000#32) else sat32 (Int.tdiv (a.toInt * 65536) b.toInt)))
/-- QABS: s(|RA|). -/
def execQabs (h c ecc rd ra : Nat) (s : State) : Answer := .next (s.rfxR h c ecc 0x24 1 rd ra 0 (fun a _ => sat32 (Int.ofNat a.toInt.natAbs)))
/-- QNEG: s(-RA). -/
def execQneg (h c ecc rd ra : Nat) (s : State) : Answer := .next (s.rfxR h c ecc 0x25 1 rd ra 0 (fun a _ => sat32 (-a.toInt)))
/-- ADDI: RA + IMM, wraps. -/
def execAddi (h c ecc rd ra imm : Nat) (s : State) : Answer := .next (s.rfxI h c ecc 0x01 rd ra imm (fun a => a + sext imm))
/-- ANDI: RA & IMM. -/
def execAndi (h c ecc rd ra imm : Nat) (s : State) : Answer := .next (s.rfxI h c ecc 0x02 rd ra imm (fun a => a &&& zext imm))
/-- ORI: RA | IMM. -/
def execOri (h c ecc rd ra imm : Nat) (s : State) : Answer := .next (s.rfxI h c ecc 0x03 rd ra imm (fun a => a ||| zext imm))
/-- XORI: RA ^ IMM. -/
def execXori (h c ecc rd ra imm : Nat) (s : State) : Answer := .next (s.rfxI h c ecc 0x04 rd ra imm (fun a => a ^^^ zext imm))
/-- SLTI: 1 if RA < IMM signed. -/
def execSlti (h c ecc rd ra imm : Nat) (s : State) : Answer := .next (s.rfxI h c ecc 0x05 rd ra imm (fun a => boolW (decide (a.toInt < (sext imm).toInt))))
/-- SLTIU: 1 if RA < IMM unsigned. -/
def execSltiu (h c ecc rd ra imm : Nat) (s : State) : Answer := .next (s.rfxI h c ecc 0x06 rd ra imm (fun a => boolW (decide (a.toNat < (sext imm).toNat))))
/-- SHLI: RA << IMM[4:0]. -/
def execShli (h c ecc rd ra imm : Nat) (s : State) : Answer := .next (s.rfxI h c ecc 0x08 rd ra imm (fun a => a <<< (imm % 32)))
/-- SHRI: RA >> IMM[4:0], logical. -/
def execShri (h c ecc rd ra imm : Nat) (s : State) : Answer := .next (s.rfxI h c ecc 0x09 rd ra imm (fun a => a >>> (imm % 32)))
/-- SARI: RA >> IMM[4:0], arithmetic. -/
def execSari (h c ecc rd ra imm : Nat) (s : State) : Answer := .next (s.rfxI h c ecc 0x0A rd ra imm (fun a => a.sshiftRight (imm % 32)))
/-- LUI: IMM << 16. -/
def execLui (h c ecc rd imm : Nat) (s : State) : Answer := .next (s.rfxCore h c (fmtI 0x07 rd 0 imm) ecc 1 (fun m => m.set rd (zext imm <<< 16)))

/-! ### The accumulator (R166, R167) -/

/-- MAC: ACC = s64(ACC + RA × RB). -/
def execMac (h c ecc ra rb : Nat) (s : State) : Answer := .next (s.rfxCore h c (fmtR 0x10 0 0 ra rb) ecc 2 (fun m => { m with acc := sat64 (m.acc + (m.r ra).toInt * (m.r rb).toInt) }))
/-- MSU: ACC = s64(ACC - RA × RB). -/
def execMsu (h c ecc ra rb : Nat) (s : State) : Answer := .next (s.rfxCore h c (fmtR 0x11 0 0 ra rb) ecc 2 (fun m => { m with acc := sat64 (m.acc - (m.r ra).toInt * (m.r rb).toInt) }))
/-- ACCLR: ACC = 0. -/
def execAcclr (h c ecc : Nat) (s : State) : Answer := .next (s.rfxCore h c (fmtR 0x12 0 0 0 0) ecc 1 (fun m => { m with acc := 0 }))

/-- The rounded, shifted accumulator (R167). -/
def accRound (acc : Int) (n : Nat) : Word := if n = 0 then sat32 acc else sat32 (sat64 (acc + 2 ^ (n - 1)) / 2 ^ n)

/-- ACRD: RD from ACC, shifted by IMM[5:0]. -/
def execAcrd (h c ecc rd imm : Nat) (s : State) : Answer := .next (s.rfxCore h c (fmtI 0x13 rd 0 imm) ecc 1 (fun m => m.set rd (accRound m.acc (imm % 64))))
/-- ACSET: ACC = RB:RA. -/
def execAcset (h c ecc ra rb : Nat) (s : State) : Answer := .next (s.rfxCore h c (fmtR 0x14 0 0 ra rb) ecc 1 (fun m => { m with acc := toSigned 64 ((m.r ra).toNat + 2 ^ 32 * (m.r rb).toNat) }))
/-- ACGET: RD and RD + 1 from ACC. -/
def execAcget (h c ecc rd : Nat) (s : State) : Answer := .next (s.rfxCore h c (fmtR 0x15 0 rd 0 0) ecc 1 (fun m => (m.set rd (BitVec.ofInt 32 m.acc)).set (rd + 1) (BitVec.ofInt 32 (m.acc / 2 ^ 32))))

/-! ### Memory (R169, R171) -/

/-- The address of an access. -/
def RCore.addr (m : RCore) (ra imm : Nat) : Nat := (m.r ra + sext imm).toNat

/-- The abort reason of an access of n octets below a limit; none when it may go on. -/
def accessFault (a n limit : Nat) : Option Nat := if limit < a + n then some 2 else if a % n ≠ 0 then some 3 else none

/-- An access: it aborts as its instruction starts, or goes on. -/
def State.rfxMem (s : State) (h c ecc op rd ra imm n limit : Nat) (k : State → RCore → Nat → State) : State :=
  s.rfx h c (fmtI op rd ra imm) ecc (fun s m => match accessFault (m.addr ra imm) n limit with | some r => s.kernelAbort h c r m.next | none => k s m (m.addr ra imm))

/-- The octet of an address after the stores of the commit buffer, in program order. -/
def overlay (es : List CommitEntry) (a : Nat) (b : Byte) : Byte :=
  es.foldl (fun b e => match e with | .store x v => if x ≤ a ∧ a < x + v.length then v.getD (a - x) 0 else b | _ => b) b

/-- What an alcove load reads: the alcove under the kernel's own stores. -/
def State.kernelRead (s : State) (h : Nat) (m : RCore) (a n : Nat) : Bytes :=
  (List.range n).map (fun i => overlay m.commit (a + i) (Memory.read s.alcove (h * 2 ^ 25 + a + i)))

/-- A load of n octets from the alcove. -/
def State.rfxLoad (s : State) (h c ecc op rd ra imm n : Nat) : State :=
  s.rfxMem h c ecc op rd ra imm n alcoveTop (fun s m a =>
    (s.poisonUse (s.alcoveBad h a n)).rfxTo h c (m.set rd (BitVec.ofNat 32 (leNat (s.kernelRead h m a n)))) 4 (m.pc + 1))

/-- A store of n octets into the commit buffer. -/
def State.rfxStore (s : State) (h c ecc op rs ra imm n : Nat) : State :=
  s.rfxMem h c ecc op rs ra imm n alcoveTop (fun s m a =>
    s.rfxTo h c { m with commit := m.commit ++ [.store a (leBytes n (m.r rs).toNat)] } 1 (m.pc + 1))

/-- LDW. -/
def execLdw (h c ecc rd ra imm : Nat) (s : State) : Answer := .next (s.rfxLoad h c ecc 0x18 rd ra imm 4)
/-- LDHU. -/
def execLdhu (h c ecc rd ra imm : Nat) (s : State) : Answer := .next (s.rfxLoad h c ecc 0x19 rd ra imm 2)
/-- STW. -/
def execStw (h c ecc rs ra imm : Nat) (s : State) : Answer := .next (s.rfxStore h c ecc 0x1A rs ra imm 4)
/-- STH. -/
def execSth (h c ecc rs ra imm : Nat) (s : State) : Answer := .next (s.rfxStore h c ecc 0x1B rs ra imm 2)
/-- LDS: a word of scratch. -/
def execLds (h c ecc rd ra imm : Nat) (s : State) : Answer :=
  .next (s.rfxMem h c ecc 0x1C rd ra imm 4 1024 (fun s m a => s.rfxTo h c (m.set rd (BitVec.ofNat 32 (leNat (Memory.readN m.scratch a 4)))) 1 (m.pc + 1)))
/-- STS: a word to scratch. -/
def execSts (h c ecc rs ra imm : Nat) (s : State) : Answer :=
  .next (s.rfxMem h c ecc 0x1D rs ra imm 4 1024 (fun s m a => s.rfxTo h c { m with scratch := Memory.writeN m.scratch a (leBytes 4 (m.r rs).toNat) } 1 (m.pc + 1)))

/-! ### Control (R166, R170) -/

/-- A branch to i + OFF, or on. -/
def State.rfxBranch (s : State) (h c ecc op ra rb off : Nat) (taken : RCore → Bool) : State :=
  s.rfx h c (fmtB op ra rb off) ecc (fun s m => s.rfxTo h c m 2 (if taken m then m.pc + off else m.pc + 1))

/-- BEQ: to the target if RA = RB. -/
def execBeq (h c ecc ra rb off : Nat) (s : State) : Answer := .next (s.rfxBranch h c ecc 0x20 ra rb off (fun m => m.r ra == m.r rb))
/-- BNE: to the target if RA ≠ RB. -/
def execBne (h c ecc ra rb off : Nat) (s : State) : Answer := .next (s.rfxBranch h c ecc 0x21 ra rb off (fun m => m.r ra != m.r rb))
/-- BLT: to the target if RA < RB, signed. -/
def execBlt (h c ecc ra rb off : Nat) (s : State) : Answer := .next (s.rfxBranch h c ecc 0x22 ra rb off (fun m => decide ((m.r ra).toInt < (m.r rb).toInt)))
/-- BGE: to the target if RA ≥ RB, signed. -/
def execBge (h c ecc ra rb off : Nat) (s : State) : Answer := .next (s.rfxBranch h c ecc 0x23 ra rb off (fun m => decide ((m.r rb).toInt ≤ (m.r ra).toInt)))
/-- BLTU: to the target if RA < RB, unsigned. -/
def execBltu (h c ecc ra rb off : Nat) (s : State) : Answer := .next (s.rfxBranch h c ecc 0x24 ra rb off (fun m => decide ((m.r ra).toNat < (m.r rb).toNat)))
/-- BGEU: to the target if RA ≥ RB, unsigned. -/
def execBgeu (h c ecc ra rb off : Nat) (s : State) : Answer := .next (s.rfxBranch h c ecc 0x25 ra rb off (fun m => decide ((m.r rb).toNat ≤ (m.r ra).toNat)))
/-- JMP: to the target. -/
def execJmp (h c ecc off : Nat) (s : State) : Answer := .next (s.rfxBranch h c ecc 0x26 0 0 off (fun _ => true))

/-- LOOP: the next BODY instructions run COUNT times. -/
def execLoopOp (h c ecc count body : Nat) (s : State) : Answer :=
  .next (s.rfx h c (fmtL 0x27 count body) ecc (fun s m =>
    s.setCore h c { m with clock := m.clock + 1, pc := m.pc + 1, loops := { left := count, first := m.pc + 1, stop := m.pc + 1 + body } :: m.loops }))

/-- NOP: no effect. -/
def execRfxNop (h c ecc : Nat) (s : State) : Answer := .next (s.rfxCore h c (fmtR 0x29 0 0 0 0) ecc 1 id)

/-! ### Time and the event lands (R174 to R178) -/

/-- Nanoseconds from the flight origin to a hall clock counted from a dispatch tread's start (R174). -/
def State.nsAt (s : State) (m : RCore) (clock : Nat) : Nat := (m.start - s.origin) / nsTicks + (m.issue + clock) * 100 / m.rate

/-- TIME: RD and RD + 1 take the sample. -/
def execTimeOp (h c ecc rd : Nat) (s : State) : Answer :=
  .next (s.rfx h c (fmtT 0x30 rd 0) ecc (fun s m =>
    let t := s.nsAt m m.clock
    s.rfxTo h c ((m.set rd (BitVec.ofNat 32 t)).set (rd + 1) (BitVec.ofNat 32 (t / 2 ^ 32))) 2 (m.pc + 1)))

/-- ECAP: the snapshot's latest capture of a land. -/
def execEcap (h c ecc rd land : Nat) (s : State) : Answer :=
  .next (s.rfx h c (fmtT 0x31 rd land) ecc (fun s m =>
    let (t, i) := match (s.land land).snap with
      | (_, some e, n) => (s.nsSince e.time, b2n e.rising * 65536 + n % 65536)
      | (_, none, _) => (0, 0)
    s.rfxTo h c (((m.set rd (BitVec.ofNat 32 t)).set (rd + 1) (BitVec.ofNat 32 (t / 2 ^ 32))).set (rd + 2) (BitVec.ofNat 32 i)) 4 (m.pc + 1)))

/-- ELVL: the snapshot's level of a land. -/
def execElvl (h c ecc rd land : Nat) (s : State) : Answer :=
  .next (s.rfx h c (fmtT 0x32 rd land) ecc (fun s m => s.rfxTo h c (m.set rd (boolW (s.land land).snap.1)) 1 (m.pc + 1)))

/-- ESCH: an entry that schedules an action, its operands read now. -/
def execEsch (h c ecc ra rb act span base : Nat) (s : State) : Answer :=
  .next (s.rfxCore h c (fmtE 0x33 ra rb act span base) ecc 1 (fun m =>
    { m with commit := m.commit ++ [.sched (m.r rb).toNat span base act ((m.r ra).toNat + 2 ^ 32 * (m.r (ra + 1)).toNat) (m.r (ra + 2)).toNat] }))

/-- ECAN: an entry that cancels. -/
def execEcan (h c ecc rb span base : Nat) (s : State) : Answer :=
  .next (s.rfxCore h c (fmtE 0x34 0 rb 0 span base) ecc 1 (fun m => { m with commit := m.commit ++ [.cancel (m.r rb).toNat span base] }))

/-! ### The commit (R172, R176, R178) -/

/-- So many ns after the end of the commit clock, in ns since O times the clocks per tread. -/
def State.afterCommit (s : State) (m : RCore) (ns : Nat) : Nat := ((m.start - s.origin) / nsTicks + ns) * m.rate + (m.issue + m.clock + 4) * 100

/-- An instant in ns since O gives the lead of 200 ns after the commit clock (R176). -/
def State.leadOk (s : State) (m : RCore) (t : Nat) : Bool := decide (s.afterCommit m 200 ≤ t * m.rate)

/-- The kernel actions of a land that are pending; a pulse under way is not one. -/
def LandSt.kernelActs (l : LandSt) : List LandAct := l.acts.filter (fun a => a.kernel && a.act != 8)

/-- Apply one entry of the commit buffer. -/
def State.applyEntry (s : State) (h : Nat) (m : RCore) : CommitEntry → State
  | .store a b => s.putAlcove h a b
  | .sched off span base act t width =>
    let k := base + off
    let at_ := s.origin + t * nsTicks
    let reject := s.bump Fld.RFX_CNT_EVT_REJECT_COUNT h
    if span ≤ off ∨ (act = 2 ∧ (width = 0 ∨ 65535 < width)) then reject
    else if !s.leadOk m t then s.bump Fld.RFX_CNT_EVT_LATE_COUNT h
    else if s.afterCommit m 1000000000 < t * m.rate then reject
    else if 16 ≤ (s.land k).kernelActs.length ∨ (s.land k).kernelActs.any (fun a => a.time == at_) then reject
    else s.setLand k { s.land k with acts := (s.land k).acts ++ [{ time := at_, act := act, width := if act = 2 then width else 0, kernel := true, hall := h }] }
  | .cancel off span base =>
    if span ≤ off then s.bump Fld.RFX_CNT_EVT_REJECT_COUNT h
    else
      let k := base + off
      s.setLand k { s.land k with acts := (s.land k).acts.filter (fun a => !(a.kernel && a.act != 8 && s.leadOk m ((a.time - s.origin) / nsTicks))) }

/-- END: the kernel commits in its fourth clock if that lies within the budget; else the budget elapses first (R183). -/
def execEndOp (h c ecc : Nat) (s : State) : Answer :=
  .next (s.rfx h c (fmtR 0x28 0 0 0 0) ecc (fun s m =>
    if m.budget < m.clock + 4 then s.setCore h c { m with clock := m.clock + 4 }
    else
      let s := s.atTime (clockAt m.start (m.issue + m.clock + 4) m.rate)
      let s := m.commit.foldl (fun s e => s.applyEntry h m e) s
      let s := (s.setCore h c { m with commit := [], clock := m.clock + 4 }).bump Fld.RFX_CNT_COMMIT_COUNT h
      let s := (s.setFld Fld.RFX_CORE_RUNNING 0 h c).setFld Fld.RFX_CORE_OUTCOME 1 h c
      let n := min (m.clock + 4) 0xFFFFFF
      if s.fld Fld.RFX_MAX_CLOCKS_CLOCKS h c < n then
        (s.setFld Fld.RFX_MAX_CLOCKS_CLOCKS n h c).setFld Fld.RFX_MAX_CLOCKS_KERNEL (s.fld Fld.RFX_CORE_KERNEL h c) h c
      else s))

end Sys2Proof.Machine
end

