-- ==== Sys2Proof/Machine/Keys.lean ====
section
/-! DEFINITION. The key store (R297 to R304, R308 to R310): key slots, key-encryption keys, nonce counters, replay state. -/

namespace Sys2Proof.Machine

/-! ### Key slots -/

def State.slot (s : State) (k : Nat) : KeySlot := s.keys.slots.get {} k

/-- The instant from which treads are counted (R25). -/
def State.treadBase (s : State) : Nat := if s.planActive then s.origin else s.originRegs

/-- The next tread boundary after an instant, and after Device Time (R25). -/
def State.boundaryAfter (s : State) (t : Nat) : Nat := s.treadBase + ((t - s.treadBase) / treadTicks + 1) * treadTicks
def State.nextTread (s : State) : Nat := s.boundaryAfter s.now

/-- Device Time goes on to a tread boundary, unless it stands at one. -/
def State.toBoundary (s : State) : State :=
  if s.treadBase ≤ s.now ∧ (s.now - s.treadBase) % treadTicks = 0 then s else s.atTime s.nextTread

/-- The state code of R303 at an instant, and now. -/
def State.slotStateAt (s : State) (k t : Nat) : Nat :=
  match (s.slot k).eraseAt with
  | some e => if e ≤ t then 4 else (s.slot k).state
  | none => (s.slot k).state
def State.slotState (s : State) (k : Nat) : Nat := s.slotStateAt k s.now

/-- Write a slot; the key store's registers are computed from the slots. -/
def State.setSlot (s : State) (k : Nat) (v : KeySlot) : State := { s with keys := { s.keys with slots := s.keys.slots.put k v } }

/-- Fields of the attribute block (R299). -/
def keyType (a : Bytes) : Nat := leAt a 0 1
def keyFlag (a : Bytes) (i : Nat) : Bool := bitOf (leAt a 1 1) i
def keySoft (a : Bytes) : Nat := leAt a 0x10 8
def keyEgress (a : Bytes) : Nat := leAt a 0x20 4
def keyWindow (a : Bytes) : Nat := leAt a 0x24 4

/-- The length of the key and of the salt of a type (R298); none for a reserved one. -/
def keySizes : Nat → Option (Nat × Nat)
  | 1 => some (16, 4) | 2 => some (32, 4) | 3 => some (32, 0) | 4 => some (64, 0) | 5 => some (16, 0) | 6 => some (32, 0)
  | 7 => some (16, 12) | 8 => some (32, 12) | 9 => some (16, 4) | 10 => some (32, 4) | 11 => some (16, 0) | 12 => some (32, 0)
  | _ => none

/-- The wrapped length of a type: the material padded to 8, plus 8. -/
def wrappedLen (ty : Nat) : Nat :=
  match keySizes ty with
  | some (k, s) => (k + s + 7) / 8 * 8 + 8
  | none => 0

def isMacsec (ty : Nat) : Bool := decide (5 ≤ ty) && decide (ty ≤ 8)
def isEsp (ty : Nat) : Bool := decide (9 ≤ ty) && decide (ty ≤ 10)
def isCyclic (ty : Nat) : Bool := decide (11 ≤ ty) && decide (ty ≤ 12)
def isXpn (ty : Nat) : Bool := decide (7 ≤ ty) && decide (ty ≤ 8)

/-- The slot is a receive slot. -/
def keyRx (a : Bytes) : Bool := (isMacsec (keyType a) || isEsp (keyType a)) && keyFlag a 0

/-- Reserved fields of the attribute block, and fields that its type does not use, are 0; the values of those it uses are in
range (R299, R308, R310). -/
def keyAttrOk (a : Bytes) : Bool :=
  let ty := keyType a
  let mt := isMacsec ty && !keyFlag a 0
  let et := isEsp ty && !keyFlag a 0
  let rx := keyRx a
  let counts := ty == 1 || ty == 2 || isMacsec ty || isEsp ty
  let e := keyEgress a
  (keySizes ty).isSome && decide (leAt a 1 1 < 32) && (isMacsec ty || isEsp ty || leAt a 1 1 == 0) &&
  (isEsp ty || !keyFlag a 1) && (mt || !(keyFlag a 2 || keyFlag a 3 || keyFlag a 4)) && decide (leAt a 2 1 < 16) &&
  decide (leAt a 3 1 < 4) && (mt || leAt a 3 1 == 0) && (isXpn ty || isEsp ty || leAt a 4 4 == 0) &&
  (counts || leAt a 8 8 == 0) && (!(mt || et) || leAt a 8 8 != 0) &&
  (((ty == 1 || ty == 2 || mt || et) || keySoft a == 0)) && (mt || leAt a 0x18 8 == 0) &&
  (if mt || et then (e / 2 ^ 28 == 1 && bitsOf e 25 8 == 0 && decide (bitsOf e 27 26 < 3)) || (e / 2 ^ 28 == 2 && bitsOf e 27 13 == 0) else e == 0) &&
  (rx || keyWindow a == 0) && (!isEsp ty || decide (keyWindow a ≤ 64)) && leAt a 0x28 8 == 0

/-- A function may act on a key slot (R304). -/
def State.keyRange (s : State) (f k : Nat) : Bool :=
  s.isOwner f || (decide (s.shareAt f 0x10 4 ≤ k) && decide (k < s.shareAt f 0x10 4 + s.shareAt f 0x14 4))

/-- The KEK of an index. -/
def State.kek (s : State) (i : Nat) : Option Bytes := if i = 0 then s.own.kek0 else look s.keys.keks i

/-- The lowest EMPTY slot in a function's range. -/
def State.emptySlot (s : State) (f : Nat) : Option Nat :=
  let (lo, n) := if s.isOwner f then (0, 65536) else (s.shareAt f 0x10 4, s.shareAt f 0x14 4)
  (List.range (s.keys.slots.length + 1)).foldl (fun (best : Option Nat) i =>
    let k := lo + i
    if best.isSome ∨ n ≤ i then best else if s.slotState k = 0 then some k else best) none

/-! ### Counters and replay (R308 to R310) -/

/-- Zeroize a slot: EMPTY, its generation advanced. -/
def State.zeroize (s : State) (k : Nat) : State := (s.setSlot k {}).nextGen 4 k

/-- The hard limit of a transmitting slot's counter. -/
def hardLimit (a : Bytes) : Nat :=
  let ty := keyType a
  if ty = 5 ∨ ty = 6 ∨ (isEsp ty ∧ !keyFlag a 1) then 2 ^ 32 - 1 else 2 ^ 64 - 1

/-- Assign a counter value to an operation that starts in a hall at an instant; none once the hard-limit value is assigned (R308, R309). The counter stays at its
limit: it never wraps. -/
def State.assignValue (s : State) (h k t : Nat) : State × Option Nat :=
  let v := s.slot k
  let c := v.counter
  if v.state = 3 ∨ v.exhaustAt.isSome then (s, none)
  else
    let soft := !v.softDone && keySoft v.attr != 0 && c == keySoft v.attr
    let last := decide (hardLimit v.attr ≤ c)
    let hd := s.handle 4 k
    let s := s.setSlot k { v with counter := if last then c else c + 1, softDone := v.softDone || soft, exhaustAt := if last then some (s.boundaryAfter t) else none, users := if v.users.contains h then v.users else v.users ++ [h] }
    let s := if soft then ((s.raise Fld.CPH_STATUS_SOFT_LIMIT h).event v.loader 0x03 (leBytes 4 hd)).almDev 0x0802 (leBytes 4 hd ++ leBytes 4 0 ++ leBytes 8 c) else s
    (s, some c)

/-- The replay check of a receive slot against what it holds, attributes, counter and numbers seen, and what they become: MACsec's NEXT and WINDOW, or
ESP's sliding window (R310). -/
def replayOk (attr : Bytes) (counter : Nat) (seen : List Nat) (n : Nat) : Option (Nat × List Nat) :=
  let w := keyWindow attr
  if isMacsec (keyType attr) then
    if counter ≤ n + w then some (max counter (n + 1), seen) else none
  else if w = 0 then some (max counter (n + 1), seen)
  else if n < leAt attr 8 8 then none
  else if counter ≤ n then some (n + 1, (n :: seen).filter (fun x => decide (n < x + w)))
  else if n + w < counter ∨ seen.contains n then none
  else some (counter, n :: seen)

end Sys2Proof.Machine
end

