-- ==== Sys2Proof/Machine/Cyclic.lean ====
section
/-! DEFINITION. Cyclic exchange (chapter 7): station directories, channels, the transmit and receive windows of a pool, frames
out and in, the deadline, notifications. Halls are physical; a hall that runs no logical hall carries no pool. -/

namespace Sys2Proof.Machine

/-! ### The table queue of a hall (R120, R258) -/

/-- The hall's program has a TABLE window that takes host writes. -/
def hasTableWindow (plan : Bytes) (l : Nat) : Bool :=
  (Plan.treadBundles (Plan.program plan l)).any (fun e => Plan.opcode (Plan.slot e.2 2) == 0x33 && decide (bitsOf (Plan.slot e.2 2) 48 47 < 2))

/-- The physical halls that HALL names: a used logical hall, or all of them for 0xFF where that is allowed (R388). -/
def State.namedHalls (s : State) (v : Nat) (all : Bool) : List Nat :=
  if v = 0xFF then (if all then (List.range 16).filterMap s.physOf else [])
  else match s.physOf v with
    | some h => [h]
    | none => []

/-- Put a table command into the queue of every named hall, or refuse it (R258, R289). ok: its own checks pass. -/
def State.tableSubmit (s : State) (d : AdminCmd) (buf : Bytes) (all ok : Bool) : State :=
  let v := d.p 0 % 256
  let hs := s.namedHalls v all
  if hs.any (fun h => match s.logicalOf h with | some l => !hasTableWindow s.pln.active l | none => true) then s.adminFail d St.unsupported
  else if hs = [] ∨ !ok then s.adminFail d St.badDescriptor
  else hs.foldl (fun (s : State) h => { s with tblq := s.tblq.put h (s.tblq.get [] h ++ [{ cmd := d, buf := buf, pos := 0, acc := [] }]) }) s

/-! ### The directory (R191) -/

def dirKey (h sid : Nat) : Nat := h * 65536 + sid
def State.station (s : State) (h sid : Nat) : Bytes := s.cyc.dirs.get (List.replicate 16 0) (dirKey h sid)

def stnMac (e : Bytes) : Bytes := sliceB e 0 6
def stnLane (e : Bytes) : Nat := leAt e 6 1
def stnValid (e : Bytes) : Bool := bitOf (leAt e 7 1) 0
def stnPinned (e : Bytes) : Bool := bitOf (leAt e 7 1) 1
def stnTagged (e : Bytes) : Bool := bitOf (leAt e 7 1) 2
def stnTci (e : Bytes) : Nat := leAt e 8 2

/-- An entry as the device writes it. -/
def stnEntry (mac : Bytes) (lane flags tci last : Nat) : Bytes :=
  sliceB mac 0 6 ++ leBytes 1 lane ++ leBytes 1 flags ++ leBytes 2 tci ++ leBytes 2 0 ++ leBytes 4 last

/-- A preload or host entry is well formed: reserved bits 0, no VALID for SID 0 or 0xFFFF. -/
def stnOk (sid : Nat) (e : Bytes) : Bool :=
  decide (leAt e 7 1 < 8) && !bitOf (stnTci e) 12 && leAt e 10 2 == 0 && !(stnValid e && (sid == 0 || sid == 0xFFFF))

/-- Write an entry; CYC_DIR_VALID counts the VALID ones. -/
def State.setStation (s : State) (h sid : Nat) (e : Bytes) : State :=
  let was := stnValid (s.station h sid)
  let s := { s with cyc := { s.cyc with dirs := s.cyc.dirs.put (dirKey h sid) e } }
  let n := s.fld Fld.CYC_DIR_VALID_COUNT h
  if stnValid e ∧ !was then s.setFld Fld.CYC_DIR_VALID_COUNT (n + 1) h
  else if !stnValid e ∧ was then s.setFld Fld.CYC_DIR_VALID_COUNT (n - 1) h else s

/-! ### Channels (R196) -/

def State.chanOf (s : State) (sid : Nat) : Option (Nat × Chan) := s.cyc.chans.find? (fun e => e.2.sid == sid)
def State.setChan (s : State) (i : Nat) (c : Chan) : State := { s with cyc := { s.cyc with chans := s.cyc.chans.put i c } }
def chKey (h i : Nat) : Nat := h * 65536 + i
def State.chHall (s : State) (h i : Nat) : Option ChanHall := look s.cyc.halls (chKey h i)

/-- Write a channel's state in a hall. -/
def State.setChHall (s : State) (h i : Nat) (c : ChanHall) : State := { s with cyc := { s.cyc with halls := s.cyc.halls.put (chKey h i) c } }

/-- CYC_SLOTS_BOUND: the hall's slots from JOINING to LEFT. -/
def State.showBound (s : State) (h : Nat) : State :=
  s.setFld Fld.CYC_SLOTS_BOUND_COUNT (s.cyc.halls.filter (fun (e : Nat × ChanHall) => e.1 / 65536 == h && decide (2 ≤ e.2.state))).length h

/-- The pool record of a channel in the active plan. -/
def State.poolRec (s : State) (id : Nat) : Option Plan.Pool := Plan.poolOf s.pln.active id

/-- The physical halls that carry a pool: its own first, then its twin's. -/
def State.poolHalls (s : State) (p : Plan.Pool) : List Nat :=
  (s.physOf p.hall).toList ++ (match p.twin with | some t => (s.physOf t).toList | none => [])

/-- Segments of a slot's out and in data (R189). -/
def segs (n : Nat) : Nat := max 1 ((n + 1439) / 1440)
def segLen (n k : Nat) : Nat := if k + 1 < segs n then 1440 else n - 1440 * k

/-- Where a slot's in data and its status word stand. -/
def Plan.Pool.inArea (p : Plan.Pool) (i : Nat) : Nat := p.area i + p.out
def Plan.Pool.word (p : Plan.Pool) (i : Nat) : Nat := p.off + p.slots * p.stride + 8 * i

/-- The channel bound to a slot. -/
def State.slotChan (s : State) (pool slot : Nat) : Option (Nat × Chan) := s.cyc.chans.find? (fun e => e.2.pool == pool && e.2.slot == slot)

/-! ### Notifications (R195) -/

/-- STATUS of the last segment accepted from a station in a hall. -/
def State.stnOf (s : State) (h sid : Nat) : Nat :=
  match s.chanOf sid with
  | some (i, _) => (match s.chHall h i with | some x => x.stn | none => 0)
  | none => 0

/-- Send the owner a notification, or drop it beyond the hall's limit. -/
def State.notify (s : State) (h kind sid reason : Nat) (mac : Bytes) (lane tci : Nat) : State :=
  let n := s.cyc.sent.get 0 h
  if s.fld Fld.CYC_CFG_NOTIFY_LIMIT h ≤ n then
    let s := { s with cyc := { s.cyc with overflow := s.cyc.overflow.put h s.flightNow } }
    (s.bump Fld.CYC_CNT_NOTIFY_DROP_COUNT h).raise Fld.CYC_STATUS_NOTIFY_LOST h
  else
    let s := { s with cyc := { s.cyc with sent := s.cyc.sent.put h (n + 1) } }
    let hd := match s.chanOf sid with | some (i, _) => s.handle 3 i | none => 0
    s.eventOwner 0x01 (leBytes 1 kind ++ leBytes 1 h ++ leBytes 2 sid ++ leBytes 4 hd ++ leBytes 8 s.flightNow ++ sliceB mac 0 6 ++
      leBytes 1 lane ++ leBytes 1 reason ++ leBytes 2 tci ++ leBytes 2 (s.stnOf h sid)) (some h)

/-- A notification about a SID, with what its directory entry holds. -/
def State.notifySid (s : State) (h kind sid reason : Nat) : State :=
  let e := s.station h sid
  s.notify h kind sid reason (stnMac e) (stnLane e) (stnTci e)

/-- NOTIFY_OVERFLOW_SEND (R195): one in a later flight that has room. -/
def execNotifyOverflowSend (h : Nat) (s : State) : Answer :=
  match look s.cyc.overflow h with
  | some f =>
    if f < s.flightNow ∧ s.cyc.sent.get 0 h < s.fld Fld.CYC_CFG_NOTIFY_LIMIT h then
      .next ({ s with cyc := { s.cyc with overflow := s.cyc.overflow.del h } }.notify h 0x09 0 0 [] 0 0)
    else .next s
  | none => .next s

/-- A SID conflict: the owner hears of it at most once per SID and flight (R193, R525). -/
def State.sidConflict (s : State) (h sid : Nat) (mac : Bytes) (lane tci : Nat) : State :=
  if s.cyc.conflicts.contains sid then s
  else
    let s := { s with cyc := { s.cyc with conflicts := sid :: s.cyc.conflicts } }
    (s.notify h 0x03 sid 0 mac lane tci).almHall 0x0503 h (leBytes 2 sid ++ leBytes 1 lane ++ leBytes 1 0 ++ sliceB mac 0 6)

/-! ### Emission intervals (R124, R197) -/

/-- A CTX op of a logical hall's program: its tread, offset, FIRST, COUNT, PACE. -/
structure CtxOp where
  tread : Nat
  off : Nat
  first : Nat
  count : Nat
  pace : Nat
deriving DecidableEq, Repr

/-- FIRST, COUNT, PACE and POOL_ID of a CTX word. -/
def ctxCount (o : Nat) : Nat := if bitsOf o 16 9 = 0 then 256 else bitsOf o 16 9

/-- The CTX ops of a program that serve a pool. -/
def ctxOps (prog : List (List Nat)) (pool : Nat) : List CtxOp :=
  (Plan.treadBundles prog).filterMap (fun e =>
    let o := Plan.slot e.2 3
    if Plan.opcode o = 0x52 ∧ bitsOf o 48 33 = pool then some { tread := e.1, off := Plan.offset o, first := bitsOf o 32 17, count := ctxCount o, pace := bitsOf o 8 0 } else none)

/-- Where in the flight emission j of a CTX op falls, in ns times the clocks per tread. -/
def CtxOp.at_ (c : CtxOp) (rate j : Nat) : Nat := (c.tread * rate + c.off) * 100 + j * c.pace * 25 * rate

/-- The emission indices of a slot. -/
def CtxOp.emissions (c : CtxOp) (nseg slot : Nat) : List Nat := (List.range nseg).map (fun k => (slot - c.first) * nseg + k)

/-- The CTX op that covers a slot. -/
def ctxFor (prog : List (List Nat)) (pool slot : Nat) : Option CtxOp :=
  (ctxOps prog pool).find? (fun c => decide (c.first ≤ slot) && decide (slot < c.first + c.count))

/-- T_tx of a slot in a logical hall of a plan at so many clocks per tread: the send tread of its last emission (R77, R124). -/
def tTx (plan : Bytes) (l rate : Nat) (p : Plan.Pool) (slot : Nat) : Nat :=
  match ctxFor (Plan.program plan l) p.id slot with
  | some c => c.at_ rate ((slot - c.first) * p.segs + p.segs - 1) / (100 * rate)
  | none => 0

/-- Wire octets of a pool's largest out segment (R77). -/
def Plan.Pool.wOut (p : Plan.Pool) : Nat := max (min p.out 1440 + 66 + (if p.gmac then 16 else 0)) 84

/-- The emission intervals of a slot in a hall: start and length, in ns times clocks per tread times Mb/s. -/
def State.intervals (s : State) (h : Nat) (p : Plan.Pool) (slot : Nat) : List (Nat × Nat) :=
  match s.logicalOf h with
  | none => []
  | some l =>
    let r := s.clocks h
    let m := modeMbps p.mode
    match ctxFor (Plan.program s.pln.active l) p.id slot with
    | none => []
    | some c => (c.emissions p.segs slot).map (fun j => (c.at_ r j * m, 8000 * p.wOut * r))

/-- Two intervals of a circle meet. -/
def circleMeet (circle : Nat) (a b : Nat × Nat) : Bool :=
  decide ((b.1 + circle - a.1 % circle) % circle < a.2) || decide ((a.1 + circle - b.1 % circle) % circle < b.2)

/-- The port that carries a channel's slot in a hall. -/
def State.chanPort (s : State) (h i : Nat) : Option Nat :=
  match s.chHall h i with
  | some c => c.port
  | none => none

/-- An emission of a slot would meet one of another bound or pending slot on a port of a hall (R197). -/
def State.emissionConflict (s : State) (h port : Nat) (p : Plan.Pool) (slot : Nat) : Bool :=
  let circle := s.flightLen * 100 * s.clocks h * modeMbps p.mode
  let mine := s.intervals h p slot
  s.cyc.chans.any (fun e =>
    if e.2.pool = p.id ∧ e.2.slot = slot ∨ s.chanPort h e.1 ≠ some port then false
    else match s.poolRec e.2.pool with
      | none => false
      | some q => (s.intervals h q e.2.slot).any (fun b => mine.any (fun a => circleMeet circle a b)))

/-- The port of a SID's entry in a hall has the pool's mode. -/
def State.portFits (s : State) (h sid : Nat) (p : Plan.Pool) : Bool :=
  let l := stnLane (s.station h sid)
  s.portOfHall h l && s.laneMode l == p.mode

/-! ### CHANNEL commands (R196 to R200) -/

/-- The halls of a pool that hold a VALID entry for a SID. -/
def State.learnedIn (s : State) (p : Plan.Pool) (sid : Nat) : List Nat := (s.poolHalls p).filter (fun h => stnValid (s.station h sid))

/-- No emission conflict for a slot in any hall that has learned the SID. -/
def State.slotFits (s : State) (p : Plan.Pool) (sid slot : Nat) : Bool :=
  (s.learnedIn p sid).all (fun h => !s.emissionConflict h (stnLane (s.station h sid)) p slot)

/-- A key handle of a channel is 0 or a current key slot handle. -/
def State.keyHandleOk (s : State) (k : Nat) : Bool := k == 0 || (s.resolve 4 k).isSome

/-- The first failing check of R197 after NO_PLAN: its detail and status, or the slot. -/
def State.bindCheck (s : State) (d : AdminCmd) : (Nat × Nat) ⊕ Nat :=
  let sid := d.p 0 % 65536
  let slot := d.p 1 % 65536
  let ka := d.p 2
  let kb := d.p 3
  let tx := if bitOf (d.p 1) 17 then kb else ka
  if sid = 0 ∨ sid = 0xFFFF ∨ bitsOf (d.p 1) 31 24 = 0 then .inl (0x02, St.badDescriptor)
  else if (s.chanOf sid).isSome then .inl (0x03, St.accessDenied)
  else match s.poolRec (d.p 0 / 65536) with
    | none => .inl (0x04, St.badDescriptor)
    | some p =>
      if slot ≠ 0xFFFF ∧ p.slots ≤ slot then .inl (0x04, St.badDescriptor)
      else if s.learnedIn p sid = [] then .inl (0x05, St.badDescriptor)
      else if (s.learnedIn p sid).any (fun h => !s.portFits h sid p) then .inl (0x06, St.badDescriptor)
      else if !s.keyHandleOk ka ∨ !s.keyHandleOk kb then .inl (0x07, St.badHandle)
      else if (if p.gmac then tx == 0 else ka != 0 || kb != 0) then .inl (0x08, St.badDescriptor)
      else if slot ≠ 0xFFFF then
        if (s.slotChan p.id slot).isSome then .inl (0x09, St.quota)
        else if !s.slotFits p sid slot then .inl (0x0A, St.quota)
        else .inr slot
      else match (List.range p.slots).find? (fun k => (s.slotChan p.id k).isNone && s.slotFits p sid k) with
        | some k => .inr k
        | none => .inl (0x0B, St.quota)

/-- The lowest free channel index (R196; log entry 10). -/
def State.freeChan (s : State) : Nat :=
  ((List.range (s.cyc.chans.length + 1)).find? (fun i => (look s.cyc.chans i).isNone)).getD 0

/-- CHANNEL_BIND (R196, R197): the channel is BIND_PENDING. -/
def execChannelBind (d : AdminCmd) (s : State) : Answer :=
  .next (s.admin d 0x18 (fun s =>
    match s.bindCheck d with
    | .inl (dt, st) => s.adminFail d st dt
    | .inr slot =>
      let sid := d.p 0 % 65536
      let i := s.freeChan
      let c : Chan := { sid := sid, pool := d.p 0 / 65536, slot := slot, hold := bitOf (d.p 1) 16, lost := bitsOf (d.p 1) 31 24, pcp := bitsOf (d.p 1) 20 18, keyA := d.p 2, keyB := d.p 3, txKey := bitsOf (d.p 1) 17 17, newKeys := none, phase := 1 }
      let s := s.setChan i c
      let hs := match s.poolRec c.pool with | some p => s.poolHalls p | none => []
      let s := hs.foldl (fun (s : State) h =>
        let e := s.station h sid
        s.setChHall h i (if stnValid e then { port := some (stnLane e), armed := true } else {})) s
      s.adminOk d (s.handle 3 i + slot * 2 ^ 32)))

/-- Remove a channel: its slot is free and its handle's generation advances. -/
def State.endChan (s : State) (i : Nat) : State :=
  let hs := (s.cyc.halls.filter (fun (e : Nat × ChanHall) => e.1 % 65536 == i)).map (fun e => e.1 / 65536)
  let s := { s with cyc := { s.cyc with chans := s.cyc.chans.del i, halls := s.cyc.halls.filter (fun (e : Nat × ChanHall) => e.1 % 65536 != i) } }
  hs.foldl State.showBound (s.nextGen 3 i)

/-- End a channel with CHANNEL_UNBOUND from the lowest hall that carried it, its status words cleared (R195, R199, R208). -/
def State.unbindNow (s : State) (i : Nat) (c : Chan) (reason : Nat) (words : List (Nat × Nat)) : State :=
  let hs := (s.cyc.halls.filter (fun (e : Nat × ChanHall) => e.1 % 65536 == i)).map (fun e => e.1 / 65536)
  let s := match hs with
    | h :: _ => s.notifySid h 0x08 c.sid reason
    | [] => s
  (words.foldl (fun (s : State) w => s.putAlcove w.1 w.2 (leBytes 8 0)) s).endChan i

/-- The status words of a channel under the active plan: hall and address. -/
def State.chanWords (s : State) (c : Chan) : List (Nat × Nat) :=
  match s.poolRec c.pool with
  | some p => (s.poolHalls p).map (fun h => (h, p.word c.slot))
  | none => []

/-- A channel command on a handle. -/
def State.chanFor (s : State) (d : AdminCmd) (k : Nat → Chan → State) : State :=
  match s.resolve 3 (d.p 0) with
  | none => s.adminFail d St.badHandle
  | some i =>
    match look s.cyc.chans i with
    | none => s.adminFail d St.badHandle
    | some c => k i c

/-- CHANNEL_UNBIND (R199). -/
def execChannelUnbind (d : AdminCmd) (s : State) : Answer :=
  .next (s.admin d 0x19 (fun s => s.chanFor d (fun i c =>
    if c.phase = 1 then (s.endChan i).adminOk d
    else (s.setChan i { c with phase := 7 }).adminOk d)))

/-- CHANNEL_SET_KEY (R200): from the next landing. -/
def execChannelSetKey (d : AdminCmd) (s : State) : Answer :=
  .next (s.admin d 0x1A (fun s => s.chanFor d (fun i c =>
    let (_, a, b) := c.newKeys.getD (c.txKey, c.keyA, c.keyB)
    let a := if bitOf (d.p 1) 1 then d.p 2 else a
    let b := if bitOf (d.p 1) 2 then d.p 3 else b
    if (!bitOf (d.p 1) 1 ∧ d.p 2 ≠ 0) ∨ (!bitOf (d.p 1) 2 ∧ d.p 3 ≠ 0) then s.adminFail d St.badDescriptor
    else if !s.keyHandleOk a ∨ !s.keyHandleOk b then s.adminFail d St.badHandle
    else (s.setChan i { c with newKeys := some (bitsOf (d.p 1) 0 0, a, b) }).adminOk d)))

/-- The status word of a channel's slot in a hall. -/
def State.chanWord (s : State) (h : Nat) (c : Chan) : Nat :=
  match s.poolRec c.pool with
  | some p => leNat (s.alcoveRead h (p.word c.slot) 8)
  | none => 0

/-- CHANNEL_QUERY (R200): the state code is the channel's pending one, or that of its pool's hall. -/
def execChannelQuery (d : AdminCmd) (s : State) : Answer :=
  .next (s.admin d 0x1B (fun s => s.chanFor d (fun i c =>
    let hs := match s.poolRec c.pool with | some p => s.poolHalls p | none => []
    let st := if c.phase = 2 then (match hs with | h :: _ => (match s.chHall h i with | some x => x.state | none => 0) | [] => 0) else c.phase
    let w1 := match hs with | h :: _ => s.chanWord h c | [] => 0
    let w2 := match hs with | _ :: h :: _ => s.chanWord h c | _ => 0
    (s.adminOut d (leBytes 2 c.sid ++ leBytes 2 c.pool ++ leBytes 2 c.slot ++ leBytes 1 st ++ leBytes 1 0 ++ leBytes 8 w1 ++ leBytes 8 w2 ++ leBytes 8 0)).adminOk d)))

/-! ### STATION commands (R194), served in TABLE windows -/

/-- STATION_READ. -/
def execStationRead (d : AdminCmd) (s : State) : Answer :=
  .next (s.admin d 0x1C (fun s => s.tableSubmit d [] false (decide (0 < d.p 2) && decide (d.p 2 ≤ 4096) && decide (d.p 1 + d.p 2 ≤ 65536))))

/-- STATION_WRITE. -/
def execStationWrite (d : AdminCmd) (buf : Bytes) (s : State) : Answer :=
  .next (s.admin d 0x1D (fun s => s.tableSubmit d (sliceB buf 0 16) false (stnOk (d.p 1) (sliceB buf 0 16))))

/-- STATION_CLEAR. -/
def execStationClear (d : AdminCmd) (s : State) : Answer :=
  .next (s.admin d 0x1E (fun s => s.tableSubmit d (List.replicate 16 0) false true))

/-- A hall has an entry for a SID it had none for (was: false), or another than it had: a slot that waits for its first is checked and starts at the next
landing or is blocked; one that is bound emits again from the landing after a relearning, and not at all on another port (R193, R194,
R197). -/
def State.entryNew (s : State) (h sid : Nat) (was : Bool) : State :=
  match s.chanOf sid with
  | none => s
  | some (i, c) =>
    match s.chHall h i, s.poolRec c.pool with
    | some x, some p =>
      let e := s.station h sid
      let l := stnLane e
      if x.state = 1 ∧ !x.armed ∧ !x.blocked then
        if s.portFits h sid p && !s.emissionConflict h l p c.slot then s.setChHall h i { x with port := some l, armed := true }
        else (s.setChHall h i { x with blocked := true }).sidConflict h sid (stnMac e) l (stnTci e)
      else s.setChHall h i { x with wait := x.wait || !was, blocked := x.blocked || x.port != some l }
    | _, _ => s

/-! ### What the landing does to channels (R198, R199, R200, R210) -/

/-- The status words of a hall's slots that hold no channel read 0 (R208). -/
def State.zeroWords (s : State) (h l : Nat) : State :=
  ((Plan.pools s.pln.active).filter (fun p => p.hall == l || p.twin == some l)).foldl (fun (s : State) p =>
    (List.range p.slots).foldl (fun (s : State) i => if (s.slotChan p.id i).isSome then s else s.putAlcove h (p.word i) (leBytes 8 0)) s) s

/-- A slot's area and its status word, zero-filled in a hall. -/
def State.zeroSlot (s : State) (h : Nat) (p : Plan.Pool) (slot : Nat) : State :=
  (s.putAlcove h (p.area slot) (List.replicate p.stride 0)).putAlcove h (p.word slot) (leBytes 8 0)

/-- One hall's part of a channel at a landing. -/
def ChanHall.land (c : ChanHall) : ChanHall :=
  let c := { c with wait := false }
  if c.state = 1 then (if c.armed then { c with state := 2, armed := false } else c)
  else if c.state = 6 then (if c.hello then { c with state := 2, hello := false, quiet := false, rejoin := true, bye := false } else { c with quiet := true })
  else c

/-- The counts of a flight begin anew: notifications of each hall, and the SIDs whose conflict is reported (R193, R195). -/
def State.cycFlight (s : State) : State := { s with cyc := { s.cyc with sent := [], conflicts := [] } }

/-- The state of a twin pool's channel that its copies of the flight show (R212): its own state in the pool's hall at the landing, in both halls (log entry 69). -/
def State.showTwin (s : State) (e : Nat × Chan) : Nat × Chan :=
  match s.poolRec e.2.pool with
  | some p =>
    match (s.poolHalls p).filterMap (fun h => s.chHall h e.1) with
    | x :: _ => (e.1, { e.2 with shown := x.state })
    | [] => e
  | none => e

/-- The use of a key slot for cyclic tags at a landing: its counter is the number of flights since its first use; the soft limit is reported once, and the
hard limit ends its use (R216). Both are reported by the hall that used it last. -/
def State.cycKeyLand (s : State) (k : Nat) : State :=
  let v := s.slot k
  match v.firstFlight with
  | none => s
  | some f0 =>
    if v.state ≠ 2 then s else
    let n := s.flightNow - f0
    let soft := decide (2 ^ 31 ≤ n) && !v.softDone
    let s := s.setSlot k { v with counter := n, softDone := v.softDone || soft, state := if 4294967295 ≤ n then 3 else 2 }
    let s := if soft then
        ((s.raise Fld.CYC_STATUS_KEY_SOFT v.useHall).notifySid v.useHall 0x0A v.useSid 0).almHall 0x0504 v.useHall (leBytes 4 (s.handle 4 k) ++ leBytes 1 0) else s
    if 4294967295 ≤ n then (s.raise Fld.CYC_STATUS_KEY_HARD v.useHall).almHall 0x0504 v.useHall (leBytes 4 (s.handle 4 k) ++ leBytes 1 1) else s

/-- Every channel at a landing: pending binds take effect, pending unbinds end, staged keys apply, LEFT slots fall quiet or
rejoin. -/
def State.channelsLand (s : State) : State :=
  let s := s.cyc.chans.foldl (fun (s : State) (e : Nat × Chan) =>
    let (i, c) := e
    if c.phase = 7 then s.unbindNow i c 0 (s.chanWords c)
    else
      let s := match c.phase, s.poolRec c.pool with
        | 1, some p => (s.poolHalls p).foldl (fun (s : State) h => s.zeroSlot h p c.slot) s
        | _, _ => s
      let (tx, a, b) := c.newKeys.getD (c.txKey, c.keyA, c.keyB)
      s.setChan i { c with phase := 2, txKey := tx, keyA := a, keyB := b, newKeys := none }) s
  let s := { s with cyc := { s.cyc with halls := s.cyc.halls.map (fun (e : Nat × ChanHall) => (e.1, e.2.land)) } }
  let s := { s with cyc := { s.cyc with chans := s.cyc.chans.map s.showTwin } }
  let s := (s.keys.slots.map (fun (e : Nat × KeySlot) => e.1)).foldl State.cycKeyLand s
  (List.range 18).foldl State.showBound s

/-- A hall resumes a logical hall after a fault or remap: each bound slot restarts at JOINING with AGE 0 (R200). -/
def State.channelsRestart (s : State) (h : Nat) : State :=
  { s with cyc := { s.cyc with halls := s.cyc.halls.map (fun (e : Nat × ChanHall) => if e.1 / 65536 == h && decide (2 ≤ e.2.state) then (e.1, { e.2 with state := 2, age := 0, rxMap := 0, bye := false, late := false, auth := false, rejoin := false, quiet := false, hello := false }) else e) } }

/-! ### CTX and its emissions (R123, R124, R201) -/

/-- CTX: a transmit window opens. -/
def execCtx (h : Nat) (s : State) : Answer :=
  match s.takeOp h 3 0x52 with
  | none => .next s
  | some (o, s) =>
    let q := s.seq h
    let w : CtxWin := { hall := h, pool := bitsOf o 48 33, first := bitsOf o 32 17, count := ctxCount o, pace := bitsOf o 8 0, base := clockAt q.start (Plan.offset o) (s.clocks h), flight := s.flightNow, next := 0 }
    let nseg := match s.poolRec w.pool with | some p => p.segs | none => 1
    let last := (w.count * nseg - 1) * w.pace * 25 * s.clocks h / 100
    let s := s.occupy h o (last + 1)
    .next { s with cyc := { s.cyc with wins := s.cyc.wins ++ [w] } }

/-- The instant of a window's next emission. -/
def CtxWin.due (w : CtxWin) : Nat := w.base + w.next * w.pace * 25 * nsTicks

/-- The key slot that a channel's key number names. -/
def State.cycSlot (s : State) (c : Chan) (no : Nat) : Option Nat := s.resolve 4 (if no = 0 then c.keyA else c.keyB)

/-- A key slot may be used for a cyclic tag (R215, R298): it is READY and of a type that serves them. Its first use starts its count of flights (R216). -/
def State.useCycKey (s : State) (h sid k : Nat) : State × Bool :=
  let v := s.slot k
  if s.slotState k ≠ 2 ∨ !isCyclic (keyType v.attr) then (s, false)
  else (s.setSlot k { v with firstFlight := some (v.firstFlight.getD s.flightNow), useHall := h, useSid := sid }, true)

/-- The initialisation vector of a cyclic tag (R214). -/
def cycIv (flight sid seg dir rank : Nat) : Bytes := beBytes 4 flight ++ beBytes 2 sid ++ beBytes 1 seg ++ beBytes 1 dir ++ beBytes 2 rank ++ beBytes 2 0

/-- The cyclic header (R187). -/
def cycHeader (ty flags sid flight seq seg keyNo len status rank domain : Nat) : Bytes :=
  beBytes 1 (16 + ty) ++ beBytes 1 flags ++ beBytes 2 sid ++ beBytes 4 flight ++ beBytes 2 seq ++ beBytes 1 seg ++ beBytes 1 keyNo ++
    beBytes 2 len ++ beBytes 2 status ++ beBytes 2 rank ++ beBytes 2 0 ++ beBytes 4 domain

/-- A frame's octets with padding to 60 and FCS. -/
def withFcs (b : Bytes) : Bytes :=
  let b := b ++ List.replicate (60 - b.length) 0
  b ++ leBytes 4 (crc32 b)

/-- The source MAC of cyclic frames: one value for every hall (R217), which stands in the window of HALL0. -/
def State.srcMac (s : State) : Bytes := beBytes 2 (s.fld Fld.CYC_SRC_MAC_HI_MAC) ++ beBytes 4 (s.fld Fld.CYC_SRC_MAC_LO_MAC)

/-- The DATA_OUT frame of a slot's segment, without tag, padding and FCS. -/
def State.dataOut (s : State) (h : Nat) (p : Plan.Pool) (c : Chan) (x : ChanHall) (flight seg : Nat) : Bytes × Bytes × Bytes :=
  let e := s.station h c.sid
  let n := segLen p.out seg
  let seg8 := seg * 16 + (segs p.out - 1)
  let hdr := cycHeader 1 (b2n p.gmac + 2 * b2n p.twin.isSome) c.sid flight (flight * 16 + seg) seg8 (if p.gmac then c.txKey else 0) n
    ((if p.twin.isSome then c.shown else x.state) * 4096) (s.fld Fld.PLN_RANK_RANK) (s.fld Fld.PLN_DOMAIN_DOMAIN_ID)
  let eth := stnMac e ++ s.srcMac ++ beBytes 2 0x8100 ++ beBytes 2 (c.pcp * 8192 + stnTci e % 4096) ++ beBytes 2 0x88B5
  (eth, hdr, s.alcoveRead h (p.area c.slot + 1440 * seg) n)

/-- The channel in a hall may send (R201). -/
def State.maySend (s : State) (h : Nat) (c : Chan) (x : ChanHall) : Bool :=
  let e := s.station h c.sid
  decide (2 ≤ x.state) && decide (x.state ≤ 6) && !(x.state == 6 && x.quiet) && stnValid e && !x.blocked && !x.wait &&
    x.port == some (stnLane e) && leNat (s.srcMac) != 0

/-- Send a cyclic frame on a port: it goes out at once, or is discarded while the port is down (R221, R225). -/
def State.sendCyclic (s : State) (l : Nat) (b : Bytes) (bad : Bool) : State :=
  if !s.portUp l then s.bump Fld.LN_CNT_TXDOWN_COUNT 0 l
  else
    let wire := (b.length + 20) * 8000 * nsTicks / modeMbps (s.laneMode l)
    let p := s.port l
    ((s.setPort l { p with freeAt := max p.freeAt (s.now + wire) }).bump Fld.LN_CNT_TXFRAMES_COUNT 0 l).emit (.frame l b bad)

/-- CTX_EMISSION (R201): the next emission of a pool's windows in a hall sends one segment or is idle. cut: the key slot
enters REVOKING while the frame is being tagged (R215). -/
def execCtxEmission (h pool : Nat) (cut : Bool) (at_ : Nat) (s : State) : Answer :=
  let s := s.atTime at_
  let ws := s.cyc.wins.filter (fun w => w.hall == h && w.pool == pool)
  match ws.foldl (fun (b : Option CtxWin) w => match b with | some v => if w.due < v.due then some w else b | none => some w) none with
  | none => .next s
  | some w =>
    if s.now < w.due then .next s else
    match s.poolRec pool with
    | none => .next s
    | some p =>
      let w1 := { w with next := w.next + 1 }
      let rest := s.cyc.wins.map (fun x => if x = w then w1 else x)
      let s := { s with cyc := { s.cyc with wins := rest.filter (fun x => decide (x.next < x.count * p.segs)) } }
      let slot := w.first + w.next / p.segs
      let seg := w.next % p.segs
      let idle := s.bump Fld.CYC_CNT_IDLE_COUNT h
      match s.slotChan pool slot with
      | none => .next idle
      | some (i, c) =>
        match s.chHall h i with
        | none => .next idle
        | some x =>
          if segs p.out ≤ seg ∨ !s.maySend h c x then .next idle
          else
            let flight := (w.due - s.origin) / (s.flightLen * treadTicks) % 2 ^ 32
            let (eth, hdr, pay) := s.dataOut h p c x flight seg
            let l := stnLane (s.station h c.sid)
            if !p.gmac then .next ((s.sendCyclic l (withFcs (eth ++ hdr ++ pay)) false).bump Fld.CYC_CNT_TX_COUNT h)
            else match s.cycSlot c c.txKey with
              | none => .next idle
              | some k =>
                let (s, ok) := s.useCycKey h c.sid k
                if !ok then .next (s.bump Fld.CYC_CNT_IDLE_COUNT h)
                else
                  let tag := Config.gcmTag (s.slot k).key (cycIv flight c.sid (seg * 16 + (segs p.out - 1)) 1 (s.fld Fld.PLN_RANK_RANK)) (hdr ++ pay) []
                  let cut := cut && (s.slot k).eraseAt.isSome
                  let s := if cut then s.bump Fld.CYC_CNT_KEY_COUNT h else s
                  .next ((s.sendCyclic l (withFcs (eth ++ hdr ++ pay ++ sliceB tag 0 16)) cut).bump Fld.CYC_CNT_TX_COUNT h)

/-! ### CRX and reception (R125, R202 to R206) -/

/-- CRX: a pool's receive window opens, until the end of tread t + LEN - 1. -/
def execCrx (h : Nat) (s : State) : Answer :=
  match s.takeOp h 3 0x53 with
  | none => .next s
  | some (o, s) =>
    let q := s.seq h
    let w : CrxWin := { flight := s.flightNow, start := clockAt q.start (Plan.offset o) (s.clocks h), deadline := q.start + bitsOf o 32 13 * treadTicks, done := false }
    .next { s with cyc := { s.cyc with crx := s.cyc.crx.put (h * 65536 + bitsOf o 48 33) w } }

/-- The octets before the cyclic header, when a frame is cyclic (R186). -/
def cyclicAt (b : Bytes) : Option Nat :=
  if beAt b 12 2 = 0x88B5 then some 14
  else if beAt b 12 2 = 0x8100 ∧ beAt b 16 2 = 0x88B5 then some 18 else none

/-- A late copy (R203, R208, R520). -/
def State.lateCopy (s : State) (h i : Nat) (x : ChanHall) (sid step ns : Nat) : State :=
  let s := (s.bump Fld.CYC_CNT_LATE_COUNT h).raise Fld.CYC_STATUS_LATE h
  let once := x.lateFlight != some s.flightNow
  let s := s.setChHall h i { x with late := true, lateFlight := some s.flightNow }
  if once then s.almHall 0x0502 h (leBytes 2 sid ++ leBytes 1 St.deadlineMissed ++ leBytes 1 step ++ leBytes 4 (min ns 0xFFFFFFFF)) else s

/-- F_exp of a slot in a receive window, as the 32 bits that are compared (R204). -/
def State.fExp (s : State) (h : Nat) (p : Plan.Pool) (slot : Nat) (w : CrxWin) : Nat :=
  let t := match s.logicalOf h with | some l => tTx s.pln.active l (s.clocks h) p slot | none => 0
  if p.deadline = 0 ∨ t < p.deadline then w.flight % 2 ^ 32 else (w.flight + 2 ^ 32 - 1) % 2 ^ 32

/-- Steps 7 to 13 of R203 for a DATA_IN, and its acceptance. b is the frame without FCS, o where its header starts. -/
def State.dataIn (s : State) (h i : Nat) (c : Chan) (x : ChanHall) (p : Plan.Pool) (b : Bytes) (o arrival : Nat) (cut : Bool) : State :=
  let seg := beAt b (o + 10) 1 / 16
  let segLast := beAt b (o + 10) 1 % 16
  let len := beAt b (o + 12) 2
  let gm := bitOf (beAt b (o + 1) 1) 0
  let flight := beAt b (o + 4) 4
  let hdr := sliceB b o 24
  let pay := sliceB b (o + 24) len
  if gm ≠ p.gmac ∨ segLast + 1 ≠ segs p.inn ∨ segLast < seg ∨ len ≠ segLen p.inn seg ∨ b.length < o + 24 + len + (if gm then 16 else 0) then
    s.bump Fld.CYC_CNT_BAD_FRAME_COUNT h
  else
    let no := beAt b (o + 11) 1
    let (s, usable) := if !gm then (s, true) else if 1 < no then (s, false) else match s.cycSlot c no with
      | some k => s.useCycKey h c.sid k
      | none => (s, false)
    let hurt := cut && (match s.cycSlot c no with | some k => (s.slot k).eraseAt.isSome | none => false)
    if !usable ∨ hurt then s.bump Fld.CYC_CNT_KEY_COUNT h
    else
      let good := !gm || (match s.cycSlot c no with
        | some k => sliceB (Config.gcmTag (s.slot k).key (cycIv flight c.sid (beAt b (o + 10) 1) 2 (beAt b (o + 16) 2 % 1024)) (hdr ++ pay) []) 0 16 == sliceB b (o + 24 + len) 16
        | none => false)
      if !good then (s.bump Fld.CYC_CNT_AUTH_FAIL_COUNT h).setChHall h i { x with auth := true }
      else match look s.cyc.crx (h * 65536 + p.id) with
        | none => s.lateCopy h i x c.sid 12 0
        | some w =>
          let f := s.fExp h p c.slot w
          let diff := sub32 flight f
          if w.past ∧ w.deadline < arrival then s.lateCopy h i x c.sid 12 0
          else if 2 ^ 31 ≤ diff then
            let dl := w.deadline - sub32 f flight * s.flightLen * treadTicks
            s.lateCopy h i x c.sid 10 ((arrival - dl) / nsTicks)
          else if diff ≠ 0 then s.bump Fld.CYC_CNT_BAD_FLIGHT_COUNT h
          else if arrival < w.start then s.lateCopy h i x c.sid 12 0
          else if w.deadline < arrival ∨ w.done then s.lateCopy h i x c.sid 12 ((arrival - w.deadline) / nsTicks)
          else if bitOf x.rxMap seg then s.bump Fld.CYC_CNT_DUP_COUNT h
          else
            let e := s.station h c.sid
            let s := s.setStation h c.sid (stnEntry (stnMac e) (stnLane e) (leAt e 7 1) (stnTci e) flight)
            let s := s.putAlcove h (p.inArea c.slot + 1440 * seg) pay
            (s.setChHall h i { x with rxMap := x.rxMap ||| 2 ^ seg, stn := beAt b (o + 14) 2 }).bump Fld.CYC_CNT_RX_ONTIME_COUNT h

/-- Step 3 of R203: the directory entry is learned, moved, kept or in conflict (R192, R193). The answer is whether the frame
goes on. -/
def State.dirStep (s : State) (h l ty sid : Nat) (mac : Bytes) (tagged : Bool) (tci : Nat) : State × Bool :=
  let e := s.station h sid
  let flags := 1 + 4 * b2n tagged
  if !stnValid e then
    if s.flag Fld.CYC_CFG_LEARN h ∧ (ty = 3 ∨ (ty = 2 ∧ s.flag Fld.CYC_CFG_LEARN_DATA h)) then
      let s := s.setStation h sid (stnEntry mac l flags tci (leAt e 12 4))
      (((s.bump Fld.CYC_CNT_LEARN_COUNT h).notify h 0x01 sid 0 mac l tci).entryNew h sid false, true)
    else (s, true)
  else if stnMac e = mac ∧ stnLane e = l then (s, true)
  else
    let live := match s.chanOf sid with
      | some (i, _) => (match s.chHall h i with | some x => x.state == 3 || x.state == 4 | none => false)
      | none => false
    if ty = 3 ∧ !stnPinned e ∧ !live then
      let s := s.setStation h sid (stnEntry mac l flags tci (leAt e 12 4))
      (((s.bump Fld.CYC_CNT_LEARN_COUNT h).notify h 0x02 sid 0 mac l tci).entryNew h sid true, true)
    else (((s.bump Fld.CYC_CNT_SID_CONFLICT_COUNT h).raise Fld.CYC_STATUS_SID_CONFLICT h).sidConflict h sid mac l tci, false)

/-- The steps of R203 on a frame (without FCS) that arrived on a port of a hall. -/
def State.cyclicRx (s : State) (h l : Nat) (b : Bytes) (o arrival : Nat) (cut : Bool) : State :=
  let ty := beAt b o 1 % 16
  let sid := beAt b (o + 2) 2
  if b.length < o + 24 ∨ beAt b o 1 / 16 ≠ 1 ∨ (ty ≠ 2 ∧ ty ≠ 3 ∧ ty ≠ 4) ∨ sid = 0 ∨ sid = 0xFFFF then s.bump Fld.CYC_CNT_BAD_FRAME_COUNT h
  else if ty ≠ 3 ∧ (beAt b (o + 20) 4 ≠ s.fld Fld.PLN_DOMAIN_DOMAIN_ID ∨ beAt b (o + 16) 2 % 1024 ≠ s.fld Fld.PLN_RANK_RANK) then
    s.bump Fld.CYC_CNT_DOMAIN_COUNT h
  else
    let s := if ty = 3 then s.bump Fld.CYC_CNT_HELLO_COUNT h else s
    let tagged := o == 18
    let tci := if tagged then beAt b 14 2 - bitsOf (beAt b 14 2) 12 12 * 4096 else 0
    let (s, on) := s.dirStep h l ty sid (sliceB b 6 6) tagged tci
    if !on then s
    else
      let ch := match s.chanOf sid with
        | some (i, c) => (match s.chHall h i with | some x => some (i, c, x) | none => none)
        | none => none
      if ty = 3 then
        match ch with
        | some (i, _, x) => if x.state = 6 ∧ stnValid (s.station h sid) then s.setChHall h i { x with hello := true } else s
        | none => s
      else if !stnValid (s.station h sid) then s.bump Fld.CYC_CNT_UNBOUND_COUNT h
      else match ch with
        | none => s.bump Fld.CYC_CNT_UNBOUND_COUNT h
        | some (i, c, x) =>
          if x.state < 2 ∧ !x.blocked then s.bump Fld.CYC_CNT_UNBOUND_COUNT h
          else if ty = 4 then (if x.state < 2 then s.bump Fld.CYC_CNT_UNBOUND_COUNT h else (s.setChHall h i { x with bye := true }).bump Fld.CYC_CNT_BYE_COUNT h)
          else if x.blocked ∨ x.port ≠ some (stnLane (s.station h sid)) then s.bump Fld.CYC_CNT_SID_CONFLICT_COUNT h
          else match s.poolRec c.pool with
            | some p => s.dataIn h i c x p b o arrival cut
            | none => s.bump Fld.CYC_CNT_UNBOUND_COUNT h

/-- The oldest cyclic frame in a port's receive buffer. -/
def PortSt.cyclicFrame (p : PortSt) : Option RxFrame := p.rx.find? (fun f => (cyclicAt f.octets).isSome)

/-- CYCLIC_FRAME_RX (R192, R202, R203): the oldest cyclic frame in a port's receive buffer, once no port of the hall holds an older one. cut: its key slot enters REVOKING while
its tag is being checked (R215). -/
def execCyclicFrameRx (l : Nat) (cut : Bool) (s : State) : Answer :=
  match s.bayOwner (l / 8) with
  | none => .next s
  | some h =>
    match (s.port l).cyclicFrame with
    | none => .next s
    | some f =>
      if !s.running h ∨ (s.hallPorts h).any (fun x => match (s.port x).cyclicFrame with | some g => decide (g.arrival < f.arrival) | none => false) then .next s else
      .next ((s.takeRx l f).cyclicRx h l (f.octets.take (f.octets.length - 4)) ((cyclicAt f.octets).getD 14) f.arrival cut)

/-! ### The deadline (R207 to R210) -/

/-- Fill the missed segments of a slot that does not hold its data. -/
def State.zeroMisses (s : State) (h : Nat) (p : Plan.Pool) (slot rxMap : Nat) : State :=
  (List.range (segs p.inn)).foldl (fun (s : State) k =>
    if bitOf rxMap k then s else s.putAlcove h (p.inArea slot + 1440 * k) (List.replicate (segLen p.inn k) 0)) s

/-- The next state of a slot at a deadline, and the notification it sends (0: none), before a BYE (R210). -/
def chanNext (st age lost : Nat) (fresh rejoin : Bool) : Nat × Nat :=
  match st, fresh with
  | 2, true => (3, if rejoin then 0x06 else 0x04)
  | 3, false => if lost ≤ age then (5, 0x05) else (4, 0)
  | 4, true => (3, 0)
  | 4, false => if lost ≤ age then (5, 0x05) else (4, 0)
  | 5, true => (3, 0x06)
  | s, _ => (s, 0)

/-- The word of R208. -/
def statusWord (sid rxMap st : Nat) (fresh held late auth : Bool) (age stn : Nat) : Nat :=
  sid + rxMap * 2 ^ 16 + st * 2 ^ 32 + b2n fresh * 2 ^ 36 + b2n held * 2 ^ 37 + b2n late * 2 ^ 38 + b2n auth * 2 ^ 39 + age * 2 ^ 40 + stn * 2 ^ 48

/-- One slot's deadline in a hall. -/
def State.slotDeadline (s : State) (h : Nat) (p : Plan.Pool) (i : Nat) (c : Chan) (x : ChanHall) : State :=
  let n := segs p.inn
  let full := 2 ^ n - 1
  let fresh := x.rxMap == full
  let s := if fresh ∨ c.hold then s else s.zeroMisses h p c.slot x.rxMap
  let held := c.hold && !fresh
  let age := if x.state = 6 then x.age else if fresh then 0 else min 255 (x.age + 1)
  let (st, note) := chanNext x.state age c.lost fresh x.rejoin
  let s := if fresh then s else s.bump Fld.CYC_CNT_MISS_COUNT h
  let s := if note = 0 then s else s.notifySid h note c.sid 0
  let s := if note = 0x05 then (s.raise Fld.CYC_STATUS_LOST h).almHall 0x0501 h (leBytes 2 c.sid ++ leBytes 2 c.slot ++ leBytes 4 (s.handle 3 i)) else s
  let leaves := x.bye && decide (2 ≤ st) && decide (st ≤ 5)
  let s := if leaves then s.notifySid h 0x07 c.sid 0 else s
  let st := if leaves then 6 else st
  let s := s.setChHall h i { x with state := st, age := age, rxMap := 0, late := false, auth := false, bye := false, quiet := x.quiet && st == 6, rejoin := x.rejoin && st == 2 }
  s.putAlcove h (p.word c.slot) (leBytes 8 (statusWord c.sid x.rxMap st fresh held x.late x.auth age x.stn))

/-- POOL_DEADLINE (R207, R208): at the deadline instant of a pool's window in a hall. -/
def execPoolDeadline (h pool at_ : Nat) (s : State) : Answer :=
  let s := s.atTime at_
  match look s.cyc.crx (h * 65536 + pool), s.poolRec pool with
  | some w, some p =>
    if w.done ∨ s.now < w.deadline ∨ !s.running h then .next s
    else
      let s := { s with cyc := { s.cyc with crx := s.cyc.crx.put (h * 65536 + pool) { w with done := true } } }
      .next ((s.cyc.chans.foldl (fun (s : State) (e : Nat × Chan) =>
        if e.2.pool ≠ pool then s else match s.chHall h e.1 with
          | some x => if x.state < 2 then s else s.slotDeadline h p e.1 e.2 x
          | none => s) s).showBound h)
  | _, _ => .next s

end Sys2Proof.Machine
end

