-- ==== Sys2Proof/Machine/Ports.lean ====
section
/-! DEFINITION. What a port sends: gate lists (R226, R227), the test of R228, and the start of a frame. -/

namespace Sys2Proof.Machine

/-! ### Gate lists (R226, R227) -/

/-- The gate records of a port in the active plan: start in ns, state. -/
def State.gates (s : State) (l : Nat) : List (Nat × Nat) :=
  match Plan.bayHall s.pln.active (l / 8) with
  | none => []
  | some hl => ((Plan.records 8 (Plan.bodyOf s.pln.active 5 hl)).filter (fun r => leAt r 0 1 == l)).map (fun r => (leAt r 4 4, leAt r 1 1 % 4))

/-- The gate state at an instant of the flight: the last record that has started; SHARED for a port with none. -/
def gateState (g : List (Nat × Nat)) (pos : Nat) : Nat :=
  g.foldl (fun st r => if r.1 * nsTicks ≤ pos then r.2 else st) 3

/-- From an instant of the flight to the next start of a record in one of some states, across the landing. -/
def nextGate (g : List (Nat × Nat)) (bad : List Nat) (pos flight : Nat) : Option Nat :=
  g.foldl (fun (m : Option Nat) r =>
    if bad.contains r.2 then
      let d := (r.1 * nsTicks + flight - pos % flight) % flight
      match m with
      | some x => some (min x d)
      | none => some d
    else m) none

/-- The instants of the flight at which cyclic emissions leave a port: those of the slots bound to it. -/
def State.emissionsOn (s : State) (h l : Nat) : List Nat :=
  (s.cyc.chans.map (fun (e : Nat × Chan) =>
    if s.chanPort h e.1 ≠ some l then [] else
    match s.poolRec e.2.pool, s.logicalOf h with
    | some p, some lg =>
      (match ctxFor (Plan.program s.pln.active lg) p.id e.2.slot with
      | some c => (c.emissions p.segs e.2.slot).map (fun j => c.at_ (s.clocks h) j * nsTicks / s.clocks h)
      | none => [])
    | _, _ => [])).flatten

/-- A frame of so much wire time may start now from a queue (R227, R228). -/
def State.mayStart (s : State) (h l wire : Nat) (opened : Bool) : Bool :=
  let flight := s.flightLen * treadTicks
  let pos := (s.now - s.origin) % flight
  let g := s.gates l
  let st := gateState g pos
  let lets := if opened then st == 2 || (st == 3 && (s.port l).planned == []) else st == 1 || st == 3
  let limit := nextGate g (if opened then [0, 1] else [0, 2]) pos flight
  lets && (match limit with | some d => decide (wire ≤ d) | none => true) &&
    (s.emissionsOn h l).all (fun e => decide (wire ≤ (e + flight - pos % flight) % flight))

/-! ### Corrections of one-step and transparent clocks (R231) -/

/-- The EtherType behind the tags of a frame from an offset on, and where its payload begins; the fuel bounds the tags. -/
def etherEnd (b : Bytes) : Nat → Nat → Nat × Nat
  | 0, o => (beAt b o 2, o + 2)
  | n + 1, o => if [0x8100, 0x88A8, 0x9100].contains (beAt b o 2) then etherEnd b n (o + 4) else if beAt b o 2 = 0xF1C1 then etherEnd b n (o + 6) else (beAt b o 2, o + 2)

/-- Where a frame holds a PTP message, and its UDP checksum where it has one (Annexes C, D and E of IEEE 1588). -/
def ptpPlace (b : Bytes) : Option (Nat × Option Nat) :=
  let (ty, o) := etherEnd b 4 12
  let udp := fun (u : Nat) => if beAt b (u + 2) 2 = 319 ∨ beAt b (u + 2) 2 = 320 then some (u + 8, some (u + 6)) else none
  if ty = 0x88F7 then some (o, none)
  else if ty = 0x0800 ∧ beAt b (o + 9) 1 = 17 then udp (o + beAt b o 1 % 16 * 4)
  else if ty = 0x86DD ∧ beAt b (o + 6) 1 = 17 then udp (o + 40)
  else none

/-- A correction is added to the correctionField of a PTP message, and its UDP checksum follows. -/
def ptpCorrect (b : Bytes) (corr : Nat) : Bytes :=
  match ptpPlace b with
  | none => b
  | some (o, sum) =>
    if corr = 0 ∨ b.length < o + 34 then b
    else
      let old := sliceB b (o + 8) 8
      let new := beBytes 8 ((beNat old + corr) % 2 ^ 64)
      let b1 := spliceB b (o + 8) new
      match sum with
      | none => b1
      | some u =>
        let was := beAt b u 2
        let x := 0xFFFF - onesSum (beBytes 2 (0xFFFF - was) ++ old.map (fun y => 255 - y) ++ new) 0
        if was = 0 then b1 else spliceB b1 u (beBytes 2 (if x = 0 then 0xFFFF else x))

/-- PORT_FRAME_TX (R225, R228 to R231): the head of a port's planned or open queue starts, if the port is idle and the test holds. stamp is the instant at
which the end of its start-of-frame delimiter passes the lands, from which the event stamp follows; corr what a one-step or transparent clock adds to
its correctionField, in 2^-16 ns, 0 for other frames. -/
def execPortFrameTx (l : Nat) (opened : Bool) (corr stamp at_ : Nat) (s : State) : Answer :=
  let s := s.atTime at_
  match s.bayOwner (l / 8), (if opened then (s.port l).opened else (s.port l).planned) with
  | some h, f :: t =>
    let octets := withFcs (ptpCorrect f.octets corr)
    let wire := octetTicks (s.laneMode l) (octets.length + 20)
    let stamp := ((stamp : Int) + boardTicks (s.fld Fld.LN_LANE_DELAY_TX_PS 0 l)).toNat
    let p := s.port l
    if !s.isPort l ∨ s.now < p.freeAt ∨ !s.mayStart h l wire opened then .next s
    else
      let p := { p with freeAt := s.now + wire }
      let s := s.setPort l (if opened then { p with opened := t } else { p with planned := t })
      if !s.portUp l then .next ((s.bump Fld.LN_CNT_TXDOWN_COUNT 0 l).dropFrame f)
      else
        let s := (s.bump Fld.LN_CNT_TXFRAMES_COUNT 0 l).emit (.frame l octets false)
        let s := if f.tstamp then s.pushStamp l stamp else s
        .next (s.frameDone f stamp)
  | _, _ => .next s

end Sys2Proof.Machine
end

