-- ==== Sys2Proof/Machine/Parse.lean ====
section
/-! DEFINITION. The parser (R239 to R247) and the classification key (R248 to R250). -/

namespace Sys2Proof.Machine

/-! ### Adapter-wide configuration (R246) -/

/-- A field of an adapter-wide register as it is in force; what a write stages stands in the registers. -/
def State.cfg (s : State) (f : Fld) (i : Nat := 0) : Nat :=
  bitsOf ((look s.wide (f.reg.addr 0 i)).getD (f.reg.reset 0 i)).toNat f.hi f.lo

/-! ### What the parser finds -/

/-- The outcome of a parse. err is the code of R247 (0: none); the key fields of R248 to R250; where headers start in the
frame; the fragment's place; the tunnel; the end of the IP payload. -/
structure Parsed where
  err : Nat := 0
  dmac : Bytes := []
  smac : Bytes := []
  tags : Nat := 0
  tag0 : Nat := 0
  tag1 : Nat := 0
  tag0s : Bool := false
  rtag : Bool := false
  macsec : Bool := false
  ptp : Bool := false
  custom : Bool := false
  etype : Nat := 0
  l2end : Nat := 12
  l3 : Nat := 0
  src : Nat := 0
  dst : Nat := 0
  proto : Nat := 0
  tos : Nat := 0
  ipOpts : Bool := false
  exts : Nat := 0
  frag : Bool := false
  first : Bool := false
  more : Bool := false
  fragOff : Nat := 0
  fragId : Nat := 0
  fragData : Nat := 0
  l4Valid : Bool := false
  l4Src : Nat := 0
  l4Dst : Nat := 0
  icmp : Nat := 0
  tcpFlags : Nat := 0
  arpOp : Nat := 0
  tunnel : Nat := 0
  vni : Nat := 0
  tunAt : Option Nat := none
  l3At : Option Nat := none
  l4At : Option Nat := none
  customAt : Option Nat := none
  ipEnd : Nat := 0
  l2At : Option Nat := none
  ip4ok : Bool := false
deriving DecidableEq, Repr

/-- What a header needs of the frame: octets from an offset, within the frame and within the parse window. -/
def need (b : Bytes) (win off n err : Nat) : Nat := if b.length < off + n then err else if win < off + n then 9 else 0

/-- The custom node of a KIND that carries a value: the lowest enabled one (R245): NEXT and octets. -/
def State.customNode (s : State) (kind v : Nat) : Option (Nat × Nat) :=
  ((List.range 16).find? (fun n => s.cfg Fld.PRS_CUSTOM_EN n == 1 && s.cfg Fld.PRS_CUSTOM_KIND n == kind && s.cfg Fld.PRS_CUSTOM_VALUE n == v)).map
    (fun n => (s.cfg Fld.PRS_CUSTOM_NEXT n, 4 * s.cfg Fld.PRS_CUSTOM_LEN n))

/-- Where parsing goes next. -/
inductive Step3 where
  | stop
  | ip4 (off : Nat)
  | ip6 (off : Nat)
  | l4 (proto off : Nat)
  | ext (nh off : Nat)
  | udp (dport off : Nat)
deriving DecidableEq, Repr

/-- A custom node is entered at an offset. -/
def State.enterCustom (s : State) (b : Bytes) (win kind v off : Nat) (p : Parsed) : Parsed × Step3 :=
  match s.customNode kind v with
  | none => (p, .stop)
  | some (nx, n) =>
    if b.length < off + n then ({ p with err := 0xA }, .stop)
    else if win < off + n then ({ p with err := 9 }, .stop)
    else
      let p := { p with custom := true, customAt := some off }
      (p, if nx = 1 then .ip4 (off + n) else if nx = 2 then .ip6 (off + n) else .stop)

/-! ### Layer 2 (R241, R242) -/

/-- The type is a tag's TPID: 1 a C-tag, 2 an S-tag. -/
def State.tagKind (s : State) (t : Nat) : Nat :=
  if t = 0x8100 then 1
  else if t = 0x88A8 ∨ (s.cfg Fld.PRS_CFG_ALT_EN = 1 ∧ t = s.cfg Fld.PRS_CFG_ALT_STPID) then 2 else 0

/-- Tags from an offset on, at most two, each complete within the window with the type behind it. -/
def State.parseTags (s : State) (b : Bytes) (win : Nat) : Nat → Nat → Parsed → Parsed × Nat
  | 0, off, p => (p, off)
  | n + 1, off, p =>
    let k := s.tagKind (beAt b off 2)
    if k = 0 then (p, off)
    else if p.tags = 2 then ({ p with err := 1 }, off)
    else if win < off + 6 then ({ p with err := 9 }, off)
    else
      let t := beAt b (off + 2) 2
      let p := if p.tags = 0 then { p with tags := 1, tag0 := t, tag0s := k == 2 } else { p with tags := 2, tag1 := t }
      s.parseTags b win n (off + 4) p

/-- The EtherType names the next header; a length, which only an Ethernet header itself holds, LLC. -/
def State.byEtype (s : State) (b : Bytes) (win t off : Nat) (p : Parsed) : Parsed × Step3 :=
  if t < 0x600 ∧ p.tags = 0 ∧ !p.rtag then (p, .stop)
  else if t = 0x88E5 then (if win < off + (if bitOf (beAt b off 1) 5 then 14 else 6) then { p with err := 9 } else { p with macsec := true }, .stop)
  else if t = 0x0800 then (p, .ip4 off)
  else if t = 0x86DD then (p, .ip6 off)
  else if t = 0x88F7 then (if win < off + 34 then { p with err := 9 } else { p with ptp := true }, .stop)
  else if t = 0x0806 then
    if b.length < off + 28 ∨ beAt b off 2 ≠ 1 ∨ beAt b (off + 2) 2 ≠ 0x0800 ∨ beAt b (off + 4) 2 ≠ 0x0604 then s.enterCustom b win 0 t off p
    else if win < off + 28 then ({ p with err := 9 }, .stop)
    else ({ p with l3 := 3, src := beAt b (off + 14) 4, dst := beAt b (off + 24) 4, arpOp := beAt b (off + 6) 2, l3At := some off }, .stop)
  else s.enterCustom b win 0 t off p

/-- Ethernet, tags, R-TAG and EtherType; a header that the window cuts off leaves its fields 0 (R247). -/
def State.parseL2 (s : State) (b : Bytes) (win : Nat) (p : Parsed) : Parsed × Step3 :=
  if win < 14 then ({ p with err := 9 }, .stop)
  else
    let (p, off) := s.parseTags b win 3 12 { p with dmac := sliceB b 0 6, smac := sliceB b 6 6, l2At := some 0 }
    let r := beAt b off 2 == 0xF1C1
    if p.err ≠ 0 then (p, .stop)
    else if r ∧ win < off + 8 then ({ p with err := 9 }, .stop)
    else
      let (p, off) := if r then ({ p with rtag := true }, off + 6) else (p, off)
      let t := beAt b off 2
      s.byEtype b win t (off + 2) { p with etype := t, l2end := off + 2 }

/-! ### IP (R243, R247) -/

/-- The IPv4 header's checksum holds. -/
def ip4SumOk (h : Bytes) : Bool := onesSum h 0 == 0xFFFF

def ip4Len (b : Bytes) (o : Nat) : Nat := beAt b o 1 % 16 * 4

/-- An IPv4 header. -/
def parseIp4 (b : Bytes) (win o : Nat) (p : Parsed) : Parsed × Step3 :=
  let e := need b win o 20 2
  let hl := ip4Len b o
  let tot := beAt b (o + 2) 2
  if e ≠ 0 then ({ p with err := e }, .stop)
  else if beAt b o 1 / 16 ≠ 4 ∨ hl < 20 ∨ tot < hl ∨ b.length < o + tot then ({ p with err := 2 }, .stop)
  else if win < o + hl then ({ p with err := 9 }, .stop)
  else if !ip4SumOk (sliceB b o hl) then ({ p with err := 3 }, .stop)
  else
    let ff := beAt b (o + 6) 2
    let off := ff % 8192
    let mf := bitOf ff 13
    let proto := beAt b (o + 9) 1
    let data := tot - hl
    let fr := mf || off != 0
    if fr ∧ (65535 < off * 8 + data ∨ (mf ∧ data % 8 ≠ 0) ∨ (off = 1 ∧ proto = 6)) then ({ p with err := 6 }, .stop)
    else
      let p := { p with l3 := 1, l3At := some o, src := beAt b (o + 12) 4, dst := beAt b (o + 16) 4, proto := proto, tos := beAt b (o + 1) 1, ipOpts := p.ipOpts || hl != 20, frag := fr, first := mf && off == 0, more := mf, fragOff := off * 8, fragId := beAt b (o + 4) 2, fragData := data, ipEnd := o + tot, ip4ok := true }
      if off ≠ 0 then (p, .stop)
      else if proto = 51 then (p, .ext 51 (o + hl)) else (p, .l4 proto (o + hl))

/-- An IPv6 fixed header. -/
def parseIp6 (b : Bytes) (win o : Nat) (p : Parsed) : Parsed × Step3 :=
  let e := need b win o 40 4
  let pl := beAt b (o + 4) 2
  if e ≠ 0 then ({ p with err := e }, .stop)
  else if beAt b o 1 / 16 ≠ 6 ∨ b.length < o + 40 + pl then ({ p with err := 4 }, .stop)
  else
    let nh := beAt b (o + 6) 1
    let p := { p with l3 := 2, l3At := some o, src := beAt b (o + 8) 16, dst := beAt b (o + 24) 16, proto := nh, tos := beAt b o 2 / 16 % 256, ipEnd := o + 40 + pl }
    if nh = 0 ∨ nh = 43 ∨ nh = 44 ∨ nh = 60 ∨ nh = 51 then (p, .ext nh (o + 40)) else (p, .l4 nh (o + 40))

/-- The octets of an extension or AH header. -/
def extLen (b : Bytes) (nh o : Nat) : Nat :=
  if nh = 44 then 8 else if nh = 51 then (beAt b (o + 1) 1 + 2) * 4 else (beAt b (o + 1) 1 + 1) * 8

/-- One extension or AH header. -/
def parseExt (b : Bytes) (win nh o : Nat) (p : Parsed) : Parsed × Step3 :=
  if p.exts = 8 ∨ b.length < o + 8 ∨ b.length < o + extLen b nh o then ({ p with err := 5 }, .stop)
  else if win < o + extLen b nh o then ({ p with err := 9 }, .stop)
  else
    let n := extLen b nh o
    let nx := beAt b o 1
    let p0 := p
    let p := { p with exts := p.exts + 1, ipOpts := p.ipOpts || p.l3 == 2 || nh == 51 }
    if nh = 44 then
      let w := beAt b (o + 2) 2
      let off := w / 8
      let mf := bitOf w 0
      let data := p.ipEnd - (o + 8)
      if 65535 < off * 8 + data ∨ (mf ∧ data % 8 ≠ 0) then ({ p0 with err := 6 }, .stop)
      else
        let p := { p with frag := mf || off != 0, first := mf && off == 0, more := mf, fragOff := off * 8, fragId := beAt b (o + 4) 4, fragData := data, proto := if off = 0 then nx else 44 }
        if off ≠ 0 then (p, .stop)
        else if nx = 0 ∨ nx = 43 ∨ nx = 44 ∨ nx = 60 ∨ nx = 51 then (p, .ext nx (o + n)) else (p, .l4 nx (o + n))
    else
      let p := { p with proto := if p.l3 = 2 then nx else p.proto }
      if nx = 51 ∨ (p.l3 = 2 ∧ (nx = 0 ∨ nx = 43 ∨ nx = 44 ∨ nx = 60)) then (p, .ext nx (o + n)) else (p, .l4 nx (o + n))

/-! ### Layer 4 and tunnels (R243, R244, R247) -/

/-- A transport header. -/
def State.parseL4 (s : State) (b : Bytes) (win proto o : Nat) (p : Parsed) : Parsed × Step3 :=
  let known := proto == 1 || proto == 6 || proto == 17 || proto == 50 || proto == 58 || proto == 132
  if !known then s.enterCustom b win 1 proto o p
  else if p.first ∧ p.ipEnd < o + 8 then ({ p with err := 7 }, .stop)
  else
    let n := if proto = 6 then max 20 (beAt b (o + 12) 1 / 16 * 4) else if proto = 132 then 12 else 8
    let e := need b win o n 7
    if proto = 6 ∧ beAt b (o + 12) 1 / 16 < 5 then ({ p with err := 7 }, .stop)
    else if e ≠ 0 then ({ p with err := e }, .stop)
    else if proto = 17 ∧ (beAt b (o + 4) 2 < 8 ∨ (!p.frag ∧ p.ipEnd < o + beAt b (o + 4) 2)) then ({ p with err := 7 }, .stop)
    else
      let p := { p with l4At := some o }
      if proto = 1 ∨ proto = 58 then ({ p with icmp := beAt b o 2 }, .stop)
      else
        let p := { p with l4Valid := true, l4Src := beAt b o 2, l4Dst := beAt b (o + 2) 2 }
        if proto = 6 then ({ p with tcpFlags := beAt b (o + 13) 1 }, .stop)
        else if proto = 17 then (p, .udp (beAt b (o + 2) 2) (o + 8)) else (p, .stop)

/-- What follows UDP: PTP, a tunnel on the first pass (in no fragment, R286), or a custom node. -/
def State.parseUdp (s : State) (b : Bytes) (win pass dport o : Nat) (p : Parsed) : Parsed × Step3 :=
  if dport = 319 ∨ dport = 320 then (if win < o + 34 then { p with err := 9 } else { p with ptp := true }, .stop)
  else if pass = 0 ∧ !p.frag ∧ dport = s.cfg Fld.PRS_TUN_PORTS_VXLAN then
    let e := need b win o 8 8
    if e ≠ 0 then ({ p with err := e }, .stop)
    else if !bitOf (beAt b o 1) 3 then ({ p with err := 8 }, .stop)
    else ({ p with tunnel := 1, vni := beAt b (o + 4) 3, tunAt := some o }, .stop)
  else if pass = 0 ∧ !p.frag ∧ dport = s.cfg Fld.PRS_TUN_PORTS_GENEVE then
    let e := need b win o 8 8
    let n := 8 + beAt b o 1 % 64 * 4
    if e ≠ 0 then ({ p with err := e }, .stop)
    else if beAt b o 1 / 64 ≠ 0 ∨ b.length < o + n then ({ p with err := 8 }, .stop)
    else if win < o + n then ({ p with err := 9 }, .stop)
    else ({ p with tunnel := 2, vni := beAt b (o + 4) 3, tunAt := some o }, .stop)
  else s.enterCustom b win 2 dport o p

/-- Follow the links of the parse graph; the fuel bounds the headers. -/
def State.walk (s : State) (b : Bytes) (win pass : Nat) : Nat → Parsed × Step3 → Parsed
  | 0, (p, _) => p
  | n + 1, (p, st) =>
    if p.err ≠ 0 then p else
    match st with
    | .stop => p
    | .ip4 o => s.walk b win pass n (parseIp4 b win o p)
    | .ip6 o => s.walk b win pass n (parseIp6 b win o p)
    | .ext nh o => s.walk b win pass n (parseExt b win nh o p)
    | .l4 pr o => s.walk b win pass n (s.parseL4 b win pr o p)
    | .udp d o => s.walk b win pass n (s.parseUdp b win pass d o p)

/-- Parse a frame (without FCS) from its start; start: 0 Ethernet, 1 an IPv4 and 2 an IPv6 packet (R244). p0 carries what a
second pass keeps of the first, win what is left of the parse window. -/
def State.parse (s : State) (b : Bytes) (win pass start : Nat) (p0 : Parsed) : Parsed :=
  s.walk b win pass 32 (match start with
    | 0 => s.parseL2 b win p0
    | 1 => ({ p0 with l2end := 0 }, .ip4 0)
    | _ => ({ p0 with l2end := 0 }, .ip6 0))

/-! ### The key (R248 to R250) -/

/-- FLAGS (R249). -/
def Parsed.flags (p : Parsed) (err : Bool) : Nat :=
  p.l3 * 2 ^ 14 + p.tags * 2 ^ 12 + b2n p.tag0s * 2 ^ 11 + b2n p.frag * 2 ^ 10 + b2n p.first * 2 ^ 9 + b2n (p.l4Valid && !err) * 2 ^ 8 +
    p.tunnel * 2 ^ 6 + b2n p.ipOpts * 2 ^ 5 + b2n p.macsec * 2 ^ 4 + b2n p.rtag * 2 ^ 3 + b2n p.ptp * 2 ^ 2 + b2n p.custom * 2 + b2n err

/-- The four octets of a UDF (R245): those beyond the frame or the window read 0. -/
def State.udf (s : State) (b : Bytes) (win : Nat) (p : Parsed) (u : Nat) : Nat :=
  let anchor := match s.cfg Fld.PRS_UDF_ANCHOR u with
    | 0 => p.l2At | 1 => p.l3At | 2 => p.l4At | 3 => p.customAt | _ => p.tunAt
  match anchor with
  | some a => if s.cfg Fld.PRS_UDF_EN u = 1 then beAt (b.take win) (a + s.cfg Fld.PRS_UDF_OFFSET u) 4 else 0
  | none => 0

/-- The L3 field (R250). -/
def State.keyL3 (s : State) (b : Bytes) (win : Nat) (p : Parsed) : Nat :=
  if p.l3 = 2 then p.src * 2 ^ 128 + p.dst
  else p.src * 2 ^ 224 + p.dst * 2 ^ 192 + p.vni * 2 ^ 168 + p.tcpFlags * 2 ^ 160 + p.icmp * 2 ^ 144 + p.arpOp * 2 ^ 128 +
    s.udf b win p 3 * 2 ^ 96 + s.udf b win p 2 * 2 ^ 64 + s.udf b win p 1 * 2 ^ 32 + s.udf b win p 0

/-- The 480-bit key. -/
def State.key (s : State) (b : Bytes) (win pass srcKind srcIdx : Nat) (p : Parsed) (err : Bool) : Nat :=
  srcKind * 2 ^ 478 + srcIdx * 2 ^ 465 + pass * 2 ^ 464 + p.flags err * 2 ^ 448 + beNat p.dmac * 2 ^ 400 + beNat p.smac * 2 ^ 352 +
    p.tag0 * 2 ^ 336 + p.tag1 * 2 ^ 320 + p.etype * 2 ^ 304 + p.proto * 2 ^ 296 + p.tos * 2 ^ 288 + p.l4Src * 2 ^ 272 +
    p.l4Dst * 2 ^ 256 + s.keyL3 b win p

end Sys2Proof.Machine
end

