-- ==== Sys2Proof/Machine/Forward.lean ====
section
/-! DEFINITION. Forwarding (chapter 10): destinations, bridge domains, the bridge address table, learning, flooding, vports, tunnel
templates, encapsulation, replication, the sweep. A frame's steps are carried out at the instant of its issue (log entry 19). -/

namespace Sys2Proof.Machine

/-! ### Tables of a hall and of the Nave -/

def State.vport (s : State) (h v : Nat) : Bytes := s.fw.vports.get (List.replicate 32 0) (h * 8192 + v)
def State.template (s : State) (h t : Nat) : Bytes := s.fw.tuns.get (List.replicate 128 0) (h * 2048 + t)
def State.domain (s : State) (i : Nat) : Bytes := s.fw.bds.get (List.replicate 32 0) i
def State.floodTarget (s : State) (i : Nat) : Nat := s.fw.floods.get 0 i

/-- FLAGS of a bridge domain (R270): VALID 0, LEARN 1, FLOOD_UU 2, VNI_VALID 3. -/
def bdFlag (e : Bytes) (i : Nat) : Bool := bitOf (leAt e 0 2) i
def bdVni (e : Bytes) : Nat := leAt e 4 4 % 2 ^ 24

/-- FLAGS of a vport (R282): VALID 0, LEARN 1, SPOOF 2. -/
def vpFlag (e : Bytes) (i : Nat) : Bool := bitOf (leAt e 0 2) i

/-! ### Destination words (R266) -/

def dstKind (d : Nat) : Nat := bitsOf d 31 28

/-- Where a destination word stands: a bridge entry, static or dynamic; a flood target; a template's EGRESS. -/
inductive DstUse where
  | bridge (static : Bool)
  | flood
  | egress
deriving DecidableEq, Repr

/-- A destination word is valid where it stands: its kind may be used there and its reserved bits are 0. -/
def dstOk (d : Nat) (u : DstUse) : Bool :=
  let k := dstKind d
  let static := u == .bridge true
  let listed := static || u == .flood
  if k = 1 then bitsOf d 27 26 != 3 && bitsOf d 25 8 == 0
  else if k = 2 then bitsOf d 27 13 == 0
  else if k = 3 then listed && bitsOf d 27 16 == 0 && d % 65536 != 0 && d % 65536 != 0xFFFF
  else if k = 4 then listed && bitsOf d 27 11 == 0
  else if k = 5 then static && bitsOf d 27 19 == 0
  else if k = 6 then static && bitsOf d 27 0 == 0
  else false

def portDst (l : Nat) : Nat := 2 ^ 28 + l
def vportDst (v : Nat) : Nat := 2 * 2 ^ 28 + v
def tunnelDst (t : Nat) : Nat := 4 * 2 ^ 28 + t

/-! ### Tags and rewrites (R269, R281) -/

/-- The frame's outermost tag, if it has one. -/
def State.tagged (s : State) (b : Bytes) : Bool := s.tagKind (beAt b 12 2) != 0

/-- How many tags a frame has, at most 2. -/
def State.tagCount (s : State) (b : Bytes) : Nat := if !s.tagged b then 0 else if s.tagKind (beAt b 16 2) = 0 then 1 else 2

/-- Remove the outer tag. -/
def State.stripTag (s : State) (b : Bytes) : Bytes := if s.tagged b then b.take 12 ++ b.drop 16 else b

/-- A tag operation: 0 keep, 1 strip the outer tag, 2 strip all tags. -/
def State.tagOp (s : State) (op : Nat) (b : Bytes) : Bytes :=
  if op = 0 then b else if op = 1 then s.stripTag b else s.stripTag (s.stripTag b)

/-- Rewrite or insert the outer VID; a frame with no tag takes a C-tag with the PCP given. -/
def State.setVid (s : State) (vid pcp : Nat) (b : Bytes) : Bytes :=
  if s.tagged b then spliceB b 14 (beBytes 2 (beAt b 14 2 / 4096 * 4096 + vid))
  else b.take 12 ++ beBytes 2 0x8100 ++ beBytes 2 (pcp * 8192 + vid) ++ b.drop 12

/-- Rewrite the outer tag's PCP. -/
def State.setPcp (s : State) (pcp : Nat) (b : Bytes) : Bytes :=
  if s.tagged b then spliceB b 14 (beBytes 2 (beAt b 14 2 % 8192 + pcp * 8192)) else b

/-- The IPv4 header checksum, computed over a header whose checksum field is taken as 0. -/
def ip4Sum (h : Bytes) : Nat := 0xFFFF - onesSum (spliceB h 10 [0, 0]) 0

/-- Write an IPv4 header's checksum. -/
def fixIp4 (b : Bytes) (o : Nat) : Bytes := spliceB b (o + 10) (beBytes 2 (ip4Sum (sliceB b o (ip4Len b o))))

/-- Rewrite DSCP. -/
def setDscp (p : Parsed) (v : Nat) (b : Bytes) : Bytes :=
  match p.l3, p.l3At with
  | 1, some o => fixIp4 (spliceB b (o + 1) (beBytes 1 (v * 4 + beAt b (o + 1) 1 % 4))) o
  | 2, some o => spliceB b o (beBytes 2 (beAt b o 2 / 4096 * 4096 + v * 64 + beAt b o 2 % 64))
  | _, _ => b

/-- VID_SET: a frame with 2 tags goes on with them unchanged (R269). -/
def State.vidSet (s : State) (vid pcp : Nat) (b : Bytes) : Bytes := if s.tagCount b = 2 then b else s.setVid vid pcp b

/-- The rewrites of step 5: PCP, DSCP, VID. -/
def State.rewrite (s : State) (a : Nat) (p : Parsed) (b : Bytes) : Bytes :=
  let b := if bitOf a 111 then setDscp p (bitsOf a 109 104) b else b
  let b := if bitOf a 115 then s.setPcp (bitsOf a 114 112) b else b
  if bitOf a 71 then s.vidSet (bitsOf a 67 56) (if bitOf a 115 then bitsOf a 114 112 else 0) b else b

/-! ### The end of a frame -/

/-- A frame or its last copy ends inside the hall: what it held is released and its send descriptor ends. -/
def State.endFrame (s : State) (f : PFrame) : State := s.dropFrame { octets := [], tstamp := false, drops := f.drops, send := f.send }

/-! ### Deliveries (R267, R281, R282, R433) -/

/-- A copy is dropped for want of a lit port or of room on the way to one (R267). -/
def State.egressDrop (s : State) (h : Nat) (f : PFrame) : State :=
  ((s.bump Fld.FWD_CNT_EGRESS_DROP_COUNT h).raise Fld.FWD_STATUS_EGRESS_DROP h).endFrame f

/-- Octets staged in a hall for an endpoint (R267). -/
def State.stagedFor (s : State) (h e : Nat) : Nat :=
  (s.stageq.get [] h).foldl (fun n (r : StageRec) => if r.endp = e then n + recordSize r.frame.octets.length else n) 0

/-- A copy goes to a port: to its open queue in its own hall, or to the staging queue for its hall's lane buffers. -/
def State.toPort (s : State) (h l cls : Nat) (f : PFrame) (b : Bytes) : State :=
  let t : TxFrame := { octets := b, tstamp := false, drops := f.drops, send := f.send }
  if !s.isPort l then s.egressDrop h f
  else match s.bayOwner (l / 8) with
    | none => s.egressDrop h f
    | some o =>
      if o = h then s.openEnqueue l t
      else match s.logicalOf o with
        | none => s.egressDrop h f
        | some lg =>
          if 65536 < s.stagedFor h (0x10 + lg) + recordSize b.length then s.egressDrop h f
          else { s with stageq := s.stageq.put h (s.stageq.get [] h ++ [{ endp := 0x10 + lg, addr := l, cls := cls, frame := t }]) }

/-- A copy goes to a vport's receive queue (R282, R433, R369). -/
def State.toVport (s : State) (h v cls : Nat) (f : PFrame) (b : Bytes) : State :=
  let e := s.vport h v
  let fn := leAt e 2 2 % 8192
  match (if vpFlag e 0 then s.resolve 1 (leAt e 4 4) else none) with
  | none => (s.bump Fld.FWD_CNT_VPORT_DROP_COUNT h).endFrame f
  | some k =>
    let q := s.queue k
    if !q.present ∨ !q.isRq ∨ q.fn ≠ fn then (s.bump Fld.FWD_CNT_VPORT_DROP_COUNT h).endFrame f
    else
      let b := s.tagOp (bitsOf (leAt e 0 2) 4 3) b
      (s.offer h { queue := k, buffer := none, data := b, len := b.length, mark := f.mark, low := cls * 2 ^ 27 + f.low, stamp := f.stamp }).endFrame f

/-- A copy goes to a PORT, VPORT or STATION destination. -/
def State.toPlain (s : State) (h d cls : Nat) (f : PFrame) (b : Bytes) : State :=
  match dstKind d with
  | 1 => s.toPort h (d % 256) cls f (s.tagOp (bitsOf d 27 26) b)
  | 2 => s.toVport h (d % 8192) cls f b
  | 3 =>
    let e := s.station h (d % 65536)
    if !stnValid e then (s.bump Fld.FWD_CNT_STATION_MISS_COUNT h).endFrame f
    else s.toPort h (stnLane e) cls f (if stnTagged e then s.setVid (stnTci e % 4096) 0 b else b)
  | _ => s.endFrame f

/-! ### Encapsulation (R283 to R287) -/

/-- The header of a template. -/
def tunHeader (t : Bytes) : Bytes := sliceB t 16 (leAt t 1 1)
def tunKind (t : Bytes) : Nat := leAt t 0 1
def tunT (t : Bytes) : Nat := b2n (bitOf (leAt t 2 1) 0)

/-- The VNI of an encapsulation, where there is one. -/
def State.encapVni (s : State) (t : Bytes) (bd : Option Nat) : Option Nat :=
  if !bitOf (leAt t 2 1) 1 then some (leAt t 4 4 % 2 ^ 24)
  else match bd with
    | some i => if bdFlag (s.domain i) 3 then some (bdVni (s.domain i)) else none
    | none => none

/-- The UDP checksum over IPv6: pseudo-header and datagram. -/
def udp6Sum (src dst dgram : Bytes) : Nat :=
  let v := 0xFFFF - onesSum (src ++ dst ++ beBytes 4 dgram.length ++ [0, 0, 0, 17] ++ dgram) 0
  if v = 0 then 0xFFFF else v

/-- The patched outer frame of a VXLAN or Geneve encapsulation. -/
def tunFrame (t : Bytes) (vni hash : Nat) (inner : Bytes) : Bytes :=
  let hd := tunHeader t
  let l2 := 14 + 4 * tunT t
  let v6 := tunKind t == 2 || tunKind t == 4
  let iph := if v6 then 40 else 20
  let u := l2 + iph
  let n := inner.length
  let hd := if v6 then spliceB hd (l2 + 4) (beBytes 2 (hd.length - l2 - 40 + n))
    else spliceB (spliceB hd (l2 + 2) (beBytes 2 (hd.length - l2 + n))) (l2 + 4) [0, 0]
  let hd := spliceB hd u (beBytes 2 (0xC000 + hash % 0x4000))
  let hd := spliceB hd (u + 4) (beBytes 2 (hd.length - l2 - iph + n) ++ [0, 0])
  let hd := spliceB hd (u + 12) (beBytes 3 vni)
  let b := hd ++ inner
  if v6 then spliceB b (u + 6) (beBytes 2 (udp6Sum (sliceB b (l2 + 8) 16) (sliceB b (l2 + 24) 16) (b.drop u))) else fixIp4 b l2

/-- The outer frame of an encapsulation, or the state in which its copy has been dropped. -/
def State.encap (s : State) (h : Nat) (t : Bytes) (f : PFrame) : State ⊕ Bytes :=
  let b := f.octets
  let k := tunKind t
  if k = 0 then .inl (((s.bump Fld.TUN_CNT_TEMPLATE_INVALID_COUNT h).raise Fld.TUN_STATUS_TEMPLATE_INVALID h).endFrame f)
  else if (k = 5 ∧ 2 ≤ s.tagCount b) ∨ (k = 6 ∧ 1 ≤ s.tagCount b) then .inl ((s.bump Fld.TUN_CNT_TAG_DEPTH_COUNT h).endFrame f)
  else match (if k = 5 ∨ k = 6 then some (b.take 12 ++ tunHeader t ++ b.drop 12) else (s.encapVni t f.bd).map (fun v => tunFrame t v f.hash b)) with
    | none => .inl ((s.bump Fld.TUN_CNT_NO_VNI_COUNT h).endFrame f)
    | some o =>
      let mtu := if leAt t 12 2 = 0 then 9216 else leAt t 12 2
      if mtu < o.length + 4 then .inl (((s.bump Fld.TUN_CNT_MTU_COUNT h).raise Fld.TUN_STATUS_MTU h).endFrame f)
      else .inr o

/-- A copy goes to any destination but a list. -/
def State.copyTo (s : State) (h d cls : Nat) (f : PFrame) : State :=
  if dstKind d = 4 then
    let t := s.template h (d % 2048)
    match s.encap h t f with
    | .inl s => s
    | .inr o => (s.bump Fld.TUN_CNT_ENCAP_COUNT h).toPlain h (leAt t 8 4) cls f o
  else s.toPlain h d cls f f.octets

/-! ### The bridge address table (R272 to R275) -/

def bridgeKey (bd : Nat) (mac : Bytes) : Bytes := beBytes 2 bd ++ sliceB mac 0 6

/-- The 8 candidate indices of a key: bank 0, then bank 1. -/
def probes (bd : Nat) (mac : Bytes) : List Nat × List Nat :=
  let c := crc32c (bridgeKey bd mac)
  ((List.range 4).map (fun w => c % 0x8000 * 4 + w), (List.range 4).map (fun w => 131072 + c / 65536 % 0x8000 * 4 + w))

def State.bridgeAt (s : State) (h x : Nat) : Option Bridge := look s.fw.bridge (h * 2 ^ 18 + x)

/-- Write or free an entry; FWD_ENTRIES counts the VALID ones. -/
def State.setBridge (s : State) (h x : Nat) (b : Bridge) : State :=
  let new := (s.bridgeAt h x).isNone
  let s := { s with fw := { s.fw with bridge := s.fw.bridge.put (h * 2 ^ 18 + x) b } }
  if new then s.setFld Fld.FWD_ENTRIES_COUNT (s.fld Fld.FWD_ENTRIES_COUNT h + 1) h else s
def State.freeBridge (s : State) (h x : Nat) : State :=
  if (s.bridgeAt h x).isNone then s
  else
    let s := { s with fw := { s.fw with bridge := s.fw.bridge.del (h * 2 ^ 18 + x) } }
    s.setFld Fld.FWD_ENTRIES_COUNT (s.fld Fld.FWD_ENTRIES_COUNT h - 1) h

/-- The index that holds a key. -/
def State.bridgeFind (s : State) (h bd : Nat) (mac : Bytes) : Option Nat :=
  let (a, b) := probes bd mac
  (a ++ b).find? (fun x => match s.bridgeAt h x with | some e => e.bd == bd && e.mac == mac | none => false)

/-- The way that an insert of an absent key takes (R275): the set with more free ways, bank 0 on a tie, the lowest way. -/
def State.bridgeRoom (s : State) (h bd : Nat) (mac : Bytes) : Option Nat :=
  let (a, b) := probes bd mac
  let fa := a.filter (fun x => (s.bridgeAt h x).isNone)
  let fb := b.filter (fun x => (s.bridgeAt h x).isNone)
  if fa.length < fb.length then fb.head? else fa.head?

def Bridge.static (b : Bridge) : Bool := bitOf b.state 30
def Bridge.unstable (b : Bridge) : Bool := bitOf b.state 29
def Bridge.moves (b : Bridge) : Nat := bitsOf b.state 27 24
def Bridge.seen (b : Bridge) : Nat := bitsOf b.state 23 12
def Bridge.mstamp (b : Bridge) : Nat := bitsOf b.state 11 0

/-- An instant in seconds and in milliseconds of Device Time, modulo 4,096. -/
def sec12At (t : Nat) : Nat := secsOf t % 4096
def ms12At (t : Nat) : Nat := t / (1000000 * nsTicks) % 4096
def State.sec12 (s : State) : Nat := sec12At s.now
def State.ms12 (s : State) : Nat := ms12At s.now

/-- now minus a stamp, modulo 4,096. -/
def since12 (now stamp : Nat) : Nat := (now + 4096 - stamp % 4096) % 4096

/-- Free the entries that an uncorrectable error was found in (R505). -/
def State.bridgeEcc (s : State) (h : Nat) (xs : List Nat) : State :=
  xs.foldl (fun (s : State) x =>
    match s.bridgeAt h x with
    | none => s
    | some e => ((s.freeBridge h x).bump Fld.FWD_CNT_ECC_COUNT h).almHall 0x0703 h (leBytes 4 x ++ leBytes 1 (b2n e.static))) s

/-! ### Learning (R277, R278) -/

/-- A move: it opens a window of 100 ms or counts in one; the ninth freezes the entry. -/
def State.bridgeMove (s : State) (h x : Nat) (e : Bridge) (d t : Nat) : State :=
  let inWin := decide (e.moves > 0) && decide (since12 (ms12At t) e.mstamp < 100)
  let m := if inWin then e.moves + 1 else 1
  let st := putBits (if inWin then e.state else putBits e.state 11 0 (ms12At t)) 27 24 m
  let s := s.bump Fld.FWD_CNT_MOVES_COUNT h
  if m = 9 then
    let s := s.setBridge h x { e with dest := d, state := putBits (putBits st 29 29 1) 11 0 (ms12At t) }
    let s := (s.raise Fld.FWD_STATUS_UNSTABLE h).setFld Fld.FWD_UNSTABLE_INFO_INDEX x h
    (s.setFld Fld.FWD_UNSTABLE_INFO_VALID 1 h).almHall 0x0701 h (leBytes 4 x ++ leBytes 2 e.bd ++ sliceB e.mac 0 6)
  else s.setBridge h x { e with dest := d, state := st }

/-- One frame's source is learned at an instant. -/
def State.learn (s : State) (h bd : Nat) (mac : Bytes) (d t : Nat) : State :=
  match s.bridgeFind h bd mac with
  | none =>
    (match s.bridgeRoom h bd mac with
    | none => (s.raise Fld.FWD_STATUS_LEARN_FULL h).bump Fld.FWD_CNT_LEARN_FULL_COUNT h
    | some x => (s.setBridge h x { bd := bd, mac := mac, dest := d, state := 2 ^ 31 + sec12At t * 4096 + ms12At t }).bump Fld.FWD_CNT_LEARN_COUNT h)
  | some x =>
    match s.bridgeAt h x with
    | none => s
    | some e =>
      if e.static then (if e.dest = d then s else s.bump Fld.FWD_CNT_STATIC_MOVE_COUNT h)
      else
        let e := { e with state := putBits e.state 23 12 (sec12At t) }
        let s := s.setBridge h x e
        if e.dest = d then s
        else if e.unstable then s.bump Fld.FWD_CNT_MOVE_FROZEN_COUNT h
        else s.bridgeMove h x e d t

/-- Learning writes that are due in a hall take effect, in the order of their frames: those before an instant (R268, R278). -/
def State.learnsBefore (s : State) (h t : Nat) : State :=
  let due := fun (e : Learning) => e.hall == h && decide (e.due < t)
  (s.fw.learns.filter due).foldl (fun (s : State) e => s.learn h e.bd e.mac e.dest e.due) { s with fw := { s.fw with learns := s.fw.learns.filter (fun e => !due e) } }

/-- The source kind of a frame before any decryption. -/
def PFrame.kind (f : PFrame) : Nat := if f.srcKind = 3 then f.orig else f.srcKind

/-- The destination that a frame's source stands for. -/
def PFrame.source (f : PFrame) : Option Nat :=
  if f.kind = 0 then some (portDst f.srcIdx) else if f.kind = 2 then some (vportDst f.srcIdx) else none

/-- Step 3: a BRIDGE frame at PASS 0 learns its source, 2 clocks after its lookup (R268). -/
def State.learnStep (s : State) (h : Nat) (f : PFrame) (a bd : Nat) (smac : Bytes) : State :=
  match f.source with
  | none => s
  | some d =>
    if s.cfg Fld.FWD_CFG_LEARN = 1 ∧ bdFlag (s.domain bd) 1 ∧ !bitOf a 121 ∧ !f.decap ∧ !bitOf (beAt smac 0 1) 0 ∧ beNat smac ≠ 0 ∧
        (f.kind ≠ 2 ∨ vpFlag (s.vport h f.srcIdx) 1) then
      { s with fw := { s.fw with learns := s.fw.learns ++ [{ hall := h, due := clockAt s.now 2 (s.clocks h), bd := bd, mac := smac, dest := d }] } }
    else s

/-! ### Flooding (R280) -/

/-- A destination resolves to the frame's own source. -/
def State.isSource (s : State) (h : Nat) (f : PFrame) (d : Nat) : Bool :=
  match dstKind d with
  | 1 => f.kind == 0 && d % 256 == f.srcIdx
  | 2 => f.kind == 2 && d % 8192 == f.srcIdx
  | 3 => f.kind == 0 && stnValid (s.station h (d % 65536)) && stnLane (s.station h (d % 65536)) == f.srcIdx
  | _ => false

/-- A frame goes to a list of flood targets: counted against the flight's cap, then taken by the replication unit, which holds
64 frames that wait behind the one it copies. The frame's buffer then carries a reference for each of its copies (R331). -/
def State.flood (s : State) (h first count : Nat) (f : PFrame) : State :=
  let cap := match s.logicalOf h with
    | some l => Plan.floodCap s.pln.active l
    | none => 0
  let used := s.fld Fld.FWD_FLOOD_USED_COUNT h
  if cap ≠ 0 ∧ cap ≤ used then ((s.bump Fld.FWD_CNT_FLOOD_CAP_COUNT h).raise Fld.FWD_STATUS_FLOOD_CAP h).endFrame f
  else
    let s := (s.bump Fld.FWD_FLOOD_USED_COUNT h).bump Fld.FWD_CNT_FLOODED_COUNT h
    let q := s.fw.repl.get [] h
    if 65 ≤ q.length then (s.bump Fld.FWD_CNT_REPL_DROP_COUNT h).endFrame f
    else
      let ds := ((List.range count).map (fun i => s.floodTarget (first + i))).filter (fun d => !(s.isSource h f d || (f.decap && dstKind d == 4)))
      if ds = [] then s.endFrame f
      else
        let (s, held) := f.drops.foldl (fun (x : State × List Nat) id => let (s, r) := x.1.addRefs id (ds.length - 1) none; (s, if r.isNone then x.2 ++ [id] else x.2)) (s, [])
        { s with fw := { s.fw with repl := s.fw.repl.put h (q ++ [{ frame := f, dests := ds, shared := held }]) } }

/-- The class of an ordinary copy is its action's: low carries it above bit 27 while the frame waits. -/
def PFrame.cls (f : PFrame) : Nat := f.low / 2 ^ 27
def PFrame.plain (f : PFrame) : PFrame := { f with low := f.low % 2 ^ 27 }

/-- What a waiting frame's copies hold between them. -/
def ReplJob.tx (j : ReplJob) : TxFrame :=
  { octets := [], tstamp := false, drops := j.frame.drops ++ (List.replicate (j.dests.length - 1) j.shared).flatten, send := j.frame.send }

/-- REPLICATE_COPY (R280): one copy of the frame that the unit is serving, which holds one of the references to the frame's buffer. -/
def execReplicateCopy (h : Nat) (s : State) : Answer :=
  match s.fw.repl.get [] h with
  | [] => .next s
  | j :: t =>
    match j.dests with
    | [] => .next { s with fw := { s.fw with repl := s.fw.repl.put h t } }
    | d :: ds =>
      let f := j.frame
      if ds = [] then .next ({ s with fw := { s.fw with repl := s.fw.repl.put h t } }.copyTo h d f.cls f.plain)
      else
        let s := { s with fw := { s.fw with repl := s.fw.repl.put h ({ j with dests := ds } :: t) } }
        .next (s.copyTo h d f.cls { f.plain with send := none, drops := j.shared })

/-! ### The steps of R268 -/

/-- Step 1: the bridge domain that a TARGET names. -/
def State.bdOf (s : State) (h target pass vni : Nat) : State ⊕ Nat :=
  if target < 4096 ∧ bdFlag (s.domain target) 0 then .inr target
  else if target = 0xFFFF ∧ pass = 1 then
    match s.fw.bds.find? (fun e => bdFlag e.2 0 && bdFlag e.2 3 && bdVni e.2 == vni) with
    | some e => .inr e.1
    | none => .inl ((s.bump Fld.TUN_CNT_VNI_MISS_COUNT h).raise Fld.TUN_STATUS_VNI_MISS h)
  else .inl (s.bump Fld.FWD_CNT_BD_INVALID_COUNT h)

/-- Step 2: the source vport is valid and its SMAC is right; the state in which the frame has been dropped otherwise. -/
def State.spoofCheck (s : State) (h : Nat) (f : PFrame) : Option State :=
  if f.kind ≠ 2 then none
  else
    let e := s.vport h f.srcIdx
    if !vpFlag e 0 then some ((s.bump Fld.FWD_CNT_VPORT_DROP_COUNT h).endFrame f)
    else if vpFlag e 2 ∧ sliceB f.octets 6 6 ≠ sliceB e 8 6 then some (((s.bump Fld.FWD_CNT_SPOOF_COUNT h).raise Fld.FWD_STATUS_SPOOF h).endFrame f)
    else none

/-- Step 4 for BRIDGE, and what follows it (R279). -/
def State.bridgeTo (s : State) (h bd cls : Nat) (dmac : Bytes) (f : PFrame) : State :=
  let e := s.domain bd
  let group := bitOf (beAt dmac 0 1) 0
  let hit := match s.bridgeFind h bd dmac with | some x => s.bridgeAt h x | none => none
  match hit with
  | some b =>
    let s := if dstKind b.dest = 6 then s else s.bump Fld.FWD_CNT_HIT_COUNT h
    if !group ∧ s.isSource h f b.dest then (s.bump Fld.FWD_CNT_HAIRPIN_COUNT h).endFrame f
    else if dstKind b.dest = 5 then s.flood h (b.dest % 2048) (bitsOf b.dest 18 11 + 1) { f with low := cls * 2 ^ 27 + f.low }
    else s.copyTo h b.dest cls f
  | none =>
    let first := if group then leAt e 12 2 % 2048 else leAt e 8 2 % 2048
    let count := if group then leAt e 14 2 else leAt e 10 2
    if count = 0 ∨ (!group ∧ !bdFlag e 2) then (s.bump Fld.FWD_CNT_UNKNOWN_COUNT h).endFrame f
    else s.flood h first count { f with low := cls * 2 ^ 27 + f.low }

/-- A BRIDGE or DIRECT action is carried out (R268), on the table as the learning writes of earlier clocks left it. p is the frame's parse in its last pass; noL2 the EtherType of an inner packet
that has no Ethernet header, with the outer DMAC and SMAC (R288). -/
def State.forward (s : State) (h : Nat) (f : PFrame) (p : Parsed) (a pass : Nat) (noL2 : Option (Nat × Bytes)) : State :=
  let cls := bitsOf a 118 116
  let target := bitsOf a 87 72
  let bridge := bitsOf a 127 124 == 1
  let s := s.learnsBefore h s.now
  match noL2, bridge with
  | some _, true => (s.bump Fld.TUN_CNT_NO_L2_COUNT h).endFrame f
  | _, _ =>
    let f := match noL2 with
      | some (t, macs) => { f with octets := macs ++ beBytes 2 t ++ f.octets }
      | none => f
    let p := if noL2.isSome then { p with l3At := p.l3At.map (· + 14) } else p
    match (if bridge then s.bdOf h target pass p.vni else .inr 0) with
    | .inl s => s.endFrame f
    | .inr bd =>
      match s.spoofCheck h f with
      | some s => s
      | none =>
        let f := { f with bd := if bridge then some bd else none }
        let s := if bridge ∧ pass = 0 then s.learnStep h f a bd (sliceB f.octets 6 6) else s
        let s := s.bump Fld.FWD_CNT_LOOKUP_COUNT h
        let dmac := sliceB f.octets 0 6
        let g := { f with octets := s.rewrite a p f.octets }
        if bitOf a 55 then s.copyTo h (tunnelDst (bitsOf a 54 44)) cls g
        else if bridge then s.bridgeTo h bd cls dmac g
        else s.copyTo h (if bitOf target 15 then portDst (target % 256) else vportDst (target % 8192)) cls g

/-! ### The sweep (R276) -/

/-- What a sweep visit does to one dynamic entry. -/
def State.sweepEntry (s : State) (h x : Nat) (renew : Bool) : State :=
  match s.bridgeAt h x with
  | none => s
  | some e =>
    if e.static then s
    else if renew then s.setBridge h x { e with state := putBits (putBits (putBits e.state 23 12 s.sec12) 29 29 0) 27 24 0 }
    else if s.cfg Fld.FWD_CFG_AGE_S ≠ 0 ∧ s.cfg Fld.FWD_CFG_AGE_S ≤ since12 s.sec12 e.seen then
      (s.freeBridge h x).bump Fld.FWD_CNT_AGED_COUNT h
    else
      let d := since12 s.ms12 e.mstamp
      if e.unstable ∧ 1000 ≤ d then s.setBridge h x { e with state := putBits (putBits e.state 29 29 0) 27 24 0 }
      else if !e.unstable ∧ e.moves > 0 ∧ 100 ≤ d then s.setBridge h x { e with state := putBits e.state 27 24 0 }
      else s

/-- The hall's memories are powered and its tables kept (R276): it is at F0 or F1. -/
def State.sweeps (s : State) (h : Nat) : Bool := decide (h < 18) && decide (s.fld Fld.CALM_HALL_STATE_FROST 0 h ≤ 1)

/-- BRIDGE_SWEEP_VISIT (R276, R290): one set of each bank, after a learning write of the same clock. -/
def execBridgeSweepVisit (h set at_ : Nat) (s : State) : Answer :=
  let s := s.atTime at_
  if !s.sweeps h ∨ 32768 ≤ set then .next s
  else
    let s := s.learnsBefore h (s.now + 1)
    let left := s.fw.renew.get 0 h
    let s := if left = 0 then s else { s with fw := { s.fw with renew := if left = 1 then s.fw.renew.del h else s.fw.renew.put h (left - 1) } }
    .next (((List.range 4).map (· + 4 * set) ++ (List.range 4).map (· + 131072 + 4 * set)).foldl (fun (s : State) x => s.sweepEntry h x (left != 0)) s)

end Sys2Proof.Machine
end

