-- ==== Sys2Proof/Machine/Classify.lean ====
section
/-! DEFINITION. Classification (chapter 9): TCAM matching, the miss actions, the fragment table, verdicts, decapsulation; the
storage match of R453; the inline queue of R311. What a pipeline issue does, whatever window it came from. -/

namespace Sys2Proof.Machine

/-- A frame that a window issues: octets without FCS; its source (R239), the source kind before decryption and the slot that
decrypted it; its arrival stamp; whether management firmware accepts it as a PTP message (R231); whether it was read from
poisoned memory; the function's send descriptor and buffers; the bridge entries that an uncorrectable error was found in. -/
structure Issue where
  octets : Bytes
  srcKind : Nat
  srcIdx : Nat
  orig : Nat
  rxKey : Option Nat
  stamp : Nat
  ptp : Bool
  send : Option SendRef
  drops : List Nat
  ecc : List Nat
deriving DecidableEq, Repr

def Issue.end_ (s : State) (w : Issue) : State := s.dropFrame { octets := [], tstamp := false, drops := w.drops, send := w.send }

/-! ### The TCAM (R251, R252, R255) -/

def tcamKey (e : Bytes) : Nat := leAt e 0 60
def tcamMask (e : Bytes) : Nat := leAt e 0x40 60
def tcamAction (e : Bytes) : Nat := leAt e 0x80 16
def tcamValid (e : Bytes) : Bool := bitOf (leAt e 0x90 1) 0

/-- The action of the lowest-indexed matching entry of a hall. -/
def State.tcamHit (s : State) (h key : Nat) : Option Nat :=
  (s.fw.tcam.find? (fun e => e.1 / 16384 == h && tcamValid e.2 && Nat.land key (tcamMask e.2) == tcamKey e.2)).map (fun e => tcamAction e.2)

/-- The miss action for k = 4 × PASS + SRC_KIND. -/
def State.missAction (s : State) (k : Nat) : Nat :=
  s.cfg Fld.CLS_MISS_W0_ACTION k + 2 ^ 32 * s.cfg Fld.CLS_MISS_W1_ACTION k + 2 ^ 64 * s.cfg Fld.CLS_MISS_W2_ACTION k + 2 ^ 96 * s.cfg Fld.CLS_MISS_W3_ACTION k

/-- One TCAM lookup: a reserved verdict of a miss register is carried out as DROP (R254). -/
def State.tcamLookup (s : State) (h key k : Nat) : State × Nat :=
  let s := s.bump Fld.CLS_CNT_LOOKUP_COUNT h
  match s.tcamHit h key with
  | some a => (s, a)
  | none =>
    let s := s.bump Fld.CLS_CNT_MISS_COUNT h
    let a := s.missAction k
    if 6 ≤ bitsOf a 127 124 then ((s.raise Fld.CLS_STATUS_BAD_ACTION h).bump Fld.CLS_CNT_BAD_ACTION_COUNT h, putBits a 127 124 0) else (s, a)

/-- COUNT: the frame adds to its action's counter. -/
def State.countFrame (s : State) (h a octets : Nat) : State :=
  if !bitOf a 122 then s
  else
    let k := h * 16384 + bitsOf a 101 88
    let (f, b) := s.fw.counters.get (0, 0) k
    { s with fw := { s.fw with counters := s.fw.counters.put k ((f + 1) % 2 ^ 64, (b + octets) % 2 ^ 64) } }

/-! ### The fragment table (R261 to R264) -/

/-- The fragment key, in wire order. -/
def Parsed.fragKey (p : Parsed) : Bytes :=
  if p.l3 = 2 then beBytes 16 p.src ++ beBytes 16 p.dst ++ beBytes 4 p.fragId
  else beBytes 4 p.src ++ beBytes 4 p.dst ++ beBytes 1 p.proto ++ beBytes 2 p.fragId

/-- The 4 places of a key in a hall's table. -/
def fragPlaces (h : Nat) (key : Bytes) : List Nat := (List.range 4).map (fun w => h * 4096 + crc32c key % 1024 * 4 + w)

def State.fragAt (s : State) (x : Nat) : Option FragEntry := look s.fw.frags x

/-- An entry is live until its EXPIRY has passed. -/
def FragEntry.live (e : FragEntry) (now : Nat) : Bool := decide (now ≤ e.expiry)

/-- The place of a live entry with a key. -/
def State.fragFind (s : State) (h : Nat) (key : Bytes) : Option Nat :=
  (fragPlaces h key).find? (fun x => match s.fragAt x with | some e => e.live s.now && e.key == key | none => false)

/-- FRG_STATUS.IN_USE: the entries of a hall not yet freed. -/
def State.showFrags (s : State) (h : Nat) : State :=
  s.setFld Fld.FRG_STATUS_IN_USE (s.fw.frags.filter (fun (e : Nat × FragEntry) => e.1 / 4096 == h)).length h

def State.putFrag (s : State) (h x : Nat) (e : FragEntry) : State := { s with fw := { s.fw with frags := s.fw.frags.put x e } }.showFrags h
def State.freeFrag (s : State) (h x : Nat) : State := { s with fw := { s.fw with frags := s.fw.frags.del x } }.showFrags h

/-- The instant at which an entry touched now expires. -/
def State.fragExpiry (s : State) : Nat := s.now + s.cfg Fld.FRG_CFG_AGE_US * 1000 * nsTicks

/-- A fragment's data is added to an entry, which is freed once SUM equals END. -/
def State.fragAdd (s : State) (h x : Nat) (e : FragEntry) (p : Parsed) : State :=
  let e := { e with sum := e.sum + p.fragData, end_ := if p.more then e.end_ else some (p.fragOff + p.fragData), expiry := s.fragExpiry }
  if e.end_ = some e.sum then (s.freeFrag h x).bump Fld.FRG_CNT_FREED_COUNT h else s.putFrag h x e

/-- A first fragment installs or refreshes an entry (R262). A place whose entry has expired counts as free. -/
def State.fragInstall (s : State) (h : Nat) (p : Parsed) (a : Nat) : State :=
  if !p.first ∨ s.cfg Fld.FRG_CFG_EN = 0 ∨ !bitOf a 120 then s
  else
    let key := p.fragKey
    match s.fragFind h key with
    | some x => (match s.fragAt x with | some e => s.fragAdd h x e p | none => s)
    | none =>
      match (fragPlaces h key).find? (fun x => match s.fragAt x with | some e => !e.live s.now | none => true) with
      | none => (s.raise Fld.FRG_STATUS_FULL h).bump Fld.FRG_CNT_FULL_COUNT h
      | some x =>
        let s := if (s.fragAt x).isSome then s.bump Fld.FRG_CNT_AGED_COUNT h else s
        (s.putFrag h x { key := key, action := a, end_ := none, sum := p.fragData, expiry := s.fragExpiry }).bump Fld.FRG_CNT_INSTALL_COUNT h

/-- FRAG_ENTRY_EXPIRY (R261): the background sweep visits a set. -/
def execFragEntryExpiry (h set at_ : Nat) (s : State) : Answer :=
  let s := s.atTime at_
  if 18 ≤ h ∨ 1024 ≤ set then .next s
  else
    .next (((List.range 4).map (fun w => h * 4096 + set * 4 + w)).foldl (fun (s : State) x =>
      match s.fragAt x with
      | some e => if e.live s.now then s else (s.freeFrag h x).bump Fld.FRG_CNT_AGED_COUNT h
      | none => s) s)

/-! ### The action of one pass -/

/-- What a pass decides: an action, or the code of a TRAP that it gives itself, or a drop. -/
inductive Pass where
  | action (a : Nat)
  | trap (code : Nat)
  | drop
deriving DecidableEq, Repr

/-- Classify by the TCAM. -/
def State.byTcam (s : State) (h : Nat) (w : Issue) (b : Bytes) (win pass : Nat) (p : Parsed) (err : Bool) : State × Pass :=
  let (s, a) := s.tcamLookup h (s.key b win pass w.srcKind w.srcIdx p err) (4 * pass + w.srcKind)
  (s.fragInstall h p a, .action a)

/-- The outcome of one pass over a parsed frame (R247, R252, R263, R264). -/
def State.classify (s : State) (h : Nat) (w : Issue) (b : Bytes) (win pass : Nat) (p : Parsed) : State × Pass :=
  if p.err ≠ 0 then
    let s := s.bump Fld.PRS_CNT_ERR_COUNT h (p.err - 1)
    (match s.cfg Fld.PRS_CFG_ERR_ACT with
    | 1 => s.byTcam h w b win pass p true
    | 2 => (s, .trap (0xFF00 + p.err))
    | _ => (s, .drop))
  else if p.frag ∧ p.fragOff ≠ 0 then
    match s.fragFind h p.fragKey with
    | some x =>
      (match s.fragAt x with
      | some e => ((s.bump Fld.FRG_CNT_HIT_COUNT h).fragAdd h x e p, .action e.action)
      | none => (s, .drop))
    | none =>
      let s := s.bump Fld.FRG_CNT_MISS_COUNT h
      (match s.cfg Fld.FRG_CFG_MISS with
      | 1 => s.byTcam h w b win pass p false
      | 2 => (s, .trap 0xFF10)
      | _ => (s, .drop))
  else s.byTcam h w b win pass p false

/-! ### The storage match (R453) -/

/-- The addresses and ports of a connection are those of a received frame; the frame's source is the controller. -/
def stoMatches (r : Bytes) (p : Parsed) : Bool :=
  let v6 := bitOf (leAt r 5 1) 0
  (if v6 then p.l3 == 2 && p.src == beAt r 0x28 16 && p.dst == beAt r 0x18 16
    else p.l3 == 1 && p.src == beAt r 0x28 4 && p.dst == beAt r 0x18 4) && p.l4Src == beAt r 0x3A 2 && p.l4Dst == beAt r 0x38 2

/-- The connection of a hall that a frame belongs to. -/
def State.stoFor (s : State) (h : Nat) (p : Parsed) : Option (Nat × StoConn) :=
  if p.l3 ≠ 1 ∧ p.l3 ≠ 2 ∨ p.proto ≠ 6 ∨ !p.l4Valid ∨ p.frag ∨ p.err ≠ 0 then none
  else s.sto.conns.find? (fun e => decide (e.2.state < 4) && s.physOf (leAt e.2.record 4 1) == some h && stoMatches e.2.record p)

/-- Storage offload takes a frame of a connection, or drops it where the connection takes only frames decrypted under RX_KEY. -/
def State.stoTake (s : State) (c : Nat × StoConn) (w : Issue) (p : Parsed) : State :=
  if bitOf (leAt c.2.record 5 1) 4 ∧ w.rxKey ≠ s.resolve 4 (leAt c.2.record 0x44 4) then
    Issue.end_ ((s.bump Fld.STO_CNT_CLEAR_DROP_COUNT).raise Fld.STO_FLAGS_CLEAR_DROP) w
  else
    let o := p.l4At.getD 0
    let seg := sliceB w.octets o (p.ipEnd - o)
    Issue.end_ { s with sto := { s.sto with rx := s.sto.rx.put c.1 (s.sto.rx.get [] c.1 ++ [seg]) } } w

/-! ### Verdicts (R254) -/

/-- The frame that forwarding works on. -/
def Issue.frame (w : Issue) (b : Bytes) (p : Parsed) (a : Nat) (decap : Bool) : PFrame :=
  let sum := match p.l4At with
    | some o => 2 ^ 25 + onesSum (sliceB b o (p.ipEnd - o)) 0
    | none => 0
  let ports := if p.l4Valid ∧ p.err = 0 then beBytes 2 p.l4Src ++ beBytes 2 p.l4Dst else []
  let ip := if p.l3 = 2 then beBytes 16 p.src ++ beBytes 16 p.dst ++ beBytes 1 p.proto ++ ports
    else if p.l3 = 1 then beBytes 4 p.src ++ beBytes 4 p.dst ++ beBytes 1 p.proto ++ ports else []
  { octets := b, srcKind := w.srcKind, srcIdx := w.srcIdx, orig := w.orig, stamp := w.stamp, mark := a % 2 ^ 32,
    low := b2n p.ip4ok * 2 ^ 26 + sum, hash := crc32c (sliceB p.dmac 0 6 ++ sliceB p.smac 0 6 ++ beBytes 2 p.etype ++ ip) % 65536, bd := none,
    decap := decap, send := w.send, drops := w.drops }

/-- MIRROR (R255): a copy before any rewrite, with references of its own. -/
def State.mirror (s : State) (h a : Nat) (f : PFrame) : State :=
  if !bitOf a 123 ∨ s.cfg Fld.CLS_MIRROR_EN = 0 then s
  else
    let t := s.cfg Fld.CLS_MIRROR_TARGET
    let (s, bad) := f.drops.foldl (fun (x : State × Bool) id => let (s, r) := x.1.addRefs id 1 none; (s, x.2 || r.isSome)) (s, false)
    if bad then s
    else s.copyTo h (if bitOf t 15 then portDst (t % 256) else vportDst (t % 8192)) (bitsOf a 118 116) { f with send := none }

/-- CIPHER (R311): the frame joins the hall's inline queue of 256. -/
def State.inlineEnqueue (s : State) (h a : Nat) (w : Issue) (b : Bytes) : State :=
  let c := s.cph.get {} h
  if 256 ≤ c.inl.length then Issue.end_ (s.bump Fld.CPH_CNT_INLINE_DROP_COUNT h) w
  else
    let f : InlineFrame := { octets := b, srcKind := w.srcKind, srcIdx := w.srcIdx, orig := w.orig, cls := bitsOf a 118 116, mark := a % 2 ^ 32, target := bitsOf a 87 72, stamp := w.stamp, joined := s.now, send := w.send, drops := w.drops }
    { s with cph := s.cph.put h { c with inl := c.inl ++ [f] } }

/-- TRAP: the frame goes to the owner's exception path, with its code. -/
def State.trapFrame (s : State) (h code : Nat) (w : Issue) (b : Bytes) : State := Issue.end_ (s.emit (.trap h code b)) w

/-- A Geneve option with its critical bit among so many octets of options; the fuel bounds them. -/
def critOption (b : Bytes) : Nat → Nat → Nat → Bool
  | 0, _, _ => false
  | fuel + 1, o, stop => decide (o + 4 ≤ stop) && (bitOf (beAt b (o + 2) 1) 7 || critOption b fuel (o + 4 + beAt b (o + 3) 1 % 32 * 4) stop)

/-- What DECAP finds behind a tunnel header (R244): where the inner frame starts and how it is parsed; the EtherType of an inner
packet with no Ethernet header. -/
def decapPlan (b : Bytes) (p : Parsed) : Option (Nat × Nat × Option Nat) :=
  match p.tunnel, p.tunAt with
  | 1, some o => some (o + 8, 0, none)
  | 2, some o =>
    let e := o + 8 + beAt b o 1 % 64 * 4
    let t := beAt b (o + 2) 2
    if t = 0x6558 then some (e, 0, none) else if t = 0x0800 then some (e, 1, some t) else if t = 0x86DD then some (e, 2, some t) else none
  | _, _ => none

/-- An action at PASS 1 is carried out. -/
def State.second (s : State) (h : Nat) (w : Issue) (b : Bytes) (p : Parsed) (noL2 : Option (Nat × Bytes)) (r : Pass) : State :=
  match r with
  | .drop => Issue.end_ s w
  | .trap c => s.trapFrame h c w b
  | .action a =>
    let s := s.countFrame h a w.octets.length
    let q := match noL2 with | some (_, m) => { p with dmac := sliceB m 0 6, smac := sliceB m 6 6, etype := noL2.elim 0 (·.1) } | none => p
    let f := w.frame b q a true
    let s := s.mirror h a f
    match bitsOf a 127 124 with
    | 1 | 2 => s.forward h f p a 1 noL2
    | 3 => s.trapFrame h (bitsOf a 87 72) w b
    | 4 => Issue.end_ ((s.raise Fld.CLS_STATUS_DECAP_FAIL h).bump Fld.CLS_CNT_DECAP_FAIL_COUNT h) w
    | 5 => s.inlineEnqueue h a w b
    | _ => Issue.end_ s w

/-- DECAP (R244, R288): the outer headers go and the inner frame is parsed and matched. -/
def State.decap (s : State) (h : Nat) (w : Issue) (p : Parsed) : State :=
  let b := w.octets
  match decapPlan b p with
  | none => Issue.end_ ((s.raise Fld.CLS_STATUS_DECAP_FAIL h).bump Fld.CLS_CNT_DECAP_FAIL_COUNT h) w
  | some (e, start, t) =>
    let o := p.tunAt.getD 0
    if p.tunnel = 2 ∧ bitOf (beAt b (o + 1) 1) 7 then s.trapFrame h 0xFF20 w b
    else if p.tunnel = 2 ∧ s.cfg Fld.TUN_CFG_CRIT_PASS = 0 ∧ critOption b 64 (o + 8) e then
      Issue.end_ ((s.bump Fld.TUN_CNT_CRIT_COUNT h).raise Fld.TUN_STATUS_CRIT h) w
    else
      let s := (s.bump Fld.TUN_CNT_DECAP_COUNT h).bump Fld.PRS_CNT_FRAMES_COUNT h
      let i := b.drop e
      let q := s.parse i (256 - e) 1 start { tunnel := p.tunnel, vni := p.vni }
      let (s, r) := s.classify h w i (256 - e) 1 q
      s.second h w i q (t.map (fun t => (t, sliceB b 0 12))) r

/-- A frame enters the pipeline (R239 to R256). -/
def State.issue (s : State) (h : Nat) (w : Issue) : State :=
  let s := s.bridgeEcc h w.ecc
  let b := w.octets
  let p := s.parse b 256 0 0 {}
  let s := s.bump Fld.PRS_CNT_FRAMES_COUNT h
  if w.srcKind = 0 ∧ p.ptp ∧ p.err = 0 ∧ w.ptp then Issue.end_ (s.emit (.ptp h w.srcIdx w.stamp b)) w
  else match s.stoFor h p with
    | some c => s.stoTake c w p
    | none =>
      let (s, r) := s.classify h w b 256 0 p
      match r with
      | .drop => Issue.end_ s w
      | .trap c => s.trapFrame h c w b
      | .action a =>
        let s := s.countFrame h a b.length
        let f := w.frame b p a false
        let s := s.mirror h a f
        match bitsOf a 127 124 with
        | 1 | 2 => s.forward h f p a 0 none
        | 3 => s.trapFrame h (bitsOf a 87 72) w b
        | 4 => s.decap h w p
        | 5 => s.inlineEnqueue h a w b
        | _ => Issue.end_ s w

end Sys2Proof.Machine
end

