-- ==== Sys2Proof/Machine/Channels.lean ====
section
/-! DEFINITION. Service classes with their caps and allowances (R78, R79, R429), the cipher engine's job queue, the DMA channels with their
descriptors (R343, R346), and the work that waits to be fetched in OPEN windows (R115). -/

namespace Sys2Proof.Machine

/-! ### Classes (R78, R79, R429) -/

/-- The sum of a class's weights over all shares in effect. -/
def State.weightSum (s : State) (c : Nat) : Nat := s.vfn.shares.foldl (fun n (e : Nat × Bytes) => n + leAt e.2 (0x40 + c) 1) 0

/-- FLIGHT_CAP of a class in a hall (R78). -/
def State.flightCap (s : State) (h c : Nat) : Nat :=
  match (s.ranked h).find? (fun r => r.1 == c) with
  | some r => r.2.2.2
  | none => 0

/-- allowance(h, c, fn) of R429: none when the class sets the function no limit there. -/
def State.allowance (s : State) (h c fn : Nat) : Option Nat :=
  let w := leAt (s.share fn) (0x40 + c) 1
  let f := s.flightCap h c
  if w = 0 then some 0 else if f = 0 then none else some (max 1 (f * w / s.weightSum c))

def allowKey (h c fn : Nat) : Nat := (h * 8 + c) * 8192 + fn

/-- A function has allowance left in a class in a hall; the owner's work is never limited. -/
def State.allowed (s : State) (h c : Nat) (fn : Option Nat) : Bool :=
  match fn with
  | none => true
  | some f => s.isOwner f || (match s.allowance h c f with
    | none => true
    | some n => decide (s.vfn.used.get 0 (allowKey h c f) < n))

/-- A class is served in a hall and below its cap for the flight. -/
def State.classOpen (s : State) (h c : Nat) : Bool :=
  match (s.ranked h).find? (fun r => r.1 == c) with
  | some (_, _, quantum, cap) => decide (0 < quantum) && (cap == 0 || decide ((s.seq h).issues.get 0 c < cap))
  | none => false

/-- The served class records of a hall in ascending rank. -/
def State.servedRanks (s : State) (h : Nat) : List (Nat × Nat × Nat × Nat) := (s.ranked h).filter (fun r => decide (0 < r.2.2.1))

/-- The class of storage work in a hall: the first that it serves, since no rule names one (log entry 23). -/
def State.stoClass (s : State) (h : Nat) : Nat := match s.servedRanks h with | r :: _ => r.1 | [] => 0

/-! ### Cipher jobs (R314, R316) -/

def State.cphOf (s : State) (h : Nat) : CphSt := s.cph.get {} h
def State.setCph (s : State) (h : Nat) (c : CphSt) : State := { s with cph := s.cph.put h c }

/-- Text octets of the operation at an offset (R316). -/
def CphJob.step (j : CphJob) (off : Nat) : Nat :=
  match j.mode with
  | 0 => j.len
  | 1 => min 16384 (j.len - off)
  | _ => j.unit

/-- Every operation of a job has started, or been released: counts of operations. -/
def CphJob.total (j : CphJob) : Nat :=
  match j.mode with
  | 0 => 1
  | 1 => max 1 (ceilDiv j.len 16384)
  | _ => j.len / j.unit

/-- The offset of a job's n-th operation. -/
def CphJob.offset (j : CphJob) (n : Nat) : Nat := if j.mode = 0 then 0 else if j.mode = 1 then 16384 * n else j.unit * n

/-- A job that waits in the job queue. -/
def CphJob.waits (j : CphJob) : Bool := j.failed.isNone && decide (j.started < j.total)

/-- The class of a hall's cipher jobs (R430): that of the DMA channel that carries their host data. -/
def State.jobClass (s : State) (h : Nat) : Nat := s.fld Fld.DMA_CH_CFG_CLASS h (s.fld Fld.CPH_JOBQ_CFG_DMA_CH h)

/-- The job queue of a hall has room (R314). -/
def State.jobRoom (s : State) (h : Nat) : Bool := decide (((s.cphOf h).jobs.filter CphJob.waits).length < 1024)

/-! ### Channels -/

def State.dch (s : State) (h c : Nat) : DmaCh := s.dma.chans.get {} (h * 64 + c)
def State.setDch (s : State) (h c : Nat) (x : DmaCh) : State := { s with dma := { s.dma with chans := s.dma.chans.put (h * 64 + c) x } }

def State.dmaService (s : State) (h c : Nat) : Nat := s.fld Fld.DMA_CH_CFG_SERVICE h c
def State.chState (s : State) (h c : Nat) : Nat := s.fld Fld.DMA_CH_STATUS_STATE h c
def State.setChState (s : State) (h c v : Nat) : State := s.setFld Fld.DMA_CH_STATUS_STATE v h c

/-- The channel takes its descriptors from a chain. -/
def State.isChain (s : State) (h c : Nat) : Bool := s.flag Fld.DMA_CH_CFG_SOURCE h c

/-- The ring of a channel (R343): the DMA send queue that its owner created for the logical hall and channel. -/
def State.chRing (s : State) (h c : Nat) : Option Nat :=
  match s.logicalOf h with
  | some l => (s.wq.queues.find? (fun e => e.2.present && e.2.kind == 2 && !e.2.isRq && e.2.hall == l && e.2.ch == c && decide (e.1 < 65536))).map (·.1)
  | none => none

/-- The function whose address space a channel's host addresses lie in. -/
def State.chFn (s : State) (h c : Nat) : Nat :=
  if s.isChain h c then s.fld Fld.DMA_CH_CHAIN_FN_FUNCTION h c
  else match s.chRing h c with
    | some k => (s.queue k).fn
    | none => 0

/-- The chain and its lists lie in the hall's alcove. -/
def State.inAlcove (s : State) (h c : Nat) : Bool := s.isChain h c && s.flag Fld.DMA_CH_CHAIN_FN_ALCOVE h c

/-! ### Descriptor fields (R346) -/

def dmaKind (b : Bytes) : Nat := leAt b 8 1 % 4
def dmaFrom (b : Bytes) : Bool := bitOf (leAt b 8 1) 2
def dmaCrc (b : Bytes) : Bool := bitOf (leAt b 8 1) 3
def dmaCrc64 (b : Bytes) : Bool := bitOf (leAt b 8 1) 4
def dmaCheck (b : Bytes) : Bool := bitOf (leAt b 8 1) 5
def dmaIrq (b : Bytes) : Bool := bitOf (leAt b 8 1) 6
def dmaSpace (b : Bytes) : Nat := leAt b 9 1 % 4
def dmaIndex (b : Bytes) : Nat := leAt b 9 1 / 16
def dmaWrap (b : Bytes) : Nat := leAt b 10 1
def dmaLen (b : Bytes) : Nat := leAt b 12 4
def dmaLocal (b : Bytes) : Nat := leAt b 0x10 8
def dmaFar (b : Bytes) : Nat := leAt b 0x18 8
def dmaOff (b : Bytes) : Nat := leAt b 0x20 8
def dmaSeed (b : Bytes) : Nat := leAt b 0x28 8
def dmaNext (b : Bytes) : Nat := leAt b 0x30 8

/-- The CRC size of a descriptor (R349). -/
def dmaC (b : Bytes) : Nat := if !dmaCrc b then 0 else if dmaCrc64 b then 8 else 4

/-- Octets that cross between the descriptor's ends: its data, and the CRC where it is stored or read at the far end. -/
def dmaTotal (b : Bytes) : Nat := dmaLen b + (if !dmaFrom b || dmaCheck b then dmaC b else 0)

/-- Octets that a scatter-gather list covers. -/
def dmaListed (b : Bytes) : Nat := dmaLen b + (if dmaFrom b then 0 else dmaC b)

/-- Where a descriptor ends. -/
def DmaDesc.end_ (d : DmaDesc) : Nat := match d.stop with | some n => min n (dmaTotal d.bytes) | none => dmaTotal d.bytes

/-- The first failure stands. -/
def DmaDesc.fail (d : DmaDesc) (st dt : Nat) : DmaDesc := if d.status = 0 then { d with status := st, detail := dt } else d

/-- Data that a descriptor still has to take into bursts. -/
def DmaDesc.open_ (d : DmaDesc) : Bool := decide (d.moved < d.end_)

/-- A transition of the hall is scheduled for the next landing, or the requested swap ends or changes its role (R358, R86). -/
def State.drainsSoon (s : State) (h : Nat) : Bool :=
  s.flag Fld.CALM_HALL_STATE_PENDING 0 h || (s.pln.swap.isSome && (match s.logicalOf h with
    | some l => !(Plan.used s.pln.standby h && Plan.logical s.pln.standby h == l)
    | none => false))

/-- The hall's engine may fetch for a channel: neither stopped nor draining, its function in a state to be served. -/
def State.dmaFetches (s : State) (h c : Nat) : Bool :=
  s.running h && !s.drainsSoon h && !s.flag Fld.DMA_STATUS_STOPPED h && (s.dmaService h c == 1 || s.dmaService h c == 3) && (s.inAlcove h c || (s.fnRuns (s.chFn h c) && (s.fn (s.chFn h c)).bme))

/-- A channel of a hall may take another descriptor, and has one at hand (R343, R344): a started one of its ring, or the next of its chain, read
from its alcove or brought in by the carriers. -/
def State.descAtHand (s : State) (h c : Nat) : Bool :=
  let x := s.dch h c
  s.dmaFetches h c && decide ((x.descs.filter DmaDesc.open_).length < 4) &&
    (if s.isChain h c then s.chState h c == 2 && !x.atEnd && (s.inAlcove h c || s.readDone h 1 (h * 64 + c) x.next)
    else match s.chRing h c with | some k => (s.queue k).ready != [] | none => false)

/-- Started descriptors of a send queue of a kind that a hall serves. -/
def State.startedSq (s : State) (h kind : Nat) (e : Nat × Queue) : Bool :=
  e.2.present && !e.2.isRq && e.2.kind == kind && decide (e.1 < 65536) && e.2.ready != [] && s.servingHall e.2 == h

/-- A class has work in a hall that a fetch in an OPEN clock takes up: a DMA descriptor, a cipher job or a storage command, of a function that has
allowance. -/
def State.fetchWork (s : State) (h c : Nat) : Bool :=
  (List.range 64).any (fun ch => s.fld Fld.DMA_CH_CFG_CLASS h ch == c && s.descAtHand h ch && s.allowed h c (some (s.chFn h ch))) ||
    (s.jobClass h == c && s.jobRoom h && s.wq.queues.any (fun e => s.startedSq h 1 e && s.allowed h c (some e.2.fn))) ||
    (s.stoClass h == c && s.wq.queues.any (fun e => s.startedSq h 3 e && s.allowed h c (some e.2.fn)))

end Sys2Proof.Machine
end

