-- ==== Sys2Proof/Machine/Issue.lean ====
section
/-! DEFINITION. The issue windows (R112 to R115): arrival, flow and OPEN issues, the order of service of R79 under caps and
allowances (R78, R429), and ETH send descriptors (R368). -/

namespace Sys2Proof.Machine

/-! ### Arrival windows (R113) -/

/-- The hall clock in which a window of the tread's WIN may issue now (R112): Device Time stands in one of its clocks, from one place to another
of the tread, and no issue has used that clock. -/
def State.winClock (s : State) (h : Nat) (place : Win → Nat × Nat) : Option Nat :=
  let w := (s.seq h).win
  match s.clockNow h with
  | some c => if s.running h ∧ w.next ≤ c ∧ w.start + (place w).1 ≤ c ∧ c < w.start + (place w).2 then some c else none
  | none => none

/-- The clocks of the arrival, the flow and the OPEN window, counted from the WIN's clock. -/
def Win.rxPlace (w : Win) : Nat × Nat := (0, w.rx)
def Win.flowPlace (w : Win) : Nat × Nat := (w.rx, w.rx + w.fl)
def Win.openPlace (w : Win) : Nat × Nat := (w.rx + w.fl, w.rx + w.fl + w.op)

/-- A clock of the tread's windows is used. -/
def State.useClock (s : State) (h c : Nat) : State :=
  let q := s.seq h
  s.setSeq h { q with win := { q.win with next := c + 1 } }

/-- The ports of a hall with the oldest frame each that the arrival window serves in a clock that begins at an instant: one that completed before. -/
def State.arrivals (s : State) (h begins : Nat) : List (Nat × RxFrame) :=
  (s.hallPorts h).filterMap (fun l => ((s.port l).rx.find? (fun f => (cyclicAt f.octets).isNone && decide (f.arrival < begins))).map (fun f => (l, f)))

/-- The frame that completed first; the lower lane on a tie. -/
def firstArrival : List (Nat × RxFrame) → Option (Nat × RxFrame)
  | [] => none
  | x :: t =>
    match firstArrival t with
    | none => some x
    | some y => if y.2.arrival < x.2.arrival then some y else some x

/-- ARRIVAL_ISSUE (R113): one clock of the arrival window. -/
def execArrivalIssue (h : Nat) (ptp : Bool) (ecc : List Nat) (at_ : Nat) (s : State) : Answer :=
  let s := s.atTime at_
  match s.winClock h Win.rxPlace with
  | none => .next s
  | some c =>
    let s := s.useClock h c
    match firstArrival (s.arrivals h (clockAt (s.seq h).start c (s.clocks h))) with
    | none => .next s
    | some (l, f) =>
      let s := s.takeRx l f
      .next (s.issue h { octets := f.octets.take (f.octets.length - 4), srcKind := 0, srcIdx := l, orig := 0, rxKey := none, stamp := f.stamp, ptp := ptp, send := none, drops := [], ecc := ecc })

/-! ### Flow windows (R114) -/

/-- Where PAD stands at the consumer of a flow ring, the consumer goes to the ring's start (R109). -/
def State.passPad (s : State) (h base size top : Nat) : State :=
  let c := s.consumer h base
  if decide (0 < sub32 top c) && leNat (s.alcoveRead h (base + 64 + c % size) 2) == 0xFFFF then s.putAlcove h (base + 4) (leBytes 4 (add32 c (size - c % size))) else s

/-- The record at the consumer of a flow ring is issued, where there is one before the producer as the window took it (R109, R114). -/
def State.flowRecord (s : State) (h flow base size top : Nat) (ecc : List Nat) : State :=
  let c := s.consumer h base
  let a := base + 64 + c % size
  let len := leNat (s.alcoveRead h a 2)
  if sub32 top c = 0 ∨ len < 0x3C ∨ 0x23FC < len then s
  else
    let bad := s.alcoveBad h a (recordSize len)
    let b := s.alcoveRead h (a + 8) len
    let s := (s.poisonUse bad).putAlcove h (base + 4) (leBytes 4 (add32 c (recordSize len)))
    if bad then s else s.issue h { octets := b, srcKind := 1, srcIdx := flow, orig := 1, rxKey := none, stamp := s.now, ptp := false, send := none, drops := [], ecc := ecc }

/-- FLOW_ISSUE (R109, R114): one clock of the flow window, over the records up to the PRODUCER that the window has read. A pad record takes no
clock; poisoned data is dropped (R508). -/
def execFlowIssue (h : Nat) (ecc : List Nat) (at_ : Nat) (s : State) : Answer :=
  let s := s.atTime at_
  match s.winClock h Win.flowPlace with
  | none => .next s
  | some k =>
    let s := (s.readProducer h).useClock h k
    let w := (s.seq h).win
    match s.flow h w.flow, w.seen with
    | some (base, size), some top =>
      .next ((s.passPad h base size top).flowRecord h w.flow base size top ecc)
    | _, _ => .next s

/-! ### OPEN windows (R78, R79, R115, R429) -/

/-- The allowances of a function as VFN_SHARE_QUERY writes them, class-major; what stands for no limit is not given (log entry
20): the operand. A logical hall that is not used has none. -/
def State.allowances (s : State) (f free : Nat) : Bytes :=
  ((List.range 8).map (fun c => ((List.range 16).map (fun l =>
    leBytes 4 (match s.physOf l with
      | some h => (match s.allowance h c f with | some n => n | none => free)
      | none => 0))).flatten)).flatten

/-- VFN_SHARE_QUERY (R443). -/
def execVfnShareQuery (d : AdminCmd) (s : State) : Answer :=
  .next (s.admin d 0x51 (fun s =>
    let f := d.p 0
    if !s.isOwner d.fn ∧ d.fn ≠ f then s.adminFail d St.accessDenied
    else if !s.fnExists f then s.adminFail d St.badDescriptor
    else
      let (st, n) := match look s.vfn.staged f with
        | some e => (e.1, 1)
        | none => (List.replicate 128 0, 0)
      (s.drawn.adminOut d (s.share f ++ st ++ s.allowances f s.free)).adminOk d 0 n))

/-- The oldest work of a class that still has allowance. -/
def State.openWork (s : State) (h c : Nat) : Option OpenWork :=
  if !s.classOpen h c then none
  else (s.fw.opened.get [] h).find? (fun w => w.cls == c && s.allowed h c w.fn)

/-- A class has work below its cap: a frame or item that waits, or something to fetch. -/
def State.classWork (s : State) (h c : Nat) : Bool := (s.openWork h c).isSome || (s.classOpen h c && s.fetchWork h c)

/-- Follow the rotation of R79 from a place: the class that the next issue serves, with the new place and turn. The fuel bounds the walk to one
round. -/
def State.rotate (s : State) (h : Nat) (ranks : List (Nat × Nat × Nat × Nat)) : Nat → Nat → Nat → Option (Nat × Nat × Nat)
  | 0, _, _ => none
  | fuel + 1, place, turn =>
    match ranks[place % max 1 ranks.length]? with
    | none => none
    | some (c, _, quantum, _) =>
      if turn < quantum ∧ s.classWork h c then some (c, place % ranks.length, turn + 1)
      else s.rotate h ranks fuel (place + 1) 0

/-- The class whose turn it is in a hall's OPEN window, with the place and the turn. -/
def State.openNext (s : State) (h : Nat) : Option (Nat × Nat × Nat) :=
  let w := (s.seq h).win
  let rs := s.servedRanks h
  s.rotate h rs (rs.length + 1) w.rank w.turn

/-- What an issue of a class for a function uses up: a clock, a place in the rotation, one of the class's issues and of the function's allowance in
the flight. -/
def State.spendOpen (s : State) (h clock c place turn : Nat) (fn : Option Nat) : State :=
  let q := s.seq h
  let s := s.setSeq h { q with win := { q.win with next := clock + 1, rank := place, turn := turn }, issues := q.issues.put c (q.issues.get 0 c + 1) }
  match fn with
  | some f => { s with vfn := { s.vfn with used := s.vfn.used.put (allowKey h c f) (s.vfn.used.get 0 (allowKey h c f) + 1) } }
  | none => s

/-- A fetch for a function takes the OPEN clock in which Device Time stands, when it is its class's turn (R79, R115, R344); the clock serves a thaw
request (R56). -/
def State.openTurn (s : State) (h c fn : Nat) : Option State :=
  match s.winClock h Win.openPlace, s.openNext h with
  | some clock, some (x, place, turn) =>
    if x = c ∧ s.allowed h c (some fn) then some ((s.serveThaw h).spendOpen h clock c place turn (some fn)) else none
  | _, _ => none

/-- OPEN_ISSUE (R56, R79, R115): one clock of the OPEN window. A clock whose turn is that of a class that has nothing but fetches is left to the fetch's
own command (log entry 23). -/
def execOpenIssue (h : Nat) (ptp : Bool) (ecc : List Nat) (at_ : Nat) (s : State) : Answer :=
  let s := s.atTime at_
  match s.winClock h Win.openPlace with
  | none => .next s
  | some clock =>
    let s := s.serveThaw h
    match s.openNext h with
    | none => .next (s.useClock h clock)
    | some (c, place, turn) =>
      match s.openWork h c with
      | none => .next s
      | some w =>
        let s := s.spendOpen h clock c place turn w.fn
        let s := { s with fw := { s.fw with opened := s.fw.opened.put h (removeFirst (fun x => x == w) (s.fw.opened.get [] h)) } }
        .next (s.issue h { octets := w.octets, srcKind := w.srcKind, srcIdx := w.srcIdx, orig := w.orig, rxKey := w.rxKey, stamp := s.now, ptp := ptp, send := w.send, drops := w.drops, ecc := ecc })

/-! ### ETH send descriptors (R368) -/

/-- What stands in a pool buffer in the part, and whether it is poisoned; none for one in host memory. -/
def State.bufferRead (s : State) (id off n : Nat) : Option (Bytes × Bool) :=
  match s.regionOf id with
  | none => none
  | some (_, r) =>
    let a := r.dataAt id + off
    match r.loc with
    | 0 => some (s.alcoveRead r.inst a n, s.alcoveBad r.inst a n)
    | 1 => some (s.atriumRead r.inst a n, (unitsOf 512 a n).any (fun u => s.beatBad r.inst (512 * u)))
    | _ => none

/-- The failure of a buffer ID that a descriptor names (R11, R331): its status. -/
def State.bufFault (s : State) (id fn : Nat) : Option Nat :=
  match s.regionOf id with
  | none => some St.badDescriptor
  | some (_, r) => if r.used ≤ id % 2 ^ 29 then some St.badDescriptor else s.refFault id (some fn)

/-- The checks of an ETH send descriptor: the status that ends it, or none. -/
def State.ethCheck (s : State) (fn : Nat) (b : Bytes) : Option Nat :=
  let len := leAt b 0x10 4
  let flags := leAt b 0x17 1
  let vport := leAt b 0x14 2
  let cls := leAt b 0x16 1
  let id := leAt b 8 4
  if 8192 ≤ vport ∨ 8 ≤ cls ∨ 4 ≤ flags ∨ leNat (b.drop 0x18) ≠ 0 ∨ (bitOf flags 0 ∧ leAt b 12 4 ≠ 0) then some St.badDescriptor
  else if !s.ownsVport fn vport then some St.accessDenied
  else if !s.isOwner fn ∧ leAt (s.share fn) (0x40 + cls) 1 = 0 then some St.accessDenied
  else if len < 60 ∨ 9212 < len then some St.lengthLimit
  else if bitOf flags 0 then
    match s.bufFault id fn with
    | some st => some st
    | none => if classSize (id / 2 ^ 29) < len then some St.lengthLimit else none
  else none

/-- ETH_SEND (R341, R368): the next started send descriptor of a queue; host are the frame's octets where they come from host memory, once the hall's
carriers have brought them. The frame joins the OPEN work of the hall that serves the queue. -/
def execEthSend (k : Nat) (host : Bytes) (at_ : Nat) (s : State) : Answer :=
  let s := s.atTime at_
  let q := s.queue k
  match q.ready with
  | [] => .next s
  | e :: t =>
    let h := s.servingHall q
    let b := e.bytes
    let fromHost := !bitOf (leAt b 0x17 1) 0 && (s.ethCheck q.fn b).isNone
    if !q.present ∨ q.isRq ∨ q.kind ≠ 0 ∨ k ≥ 65536 ∨ 18 ≤ h ∨ (fromHost ∧ !s.readDone h 3 k e.idx) then .next s
    else
      let hurt := match s.readFor h 3 k e.idx with | some r => r.bad | none => false
      let s := (s.setQueue k { q with ready := t }).endRead h 3 k e.idx
      match s.ethCheck q.fn b with
      | some st => .next (s.descDone k e.idx ⟨e.cookie, e.batchEnd, st, 0, 0, 0, 0, 0⟩)
      | none =>
        let len := leAt b 0x10 4
        let flags := leAt b 0x17 1
        let id := leAt b 8 4
        let pool := bitOf flags 0
        let (octets, bad) := match (if pool then s.bufferRead id 0 len else none) with
          | some x => x
          | none => (sliceB host 0 len, hurt)
        let ref : SendRef := { queue := k, idx := e.idx, cookie := e.cookie, len := len, batchEnd := e.batchEnd, tstamp := bitOf flags 1 }
        let drops := if pool then [id] else []
        if bad then .next ((s.poisonUse true).dropFrame { octets := [], tstamp := false, drops := drops, send := some ref })
        else
          let w : OpenWork := { octets := octets, srcKind := 2, srcIdx := leAt b 0x14 2, orig := 2, cls := leAt b 0x16 1, fn := some q.fn, rxKey := none, send := some ref, drops := drops }
          .next { s with fw := { s.fw with opened := s.fw.opened.put h (s.fw.opened.get [] h ++ [w]) } }

end Sys2Proof.Machine
end

