-- ==== Sys2Proof/Machine/Secure.lean ====
section
/-! DEFINITION. Protected frames (R296, R312, R313): MACsec's SecTAG and ESP, as the standards that R296 names have them (log entry 21). -/

namespace Sys2Proof.Machine

/-! ### SecTAGs (R296, R311, R312; IEEE 802.1AE, log entry 21) -/

def secSc (tci : Nat) : Bool := bitOf tci 5
def secLen (tci : Nat) : Nat := if secSc tci then 16 else 8

/-- Where a frame's SecTAG starts. -/
def secAt (p : Parsed) : Nat := p.l2end - 2

/-- The octets of secure data in a received MACsec frame: those that SL counts, or all up to the ICV. -/
def secData (b : Bytes) (o : Nat) : Nat :=
  let sl := beAt b (o + 3) 1
  if sl = 0 then b.length - (o + secLen (beAt b (o + 2) 1)) - 16 else sl

/-- A received SecTAG that the engine supports and that is valid. -/
def secOk (b : Bytes) (o : Nat) : Bool :=
  let tci := beAt b (o + 2) 1
  let sl := beAt b (o + 3) 1
  !bitOf tci 7 && bitOf tci 3 == bitOf tci 2 && !(secSc tci && (bitOf tci 6 || bitOf tci 4)) && decide (sl < 48) &&
    decide (o + secLen tci + secData b o + 16 ≤ b.length)

/-- Both nonce forms: the SCI and a 32-bit PN, or the salted SSCI and the 64-bit PN. -/
def xorBytes (a b : Bytes) : Bytes := List.zipWith (fun x y => x ^^^ y) a b
def secNonce (attr key sci : Bytes) (pn : Nat) : Bytes :=
  if isXpn (keyType attr) then xorBytes (sliceB attr 4 4 ++ beBytes 8 pn) (key.drop (key.length - 12)) else sci ++ beBytes 4 (pn % 2 ^ 32)

/-- The key proper, without its salt. -/
def keyProper (attr key : Bytes) : Bytes := key.take ((keySizes (keyType attr)).getD (0, 0)).1

/-- A frame is protected under a MACsec transmit slot. -/
def secProtect (attr key b : Bytes) (pn : Nat) : Bytes :=
  let conf := keyFlag attr 2
  let sc := keyFlag attr 3
  let data := b.drop 12
  let tci := 64 * b2n (keyFlag attr 4) + 32 * b2n sc + 12 * b2n conf + leAt attr 3 1 % 4
  let sci := sliceB attr 0x18 8
  let tag := beBytes 2 0x88E5 ++ beBytes 1 tci ++ beBytes 1 (if data.length < 48 then data.length else 0) ++ beBytes 4 (pn % 2 ^ 32) ++ (if sc then sci else [])
  let hdr := b.take 12 ++ tag
  let n := secNonce attr key sci pn
  let k := keyProper attr key
  if conf then
    let (c, t) := Config.gcmSeal k n hdr data
    hdr ++ c ++ t
  else hdr ++ data ++ (Config.gcmSeal k n (hdr ++ data) []).2

/-- The SCI of a received frame: in the tag, or from the source address; none where the frame does not give it. -/
def secSci (b : Bytes) (o : Nat) : Option Bytes :=
  let tci := beAt b (o + 2) 1
  if secSc tci then some (sliceB b (o + 8) 8)
  else if bitOf tci 4 then some (sliceB b 6 6 ++ [0, 0])
  else if bitOf tci 6 then some (sliceB b 6 6 ++ [0, 1])
  else none

/-- The packet number of a received frame: the upper half of an XPN number from the lowest acceptable one, as the slot has it when the operation
starts (R301). -/
def secPn (v : KeySlot) (pn : Nat) : Nat :=
  if isXpn (keyType v.attr) then
    let low := v.counter - keyWindow v.attr
    (low / 2 ^ 32 + (if !bitOf pn 31 ∧ bitOf low 31 then 1 else 0)) * 2 ^ 32 + pn
  else pn

/-- What a received MACsec frame carries, and whether its tag verifies. -/
def secOpen (attr key b : Bytes) (o pn : Nat) (sci : Bytes) : Bytes × Bool :=
  let a := o + secLen (beAt b (o + 2) 1)
  let n := secData b o
  let k := keyProper attr key
  let iv := secNonce attr key sci pn
  let data := sliceB b a n
  let tag := sliceB b (a + n) 16
  if bitOf (beAt b (o + 2) 1) 3 then (b.take o ++ Config.gcmOpen k iv (b.take a) data, Config.gcmTag k iv (b.take a) data == tag)
  else (b.take o ++ data, Config.gcmTag k iv (b.take (a + n)) [] == tag)

/-! ### ESP (R296, R312, R313; RFC 4303 and RFC 4106, log entry 21) -/

/-- The monotonic pad, the pad length and the next header. -/
def espTrailer (payload nh : Nat) : Bytes :=
  let n := (4 - (payload + 2) % 4) % 4
  (List.range n).map (fun i => BitVec.ofNat 8 (i + 1)) ++ beBytes 1 n ++ beBytes 1 nh

/-- An IP frame that transport mode on transmit can take: IPv4 without options, IPv6 without extension headers. -/
def espForm (b : Bytes) (p : Parsed) : Option (Nat × Nat × Nat) :=
  match p.l3, p.l3At with
  | 1, some o => if ip4Len b o = 20 then some (o, o + 20, beAt b (o + 9) 1) else none
  | 2, some o => if p.exts = 0 then some (o, o + 40, beAt b (o + 6) 1) else none
  | _, _ => none

/-- The additional authenticated data: SPI and sequence number, extended with ESN. -/
def espAad (attr : Bytes) (v : Nat) : Bytes := sliceB attr 4 4 ++ (if keyFlag attr 1 then beBytes 8 v else beBytes 4 (v % 2 ^ 32))

/-- Set an IP header's protocol and lengths for so many octets behind it; an IPv4 header's checksum follows. -/
def fixIp (b : Bytes) (v6 : Bool) (o hdr nhAt nh n : Nat) : Bytes :=
  let b := spliceB b nhAt (beBytes 1 nh)
  if v6 then spliceB b (o + 4) (beBytes 2 (hdr - o - 40 + n)) else fixIp4 (spliceB b (o + 2) (beBytes 2 (hdr - o + n))) o

/-- A frame is protected under an ESP transmit slot. -/
def espProtect (attr key b : Bytes) (p : Parsed) (v : Nat) : Bytes :=
  match espForm b p with
  | none => b
  | some (o, e, nh) =>
    let pay := sliceB b e (p.ipEnd - e)
    let iv := beBytes 8 v
    let (c, t) := Config.gcmSeal (keyProper attr key) (key.drop (key.length - 4) ++ iv) (espAad attr v) (pay ++ espTrailer pay.length nh)
    let body := sliceB attr 4 4 ++ beBytes 4 (v % 2 ^ 32) ++ iv ++ c ++ t
    fixIp (b.take e) (p.l3 == 2) o e (if p.l3 = 2 then o + 6 else o + 9) 50 body.length ++ body

/-- The full sequence number of a received ESP packet (RFC 4303, appendix A), as the slot has it when the operation starts (R301). -/
def espSeq (v : KeySlot) (low : Nat) : Nat :=
  if !keyFlag v.attr 1 then low
  else
    let t := v.counter - 1
    let tl := t % 2 ^ 32
    let th := t / 2 ^ 32
    let w := max 1 (keyWindow v.attr)
    if w ≤ tl + 1 then (if tl + 1 - w ≤ low then th else th + 1) * 2 ^ 32 + low
    else (if tl + 1 + 2 ^ 32 - w ≤ low then th - 1 else th) * 2 ^ 32 + low

/-- Where the octet stands that names ESP as the next header; the fuel bounds the headers. -/
def espNhAt (b : Bytes) : Nat → Nat → Nat → Nat
  | 0, at_, _ => at_
  | fuel + 1, at_, hdr => if beAt b at_ 1 = 50 then at_ else espNhAt b fuel hdr (hdr + extLen b (beAt b at_ 1) hdr)

/-- The octets of a transport payload without TFC padding, which RFC 4303 allows where the payload gives its own length: UDP (log entry 21). -/
def tfcTrim (nh : Nat) (pay : Bytes) : Bytes :=
  let n := beAt pay 4 2
  if nh = 17 ∧ 8 ≤ n ∧ n ≤ pay.length then pay.take n else pay

/-- What a received ESP frame carries, without trailer and TFC padding (R296), and whether its tag verifies. -/
def espOpen (attr key b : Bytes) (p : Parsed) (v : Nat) : Bytes × Bool :=
  let e := p.l4At.getD 0
  let o := p.l3At.getD 0
  let v6 := p.l3 == 2
  let n := p.ipEnd - e - 32
  let iv := sliceB b (e + 8) 8
  let k := keyProper attr key
  let nonce := key.drop (key.length - 4) ++ iv
  let aad := sliceB b e 4 ++ (espAad attr v).drop 4
  let text := sliceB b (e + 16) n
  let plain := Config.gcmOpen k nonce aad text
  let pad := beAt plain (n - 2) 1
  let nh := beAt plain (n - 1) 1
  let pay := plain.take (n - 2 - pad)
  let ok := decide (e + 34 ≤ p.ipEnd) && Config.gcmTag k nonce aad text == sliceB b (e + 16 + n) 16
  if nh = 4 ∨ nh = 41 then
    let len := if nh = 4 then beAt pay 2 2 else 40 + beAt pay 4 2
    (spliceB (b.take o) (o - 2) (beBytes 2 (if nh = 4 then 0x0800 else 0x86DD)) ++ pay.take len, ok)
  else
    let at_ := if v6 then espNhAt b 9 (o + 6) (o + 40) else o + 9
    let pay := tfcTrim nh pay
    (fixIp (b.take e) v6 o e at_ nh pay.length ++ pay, ok)

end Sys2Proof.Machine
end

