-- ==== Sys2Proof/Machine/Cipher.lean ====
section
/-! DEFINITION. The cipher engines (chapter 11): windows and their block slots, inline MACsec and ESP, jobs, releases. -/

namespace Sys2Proof.Machine

/-! ### The constant-time envelope (R305, R306) -/

/-- Block slots of a window. -/
def slotsOf (len : Nat) : Nat := 625 * len / 128

/-- The clock of its window at which the operation behind so many slots starts. -/
def opClock (used : Nat) : Nat := 128 * used / 625

/-- Clocks from start to release. -/
def releaseClocks (n : Nat) (twice : Bool) : Nat := (if twice then 2 else 1) * ceilDiv (128 * n) 625 + 20

/-- Padded slots of a job's operation that begins at an offset of its text. -/
def jobCost (j : CphJob) (off len : Nat) : Nat :=
  match j.mode with
  | 0 => ceilDiv j.aadLen 16 + ceilDiv j.len 16 + 2
  | 1 => ceilDiv len 16 + (if off = 0 then ceilDiv j.aadLen 16 else 0) + (if j.len ≤ off + len then 2 else 0)
  | _ => if j.unit = 512 then 33 else 257

/-- The instant at which an operation behind so many slots of a window starts, or k clocks later. -/
def CphWin.instant (w : CphWin) (used k : Nat) : Nat := clockAt w.tread (w.off + opClock used + k) w.rate

/-- The instant at which a window ends. -/
def CphWin.ends (w : CphWin) : Nat := clockAt w.tread (w.off + w.len) w.rate

/-- Slots of a window whose clocks begin before an instant: they have passed (R116). -/
def CphWin.passed (w : CphWin) (t : Nat) : Nat := ceilDiv (625 * (ceilDiv ((t - w.tread) * w.rate) treadTicks - w.off)) 128

/-- Slots that pass while nothing can start are idle. -/
def CphWin.idleTo (w : CphWin) (t : Nat) : CphWin :=
  let u := max w.used (min (slotsOf w.len) (w.passed t))
  { w with used := u, idle := w.idle + (u - w.used) }

/-! ### The head of the inline queue (R311, R312) -/

/-- What the head of an inline queue leads to: dropped and counted, or an operation of so many slots. -/
inductive Head where
  | drop (f : Fld)
  | op (slot cost : Nat) (protect : Bool)

/-- An inline frame without FCS, parsed from its start. -/
def State.inlineParse (s : State) (f : InlineFrame) : Parsed := s.parse f.octets 256 0 0 {}

/-- The frame has an ESP header. -/
def isEspFrame (p : Parsed) : Bool := p.proto == 50 && (p.l3 == 1 || p.l3 == 2) && p.l4At.isSome

/-- Resolve the head of the inline queue at an instant. -/
def State.inlineHead (s : State) (f : InlineFrame) (t : Nat) : Head :=
  let p := s.inlineParse f
  let b := f.octets
  let o := secAt p
  let k := if p.macsec then f.target + beAt b (o + 2) 1 % 4 else f.target
  let v := s.slot k
  let ty := keyType v.attr
  let rx := p.macsec || isEspFrame p
  if s.slotStateAt k t ≠ 2 ∧ s.slotStateAt k t ≠ 3 then .drop Fld.CPH_CNT_KEY_COUNT
  else if !(isMacsec ty || isEsp ty) ∨ keyRx v.attr ≠ rx ∨ (rx ∧ isMacsec ty ≠ p.macsec) then .drop Fld.CPH_CNT_KEY_MISMATCH_COUNT
  else if rx then
    if p.macsec then
      if !secOk b o then .drop Fld.CPH_CNT_BAD_TAG_COUNT
      else
        let a := o + secLen (beAt b (o + 2) 1)
        let n := secData b o
        .op k (if bitOf (beAt b (o + 2) 1) 3 then ceilDiv a 16 + ceilDiv n 16 + 2 else ceilDiv (a + n) 16 + 2) false
    else .op k (1 + ceilDiv (p.ipEnd - p.l4At.getD 0 - 32) 16 + 2) false
  else if isMacsec ty then
    let tag := if keyFlag v.attr 3 then 16 else 8
    if 9216 < b.length + tag + 16 + 4 then .drop Fld.CPH_CNT_LENGTH_COUNT
    else .op k (if keyFlag v.attr 2 then ceilDiv (12 + tag) 16 + ceilDiv (b.length - 12) 16 + 2 else ceilDiv (b.length + tag) 16 + 2) true
  else match espForm b p with
    | none => .drop Fld.CPH_CNT_BAD_TAG_COUNT
    | some (_, e, nh) =>
      let n := p.ipEnd - e + (espTrailer (p.ipEnd - e) nh).length
      if 9216 < e + 16 + n + 16 + 4 then .drop Fld.CPH_CNT_LENGTH_COUNT else .op k (1 + ceilDiv n 16 + 2) true

/-- An inline frame ends inside the engine. -/
def State.inlineEnd (s : State) (f : InlineFrame) : State := s.dropFrame { octets := [], tstamp := false, drops := f.drops, send := f.send }

/-! ### Starting operations (R305, R308, R316) -/

/-- An operation starts: it is charged to its window and is in flight (R305, R306). -/
def State.startOp (s : State) (h : Nat) (w : CphWin) (cost : Nat) (op : CphOp) (twice : Bool) : State :=
  let c := s.cphOf h
  let op := { op with start := w.instant w.used 0, due := w.instant w.used (releaseClocks cost twice) }
  let s := s.setCph h { c with window := some { w with used := w.used + cost }, ops := c.ops ++ [op] }
  (s.bump64 Fld.CPH_SLOTS_USED_LO_COUNT Fld.CPH_SLOTS_USED_HI_COUNT cost h).bump Fld.CPH_CNT_OPS_COUNT h

/-- Take the head off the inline queue. -/
def State.popInline (s : State) (h : Nat) : State := let c := s.cphOf h; s.setCph h { c with inl := c.inl.drop 1 }

/-- The number of a received frame, and the frame's operation, under what its slot holds at the start. -/
def State.rxNumber (s : State) (f : InlineFrame) (k : Nat) : Nat :=
  let p := s.inlineParse f
  let v := s.slot k
  if isMacsec (keyType v.attr) then secPn v (beAt f.octets (secAt p + 4) 4) else espSeq v (beAt f.octets (p.l4At.getD 0 + 4) 4)

/-- The operation that starts under a slot. -/
def State.opUnder (s : State) (k value : Nat) (job : Option (Nat × Nat × Nat)) (frame : Option InlineFrame) : CphOp :=
  let v := s.slot k
  { slot := k, key := v.key, attr := v.attr, load := v.load, value := value, start := 0, due := 0, job := job, frame := frame }

/-- Serve the head of the inline queue in the next slot of a window: the state after it, or none when it does not fit. -/
def State.serveInline (s : State) (h : Nat) (w : CphWin) : Option State :=
  match (s.cphOf h).inl with
  | [] => none
  | f :: _ =>
    match s.inlineHead f (w.instant w.used 0) with
    | .drop c => some (((s.popInline h).bump c h).inlineEnd f)
    | .op k cost protect =>
      if slotsOf w.len < w.used + cost then none
      else
        let s := s.popInline h
        if protect then
          match s.assignValue h k (w.instant w.used 0) with
          | (s, none) => some ((s.bump Fld.CPH_CNT_NONCE_COUNT h).inlineEnd f)
          | (s, some v) => some (s.startOp h w cost (s.opUnder k v none (some f)) false)
        else some (s.startOp h w cost (s.opUnder k (s.rxNumber f k) none (some f)) true)

/-- Replace a job. -/
def State.setJob (s : State) (h : Nat) (j : CphJob) : State :=
  let c := s.cphOf h
  s.setCph h { c with jobs := c.jobs.map (fun x => if x.id = j.id then j else x) }

/-- Write a job's output where it goes (R314): into what the job hands back to storage, into the alcove, or toward the host in the carriers of the hall's
DMA channel for jobs. -/
def State.jobWrite (s : State) (h : Nat) (j : CphJob) (off : Nat) (b : Bytes) : State :=
  if j.src = 1 then s.setJob h { j with text := spliceB j.text off b }
  else if j.dstHost then s.hallWrite h (s.jobClass h) (some (j.queue, j.desc.idx)) j.fn (j.to_ + off) b
  else s.putAlcove h (j.to_ + off) b

/-- The octets that the end of a job zeroes (R317): what a packet or stream job writes, or the units that an XTS job has written. -/
def CphJob.zeroed (j : CphJob) : Nat :=
  if j.failed = some St.keyRevoked ∨ j.failed = some St.authFail then (if j.mode = 2 then j.released * j.unit else j.len) else 0

/-- The status with which a job ends. -/
def CphJob.status (j : CphJob) : Nat :=
  match j.failed with
  | some st => if j.bad && st != St.keyRevoked then St.busError else st
  | none => if j.bad then St.busError else St.success

/-- A job has ended: its output is zeroed where R317 says so, then it completes (R318). -/
def State.endJob (s : State) (h : Nat) (j : CphJob) : State :=
  let s := if j.zeroed = 0 then s else s.jobWrite h j 0 (List.replicate j.zeroed 0)
  let j := ((s.cphOf h).jobs.find? (fun x => x.id == j.id)).getD j
  let c := s.cphOf h
  let s := (s.setCph h { c with jobs := c.jobs.filter (fun x => x.id != j.id) }).endRead h 4 0 j.id
  if j.src = 1 then
    { s with sto := { s.sto with xts := s.sto.xts ++ [{ conn := j.queue, cid := j.desc.idx, off := j.from_, status := j.status, octets := j.text }] } }
  else
    s.descDone j.queue j.desc.idx { cookie := j.desc.cookie, batchEnd := j.desc.batchEnd, status := j.status, detail := 0, opspec := if j.status = St.success ∧ !j.decrypt ∧ j.mode ≠ 2 then j.value else 0, bytes := if j.status = St.success then j.len else 0, info := 0, low := 0 }

/-- Operations of a job in flight. -/
def CphSt.flying (c : CphSt) (id : Nat) : Nat := (c.ops.filter (fun o => match o.job with | some (i, _, _) => i == id | none => false)).length

/-- End a job that has failed or is complete, once nothing of it is in flight. -/
def State.settleJob (s : State) (h id : Nat) : State :=
  let c := s.cphOf h
  match c.jobs.find? (fun j => j.id == id) with
  | some j => if c.flying id = 0 ∧ (j.failed.isSome ∨ j.total ≤ j.released) then s.endJob h j else s
  | none => s

/-- A job fails at the start of an operation (R302, R303, R309, R316). -/
def State.failJob (s : State) (h : Nat) (j : CphJob) (st : Nat) : State :=
  let s := if st = St.keyRevoked then s.bump Fld.CPH_CNT_REVOKED_COUNT h else if st = St.nonceExhausted then s.bump Fld.CPH_CNT_NONCE_COUNT h else s
  (s.setJob h { j with failed := some st }).settleJob h j.id

/-- A slot of a type serves a job (R298). -/
def CphJob.servedBy (j : CphJob) (ty : Nat) : Bool := if j.mode = 2 then ty == 3 || ty == 4 else ty == 1 || ty == 2

/-- What a job finds in its slot at the start of an operation (R303, R316): the slot, or the status that ends the job. A handle whose slot has been erased
is stale (R10); a slot whose rewrite changed its type does not serve the job (log entry 66). -/
def State.jobSlot (s : State) (j : CphJob) (t : Nat) : Nat ⊕ Nat :=
  let k := j.key % 65536
  if s.slotStateAt k t < 2 then .inr St.keySlotEmpty
  else if (s.resolve 4 j.key).isNone then .inr St.badHandle
  else if s.slotStateAt k t = 4 then .inr St.keyRevoked
  else if !j.servedBy (keyType (s.slot k).attr) then .inr St.badDescriptor
  else .inl k

/-- The source octets that a job's next operation needs are at hand: those that come from a host have been brought in (R314, R341). -/
def State.jobHere (s : State) (h : Nat) (j : CphJob) : Bool :=
  let off := j.offset j.started
  let tag := if j.decrypt ∧ j.mode ≠ 2 ∧ j.total ≤ j.started + 1 then 16 else 0
  !j.srcHost || decide (j.aadLen + off + j.step off + tag ≤ s.readCarried h 4 0 j.id)

/-- Serve the head of the job queue in the next slot of a window. -/
def State.serveJob (s : State) (h : Nat) (w : CphWin) : Option State :=
  match (s.cphOf h).jobs.find? CphJob.waits with
  | none => none
  | some j =>
    let off := j.offset j.started
    let len := j.step off
    let cost := jobCost j off len
    let t := w.instant w.used 0
    if slotsOf w.len < w.used + cost then none
    else match s.jobSlot j t with
      | .inr st => some (s.failJob h j st)
      | .inl k =>
        let needs := j.mode ≠ 2 && !j.decrypt && j.started == 0
        match (if needs then s.assignValue h k t else (s, some j.value)) with
        | (s, none) => some (s.failJob h j St.nonceExhausted)
        | (s, some v) =>
          some ((s.setJob h { j with started := j.started + 1, value := v }).startOp h w cost (s.opUnder k v (some (j.id, off, len)) none) (j.mode == 0 && j.decrypt))

/-- The window of a hall as its next operation finds it; none when nothing can start. -/
def State.nextStart (s : State) (h : Nat) : Option CphWin :=
  let c := s.cphOf h
  match c.window with
  | none => none
  | some w =>
    if w.src = 0 then c.inl.head?.map (fun f => w.idleTo f.joined)
    else match c.jobs.find? CphJob.waits with
      | some j => if s.jobHere h j then some w else none
      | none => none

/-- The hall whose next operation starts first, up to an instant; the lower hall on a tie (R308). -/
def State.firstStart (s : State) (upTo : Nat) (stuck : List Nat) : Option (Nat × CphWin) :=
  s.cph.foldl (fun (best : Option (Nat × CphWin)) e =>
    match s.nextStart e.1 with
    | none => best
    | some w =>
      let t := w.instant w.used 0
      if stuck.contains e.1 ∨ upTo < t ∨ slotsOf w.len ≤ w.used then best
      else match best with
        | some b => if b.2.instant b.2.used 0 ≤ t then best else some (e.1, w)
        | none => some (e.1, w)) none

/-- Start what may start in the open windows up to an instant, in the order of the starts; stuck are the halls whose head does not fit. The fuel bounds
what is served. -/
def State.startOps (s : State) (upTo : Nat) : Nat → List Nat → State
  | 0, _ => s
  | fuel + 1, stuck =>
    match s.firstStart upTo stuck with
    | none => s
    | some (h, w) =>
      match (if w.src = 0 then s.serveInline h w else s.serveJob h w) with
      | some t => t.startOps upTo fuel stuck
      | none => s.startOps upTo fuel (h :: stuck)

/-- The window of a hall at an instant: slots that have passed are idle, and so is what a window that has ended leaves (R116). -/
def State.idleHall (s : State) (upTo h : Nat) : State :=
  let c := s.cphOf h
  match c.window with
  | none => s
  | some w =>
    if w.ends ≤ upTo then
      (s.setCph h { c with window := none }).bump64 Fld.CPH_SLOTS_IDLE_LO_COUNT Fld.CPH_SLOTS_IDLE_HI_COUNT (w.idle + (slotsOf w.len - w.used)) h
    else s.setCph h { c with window := some (w.idleTo upTo) }

/-- Bring the cipher engines up to an instant. -/
def State.cipherTo (s : State) (upTo : Nat) : State :=
  let fuel := s.cph.foldl (fun n (e : Nat × CphSt) => n + e.2.inl.length + e.2.jobs.foldl (fun m (j : CphJob) => m + j.total + 1) 2) 1
  s.cph.foldl (fun (s : State) e => s.idleHall upTo e.1) (s.startOps upTo fuel [])

/-- A CIPHER op opens its window (R116). -/
def State.openWindow (s : State) (h o : Nat) : State :=
  let s := (s.cipherTo s.now).occupy h o (bitsOf o 46 31)
  s.setCph h { s.cphOf h with window := some { src := bitsOf o 48 47, tread := (s.seq h).start, off := Plan.offset o, len := bitsOf o 46 31, rate := s.clocks h, used := 0, idle := 0 } }

/-- CIPHER_WINDOW: the CIPHER op of a hall opens its window, and what may start up to an instant starts (R116, R305). -/
def State.cipherWindow (s : State) (h at_ : Nat) : State :=
  let s := match s.takeOp h 2 0x30 with
    | none => s
    | some (o, s) => s.openWindow h o
  (s.atTime at_).cipherTo (max s.now at_)

/-! ### Releases (R306, R310, R313, R317) -/

/-- The frame that leaves the engine, for forwarding. -/
def InlineFrame.out (f : InlineFrame) (b : Bytes) : PFrame :=
  { octets := b, srcKind := f.srcKind, srcIdx := f.srcIdx, orig := f.orig, stamp := f.stamp, mark := f.mark, low := 0, hash := 0, bd := none, decap := false, send := f.send, drops := f.drops }

/-- A decrypted frame re-enters the pipeline, if its hall's re-entry queue of 256 has room. -/
def State.reenter (s : State) (h k : Nat) (f : InlineFrame) (b : Bytes) : State :=
  let q := s.fw.opened.get [] h
  if 256 ≤ (q.filter (fun w => w.srcKind == 3)).length then (s.bump Fld.CPH_CNT_INLINE_DROP_COUNT h).inlineEnd f
  else
    let w : OpenWork := { octets := b, srcKind := 3, srcIdx := f.srcIdx, orig := f.orig, cls := f.cls, fn := none, rxKey := some k, send := f.send, drops := f.drops }
    { s with fw := { s.fw with opened := s.fw.opened.put h (q ++ [w]) } }

/-- A tag has failed in a hall. -/
def State.tagFail (s : State) (h : Nat) : State := (s.raise Fld.CPH_STATUS_AUTH_FAIL h).bump Fld.CPH_CNT_AUTH_FAIL_COUNT h

/-- What an operation's slot held at its start, or holds still: attributes, counter, numbers seen (R301). -/
def KeySlot.under (v : KeySlot) (load : Nat) : Option OldKey :=
  if v.load = load then some { load := load, attr := v.attr, counter := v.counter, seen := v.seen } else v.former.find? (fun x => x.load == load)

/-- The replay check at a release, and its update of what the operation started under (R301, R310). -/
def State.replay (s : State) (op : CphOp) : State × Bool :=
  let v := s.slot op.slot
  match v.under op.load with
  | none => (s, false)
  | some o =>
    match replayOk o.attr o.counter o.seen op.value with
    | none => (s, false)
    | some (c, l) =>
      if v.load = op.load then (s.setSlot op.slot { v with counter := c, seen := l }, true)
      else (s.setSlot op.slot { v with former := v.former.map (fun x => if x.load = op.load then { x with counter := c, seen := l } else x) }, true)

/-- An inline operation releases its frame. -/
def State.releaseFrame (s : State) (h : Nat) (op : CphOp) (f : InlineFrame) : State :=
  let p := s.inlineParse f
  let b := f.octets
  let mac := isMacsec (keyType op.attr)
  if !keyRx op.attr then
    let o := if mac then secProtect op.attr op.key b op.value else espProtect op.attr op.key b p op.value
    s.toPlain h (keyEgress op.attr) f.cls (f.out o) o
  else
    let o := secAt p
    let (s, sci) := match secSci b o with
      | some x => (s, x)
      | none => if mac then (s.drawn, beBytes 8 s.free) else (s, [])
    let (out, ok) := if mac then secOpen op.attr op.key b o op.value sci else espOpen op.attr op.key b p op.value
    if !ok then (s.tagFail h).inlineEnd f
    else match s.replay op with
      | (s, true) => s.reenter h op.slot f out
      | (s, false) => (s.bump Fld.CPH_CNT_REPLAY_COUNT h).inlineEnd f

/-- Read n octets of a job's source side: from the operand where they come from host memory, brought in by the carriers. -/
def State.jobRead (s : State) (h : Nat) (j : CphJob) (a n : Nat) (host : Bytes) : Bytes × Bool :=
  if j.srcHost then (sliceB host 0 n, match s.readFor h 4 0 j.id with | some r => r.bad | none => false) else (s.alcoveRead h a n, s.alcoveBad h a n)

/-- Mark alcove lines as poisoned because what was computed into them was. -/
def State.spreadPoison (s : State) (h a n : Nat) : State :=
  { s with flt := { s.flt with poisonAlcove := ((unitsOf 64 a n).map (· + h * 2 ^ 19)) ++ s.flt.poisonAlcove } }

/-- The nonce of a GCM job. -/
def CphJob.nonce (j : CphJob) (op : CphOp) : Bytes :=
  if j.decrypt then j.iv else (op.key.drop (op.key.length - 4)) ++ beBytes 8 op.value

/-- An operation of a GCM job releases its output. -/
def State.releaseGcm (s : State) (h : Nat) (op : CphOp) (j : CphJob) (off len : Nat) (src aad tag : Bytes) : State :=
  let k := keyProper op.attr op.key
  let n := j.nonce op
  let (a, bad1) := s.jobRead h j j.aad j.aadLen aad
  let (t, bad2) := s.jobRead h j (j.from_ + off) len src
  let last := decide (j.total ≤ j.released + 1)
  let (want, bad3) := if j.decrypt && last then s.jobRead h j (j.from_ + j.len) 16 tag else ([], false)
  let hurt := (bad1 && j.aadLen != 0) || bad2 || bad3
  let s := s.poisonUse hurt
  let text := j.text ++ t
  let j := { j with text := text, released := j.released + 1, bad := j.bad || hurt }
  let s := s.setJob h j
  let put := fun (s : State) (o : Nat) (b : Bytes) => let s := s.jobWrite h j o b; if j.bad && !j.dstHost then s.spreadPoison h (j.to_ + o) b.length else s
  if j.decrypt then
    let ok := !last || Config.gcmTag k n a text == want
    let s := if ok ∨ j.mode = 1 then put s off ((Config.gcmOpen k n a text).drop off) else s
    if ok then s else (s.tagFail h).setJob h { j with failed := some St.authFail }
  else
    let (c, g) := Config.gcmSeal k n a text
    let s := put s off (c.drop off)
    if last then put s j.len g else s

/-- An operation of an XTS job releases its data unit. -/
def State.releaseXts (s : State) (h : Nat) (op : CphOp) (j : CphJob) (off len : Nat) (src : Bytes) : State :=
  let (t, hurt) := if j.src = 1 then (sliceB j.text off len, false) else s.jobRead h j (j.from_ + off) len src
  let s := s.poisonUse hurt
  let j := { j with released := j.released + 1, bad := j.bad || hurt }
  let s := s.setJob h j
  let s := s.jobWrite h j off (Config.xts op.key ((leNat (j.iv.take 8) + off / j.unit) % 2 ^ 64) (!j.decrypt) t)
  if hurt && !j.dstHost && j.src == 0 then s.spreadPoison h (j.to_ + off) len else s

/-- The operation that releases first. -/
def firstDue : List CphOp → Option CphOp
  | [] => none
  | o :: t => match firstDue t with | some x => if x.due < o.due then some x else some o | none => some o

/-- The slot was REVOKING at the instant of a release. -/
def State.revokedBy (s : State) (op : CphOp) : Bool :=
  match (s.slot op.slot).eraseAt with
  | some t => decide (t ≤ op.due)
  | none => false

/-- The operation of a hall that is due first is released (R306). -/
def State.cipherRelease (s : State) (h : Nat) (src aad tag : Bytes) : State :=
  let s := s.cipherTo s.now
  let c := s.cphOf h
  match firstDue c.ops with
  | none => s
  | some op =>
    if s.now < op.due then s
    else
      let s := s.setCph h { c with ops := removeFirst (fun x => x == op) c.ops }
      let revoked := s.revokedBy op
      let s := if revoked then s.bump Fld.CPH_CNT_REVOKED_COUNT h else s
      match op.frame, op.job with
      | some f, _ => if revoked then s.inlineEnd f else s.releaseFrame h op f
      | none, some (id, off, len) =>
        (match (s.cphOf h).jobs.find? (fun j => j.id == id) with
        | none => s
        | some j =>
          let s := if revoked then s.setJob h { j with failed := some St.keyRevoked }
            else if j.mode = 2 then s.releaseXts h op j off len src else s.releaseGcm h op j off len src aad tag
          s.settleJob h id)
      | none, none => s

/-! ### Fetching jobs (R314, R315) -/

/-- The job that a descriptor spells. -/
def parseJob (id k fn : Nat) (d : Desc) : CphJob :=
  let b := d.bytes
  let op := leAt b 0x0C 1
  { id := id, src := 0, queue := k, desc := d, fn := fn, key := leAt b 8 4, mode := op % 4, decrypt := bitOf op 2, srcHost := bitOf op 3, dstHost := bitOf op 4, unit := if bitOf (leAt b 0x0D 1) 0 then 4096 else 512, aadLen := leAt b 0x0E 2, len := leAt b 0x10 4, from_ := leAt b 0x18 8, to_ := leAt b 0x20 8, aad := leAt b 0x28 8, iv := sliceB b 0x30 12, started := 0, released := 0, text := [], value := 0, bad := false, failed := none }

/-- The first check of R315: the fields. -/
def jobFormOk (j : CphJob) : Bool :=
  let b := j.desc.bytes
  let gcm := j.mode != 2
  let tag := fun (yes : Bool) => if gcm && yes then 16 else 0
  let within := fun (host : Bool) (a n : Nat) => host || n == 0 || decide (a + n ≤ alcoveTop)
  j.mode != 3 && decide (leAt b 0x0C 1 < 32) && decide (leAt b 0x0D 1 < 2) && leAt b 0x14 4 == 0 && leAt b 0x3C 4 == 0 &&
    (if gcm then leAt b 0x0D 1 == 0 && decide (j.aadLen ≤ 512) && (j.decrypt || leNat j.iv == 0) else j.aadLen == 0 && leAt b 0x38 4 == 0) &&
    within j.srcHost j.from_ (j.len + tag j.decrypt) && within j.dstHost j.to_ (j.len + tag (!j.decrypt)) && within j.srcHost j.aad j.aadLen

/-- Slots of the largest operation of a job. -/
def jobLargest (j : CphJob) : Nat :=
  if j.mode = 1 then max (jobCost j 0 (j.step 0)) (jobCost j (j.offset (j.total - 1)) (j.step (j.offset (j.total - 1)))) else jobCost j 0 (j.step 0)

/-- The checks of R315 in order, behind the want of a SOURCE 1 window, with what R314 asks for host ranges: the status that ends the job, or none.
A storage job has no descriptor of its own form (R314). -/
def State.jobCheck (s : State) (h : Nat) (j : CphJob) : Option Nat :=
  if s.fld Fld.CPH_WIN_MAX_JOBS h = 0 then some St.unsupported
  else if j.src = 0 ∧ !jobFormOk j then some St.badDescriptor
  else match s.resolve 4 j.key with
    | none => some St.badHandle
    | some k =>
      if !s.keyRange j.fn k then some St.accessDenied
      else if !j.servedBy (keyType (s.slot k).attr) then some St.badDescriptor
      else if j.mode = 0 ∧ 16384 < j.len then some St.lengthLimit
      else if j.mode = 1 ∧ 268435456 < j.len then some St.lengthLimit
      else if j.mode = 2 ∧ (j.len = 0 ∨ j.len % j.unit ≠ 0 ∨ 268435456 < j.len) then some St.lengthLimit
      else if s.fld Fld.CPH_WIN_MAX_JOBS h < jobLargest j then some St.lengthLimit
      else if (j.srcHost ∨ j.dstHost) ∧ s.fld Fld.DMA_CH_CFG_SERVICE h (s.fld Fld.CPH_JOBQ_CFG_DMA_CH h) ≠ 3 then some St.unsupported
      else none

/-- A job that has passed its checks joins a hall's job queue, behind what may start before. -/
def State.pushJob (s : State) (h : Nat) (j : CphJob) : State :=
  let s := s.cipherTo s.now
  let c := s.cphOf h
  s.setCph h { c with jobs := c.jobs ++ [{ j with id := c.nextJob }], nextJob := c.nextJob + 1 }

/-- CIPHER_JOB_FETCH (R26, R314, R315): the next started descriptor of a cipher send queue, in an OPEN clock of its hall's DMA channel's class, while the
hall's job queue has room. -/
def execCipherJobFetch (k at_ : Nat) (s : State) : Answer :=
  let s := s.atTime at_
  let q := s.queue k
  let h := s.servingHall q
  match q.ready with
  | [] => .next s
  | d :: t =>
    if !q.present ∨ q.isRq ∨ q.kind ≠ 1 ∨ k ≥ 65536 ∨ 18 ≤ h ∨ !s.jobRoom h then .next s
    else match s.openTurn h (s.jobClass h) q.fn with
      | none => .next s
      | some s =>
        let s := s.setQueue k { q with ready := t }
        let j := parseJob 0 k q.fn d
        match s.jobCheck h j with
        | some st => .next (s.descDone k d.idx ⟨d.cookie, d.batchEnd, st, 0, 0, 0, 0, 0⟩)
        | none => .next (s.pushJob h j)

/-- ENTROPY_HEALTH_FAIL (R307): which test, 0 repetition count, 1 adaptive proportion. The fixed dummy rounds show nowhere. -/
def execEntropyHealthFail (h test at_ : Nat) (s : State) : Answer :=
  if 18 ≤ h then .next s
  else .next ((((s.atTime at_).raise Fld.CPH_STATUS_ENTROPY_FAIL h).bump Fld.CPH_CNT_ENTROPY_COUNT h).almHall 0x0801 h (leBytes 1 (min test 1)))

end Sys2Proof.Machine
end

