-- ==== Sys2Proof/Machine/KeyCommands.lean ====
section
/-! DEFINITION. The key commands (R299 to R304) and what happens to a key slot at a tread boundary (R300, R302, R309, R319). -/

namespace Sys2Proof.Machine

/-- Begin an unwrap. -/
def State.beginUnwrap (s : State) (l : KeyLoad) : State := { s with keys := { s.keys with loads := s.keys.loads ++ [l] } }

/-- KEY_LOAD (R299, R300). -/
def execKeyLoad (d : AdminCmd) (buf : Bytes) (s : State) : Answer :=
  .next (s.admin d 0x38 (fun s =>
    let a := sliceB buf 0 48
    let ty := keyType a
    if !keyAttrOk a ∨ d.bufLen ≠ 48 + wrappedLen ty then s.adminFail d St.badDescriptor
    else if !s.isOwner d.fn ∧ (ty < 1 ∨ 4 < ty) then s.adminFail d St.accessDenied
    else
      let go (s : State) (k : Nat) (fresh : Bool) : State :=
        match s.kek (leAt a 2 1) with
        | none => s.adminFail d St.keySlotEmpty
        | some kk =>
          let s := if fresh then s.setSlot k { s.slot k with state := 1, loader := d.fn } else s
          s.beginUnwrap { target := k, cmd := d, attr := a, fresh := fresh, padded := Config.keyPadded kk (sliceB buf 48 (wrappedLen ty)), material := Config.keyUnwrap kk (sliceB buf 48 (wrappedLen ty)) }
      if d.p 0 = 0 then
        match s.emptySlot d.fn with
        | none => s.adminFail d St.quota
        | some k => go s k true
      else
        match s.resolve 4 (d.p 0) with
        | none => s.adminFail d St.badHandle
        | some k =>
          if !s.keyRange d.fn k then s.adminFail d St.accessDenied
          else if s.slotState k = 4 then s.adminFail d St.keyRevoked
          else if s.slotState k < 2 then s.adminFail d St.badHandle
          else go s k false))

/-- The unwrapped material of an XTS key has equal halves (R298). -/
def xtsHalvesEqual (ty : Nat) (m : Bytes) : Bool :=
  if ty = 3 then m.take 16 == (m.drop 16).take 16 else if ty = 4 then m.take 32 == (m.drop 32).take 32 else false

/-- A first load that fails leaves its slot EMPTY. -/
def State.loadFailed (s : State) (l : KeyLoad) (st : Nat) : State :=
  (if l.fresh then s.setSlot l.target {} else s).adminFail l.cmd st

/-- What a slot keeps of its former loads: those that operations in flight have started under (R301). -/
def State.keepFormer (s : State) (k : Nat) : List OldKey :=
  let v := s.slot k
  let flying := s.cph.flatMap (fun (e : Nat × CphSt) => (e.2.ops.filter (fun o => o.slot == k)).map (fun o => o.load))
  (v.former ++ [({ load := v.load, attr := v.attr, counter := v.counter, seen := v.seen } : OldKey)]).filter (fun x => flying.contains x.load)

/-- A new key commits to its slot (R300, R301): REVOKING, where an erase has been ordered, goes on. -/
def State.commitKey (s : State) (l : KeyLoad) (m : Bytes) : State :=
  let k := l.target
  let v := s.slot k
  let (kn, sn) := (keySizes (keyType l.attr)).getD (0, 0)
  s.setSlot k ({ state := 2, attr := l.attr, key := m.take (kn + sn), counter := leAt l.attr 8 8, loader := l.cmd.fn, eraseAt := v.eraseAt, eraseCmd := v.eraseCmd, load := v.load + 1, former := s.keepFormer k } : KeySlot)

/-- A load meets a tread boundary with its key unwrapped (R300, R319): a rewrite of a slot that has been erased since finds its handle stale, one of a slot
that was REVOKING before finds that. -/
def State.landKey (s : State) (l : KeyLoad) (m : Bytes) : State :=
  let gone := match (s.slot l.target).eraseAt with | some t => decide (t < s.now) | none => false
  if xtsHalvesEqual (keyType l.attr) m then s.loadFailed l St.badDescriptor
  else if !l.fresh ∧ (s.resolve 4 (l.cmd.p 0)).isNone then s.adminFail l.cmd St.badHandle
  else if gone then s.adminFail l.cmd St.keyRevoked
  else ((s.commitKey l m).bump Fld.CPH_KS_CNT_LOAD_COUNT).adminOk l.cmd (s.handle 4 l.target)

/-- A key-encryption key meets a tread boundary unwrapped (R304). -/
def State.landKek (s : State) (l : KeyLoad) (m : Bytes) : State :=
  let i := l.target - 65536
  let s := { s with keys := { s.keys with keks := s.keys.keks.put i m } }
  let s := s.setFld Fld.CPH_KEK_VALID_VALID (putBits (s.fld Fld.CPH_KEK_VALID_VALID) i i 1)
  (s.bump Fld.CPH_KS_CNT_LOAD_COUNT).adminOk l.cmd

/-- The cipher engines reach a tread boundary: Device Time goes on to it, and what starts before it has started (R301, R319). -/
def State.cipherBoundary (s : State) : State := let s := s.toBoundary; s.cipherTo (s.now - 1)

/-- KEY_COMMIT (R300, R301): the oldest unwrap for a target ends. One that fails its check, or a padded wrap (R296), ends at once; a key commits at the
tread boundary that follows. -/
def execKeyCommit (target at_ : Nat) (s : State) : Answer :=
  let s := s.atTime at_
  match s.keys.loads.find? (fun l => l.target == target) with
  | none => .next s
  | some l =>
    let s := { s with keys := { s.keys with loads := removeFirst (fun x => x.target == target) s.keys.loads } }
    if l.padded then .next (s.loadFailed l St.badDescriptor)
    else match l.material with
      | none => .next ((s.bump Fld.CPH_KS_CNT_UNWRAP_FAIL_COUNT).loadFailed l St.authFail)
      | some m => .next (if 65536 ≤ l.target then s.cipherBoundary.landKek l m else s.cipherBoundary.landKey l m)

/-- A key slot command on a handle: authority and state before its effect. -/
def State.keyFor (s : State) (d : AdminCmd) (k : Nat → State) : State :=
  match s.resolve 4 (d.p 0) with
  | none => s.adminFail d St.badHandle
  | some i => if !s.keyRange d.fn i ∨ (!s.isOwner d.fn ∧ 4 < keyType (s.slot i).attr) then s.adminFail d St.accessDenied else k i

/-- KEY_ERASE (R302): REVOKING from the next tread boundary. -/
def execKeyErase (d : AdminCmd) (s : State) : Answer :=
  .next (s.admin d 0x39 (fun s => s.keyFor d (fun k =>
    if s.slotState k = 4 ∨ (s.slot k).eraseAt.isSome then s.adminFail d St.keyRevoked
    else if s.slotState k < 2 then s.adminFail d St.keySlotEmpty
    else s.setSlot k { s.slot k with eraseAt := some s.nextTread, eraseCmd := some d })))

/-- Operations in flight under a slot, in every hall. -/
def State.slotOps (s : State) (k : Nat) : Nat :=
  s.cph.foldl (fun n (e : Nat × CphSt) => n + (e.2.ops.filter (fun o => o.slot == k)).length) 0

/-- KEY_ZEROIZE (R302): at the tread boundary that follows, no operation under a REVOKING slot is in flight, and the slot is zeroized. -/
def execKeyZeroize (k at_ : Nat) (s : State) : Answer :=
  let s := (s.atTime at_).cipherBoundary
  if s.slotState k ≠ 4 ∨ s.slotOps k ≠ 0 then .next s
  else
    let c := (s.slot k).eraseCmd
    let s := (s.zeroize k).bump Fld.CPH_KS_CNT_ERASE_COUNT
    .next (match c with | some d => s.adminOk d | none => s)

/-- KEY_QUERY (R303): never key material. -/
def execKeyQuery (d : AdminCmd) (s : State) : Answer :=
  .next (s.admin d 0x3A (fun s => s.keyFor d (fun k =>
    let s := s.cipherTo s.now
    let v := s.slot k
    (s.adminOut d (sliceB v.attr 0 48 ++ leBytes 8 (min v.counter (2 ^ 64 - 1)) ++ leBytes 4 (s.slotOps k) ++ leBytes 1 (s.slotState k) ++ leBytes 3 0)).adminOk d)))

/-- KEK_LOAD (R304): KEK1 to KEK15, wrapped under KEK0. -/
def execKekLoad (d : AdminCmd) (buf : Bytes) (s : State) : Answer :=
  .next (s.admin d 0x3B (fun s =>
    if d.p 0 = 0 ∨ 15 < d.p 0 ∨ d.bufLen ≠ 40 then s.adminFail d St.badDescriptor
    else match s.kek 0 with
      | none => s.adminFail d St.keySlotEmpty
      | some kk => s.beginUnwrap { target := 65536 + d.p 0, cmd := d, attr := [], fresh := false, padded := Config.keyPadded kk (sliceB buf 0 40), material := Config.keyUnwrap kk (sliceB buf 0 40) }))

/-- KEK_ERASE (R304): zeroized at once. -/
def execKekErase (d : AdminCmd) (s : State) : Answer :=
  .next (s.admin d 0x3C (fun s =>
    if d.p 0 = 0 ∨ 15 < d.p 0 then s.adminFail d St.badDescriptor
    else
      let s := { s with keys := { s.keys with keks := s.keys.keks.del (d.p 0) } }
      (s.setFld Fld.CPH_KEK_VALID_VALID (putBits (s.fld Fld.CPH_KEK_VALID_VALID) (d.p 0) (d.p 0) 0)).adminOk d))

/-- A slot becomes EXHAUSTED (R309), which each hall that has used it shows. -/
def State.exhaust (s : State) (k : Nat) : State :=
  let s := s.setSlot k { s.slot k with state := 3, exhaustAt := none }
  (s.slot k).users.foldl (fun (s : State) h => s.raise Fld.CPH_STATUS_HARD_LIMIT h) s

/-- KEY_EXHAUST (R309): the tread boundary after the assignment of the hard-limit value. -/
def execKeyExhaust (k at_ : Nat) (s : State) : Answer :=
  let s := s.atTime at_
  match (s.slot k).exhaustAt with
  | some t => .next (if t ≤ s.now ∧ (s.slot k).state = 2 then s.exhaust k else s)
  | none => .next s

end Sys2Proof.Machine
end

