-- ==== Sys2Proof/Machine/Dma.lean ====
section
/-! DEFINITION. The DMA engines (chapter 13): descriptors with their checks, lists and CRC, fetching, completion, the channels' registers. -/

namespace Sys2Proof.Machine

/-! ### The checks of R347 -/

/-- The channel of a planned burst names this endpoint and direction (R339). -/
def State.endpointOk (s : State) (h c : Nat) (b : Bytes) : Bool :=
  if c < 32 then dmaSpace b == 0 && dmaFrom b == decide (2 ≤ c % 4) && portOf (s.chFn h c) == c / 4
  else if c < 48 then dmaSpace b == 1 && dmaIndex b == (c - 32) / 4 && dmaFrom b == decide (2 ≤ c % 4)
  else dmaSpace b == 2 && dmaIndex b == c - 48 && !dmaFrom b

/-- The detail of the first failing check of a descriptor that is read; all of these end it with BAD_DESCRIPTOR. -/
def State.dmaCheckDesc (s : State) (h c : Nat) (b : Bytes) : Option Nat :=
  let chain := s.isChain h c
  let k := dmaKind b
  let len := dmaLen b
  if bitOf (leAt b 8 1) 7 ∨ bitsOf (leAt b 9 1) 3 2 ≠ 0 ∨ leAt b 11 1 ≠ 0 ∨ (dmaSpace b = 0 ∧ dmaIndex b ≠ 0) ∨ (dmaCheck b ∧ !dmaFrom b) ∨
      (!dmaCrc b ∧ dmaSeed b ≠ 0) ∨ (dmaCrc b ∧ !dmaCrc64 b ∧ 2 ^ 32 ≤ dmaSeed b) ∨
      (if chain then leAt b 0 8 ≠ 0 ∨ dmaNext b % 64 ≠ 0 else dmaNext b ≠ 0 ∨ leAt b 0x38 8 ≠ 0) then some 1
  else if k = 3 then (if chain then none else some 2)
  else if k = 1 ∧ dmaSpace b ≠ 0 then some 2
  else if dmaSpace b = 3 ∨ (dmaSpace b = 1 ∧ 4 ≤ dmaIndex b) ∨ (dmaSpace b = 2 ∧ (s.physOf (dmaIndex b)).isNone) ∨
      (s.dmaService h c = 3 ∧ dmaSpace b ≠ 0) ∨ (s.dmaService h c = 1 ∧ !s.endpointOk h c b) then some 3
  else if dmaLocal b % 64 ≠ 0 ∨ alcoveTop < dmaLocal b + len + (if dmaFrom b then dmaC b else 0) then some 4
  else if (dmaSpace b = 1 ∧ (dmaFar b % 512 ≠ 0 ∨ len % 512 ≠ 0 ∨ dmaCrc b)) ∨
      (dmaSpace b = 2 ∧ (dmaFar b % 64 ≠ 0 ∨ alcoveTop < dmaFar b + dmaTotal b)) then some 5
  else if len = 0 ∨ 2 ^ 30 < len ∨ (k = 2 ∧ 2 ^ dmaWrap b < len + dmaC b) then some 6
  else if (k = 2 ∧ (dmaWrap b < 12 ∨ 30 < dmaWrap b ∨ dmaFar b % 2 ^ dmaWrap b ≠ 0 ∨ 2 ^ dmaWrap b ≤ dmaOff b)) ∨ (k ≠ 2 ∧ (dmaWrap b ≠ 0 ∨ dmaOff b ≠ 0)) then some 7
  else none

/-! ### Scatter-gather lists and far addresses (R348) -/

/-- Octets that the fetched entries cover. -/
def DmaDesc.covered (d : DmaDesc) : Nat := d.sg.foldl (fun n (e : Nat × Nat) => n + e.2) 0

/-- Data up to here has its far address: all of it, unless part of the list is still to be fetched. -/
def DmaDesc.reach (d : DmaDesc) : Nat := if d.sgNext.isSome then d.covered else dmaTotal d.bytes

/-- The list entries of at least the first 64 KiB of a descriptor are there, or it has none: it is ready from an instant on (R344). -/
def DmaDesc.readied (d : DmaDesc) (t : Nat) : DmaDesc :=
  if d.readyAt.isNone ∧ min (dmaTotal d.bytes) 65536 ≤ d.reach then { d with readyAt := some t } else d

/-- One entry is followed. -/
def sgEntry (limit : Nat) (d : DmaDesc) (e : Bytes) : DmaDesc :=
  match d.sgNext with
  | none => d
  | some at_ =>
    let addr := leAt e 0 8
    let len := leAt e 8 4
    let fl := leAt e 12 4
    let link := bitOf fl 0
    let last := bitOf fl 1
    let cut := fun (d : DmaDesc) => { d with sgNext := none, stop := some (min d.covered (dmaTotal d.bytes)) }
    if limit < d.sgCount + 1 then cut (d.fail St.chainLimit 0x0A)
    else if 4 ≤ fl ∨ (link ∧ last) ∨ (link ∧ (len ≠ 0 ∨ addr % 16 ≠ 0)) ∨ (!link ∧ (len = 0 ∨ 2 ^ 30 < len)) then cut (d.fail St.badDescriptor 0x08)
    else if link then { d with sgCount := d.sgCount + 1, sgNext := some addr }
    else
      let d1 := { d with sgCount := d.sgCount + 1, sg := d.sg ++ [(addr, len)], sgNext := if last then none else some (at_ + 16) }
      if dmaListed d.bytes < d1.covered ∨ (last ∧ d1.covered ≠ dmaListed d.bytes) then cut { d.fail St.badDescriptor 0x09 with sgCount := d.sgCount + 1 }
      else d1

/-- The far addresses of n octets from an offset of a list. Octets past its end, which only a CHECK reads, follow its last entry. -/
def sgPieces : List (Nat × Nat) → Nat → Nat → List (Nat × Nat)
  | [], _, _ => []
  | [(a, _)], off, n => [(a + off, n)]
  | (a, l) :: t, off, n =>
    if l ≤ off then sgPieces t (off - l) n
    else if n ≤ l - off then [(a + off, n)] else (a + off, l - off) :: sgPieces t 0 (n - (l - off))

/-- The far addresses of n octets of a transfer from an offset. -/
def DmaDesc.pieces (d : DmaDesc) (off n : Nat) : List (Nat × Nat) :=
  if n = 0 then [] else
  match dmaKind d.bytes with
  | 1 => sgPieces d.sg off n
  | 2 =>
    let size := 2 ^ dmaWrap d.bytes
    let o := (dmaOff d.bytes + off) % size
    if o + n ≤ size then [(dmaFar d.bytes + o, n)] else [(dmaFar d.bytes + o, size - o), (dmaFar d.bytes, n - (size - o))]
  | _ => [(dmaFar d.bytes + off, n)]

/-! ### Running CRC (R349) -/

def dmaPoly (b : Bytes) : Nat := if dmaCrc64 b then 0x9A6C9329AC4BC9B5 else 0x82F63B78
def dmaStart (b : Bytes) : Nat := dmaSeed b
def DmaDesc.addCrc (d : DmaDesc) (data : Bytes) : DmaDesc := if dmaCrc d.bytes then { d with crc := data.foldl (crcByte (dmaPoly d.bytes)) d.crc } else d
def DmaDesc.result (d : DmaDesc) : Nat := if dmaCrc64 d.bytes then d.crc ^^^ (2 ^ 64 - 1) else d.crc ^^^ (2 ^ 32 - 1)

/-! ### Fetching (R344, R347, R348, R354) -/

/-- Replace a descriptor of a channel. -/
def State.setDesc (s : State) (h c : Nat) (d : DmaDesc) : State :=
  let x := s.dch h c
  s.setDch h c { x with descs := x.descs.map (fun e => if e.id = d.id then d else e) }

/-- A descriptor joins its channel. -/
def State.pushDesc (s : State) (h c : Nat) (d : DmaDesc) : State :=
  let x := s.dch h c
  let s := s.setDch h c { x with descs := x.descs ++ [{ d with id := s.dma.nextId }] }
  { s with dma := { s.dma with nextId := s.dma.nextId + 1 } }

/-- A CHAIN_LIMIT failure is flagged and counted. -/
def State.chainLimit (s : State) (h : Nat) (yes : Bool) : State :=
  if yes then (s.raise Fld.DMA_STATUS_CHAIN_LIMIT h).bump Fld.DMA_CNT_CHAIN_LIMIT_COUNT h else s

/-- Follow the list of a descriptor that its alcove holds, up to so many entries; an entry beyond the alcove's space is ill-formed (R16, log entry 66). -/
def State.followOwn (s : State) (h : Nat) (limit : Nat) : Nat → DmaDesc → DmaDesc
  | 0, d => d
  | n + 1, d =>
    match d.sgNext with
    | none => d
    | some a =>
      if alcoveTop < a + 16 then { d.fail St.badDescriptor 0x08 with sgNext := none, stop := some (min d.covered (dmaTotal d.bytes)) }
      else s.followOwn h limit n (sgEntry limit d (s.alcoveRead h a 16))

/-- Follow list entries of a descriptor: those given, or 4 that its alcove holds. -/
def State.followList (s : State) (h c : Nat) (d : DmaDesc) (list : List Bytes) : State × DmaDesc :=
  let limit := s.fld Fld.DMA_CFG_CHAIN_LIMIT h
  let d1 := if s.inAlcove h c then s.followOwn h limit 4 d else list.foldl (sgEntry limit) d
  (s.chainLimit h (decide (d1.detail = 0x0A) && d.detail != 0x0A), d1.readied s.now)

/-- The checks of a descriptor that has been read, and its place in its channel; a list in host memory is still to be brought in (R341). -/
def State.acceptDesc (s : State) (h c idx addr : Nat) (b : Bytes) : State :=
  let d : DmaDesc := { id := 0, idx := idx, addr := addr, bytes := b, fn := s.chFn h c, since := s.now, crc := dmaStart b }
  match s.dmaCheckDesc h c b with
  | some dt => s.pushDesc h c { d with stop := some 0, status := St.badDescriptor, detail := dt }
  | none =>
    let (s, d) := if dmaKind b = 1 then s.followList h c { d with sgNext := some (dmaFar b) } [] else (s, d.readied s.now)
    s.pushDesc h c d

/-- The write-back word (R354), its last octet in a second write; one in host memory waits for the hall's carriers (R341). -/
def State.writeBack (s : State) (h c addr st dt bytes : Nat) : State :=
  let w := leBytes 7 (st * 2 ^ 48 + dt * 2 ^ 40 + bytes % 2 ^ 31)
  if s.inAlcove h c then (s.putAlcove h (addr + 0x38) w).putAlcove h (addr + 0x3F) [0]
  else s.addPost h (portOf (s.chFn h c)) (.word (s.chFn h c) (addr + 0x38) (w ++ [0])) 0 none

/-- Software's word on how a chain goes on after a descriptor at an address. -/
def State.chainNext (s : State) (h c next links : Nat) : State := s.setDch h c { s.dch h c with next := next, atEnd := next == 0, links := links }

/-- A chain channel that has nothing left is IDLE. -/
def State.chainIdle (s : State) (h c : Nat) : State :=
  if s.isChain h c ∧ s.chState h c = 2 ∧ (s.dch h c).atEnd ∧ (s.dch h c).descs = [] then s.setChState h c 1 else s

/-- A chain descriptor is read (R348, R354). -/
def State.readChain (s : State) (h c : Nat) (b : Bytes) : State :=
  let x := s.dch h c
  if !bitOf (leAt b 0x3F 1) 7 then s.setChState h c 3
  else if dmaKind b = 3 ∧ (s.dmaCheckDesc h c b).isNone then
    if s.fld Fld.DMA_CFG_CHAIN_LIMIT h < x.links + 1 then
      let s := (s.chainLimit h true).writeBack h c x.next St.chainLimit 0x0A 0
      (s.setChState h c 5).setDch h c { x with atEnd := true }
    else (s.chainNext h c (dmaNext b) (x.links + 1)).chainIdle h c
  else (s.acceptDesc h c 0 x.next b).chainNext h c (dmaNext b) 0

/-- A read of the engine has failed: DMA_ENGINE_STOP follows in the next clock (R356). -/
def State.dmaError (s : State) (h : Nat) (e : DmaErr) : State :=
  if (look s.dma.errs h).isSome then s else { s with dma := { s.dma with errs := s.dma.errs.put h e } }

/-- The next descriptor of a chain is taken up: from the alcove, where an address beyond its space halts the chain (R14, R16, log entry 66), or as the
carriers brought it in. -/
def State.fetchChain (s : State) (h c : Nat) (host : Bytes) : State :=
  let a := (s.dch h c).next
  if s.inAlcove h c then
    if alcoveTop < a + 64 then s.setChState h c 5 else s.readChain h c (s.alcoveRead h a 64)
  else (s.endRead h 1 (h * 64 + c) a).readChain h c (sliceB host 0 64)

/-- Further entries of the list that a channel follows: those that the carriers brought in, as many as the read asked for, or those of the alcove. -/
def State.fetchList (s : State) (h c : Nat) (list : List Bytes) : State :=
  match (s.dch h c).descs.find? (fun d => d.sgNext.isSome) with
  | none => s
  | some d =>
    let a := d.sgNext.getD 0
    let own := s.inAlcove h c
    if !own ∧ !s.readDone h 2 (h * 64 + c) a then s
    else
      let n := match s.readFor h 2 (h * 64 + c) a with | some r => r.total / 16 | none => 0
      let (s, d) := (s.endRead h 2 (h * 64 + c) a).followList h c d (list.take n)
      s.setDesc h c d

/-- DESCRIPTOR_FETCH (R344 to R348, R354): the next descriptor of a channel that holds fewer than 4 ready ones, in one OPEN clock of the channel's class;
or, with more set, further entries of the list that is being followed. host and list are what the hall's carriers brought in from host memory (R341). -/
def execDescriptorFetch (h c : Nat) (more : Bool) (host : Bytes) (list : List Bytes) (at_ : Nat) (s : State) : Answer :=
  let s := s.atTime at_
  if 18 ≤ h ∨ 64 ≤ c ∨ !s.dmaFetches h c then .next s
  else if more then .next (s.fetchList h c list)
  else if !s.descAtHand h c then .next s
  else match s.openTurn h (s.fld Fld.DMA_CH_CFG_CLASS h c) (s.chFn h c) with
    | none => .next s
    | some s =>
      if s.isChain h c then .next (s.fetchChain h c host)
      else match s.chRing h c with
        | none => .next s
        | some k =>
          match (s.queue k).ready with
          | [] => .next s
          | d :: t => .next (((s.setQueue k { s.queue k with ready := t }).setChState h c 2).acceptDesc h c d.idx 0 d.bytes)

/-! ### Completion (R353 to R355) -/

/-- A descriptor has moved all that it moves, and every octet has been delivered. -/
def State.descFinished (s : State) (h c : Nat) (d : DmaDesc) : Bool :=
  decide (d.end_ ≤ d.moved) && d.sgNext.isNone && !s.dma.bursts.any (fun b => b.hall == h && b.units.any (fun u => u.ch == c && u.desc == d.id))

/-- What the end of a from-far descriptor with CRC stores and compares (R349). -/
def State.storeCrc (s : State) (h : Nat) (d : DmaDesc) : State × DmaDesc :=
  let n := dmaC d.bytes
  if n = 0 ∨ !dmaFrom d.bytes ∨ d.stop.isSome then (s, d)
  else
    let r := leBytes n d.result
    let s := s.putAlcove h (dmaLocal d.bytes + dmaLen d.bytes) r
    if dmaCheck d.bytes ∧ d.farCrc ≠ r then (s.bump Fld.DMA_CNT_CRC_MISMATCH_COUNT h, d.fail St.crcMismatch 0x0D) else (s, d)

/-- DESCRIPTOR_COMPLETE (R353 to R355): the first descriptor of a channel has ended; its record or write-back word is written. -/
def execDescriptorComplete (h c : Nat) (s : State) : Answer :=
  if 18 ≤ h ∨ 64 ≤ c then .next s else
  match (s.dch h c).descs with
  | [] => .next s
  | d :: t =>
    if !s.descFinished h c d then .next s
    else
      let (s, d) := s.storeCrc h d
      let s := s.setDch h c { s.dch h c with descs := t }
      let s := (s.bump (if d.status = 0 then Fld.DMA_CNT_DESC_COUNT else Fld.DMA_CNT_DESC_ERR_COUNT) h).setFld Fld.DMA_CH_STATUS_LAST_STATUS d.status h c
      let bytes := min d.moved (dmaLen d.bytes)
      if s.isChain h c then
        let s := s.writeBack h c d.addr d.status d.detail bytes
        .next ((if dmaIrq d.bytes then s.raise Fld.DMA_CH_STATUS_WB_DONE h c else s).chainIdle h c)
      else match s.chRing h c with
        | none => .next s
        | some k =>
          let x := leAt d.bytes 0 8
          let s := if t = [] then s.setChState h c 1 else s
          .next (s.descDone k d.idx { cookie := x / 2 ^ 32, batchEnd := bitOf x 16, status := d.status, detail := d.detail, opspec := if dmaCrc d.bytes then d.result else 0, bytes := bytes, info := 0, low := 0 })

/-! ### Channel registers (R343, R354, R357 to R359) -/

/-- DMA_CH_CFG_WRITE (R338, R359): staged for the logical hall until the next landing; refused while the channel is ACTIVE or PARKED. -/
def execDmaChCfgWrite (who : Who) (h c value : Nat) (s : State) : Answer :=
  if !s.mayWrite who ∨ 18 ≤ h ∨ 64 ≤ c then .next s
  else match s.logicalOf h with
    | none => .next s
    | some l =>
      if s.chState h c = 2 ∨ s.chState h c = 3 then .next (s.raise Fld.DMA_CH_STATUS_CFG_REFUSED h c)
      else .next { s with dma := { s.dma with cfgNew := s.dma.cfgNew.put (l * 64 + c) (BitVec.ofNat 32 (bitsOf value 10 8 * 256 + value % 8)) } }

/-- A staged configuration takes effect: a channel with a service of its own is IDLE. -/
def State.cfgLand (s : State) (e : Nat × Word) : State :=
  match s.physOf (e.1 / 64) with
  | none => { s with dma := { s.dma with conf := s.dma.conf.put (e.1 / 64 * 2 ^ 24 + 0x3100 + 32 * (e.1 % 64)) e.2 } }
  | some h =>
    let c := e.1 % 64
    let s := s.setWord .DMA_CH_CFG e.2 h c
    s.setChState h c (if s.dmaService h c = 0 then 0 else if s.chState h c = 0 then 1 else s.chState h c)

/-- A chain channel of a hall that runs a logical hall. -/
def State.chainChannel (s : State) (who : Who) (h c : Nat) : Bool :=
  s.mayWrite who && decide (h < 18) && decide (c < 64) && (s.logicalOf h).isSome && s.isChain h c && s.dmaService h c % 2 == 1

/-- DMA_CH_START (R359): an IDLE or HALTED chain channel starts at DMA_CH_CHAIN. -/
def execDmaChStart (who : Who) (h c : Nat) (s : State) : Answer :=
  if !s.chainChannel who h c ∨ (s.chState h c ≠ 1 ∧ s.chState h c ≠ 5) then .next s
  else .next ((s.setDch h c { s.dch h c with atEnd := false, links := 0, next := s.fld Fld.DMA_CH_CHAIN_LO_ADDR h c + 2 ^ 32 * s.fld Fld.DMA_CH_CHAIN_HI_ADDR h c }).setChState h c 2)

/-- DMA_CH_KICK (R354): a PARKED chain channel fetches its descriptor again. -/
def execDmaChKick (who : Who) (h c : Nat) (s : State) : Answer :=
  if s.chainChannel who h c ∧ s.chState h c = 3 then .next (s.setChState h c 2) else .next s

end Sys2Proof.Machine
end

