-- ==== Sys2Proof/Machine/Carriers.lean ====
section
/-! DEFINITION. Bursts (R117, R142, R144, R145, R345) and carriers (R341, R342, R350): what a hall's best-effort traffic with a host port waits for,
what a burst takes along, how its flits pass the port, and where they land. -/

namespace Sys2Proof.Machine

/-! ### Units of a descriptor's data (R345) -/

/-- The data of a toward-far unit: alcove octets, then the CRC; with whether a line of it is poisoned. -/
def State.towardData (s : State) (h : Nat) (d : DmaDesc) (off n : Nat) : DmaDesc × Bytes × Bool :=
  let len := dmaLen d.bytes
  let m := min n (len - off)
  let data := s.alcoveRead h (dmaLocal d.bytes + off) m
  let bad := decide (0 < m) && s.alcoveBad h (dmaLocal d.bytes + off) m
  let d := d.addCrc data
  (d, data ++ ((leBytes 8 d.result).drop (off + m - len)).take (n - m), bad)

/-- Take one unit of a descriptor's data from its place onward; none where the list is not fetched so far. -/
def State.takeUnit (s : State) (h c : Nat) (d : DmaDesc) : Option (State × DmaUnit) :=
  let n := min 64 (d.end_ - d.moved)
  if d.reach < d.moved + n then none
  else
    let (d1, data, bad) := if dmaFrom d.bytes then (d, [], false) else s.towardData h d d.moved n
    let d1 := { d1 with moved := d.moved + n }
    let d1 := if bad then d1.fail St.busError 0 else d1
    let s := ((s.poisonUse bad).setDesc h c d1).bump64 Fld.DMA_CNT_BYTES_LO_COUNT Fld.DMA_CNT_BYTES_HI_COUNT (min n (dmaLen d.bytes - d.moved)) h
    some (s, { kind := 0, ch := c, desc := d.id, off := d.moved, len := n, data := data, bad := bad })

/-- A descriptor's data may go into a planned burst now: it is ready, and from a host was so at the read lead (R344, R345, R351). -/
def State.planReady (s : State) (c : Nat) (d : DmaDesc) : Bool :=
  match d.readyAt with
  | some t => d.open_ && (decide (32 ≤ c) || decide (c % 4 < 2) || decide (t + 64 * treadTicks ≤ s.now))
  | none => false

/-- Fill a planned burst with up to so many units of a channel's data in order. -/
def State.fillPlanned (s : State) (h c : Nat) : Nat → State × List DmaUnit
  | 0 => (s, [])
  | n + 1 =>
    match (s.dch h c).descs.find? DmaDesc.open_ with
    | none => (s, [])
    | some d =>
      if !s.planReady c d then (s, [])
      else match s.takeUnit h c d with
        | none => ((s.raise Fld.DMA_STATUS_SG_STALL h).bump Fld.DMA_CNT_SG_STALL_COUNT h, [])
        | some (s, u) => let (s, us) := s.fillPlanned h c n; (s, u :: us)

/-! ### What waits for a carrier toward a port (R342, R355, R373) -/

/-- Octets of a post. -/
def Post.size (x : Post) : Nat :=
  match x.load with
  | .record _ _ => 32
  | .word _ _ b => b.length
  | .data _ _ b => b.length

/-- A post has something that no burst has taken. -/
def Post.left (x : Post) : Bool := x.again != [] || decide (x.taken < x.size)

/-- The place of the next unit of a post, and the post once that is taken. -/
def Post.next (x : Post) : Nat × Post :=
  match x.again with
  | o :: t => (o, { x with again := t })
  | [] => (x.taken, { x with taken := min x.size (x.taken + 64) })

/-- Data of a queue's descriptor up to an index waits among posts (R373). -/
def dataAhead (l : List Post) (k i : Nat) : Bool :=
  l.any (fun x => match x.own with | some (q, j) => q == k && decide (sub32 i j < 2 ^ 31) | none => false)

/-- A record or word that a carrier may take now: its descriptors' data has gone ahead. -/
def Post.mayGo (l : List Post) (x : Post) : Bool :=
  x.left && (match x.load with
    | .record _ r => (match r.mark with | some (k, w) => !dataAhead l k (sub32 w 1) | none => true)
    | .word _ _ _ => true
    | .data _ _ _ => false)

/-- Put a post back into its list. -/
def State.putPost (s : State) (h p : Nat) (x : Post) : State := s.setPosts h p ((s.posts h p).map (fun y => if y.id = x.id then x else y))

/-- Take the next unit of a post. -/
def State.takePost (s : State) (h p : Nat) (x : Post) : State × DmaUnit :=
  let (off, y) := x.next
  (s.putPost h p y, { kind := 2, ch := p, desc := x.id, off := off, len := min 64 (x.size - off), data := [], bad := false })

/-- Completion records and write-back words, in the order in which their descriptors completed. -/
def State.fillRecords (s : State) (h p : Nat) : Nat → State × List DmaUnit
  | 0 => (s, [])
  | n + 1 =>
    match (s.posts h p).find? (fun x => x.mayGo (s.posts h p)) with
    | none => (s, [])
    | some x => let (s, u) := s.takePost h p x; let (s, us) := s.fillRecords h p n; (s, u :: us)

/-! ### Read requests (R341, R342, R350, R415) -/

/-- The next request of n octets from an offset of some pieces: its address and length, in one piece and within a maximum. -/
def pieceAt : List (Nat × Nat) → Nat → Nat → Option (Nat × Nat)
  | [], _, _ => none
  | (a, l) :: t, off, most => if l ≤ off then pieceAt t (off - l) most else some (a + off, min most (l - off))

/-- The most octets that a port requests at once from an address. -/
def State.readMost (s : State) (p a : Nat) : Nat := min (128 * 2 ^ (s.hp p).mrrs) (4096 - a % 4096)

/-- The next request of a hall's read: its offset, address and length. -/
def State.nextAsk (s : State) (p : Nat) (r : HallRead) : Option (Nat × Nat × Nat) :=
  match r.again with
  | (o, n) :: _ => (pieceAt r.pieces o n).map (fun e => (o, e.1, e.2))
  | [] =>
    match pieceAt r.pieces r.asked (128 * 2 ^ (s.hp p).mrrs) with
    | some (a, n) => some (r.asked, a, min n (s.readMost p a))
    | none => none

/-- The next read request of a from-host descriptor: its far address and length (R415). -/
def State.nextRead (s : State) (p : Nat) (d : DmaDesc) : Option (Nat × Nat) :=
  if !dmaFrom d.bytes ∨ d.end_ ≤ d.asked ∨ d.reach ≤ d.asked then none
  else match d.pieces d.asked (min (128 * 2 ^ (s.hp p).mrrs) (min d.end_ d.reach - d.asked)) with
    | (a, n) :: _ => some (a, min n (4096 - a % 4096))
    | [] => none

/-- Octets that best-effort reads of a hall at a port have outstanding or waiting (R350). -/
def State.readsHeld (s : State) (h p : Nat) : Nat :=
  let mine := s.dma.reads.foldl (fun n (r : HallRead) => if r.hall = h ∧ portOf r.fn = p then n + (r.asked - r.taken) else n) 0
  (List.range 64).foldl (fun n c =>
    if s.dmaService h c = 3 ∧ portOf (s.chFn h c) = p then (s.dch h c).descs.foldl (fun m (d : DmaDesc) => if dmaFrom d.bytes then m + (d.asked - d.moved) else m) n else n) mine

/-- Replace a read of a hall. -/
def State.setRead (s : State) (r : HallRead) : State := { s with dma := { s.dma with reads := s.dma.reads.map (fun x => if x.id = r.id then r else x) } }

/-- Ring entries that a hall's queue wants read: from its next index up to P, at most 16 (R366). -/
def Queue.wants (q : Queue) : List Nat :=
  let next := if q.isRq then add32 q.c q.ready.length else q.c
  (List.range (min 16 (sub32 q.p next))).map (fun i => add32 next i)

/-- The reads that the queues of a hall want: entries of their rings, and the frames of ETH descriptors. -/
def State.queueReads (s : State) (h p : Nat) : List HallRead :=
  s.wq.queues.flatMap (fun (e : Nat × Queue) =>
    let q := e.2
    if 65536 ≤ e.1 ∨ !q.present ∨ s.servingHall q ≠ h ∨ portOf q.fn ≠ p ∨ !(s.fn q.fn).bme then []
    else
      let mk := fun kind arg pieces => ({ id := 0, hall := h, kind := kind, key := e.1, arg := arg, fn := q.fn, pieces := pieces } : HallRead)
      (if q.state = .active ∧ s.fnRuns q.fn then q.wants.map (fun i => mk 0 i [(q.base + 64 * (i % 2 ^ q.sizeLog2), 64)]) else []) ++
        (if q.isRq ∨ q.kind ≠ 0 then []
        else q.ready.filterMap (fun d =>
          if bitOf (leAt d.bytes 0x17 1) 0 ∨ (s.ethCheck q.fn d.bytes).isSome then none else some (mk 3 d.idx [(leAt d.bytes 8 8, leAt d.bytes 0x10 4)]))))

/-- The entries of a list that one read asks for: those up to the end of their 64 octets. -/
def sgRead (a : Nat) : Nat := if a % 16 = 0 then 64 - a % 64 else 16

/-- The reads that the channels of a hall want: the next descriptor of a chain, and the list being followed. -/
def State.channelReads (s : State) (h p : Nat) : List HallRead :=
  (List.range 64).flatMap (fun c =>
    let x := s.dch h c
    let fn := s.chFn h c
    if !s.dmaFetches h c ∨ s.inAlcove h c ∨ portOf fn ≠ p then []
    else
      let mk := fun kind arg n => ({ id := 0, hall := h, kind := kind, key := h * 64 + c, arg := arg, fn := fn, pieces := [(arg, n)] } : HallRead)
      (if s.isChain h c ∧ s.chState h c = 2 ∧ !x.atEnd ∧ (x.descs.filter DmaDesc.open_).length < 4 then [mk 1 x.next 64] else []) ++
        (match x.descs.find? (fun d => d.sgNext.isSome) with | some d => [mk 2 (d.sgNext.getD 0) (sgRead (d.sgNext.getD 0))] | none => []))

/-- The reads that the cipher jobs of a hall want: additional data, text and tag, in this order. -/
def State.jobReads (s : State) (h p : Nat) : List HallRead :=
  (s.cphOf h).jobs.filterMap (fun j =>
    let tag := if j.decrypt ∧ j.mode ≠ 2 then [(j.from_ + j.len, 16)] else []
    if j.srcHost ∧ j.src = 0 ∧ portOf j.fn = p ∧ (s.fn j.fn).bme then
      some { id := 0, hall := h, kind := 4, key := 0, arg := j.id, fn := j.fn, pieces := [(j.aad, j.aadLen), (j.from_, j.len)] ++ tag }
    else none)

/-- Two reads are for the same. -/
def HallRead.sameAs (x y : HallRead) : Bool := x.hall == y.hall && x.kind == y.kind && x.key == y.key && x.arg == y.arg

/-- The reads that a hall makes through its carriers to a port: those wanted now join, those that nothing wants any more go once they have come in. A
storage command's reads go when it ends. -/
def State.openReads (s : State) (h p : Nat) : State :=
  let want := s.queueReads h p ++ s.channelReads h p ++ s.jobReads h p
  let keep := s.dma.reads.filter (fun r => r.hall != h || portOf r.fn != p || r.kind == 5 || want.any r.sameAs || decide (r.carried < r.asked))
  let new := want.filter (fun r => !keep.any r.sameAs)
  let s := { s with dma := { s.dma with reads := keep } }
  new.foldl (fun (s : State) r => { s with dma := { s.dma with reads := s.dma.reads ++ [{ r with id := s.dma.nextId }], nextId := s.dma.nextId + 1 } }) s

/-- A read request is taken into a carrier. -/
def HallRead.ask (r : HallRead) (n : Nat) : HallRead :=
  match r.again with
  | _ :: t => { r with again := t, asked := r.asked + n }
  | [] => { r with asked := r.asked + n }

/-- Requests of a hall's own reads that a carrier takes along, one unit each, while 64 KiB are not outstanding or waiting (R350). -/
def State.fillAsks (s : State) (h p : Nat) : Nat → State × List DmaUnit
  | 0 => (s, [])
  | n + 1 =>
    match s.dma.reads.find? (fun r => r.hall == h && portOf r.fn == p && (s.nextAsk p r).isSome) with
    | none => (s, [])
    | some r =>
      match s.nextAsk p r with
      | none => (s, [])
      | some (off, _, len) =>
        if 65536 < s.readsHeld h p + len then (s, [])
        else
          let (s, us) := (s.setRead (r.ask len)).fillAsks h p n
          (s, { kind := 3, ch := 0, desc := r.id, off := off, len := len, data := [], bad := false } :: us)

/-! ### QUEUE data (R338, R342) -/

/-- Place a channel's descriptor among others by its age. -/
def byAge (e : Nat × DmaDesc) : List (Nat × DmaDesc) → List (Nat × DmaDesc)
  | [] => [e]
  | x :: t => if e.2.since ≤ x.2.since then e :: x :: t else x :: byAge e t

/-- The QUEUE channels of a class of a hall for a host port, oldest first, each with its first descriptor that has more to move, of functions with
allowance (R429). -/
def State.queueWork (s : State) (h p cls : Nat) : List (Nat × DmaDesc) :=
  List.foldr byAge [] ((List.range 64).filterMap (fun c =>
    if s.dmaService h c = 3 ∧ s.fld Fld.DMA_CH_CFG_CLASS h c = cls ∧ portOf (s.chFn h c) = p ∧ (s.fn (s.chFn h c)).bme ∧ s.allowed h cls (some (s.chFn h c))
    then ((s.dch h c).descs.find? DmaDesc.open_).map (fun d => (c, d)) else none))

/-- The classes of a hall in ascending rank. -/
def State.classRanks (s : State) (h : Nat) : List Nat := (s.ranked h).map (fun r => r.1)

/-- Read requests for QUEUE data that a carrier takes along, one unit each. -/
def State.fillReads (s : State) (h p : Nat) : Nat → State × List DmaUnit
  | 0 => (s, [])
  | n + 1 =>
    match ((s.classRanks h).flatMap (s.queueWork h p)).find? (fun e => (s.nextRead p e.2).isSome) with
    | none => (s, [])
    | some (c, d) =>
      match s.nextRead p d with
      | none => (s, [])
      | some (_, len) =>
        if 65536 < s.readsHeld h p + len then (s, [])
        else
          let (s, us) := (s.setDesc h c { d with asked := d.asked + len }).fillReads h p n
          (s, { kind := 1, ch := c, desc := d.id, off := d.asked, len := len, data := [], bad := false } :: us)

/-- Octets of a descriptor that have arrived from an offset on; the fuel bounds the pieces. -/
def gotAt (got : List (Nat × Bytes)) : Nat → Nat → Nat → Option Bytes
  | _, _, 0 => some []
  | 0, _, _ + 1 => none
  | fuel + 1, off, n + 1 =>
    match got.find? (fun e => decide (e.1 ≤ off) && decide (off < e.1 + e.2.length)) with
    | none => none
    | some e =>
      let x := (e.2.drop (off - e.1)).take (n + 1)
      (gotAt got fuel (off + x.length) (n + 1 - x.length)).map (fun r => x ++ r)

/-- The next unit of a descriptor can be taken: toward the host as it is, from the host once its data has arrived. -/
def unitReady (inbound : Bool) (e : Nat × DmaDesc) : Bool :=
  let n := min 64 (e.2.end_ - e.2.moved)
  dmaFrom e.2.bytes == inbound && decide (e.2.moved + n ≤ e.2.reach) && (!inbound || (gotAt e.2.got 65 e.2.moved n).isSome)

/-- The data of a class that a carrier toward a port takes first: what has waited longest, a post or a channel's descriptor. Posts are the work of
functions that has been admitted already (log entry 67). -/
def State.dataNext (s : State) (h p cls : Nat) : Option (Post ⊕ (Nat × DmaDesc)) :=
  let post := (s.posts h p).find? (fun x => x.left && x.cls == cls && (match x.load with | .data f _ _ => (s.fn f).bme | _ => false))
  let desc := (s.queueWork h p cls).find? (unitReady false)
  match post, desc with
  | some x, some e => if x.since ≤ e.2.since then some (.inl x) else some (.inr e)
  | some x, none => some (.inl x)
  | none, some e => some (.inr e)
  | none, none => none

/-- Data units that a carrier toward a host takes, by class in ascending rank; data of a class that the hall does not rank comes last. -/
def State.fillToward (s : State) (h p : Nat) : Nat → State × List DmaUnit
  | 0 => (s, [])
  | n + 1 =>
    match (s.classRanks h ++ List.range 8).findSome? (s.dataNext h p) with
    | none => (s, [])
    | some (.inl x) => let (s, u) := s.takePost h p x; let (s, us) := s.fillToward h p n; (s, u :: us)
    | some (.inr (c, d)) =>
      match s.takeUnit h c d with
      | none => (s, [])
      | some (s, u) => let (s, us) := s.fillToward h p n; (s, u :: us)

/-- The read data of a hall that waits longest in a port's buffer: a read of the hall's, or a QUEUE descriptor. -/
def State.heldNext (s : State) (h p : Nat) : Option (HallRead ⊕ (Nat × DmaDesc)) :=
  let read := s.dma.reads.find? (fun r => r.hall == h && portOf r.fn == p && decide (r.taken < r.here))
  let desc := (List.foldr byAge [] ((List.range 8).flatMap (s.queueWork h p))).find? (unitReady true)
  match read, desc with
  | some r, some e => if r.id ≤ e.2.id then some (.inl r) else some (.inr e)
  | some r, none => some (.inl r)
  | none, some e => some (.inr e)
  | none, none => none

/-- Units that a carrier from a host takes, oldest first. -/
def State.fillFrom (s : State) (h p : Nat) : Nat → State × List DmaUnit
  | 0 => (s, [])
  | n + 1 =>
    match s.heldNext h p with
    | none => (s, [])
    | some (.inl r) =>
      let m := min 64 (r.here - r.taken)
      let (s, us) := (s.setRead { r with taken := r.taken + m }).fillFrom h p n
      (s, { kind := 4, ch := 0, desc := r.id, off := r.taken, len := m, data := [], bad := false } :: us)
    | some (.inr (c, d)) =>
      match s.takeUnit h c d with
      | none => (s, [])
      | some (s, u) => let (s, us) := s.fillFrom h p n; (s, u :: us)

/-- What a carrier of so many units takes along, in the order of R342. -/
def State.fillCarrier (s : State) (h p : Nat) (toward : Bool) (n : Nat) : State × List DmaUnit :=
  if !toward then s.fillFrom h p n
  else
    let (s, a) := s.fillRecords h p n
    let (s, b) := (s.openReads h p).fillAsks h p (n - a.length)
    let (s, c) := s.fillReads h p (n - a.length - b.length)
    let (s, d) := s.fillToward h p (n - a.length - b.length - c.length)
    (s, a ++ b ++ c ++ d)

/-! ### DMA ops (R117, R142, R345) -/

/-- A burst starts. -/
def State.addBurst (s : State) (b : Burst) : State :=
  { s with dma := { s.dma with bursts := s.dma.bursts ++ [{ b with id := s.dma.nextId }], nextId := s.dma.nextId + 1 } }

/-- Bus Master Enable of the function that a channel's host addresses belong to. -/
def State.chBme (s : State) (h c : Nat) : Bool := (s.fn (s.chFn h c)).bme

/-- The stops that a burst of a channel that does not end at a host port may have at its far end (R339). -/
def State.farStops (s : State) (c : Nat) : List (Nat × Nat) :=
  if c < 48 then (List.range 4).map (Plan.quarterStop ((c - 32) / 4))
  else match s.physOf (c - 48) with | some f => [Plan.hallStop f] | none => []

/-- Gallery clocks from a burst's entry to its end where that is no host port: as a MOVE of so many flits on the shorter ring (R140 to R142, R149, R150). -/
def State.farClocks (s : State) (h c n : Nat) (toward : Bool) : Nat :=
  let x := Plan.hallStop h
  let ys := s.farStops c
  let r := Plan.shortRing x ys toward
  let d := ys.foldl (fun m y => max m (if toward then Plan.pathDelay r x y else Plan.pathDelay r y x)) 0
  if !toward then 4 + 2 * d + 28 + n - 1 + 4 else if c < 48 then 4 + n - 1 + d + 12 else 4 + n - 1 + d + 4

/-- DMA_OP (R117, R142, R338, R342, R345, R414): a planned burst takes the channel's data, a carrier the hall's best-effort units; one
that moves nothing keeps its occupancy and is counted. -/
def execDmaOp (h : Nat) (s : State) : Answer :=
  match s.takeOp h 2 0x31 with
  | none => .next s
  | some (o, s) =>
    let c := bitsOf o 48 43
    let n := bitsOf o 42 27
    let s := s.occupy h o 1
    let host := decide (c < 32)
    let p := c / 4
    let toward := if c < 48 then decide (c % 4 < 2) else true
    let first := s.galleryAt h o (if host then 4 + 2 * Plan.naveHops h toward else s.farClocks h c (ceilDiv n 2) toward)
    let b : Burst := { id := 0, hall := h, ch := c, port := if host then some p else none, toward := toward, units := [], flits := ceilDiv n 2, first := first, arrived := 0, sent := 0, drop := [], last := 0 }
    let idle := fun (s : State) => (s.bump Fld.TSQ_CNT_DMA_IDLE_COUNT h).addBurst b
    if s.flag Fld.DMA_STATUS_STOPPED h ∨ (host ∧ s.plannedBlocked p) then .next (idle s)
    else if s.dmaService h c = 1 then
      if host ∧ !s.chBme h c then .next (idle s)
      else
        let (s, us) := s.fillPlanned h c n
        .next (if us = [] then idle s else s.addBurst { b with units := us })
    else if s.dmaService h c = 2 then
      let (s, us) := if !host then (s, []) else s.fillCarrier h p toward n
      let s := s.bump64 Fld.DMA_CNT_CARRIER_IDLE_LO_COUNT Fld.DMA_CNT_CARRIER_IDLE_HI_COUNT (n - us.length) h
      .next (if us = [] then idle s else s.addBurst { b with units := us })
    else .next (idle s)

/-! ### Landing a unit -/

/-- The descriptor that a unit belongs to, where it is a unit of one. -/
def State.unitDesc (s : State) (h : Nat) (u : DmaUnit) : Option DmaDesc :=
  if u.kind ≤ 1 then (s.dch h u.ch).descs.find? (fun d => d.id == u.desc) else none

/-- Data that comes from the far end is written into the alcove; CRC octets of the far end are kept for the CHECK. -/
def State.landFrom (s : State) (h : Nat) (u : DmaUnit) (data : Bytes) (poison : Option Nat) : State :=
  match s.unitDesc h u with
  | none => s
  | some d =>
    let m := min u.len (dmaLen d.bytes - u.off)
    let x := data.take m
    let a := dmaLocal d.bytes + u.off
    let s := s.putAlcove h a x
    let s := match poison with | some k => s.poisonAlcove h a m k | none => s
    s.setDesc h u.ch { d.addCrc x with landed := u.off + u.len, farCrc := d.farCrc ++ data.drop m, got := d.got.filter (fun e => decide (u.off + u.len < e.1 + e.2.length)) }

/-- A write leaves a port with a flit: as it is, or as a poisoned packet (R508). -/
def State.portWrite (s : State) (bad : Bool) (f a : Nat) (b : Bytes) : State := if bad then s.leave (.tlp (portOf f) 8 [f, a] b) else s.hostPut f a b

/-- Data that goes to a host: posted writes, or poisoned packets that end the descriptor with BUS_ERROR (R508). -/
def State.landHost (s : State) (h : Nat) (u : DmaUnit) (bad : Bool) : State :=
  match s.unitDesc h u with
  | none => s
  | some d =>
    let d := { d with landed := u.off + u.len }
    let s := s.setDesc h u.ch (if bad then d.fail St.busError 0 else d)
    ((d.pieces u.off u.len).foldl (fun (x : State × Bytes) p => (x.1.portWrite bad d.fn p.1 (x.2.take p.2), x.2.drop p.2)) (s, u.data)).1

/-- One piece of a unit goes to an Atrium stack or an alcove. -/
def State.landFarPiece (s : State) (d : DmaDesc) (bad : Bool) (a : Nat) (b : Bytes) : State :=
  if dmaSpace d.bytes = 1 then
    let k := dmaIndex d.bytes
    let s := if a % 512 = 0 then { s with flt := { s.flt with poisonAtrium := s.flt.poisonAtrium.filter (fun m => m != k * 2 ^ 26 + a / 512) } } else s
    let s := s.atriumWrite k a b
    if bad && !s.beatBad k a then s.poisonBeat k a 0 else s
  else match s.physOf (dmaIndex d.bytes) with
    | some f => if bad then (s.putAlcove f a b).poisonAlcove f a b.length 0 else s.putAlcove f a b
    | none => s

/-- Data that goes to an Atrium stack or another hall's alcove. -/
def State.landFar (s : State) (h : Nat) (u : DmaUnit) (bad : Bool) : State :=
  match s.unitDesc h u with
  | none => s
  | some d =>
    let s := s.setDesc h u.ch { d with landed := u.off + u.len }
    ((d.pieces u.off u.len).foldl (fun (x : State × Bytes) p => (x.1.landFarPiece d bad p.1 (x.2.take p.2), x.2.drop p.2)) (s, u.data)).1

/-- A part of a post leaves its port: when that is all of it, a record is written at its place in its CQ, a write-back word in two writes, and the
post is gone (R354, R355, R373). -/
def State.postUnit (s : State) (h p : Nat) (u : DmaUnit) (bad : Bool) : State :=
  match (s.posts h p).find? (fun x => x.id == u.desc) with
  | none => s
  | some x =>
    let s := match x.load with
      | .data f a b => s.portWrite bad f (a + u.off) ((b.drop u.off).take u.len)
      | _ => s
    if x.gone + u.len < x.size then s.putPost h p { x with gone := x.gone + u.len }
    else
      let s := s.setPosts h p ((s.posts h p).filter (fun y => y.id != x.id))
      match x.load with
      | .record k r => if (s.cq k).present then (s.setCq k { s.cq k with posted := (s.cq k).posted - 1 }).cqWrite (fun s => s.portWrite bad) k r else s
      | .word f a b => (s.portWrite bad f a (b.take 7)).portWrite bad f (a + 7) (b.drop 7)
      | .data _ _ _ => s

/-! ### Requests to a host (R351, R415) -/

/-- Non-posted requests that a port may keep outstanding (R415). -/
def HpSt.tagLimit (p : HpSt) : Nat := if p.tags10 then 768 else 256

/-- Show the requests outstanding. -/
def State.showTags (s : State) (p : Nat) : State := s.setFld Fld.EP_PORT_STATUS_TAGS_OUT (s.hp p).reqs.length 0 p

/-- A read request leaves a port under the next free tag. purpose, arg and arg2 say whose it is: 1 planned and 2 QUEUE data of a channel, 3 another read of
a hall (64 times the hall plus the channel; 2^32 times the descriptor's or read's number plus the offset). -/
def State.sendRead (s : State) (p purpose fn addr len arg arg2 : Nat) : State :=
  let t := s.hp p
  let tag := ((List.range (t.reqs.length + 1)).find? (fun i => !t.reqs.any (fun r => r.tag == (t.nextTag + i) % t.tagLimit))).getD 0
  let tag := (t.nextTag + tag) % t.tagLimit
  let r : HostReq := { tag := tag, fn := fn, addr := addr, len := len, purpose := purpose, arg := arg, arg2 := arg2, sent := s.now }
  ((s.setHp p { t with reqs := t.reqs ++ [r], nextTag := (tag + 1) % t.tagLimit, late := t.late.filter (· != tag) }).showTags p).leave (.hostRead fn addr len)

/-- Planned data that a port has asked for and not yet released (R350). -/
def State.aheadHeld (s : State) (p : Nat) : Nat :=
  (List.range 18).foldl (fun n h => [4 * p + 2, 4 * p + 3].foldl (fun n c => (s.dch h c).descs.foldl (fun m (d : DmaDesc) => m + (d.asked - d.landed)) n) n) 0

/-- READ_AHEAD_REQUEST (R350, R351, R415): the Nave port asks for the next host data of a planned from-host channel, within its 1 MiB and
the tags that planned reads may use. -/
def execReadAheadRequest (h c at_ : Nat) (s : State) : Answer :=
  let s := s.atTime at_
  let p := c / 4
  if 18 ≤ h ∨ 32 ≤ c ∨ c % 4 < 2 ∨ s.dmaService h c ≠ 1 ∨ s.plannedBlocked p ∨ s.flag Fld.DMA_STATUS_STOPPED h ∨ !s.chBme h c then .next s
  else if (s.hp p).tagLimit - 64 ≤ ((s.hp p).reqs.filter (fun r => r.purpose == 1)).length ∨ (s.hp p).tagLimit ≤ (s.hp p).reqs.length then .next s
  else match (s.dch h c).descs.find? (fun d => (s.nextRead p d).isSome) with
    | none => .next s
    | some d =>
      match s.nextRead p d with
      | none => .next s
      | some (a, n) =>
        if 1048576 < s.aheadHeld p + n then .next s
        else .next ((s.setDesc h c { d with asked := d.asked + n }).sendRead p 1 d.fn a n (h * 64 + c) (d.id * 2 ^ 32 + d.asked))

/-! ### Passing a host port (R144, R145, R147, R352) -/

/-- A Gallery clock. -/
def galTick : Nat := treadTicks / 128

/-- Flits per 256 Gallery clocks of a link's width code and generation: R144's table, and for the x2 and x1 links that R147 paces at their own rate the half of the next
wider one (log entry 67). -/
def flitRate (width gen : Nat) : Nat :=
  let x4 := [5, 11, 22, 44].getD gen 44
  match width with
  | 0 => max 1 (x4 / 4)
  | 1 => x4 / 2
  | 2 => x4
  | 3 => [11, 22, 44, 88].getD gen 88
  | _ => [22, 44, 88, 176].getD gen 176

/-- The time that a flit occupies a port at the width and generation that its link runs at, in 880ths of a tick: a whole number for every rate of R144. -/
def State.flitTime (s : State) (p : Nat) : Nat := 880 * 256 * galTick / flitRate (s.fld Fld.EP_PORT_STATUS_WIDTH 0 p) (s.fld Fld.EP_PORT_STATUS_GEN 0 p)

/-- The units of a flit of a burst; none in an idle one. -/
def Burst.flit (b : Burst) (f : Nat) : List DmaUnit := (b.units.drop (2 * f)).take 2

/-- When a flit of a burst reaches its port's staging queue: toward a host one by one, from a host with the command. -/
def Burst.at_ (b : Burst) (f : Nat) : Nat := if b.toward then b.first + f * galTick else b.first

/-- The flits that pass the port and direction of a burst next to one another are ordered by this: toward a host by their arrival, East before West; from a
host by the order of issue alone. -/
def Burst.turn (b : Burst) (f : Nat) : Nat := if b.toward then 2 * b.at_ f + b.hall / 9 else 0

/-- A burst passes a port in a direction. -/
def Burst.through (b : Burst) (p : Nat) (toward : Bool) : Bool := b.port == some p && b.toward == toward

/-- Flits of a port and direction that wait in its staging queue. -/
def State.flitsWaiting (s : State) (p : Nat) (toward : Bool) : Nat :=
  s.dma.bursts.foldl (fun n (b : Burst) => if b.through p toward then n + (b.arrived - b.sent - (b.drop.filter (fun f => decide (b.sent ≤ f))).length) else n) 0

def State.setBurst (s : State) (b : Burst) : State := { s with dma := { s.dma with bursts := s.dma.bursts.map (fun x => if x.id = b.id then b else x) } }

/-- The burst whose next flit comes first; of equal ones the one issued first. -/
def nextBurst (pick : Burst → Option Nat) : List Burst → Option (Burst × Nat)
  | [] => none
  | b :: t =>
    match pick b, nextBurst pick t with
    | none, r => r
    | some x, none => some (b, x)
    | some x, some (c, y) => if x ≤ y then some (b, x) else some (c, y)

/-- A discarded unit (R147): data ends its descriptor with BUS_ERROR, detail STAGING, and what else it carried is to be taken again (log entry 67). -/
def State.discardUnit (s : State) (h p : Nat) (u : DmaUnit) : State :=
  match u.kind with
  | 2 => match (s.posts h p).find? (fun x => x.id == u.desc) with
    | some x => s.putPost h p { x with again := x.again ++ [u.off] }
    | none => s
  | 3 => match s.dma.reads.find? (fun r => r.id == u.desc) with
    | some r => s.setRead { r with asked := r.asked - u.len, again := r.again ++ [(u.off, u.len)] }
    | none => s
  | 4 => match s.dma.reads.find? (fun r => r.id == u.desc) with
    | some r => s.setRead { r with asked := r.asked - u.len, here := r.here - u.len, taken := r.taken - u.len, again := r.again ++ [(u.off, u.len)] }
    | none => s
  | _ => match s.unitDesc h u with
    | some d =>
      let d := d.fail St.busError 0x0C
      s.setDesc h u.ch (if u.kind = 1 then { d with got := d.got ++ [(u.off, List.replicate u.len 0)] } else { d with landed := u.off + u.len })
    | none => s

/-- The staging occupancy of a port and direction, as GAL_HOSTQ_MAX keeps its highest. -/
def State.showHostq (s : State) (p : Nat) (toward : Bool) : State :=
  let f := if toward then Fld.GAL_HOSTQ_MAX_MAX_OUT else Fld.GAL_HOSTQ_MAX_MAX_IN
  s.setFld f (max (s.fld f 0 p) (s.flitsWaiting p toward)) 0 p

/-- Flits that have reached the port by now join its queue of 512, or are discarded (R145, R147). The fuel bounds them. -/
def State.arriveFlits (s : State) (p : Nat) (toward : Bool) : Nat → State
  | 0 => s
  | fuel + 1 =>
    match nextBurst (fun b => if b.through p toward ∧ b.arrived < b.flits ∧ b.at_ b.arrived ≤ s.now then some (b.turn b.arrived) else none) s.dma.bursts with
    | none => s
    | some (b, _) =>
      let full := decide (512 ≤ s.flitsWaiting p toward)
      let s := s.setBurst { b with arrived := b.arrived + 1, drop := if full then b.drop ++ [b.arrived] else b.drop }
      let s := if full then (b.flit b.arrived).foldl (fun (s : State) u => s.discardUnit b.hall p u) (s.raise Fld.GAL_STATUS_HOSTQ_OVF) else s.showHostq p toward
      s.arriveFlits p toward fuel

/-- Skip discarded flits of a burst. -/
def Burst.skip (b : Burst) : Nat → Burst
  | 0 => b
  | n + 1 => if b.drop.contains b.sent then Burst.skip { b with sent := b.sent + 1 } n else b

/-- A flit has failed its link check (R156). -/
def State.flitError (s : State) (bad : Bool) : State := if bad then (s.bump Fld.GAL_CNT_FLIT_ERR_COUNT).raise Fld.GAL_STATUS_FLIT_ERR else s

/-- One unit of an outbound flit leaves its port; bad: with a poison mark. -/
def State.sendUnit (s : State) (p h : Nat) (bad : Bool) (u : DmaUnit) : State :=
  match u.kind with
  | 1 => match s.unitDesc h u with
    | some d => (match d.pieces u.off u.len with | (a, _) :: _ => s.sendRead p 2 d.fn a u.len (h * 64 + u.ch) (d.id * 2 ^ 32 + u.off) | [] => s)
    | none => s
  | 2 => s.postUnit h p u (bad || u.bad)
  | 3 => match s.dma.reads.find? (fun r => r.id == u.desc) with
    | some r => (match pieceAt r.pieces u.off u.len with | some (a, n) => s.sendRead p 3 r.fn a n (h * 64 + r.key % 64) (r.id * 2 ^ 32 + u.off) | none => s)
    | none => s
  | _ => s.landHost h u (bad || u.bad)

/-- One unit of an inbound flit is released to its hall: what has not wholly arrived goes poisoned, and its descriptor ends with
BUS_ERROR, detail LATE_DATA (R352). A unit of another read adds to what the hall has, behind the cipher operations that could start before. The answer is whether it was late. -/
def State.releaseUnit (s : State) (h : Nat) (bad : Bool) (u : DmaUnit) : State × Bool :=
  if u.kind = 4 then
    match s.dma.reads.find? (fun r => r.id == u.desc) with
    | some r => ((s.cipherTo s.now).setRead { r with carried := r.carried + u.len, bad := r.bad || bad }, false)
    | none => (s, false)
  else match s.unitDesc h u with
    | none => (s, false)
    | some d =>
      match gotAt d.got 65 u.off u.len with
      | some x => (s.landFrom h u x (if bad then some 0 else none), false)
      | none =>
        let s := s.setDesc h u.ch (d.fail St.busError 0x0B)
        (s.landFrom h u (List.replicate u.len 0) (some 2), true)

/-- The departure of a burst's next flit (R145), in 880ths of a tick. -/
def State.departure (s : State) (p : Nat) (toward : Bool) (b : Burst) : Nat :=
  let last := if toward then s.gal.hostOut.get 0 p else s.gal.hostIn.get 0 p
  max (880 * (b.at_ b.sent + 8 * galTick)) (if last = 0 then 0 else last + s.flitTime p)

/-- The next flit of a port and direction. -/
def State.nextFlit (s : State) (p : Nat) (toward : Bool) : Option Burst :=
  (nextBurst (fun b => if b.through p toward ∧ b.sent < b.arrived then some (b.turn b.sent) else none) s.dma.bursts).map (fun e => e.1)

/-- Discarded flits at the heads of the bursts of a port and direction are passed over. -/
def State.skipDropped (s : State) (p : Nat) (toward : Bool) : State :=
  { s with dma := { s.dma with bursts := s.dma.bursts.map (fun b => if b.through p toward then b.skip b.flits else b) } }

/-- A flit leaves its staging queue at its departure. -/
def State.passFlit (s : State) (p : Nat) (toward bad : Bool) (b : Burst) (d : Nat) : State :=
  let s := if toward then { s with gal := { s.gal with hostOut := s.gal.hostOut.put p d } } else { s with gal := { s.gal with hostIn := s.gal.hostIn.put p d } }
  let s := s.setBurst { b with sent := b.sent + 1, last := d }
  let us := b.flit b.sent
  if us = [] then s
  else
    let s := (s.bump64 Fld.GAL_CNT_FLITS_LO_COUNT Fld.GAL_CNT_FLITS_HI_COUNT 1).flitError bad
    if toward then us.foldl (fun (s : State) u => s.sendUnit p b.hall bad u) s
    else
      let (s, late) := us.foldl (fun (x : State × Bool) u => let (s, l) := x.1.releaseUnit b.hall bad u; (s, x.2 || l)) (s, false)
      if late then (s.raise Fld.DMA_STATUS_LATE_DATA b.hall).bump Fld.DMA_CNT_LATE_COUNT b.hall else s

/-- HOST_FLIT_RELEASE (R144, R145, R147, R156, R352): the next planned flit of a port leaves, at its departure clock; bad: it fails its link check. An idle flit passes a
port whatever its link state. -/
def execHostFlitRelease (p : Nat) (toward bad : Bool) (at_ : Nat) (s : State) : Answer :=
  if 8 ≤ p then .next s else
  let s := s.atTime at_
  let s := s.arriveFlits p toward ((s.dma.bursts.foldl (fun n (b : Burst) => n + b.flits) 0) + 1)
  let s := s.skipDropped p toward
  match s.nextFlit p toward with
  | none => .next s
  | some b =>
    let d := s.departure p toward b
    if 880 * s.now < d ∨ (s.fld Fld.EP_PORT_STATUS_LSTATE 0 p ≠ 1 ∧ b.flit b.sent ≠ []) then .next s else .next (s.passFlit p toward bad b d)

/-! ### Ends of bursts (R117, R142, R145, R156) -/

/-- Every flit of a burst has left or been discarded. -/
def Burst.done (b : Burst) : Bool := decide (b.flits ≤ (b.skip b.flits).sent)

/-- When a burst ends: with a host port, when its last octet has crossed the port, or its last flit has been written into the hall; else when it reaches its end. In 880ths
of a tick. -/
def State.burstEnd (s : State) (b : Burst) : Nat :=
  match b.port with
  | none => 880 * b.first
  | some p =>
    let crossed := b.last + s.flitTime p
    if b.toward then crossed else 880 * galTick * (ceilDiv crossed (880 * galTick) + 2 * Plan.naveHops b.hall false + 4)

/-- The errors of a burst to another end: units whose flit fails its link check (1), whose beat is corrected (2) or cannot be (3) (R156). -/
def State.unitError (s : State) (d : DmaDesc) (a e : Nat) : State :=
  let k := dmaIndex d.bytes
  if e = 1 then s.flitError true
  else if e = 2 then s.bump Fld.ATR_CNT_CE_COUNT 0 k
  else if e = 3 then (s.bump Fld.ATR_CNT_UE_COUNT 0 k).alm 0x0302 5 0xFF 5 k (leBytes 1 1 ++ leBytes 1 k ++ leBytes 8 (a / 512 * 512))
  else s

/-- A unit of a burst to another end reaches it. -/
def State.farUnit (s : State) (h : Nat) (toward : Bool) (e : Nat) (u : DmaUnit) : State :=
  match s.unitDesc h u with
  | none => s
  | some d =>
    let a := match d.pieces u.off u.len with | (a, _) :: _ => a | [] => 0
    if toward then (s.flitError (e = 1)).landFar h u (u.bad || e = 1)
    else
      let stored := s.beatBad (dmaIndex d.bytes) a
      let s := (s.poisonUse stored).unitError d a e
      s.landFrom h u (s.atriumRead (dmaIndex d.bytes) a u.len) (if stored || e = 3 then some 1 else if e = 1 then some 0 else none)

/-- DMA_BURST_COMPLETE (R117, R142, R145, R156): the oldest burst of a channel ends, no sooner than its time. One with a host port has passed its last flit; any
other is carried out now, bad naming units on whose way an error was found. -/
def execDmaBurstComplete (h c : Nat) (bad : List (Nat × Nat)) (at_ : Nat) (s : State) : Answer :=
  let s := s.atTime at_
  match s.dma.bursts.find? (fun b => b.hall == h && b.ch == c) with
  | none => .next s
  | some b =>
    if 880 * s.now < s.burstEnd b ∨ (b.port.isSome ∧ !b.done) then .next s
    else
      let s := { s with dma := { s.dma with bursts := s.dma.bursts.filter (fun x => x.id != b.id) } }
      if b.port.isSome then .next s
      else
        let s := s.bump64 Fld.GAL_CNT_FLITS_LO_COUNT Fld.GAL_CNT_FLITS_HI_COUNT (ceilDiv b.units.length 2)
        .next ((List.range b.units.length).foldl (fun (s : State) i =>
          match b.units[i]? with
          | none => s
          | some u => s.farUnit h b.toward ((bad.find? (fun e => e.1 == i)).getD (0, 0)).2 u) s)

end Sys2Proof.Machine
end

