-- ==== Sys2Proof/Machine/Storage.lean ====
section
/-! DEFINITION. Storage offload (chapter 17): connections, TCP (RFC 9293, 5681, 6298, 7323), NVMe over TCP PDUs, commands, XTS of
their data. What the chapter takes from those standards is log entry 25. -/

namespace Sys2Proof.Machine

/-! ### Connections (R447, R449) -/

def State.conn (s : State) (c : Nat) : Option StoConn := look s.sto.conns c
def State.setConn (s : State) (c : Nat) (v : StoConn) : State := { s with sto := { s.sto with conns := s.sto.conns.put c v } }

/-- Fields of the connection record. -/
def StoConn.flag (v : StoConn) (i : Nat) : Bool := bitOf (leAt v.record 5 1) i
def StoConn.hall (v : StoConn) : Nat := leAt v.record 4 1
def StoConn.flow (v : StoConn) : Nat := leAt v.record 6 2
def StoConn.mss (v : StoConn) : Nat := leAt v.record 0x3C 2
def StoConn.maxR2t (v : StoConn) : Nat := leAt v.record 0x3E 1
def StoConn.depth (v : StoConn) : Nat := leAt v.record 0x40 2
def StoConn.window (v : StoConn) : Nat := leAt v.record 0x42 2 * 1024

/-- The event of an entry into READY, FAILED or CLOSED: to the function that holds the SQ, and to the owner. -/
def State.connEvent (s : State) (c : Nat) (v : StoConn) : State :=
  let b := leBytes 4 (s.handle 6 c) ++ leBytes 1 v.state ++ leBytes 1 v.reason
  let s := s.event v.fn 0x07 b
  if s.isOwner v.fn then s else s.eventOwner 0x07 b

/-- A connection moves to a state, and its STO_CONN_CREATE completes. -/
def State.connMove (s : State) (c : Nat) (v : StoConn) (st reason : Nat) : State :=
  let cmd := v.createCmd
  let v := { v with state := st, reason := reason, createCmd := none }
  let s := (s.setConn c v).connEvent c v
  match cmd with
  | some d => s.adminOk d (s.handle 6 c)
  | none => s

/-- CLOSED: the connection's place is free again (R449, R10). -/
def State.connClose (s : State) (c : Nat) : State :=
  match s.conn c with
  | none => s
  | some v =>
    let s := s.connMove c v 4 v.reason
    let s := { s with sto := { s.sto with conns := s.sto.conns.del c, rx := s.sto.rx.del c } }
    let s := (s.nextGen 6 c).setFld Fld.STO_STATUS_CONNS (s.fld Fld.STO_STATUS_CONNS - 1)
    match v.closeCmd with
    | some d => s.adminOk d
    | none => s

/-! ### The ends of commands (R449, R461) -/

def stoHost (b : Bytes) : Bool := !bitOf (leAt b 9 1) 2
def stoDir (b : Bytes) : Nat := leAt b 9 1 % 4
def stoXtsOn (b : Bytes) : Bool := bitOf (leAt b 9 1) 3
def stoUnit (b : Bytes) : Nat := if bitOf (leAt b 9 1) 4 then 4096 else 512
def stoInCap (b : Bytes) : Bool := bitOf (leAt b 9 1) 5
def stoAddr (b : Bytes) : Nat := leAt b 0x28 8
def stoBuf (b : Bytes) : Nat := leAt b 0x28 4
def stoBufOff (b : Bytes) : Nat := leAt b 0x2C 4
def stoLen (b : Bytes) : Nat := leAt b 0x30 4
def stoKey (b : Bytes) : Nat := leAt b 0x34 4
def stoDun (b : Bytes) : Nat := leAt b 0x38 8

/-- The record of a storage descriptor. -/
def State.stoDone (s : State) (v : StoConn) (d : Desc) (st dt ops info bytes : Nat) : State :=
  s.descDone v.sq d.idx { cookie := d.cookie, batchEnd := d.batchEnd, status := st, detail := dt, opspec := ops, bytes := bytes, info := info, low := 0 }

/-- The reads of a connection's data from host memory (R458): those of a command, told by their arg, or all. -/
def State.dropStoReads (s : State) (c : Nat) (p : Nat → Bool) : State :=
  { s with dma := { s.dma with reads := s.dma.reads.filter (fun r => !(r.kind == 5 && r.key == c && p r.arg)) } }

/-- A command ends: its buffer loses its reference, its CID is free, and nothing more is read or answered for it. -/
def State.cmdEnd (s : State) (c : Nat) (m : StoCmd) (st dt : Nat) : State :=
  match s.conn c with
  | none => s
  | some v =>
    let s := (s.dropStoReads c (fun a => a / 2 ^ 32 == m.cid)).setConn c { v with cmds := v.cmds.filter (fun x => x.cid != m.cid), asks := v.asks.filter (· != m.cid) }
    let s := if stoHost m.desc.bytes then s else s.drop (stoBuf m.desc.bytes)
    let (ops, info) := m.resp.getD (0, 0)
    s.stoDone v m.desc st dt ops info m.moved

/-- Replace a command. -/
def State.setCmd (s : State) (c : Nat) (m : StoCmd) : State :=
  match s.conn c with
  | none => s
  | some v => s.setConn c { v with cmds := v.cmds.map (fun x => if x.cid = m.cid then m else x) }

/-- A command with its response ends once its data has been placed (R459 to R461). -/
def State.cmdSettle (s : State) (c cid : Nat) : State :=
  match s.conn c with
  | none => s
  | some v =>
    match v.cmds.find? (fun m => m.cid == cid) with
    | none => s
    | some m =>
      if m.resp.isNone ∨ m.waits ∨ (m.status = 0 ∧ stoXtsOn m.desc.bytes ∧ stoUnit m.desc.bytes ≤ m.got) then s
      else if m.status ≠ 0 then s.cmdEnd c m m.status 0
      else if m.digest then s.cmdEnd c m St.crcMismatch 7
      else s.cmdEnd c m St.success 0

/-- Every command of a connection that has failed ends with CONN_DOWN, or with DIGEST; under reason HALL it is discarded with no
record. -/
def State.cmdsFail (s : State) (c : Nat) (v : StoConn) (silent : Bool) : State :=
  let s := v.cmds.foldl (fun (s : State) m =>
    if silent then (if stoHost m.desc.bytes then s else s.drop (stoBuf m.desc.bytes))
    else if m.digest then s.cmdEnd c m St.crcMismatch 7 else s.cmdEnd c m St.unsupported 2) s
  let s := if silent then s else v.waiting.foldl (fun (s : State) d => s.stoDone v d St.unsupported 2 0 0 0) s
  let s := s.dropStoReads c (fun _ => true)
  let s := { s with cph := s.cph.map (fun (e : Nat × CphSt) => (e.1, { e.2 with jobs := e.2.jobs.filter (fun j => !(j.src == 1 && j.queue == c)) })), sto := { s.sto with xts := s.sto.xts.filter (fun r => r.conn != c) } }
  match s.conn c with
  | some w => s.setConn c { w with cmds := [], waiting := [], asks := [] }
  | none => s

/-- A connection enters FAILED (R449). -/
def State.connFail (s : State) (c reason : Nat) : State :=
  match s.conn c with
  | none => s
  | some v =>
    if v.state = 3 then s
    else
      let s := ((s.bump Fld.STO_CNT_CONN_FAIL_COUNT).raise Fld.STO_FLAGS_CONN_FAIL).almDev 0x0B02 (leBytes 4 (s.handle 6 c) ++ leBytes 1 reason)
      let s := s.setConn c { v with rtoAt := none, ackAt := none, data := none, rx := [] }
      let s := s.cmdsFail c v (reason == 6)
      match s.conn c with
      | some w =>
        let s := s.connMove c w 3 reason
        if w.state = 2 ∧ w.closeCmd.isSome then s.connClose c else s
      | none => s

/-! ### PDUs (R446, R457, R458, R460) -/

/-- A PDU is added to what the connection sends: type, flags, the header behind its first 8 octets, data. -/
def State.pduOut (s : State) (c ty flags : Nat) (rest data : Bytes) : State :=
  match s.conn c with
  | none => s
  | some v =>
    let plain := ty == 0 || ty == 2
    let hd := v.hdgst && !plain
    let dd := v.ddgst && !plain && data != []
    let hlen := 8 + rest.length
    let h := hlen + (if hd then 4 else 0)
    let al := if plain then 1 else 4 * (v.cpda + 1)
    let pdo := if data = [] then 0 else (h + al - 1) / al * al
    let plen := (if data = [] then h else pdo + data.length) + (if dd then 4 else 0)
    let hdr := leBytes 1 ty ++ leBytes 1 (flags + b2n hd + 2 * b2n dd) ++ leBytes 1 hlen ++ leBytes 1 (if ty = 2 then 0 else pdo) ++ leBytes 4 plen ++ rest
    let b := hdr ++ (if hd then leBytes 4 (crc32c hdr) else []) ++ List.replicate (pdo - h) 0 ++ data ++ (if dd then leBytes 4 (crc32c data) else [])
    (s.setConn c { v with outq := v.outq ++ b }).bump Fld.STO_CNT_PDU_TX_COUNT

/-- ICReq: PFV 0, HPDA 0, the digests that the record asks for, MAXR2T. -/
def State.sendIcReq (s : State) (c : Nat) (v : StoConn) : State :=
  s.pduOut c 0 0 (leBytes 2 0 ++ leBytes 1 0 ++ leBytes 1 (b2n (v.flag 2) + 2 * b2n (v.flag 3)) ++ leBytes 4 (v.maxR2t - 1) ++ List.replicate 112 0) []

/-- A fatal error (R449): H2CTermReq, unless the controller sent one, then FAILED. -/
def State.protoFail (s : State) (c reason fes : Nat) (hdr : Bytes) : State :=
  let s := if fes = 0 then s else s.pduOut c 2 0 (leBytes 2 fes ++ List.replicate 14 0) hdr
  s.connFail c reason

/-! ### Data of a command (R458, R459) -/

/-- Octets of a command's data at its source; host is what was read where that is host memory, under a name (R341). -/
def State.stoSource (s : State) (h c arg : Nat) (b : Bytes) (off n : Nat) (host : Bytes) : State × Bytes :=
  if stoHost b then
    let bad := match s.readFor h 5 c arg with | some r => r.bad | none => false
    ((s.poisonUse bad).endRead h 5 c arg, sliceB host 0 n)
  else match s.bufferRead (stoBuf b) (stoBufOff b + off) n with
    | some (x, bad) => (s.poisonUse bad, x)
    | none => (s, List.replicate n 0)

/-- Octets of a command's data are at hand: what comes from host memory has been brought in by the hall's carriers, and is asked for now where it has
not been (R341, R458). -/
def State.stoReady (s : State) (h c arg : Nat) (v : StoConn) (b : Bytes) (off n : Nat) : State × Bool :=
  if !stoHost b ∨ n = 0 then (s, true)
  else if (s.readFor h 5 c arg).isSome then (s, s.readDone h 5 c arg)
  else ({ s with dma := { s.dma with reads := s.dma.reads ++ [{ id := s.dma.nextId, hall := h, kind := 5, key := c, arg := arg, fn := v.fn, pieces := [(stoAddr b + off, n)] }], nextId := s.dma.nextId + 1 } }, false)

/-- Place received octets at a command's destination; what goes to a host waits for the hall's carriers (R341, R459). -/
def State.stoPlace (s : State) (v : StoConn) (d : Desc) (off : Nat) (x : Bytes) : State :=
  let b := d.bytes
  let h := (s.physOf v.hall).getD 18
  let put := fun (f a : Nat) => s.hallWrite h (s.stoClass h) (some (v.sq, d.idx)) f a x
  if stoHost b then put v.fn (stoAddr b + off)
  else
    let id := stoBuf b
    match s.regionOf id with
    | none => s
    | some (_, r) =>
      let a := r.dataAt id + stoBufOff b + off
      match r.loc with
      | 0 => s.putAlcove r.inst a x
      | 1 => s.atriumWrite r.inst a x
      | _ => put (1024 * r.inst) a

/-- The XTS job of a part of a command's data (R314, R458, R459). -/
def stoJob (c : Nat) (m : StoCmd) (off : Nat) (decrypt : Bool) (text : Bytes) (fn : Nat) : CphJob :=
  let b := m.desc.bytes
  { id := 0, src := 1, queue := c, desc := { m.desc with idx := m.cid }, fn := fn, key := stoKey b, mode := 2, decrypt := decrypt, srcHost := false, dstHost := false, unit := stoUnit b, aadLen := 0, len := text.length, from_ := off, to_ := 0, aad := 0, iv := leBytes 8 (stoDun b + off / stoUnit b), started := 0, released := 0, text := text, value := 0, bad := false, failed := none }

/-- A command's data is lost to its cipher job: where it goes to the controller nothing answers the R2T and the command ends; where it comes from the
controller the command ends with its response (R461, R462). -/
def State.stoJobFails (s : State) (c : Nat) (m : StoCmd) (st : Nat) : State :=
  if stoDir m.desc.bytes = 1 then s.cmdEnd c { m with resp := none } st 0
  else (s.setCmd c { m with waits := false, hold := 0, status := if m.status = 0 then st else m.status }).cmdSettle c m.cid

/-- Whole units of received data that has no gap are decrypted in one job while none of the command's is under way and the job queue has room
(R314, R315, R459). -/
def State.stoDecrypt (s : State) (c cid : Nat) : State :=
  match s.conn c with
  | none => s
  | some v =>
    match v.cmds.find? (fun m => m.cid == cid), s.physOf v.hall with
    | some m, some h =>
      let n := m.got / stoUnit m.desc.bytes * stoUnit m.desc.bytes
      if m.waits ∨ n = 0 ∨ m.got ≠ m.rx.length then s
      else
        let j := stoJob c m m.dec true (m.rx.take n) v.fn
        let m1 := { m with rx := m.rx.drop n, got := m.got - n, dec := m.dec + n, waits := true, hold := n }
        match (if m.status = 0 then s.jobCheck h j else some m.status) with
        | some st => s.stoJobFails c m1 st
        | none => if s.jobRoom h then (s.pushJob h j).setCmd c m1 else s
    | _, _ => s

/-- An XTS job has ended: what it gave is framed or placed, or its command ends with the job's status (R462). -/
def State.stoXtsOne (s : State) (r : StoXts) : State :=
  match s.conn r.conn with
  | none => s
  | some v =>
    match v.cmds.find? (fun m => m.cid == r.cid) with
    | none => s
    | some m =>
      if r.status ≠ St.success then s.stoJobFails r.conn m r.status
      else if stoDir m.desc.bytes = 1 then
        s.setCmd r.conn { m with r2ts := m.r2ts.map (fun t => if t.2.1 = r.off ∧ t.2.2.2.1 then (t.1, t.2.1, t.2.2.1, true, r.octets) else t) }
      else
        let s := (s.stoPlace v m.desc r.off r.octets).setCmd r.conn { m with waits := false, hold := 0 }
        let s := match s.conn r.conn with | some w => s.setConn r.conn { w with needAck := true } | none => s
        s.cmdSettle r.conn r.cid

/-- The XTS jobs that have ended take effect, and received data that waited for room in a job queue goes on. -/
def State.stoXtsDone (s : State) : State :=
  let s := s.sto.xts.foldl State.stoXtsOne { s with sto := { s.sto with xts := [] } }
  s.sto.conns.foldl (fun (s : State) (e : Nat × StoConn) => e.2.cmds.foldl (fun (s : State) (m : StoCmd) => if 0 < m.got then s.stoDecrypt e.1 m.cid else s) s) s

/-- CIPHER_WINDOW (R116, R305): the op opens its window, and what may start in it up to the instant given starts. -/
def execCipherWindow (h at_ : Nat) (s : State) : Answer := .next (if 18 ≤ h then s else (s.cipherWindow h at_).stoXtsDone)

/-- CIPHER_OP_RELEASE (R306): the operation of a hall that is due first. What comes from host memory is the operands: text, AAD and tag. -/
def execCipherOpRelease (h : Nat) (src aad tag : Bytes) (at_ : Nat) (s : State) : Answer :=
  .next (if 18 ≤ h then s else ((s.atTime at_).cipherRelease h src aad tag).stoXtsDone)

/-! ### Receiving PDUs (R449, R458 to R461) -/

/-- Data of a C2HData PDU arrives: placed, or kept until it can be decrypted. -/
def State.c2hData (s : State) (c : Nat) (d : StoData) (x : Bytes) : State :=
  match s.conn c with
  | none => s
  | some v =>
    match v.cmds.find? (fun m => m.cid == d.cid) with
    | none => s
    | some m =>
      let m1 := { m with moved := m.moved + x.length }
      if stoXtsOn m.desc.bytes then s.setCmd c { m1 with rx := spliceB m.rx (d.off - m.dec) x, got := m.got + x.length }
      else (s.stoPlace v m.desc d.off x).setCmd c m1

/-- A C2HData PDU is complete: the SUCCESS flag completes its command, and data that has all arrived is decrypted. -/
def State.c2hEnd (s : State) (c : Nat) (d : StoData) : State :=
  match s.conn c with
  | none => s
  | some v =>
    match v.cmds.find? (fun m => m.cid == d.cid) with
    | none => s
    | some m =>
      let s := if d.success then s.setCmd c { m with resp := some (0, d.cid) } else s
      (if stoXtsOn m.desc.bytes then s.stoDecrypt c d.cid else s).cmdSettle c d.cid

/-- The header of a PDU is taken: its effect, or where its data goes. b is the PDU's header, hl its length. -/
def State.pduIn (s : State) (c : Nat) (b : Bytes) : State :=
  match s.conn c with
  | none => s
  | some v =>
    let ty := leAt b 0 1
    let fl := leAt b 1 1
    let hl := leAt b 2 1
    let pl := leAt b 4 4
    let dg := if v.hdgst && ty != 1 then 4 else 0
    let s := s.bump Fld.STO_CNT_PDU_RX_COUNT
    let cid := leAt b 8 2
    let off := leAt b 12 4
    let len := leAt b 16 4
    let cmd := v.cmds.find? (fun m => m.cid == cid)
    match ty with
    | 1 =>
      if v.state ≠ 0 then s.protoFail c 5 2 b
      else
        let dgst := leAt b 11 1
        if hl ≠ 128 ∨ pl ≠ 128 ∨ leAt b 8 2 ≠ 0 ∨ 31 < leAt b 10 1 ∨ leAt b 12 4 < 4096 ∨ (bitOf dgst 0 ∧ !v.flag 2) ∨ (bitOf dgst 1 ∧ !v.flag 3) then s.connFail c 1
        else s.connMove c { v with cpda := leAt b 10 1, hdgst := bitOf dgst 0, ddgst := bitOf dgst 1, maxH2c := leAt b 12 4 } 1 0
    | 3 => s.connFail c 5
    | 5 =>
      if v.state = 0 then s.protoFail c 5 2 b
      else if hl ≠ 24 ∨ pl ≠ 24 + dg then s.protoFail c 5 1 b
      else
        let id := leAt b 20 2
        match v.cmds.find? (fun m => m.cid == id) with
        | none => s.protoFail c 5 1 b
        | some m => (s.setCmd c { m with resp := some (leAt b 8 8, leAt b 20 4) }).cmdSettle c id
    | 7 =>
      if v.state = 0 then s.protoFail c 5 2 b
      else
        let pdo := leAt b 3 1
        let dd := if bitOf fl 1 then 4 else 0
        if hl ≠ 24 ∨ pdo < hl + dg ∨ pl ≠ pdo + len + dd ∨ cmd.isNone then s.protoFail c 5 1 b
        else match cmd with
          | none => s
          | some m =>
            if stoDir m.desc.bytes ≠ 2 ∨ stoLen m.desc.bytes < off + len then s.protoFail c 5 4 b
            else s.setConn c { v with data := some { cid := cid, off := off, left := len, crc := 0xFFFFFFFF, digest := dd, last := bitOf fl 2, success := bitOf fl 3 } }
    | 9 =>
      if v.state = 0 then s.protoFail c 5 2 b
      else if hl ≠ 24 ∨ pl ≠ 24 + dg ∨ cmd.isNone then s.protoFail c 5 1 b
      else match cmd with
        | none => s
        | some m =>
          if v.maxR2t ≤ v.cmds.foldl (fun n (x : StoCmd) => n + x.r2ts.length) 0 then s.protoFail c 5 2 b
          else if stoDir m.desc.bytes ≠ 1 ∨ stoInCap m.desc.bytes ∨ stoLen m.desc.bytes < off + len then s.protoFail c 5 4 b
          else (s.setConn c { v with asks := v.asks ++ [cid] }).setCmd c { m with r2ts := m.r2ts ++ [(leAt b 10 2, off, len, false, [])] }
    | t => if t = 0 ∨ t = 2 ∨ t = 4 ∨ t = 6 then s.protoFail c 5 2 b else s.protoFail c 5 1 b

/-- Work through what has been received in order; the fuel bounds the steps. -/
def State.pduLoop (s : State) (c : Nat) : Nat → State
  | 0 => s
  | fuel + 1 =>
    match s.conn c with
    | none => s
    | some v =>
      if v.state = 3 ∨ 4 ≤ v.state then s else
      match v.data with
      | some d =>
        if 0 < d.left then
          if v.rx = [] then s
          else
            let x := v.rx.take d.left
            let s := s.setConn c { v with rx := v.rx.drop d.left, data := some { d with off := d.off + x.length, left := d.left - x.length, crc := x.foldl (crcByte 0x82F63B78) d.crc } }
            (s.c2hData c d x).pduLoop c fuel
        else if v.rx.length < d.digest then s
        else
          let ok := d.digest == 0 || leAt v.rx 0 4 == (d.crc ^^^ 0xFFFFFFFF)
          let s := s.setConn c { v with rx := v.rx.drop d.digest, data := none }
          let s := if ok then s else
            let s := (s.bump Fld.STO_CNT_DDGST_ERR_COUNT).raise Fld.STO_FLAGS_DIGEST
            match v.cmds.find? (fun m => m.cid == d.cid) with
            | some m => s.setCmd c { m with digest := true }
            | none => s
          (s.c2hEnd c d).pduLoop c fuel
      | none =>
        if v.rx.length < 8 then s
        else
          let ty := leAt v.rx 0 1
          let hl := leAt v.rx 2 1
          let known := ty == 1 || ty == 3 || ty == 5 || ty == 7 || ty == 9
          let dg := if v.hdgst && ty != 1 && ty != 3 then 4 else 0
          if !known ∨ hl < 24 ∧ ty ≠ 3 then (s.setConn c { v with rx := [] }).pduIn c (v.rx.take 8 ++ List.replicate 16 0)
          else if ty = 3 then s.pduIn c (v.rx.take 8)
          else if v.rx.length < hl + dg then s
          else
            let b := v.rx.take hl
            if dg = 4 ∧ leAt v.rx hl 4 ≠ crc32c b then
              ((s.bump Fld.STO_CNT_HDGST_ERR_COUNT).raise Fld.STO_FLAGS_DIGEST).protoFail c 4 3 b
            else
              let skip := if ty = 7 then max (hl + dg) (leAt v.rx 3 1) else hl + dg
              if v.rx.length < skip then s
              else ((s.setConn c { v with rx := v.rx.drop skip }).pduIn c b).pduLoop c fuel

/-! ### TCP (R450, R451) -/

/-- a comes before b in sequence space. -/
def seqLt (a b : Nat) : Bool := decide (a ≠ b) && decide (sub32 b a < 2 ^ 31)
def seqLe (a b : Nat) : Bool := a == b || seqLt a b

/-- The pseudo-header of a connection's segments, in the direction out or in. -/
def StoConn.pseudo (v : StoConn) (out : Bool) (n : Nat) : Bytes :=
  let w := if v.flag 0 then 16 else 4
  let a := sliceB v.record 0x18 w
  let b := sliceB v.record 0x28 w
  (if out then a ++ b else b ++ a) ++ (if v.flag 0 then beBytes 4 n ++ [0, 0, 0, 6] else [0, 6] ++ beBytes 2 n)

/-- Octets of a connection's data that wait for the hall's carriers. -/
def State.unplaced (s : State) (v : StoConn) : Nat :=
  (List.range 8).foldl (fun n p => (s.posts ((s.physOf v.hall).getD 18) p).foldl (fun k (x : Post) =>
    match x.own with | some (q, _) => if q = v.sq then k + x.size else k | none => k) n) 0

/-- Free octets of the receive window: what has been received counts until it has been placed (R451). -/
def State.connRoom (s : State) (v : StoConn) : Nat := v.window - v.rx.length - v.cmds.foldl (fun n (m : StoCmd) => n + m.got + m.hold) 0 - s.unplaced v

/-- The window scale that the record's receive window needs. -/
def scaleFor (w : Nat) : Nat := ((List.range 15).find? (fun k => decide (w / 2 ^ k ≤ 65535))).getD 14

/-- The timestamp clock, in milliseconds (log entry 26). -/
def State.tsClock (s : State) : Nat := s.now / (1000000 * nsTicks) % 2 ^ 32

/-- The frame of a segment: flags, sequence number, options, payload. The IPv4 identification is the operand. -/
def State.tcpFrame (s : State) (v : StoConn) (ident flags seq : Nat) (opts pay : Bytes) : Bytes :=
  let syn := bitOf flags 1
  let win := if syn then min 65535 (s.connRoom v) else min 65535 ((s.connRoom v) / 2 ^ v.scale)
  let ack := if bitOf flags 4 then v.rcv else 0
  let hdr := sliceB v.record 0x38 2 ++ sliceB v.record 0x3A 2 ++ beBytes 4 seq ++ beBytes 4 ack ++ beBytes 1 ((20 + opts.length) / 4 * 16) ++ beBytes 1 flags ++ beBytes 2 win ++ [0, 0, 0, 0] ++ opts
  let seg := hdr ++ pay
  let seg := spliceB seg 16 (beBytes 2 (0xFFFF - onesSum (v.pseudo true seg.length ++ seg) 0))
  let eth := sliceB v.record 8 6 ++ sliceB v.record 0x10 6 ++ (if v.flag 1 then beBytes 2 0x8100 ++ beBytes 2 (leAt v.record 0x0E 2) else []) ++ beBytes 2 (if v.flag 0 then 0x86DD else 0x0800)
  let ip := if v.flag 0 then [0x60, 0, 0, 0] ++ beBytes 2 seg.length ++ [6, 64] ++ sliceB v.record 0x18 16 ++ sliceB v.record 0x28 16
    else [0x45, 0] ++ beBytes 2 (20 + seg.length) ++ beBytes 2 ident ++ [0x40, 0, 64, 6, 0, 0] ++ sliceB v.record 0x18 4 ++ sliceB v.record 0x28 4
  let b := eth ++ (if v.flag 0 then ip else spliceB ip 10 (beBytes 2 (ip4Sum ip))) ++ seg
  b ++ List.replicate (60 - b.length) 0

/-- The timestamps option. -/
def State.tsOpt (s : State) (v : StoConn) (ack : Bool) : Bytes := [1, 1, 8, 10] ++ beBytes 4 s.tsClock ++ beBytes 4 (if ack then v.tsRecent else 0)

/-- The largest payload of a segment. -/
def StoConn.smss (v : StoConn) : Nat := min v.mss (v.peerMss - (if v.ts then 12 else 0))

/-- The next sequence number to send. -/
def StoConn.nxt (v : StoConn) : Nat := add32 v.una (v.sent + (if v.tcp = 2 ∧ v.sent = v.outq.length ∧ !v.needFin then 1 else 0))

/-- The initial congestion window (RFC 5681). -/
def initialWindow (smss : Nat) : Nat := if 2190 < smss then 2 * smss else if 1095 < smss then 3 * smss else 4 * smss

/-- The retransmission timer, from now. -/
def State.rtoFrom (s : State) (v : StoConn) : StoConn := { v with rtoAt := some (s.now + v.rto * 1000 * nsTicks) }

/-- A round-trip sample in microseconds (RFC 6298). -/
def State.rttSample (s : State) (v : StoConn) (r : Nat) : StoConn :=
  let first := v.srtt == 0
  let dev := if r ≤ v.srtt then v.srtt - r else r - v.srtt
  let var := if first then r / 2 else (3 * v.rttvar + dev) / 4
  let sr := if first then max 1 r else (7 * v.srtt + r) / 8
  let rto := sr + max 1000 (4 * var)
  { v with srtt := sr, rttvar := var, rto := min 60000000 (max (s.fld Fld.STO_CFG_RTO_MIN_MS * 1000) rto) }

/-- The value of a TCP option of a segment; the fuel bounds the options. -/
def tcpOpt (b : Bytes) (kind : Nat) : Nat → Nat → Nat → Option Bytes
  | 0, _, _ => none
  | fuel + 1, o, stop =>
    if stop ≤ o then none
    else
      let k := beAt b o 1
      if k = 0 then none
      else if k = 1 then tcpOpt b kind fuel (o + 1) stop
      else
        let n := beAt b (o + 1) 1
        if n < 2 ∨ stop < o + n then none
        else if k = kind then some (sliceB b (o + 2) (n - 2)) else tcpOpt b kind fuel (o + n) stop

def segHdr (b : Bytes) : Nat := beAt b 12 1 / 16 * 4
def segOpt (b : Bytes) (k : Nat) : Option Bytes := tcpOpt b k 40 20 (segHdr b)

/-- A FIN of ours goes out once nothing else is left to send. -/
def State.connFinish (s : State) (c : Nat) : State :=
  match s.conn c with
  | none => s
  | some v => if v.state = 2 ∧ v.tcp = 1 ∧ v.cmds = [] ∧ v.waiting = [] ∧ !v.needFin then s.setConn c { v with tcp := 2, needFin := true } else s

/-- The SYN's answer in SYN-SENT. -/
def State.synSent (s : State) (c : Nat) (v : StoConn) (b : Bytes) : State :=
  let fl := beAt b 13 1
  let ackOk := bitOf fl 4 && beAt b 8 4 == add32 v.iss 1
  if bitOf fl 4 ∧ !ackOk then (if bitOf fl 2 then s else s.setConn c { v with needRst := true })
  else if bitOf fl 2 then (if ackOk then s.connFail c 3 else s)
  else if !(bitOf fl 1 && ackOk) then s
  else
    let mss := match segOpt b 2 with | some x => beNat x | none => if v.flag 0 then 1220 else 536
    let (ps, os) := match segOpt b 3 with | some x => (min 14 (beNat x), scaleFor v.window) | none => (0, 0)
    let ts := segOpt b 8
    let v := { v with tcp := 1, una := add32 v.iss 1, rcv := add32 (beAt b 4 4) 1, wnd := beAt b 14 2, peerMss := mss, peerScale := ps, scale := os, ts := ts.isSome, tsRecent := beNat ((ts.getD []).take 4), needAck := true, rtoAt := none, retries := 0, needSyn := false }
    let v := match v.timed with | some (_, t) => s.rttSample { v with timed := none } ((s.now - t) / (1000 * nsTicks)) | none => v
    let v := { v with cwnd := initialWindow v.smss }
    (s.setConn c v).sendIcReq c v

/-- An acceptable ACK of new data, a duplicate one, or a window update (RFC 5681, RFC 6298). -/
def State.ackIn (s : State) (c : Nat) (v : StoConn) (ack wnd pay : Nat) : State × Bool :=
  let w := wnd * 2 ^ v.peerScale
  let flight := sub32 v.nxt v.una
  let sm := max 1 v.smss
  if seqLt v.una ack then
    let n := sub32 ack v.una
    let finAcked := v.tcp == 2 && decide (v.outq.length < n)
    let v1 := { v with una := add32 v.una (min n v.outq.length), outq := v.outq.drop n, sent := v.sent - n, high := v.high - n, wnd := w, retries := 0, dups := 0, rexmit := false }
    let v1 := if v.recovering then { v1 with recovering := false, cwnd := v.ssthresh }
      else if v.cwnd < v.ssthresh then { v1 with cwnd := v.cwnd + min n sm } else { v1 with cwnd := v.cwnd + max 1 (sm * sm / max 1 v.cwnd) }
    let v1 := match v.timed with
      | some (q, t) => if seqLe q ack then s.rttSample { v1 with timed := none } ((s.now - t) / (1000 * nsTicks)) else v1
      | none => v1
    let v1 : StoConn := v1
    let done : Bool := v1.outq.isEmpty && (v1.tcp != 2 || finAcked)
    let v1 : StoConn := if done then { v1 with rtoAt := none } else s.rtoFrom v1
    (s.setConn c v1, finAcked)
  else if ack = v.una ∧ pay = 0 ∧ w = v.wnd ∧ 0 < flight then
    let v1 := { v with dups := v.dups + 1 }
    let v1 := if v1.dups = 3 ∧ !v.recovering then { v1 with recovering := true, ssthresh := max (flight / 2) (2 * sm), cwnd := max (flight / 2) (2 * sm) + 3 * sm, rexmit := true, timed := none }
      else if 3 < v1.dups ∧ v.recovering then { v1 with cwnd := v.cwnd + sm } else v1
    (s.setConn c v1, false)
  else (s.setConn c { v with wnd := w }, false)

/-- Payload in order. -/
def State.payIn (s : State) (c : Nat) (pay : Bytes) : State :=
  match s.conn c with
  | none => s
  | some v =>
    if pay = [] then s
    else
      let full := if v.mss ≤ pay.length then v.full + 1 else v.full
      let v := { v with rx := v.rx ++ pay, rcv := add32 v.rcv pay.length, full := full % 2, needAck := v.needAck || decide (2 ≤ full), ackAt := some (v.ackAt.getD (s.now + 200000 * nsTicks)) }
      (s.setConn c v).pduLoop c (2 * v.rx.length + 4)

/-- A segment of a synchronised connection. -/
def State.segIn (s : State) (c : Nat) (v : StoConn) (b : Bytes) : State :=
  let fl := beAt b 13 1
  let seq := beAt b 4 4
  let pay := b.drop (segHdr b)
  let ts := (segOpt b 8).map (fun x => beNat (x.take 4))
  let ackNow := fun (s : State) => match s.conn c with | some v => s.setConn c { v with needAck := true } | none => s
  let stale : Bool := match ts with
    | some t => seqLt t v.tsRecent
    | none => true
  if v.ts ∧ !bitOf fl 2 ∧ stale then (if ts.isNone then s else ackNow s)
  else if bitOf fl 2 then
    if seq = v.rcv then s.connFail c 3 else if sub32 seq v.rcv < v.window then ackNow s else s
  else if bitOf fl 1 then ackNow s
  else if !bitOf fl 4 then s
  else if seqLt v.rcv seq then ackNow (if pay = [] then s else s.bump Fld.STO_CNT_OOO_DROP_COUNT)
  else if seqLt (add32 seq pay.length) v.rcv ∨ (pay ≠ [] ∧ add32 seq pay.length = v.rcv) then ackNow s
  else if seqLt v.nxt (beAt b 8 4) then ackNow s
  else
    let v := { v with tsRecent := ts.getD v.tsRecent }
    let fresh := pay.drop (sub32 v.rcv seq)
    let (s, finAcked) := if seqLt (beAt b 8 4) v.una then (s.setConn c v, false) else s.ackIn c v (beAt b 8 4) (beAt b 14 2) pay.length
    if (s.connRoom v) < fresh.length then ackNow s
    else
      let s := s.payIn c fresh
      let s := if bitOf fl 0 then match s.conn c with
          | some v => s.setConn c { v with rcv := add32 v.rcv 1, finSeen := true, needAck := true }
          | none => s
        else s
      let s := s.connFinish c
      match s.conn c with
      | some v =>
        if finAcked then s.setConn c { v with tcp := 3 }
        else s
      | none => s

/-- Both FINs have been exchanged and what they call for has been sent: CLOSED. -/
def State.connClosing (s : State) (c : Nat) : State :=
  match s.conn c with
  | some v => if v.state = 2 ∧ v.tcp = 3 ∧ v.finSeen ∧ !v.needAck then s.connClose c else s
  | none => s

/-- STO_SEGMENT_RX (R449 to R453, R458 to R461): the oldest segment that its hall has taken for a connection. -/
def execStoSegmentRx (c at_ : Nat) (s : State) : Answer :=
  let s := s.atTime at_
  match s.conn c, s.sto.rx.get [] c with
  | some v, b :: t =>
    let s := { s with sto := { s.sto with rx := s.sto.rx.put c t } }
    if v.state = 3 ∨ segHdr b < 20 ∨ b.length < segHdr b ∨ onesSum (v.pseudo false b.length ++ b) 0 ≠ 0xFFFF then .next s
    else if v.tcp = 0 then .next (s.synSent c v b)
    else .next (s.segIn c v b)
  | _, _ => .next s

/-- RTO_EXPIRY (R451, R452). -/
def execRtoExpiry (c at_ : Nat) (s : State) : Answer :=
  let s := s.atTime at_
  match s.conn c with
  | none => .next s
  | some v =>
    match v.rtoAt with
    | none => .next s
    | some t =>
      if !s.expired t ∨ v.state = 3 then .next s
      else if s.fld Fld.STO_CFG_RETRIES ≤ v.retries + 1 then .next (s.connFail c 2)
      else
        let sm := max 1 v.smss
        let v := { v with retries := v.retries + 1, rto := min 60000000 (2 * v.rto), timed := none, recovering := false, dups := 0 }
        let v := if v.tcp = 0 then { v with needSyn := true }
          else { v with ssthresh := max (sub32 v.nxt v.una / 2) (2 * sm), cwnd := sm, sent := 0, needFin := v.tcp == 2, rexmit := v.outq != [] }
        .next (s.setConn c (s.rtoFrom v))

/-- DELAYED_ACK (R451). -/
def execDelayedAck (c at_ : Nat) (s : State) : Answer :=
  let s := s.atTime at_
  match s.conn c with
  | some v =>
    (match v.ackAt with
    | some t => .next (if s.expired t then s.setConn c { v with needAck := true } else s)
    | none => .next s)
  | none => .next s

/-! ### Sending (R454, R458) -/

/-- Staging of a logical hall in octets, and how much of it is taken. -/
def State.staging (s : State) (l : Nat) : Nat := let k := s.cfg Fld.STO_STAGE_SIZE l; if k = 0 then 0 else 2 ^ (15 + k)
def State.stagingUsed (s : State) (l : Nat) : Nat :=
  let out := s.sto.conns.foldl (fun n (e : Nat × StoConn) => if e.2.hall = l then n + e.2.outq.length + e.2.cmds.foldl (fun k (m : StoCmd) => k + m.r2ts.foldl (fun j (t : Nat × Nat × Nat × Bool × Bytes) => if t.2.2.2.1 then j + t.2.2.1 else j) 0) 0 else n) 0
  s.dma.reads.foldl (fun n (r : HallRead) => if r.kind = 5 ∧ s.physOf l = some r.hall then n + r.total else n) out

/-- The name of a read of a command's data from an offset (R341). -/
def stoArg (cid off : Nat) : Nat := cid * 2 ^ 32 + off

/-- How much of an R2T goes at once: whole units into one XTS job, or the data of one H2CData PDU, no more than the staging area holds (R458). What has
been asked for under a name is what its read covers. -/
def State.r2tPart (s : State) (h c : Nat) (v : StoConn) (m : StoCmd) (off len : Nat) : Nat :=
  let b := m.desc.bytes
  match s.readFor h 5 c (stoArg m.cid off) with
  | some r => r.total
  | none => if stoXtsOn b then min len (s.staging v.hall / stoUnit b * stoUnit b) else min (min v.maxH2c len) (s.staging v.hall)

/-- One H2CData PDU of an R2T (R458): the R2T is over with its last octet, which sets LAST_PDU. -/
def State.h2cData (s : State) (c : Nat) (v : StoConn) (m : StoCmd) (tag off len n : Nat) (posted : Bool) (rest : Bytes) (t : List (Nat × Nat × Nat × Bool × Bytes)) (x : Bytes) : State :=
  let done := n == len
  let more := !(done && (match t with | (g, o, _) :: _ => !(g == tag && o == off + n) | [] => true))
  let m := { m with moved := m.moved + n, r2ts := if done then t else (tag, off + n, len - n, posted, rest) :: t }
  let s := s.setConn c { v with asks := if more then v.asks else v.asks.drop 1 }
  (s.setCmd c m).pduOut c 6 (if more then 0 else 4) (leBytes 2 m.cid ++ leBytes 2 tag ++ leBytes 4 off ++ leBytes 4 n ++ leBytes 4 0) x

/-- Answer the oldest R2T of a connection with one H2CData PDU, or post the XTS job that comes before it (R458). It waits for room in the staging area
and in the job queue, and for data that comes from host memory. -/
def State.answerR2t (s : State) (c : Nat) (v : StoConn) (host : Bytes) : State :=
  match v.asks.head?.bind (fun cid => v.cmds.find? (fun m => m.cid == cid)), s.physOf v.hall with
  | some m, some h =>
    (match m.r2ts with
    | [] => s
    | (tag, off, len, posted, text) :: t =>
      let b := m.desc.bytes
      let arg := stoArg m.cid off
      let n := if posted then min v.maxH2c len else s.r2tPart h c v m off len
      let asked := (s.readFor h 5 c arg).isSome
      if posted then (if text = [] ∧ 0 < len then s else s.h2cData c v m tag off len n true (text.drop n) t (text.take n))
      else if n = 0 ∧ len ≠ 0 then s
      else if !asked ∧ s.staging v.hall - s.stagingUsed v.hall < n ∧ s.stagingUsed v.hall ≠ 0 then s
      else match s.stoReady h c arg v b off n with
        | (s, false) => s
        | (s, true) =>
          if stoXtsOn b then
            match s.jobCheck h (stoJob c m off false (List.replicate n 0) v.fn) with
            | some st => s.stoJobFails c m st
            | none =>
              if !s.jobRoom h then s
              else
                let (s, x) := s.stoSource h c arg b off n host
                let rest := if n < len then [(tag, off + n, len - n, false, [])] else []
                (s.pushJob h (stoJob c m off false x v.fn)).setCmd c { m with r2ts := (tag, off, n, true, []) :: rest ++ t }
          else
            let (s, x) := s.stoSource h c arg b off n host
            s.h2cData c v m tag off len n false [] t x)
  | _, _ => s

/-- The next segment of a connection: flags, sequence number, options, payload, and the connection once it has been sent. -/
def State.nextSegment (s : State) (v : StoConn) : Option (Nat × Nat × Bytes × Bytes × StoConn) :=
  let ts := if v.ts then s.tsOpt v true else []
  let acked := { v with needAck := false, ackAt := none, full := 0 }
  if v.needRst then some (0x14, v.nxt, [], [], { v with needRst := false })
  else if v.needSyn then
    let opts := [2, 4] ++ beBytes 2 v.mss ++ s.tsOpt v false ++ [1, 3, 3] ++ beBytes 1 (scaleFor v.window)
    some (2, v.iss, opts, [], s.rtoFrom { v with needSyn := false, timed := if v.retries = 0 then some (add32 v.iss 1, s.now) else none })
  else if v.tcp = 0 then none
  else
    let sm := v.smss
    let off := if v.rexmit then 0 else v.sent
    let win := min v.cwnd v.wnd
    let n := min sm (v.outq.length - off)
    if 0 < n ∧ (v.rexmit ∨ off + n ≤ win ∨ (off = 0 ∧ 0 < win)) then
      let n := if v.rexmit then n else min n (max 1 (win - off))
      let again := decide (off < v.high)
      let w := { acked with rexmit := false, sent := max v.sent (off + n), high := max v.high (off + n), retrans := v.retrans + b2n again, timed := if again then none else some (v.timed.getD (add32 v.una (off + n), s.now)) }
      let w := if v.rtoAt.isNone then s.rtoFrom w else w
      some (if off + n = v.outq.length then 0x18 else 0x10, add32 v.una off, ts, (v.outq.drop off).take n, w)
    else if v.needFin ∧ v.sent = v.outq.length then some (0x11, add32 v.una v.sent, ts, [], s.rtoFrom { acked with needFin := false })
    else if v.needAck then some (0x10, v.nxt, ts, [], acked)
    else none

/-- SEGMENT_ENQUEUE (R454): the next segment of a connection is written into its flow ring; with no room it waits. What an R2T asks for
is framed first; host is data of the command where it comes from host memory. -/
def execSegmentEnqueue (c : Nat) (host : Bytes) (at_ : Nat) (s : State) : Answer :=
  let s := s.atTime at_
  match s.conn c with
  | none => .next s
  | some v =>
    match s.physOf v.hall with
    | none => .next s
    | some h =>
      if !s.running h then .next s
      else
        let s := if v.state ≤ 2 ∧ v.outq.length < v.sent + v.smss + 1 then s.answerR2t c v host else s
        let v := (s.conn c).getD v
        match s.nextSegment v with
        | none => .next s
        | some (fl, seq, opts, pay, w) =>
          match s.flowAppend h v.flow (frameRecord (s.tcpFrame v (s.free % 65536) fl seq opts pay) false) with
          | (_, false) => .next s
          | (t, true) => .next (((t.drawn.setConn c w).bumpBy Fld.STO_CNT_RETRANS_COUNT (w.retrans - v.retrans)).connClosing c)

/-! ### Commands (R455 to R457) -/

/-- The checks of R456: detail and status. -/
def State.stoCheck (s : State) (k fn : Nat) (b : Bytes) : Option (Nat × Nat) :=
  let len := stoLen b
  let fl := leAt b 9 1
  let x := stoXtsOn b
  let badKey : Bool := match s.resolve 4 (stoKey b) with
    | some i => !(s.keyRange fn i || s.isOwner fn) || !(keyType (s.slot i).attr == 3 || keyType (s.slot i).attr == 4)
    | none => true
  if 64 ≤ fl ∨ leAt b 10 2 ≠ 0 ∨ stoDir b = 3 ∨ (len = 0) ≠ (stoDir b = 0) ∨ (x ∧ stoInCap b) ∨ (stoInCap b ∧ stoDir b ≠ 1) ∨
      (!x ∧ (stoKey b ≠ 0 ∨ stoDun b ≠ 0)) then some (1, St.badDescriptor)
  else if !s.sto.conns.any (fun e => e.2.sq == k && e.2.state == 1) then some (2, St.unsupported)
  else if 8388608 < len ∨ (stoInCap b ∧ 8192 < len) then some (3, St.lengthLimit)
  else if !stoHost b ∧ (s.regionOf (stoBuf b)).isNone then some (4, St.badDescriptor)
  else if !stoHost b ∧ ((s.refFault (stoBuf b) (some fn)).isSome ∨ classSize (stoBuf b / 2 ^ 29) < stoBufOff b + len) then some (4, St.accessDenied)
  else if x ∧ badKey then some (5, St.badHandle)
  else if x ∧ (len % stoUnit b ≠ 0 ∨ (if stoHost b then stoAddr b else stoBufOff b) % stoUnit b ≠ 0) then some (6, St.lengthLimit)
  else none

/-- STO_COMMAND_FETCH (R115, R455, R456): in an OPEN clock of the class of storage work. -/
def execStoCommandFetch (k at_ : Nat) (s : State) : Answer :=
  let s := s.atTime at_
  let q := s.queue k
  match q.ready with
  | [] => .next s
  | d :: t =>
    if !q.present ∨ q.isRq ∨ q.kind ≠ 3 ∨ k ≥ 65536 then .next s
    else match s.openTurn (s.servingHall q) (s.stoClass (s.servingHall q)) q.fn with
    | none => .next s
    | some s =>
      let s := s.setQueue k { q with ready := t }
      match s.stoCheck k q.fn d.bytes with
      | some (dt, st) => .next (s.descDone k d.idx ⟨d.cookie, d.batchEnd, st, dt, 0, 0, 0, 0⟩)
      | none =>
        match s.sto.conns.find? (fun e => e.2.sq == k) with
        | some (c, v) => .next (s.setConn c { v with waiting := v.waiting ++ [d] })
        | none => .next s

/-- The submission queue entry of a command (R457). -/
def stoSqe (b : Bytes) (cid : Nat) : Bytes :=
  let len := stoLen b
  let sgl := if stoDir b = 0 then List.replicate 16 0
    else leBytes 8 0 ++ leBytes 4 len ++ leBytes 3 0 ++ leBytes 1 (if stoInCap b then 0x01 else 0x5A)
  leBytes 1 (leAt b 8 1) ++ leBytes 1 0x80 ++ leBytes 2 cid ++ sliceB b 12 4 ++ List.replicate 16 0 ++ sgl ++ sliceB b 0x10 24

/-- A command takes a CID; its CapsuleCmd, with in-capsule data where INCAP is set, joins what is to be sent (R456, R457). -/
def State.stoStart (s : State) (h c : Nat) (v : StoConn) (d : Desc) (t : List Desc) (cid : Nat) (host : Bytes) : State :=
  let b := d.bytes
  let s := s.setConn c { v with waiting := t }
  let (s, bad) := if stoHost b then (s, none) else s.addRefs (stoBuf b) 1 (some v.fn)
  match bad with
  | some _ => s.stoDone v d St.accessDenied 4 0 0 0
  | none =>
    let (s, x) := if stoInCap b then s.stoSource h c (stoArg 65536 d.idx) b 0 (stoLen b) host else (s, [])
    let s := match s.conn c with | some v => s.setConn c { v with cmds := v.cmds ++ [({ cid := cid, desc := d, moved := x.length } : StoCmd)] } | none => s
    s.pduOut c 4 0 (stoSqe b cid) x

/-- STO_COMMAND_START (R457): the next waiting descriptor of a connection takes the lowest free CID, once its in-capsule data has come from host memory
where it lies there (R341). -/
def execStoCommandStart (c : Nat) (host : Bytes) (at_ : Nat) (s : State) : Answer :=
  let s := s.atTime at_
  match s.conn c with
  | none => .next s
  | some v =>
    match v.waiting, (List.range v.depth).find? (fun i => !v.cmds.any (fun m => m.cid == i)), s.physOf v.hall with
    | d :: t, some cid, some h =>
      if v.state ≠ 1 ∧ v.state ≠ 2 then .next s
      else
        (match s.stoReady h c (stoArg 65536 d.idx) v d.bytes 0 (if stoInCap d.bytes then stoLen d.bytes else 0) with
        | (s, false) => .next s
        | (s, true) => .next (s.stoStart h c v d t cid host))
    | _, _, _ => .next s

/-! ### Admin commands (R447, R448) -/

/-- A connection record's fields are in range (R447). -/
def stoRecordOk (b : Bytes) : Bool :=
  let fl := leAt b 5 1
  let v6 := bitOf fl 0
  decide (leAt b 4 1 < 16) && decide (fl < 32) && decide (leAt b 6 2 < 4096) && (bitOf fl 1 || leAt b 0x0E 2 == 0) && leAt b 0x16 2 == 0 &&
    (v6 || (leNat (sliceB b 0x1C 12) == 0 && leNat (sliceB b 0x2C 12) == 0)) && decide (536 ≤ leAt b 0x3C 2) && decide (leAt b 0x3C 2 ≤ 9148) &&
    decide (1 ≤ leAt b 0x3E 1) && decide (leAt b 0x3E 1 ≤ 16) && leAt b 0x3F 1 == 0 && decide (1 ≤ leAt b 0x40 2) && decide (leAt b 0x40 2 ≤ 1024) &&
    decide (4 ≤ leAt b 0x42 2) && decide (leAt b 0x42 2 ≤ 1024) && (bitOf fl 4 || leAt b 0x44 4 == 0) && leNat (sliceB b 0x48 56) == 0

/-- STO_CONN_CREATE (R447, R448): the SYN goes out; the command completes when the connection is READY or FAILED. -/
def execStoConnCreate (d : AdminCmd) (buf : Bytes) (s : State) : Answer :=
  .next (s.admin d 0x60 (fun s =>
    let b := sliceB buf 0 128
    let l := leAt b 4 1
    let sq := s.ringKey 1 (leAt b 0 4) d.fn
    let q := match sq with | some k => s.queue k | none => {}
    let flowOk := match s.physOf l with | some h => (s.flow h (leAt b 6 2)).isSome | none => false
    let rx := s.resolve 4 (leAt b 0x44 4)
    if !stoRecordOk b ∨ !flowOk ∨ (sq.isSome ∧ q.present ∧ (q.hall ≠ l ∨ q.isRq ∨ q.kind ≠ 3)) then s.adminFail d St.badDescriptor
    else match sq with
      | none => s.adminFail d St.badHandle
      | some k =>
        let esp := bitOf (leAt b 5 1) 4
        if !q.present ∨ (esp ∧ rx.isNone) then s.adminFail d St.badHandle
        else if s.sto.conns.any (fun e => e.2.sq == k) ∨ (esp ∧ !(match rx with | some i => keyRx (s.slot i).attr && isEsp (keyType (s.slot i).attr) | none => false)) then s.adminFail d St.accessDenied
        else if 4096 ≤ s.sto.conns.length ∨ s.sto.conns.any (fun e => e.2.hall == l && e.2.flag 0 == bitOf (leAt b 5 1) 0 && sliceB e.2.record 0x18 36 == sliceB b 0x18 36) then s.adminFail d St.quota
        else
          let c := ((List.range 4096).find? (fun i => (s.conn i).isNone)).getD 0
          let isn := s.free % 2 ^ 32
          let v : StoConn := { record := b, fn := q.fn, sq := k, createCmd := some d, iss := isn, una := isn, needSyn := true, scale := scaleFor (leAt b 0x42 2 * 1024), cwnd := 0 }
          (s.drawn.setConn c v).setFld Fld.STO_STATUS_CONNS (s.fld Fld.STO_STATUS_CONNS + 1)))

/-- STO_CONN_CLOSE (R448, R449). -/
def execStoConnClose (d : AdminCmd) (s : State) : Answer :=
  .next (s.admin d 0x61 (fun s =>
    match s.resolve 6 (d.p 0) with
    | none => s.adminFail d St.badHandle
    | some c =>
      match s.conn c with
      | none => s.adminFail d St.badHandle
      | some v =>
        let s := s.setConn c { v with closeCmd := some d }
        if v.state = 3 ∨ (v.tcp = 0 ∧ d.p 1 = 0) then s.connClose c
        else if d.p 1 = 1 then
          let fr := s.tcpFrame v (s.free % 65536) 0x14 v.nxt [] []
          let s := match s.physOf v.hall with
            | some h => if v.tcp = 0 then s else (s.drawn.flowAppend h v.flow (frameRecord fr false)).1
            | none => s
          let s := s.connFail c 7
          s.connClose c
        else (s.setConn c { v with closeCmd := some d, state := 2 }).connFinish c))

/-- STO_CONN_QUERY (R448). -/
def execStoConnQuery (d : AdminCmd) (s : State) : Answer :=
  .next (s.admin d 0x62 (fun s =>
    match s.resolve 6 (d.p 0) with
    | none => s.adminFail d St.badHandle
    | some c =>
      match s.conn c with
      | none => s.adminFail d St.badHandle
      | some v =>
        if !s.isOwner d.fn ∧ d.fn ≠ v.fn then s.adminFail d St.accessDenied
        else
          (s.adminOut d (leBytes 1 v.state ++ leBytes 1 v.reason ++ leBytes 2 0 ++ leBytes 4 v.cmds.length ++ leBytes 1 v.cpda ++ leBytes 1 (b2n v.hdgst) ++ leBytes 2 (b2n v.ddgst) ++
            leBytes 4 v.maxH2c ++ leBytes 4 v.peerMss ++ leBytes 4 v.retrans ++ leBytes 40 0)).adminOk d))

/-- The connections that a hall's fault, a remap or a swap takes down (R462). -/
def State.stoHallFail (s : State) (l : Nat) : State :=
  s.sto.conns.foldl (fun (s : State) (e : Nat × StoConn) => if e.2.hall = l then s.connFail e.1 6 else s) s

end Sys2Proof.Machine
end

