-- ==== Sys2Proof/Machine/Tables.lean ====
section
/-! DEFINITION. The table commands (R257 to R259, R283 to R285, R289), the table windows that serve them, and the audit walker
(R291 to R293). -/

namespace Sys2Proof.Machine

/-! ### What may be written (R251, R259, R270, R274, R282, R283) -/

/-- An action word: reserved bits 0, VERDICT not reserved. -/
def actionOk (a : Nat) : Bool :=
  decide (bitsOf a 127 124 < 6) && !bitOf a 119 && !bitOf a 110 && bitsOf a 103 102 == 0 && bitsOf a 70 68 == 0 && bitsOf a 43 32 == 0

/-- A TCAM entry. -/
def tcamOk (e : Bytes) : Bool :=
  leAt e 60 4 == 0 && leAt e 0x7C 4 == 0 && decide (leAt e 0x90 4 < 2) && leAt e 0x94 12 == 0 &&
    Nat.land (tcamKey e) (tcamMask e) == tcamKey e && actionOk (tcamAction e)

/-- An action that a function other than the owner may write (R259). -/
def State.tenantAction (s : State) (fn a : Nat) : Bool :=
  let v := bitsOf a 127 124
  let t := bitsOf a 87 72
  let c := bitsOf a 101 88
  !(v == 3 || v == 4 || v == 5 || bitOf a 123 || bitOf a 55) &&
    !(v == 2 && (bitOf t 15 || !s.ownsVport fn (t % 8192))) &&
    decide (s.shareAt fn 0x1C 2 ≤ c) && decide (c < s.shareAt fn 0x1C 2 + s.shareAt fn 0x1E 2)

/-- The entry as the device keeps it for a tenant: SRC_KIND 2 and the function's vport, both compared in full. -/
def State.tenantEntry (s : State) (fn : Nat) (e : Bytes) : Bytes :=
  let key := putBits (putBits (tcamKey e) 479 478 2) 477 465 (s.shareAt fn 0x0C 2)
  let mask := putBits (putBits (tcamMask e) 479 478 3) 477 465 0x1FFF
  spliceB (spliceB e 0 (leBytes 60 key)) 0x40 (leBytes 60 mask)

/-- A bridge entry. -/
def bridgeOk (e : Bytes) : Bool :=
  let st := leAt e 12 4
  let d := leAt e 8 4
  decide (leAt e 6 2 < 4096) && !bitOf st 28 && decide (bitsOf st 27 24 ≤ 9) && dstOk d (.bridge (bitOf st 30)) &&
    (bitOf st 30 || dstKind d == 2 || bitsOf d 27 26 == 0)

/-- A bridge domain entry. -/
def domainOk (e : Bytes) : Bool :=
  decide (leAt e 0 2 < 16) && leAt e 2 2 == 0 && leAt e 7 1 == 0 && decide (leAt e 8 2 < 2048) && decide (leAt e 12 2 < 2048) &&
    decide (leAt e 10 2 ≤ 256) && decide (leAt e 14 2 ≤ 256) && decide (leAt e 8 2 + leAt e 10 2 ≤ 2048) &&
    decide (leAt e 12 2 + leAt e 14 2 ≤ 2048) && leAt e 16 16 == 0

/-- A vport entry. -/
def vportOk (e : Bytes) : Bool := decide (leAt e 0 2 < 32) && bitsOf (leAt e 0 2) 4 3 != 3 && decide (leAt e 2 2 < 8192) && leAt e 14 18 == 0

/-- The HDR_LEN that a KIND needs, from its header (R283). -/
def tunNeed (t : Bytes) : Nat :=
  let T := tunT t
  match tunKind t with
  | 1 => 50 + 4 * T
  | 2 => 70 + 4 * T
  | 3 => 50 + 4 * T + 4 * (beAt t (16 + 42 + 4 * T) 1 % 64)
  | 4 => 70 + 4 * T + 4 * (beAt t (16 + 62 + 4 * T) 1 % 64)
  | 5 => 4
  | _ => 8

/-- A template's header agrees with its KIND (R284); a tag has a TPID of R241, whose alternative S-TPID is alt where there is one. -/
def tunConsistent (alt : Option Nat) (t : Bytes) : Bool :=
  let hd := tunHeader t
  let k := tunKind t
  let l2 := 14 + 4 * tunT t
  let stag := fun (v : Nat) => v == 0x88A8 || some v == alt
  if k = 5 then true
  else if k = 6 then stag (beAt hd 0 2) && beAt hd 4 2 == 0x8100
  else
    let v6 := k == 2 || k == 4
    let o := l2 + (if v6 then 48 else 28)
    (tunT t == 0 || beAt hd 12 2 == 0x8100 || stag (beAt hd 12 2)) && (if v6 then beAt hd (l2 - 2) 2 == 0x86DD && beAt hd l2 1 / 16 == 6 && beAt hd (l2 + 6) 1 == 17
      else beAt hd (l2 - 2) 2 == 0x0800 && beAt hd l2 1 == 0x45 && beAt hd (l2 + 9) 1 == 17) &&
      (if k = 1 ∨ k = 2 then bitOf (beAt hd o 1) 3 else beAt hd o 1 / 64 == 0 && beAt hd (o + 2) 2 == 0x6558)

/-- A tunnel template. -/
def tunOk (alt : Option Nat) (t : Bytes) : Bool :=
  let n := leAt t 1 1
  let mtu := leAt t 12 2
  decide (tunKind t ≤ 6) && decide (leAt t 2 1 < 4) && leAt t 3 1 == 0 && leAt t 7 1 == 0 && dstOk (leAt t 8 4) .egress &&
    (mtu == 0 || (decide (68 ≤ mtu) && decide (mtu ≤ 9216))) && leAt t 14 2 == 0 && leNat (t.drop (16 + n)) == 0 && decide (n ≤ 112) &&
    (tunKind t == 0 || (n == tunNeed t && tunConsistent alt t))

/-! ### The commands -/

/-- COUNT of a read and the range that it names lie within a table. -/
def rangeOk (d : AdminCmd) (top : Nat) : Bool := decide (0 < d.p 2) && decide (d.p 2 ≤ 256) && decide (d.p 1 + d.p 2 ≤ top)

/-- CLS_WRITE (R258, R259): a tenant's entry is judged before the need for a plan. -/
def execClsWrite (d : AdminCmd) (buf : Bytes) (s : State) : Answer :=
  .next (s.admin d 0x20 (fun s =>
    let b := sliceB buf 0 160
    let only := bitOf (d.p 0) 8
    let a := tcamAction b
    let tenant := !s.isOwner d.fn
    if tenant ∧ !s.tenantAction d.fn a then s.adminFail d St.accessDenied
    else if !s.planActive then s.adminFail d St.unsupported
    else s.tableSubmit d (if tenant then s.tenantEntry d.fn b else b) true (if only then actionOk a else tcamOk b)))

/-- CLS_INVALIDATE (R258). -/
def execClsInvalidate (d : AdminCmd) (s : State) : Answer :=
  .next (s.admin d 0x21 (fun s => s.tableSubmit d [] true (decide (0 < d.p 2) && decide (d.p 1 + d.p 2 ≤ 16384))))

/-- CLS_READ (R258). -/
def execClsRead (d : AdminCmd) (s : State) : Answer := .next (s.admin d 0x22 (fun s => s.tableSubmit d [] false (rangeOk d 16384)))

/-- CLS_COUNTER_READ (R258). -/
def execClsCounterRead (d : AdminCmd) (s : State) : Answer := .next (s.admin d 0x23 (fun s => s.tableSubmit d [] false (rangeOk d 16384)))

/-- FRG_FLUSH (R258). -/
def execFrgFlush (d : AdminCmd) (s : State) : Answer := .next (s.admin d 0x24 (fun s => s.tableSubmit d [] true true))

/-- FWD_WRITE (R289). -/
def execFwdWrite (d : AdminCmd) (buf : Bytes) (s : State) : Answer :=
  .next (s.admin d 0x28 (fun s => s.tableSubmit d (sliceB buf 0 16) true (bridgeOk (sliceB buf 0 16))))

/-- FWD_DELETE (R289). -/
def execFwdDelete (d : AdminCmd) (s : State) : Answer := .next (s.admin d 0x29 (fun s => s.tableSubmit d [] true true))

/-- FWD_FLUSH (R289). -/
def execFwdFlush (d : AdminCmd) (s : State) : Answer :=
  .next (s.admin d 0x2A (fun s => s.tableSubmit d [] true (decide (d.p 1 < 4096) || d.p 1 == 0xFFFF)))

/-- FWD_READ (R289). -/
def execFwdRead (d : AdminCmd) (s : State) : Answer := .next (s.admin d 0x2B (fun s => s.tableSubmit d [] false (rangeOk d 262144)))

/-- VPORT_WRITE (R289). -/
def execVportWrite (d : AdminCmd) (buf : Bytes) (s : State) : Answer :=
  .next (s.admin d 0x2C (fun s => s.tableSubmit d (sliceB buf 0 32) true (decide (d.p 1 < 8192) && vportOk (sliceB buf 0 32))))

/-- VPORT_READ (R289). -/
def execVportRead (d : AdminCmd) (s : State) : Answer := .next (s.admin d 0x2D (fun s => s.tableSubmit d [] false (rangeOk d 8192)))

/-- TUN_WRITE (R285, R289). -/
def execTunWrite (d : AdminCmd) (buf : Bytes) (s : State) : Answer :=
  .next (s.admin d 0x2E (fun s => s.tableSubmit d (sliceB buf 0 128) true (decide (d.p 1 < 2048) && tunOk (if s.cfg Fld.PRS_CFG_ALT_EN = 1 then some (s.cfg Fld.PRS_CFG_ALT_STPID) else none) (sliceB buf 0 128))))

/-- TUN_READ (R289). -/
def execTunRead (d : AdminCmd) (s : State) : Answer := .next (s.admin d 0x2F (fun s => s.tableSubmit d [] false (rangeOk d 2048)))

/-- BD_WRITE (R270): staged; it completes at the landing that applies it. -/
def execBdWrite (d : AdminCmd) (buf : Bytes) (s : State) : Answer :=
  .next (s.admin d 0x30 (fun s =>
    let e := sliceB buf 0 32
    if 4096 ≤ d.p 1 ∨ !domainOk e then s.adminFail d St.badDescriptor
    else { s with fw := { s.fw with bdNew := s.fw.bdNew ++ [(d, d.p 1, e)] } }))

/-- FLOOD_WRITE (R270). -/
def execFloodWrite (d : AdminCmd) (buf : Bytes) (s : State) : Answer :=
  .next (s.admin d 0x31 (fun s =>
    let ws := (List.range (d.p 2)).map (fun i => leAt buf (4 * i) 4)
    if d.p 2 = 0 ∨ 256 < d.p 2 ∨ 2048 < d.p 1 + d.p 2 ∨ !ws.all (fun w => dstOk w .flood) then s.adminFail d St.badDescriptor
    else { s with fw := { s.fw with floodNew := s.fw.floodNew ++ [(d, d.p 1, ws)] } }))

/-! ### Audit blocks (R291, R292) -/

def State.auditSt (s : State) (h : Nat) : AuditSt := s.fw.audit.get {} h
def State.setAudit (s : State) (h : Nat) (a : AuditSt) : State := { s with fw := { s.fw with audit := s.fw.audit.put h a } }

/-- The valid bit of a block's shadow digest. -/
def State.blockValid (s : State) (h b : Nat) : Bool := bitOf (s.fld Fld.FWD_AUDIT_VALID_VALID h (b / 32)) (b % 32)
def State.setBlockValid (s : State) (h b v : Nat) : State :=
  s.setFld Fld.FWD_AUDIT_VALID_VALID (putBits (s.fld Fld.FWD_AUDIT_VALID_VALID h (b / 32)) (b % 32) (b % 32) v) h (b / 32)

/-- A write step into a block: the first of a command clears the block's valid bit, and a digest in progress begins again. -/
def State.touchBlock (s : State) (h b : Nat) (first : Bool) : State :=
  let s := if first then s.setBlockValid h b 0 else s
  let a := s.auditSt h
  if a.active ∧ a.block = b then s.setAudit h { a with entry := 0, raw := 0xFFFFFFFF } else s

/-- The image of entry i of a block. -/
def State.blockImage (s : State) (h b i : Nat) : Bytes :=
  if b < 256 then s.fw.tcam.get (List.replicate 160 0) (h * 16384 + 64 * b + i)
  else if b < 384 then s.vport h (64 * (b - 256) + i)
  else if b < 416 then s.template h (64 * (b - 384) + i)
  else if b < 480 then s.domain (64 * (b - 416) + i)
  else leBytes 4 (s.floodTarget (64 * (b - 480) + i))

/-- AUDIT_SHADOW_WRITE (R292): the valid bit is set, unless a clearing of it falls in the same clock. -/
def execAuditShadowWrite (who : Who) (h b value : Nat) (clash : Bool) (s : State) : Answer :=
  if !s.mayWrite who ∨ 18 ≤ h ∨ 512 ≤ b then .next s
  else .next ((s.setFld Fld.FWD_AUDIT_SHADOW_DIGEST value h b).setBlockValid h b (if clash then 0 else 1))

/-- FWD_AUDIT_FAIL_READ (R293, R295): the head leaves the queue; its digest is latched for the reader. -/
def execFwdAuditFailRead (who : Who) (h : Nat) (s : State) : Answer :=
  if 18 ≤ h then .next s else
  let a := Reg.addr .FWD_AUDIT_FAIL h 0
  let t := s.auditSt h
  match t.fails with
  | [] => .next (s.answer who a 0)
  | (b, g) :: r =>
    let s := (s.setAudit h { t with fails := r }).latch who (Reg.addr .FWD_AUDIT_FAIL_DIGEST h 0) g
    .next (s.answer who a (2 ^ 31 + r.length * 65536 + b))

/-! ### One clock of a table command (R257, R285) -/

def State.tcamEntry (s : State) (h i : Nat) : Bytes := s.fw.tcam.get (List.replicate 160 0) (h * 16384 + i)

/-- Write a TCAM entry; CLS_STATUS.VALID counts the VALID ones. -/
def State.setTcam (s : State) (h i : Nat) (e : Bytes) : State :=
  let s := { s with fw := { s.fw with tcam := s.fw.tcam.put (h * 16384 + i) e } }
  s.setFld Fld.CLS_STATUS_VALID (s.fw.tcam.filter (fun (x : Nat × Bytes) => x.1 / 16384 == h && tcamValid x.2)).length h

def State.setTemplate (s : State) (h i : Nat) (t : Bytes) : State := { s with fw := { s.fw with tuns := s.fw.tuns.put (h * 2048 + i) t } }

/-- A bridge entry's 16 octets as stored. -/
def State.bridgeImage (s : State) (h x : Nat) : Bytes :=
  match s.bridgeAt h x with
  | some e => sliceB e.mac 0 6 ++ leBytes 2 e.bd ++ leBytes 4 e.dest ++ leBytes 4 e.state
  | none => List.replicate 16 0

/-- Insert or replace a bridge entry for the host (R275): the state, and the status that the command ends with. -/
def State.bridgeWrite (s : State) (h : Nat) (b : Bytes) : State × Nat :=
  let bd := leAt b 6 2
  let mac := sliceB b 0 6
  let e : Bridge := { bd := bd, mac := mac, dest := leAt b 8 4, state := leAt b 12 4 }
  match s.bridgeFind h bd mac with
  | some x => (if bitOf e.state 31 then s.setBridge h x e else s.freeBridge h x, 0)
  | none =>
    if !bitOf e.state 31 then (s, 0)
    else match s.bridgeRoom h bd mac with
      | some x => (s.setBridge h x e, 0)
      | none =>
        let (p, q) := probes bd mac
        match (if e.static then (p ++ q).find? (fun x => match s.bridgeAt h x with | some o => !o.static | none => false) else none) with
        | some x => (s.setBridge h x e, 0)
        | none => (s, St.quota)

/-- FWD_FLUSH frees an entry that its parameters match. -/
def flushes (d : AdminCmd) (e : Bridge) : Bool :=
  (d.p 1 == 0xFFFF || e.bd == d.p 1) && (d.p 2 == 0 || e.dest == d.p 2) && (bitOf (d.p 0) 8 || !e.static)

/-- The clocks that a table command takes in a hall. -/
def TblJob.clocks (j : TblJob) : Nat :=
  match j.cmd.opcode with
  | 0x1C => j.cmd.p 2
  | 0x20 => if bitOf (j.cmd.p 0) 8 then 1 else 4
  | 0x21 | 0x23 | 0x2B | 0x2D => j.cmd.p 2
  | 0x22 | 0x2F => 2 * j.cmd.p 2
  | 0x28 | 0x29 => 2
  | 0x2A => 32768
  | 0x2E => 4
  | _ => 1

/-- A command whose clocks may not be parted by the end of a window. -/
def TblJob.whole (j : TblJob) : Bool := j.clocks == 4 && (j.cmd.opcode == 0x20 || j.cmd.opcode == 0x2E)

/-- A station entry written by the host (R194): a channel's emissions return at the next landing after its entry does. -/
def State.stationWrite (s : State) (h sid : Nat) (e : Bytes) : State :=
  let old := s.station h sid
  let s := s.setStation h sid e
  if stnValid e ∧ (!stnValid old ∨ stnLane old ≠ stnLane e) then s.entryNew h sid (stnValid old) else s

/-- Step c of a command in a hall; a read hands on what it has copied. -/
def State.tableStep (s : State) (h : Nat) (j : TblJob) : State × TblJob :=
  let d := j.cmd
  let c := j.pos
  let i := d.p 1
  let j := { j with pos := c + 1 }
  match d.opcode with
  | 0x1C => (s, { j with acc := j.acc ++ s.station h (i + c) })
  | 0x1D | 0x1E => (s.stationWrite h i j.buf, j)
  | 0x20 =>
    let b := i / 64
    if bitOf (d.p 0) 8 then ((s.touchBlock h b true).setTcam h i (spliceB (s.tcamEntry h i) 0x80 (sliceB j.buf 0x80 16)), j)
    else if c = 0 then ((s.touchBlock h b true).setTcam h i (spliceB (s.tcamEntry h i) 0x90 [0, 0, 0, 0]), j)
    else if c < 3 then ((s.touchBlock h b false).setTcam h i (sliceB j.buf 0 0x90 ++ sliceB (s.tcamEntry h i) 0x90 16), j)
    else ((s.touchBlock h b false).setTcam h i j.buf, j)
  | 0x21 => ((s.touchBlock h ((i + c) / 64) (c == 0 || (i + c) % 64 == 0)).setTcam h (i + c) (spliceB (s.tcamEntry h (i + c)) 0x90 [0, 0, 0, 0]), j)
  | 0x22 => (s, if c % 2 = 0 then j else { j with acc := j.acc ++ s.tcamEntry h (i + c / 2) })
  | 0x23 =>
    let (f, b) := s.fw.counters.get (0, 0) (h * 16384 + i + c)
    let s := if bitOf (d.p 0) 8 then { s with fw := { s.fw with counters := s.fw.counters.del (h * 16384 + i + c) } } else s
    (s, { j with acc := j.acc ++ leBytes 8 f ++ leBytes 8 b })
  | 0x24 => ({ s with fw := { s.fw with frags := s.fw.frags.filter (fun (e : Nat × FragEntry) => e.1 / 4096 != h) } }.showFrags h, j)
  | 0x28 => if c = 0 then (s, j) else (let (s, st) := s.bridgeWrite h j.buf; (s, { j with st := max j.st st }))
  | 0x29 =>
    if c = 0 then (s, j)
    else match s.bridgeFind h i (leBytes 4 (d.p 2) ++ leBytes 2 (d.p 3)) with
      | some x => (s.freeBridge h x, j)
      | none => (s, j)
  | 0x2A =>
    (((List.range 4).map (· + 4 * c) ++ (List.range 4).map (· + 131072 + 4 * c)).foldl (fun (s : State) x =>
      match s.bridgeAt h x with
      | some e => if flushes d e then s.freeBridge h x else s
      | none => s) s, j)
  | 0x2B => (s, { j with acc := j.acc ++ s.bridgeImage h (i + c) })
  | 0x2C => ({ s.touchBlock h (256 + i / 64) true with fw := { (s.touchBlock h (256 + i / 64) true).fw with vports := s.fw.vports.put (h * 8192 + i) j.buf } }, j)
  | 0x2D => (s, { j with acc := j.acc ++ s.vport h (i + c) })
  | 0x2E =>
    let b := 384 + i / 64
    if c = 0 then ((s.touchBlock h b true).setTemplate h i (spliceB (s.template h i) 0 [0]), j)
    else if c < 3 then ((s.touchBlock h b false).setTemplate h i (spliceB j.buf 0 [0]), j)
    else ((s.touchBlock h b false).setTemplate h i j.buf, j)
  | 0x2F => (s, if c % 2 = 0 then j else { j with acc := j.acc ++ s.template h (i + c / 2) })
  | _ => (s, j)

/-- A hall has finished a command: it leaves the hall's queue, and completes when no named hall has it left. -/
def State.tableDone (s : State) (h : Nat) (j : TblJob) : State :=
  let same := fun (k : TblJob) => k.cmd.fn == j.cmd.fn && k.cmd.idx == j.cmd.idx
  let s := { s with tblq := s.tblq.put h ((s.tblq.get [] h).drop 1) }
  if s.tblq.any (fun (e : Nat × List TblJob) => e.2.any same) then
    { s with tblq := s.tblq.map (fun (e : Nat × List TblJob) => (e.1, e.2.map (fun k => if same k then { k with st := max k.st j.st } else k))) }
  else if j.st ≠ 0 then s.adminFail j.cmd j.st
  else if j.acc = [] then s.adminOk j.cmd
  else (s.adminOut j.cmd j.acc).adminOk j.cmd

/-! ### The audit walker (R293) -/

/-- The next block whose shadow is valid, from one on, and whether the search passed block 511. -/
def State.nextBlock (s : State) (h b : Nat) : Option (Nat × Bool) :=
  match (List.range 512).find? (fun i => s.blockValid h ((b + i) % 512)) with
  | some i => some ((b + i) % 512, decide (512 ≤ b + i))
  | none => none

/-- A block's digest is complete. -/
def State.auditEnd (s : State) (h : Nat) (a : AuditSt) (digest : Nat) : State :=
  let b := a.block
  let shadow := s.fld Fld.FWD_AUDIT_SHADOW_DIGEST h b
  let s := if b = 511 then s.setFld Fld.FWD_AUDIT_STATUS_PASSES (s.fld Fld.FWD_AUDIT_STATUS_PASSES h + 1) h else s
  let s := s.setFld Fld.FWD_AUDIT_STATUS_ACTIVE 0 h
  let a := { a with active := false, block := (b + 1) % 512, entry := 0, raw := 0xFFFFFFFF }
  if digest = shadow then s.setAudit h a
  else
    let s := s.raise Fld.FWD_AUDIT_STATUS_MISMATCH h
    let s := if 16 ≤ a.fails.length then (s.setAudit h a).raise Fld.FWD_AUDIT_STATUS_FAIL_OVF h else s.setAudit h { a with fails := a.fails ++ [(b, digest)] }
    (s.setBlockValid h b 0).almHall 0x0702 h (leBytes 2 b ++ leBytes 2 0 ++ leBytes 4 digest ++ leBytes 4 shadow)

/-- The walker digests the next entry of its block. -/
def State.auditEntry (s : State) (h : Nat) (a : AuditSt) : State :=
  let raw := (s.blockImage h a.block a.entry).foldl (crcByte 0x82F63B78) a.raw
  if a.entry = 63 then s.auditEnd h a (raw ^^^ 0xFFFFFFFF)
  else s.setAudit h { a with entry := a.entry + 1, raw := raw }

/-- One clock of the walker: it digests one entry, of its block or of the next whose shadow is valid. -/
def State.auditStep (s : State) (h : Nat) : State :=
  let a := s.auditSt h
  if a.active && s.blockValid h a.block then s.auditEntry h a
  else match s.nextBlock h a.block with
    | none => (s.setAudit h { a with active := false }).setFld Fld.FWD_AUDIT_STATUS_ACTIVE 0 h
    | some (b, wrapped) =>
      let s := if wrapped then s.setFld Fld.FWD_AUDIT_STATUS_PASSES (s.fld Fld.FWD_AUDIT_STATUS_PASSES h + 1) h else s
      (s.setFld Fld.FWD_AUDIT_STATUS_ACTIVE 1 h).auditEntry h { a with active := true, block := b, entry := 0, raw := 0xFFFFFFFF }

/-! ### The window (R120) -/

/-- One clock of an open window of a KIND, at an instant, with so many clocks left, this one included. A learning write of the same clock comes first, but
after a flush (R290). -/
def State.tableClock (s : State) (h kind left t0 : Nat) : State :=
  let flush := match s.tblq.get [] h with | j :: _ => j.cmd.opcode == 0x2A | [] => false
  let s := s.learnsBefore h (if flush then t0 else t0 + 1)
  let walk := fun (s : State) => if kind ≠ 1 ∧ s.flag Fld.FWD_AUDIT_CFG_EN h then s.auditStep h else s
  match s.tblq.get [] h with
  | [] => walk s
  | j :: t =>
    if kind = 2 ∨ (j.whole ∧ j.pos = 0 ∧ left < 4) then walk s
    else
      let (s, j) := s.tableStep h j
      if j.clocks ≤ j.pos then s.tableDone h j else { s with tblq := s.tblq.put h (j :: t) }

/-- So many clocks of an open window of so many that starts at an instant. -/
def State.tableClocks (s : State) (h kind start len : Nat) : Nat → Nat → State
  | 0, _ => s
  | n + 1, left => (s.tableClock h kind left (clockAt start (len - left) (s.clocks h))).tableClocks h kind start len n (left - 1)

/-- The clocks of a hall's open table window up to now are served; a window may last over many treads. -/
def State.tableServe (s : State) (h : Nat) : State :=
  match (s.seq h).table with
  | none => s
  | some (kind, start, len, used) =>
    let done := min len ((s.now - start) * s.clocks h / treadTicks)
    let s := s.tableClocks h kind start len (done - used) (len - used)
    s.setSeq h { s.seq h with table := if len ≤ done then none else some (kind, start, len, max used done) }

/-- TABLE_WINDOW (R120): the E op opens its window when it issues; the window's clocks up to an instant are served. -/
def execTableWindow (h at_ : Nat) (s : State) : Answer :=
  let s := match s.takeOp h 2 0x33 with
    | some (o, s) =>
      let n := bitsOf o 46 31
      let s := (s.tableServe h).occupy h o n
      s.setSeq h { s.seq h with table := some (bitsOf o 48 47, clockAt (s.seq h).start (Plan.offset o) (s.clocks h), n, 0) }
    | none => s
  .next ((s.atTime at_).tableServe h)

/-! ### What a landing applies (R270, R292) -/

/-- Staged bridge domains and flood targets take effect in all halls and their commands complete. -/
def State.bridgeLand (s : State) : State :=
  let bd := s.fw.bdNew
  let fl := s.fw.floodNew
  let s := { s with fw := { s.fw with bdNew := [], floodNew := [] } }
  let halls := List.range 18
  let s := bd.foldl (fun (s : State) (x : AdminCmd × Nat × Bytes) =>
    let s := halls.foldl (fun (s : State) h => s.touchBlock h (416 + x.2.1 / 64) true) s
    ({ s with fw := { s.fw with bds := s.fw.bds.put x.2.1 x.2.2 } }).adminOk x.1) s
  fl.foldl (fun (s : State) (x : AdminCmd × Nat × List Nat) =>
    let idx := (List.range x.2.2.length).map (· + x.2.1)
    let s := halls.foldl (fun (s : State) h => idx.foldl (fun (s : State) i => s.touchBlock h (480 + i / 64) true) s) s
    ({ s with fw := { s.fw with floods := (idx.zip x.2.2).foldl (fun (t : Tbl Nat) (e : Nat × Nat) => t.put e.1 e.2) s.fw.floods } }).adminOk x.1) s

end Sys2Proof.Machine
end

