-- ==== Sys2Proof/Machine/Faults.lean ====
section
/-! DEFINITION. Faults and their recovery (chapter 20, R500, R541): what each scope discards, whom it affects, the route that
it takes, and the commands that inject a fault and restore a hall. -/

namespace Sys2Proof.Machine

/-! ### What a fault discards (R506, R507) -/

/-- A frame's references are released; its send descriptor ends, which writes no record once its queue is halted. -/
def State.dropFrames (s : State) (l : List TxFrame) : State := l.foldl State.dropFrame s

/-- The parts of forwarding and cipher frames that hold references. -/
def OpenWork.tx (w : OpenWork) : TxFrame := { octets := [], tstamp := false, drops := w.drops, send := w.send }
def InlineFrame.tx (f : InlineFrame) : TxFrame := { octets := [], tstamp := false, drops := f.drops, send := f.send }

/-- A discarded delivery releases its buffer. -/
def State.voidDelivery (s : State) (d : Delivery) : State := match d.buffer with | some id => s.drop id | none => s

/-- Discarded admin commands: no record will be written for them, also where one's effect is still to come. -/
def State.voidCommands (s : State) (l : List AdminCmd) : State :=
  let ids := l.map (fun d => (d.fn, d.idx))
  let held := (s.heldCommands.map (fun d => (d.fn, d.idx))).filter (fun x => ids.contains x && !s.wq.gone.contains x)
  { s with wq := { s.wq with inflight := s.wq.inflight.filter (fun d => !ids.contains (d.fn, d.idx)), gone := s.wq.gone ++ held.eraseDups } }

/-- A frame's send descriptor that is no longer in progress is forgotten, so that a later descriptor of the same index is not ended
by it. -/
def State.liveSend (s : State) (r : SendRef) : Option SendRef := if (s.queue r.queue).inProg.contains r.idx then some r else none

def State.scrubSends (s : State) : State :=
  let fix := fun (f : TxFrame) => { f with send := f.send.bind s.liveSend }
  let inl := fun (f : InlineFrame) => { f with send := f.send.bind s.liveSend }
  let ports := s.ln.ports.map (fun (e : Nat × PortSt) => (e.1, { e.2 with planned := e.2.planned.map fix, opened := e.2.opened.map fix }))
  let moves := s.gal.moves.map (fun m => { m with frames := m.frames.map fix })
  let opened := s.fw.opened.map (fun (e : Nat × List OpenWork) => (e.1, e.2.map (fun w => { w with send := w.send.bind s.liveSend })))
  let repl := s.fw.repl.map (fun (e : Nat × List ReplJob) => (e.1, e.2.map (fun j => { j with frame := { j.frame with send := j.frame.send.bind s.liveSend } })))
  let cph := s.cph.map (fun (e : Nat × CphSt) => (e.1, { e.2 with inl := e.2.inl.map inl, ops := e.2.ops.map (fun o => { o with frame := o.frame.map inl }) }))
  let stq := s.stageq.map (fun (e : Nat × List StageRec) => (e.1, e.2.map (fun r => { r with frame := fix r.frame })))
  { s with ln := { s.ln with ports := ports }, gal := { s.gal with moves := moves }, fw := { s.fw with opened := opened, repl := repl }, cph := cph, stageq := stq }

/-- The kernels of a hall abort with HALL_FAULT; its cores stay occupied until their budgets elapse (R183). -/
def State.dropKernels (s : State) (h : Nat) : State :=
  (List.range 4).foldl (fun (s : State) c => if s.kernelRuns h c then s.kernelAbort h c 5 s.now else s) s

/-- Buffers that pointers hold, or that an ALLOC has taken, and that have not been handed off are released and counted. -/
def State.dropBuffers (s : State) (h : Nat) : State :=
  let s := (List.range 16).foldl (fun (s : State) k => if (s.ptrBuf h k).isSome then (s.orphan h k).voidPtr h k else s) s
  let s := (s.seq h).allocs.foldl (fun (s : State) a => match a.result with
    | some (id, _, _) => (s.bump Fld.TSQ_CNT_ORPHAN_COUNT h).drop id
    | none => s) s
  { s with seqs := s.seqs.del h }

/-- A move that a hall's fault discards: its own, or one whose data is to enter the hall. -/
def Move.dies (m : Move) (h : Nat) : Bool := m.hall == h || (!m.pull && !isAtrium m.endp && m.far == h)

def State.dropMoves (s : State) (h : Nat) : State :=
  let fr := (s.gal.moves.filter (fun m => m.dies h)).flatMap (fun m => m.frames)
  ({ s with gal := { s.gal with moves := s.gal.moves.filter (fun m => !m.dies h) } }).dropFrames fr

/-- What a port holds. -/
def State.dropPort (s : State) (l : Nat) : State :=
  let p := s.port l
  ((s.setPort l { p with rx := [], planned := [], opened := [], gone := [] }).dropFrames p.planned).dropFrames p.opened

/-- Frames in a hall's queues, replication and pipeline, and its deliveries. -/
def State.dropHallFrames (s : State) (h : Nat) : State :=
  let st := s.stageq.get [] h
  let ow := s.fw.opened.get [] h
  let rp := s.fw.repl.get [] h
  let dl := s.waiting h
  let c := s.cphOf h
  let s := { s with stageq := s.stageq.del h, cph := s.cph.del h, fw := { s.fw with opened := s.fw.opened.del h, repl := s.fw.repl.del h, audit := s.fw.audit.del h } }
  let s := { s with wq := { s.wq with delivery := s.wq.delivery.del h } }
  let s := dl.foldl State.voidDelivery s
  let s := s.dropFrames (st.map (fun r => r.frame) ++ ow.map OpenWork.tx ++ rp.map ReplJob.tx)
  s.dropFrames (c.inl.map InlineFrame.tx ++ c.ops.filterMap (fun o => o.frame.map InlineFrame.tx))

/-- Table commands of a hall: each leaves every hall's table queue, and ends with no record. -/
def State.dropTables (s : State) (h : Nat) : State :=
  let ds := (s.tblq.get [] h).map (fun j => j.cmd)
  let hit := fun (j : TblJob) => ds.any (fun d => d.fn == j.cmd.fn && d.idx == j.cmd.idx)
  ({ s with tblq := s.tblq.map (fun (e : Nat × List TblJob) => (e.1, e.2.filter (fun j => !hit j))) }).voidCommands ds

/-- A hall's DMA engine and carriers: descriptors held, bursts under way, what waits to be read or written through them, an error not yet acted on. -/
def State.dropDma (s : State) (h : Nat) : State :=
  let s := s.forgetPosts (fun g _ => g == h)
  { s with dma := { s.dma with reads := s.dma.reads.filter (fun r => r.hall != h), chans := s.dma.chans.map (fun (e : Nat × DmaCh) => if e.1 / 64 == h then (e.1, { e.2 with descs := [] }) else e), bursts := s.dma.bursts.filter (fun b => b.hall != h), errs := s.dma.errs.del h } }

/-- A hall's cyclic windows. -/
def State.dropCyclic (s : State) (h : Nat) : State :=
  { s with cyc := { s.cyc with wins := s.cyc.wins.filter (fun w => w.hall != h), crx := s.cyc.crx.filter (fun (e : Nat × CrxWin) => e.1 / 65536 != h) } }

/-- Everything in progress in a hall is discarded; records already staged stay. -/
def State.hallDrop (s : State) (h : Nat) : State :=
  let ports := s.hallPorts h
  let s := (((s.dropKernels h).dropBuffers h).dropMoves h).dropHallFrames h
  let s := ports.foldl State.dropPort s
  let s := ((s.dropTables h).dropDma h).dropCyclic h
  let s := match s.logicalOf h with | some l => s.stoHallFail l | none => s
  s.scrubSends

/-! ### Whom a hall's fault affects (R509) -/

/-- A queue's work stands in a hall: the hall serves it, or holds a job, a delivery, a ring or a connection of it. -/
def State.hallTouches (s : State) (h k : Nat) (q : Queue) : Bool :=
  if 65536 ≤ k then (s.tblq.get [] h).any (fun j => j.cmd.fn == q.fn)
  else s.servingHall q == h || (s.cphOf h).jobs.any (fun j => j.src == 0 && j.queue == k) || (s.waiting h).any (fun d => d.queue == k) ||
    (List.range 64).any (fun c => s.chRing h c == some k) || (List.range 8).any (fun p => (s.posts h p).any (fun x => x.ofQueue k)) ||
    s.sto.conns.any (fun (e : Nat × StoConn) => s.logicalOf h == some e.2.hall && e.2.sq == k)

/-- The functions whose writes and reads wait in a hall's carriers. -/
def State.carrierFns (s : State) (h : Nat) : List Nat :=
  (List.range 8).flatMap (fun p => (s.posts h p).map (fun x => match x.load with | .record k _ => (s.cq k).fn | .word f _ _ => f | .data f _ _ => f)) ++
    (s.dma.reads.filter (fun r => r.hall == h)).map (fun r => r.fn)

/-- The functions with work in a hall. -/
def State.hallFns (s : State) (h : Nat) : List Nat :=
  let qs := (s.wq.queues.filter (fun (e : Nat × Queue) => decide (e.1 < 65536) && e.2.present && s.servingHall e.2 == h)).map (fun e => e.2.fn)
  let cs := (s.dma.bursts.filter (fun b => b.hall == h && s.dmaService h b.ch == 2)).flatMap (fun b => b.units.filterMap (fun u => (s.unitDesc h u).map (fun d => d.fn)))
  let js := (s.cphOf h).jobs.map (fun j => j.fn)
  let ds := (s.waiting h).map (fun d => (s.queue d.queue).fn)
  let ns := (s.sto.conns.filter (fun (e : Nat × StoConn) => s.logicalOf h == some e.2.hall)).map (fun e => e.2.fn)
  let ow := if s.ownerValid ∧ (List.range 64).any (fun c => (s.chRing h c).isSome) then [s.ownerFn] else []
  (qs ++ cs ++ s.carrierFns h ++ js ++ ds ++ ns ++ ow).eraseDups

/-- The last fault, as FLT_LAST_INFO and FLT_LAST_SEQ show it: the Almanac entry is queued. -/
def State.lastFault (s : State) (scope cause hall : Nat) : State :=
  let s := ((s.setFld Fld.FLT_LAST_INFO_SCOPE scope).setFld Fld.FLT_LAST_INFO_CAUSE cause).setFld Fld.FLT_LAST_INFO_HALL hall
  s.setFld Fld.FLT_LAST_SEQ_SEQ s.lastSeq

/-! ### Faults of one function -/

/-- The commands of storage connections are discarded, with the references that they hold and what is read for them (R331, R506). -/
def State.dropCommands (s : State) (p : StoConn → Bool) : State :=
  s.sto.conns.foldl (fun (s : State) (e : Nat × StoConn) => if p e.2 then s.cmdsFail e.1 e.2 true else s) s

/-- What waits to be written into a function's memory through the carriers of halls. -/
def Post.into (x : Post) (fn : Nat) : Bool := match x.load with | .record _ _ => false | .word f _ _ => f == fn | .data f _ _ => f == fn

/-- The work of one function in every hall and in the Nave (R504, R506). -/
def State.dropFunction (s : State) (fn : Nat) : State :=
  let mine := fun (f : TxFrame) => match f.send with | some r => (s.queue r.queue).fn == fn | none => false
  let cmds := s.wq.inflight.filter (fun d => d.fn == fn)
  let dl := s.wq.delivery.flatMap (fun (e : Nat × List Delivery) => e.2.filter (fun d => (s.queue d.queue).fn == fn))
  let fr := s.stageq.flatMap (fun (e : Nat × List StageRec) => (e.2.map (fun r => r.frame)).filter mine) ++
    s.fw.opened.flatMap (fun (e : Nat × List OpenWork) => (e.2.map OpenWork.tx).filter mine) ++
    s.fw.repl.flatMap (fun (e : Nat × List ReplJob) => (e.2.map ReplJob.tx).filter mine) ++
    s.cph.flatMap (fun (e : Nat × CphSt) => ((e.2.inl ++ e.2.ops.filterMap (fun o => o.frame)).map InlineFrame.tx).filter mine) ++
    s.ln.ports.flatMap (fun (e : Nat × PortSt) => (e.2.planned ++ e.2.opened).filter mine)
  let cph := s.cph.map (fun (e : Nat × CphSt) =>
    let gone := (e.2.jobs.filter (fun j => j.fn == fn)).map (fun j => j.id)
    (e.1, { e.2 with inl := e.2.inl.filter (fun f => !mine f.tx), jobs := e.2.jobs.filter (fun j => j.fn != fn), ops := e.2.ops.filter (fun o => (match o.job with | some (i, _, _) => !gone.contains i | none => true) && (match o.frame with | some f => !mine f.tx | none => true)) }))
  let fw := { s.fw with opened := s.fw.opened.map (fun (e : Nat × List OpenWork) => (e.1, e.2.filter (fun w => !mine w.tx))), repl := s.fw.repl.map (fun (e : Nat × List ReplJob) => (e.1, e.2.filter (fun j => !mine j.tx))) }
  let ports := s.ln.ports.map (fun (e : Nat × PortSt) => (e.1, { e.2 with planned := e.2.planned.filter (fun f => !mine f), opened := e.2.opened.filter (fun f => !mine f) }))
  let chans := s.dma.chans.map (fun (e : Nat × DmaCh) => (e.1, { e.2 with descs := e.2.descs.filter (fun d => d.fn != fn) }))
  let t := { s with cph := cph, fw := fw, ln := { s.ln with ports := ports }, dma := { s.dma with chans := chans, reads := s.dma.reads.filter (fun r => r.fn != fn) } }
  let t := (t.forgetPosts (fun _ x => x.into fn)).dropCommands (fun v => v.fn == fn)
  let t := { t with stageq := t.stageq.map (fun (e : Nat × List StageRec) => (e.1, e.2.filter (fun r => !mine r.frame))), tblq := t.tblq.map (fun (e : Nat × List TblJob) => (e.1, e.2.filter (fun j => j.cmd.fn != fn))), wq := { t.wq with delivery := t.wq.delivery.map (fun (e : Nat × List Delivery) => (e.1, e.2.filter (fun d => (s.queue d.queue).fn != fn))) } }
  ((dl.foldl State.voidDelivery (t.dropFrames fr)).voidCommands cmds).scrubSends

/-- What the engines still have in progress of one queue's descriptors is dropped. -/
def State.dropQueue (s : State) (k : Nat) : State :=
  let cph := s.cph.map (fun (e : Nat × CphSt) =>
    let gone := (e.2.jobs.filter (fun j => j.src == 0 && j.queue == k)).map (fun j => j.id)
    (e.1, { e.2 with jobs := e.2.jobs.filter (fun j => !gone.contains j.id), ops := e.2.ops.filter (fun o => match o.job with | some (i, _, _) => !gone.contains i | none => true) }))
  let chans := s.dma.chans.map (fun (e : Nat × DmaCh) => if s.chRing (e.1 / 64) (e.1 % 64) == some k then (e.1, { e.2 with descs := [] }) else e)
  (({ s with cph := cph, dma := { s.dma with chans := chans } }).dropCommands (fun v => v.sq == k)).scrubSends

/-- QUEUE_RESET (R382): C and P return to the completion watermark, entries above it are abandoned without a record. -/
def execQueueReset (d : AdminCmd) (s : State) : Answer :=
  .next (s.admin d 0x06 (fun s => s.queueFor d true (fun k =>
    let q := s.queue k
    let s := s.unreserve q.cq (if q.isRq ∨ 65536 ≤ k then 0 else q.inProg.length)
    let s := s.setQueue k { q with state := if q.state = .destroying then .destroying else .active, detail := 0, c := q.wm, p := q.wm, ready := [], inProg := [], finished := [], batchSum := 0, staleSince := none }
    (((s.unstage k).dropQueue k).finishDestroy k).adminOk d q.wm)))

/-- Queues of a function that were being destroyed have no work left (R389). -/
def State.finishDestroys (s : State) (fn : Nat) : State :=
  ((s.wq.queues.filter (fun (e : Nat × Queue) => e.2.present && e.2.fn == fn && e.2.state == .destroying)).map (fun e => e.1)).foldl State.finishDestroy s

/-- A fault of FUNCTION scope (R504 to R506): logged, counted, the function affected with all its queues touched, its work
discarded. -/
def State.functionFault (s : State) (fn cause discarded : Nat) : State :=
  let s := s.alm 0x0D05 1 0xFF 1 fn
    (leBytes 1 cause ++ leBytes 1 0 ++ leBytes 2 (s.fld Fld.FLT_FN_EPOCH_EPOCH fn + 1) ++ leBytes 2 discarded)
  let s := ((s.raise Fld.FLT_STATUS_FUNCTION).bump Fld.FLT_CNT_FN_FAULT_COUNT).lastFault 1 cause 0xFF
  ((s.affect fn 1 cause 0xFF s.lastSeq (fun _ _ => true)).dropFunction fn).finishDestroys fn

/-- D3_DRAIN_DEADLINE (R411): what has not finished is discarded under fault semantics. -/
def execD3DrainDeadline (f at_ : Nat) (s : State) : Answer :=
  let s := s.atTime at_
  match (s.fn f).drain with
  | some d =>
    if s.drainOver d then
      let n := s.inProgress f
      let s := (s.setFn f { s.fn f with drain := none }).setFld Fld.EP_FN_STATE_DRAINING 0 f
      .next (if n = 0 then s else s.functionFault f 0x30 n)
    else .next s
  | none => .next s

/-- QUIESCE_DEADLINE (R436): what remains is discarded under fault semantics, and the VF is QUIESCED. -/
def execQuiesceDeadline (f at_ : Nat) (s : State) : Answer :=
  let s := s.atTime at_
  let t := s.fn f
  match t.quiesce with
  | some (_, dr) =>
    let n := s.inProgress f
    if n = 0 then .next (s.quiesced f)
    else if s.drainOver dr then
      let s := s.setFn f { t with discarded := n }
      .next ((s.functionFault f 0x32 n).quiesced f)
    else .next s
  | none => .next s

/-! ### Hall faults (R505, R514, R515, R541) -/

/-- A hall's recovery, and another hall's use of a spare. -/
def State.recov (s : State) (h : Nat) : Option Recovery := s.flt.recov.get none h
def State.setRecov (s : State) (h : Nat) (r : Option Recovery) : State := { s with flt := { s.flt with recov := s.flt.recov.put h r } }

/-- A spare that R541 makes eligible for the logical hall that a hall runs. -/
def State.eligibleSpare (s : State) (h l x : Nat) : Bool :=
  Plan.spare s.pln.active x && s.fld Fld.TSQ_STATE_ROLE x == 2 && x / 9 == h / 9 && bitOf (s.fld Fld.GAL_REMAP_OK_PHYS 0 l) x &&
    decide (s.fld Fld.FLT_HALL_STATE 0 x = 0) && decide (s.fld Fld.BARO_MT_W0_CERT_G 0 x ≤ Plan.reqGrade s.pln.active ((Plan.phys s.pln.active l).getD h)) &&
    (List.range 18).all (fun g => g == h || match s.recov g with | some r => r.spare != some x | none => true)

/-- The spare that R541 chooses: one at F2 before one at F3, then the lowest number. -/
def State.chooseSpare (s : State) (h l : Nat) : Option Nat :=
  let xs := (List.range 18).filter (s.eligibleSpare h l)
  match xs.find? (fun x => decide (s.frost x ≤ 2)) with
  | some x => some x
  | none => xs.head?

/-- The route of a hall-scope cause (R505). -/
def hallRoute (cause : Nat) : Nat := if cause = 7 then 2 else if cause = 8 ∨ cause = 9 then 1 else 0

/-- The faults of a hall have reached REPEAT_COUNT within REPEAT_S (R515). -/
def State.repeats (s : State) (h : Nat) : Bool :=
  let ts := s.flt.times.get [] h
  let n := s.fld Fld.FLT_CFG_REPEAT_COUNT
  decide (n ≤ ts.length) && decide (ts.getLastD 0 - (ts.drop (ts.length - n)).headD 0 ≤ s.fld Fld.FLT_CFG_REPEAT_S * secTicks)

/-- A fault is counted for a hall, with its instant. -/
def State.countFault (s : State) (h cause : Nat) : State :=
  let s := (s.bump Fld.FLT_HALL_FAULTS 0 h).setFld Fld.FLT_HALL_CAUSE cause 0 h
  let ts := s.flt.times.get [] h ++ [s.now]
  { s with flt := { s.flt with times := s.flt.times.put h (ts.drop (ts.length - 255)) } }

/-- The recovery of a hall begins, or begins again (R514, R515). A HALTED or REMAPPED hall stays so. -/
def State.beginRecovery (s : State) (h cause route minTreads : Nat) : State :=
  let st := s.fld Fld.FLT_HALL_STATE 0 h
  if st = 3 ∨ st = 4 then s else
  let old := s.recov h
  let l := s.logicalOf h
  let kept := match old with | some r => if r.route = 3 ∨ r.route = 1 then r.spare else none | none => none
  let x := if route ≠ 1 then none else match kept, l with
    | some x, _ => some x
    | none, some l => s.chooseSpare h l
    | none, none => none
  let route := if route = 1 ∧ x.isNone then 2 else route
  let wait := match x with | some x => if s.frost x ≤ 2 then 160 else 15000 | none => minTreads
  let cmd := match old with | some r => r.cmd | none => none
  let s := s.setRecov h (some { route := route, cause := cause, since := s.now, logical := l, spare := x, resetDone := false, minTreads := wait, cmd := if route = 2 then none else cmd })
  let s := (s.setFld Fld.FLT_HALL_STATE (if route = 0 then 2 else if route = 1 then 1 else 3) 0 h).setFld Fld.TSQ_STATE_STATE 4 h
  let s := if route = 2 then s.raise Fld.FLT_STATUS_HALTED else s
  match route, cmd with
  | 2, some d => s.adminFail d St.unsupported
  | _, _ => s

/-- A fault of one hall: logged and counted, its functions affected, its work discarded, its recovery begun. -/
def State.hallFault (s : State) (h cause : Nat) : State :=
  if 18 ≤ h then s else
  let cause := if s.repeats h then 9 else cause
  let fns := s.hallFns h
  let t := s.countFault h cause
  let t := t.beginRecovery h cause (hallRoute cause) 0
  let route := match t.recov h with | some r => r.route | none => 2
  let tread := s.treadAt
  let t := t.alm 0x0D02 3 h 0 0 (leBytes 1 cause ++ leBytes 1 route ++ leBytes 2 fns.length ++ leBytes 4 tread)
  let t := ((t.raise Fld.FLT_STATUS_HALL).bump Fld.FLT_CNT_HALL_FAULT_COUNT).lastFault 3 cause h
  let seq := t.lastSeq
  let t := if cause = 1 then t.raise Fld.TSQ_FAULT_STORE_ECC h else if cause = 2 then t.raise Fld.TSQ_FAULT_BAD_OPCODE h else if cause = 3 then t.raise Fld.TSQ_FAULT_NOT_RUNNING h else t
  let t := fns.foldl (fun (t : State) f => t.affect f 3 cause h seq (s.hallTouches h)) t
  let t := fns.foldl State.finishDestroys (t.hallDrop h)
  t

/-- HALL_FAULT (R505, R506, R514): a hall fault of a hall-scope cause. -/
def execHallFault (h cause at_ : Nat) (s : State) : Answer :=
  let s := s.atTime at_
  .next (if 18 ≤ h ∨ cause = 0 ∨ 9 < cause ∨ s.flt.deviceFault.isSome then s else s.hallFault h cause)

/-- A hall returns to service (R514). -/
def State.hallReturns (s : State) (h : Nat) : State :=
  let cmd := match s.recov h with | some r => r.cmd | none => none
  let s := ((s.setRecov h none).setFld Fld.FLT_HALL_STATE 0 0 h).setFld Fld.DMA_STATUS_STOPPED 0 h
  let s := (List.range 64).foldl (fun (s : State) c => if s.chState h c = 4 then s.setChState h c (if s.dmaService h c = 0 then 0 else 1) else s) s
  match cmd with
  | some d => s.adminOk d
  | none => s

/-- HALL_RESET_COMPLETE (R514): the reset in place is complete, and the hall waits for its recovery landing; with no plan active there
is none to wait for. -/
def execHallResetComplete (h at_ : Nat) (s : State) : Answer :=
  let s := s.atTime at_
  match s.recov h with
  | some r =>
    if r.route ≠ 0 then .next s
    else
      let s := s.setRecov h (some { r with resetDone := true })
      .next (if s.planActive then s else (s.hallReturns h).setFld Fld.TSQ_STATE_STATE 0 h)
  | none => .next s

/-- DMA_ENGINE_STOP (R356): in the clock after a failed read, all 64 channels of the hall stop and the hall faults. -/
def execDmaEngineStop (h at_ : Nat) (s : State) : Answer :=
  let s := s.atTime at_
  match look s.dma.errs h with
  | none => .next s
  | some e =>
    let s := (s.raise Fld.DMA_STATUS_STOPPED h).raise Fld.DMA_STATUS_BUS_ERROR h
    let s := (((s.setFld Fld.DMA_ERR_INFO_VALID 1 h).setFld Fld.DMA_ERR_INFO_KIND e.kind h).setFld Fld.DMA_ERR_INFO_PORT e.port h).setFld Fld.DMA_ERR_INFO_CH e.ch h
    let s := ((s.setFld Fld.DMA_ERR_INFO_FUNCTION e.fn h).setFld Fld.DMA_ERR_ADDR_LO_ADDR e.addr h).setFld Fld.DMA_ERR_ADDR_HI_ADDR (e.addr / 2 ^ 32) h
    let s := s.almHall 0x0A01 h (leBytes 1 e.kind ++ leBytes 1 e.port ++ leBytes 1 e.ch ++ leBytes 1 0 ++ leBytes 2 e.fn ++ leBytes 2 0 ++ leBytes 8 e.addr)
    let s := s.hallFault h 5
    .next ((List.range 64).foldl (fun (s : State) c => if s.chState h c = 0 then s else s.setChState h c 4) s)

/-- RAIL_FAULT (R545): 16 samples in a row outside ±15 mV are a hall fault of cause SUPPLY. -/
def execRailFault (h at_ : Nat) (s : State) : Answer :=
  let s := s.atTime at_
  .next (if 18 ≤ h ∨ s.flt.deviceFault.isSome then s else s.hallFault h 8)

/-! ### Lane faults (R513) -/

/-- A port faults: it goes down, its frames are discarded, its lanes are reset. -/
def State.laneFault (s : State) (l cause : Nat) : State :=
  let h := (s.bayOwner (l / 8)).getD 0xFF
  let s := s.alm 0x0D01 2 h 2 l (leBytes 1 cause ++ leBytes 1 l)
  let s := ((s.raise Fld.FLT_STATUS_LANE).bump Fld.FLT_CNT_LANE_FAULT_COUNT).lastFault 2 cause h
  let s := ((s.portDown l 15).dropPort l).setFld Fld.LN_LANE_STATUS_TRAINING 0 0 l
  { s with flt := { s.flt with laneReset := s.flt.laneReset.put l (some s.now) } }

/-- LANE_FAULT (R505, R513): causes LANE_ECC and LANE_CLOCK of a lit port. -/
def execLaneFault (l cause at_ : Nat) (s : State) : Answer :=
  let s := s.atTime at_
  .next (if !s.isPort l ∨ (cause ≠ 0x40 ∧ cause ≠ 0x41) then s else s.laneFault l cause)

/-- LANE_RESET_COMPLETE (R513): the port's lanes are reset and train again. -/
def execLaneResetComplete (l at_ : Nat) (s : State) : Answer :=
  let s := s.atTime at_
  match s.flt.laneReset.get none l with
  | some _ =>
    let s := { s with flt := { s.flt with laneReset := s.flt.laneReset.put l none } }
    .next (if s.isPort l then s.train l else s)
  | none => .next s

/-! ### Half and device faults (R516, R517) -/

/-- A device fault: logged, reported on every enabled PF, every function affected, everything discarded; a device reset follows 1 ms
later. -/
def State.deviceFaults (s : State) (cause : Nat) : State :=
  if s.flt.deviceFault.isSome then s else
  let s := s.almDev 0x0D04 (leBytes 1 cause)
  let s := (s.bump Fld.FLT_CNT_DEVICE_FAULT_COUNT).lastFault 5 cause 0xFF
  let seq := s.lastSeq
  let s := s.pfs.foldl (fun (s : State) f => s.aer (portOf f) 22 false) s
  let fns := (List.range 8).flatMap (fun p => s.portFns p)
  let s := fns.foldl (fun (s : State) f => s.affect f 5 cause 0xFF seq (fun _ _ => true)) s
  let s := (List.range 18).foldl (fun (s : State) h => ((s.setFld Fld.FLT_HALL_CAUSE cause 0 h).setFld Fld.TSQ_STATE_STATE 4 h).hallDrop h) s
  let s := s.voidCommands s.wq.inflight
  { s with flt := { s.flt with deviceFault := some s.now, faultCause := cause } }

/-- DEVICE_FAULT: causes NAVE and PACKAGE; BOTH_HALVES follows from a half's fault. -/
def execDeviceFault (cause at_ : Nat) (s : State) : Answer :=
  let s := s.atTime at_
  .next (if cause = 0x20 ∨ cause = 0x22 then s.deviceFaults cause else s)

/-- The halls of a die. -/
def halfHalls (e : Nat) : List Nat := (List.range 9).map (· + 9 * e)

/-- The lanes of a die's halls go dark (R516). -/
def State.darkenHalf (s : State) (e : Nat) : State :=
  let ls := (List.range 256).filter (fun l => match s.bayOwner (l / 8) with | some h => h / 9 == e | none => false)
  let s := ls.foldl (fun (s : State) l => if s.isPort l then s.portDown l 15 else s) s
  ls.foldl (fun (s : State) l => (((s.setFld Fld.LN_LANE_STATUS_MODE 0 0 l).setFld Fld.LN_LANE_STATUS_TRAINING 0 0 l).setFld Fld.LN_LANE_STATUS_FEC_LOCK 0 0 l).setFld
    Fld.LN_LANE_STATUS_FEC_DEFAULT 0 0 l) s

/-- A half faults (R516): its halls fault with its cause; a second half makes it a fault of the device. -/
def State.halfFault (s : State) (e cause : Nat) : State :=
  if s.fld Fld.FLT_HALF_STATE 0 (1 - e) ≠ 0 then s.deviceFaults 0x21 else
  let hs := halfHalls e
  let fns := (hs.flatMap s.hallFns).eraseDups
  let t := s.alm 0x0D03 4 0xFF 7 e (leBytes 1 cause ++ leBytes 1 e)
  let t := ((t.raise Fld.FLT_STATUS_HALF).bump Fld.FLT_CNT_HALF_FAULT_COUNT).lastFault 4 cause 0xFF
  let seq := t.lastSeq
  let t := ((t.bump Fld.FLT_HALF_FAULTS 0 e).setFld Fld.FLT_HALF_CAUSE cause 0 e).setFld Fld.FLT_HALF_STATE (if cause = 0x10 then 3 else 2) 0 e
  let t := hs.foldl (fun (t : State) h => (t.countFault h cause).beginRecovery h cause 0 15000) t
  let t := fns.foldl (fun (t : State) f => t.affect f 4 cause 0xFF seq (fun k q => hs.any (fun h => s.hallTouches h k q))) t
  let t := fns.foldl State.finishDestroys (hs.foldl State.hallDrop t)
  let t := t.darkenHalf e
  { t with flt := { t.flt with halfRecov := t.flt.halfRecov.put e (some { route := 0, cause := cause, since := t.now, logical := none, spare := none, resetDone := false, minTreads := 15000, cmd := none }) } }

/-- HALF_FAULT: causes DIE_CLOCK and RING of half 0 East or 1 West; a fenced half is found at a landing (R500). -/
def execHalfFault (e cause at_ : Nat) (s : State) : Answer :=
  let s := s.atTime at_
  .next (if 1 < e ∨ (cause ≠ 0x11 ∧ cause ≠ 0x12) ∨ s.flt.deviceFault.isSome then s else s.halfFault e cause)

/-! ### Commands (R526) -/

/-- What FLT_INJECT's parameters name exists. -/
def State.injectOk (s : State) (scope x : Nat) : Bool :=
  match scope with
  | 1 => s.fnExists x
  | 2 => s.isPort x
  | 3 => decide (x < 18) && s.planActive && (s.logicalOf x).isSome
  | 4 => decide (x < 2)
  | 5 => x == 0
  | _ => false

/-- FLT_INJECT (R526): its record is posted, then the fault of cause INJECTED happens. -/
def execFltInject (d : AdminCmd) (at_ : Nat) (s : State) : Answer :=
  let s := s.atTime at_
  .next (s.admin d 0x82 (fun s =>
    let x := d.p 1
    if !s.injectOk (d.p 0) x then s.adminFail d St.badDescriptor
    else
      let s := s.adminOk d
      match d.p 0 with
      | 1 => s.functionFault x 0x50 (s.inProgress x)
      | 2 => s.laneFault x 0x50
      | 3 => s.hallFault x 0x50
      | 4 => s.halfFault x 0x50
      | _ => s.deviceFaults 0x50))

/-- FLT_HALL_RESTORE (R515, R526): a HALTED hall is reset in place; the command completes at the recovery landing. -/
def execFltHallRestore (d : AdminCmd) (at_ : Nat) (s : State) : Answer :=
  let s := s.atTime at_
  .next (s.admin d 0x83 (fun s =>
    let h := d.p 0
    if 18 ≤ h ∨ s.fld Fld.FLT_HALL_STATE 0 h ≠ 3 then s.adminFail d St.unsupported
    else
      let s := s.setRecov h (some { route := 0, cause := s.fld Fld.FLT_HALL_CAUSE 0 h, since := s.now, logical := s.logicalOf h, spare := none, resetDone := false, minTreads := 0, cmd := some d })
      s.setFld Fld.FLT_HALL_STATE 2 0 h))

end Sys2Proof.Machine
end

