-- ==== Sys2Proof/Machine/Grades.lean ====
section
/-! DEFINITION. Ageing, margins and certified grades (chapter 21): a Barometer pass, what it certifies and publishes, and what it does
about a hall that falls below its plan. Delays are in 1/2000 ps, of which 1/16 ps, 0.001 ps and 0.01 ps are whole multiples. -/

namespace Sys2Proof.Machine

def State.age (s : State) (h : Nat) : HallAge := s.baro.halls.get {} h
def State.setAge (s : State) (h : Nat) (a : HallAge) : State := { s with baro := { s.baro with halls := s.baro.halls.put h a } }

/-- TJ_CERT of the ordering code (R533). -/
def tjCert : Int := if Config.isXS then 120 else 110

/-- A delay meets the period of a grade with so many ps to spare: period(g) is 100000 / (128 - 8 g) ps (R533). -/
def holds (g ps : Nat) (t : Int) : Bool := decide ((t + 2000 * ps) * (128 - 8 * g : Nat) ≤ 200000000)

/-- The fastest grade with a guard of 40 ps; 7 when there is none (R536). -/
def gradeFor (t : Int) : Nat := ((List.range 5).find? (fun g => holds g 40 t)).getD 7

/-- Passes in a row with 60 ps at each grade. -/
def streakNext (l : List Nat) (t : Int) : List Nat := (List.range 5).map (fun g => if holds g 60 t then min 6 (l.getD g 0 + 1) else 0)

/-- The certified grade after a pass (R536): slower at once, faster after 6 passes in a row; the first of its life is taken directly. -/
def gradeNext (kept : Option Nat) (streak : List Nat) (t : Int) : Nat :=
  match kept with
  | none => gradeFor t
  | some k =>
    if k ≤ 4 ∧ !holds k 40 t then gradeFor t
    else ((List.range k).find? (fun g => decide (6 ≤ streak.getD g 0))).getD k

/-- Canary i of a hall is excluded: its reading lies outside 0.5 to 1.5 times its reference (R532). -/
def excluded (h i t : Nat) : Bool := decide (2 * t < Config.canaryRef h i) || decide (3 * Config.canaryRef h i < 2 * t)

/-- The canaries that count, by number with their delay. -/
def counted (m : HallMeas) : List (Nat × Nat) :=
  ((List.range 24).map (fun i => (i, m.delays.getD i 0))).filter (fun e => !excluded m.hall e.1 e.2)

/-- The largest delay and the lowest canary that shows it. -/
def worst (l : List (Nat × Nat)) : Nat × Nat := l.foldl (fun (b : Nat × Nat) e => if b.2 < e.2 then e else b) (0, 0)

/-- T_WORST of R533. -/
def tWorst (m : HallMeas) (tMeas : Nat) : Int :=
  (tMeas : Int) - (Config.slopeV m.hall : Int) * (2 * Config.vCap m.hall - m.halfMv : Int) + 20 * (Config.slopeT m.hall : Int) * (tjCert - m.tj)

/-- The largest T_WORST of the day, for the last 90 days (R543). -/
def daysNext (l : List (Nat × Int)) (day : Nat) (t : Int) : List (Nat × Int) :=
  let old := match l.find? (fun e => e.1 == day) with | some e => max e.2 t | none => t
  (l.filter (fun e => e.1 != day && decide (day < e.1 + 90))) ++ [(day, old)]

/-- The least-squares slope of daily values, as a fraction: 1/2000 ps per day. -/
def slope (l : List (Nat × Int)) : Int × Int :=
  let n : Int := l.length
  let sx := l.foldl (fun (a : Int) e => a + e.1) 0
  let sy := l.foldl (fun (a : Int) e => a + e.2) 0
  let xy := l.foldl (fun (a : Int) e => a + e.1 * e.2) 0
  let xx := l.foldl (fun (a : Int) e => a + e.1 * e.1) 0
  (n * xy - sx * sy, n * xx - sx * sx)

/-- DAYS of R543. -/
def projection (l : List (Nat × Int)) (g : Nat) (t : Int) : Nat :=
  let (num, den) := slope l
  if l.length < 7 ∨ num ≤ 0 ∨ den ≤ 0 ∨ 4 < g then 0xFFFF
  else
    let r : Int := 128 - 8 * g
    min ((200000000 - (80000 + t) * r) * den / (r * num)).toNat 0xFFFE

/-- The slope in 0.0001 ps per day, to the nearest. -/
def driftField (l : List (Nat × Int)) : Int :=
  let (num, den) := slope l
  if den ≤ 0 then 0 else (10 * num + den) / (2 * den)

/-- A delay in 1/16 ps, rounded up. -/
def sixteenths (t : Int) : Nat := ((t + 124) / 125).toNat

/-- A hall's canaries are read at a pass: at F0 and F1 always, at F2 and F3 at every sixth (R531). -/
def State.measured (s : State) (h : Nat) : Bool := decide (h < 18) && (s.awake h || s.baro.passes % 6 == 0)

/-- A hall's part of a pass, from the worst of its canaries and what that one measured. -/
def State.passMeasured (s : State) (m : HallMeas) (w tMeas : Nat) : State :=
  let h := m.hall
  let ok := counted m
  let tw := tWorst m tMeas
  let tr := tw - 2 * (Config.slopeV h : Int) * Config.reserveMax h
  let a := s.age h
  let bad := decide (ok.length < 20)
  let st := if bad then [0, 0, 0, 0, 0] else streakNext a.streak tw
  let sr := if bad then [0, 0, 0, 0, 0] else streakNext a.streakRes tr
  let kept := if bad then a.kept else some (gradeNext a.kept st tw)
  let keptRes := if bad then a.keptRes else some (gradeNext a.keptRes sr tr)
  let g := if bad then 7 else kept.getD 7
  let gr := if bad then 7 else keptRes.getD 7
  let was := if s.fld Fld.BARO_MT_W7_PASS 0 h = 0 then a.kept else some (s.fld Fld.BARO_MT_W0_CERT_G 0 h)
  let days := daysNext a.days (secsOf s.now / 86400) tw
  let d := projection days g tw
  let run := s.fld Fld.CALM_HALL_STATE_GRADE 0 h
  let req := match s.logicalOf h with | some l => Plan.reqGrade s.pln.active ((Plan.phys s.pln.active l).getD h) | none => 7
  let cap := 2 * Config.vCap h + 5 * a.reserve
  let set := if !s.awake h then a.setHalf else max (2 * Config.vFloor h) (min cap (max m.setHalf (a.setHalf - 10)))
  let changed : Bool := match was with | some x => x != g | none => false
  let s := if changed then s.almHall 0x0E01 h (leBytes 1 (was.getD 7) ++ leBytes 1 g) else s
  let s := if changed ∧ was.getD 7 < g then s.raise Fld.BARO_STATUS_GRADE_DROP else s
  let fired := if changed ∨ 120 ≤ d then none else a.fired
  let fires := decide (d < 90) && fired.isNone
  let s := if fires then (s.raise Fld.BARO_STATUS_FRONT).almHall 0x0E02 h (leBytes 1 g ++ leBytes 1 0 ++ leBytes 2 d) else s
  let sec := if a.reserve = 0 then a.reserveSec else min 0xFFFFFFFF (a.reserveSec + (s.now - s.baro.passAt) / secTicks)
  let s := s.setAge h { a with kept := kept, keptRes := keptRes, streak := st, streakRes := sr, days := days, fired := if fires then some g else fired, reserveSec := sec, setHalf := set }
  let s := (((s.setFld Fld.BARO_MT_W0_CERT_G g 0 h).setFld Fld.BARO_MT_W0_CERT_G_RES gr 0 h).setFld Fld.BARO_MT_W0_RUN_G run 0 h).setFld Fld.BARO_MT_W0_REQ_G req 0 h
  let s := ((s.setFld Fld.BARO_MT_W0_DAYS d 0 h).setFld Fld.BARO_MT_W1_VOLT_MV (m.halfMv / 2) 0 h).setFld Fld.BARO_MT_W1_RESERVE_MV ((5 * a.reserve + 1) / 2) 0 h
  let s := (s.setFld Fld.BARO_MT_W2_T_WORST (sixteenths tw) 0 h).setFld Fld.BARO_MT_W2_T_WORST_RES (sixteenths tr) 0 h
  let margin : Int := (200000000 - (tMeas : Int) * (128 - 8 * run : Nat)) / (125 * (128 - 8 * run : Nat))
  let s := (s.setFld Fld.BARO_MT_W3_MARGIN_RUN (ofSigned 16 margin) 0 h).setFld Fld.BARO_MT_W3_T_MEAS (sixteenths tMeas) 0 h
  let s := ((s.setFld Fld.BARO_MT_W4_DRIFT (ofSigned 16 (driftField days)) 0 h).setFld Fld.BARO_MT_W4_TJ (ofSigned 8 m.tj) 0 h).setFld Fld.BARO_MT_W4_CANARY_OK ok.length 0 h
  let s := ((s.setFld Fld.BARO_MT_W5_RESERVE_S sec 0 h).setFld Fld.BARO_MT_W6_WORST w 0 h).setFld Fld.BARO_MT_W7_PASS (s.fld Fld.BARO_PASS_CNT_COUNT + 1) 0 h
  let s := (s.setFld Fld.BARO_RAIL_SET_MV (set / 2) 0 h).setFld Fld.BARO_RAIL_DRIFT_MV (ofSigned 8 m.drift) 0 h
  if m.drift < -8 ∨ 8 < m.drift then s.raise Fld.BARO_STATUS_RAIL_DRIFT else s

/-- One hall's record (R531 to R538, R543, R544). -/
def State.passHall (s : State) (m : HallMeas) : State :=
  let ok := counted m
  let u := if ok.length < 24 then s.raise Fld.BARO_STATUS_CANARY else s
  if !s.measured m.hall then s
  else if ok = [] then u.drawn.passMeasured m (worst ok).1 (u.free % 2 ^ 23)
  else u.passMeasured m (worst ok).1 (worst ok).2

/-- A lit lane's eye is below a threshold (R545). -/
def State.eyeLow (s : State) (l : Nat) : Bool :=
  !s.laneDark l && (decide (s.fld Fld.LN_EYE_HEIGHT 0 l < s.fld Fld.BARO_CFG_EYE_MIN_MV) || decide (s.fld Fld.LN_EYE_WIDTH 0 l < s.fld Fld.BARO_CFG_EYE_MIN_UI))

/-- Put so many 2.5 mV steps of reserve into use (R535, R540). -/
def State.useReserve (s : State) (h n : Nat) : State :=
  let a := s.age h
  if n ≤ a.reserve then s else
  let s := s.setAge h { a with reserve := n }
  let mv := (5 * n + 1) / 2
  let s := (s.raise Fld.BARO_STATUS_RESERVE).setFld Fld.BARO_MT_W1_RESERVE_MV mv 0 h
  s.almHall 0x0E03 h (leBytes 2 mv ++ leBytes 2 (Config.reserveMax h - mv))

/-- The fewest steps with which a hall's certification holds its running grade. -/
def reserveSteps (h g : Nat) (tw : Int) : Option Nat :=
  (List.range (2 * Config.reserveMax h / 5 + 1)).find? (fun n => holds g 40 (tw - (Config.slopeV h : Int) * (5 * n : Nat)))

/-- A used hall below its plan takes the first step of R540 that applies; tw is its T_WORST. -/
def State.belowPlan (s : State) (h : Nat) (tw : Int) : State :=
  match s.logicalOf h with
  | none => s
  | some l =>
    let req := Plan.reqGrade s.pln.active ((Plan.phys s.pln.active l).getD h)
    if s.fld Fld.BARO_MT_W0_CERT_G 0 h ≤ req ∨ s.fld Fld.FLT_HALL_STATE 0 h ≠ 0 then s else
    let en := s.flag Fld.BARO_CFG_RESERVE_EN
    let steps := if en && decide (s.fld Fld.BARO_MT_W0_CERT_G_RES 0 h ≤ req) then reserveSteps h (s.fld Fld.CALM_HALL_STATE_GRADE 0 h) tw else none
    match steps with
    | some n => s.useReserve h n
    | none =>
      let held := match s.recov h with | some r => if r.route = 3 then r.spare else none | none => none
      let x := match held with
        | some x => if s.eligibleSpare h l x then some x else s.chooseSpare h l
        | none => s.chooseSpare h l
      match x with
      | some x =>
        let s := if en then s.useReserve h (2 * Config.reserveMax h / 5) else s
        if held = some x then s
        else s.setRecov h (some { route := 3, cause := 7, since := s.now, logical := some l, spare := some x, resetDone := false, minTreads := if s.frost x ≤ 2 then 160 else 15000, cmd := none })
      | none => s.hallFault h 7

/-- The physical hall of each used logical hall, by logical number. -/
def State.usedPhys (s : State) : List Nat := (List.range 16).filterMap s.physOf

/-- BARO_PASS (R529 to R545): every result is published at one instant; then halls below their plan are dealt with, by logical number.
ret is RET_Q of each stack, wear the store's. No pass runs without firmware or at F4. -/
def execBaroPass (ms : List HallMeas) (ret : List Nat) (wear at_ : Nat) (s : State) : Answer :=
  let s := s.atTime at_
  if s.fld Fld.OWN_BOOT_STATUS_STAGE ≠ 2 ∨ s.atF4 ∨ s.flt.deviceFault.isSome then .next s else
  let done := ms.filter (fun m => s.measured m.hall)
  let s := done.foldl State.passHall s
  let lanes := (List.range 256).filter s.eyeLow
  let s := (List.range 8).foldl (fun (s : State) w => s.setFld Fld.BARO_LANE_LOW_LOW ((lanes.filter (fun l => l / 32 == w)).foldl (fun n l => n + 2 ^ (l % 32)) 0) 0 w) s
  let s := if lanes = [] then s else s.raise Fld.BARO_STATUS_LANE_EYE
  let s := (List.range 4).foldl (fun (s : State) k => s.setFld Fld.BARO_STACK_RET_Q (min 255 (ret.getD k 0)) 0 k) s
  let s := if (List.range 4).any (fun k => decide (ret.getD k 0 < 8)) then s.raise Fld.BARO_STATUS_RETENTION else s
  let s := s.setFld Fld.BARO_NVS_WEAR_PCT (min 255 wear)
  let s := if 80 ≤ wear then s.raise Fld.BARO_STATUS_NVS_WEAR else s
  let s := ((s.bump Fld.BARO_PASS_CNT_COUNT).setFld Fld.BARO_PASS_SEC_SEC (secsOf s.now)).setFld Fld.BARO_STATUS_STALE 0
  let s := { s with baro := { s.baro with passAt := s.now, passes := s.baro.passes + 1 } }
  .next (s.usedPhys.foldl (fun (s : State) h => match done.find? (fun m => m.hall == h) with
    | some m => s.belowPlan h (tWorst m (worst (counted m)).2)
    | none => s) s)

/-- BARO_STALE (R530): no pass has completed for 1,800 s. -/
def execBaroStale (at_ : Nat) (s : State) : Answer :=
  let s := s.atTime at_
  .next (if s.baro.passAt + 1800 * secTicks ≤ s.now then s.raise Fld.BARO_STATUS_STALE else s)

end Sys2Proof.Machine
end

