-- ==== Sys2Proof/Machine/PlanImage.lean ====
section
/-! DEFINITION. The verifier, first part (R64 to R73, R82): the checks FORMAT to PLAN_STORE, of the image as octets. A check answers
the first failure that it finds, with its place (R93). -/

namespace Sys2Proof.Machine

/-- A failure: its reason code, and what PLN_VERIFY_WHERE and PLN_VERIFY_ITEM say of its place (0x1F: a global item; 0xFFFF: no
record); clock is the slot and the issue offset of an op. -/
structure PlanFail where
  code : Nat
  hall : Nat := 0x1F
  tread : Nat := 0
  record : Nat := 0xFFFF
  clock : Option (Nat × Nat) := none
deriving DecidableEq, Repr

/-- PLN_VERIFY_WHERE of a failure. -/
def PlanFail.where_ (f : PlanFail) : Nat := 2 ^ 31 + f.hall % 32 * 2 ^ 24 + f.tread % 2 ^ 20

/-- PLN_VERIFY_ITEM of a failure. -/
def PlanFail.item (f : PlanFail) : Nat :=
  f.record % 65536 * 65536 + (match f.clock with | some (k, c) => k % 4 * 512 + c % 256 | none => 0xFF)

namespace Plan

/-- The place of the first bad element of a list. -/
def firstBad {α : Type} (bad : α → Bool) : List α → Nat → Option Nat
  | [], _ => none
  | a :: t, i => if bad a then some i else firstBad bad t (i + 1)

/-- A failure of a whole item. -/
def failIf (c : Bool) (code : Nat) (hall : Nat := 0x1F) : Option PlanFail := if c then some { code := code, hall := hall } else none

/-- A failure at the first bad record of a list. -/
def failAt {α : Type} (l : List α) (bad : α → Bool) (code : Nat) (hall : Nat := 0x1F) : Option PlanFail :=
  (firstBad bad l 0).map (fun i => { code := code, hall := hall, record := i })

/-- The first failure of a list of checks. -/
def firstOf (l : List (Option PlanFail)) : Option PlanFail := l.findSome? id

/-- The checks of one reason for logical halls in ascending order. -/
def perHall (b : Bytes) (f : Nat → Option PlanFail) : Option PlanFail :=
  ((List.range 16).filter (fun l => (phys b l).isSome)).findSome? f

/-- First lanes of the ports in a logical hall's bays (R72). -/
def portsOf (b : Bytes) (l : Nat) : List Nat :=
  (List.range 256).filter (fun lane => bayHall b (lane / 8) == some l && modeLanes (laneMode b lane) != 0)

/-- The arrival demand of a logical hall in one tread (R30, R113). -/
def demand (b : Bytes) (l : Nat) : Nat :=
  ((portsOf b l).map (fun lane => [0, 1, 1, 2, 4, 8, 15, 30, 60].getD (laneMode b lane) 0)).sum

/-! ### FORMAT, SIZE (R64 to R66, R69, R72) -/

/-- A HALL_MAP entry that R66 sends to FORMAT. -/
def mapFormatBad (b : Bytes) (h : Nat) : Bool :=
  let e := hallMap b h
  let frost := idleFrost b h
  bitsOf e 29 28 != 0 || bitOf e 23 || bitOf e 19 || bitsOf e 15 0 != 0 || decide (4 < reqGrade b h) ||
    (!(used b h && spare b h) && (if used b h then frost != 0 else if spare b h then frost != 2 && frost != 3 else frost != 3))

/-- FORMAT (0x01). -/
def formatFail (b : Bytes) : Option PlanFail :=
  let sig := b.drop (b.length - 128)
  firstOf [
    failIf (leAt b 0 4 != 0x4E414C50 || leAt b 4 2 != 1 || leAt b 6 2 != 0 || leAt b 8 4 != 512 || bitsOf (flags b) 31 2 != 0 ||
      leAt b 0x2C 4 != 0 || leNat (sliceB b 0xC0 320) != 0) 1,
    failIf ((List.range 18).any (mapFormatBad b)) 1,
    failAt (records 8 (bodyOf b 4 0xFF)) (fun r => bitsOf (leAt r 0 1) 6 4 != 0 || leAt r 1 3 != 0) 1,
    failIf (leAt sig 0 4 != 0x31474953 || leNat (sliceB sig 0x68 24) != 0) 1]

/-- Two sections share an octet. -/
def sectMeet (x y : Section) : Bool := decide (0 < x.len) && decide (0 < y.len) && decide (x.off < y.off + y.len) && decide (y.off < x.off + x.len)

/-- A section meets one that stands after it in the directory. -/
def anyMeet : List Section → Bool
  | [] => false
  | x :: t => t.any (sectMeet x) || anyMeet t

/-- SIZE (0x02). -/
def sizeFail (b : Bytes) : Option PlanFail :=
  let n := leAt b 0x10 8
  let dirEnd := 0x200 + 32 * (sections b).length
  failIf (decide (268435456 < n) || n % 64 != 0 || n != b.length || decide (n < dirEnd + 128) ||
    (sections b).any (fun s => s.off % 64 != 0 || decide (s.off < dirEnd) || decide (n < s.off + s.len + 128)) || anyMeet (sections b)) 2

/-! ### SECTION (R70, R71, R75, R226) -/

/-- The octets that so many preload blocks take. -/
def blocksLen : Nat → Bytes → Nat
  | 0, _ => 0
  | n + 1, b =>
    let size := (16 + leAt b 8 4 * leAt b 12 4 + 63) / 64 * 64
    size + blocksLen n (b.drop size)

/-- COUNT and LENGTH agree with the last column of R71. -/
def lengthOk (b : Bytes) (s : Section) : Bool :=
  match s.ty with
  | 1 => s.len == 32 * s.count
  | 2 | 3 | 7 | 0xB => s.len == 16 * s.count
  | 4 => s.count == 32 && s.len == 256
  | 5 => s.len == 8 * s.count
  | 6 => s.len == 4 * s.count
  | 8 => s.len == blocksLen s.count (body b s)
  | 9 => s.len == 32 * s.count
  | 0xA => s.count == 9 && s.len == 144
  | _ => true

def informational (s : Section) : Bool := decide (0x8000 ≤ s.ty)
def perHallType (ty : Nat) : Bool := ty == 1 || ty == 5 || ty == 6 || ty == 7 || ty == 8 || ty == 0xA

/-- A directory entry breaks R70 or R71. -/
def entryBad (b : Bytes) (s : Section) : Bool :=
  let hallOk := decide (s.hall < 16) && (phys b s.hall).isSome
  s.rsv != 0 || (!informational s && (s.ty == 0 || decide (0xB < s.ty))) ||
    (if informational s then !(s.hall == 0xFF || hallOk) else if perHallType s.ty then !hallOk else s.hall != 0xFF) ||
    !lengthOk b s ||
    (!informational s && s.ty != 8 && decide (1 < ((sections b).filter (fun x => x.ty == s.ty && x.hall == s.hall)).length))

/-- The first gate record of a hall that breaks R226: last is the LANE and START_NS before it and how many records its port has had. -/
def gateBad (b : Bytes) (l : Nat) : List Bytes → Nat → Option (Nat × Nat × Nat) → Option Nat
  | [], _, _ => none
  | r :: t, i, last =>
    let lane := leAt r 0 1
    let start := leAt r 4 4
    let order := match last with
      | some (ln, st, n) => if lane = ln then decide (st < start) && decide (n < 4096) else decide (ln < lane) && start == 0
      | none => start == 0
    let n := match last with | some (ln, _, n) => if lane = ln then n + 1 else 1 | none => 1
    if !order ∨ leAt r 1 1 > 3 ∨ leAt r 2 2 ≠ 0 ∨ flightLen b * 100 ≤ start ∨ !(portsOf b l).contains lane then some i
    else gateBad b l t (i + 1) (some (lane, start, n))

/-- What R71 asks of a used hall's sections. -/
def hallSectionFail (b : Bytes) (l : Nat) : Option PlanFail :=
  let has := fun ty => (sect b ty l).isSome
  let bays := (List.range 32).any (fun k => bayHall b k == some l)
  firstOf [
    failIf ((sections b).any (fun s => s.hall == l && entryBad b s)) 3 l,
    failIf (!has 1 || !has 0xA || (has 5 != bays) || (has 6 != has 7)) 3 l,
    (gateBad b l (records 8 (bodyOf b 5 l)) 0 none).map (fun i => { code := 3, hall := l, record := i })]

/-- SECTION (0x03). -/
def sectionFail (b : Bytes) : Option PlanFail :=
  let n := leAt b 0x0C 4
  firstOf [
    failIf (n == 0 || decide (1024 < n)) 3,
    failIf ((sections b).any (fun s => (decide (16 ≤ s.hall) || (phys b s.hall).isNone) && entryBad b s)) 3,
    failIf ([2, 3, 4].any (fun ty => (sect b ty 0xFF).isNone)) 3,
    perHall b (hallSectionFail b)]

/-! ### HASH to FLIGHT_LENGTH (R65, R68, R69, R82) -/

/-- The octets that the digest and the signature cover. -/
def signedPart (b : Bytes) : Bytes := spliceB (b.take (b.length - 128)) 0x90 (List.replicate 48 0)
def sigBlock (b : Bytes) : Bytes := b.drop (b.length - 128)

def hashFail (b : Bytes) : Option PlanFail := failIf (Config.sha384 (signedPart b) != hash b) 4

/-- The enrolled, unrevoked key that the signature block names. -/
def keyOf (s : State) (b : Bytes) : Option Bytes :=
  match s.planKey (leAt (sigBlock b) 4 4) with
  | some k => if k.revoked ∨ 4 ≤ leAt (sigBlock b) 4 4 then none else some k.key
  | none => none

/-- KEY (0x06), and then SIGNATURE (0x05). -/
def keyFail (s : State) (b : Bytes) : Option PlanFail :=
  match keyOf s b with
  | none => some { code := 6 }
  | some k => failIf (!Config.ecdsaVerify k (signedPart b) (sliceB (sigBlock b) 8 96)) 5

/-- ROLLBACK, DOMAIN, FLIGHT_LENGTH (0x07 to 0x09). -/
def headerFail (s : State) (b : Bytes) : Option PlanFail :=
  let rank := leAt b 0x1C 2
  let size := leAt b 0x1E 2
  let len := leAt b 0x20 4
  firstOf [
    failIf (decide (serial b < s.fld Fld.PLN_MIN_SERIAL_LO_SERIAL + 2 ^ 32 * s.fld Fld.PLN_MIN_SERIAL_HI_SERIAL)) 7,
    failIf (leAt b 0x18 4 != s.fld Fld.PLN_DOMAIN_DOMAIN_ID || rank != s.fld Fld.PLN_RANK_RANK || size == 0 || decide (1024 < size) || decide (size ≤ rank)) 8,
    failIf (decide (len < 64) || decide (1048576 < len)) 9]

/-! ### HALL_MAP, BAY_MAP, PLAN_STORE (R66, R72, R73) -/

/-- The lowest REQ_GRADE among the used halls of a die. -/
def lowestGrade (b : Bytes) (die : Nat) : Option Nat :=
  ((usedHalls b).filter (fun h => h / 9 == die)).foldl (fun (m : Option Nat) h => match m with | some g => some (min g (reqGrade b h)) | none => some (reqGrade b h)) none

/-- HALL_MAP (0x0A). -/
def hallMapFail (b : Bytes) : Option PlanFail :=
  let us := usedHalls b
  failIf ((List.range 18).any (fun h =>
      (used b h && spare b h) || (!used b h && logical b h != 0) || (!used b h && !spare b h && reqGrade b h != 0) ||
      (spare b h && (match lowestGrade b (h / 9) with | some g => reqGrade b h != g | none => false))) ||
    decide (16 < us.length) || !(List.range us.length).all (fun l => (us.filter (fun h => logical b h == l)).length == 1)) 0xA

/-- The continuation lanes that a port of a bay needs follow it, and each continuation lane has its port below it. -/
def bayModesOk : List Nat → Nat → Nat → Bool
  | [], _, left => left == 0
  | m :: t, i, left =>
    if 9 < m then false
    else if m = 9 then decide (0 < left) && bayModesOk t (i + 1) (left - 1)
    else
      let n := modeLanes m
      left == 0 && (n == 0 || i % n == 0) && bayModesOk t (i + 1) (n - 1)

/-- BAY_MAP (0x0B). -/
def bayMapFail (b : Bytes) : Option PlanFail :=
  let bad := fun k =>
    let modes := (List.range 8).map (fun i => laneMode b (8 * k + i))
    match bayHall b k with
    | none => modes.any (· != 0)
    | some l => (match phys b l with | some h => h / 9 != k / 16 | none => true) || !bayModesOk modes 0 0 ||
        decide (4 < ((List.range (k + 1)).filter (fun j => bayHall b j == some l)).length)
  failAt (List.range 32) bad 0xB

/-- PLAN_STORE (0x0C). -/
def storeFail (b : Bytes) : Option PlanFail :=
  perHall b (fun l => failIf (decide (2097152 < (((sections b).filter (fun s => s.hall == l && perHallType s.ty && s.ty != 8)).map (fun s => s.len)).sum)) 0xC l)

end Plan

end Sys2Proof.Machine
end

