-- ==== Sys2Proof/Machine/PlanTiming.lean ====
section
/-! DEFINITION. The verifier, second part (R100, R139 to R160): what the ops of a plan occupy in the Gallery and the
Atrium, host-port departures, and the occupancy sections. A function from logical to physical
halls is an argument, so that a remap is judged by the same rules. -/

namespace Sys2Proof.Machine.Plan

/-! ### Failures at ops -/

/-- A failure at an op. -/
def PlanOp.fail (o : PlanOp) (code : Nat) : PlanFail :=
  { code := code, hall := o.hall, tread := o.tread, record := o.bundle, clock := some (o.slot, o.off) }

/-! ### Occupancies (R139 to R143, R148 to R153, R157, R158) -/

/-- A span of Gallery clocks that an op takes of a resource (R158). -/
structure Occ where
  res : Nat
  use : Nat
  cand : Bool
  start : Nat
  len : Nat
  op : PlanOp
deriving DecidableEq, Repr

def hallPort (inward : Bool) (h : Nat) : Nat := 0x3000 + (if inward then 32 else 0) + h
def quarterPort (s q r : Nat) (outward : Bool) : Nat := 0x4000 + s * 64 + q * 16 + r * 8 + (if outward then 4 else 0)
def busRes (s c : Nat) : Nat := 0x5000 + s * 64 + c
def bankRes (s c k : Nat) : Nat := 0x6000 + s * 256 + c * 16 + k

/-- The banks of a beat on a channel. -/
def bankOccs (s c : Nat) (bank : Option Nat) (use start : Nat) (o : PlanOp) : List Occ :=
  match bank with
  | some k => [{ res := bankRes s c k, use := use, cand := false, start := start, len := 32, op := o }]
  | none => (List.range 16).map (fun k => { res := bankRes s c k, use := use, cand := true, start := start, len := 32, op := o })

/-- A push of n flits to a stop with an inbound port, or with none (a Nave port). -/
def pushOccs (h : Nat) (y : Nat × Nat) (inPort : Option Nat) (r n g : Nat) (o : PlanOp) : List Occ × Nat :=
  let x0 := g + 4
  let (links, t) := route 0 r (hallStop h) y
  let mk := fun res start => ({ res := res, use := 0, cand := false, start := start, len := n, op := o } : Occ)
  (mk (hallPort false h) x0 :: links.map (fun e => mk e.1 (x0 + e.2)) ++ (match inPort with | some p => [mk p (x0 + t)] | none => []), x0 + t)

/-- A push of beats to a stack (R140, R149). -/
def pushAtrium (h s : Nat) (p : PtrInfo) (r beats g : Nat) (o : PlanOp) : List Occ :=
  let x0 := g + 4
  { res := hallPort false h, use := 0, cand := false, start := x0, len := 4 * beats, op := o } ::
    ((List.range beats).map (fun k =>
      let (cs, bank) := beatPlaces p k
      let cand := bank.isNone
      (cs.map (fun c =>
        let q := c / 4
        let (links, t) := route 0 r (hallStop h) (quarterStop s q)
        let x := x0 + 4 * k
        let z := x + 3 + t
        links.map (fun e => { res := e.1, use := 0, cand := cand, start := x + e.2, len := 4, op := o }) ++
          [{ res := quarterPort s q r false, use := 0, cand := cand, start := x + t, len := 4, op := o },
           { res := busRes s c, use := 0, cand := cand, start := z + 4, len := 8, op := o }] ++ bankOccs s c bank 0 (z + 4) o)).flatten)).flatten

/-- A request on the sideband from a hall to a stop. -/
def requestOccs (h : Nat) (y : Nat × Nat) (r g : Nat) (cand : Bool) (o : PlanOp) : List Occ :=
  (route 1 r (hallStop h) y).1.map (fun e => { res := e.1, use := 2, cand := cand, start := g + 4 + e.2, len := 1, op := o })

/-- A pull of n flits from an alcove (R141): the occupancies and A of flit 0. -/
def pullAlcove (h src r n g : Nat) (o : PlanOp) : List Occ × Nat :=
  let y := hallStop src
  let (links, t) := route 0 r y (hallStop h)
  let a := g + 4 + 2 * t + 8
  let mk := fun res start => ({ res := res, use := 1, cand := false, start := start, len := n, op := o } : Occ)
  (requestOccs h y (1 - r) g false o ++ [mk (hallPort false src) (a - t), mk (hallPort true h) a] ++ links.map (fun e => mk e.1 (a - t + e.2)), a)

/-- A pull of beats from a stack (R141, R150). -/
def pullAtrium (h s : Nat) (p : PtrInfo) (r beats g : Nat) (o : PlanOp) : List Occ × Nat :=
  let cs := ((List.range beats).map (fun k => (beatPlaces p k).1)).flatten
  let qs := (List.range 4).filter (fun q => cs.any (fun c => c / 4 == q))
  let toHall := fun q => (route 0 r (quarterStop s q) (hallStop h)).2
  let far := qs.foldl (fun m q => if toHall m < toHall q then q else m) (qs.headD 0)
  let a := g + 4 + 2 * toHall far + 28
  let any := (List.range beats).any (fun k => (beatPlaces p k).2.isNone)
  (requestOccs h (quarterStop s far) (1 - r) g any o ++
    { res := hallPort true h, use := 1, cand := false, start := a, len := 4 * beats, op := o } ::
    ((List.range beats).map (fun k =>
      let (cs, bank) := beatPlaces p k
      let cand := bank.isNone
      (cs.map (fun c =>
        let q := c / 4
        let (links, t) := route 0 r (quarterStop s q) (hallStop h)
        let leave := a + 4 * k - t
        links.map (fun e => { res := e.1, use := 1, cand := cand, start := leave + e.2, len := 4, op := o }) ++
          [{ res := quarterPort s q r true, use := 1, cand := cand, start := leave, len := 4, op := o },
           { res := busRes s c, use := 1, cand := cand, start := leave - 4, len := 8, op := o }] ++ bankOccs s c bank 1 (leave - 20) o)).flatten)).flatten, a)

/-! ### Host ports (R144, R145) -/

/-- A flit of a burst at a host port: its op, its number, when it may wait from, its departure in clocks times the rate of R144. -/
structure HostFlit where
  op : PlanOp
  idx : Nat
  at_ : Nat
  dep : Nat
deriving DecidableEq, Repr

/-- Flits of a DMA burst. -/
def burstFlits (w : Nat) : Nat := ceilDiv (bitsOf w 42 27) 2
def dmaCh (w : Nat) : Nat := bitsOf w 48 43

/-- The bursts of a host port and direction. -/
def hostBursts (b : Bytes) (p : Nat) (toward : Bool) : List PlanOp :=
  (allOps b).filter (fun o => o.code == 0x31 && decide (dmaCh o.word < 32) && dmaCh o.word / 4 == p && (decide (dmaCh o.word % 4 < 2) == toward))

/-- Departures in turn: none before 8 clocks after it may wait, none sooner than 256 / R clocks after the one before. -/
def depart (R : Nat) : List HostFlit → Option Nat → List HostFlit
  | [], _ => []
  | f :: t, last =>
    let d := max ((f.at_ + 8) * R) (match last with | some x => x + 256 | none => 0)
    { f with dep := d } :: depart R t (some d)

/-- The flits of a port and direction in the order in which they leave. -/
def hostFlits (b : Bytes) (pm : Nat → Nat) (R p : Nat) (toward : Bool) : List HostFlit :=
  let flits := ((hostBursts b p toward).map (fun o =>
    let t := o.gal b + 4 + 2 * naveHops (pm o.hall) toward
    (List.range (burstFlits o.word)).map (fun i => ({ op := o, idx := i, at_ := if toward then t + i else t, dep := 0 } : HostFlit)))).flatten
  let key := fun (f : HostFlit) => if toward then [f.at_, pm f.op.hall / 9, f.op.hall, f.idx] else [f.op.gal b, f.op.hall, f.idx]
  depart R (sortBy (fun x y => lexLt (key x) (key y)) flits) none

/-- Ops whose flit finds more than 512 waiting with it. -/
def hostOver (R : Nat) (fl : List HostFlit) : List PlanOp :=
  (fl.filter (fun f => decide (512 < (fl.filter (fun g => decide (g.at_ ≤ f.at_) && decide (f.at_ * R < g.dep))).length))).map (fun f => f.op)

/-! ### What an op takes (R140 to R153) -/

/-- The occupancies of an op, and the Gallery clock by which all that it does is done. rate is R144's of each port. -/
def opOccs (b : Bytes) (pm : Nat → Nat) (rate : Nat → Nat) (o : PlanOp) : List Occ × Nat :=
  let g := o.gal b
  let h := pm o.hall
  let w := o.word
  let ended := fun (x : List Occ) (t : Nat) => (x, x.foldl (fun m e => max m (e.start + e.len)) t)
  if o.code = 0x11 then
    let s := bitsOf w 48 47
    let c := bitsOf w 46 43
    let mk := fun res => ({ res := res, use := 3, cand := false, start := g + 8, len := 346, op := o } : Occ)
    ended (mk (busRes s c) :: (List.range 16).map (fun k => mk (bankRes s c k))) 0
  else if o.code = 0x10 then
    let n := moveFlits w
    let r := b2n (bitOf w 15)
    let p := ptrAt b o.hall (bitsOf w 47 44) (o.clockOf b)
    match moveEnd b o with
    | none => ([], 0)
    | some e =>
      if 0x20 ≤ e ∧ e < 0x24 then
        if bitOf w 48 then let (x, a) := pullAtrium h (e - 0x20) p r (n / 4) g o; ended x (a + n + 4) else ended (pushAtrium h (e - 0x20) p r (n / 4) g o) 0
      else
        let far := if e < 0x10 then e else if e < 0x20 then e - 0x10 else e - 0x24
        if far = o.hall then ([], 0)
        else if bitOf w 48 then let (x, a) := pullAlcove h (pm far) r n g o; ended x (a + n + 4)
        else let (x, t) := pushOccs h (hallStop (pm far)) (some (hallPort true (pm far))) r n g o; ended x (t + n + 4)
  else if o.code = 0x31 then
    let c := dmaCh w
    let n := burstFlits w
    if c < 32 then
      let p := c / 4
      let nave := (h / 9, 0)
      if c % 4 < 2 then
        let mine := (hostFlits b pm (rate p) p true).filter (fun f => f.op == o)
        let last := mine.foldl (fun m f => max m f.dep) 0
        let (x, _) := pushOccs h nave none (naveRing h true) n g o
        ended x (if rate p = 0 then 0 else ceilDiv (last + 256) (rate p))
      else
        let r := naveRing h false
        let (links, t) := route 0 r nave (hallStop h)
        let enters := ((hostFlits b pm (rate p) p false).filter (fun f => f.op == o)).map (fun f => if rate p = 0 then 0 else ceilDiv (f.dep + 256) (rate p))
        let mk := fun res start => ({ res := res, use := 1, cand := false, start := start, len := 1, op := o } : Occ)
        let x := requestOccs h nave (1 - r) g false o ++ (enters.map (fun x => mk (hallPort true h) (x + t) :: links.map (fun e => mk e.1 (x + e.2)))).flatten
        ended x ((enters.foldl max 0) + t + 5)
    else if c < 48 then
      let s := (c - 32) / 4
      let p : PtrInfo := { ends := [0x20 + s], offs := List.range 16 }
      let qs := (List.range 4).map (quarterStop s)
      if (c - 32) % 4 < 2 then ended (pushAtrium h s p (shortRing (hallStop h) qs true) (n / 4) g o) 0
      else let (x, a) := pullAtrium h s p (shortRing (hallStop h) qs false) (n / 4) g o; ended x (a + n + 4)
    else
      let y := hallStop (pm (c - 48))
      let (x, t) := pushOccs h y (some (hallPort true (pm (c - 48)))) (shortRing (hallStop h) [y] true) n g o
      ended x (t + n + 4)
  else ([], 0)

/-- Merge spans of one resource, use, flag and hall that meet or touch; the list is in rising order. -/
def mergeOccs : List Occ → List Occ
  | [] => []
  | x :: t =>
    match mergeOccs t with
    | [] => [x]
    | y :: u =>
      if x.res = y.res ∧ x.use = y.use ∧ x.cand = y.cand ∧ x.op.hall = y.op.hall ∧ y.start ≤ x.start + x.len then
        { x with len := max (x.start + x.len) (y.start + y.len) - x.start } :: u
      else x :: y :: u

def Occ.key (x : Occ) : List Nat := [x.res, x.start, x.use, b2n x.cand, x.op.hall]
def sortOccs (l : List Occ) : List Occ := sortBy (fun x y => lexLt x.key y.key) l

/-- Every occupancy of a flight; what one op may take twice over its candidates counts once. -/
def occsOf (b : Bytes) (pm : Nat → Nat) (rate : Nat → Nat) : List Occ :=
  ((allOps b).map (fun o => mergeOccs (sortBy (fun x y => lexLt (x.res :: x.use :: b2n x.cand :: [x.start]) (y.res :: y.use :: b2n y.cand :: [y.start])) (opOccs b pm rate o).1))).flatten

/-! ### Collisions (R151, R157) -/

def Occ.meet (x y : Occ) : Bool := decide (x.start < y.start + y.len) && decide (y.start < x.start + x.len)

/-- y begins too soon after x ends on a data bus: 6 clocks from a write to a read, 4 from a read to a write. -/
def Occ.turn (x y : Occ) : Bool :=
  decide (x.start + x.len ≤ y.start) &&
    ((x.use == 0 && y.use == 1 && decide (y.start < x.start + x.len + 6)) || (x.use == 1 && y.use == 0 && decide (y.start < x.start + x.len + 4)))

/-- Two ops are in each other's way on a resource. -/
def Occ.clash (x y : Occ) : Bool :=
  x.res == y.res && x.op != y.op && (x.meet y || (x.res / 0x1000 == 5 && (x.turn y || y.turn x)))

/-- The later of two ops (R132). -/
def later (b : Bytes) (x y : PlanOp) : PlanOp := if lexLt (x.gal b :: x.key) (y.gal b :: y.key) then y else x

/-- The later ops of all pairs that clash. -/
def clashes (b : Bytes) : List Occ → List PlanOp
  | [] => []
  | x :: t => (t.filter x.clash).map (fun y => later b x.op y.op) ++ clashes b t

/-- The first op in the order of R82. -/
def firstOp (l : List PlanOp) : Option PlanOp :=
  l.foldl (fun (m : Option PlanOp) o => match m with | some x => if lexLt o.key x.key then some o else some x | none => some o) none

/-- Ops that are late in a collision of the Gallery (0x10): links, ports, host staging; and of the Atrium (0x12). -/
def galleryClash (b : Bytes) (pm : Nat → Nat) (rate : Nat → Nat) : List PlanOp :=
  clashes b ((occsOf b pm rate).filter (fun x => decide (x.res < 0x5000))) ++
    ((List.range 8).map (fun p => hostOver (rate p) (hostFlits b pm (rate p) p true) ++ hostOver (rate p) (hostFlits b pm (rate p) p false))).flatten
def atriumClash (b : Bytes) (pm : Nat → Nat) (rate : Nat → Nat) : List PlanOp :=
  clashes b ((occsOf b pm rate).filter (fun x => decide (0x5000 ≤ x.res)))

/-! ### The occupancy sections (R158, R159) -/

def Occ.record (x : Occ) : Bytes :=
  leBytes 2 x.res ++ leBytes 1 x.use ++ leBytes 1 (b2n x.cand) ++ leBytes 4 x.start ++ leBytes 4 x.len ++ leBytes 1 x.op.hall ++ leBytes 3 0

/-- The records that a section must hold. -/
def occSection (l : List Occ) : List Bytes := (mergeOccs (sortOccs l)).map Occ.record

/-- The first record at which two lists differ. -/
def firstDiff : List Bytes → List Bytes → Nat → Option Nat
  | [], [], _ => none
  | x :: t, y :: u, i => if x = y then firstDiff t u (i + 1) else some i
  | _, _, i => some i

/-- OCCUPANCY_MISMATCH (0x11), in section-directory order. -/
def mismatchFail (b : Bytes) (pm : Nat → Nat) (rate : Nat → Nat) : Option PlanFail :=
  let l := occsOf b pm rate
  let check := fun ty => (firstDiff (records 16 (bodyOf b ty 0xFF)) (occSection (l.filter (fun x => decide (x.res < 0x5000) == (ty == 2)))) 0).map
    (fun i => ({ code := 0x11, record := i } : PlanFail))
  ((sections b).filter (fun s => s.ty == 2 || s.ty == 3)).findSome? (fun s => check s.ty)

/-! ### Refresh (R110, R154) -/

/-- The starts of a channel's refreshes in a flight, by halls that run in every flight. -/
def refreshStarts (b : Bytes) (s c : Nat) : List Nat :=
  sortBy (fun x y => decide (x < y)) (((allOps b).filter (fun o => o.code == 0x11 && bitsOf o.word 48 47 == s && bitsOf o.word 46 43 == c && (wakeOf b o.hall).isNone)).map (fun o => o.gal b + 8))

/-- No gap of a circle of starts exceeds 4,096 clocks. -/
def gapsOk (circle : Nat) (l : List Nat) : Bool :=
  match l with
  | [] => false
  | x :: t => ((l.zip t).all (fun e => decide (e.2 ≤ e.1 + 4096))) && decide (circle + x ≤ (x :: t).getLastD 0 + 4096)

/-- REFRESH (0x13). -/
def refreshFail (b : Bytes) : Option PlanFail :=
  failIf ((List.range 4).any (fun s => (List.range 16).any (fun c => !gapsOk (flightLen b * 128) (refreshStarts b s c)))) 0x13

/-- The physical halls onto which each logical hall may be remapped (R160): spares of its die under which nothing collides. -/
def remapOk (b : Bytes) (rate : Nat → Nat) (l : Nat) : Nat :=
  match phys b l with
  | none => 0
  | some h => (List.range 18).foldl (fun m x =>
      let pm := fun k => if k = l then x else (phys b k).getD 0
      if spare b x ∧ x / 9 = h / 9 ∧ galleryClash b pm rate = [] ∧ atriumClash b pm rate = [] then m + 2 ^ x else m) 0

end Sys2Proof.Machine.Plan
end

