-- ==== Sys2Proof/Machine/PlanVerify.lean ====
section
/-! DEFINITION. The verifier, last part (R82): PROGRAM (R95 to R132, R179, R228, R340), GRADE to ENERGY, the order of the checks, and
what a verification answers. -/

namespace Sys2Proof.Machine.Plan

/-! ### One op (R95, R96, R104 to R128) -/

/-- Low operand bits that an opcode leaves reserved; none for an opcode that is reserved itself. -/
def spareBits (c : Nat) : Option Nat :=
  match c with
  | 0x00 => some 49 | 0x10 => some 14 | 0x11 => some 43 | 0x12 => some 0 | 0x20 => some 13 | 0x30 => some 31 | 0x31 => some 27
  | 0x32 => some 29 | 0x33 => some 31 | 0x50 => some 39 | 0x51 => some 29 | 0x52 => some 0 | 0x53 => some 13 | 0x54 => some 18
  | 0x55 => some 29 | 0x56 => some 29 | 0x57 => some 33 | 0x70 => some 14 | _ => none

/-- The slot in which a tread bundle may hold an opcode; NOP stands anywhere. -/
def slotOf (c : Nat) : Nat := if c < 0x20 then 0 else if c < 0x30 then 1 else if c < 0x50 then 2 else 3

/-- A word breaks R95 or R96 whatever its operands mean. -/
def wordBad (b : Bytes) (l w : Nat) : Bool :=
  let c := opcode w
  (match spareBits c with | none => true | some n => w % 2 ^ n != 0) || decide (rateOf b l ≤ offset w) ||
    ((c == 0 || c == 0x55 || c == 0x56 || c == 0x57) && offset w != 0)

/-- An op stands in a slot of a tread bundle that the table allows. -/
def slotOk (k w : Nat) : Bool :=
  let c := opcode w
  c == 0 || (slotOf c == k && c != 0x57 && c != 0x70)

/-- Alcove octets that a program may reach. -/
def alcoveTop : Nat := 0x1C00000

/-- The flows that a hall's preamble defines: flow, ring start, ring length (R129). -/
def flowsOf (b : Bytes) (l : Nat) : List (Nat × Nat × Nat) :=
  ((preamble (program b l)).filter (fun w => opcode w == 0x70)).map (fun w => (bitsOf w 48 37, bitsOf w 36 18 * 64, 64 + 2 ^ (12 + bitsOf w 17 14)))

/-- An endpoint and address may stand in a pointer (R104). An alcove, lane buffer or flow ring of a logical hall that the plan does not use may not:
the model's choice, for SETPTR and the preamble as for MOVE (log entry 38). -/
def endOk (b : Bytes) (e a : Nat) : Bool :=
  if e < 0x10 then (phys b e).isSome && decide (a < alcoveTop) && a % 64 == 0
  else if e < 0x20 then decide (a < 256) && (portsOf b (e - 0x10)).contains a
  else if e < 0x24 then a % 512 == 0 && decide (a < 0x800000000)
  else if e < 0x34 then (phys b (e - 0x24)).isSome && (flowsOf b (e - 0x24)).any (fun f => f.1 == a)
  else e == 0x3F

/-- The pool of an op of a hall that carries it. -/
def poolFor (b : Bytes) (l w : Nat) : Option Pool :=
  match poolOf b (bitsOf w 48 33) with
  | some p => if p.carriedBy l then some p else none
  | none => none

/-- The ALLOC of the same pointer that a MOVE or HAND follows by fewer than 32 clocks, the landing crossed too (R119). -/
def allocNear (b : Bytes) (o : PlanOp) (k : Nat) : Bool :=
  let circle := flightLen b * rateOf b o.hall
  (opsOf b o.hall).any (fun x => x.code == 0x32 && bitsOf x.word 48 46 == 0 && bitsOf x.word 45 42 == k && decide ((o.clockOf b + circle - x.clockOf b) % circle < 32) && x != o)

/-- PROGRAM's rules about one op by itself. -/
def opBad (b : Bytes) (hostRate : Nat → Nat) (o : PlanOp) : Bool :=
  let w := o.word
  let l := o.hall
  let f := fun hi lo => bitsOf w hi lo
  wordBad b l w || !slotOk o.slot w ||
  (match o.code with
  | 0x10 =>
    let n := moveFlits w
    decide (alcoveTop < f 42 24 * 64 + 128 * n) || allocNear b o (f 47 44) ||
    (match moveEnd b o with
    | none => true
    | some e =>
      let rec_ := (decide (0x10 ≤ e) && decide (e < 0x20)) || decide (0x24 ≤ e)
      e == l || (0x20 ≤ e && e < 0x24 && n % 4 != 0) || (rec_ && bitOf w 48) || (e == 0x10 + l && bitOf w 15) ||
        (bitOf w 14 && (!rec_ || f 42 24 != 0 || bitOf w 43)))
  | 0x12 => !endOk b (f 44 39) (f 38 0)
  | 0x20 =>
    decide (128 < f 48 41) || decide (128 < f 28 21) || decide (128 < f 20 13) || f 48 41 + f 28 21 + f 20 13 == 0 ||
      decide (rateOf b l < o.off + f 48 41 + f 28 21 + f 20 13) || (f 28 21 == 0 && f 40 29 != 0) ||
      (f 28 21 != 0 && !(flowsOf b l).any (fun x => x.1 == f 40 29)) || (f 48 41 != 0 && decide (f 48 41 < demand b l))
  | 0x30 => decide (1 < f 48 47) || f 46 31 == 0
  | 0x31 =>
    let c := dmaCh w
    f 42 27 == 0 || (decide (c < 32) && hostRate (c / 4) == 0) || (decide (32 ≤ c) && decide (c < 48) && f 42 27 % 8 != 0) ||
      (decide (48 ≤ c) && (c == 48 + l || (phys b (c - 48)).isNone))
  | 0x32 =>
    let sub := f 48 46
    decide (2 < sub) || (sub == 0 && f 41 39 == 0) || (sub != 0 && f 41 37 != 0) || (sub == 2 && f 36 29 != 0) || (sub == 1 && allocNear b o (f 45 42))
  | 0x33 => decide (2 < f 48 47) || f 46 31 == 0
  | 0x52 =>
    (match poolFor b l w with
    | none => true
    | some p => f 8 0 == 0 || decide (p.slots < f 32 17 + ctxCount w) || decide (f 8 0 * 25 * modeMbps p.mode < 8000 * p.wOut))
  | 0x53 =>
    (match poolFor b l w with
    | none => true
    | some p => f 32 13 == 0 || o.tread + f 32 13 != (if p.deadline = 0 then flightLen b else p.deadline))
  | 0x54 => decide (99 < f 40 34) || (if f 43 41 = 2 then f 33 18 == 0 || decide (flightLen b * 100 ≤ f 33 18) else f 33 18 != 0)
  | 0x55 => f 48 29 == 0
  | _ => false)

/-! ### Bundles (R97, R98, R129) -/

/-- An op of the preamble, or a NOP. -/
def preambleBad (b : Bytes) (l w : Nat) : Bool :=
  wordBad b l w || (match opcode w with
  | 0 => false
  | 0x12 => !endOk b (bitsOf w 44 39) (bitsOf w 38 0)
  | 0x70 => decide (12 < bitsOf w 17 14) || decide (alcoveTop < bitsOf w 36 18 * 64 + 64 + 2 ^ (12 + bitsOf w 17 14))
  | _ => true)

/-- Two flow rings of a hall overlap, or a flow is defined twice. -/
def flowsMeet : List (Nat × Nat × Nat) → Bool
  | [] => false
  | x :: t => t.any (fun y => x.1 == y.1 || (decide (x.2.1 < y.2.1 + y.2.2) && decide (y.2.1 < x.2.1 + x.2.2))) || flowsMeet t

/-- A LAND op that does not stand in the last tread bundle (R98). -/
def landEarly (b : Bytes) (o : PlanOp) : Bool := o.code == 0x56 && o.slot == 3 && o.bundle + 1 != (program b o.hall).length

/-- The shape of a hall's program ahead of its tread bundles: its header and preamble. -/
def preambleFail (b : Bytes) (l : Nat) : Option PlanFail :=
  let p := program b l
  let n := lead p
  let pre := (p.take n).drop 1
  let hd := p.headD []
  firstOf [
    failIf (decide (0 < n) && (wordBad b l (slot hd 3) || (hd.take 3).any (· != 0) || n < 2 || decide (4097 < n))) 0xD l,
    (firstBad (fun bd => bd.any (preambleBad b l)) pre 1).map (fun i => { code := 0xD, hall := l, record := i }),
    failIf (decide (0 < n) && decide (pre.length + 1 < n)) 0xD l,
    failIf (flowsMeet (flowsOf b l)) 0xD l]

/-- The shape of its tread bundles: LAND stands in the last, and they span exactly L treads. -/
def shapeFail (b : Bytes) (l : Nat) : Option PlanFail :=
  let p := program b l
  let isLand := fun bd => opcode (slot bd 3) == 0x56
  let rest := p.drop (lead p)
  firstOf [
    failIf (!isLand (rest.getLastD [])) 0xD l,
    failIf (rest.length + (rest.map covers).sum != flightLen b) 0xD l]

/-! ### Resources in hall clocks (R100, R101, R131, R143) -/

/-- A span of clocks that an op takes of a unit of its hall. -/
structure Span where
  unit : Nat
  start : Nat
  len : Nat
  op : PlanOp
deriving DecidableEq, Repr

/-- The first hall clock that begins at or after a Gallery clock. -/
def hallClock (b : Bytes) (l g : Nat) : Nat := ceilDiv (g * rateOf b l) 128

/-- The spans of the units that PROGRAM guards, all keyed by hall: 1 cipher engine, 2 table unit, 3 lane-buffer write path, 4 local copy
path, 64 on DMA channels (in Gallery clocks), 65536 on pools' receive windows (in treads). -/
def spansOf (b : Bytes) (pm : Nat → Nat) (rate : Nat → Nat) (o : PlanOp) : List Span :=
  let t := o.clockOf b
  let unit := fun (l u : Nat) => l * 0x1000000 + u
  match o.code with
  | 0x30 => [⟨unit o.hall 1, t, bitsOf o.word 46 31, o⟩]
  | 0x33 => [⟨unit o.hall 2, t, bitsOf o.word 46 31, o⟩]
  | 0x31 => [⟨unit o.hall (64 + dmaCh o.word), o.gal b, (opOccs b pm rate o).2 - o.gal b, o⟩]
  | 0x53 => [⟨unit o.hall (65536 + bitsOf o.word 48 33), o.tread, bitsOf o.word 32 13, o⟩]
  | 0x10 =>
    let n := moveFlits o.word
    (match moveEnd b o with
    | none => []
    | some e =>
      if 0x10 ≤ e ∧ e < 0x20 then
        let far := e - 0x10
        if far = o.hall then [⟨unit o.hall 3, t, n, o⟩]
        else
          let x := o.gal b + 4 + (route 0 (b2n (bitOf o.word 15)) (hallStop (pm o.hall)) (hallStop (pm far))).2
          [⟨unit far 3, hallClock b far (x + 4), n, o⟩]
      else if e = 0x24 + o.hall then [⟨unit o.hall 4, t, n, o⟩] else [])
  | _ => []

def Span.clash (x y : Span) : Bool := x.unit == y.unit && x.op != y.op && decide (x.start < y.start + y.len) && decide (y.start < x.start + x.len)

/-- Later ops of clashing spans. -/
def spanClashes (b : Bytes) : List Span → List PlanOp
  | [] => []
  | x :: t => (t.filter x.clash).map (fun y => later b x.op y.op) ++ spanClashes b t

/-- The clock after the last that a CTX window takes of the transmit unit (R124, R131). -/
def ctxEnd (b : Bytes) (o : PlanOp) : Nat :=
  match poolFor b o.hall o.word with
  | none => 0
  | some p =>
    let c : CtxOp := { tread := o.tread, off := o.off, first := bitsOf o.word 32 17, count := ctxCount o.word, pace := bitsOf o.word 8 0 }
    c.at_ (rateOf b o.hall) (c.count * p.segs - 1) / 100 + 1

/-- What an op occupies runs past the end of the flight (R100). -/
def endBad (b : Bytes) (pm : Nat → Nat) (rate : Nat → Nat) (o : PlanOp) : Bool :=
  let stop := flightLen b * rateOf b o.hall
  decide (flightLen b * 128 < (opOccs b pm rate o).2) || decide (stop < ctxEnd b o) ||
    (o.code == 0x50 && (match kernel b o.hall (bitsOf o.word 46 39) with | some (_, _, _, n) => decide (stop < o.clockOf b + n) | none => false)) ||
    (spansOf b pm rate o).any (fun x => x.unit % 0x1000000 < 64 && decide (flightLen b * rateOf b (x.unit / 0x1000000) < x.start + x.len))

/-- The clocks of the flight, and the pointers, at which an op's writes of pointers take effect. -/
def ptrEffects (b : Bytes) (o : PlanOp) : List (Nat × Nat) :=
  ((ptrWrites b o).map (fun e => (e.1, e.2.1)) ++ (if o.code = 0x32 ∧ bitsOf o.word 48 46 ≠ 0 then [(o.clockOf b + 1, bitsOf o.word 45 42)] else [])).map
    (fun e => (e.1 % (flightLen b * rateOf b o.hall), e.2))

/-- An op is the later of two that write one pointer with one effective clock (R101), in one tread or by an ALLOC whose result falls into a later
one (R132). -/
def ptrTwice (b : Bytes) (o : PlanOp) : Bool :=
  (opsOf b o.hall).any (fun x => x != o && later b x o == o && (ptrEffects b x).any (fun e => (ptrEffects b o).contains e))

/-! ### Cyclic windows (R113, R123 to R125, R228) -/

/-- The emissions of a CTX op: instants in ns times the hall's clocks per tread. -/
def emissionsOf (b : Bytes) (p : Pool) (o : PlanOp) : List Nat :=
  let c : CtxOp := { tread := o.tread, off := o.off, first := bitsOf o.word 32 17, count := ctxCount o.word, pace := bitsOf o.word 8 0 }
  (List.range (c.count * p.segs)).map (c.at_ (rateOf b o.hall))

/-- The CTX ops of a hall for a pool. -/
def ctxFor' (b : Bytes) (l : Nat) (p : Pool) : List PlanOp := (opsCode b l 0x52).filter (fun o => bitsOf o.word 48 33 == p.id)

/-- An emission of a CTX op comes too close to one of another window of the pool, on the circle of the flight. R124 does not say how the distance is
measured: the model takes it between emission instants, of windows of one hall (log entry 39). -/
def ctxClose (b : Bytes) (p : Pool) (o x : PlanOp) : Bool :=
  let S := rateOf b o.hall
  let circle := flightLen b * 100 * S
  let near := fun (u v : Nat) => decide ((u + circle - v % circle) % circle * modeMbps p.mode < 8000 * p.wOut * S)
  (emissionsOf b p o).any (fun u => (emissionsOf b p x).any (fun v => near u v || near v u))

/-- The gate state of a port of a hall at an instant given in ns times a rate. -/
def gateAt (b : Bytes) (l lane rate u : Nat) : Nat :=
  ((records 8 (bodyOf b 5 l)).filter (fun r => leAt r 0 1 == lane)).foldl (fun st r => if leAt r 4 4 * rate ≤ u then leAt r 1 1 % 4 else st) 3

/-- A CTX op that breaks what R124, R131 and R228 ask beside other windows, and beside the gates of every port in the bays of the pool's hall and of its
twin hall. -/
def ctxBad (b : Bytes) (o : PlanOp) : Bool :=
  match poolFor b o.hall o.word with
  | none => true
  | some p =>
    (ctxFor' b o.hall p).any (fun x => lexLt x.key o.key && ctxClose b p o x) ||
    decide (16 < ((opsCode b o.hall 0x52).filter (fun x => decide (x.clockOf b ≤ o.clockOf b) && decide (o.clockOf b < ctxEnd b x))).length) ||
    (p.hall :: p.twin.toList).any (fun l => ((portsOf b l).filter (fun lane => laneMode b lane == p.mode)).any (fun lane =>
      (emissionsOf b p o).any (fun u => let g := gateAt b l lane (rateOf b o.hall) u; g == 0 || g == 2)))

/-- A hall's program lacks a window of a pool that it carries: each slot in one CTX window, one CRX. -/
def windowsBad (b : Bytes) (l : Nat) (p : Pool) : Bool :=
  let cs := ctxOps (program b l) p.id
  (List.range p.slots).any (fun i => (cs.filter (fun c => decide (c.first ≤ i) && decide (i < c.first + c.count))).length != 1) ||
    ((opsCode b l 0x53).filter (fun o => bitsOf o.word 48 33 == p.id)).length != 1

/-- The WIN that a tread bundle's treads hold lets enough arrivals in while a CRX window is open (R113). -/
def crxWinBad (b : Bytes) (o : PlanOp) : Bool :=
  let d := demand b o.hall
  let last := o.tread + bitsOf o.word 32 13
  decide (0 < d) && (treadBundles (program b o.hall)).any (fun e =>
    decide (e.1 < last) && decide (o.tread < e.1 + 1 + covers e.2) &&
      !(opcode (slot e.2 1) == 0x20 && decide (d ≤ bitsOf (slot e.2 1) 48 41)))

/-! ### Event lands (R126, R127, R179) -/

/-- The instant of an EVT op and how long it holds its land, in ns on the circle of the flight. -/
def evtSpan (b : Bytes) (o : PlanOp) : Nat × Nat :=
  (((o.tread + 1) * 100 + bitsOf o.word 40 34) % (flightLen b * 100), if bitsOf o.word 43 41 = 2 then bitsOf o.word 33 18 else 1)

/-- Another EVT op of the flight takes the same land at a time that meets this one's. -/
def evtBad (b : Bytes) (o : PlanOp) : Bool :=
  (allOps b).any (fun x => x.code == 0x54 && x != o && bitsOf x.word 48 44 == bitsOf o.word 48 44 && (x.hall != o.hall || circleMeet (flightLen b * 100) (evtSpan b x) (evtSpan b o)))

/-- The words of every kernel of a hall. -/
def kernelWords (b : Bytes) (l : Nat) : List Nat := ((kernels b l).map (fun k => code b l k.2.1 k.2.2.1)).flatten

/-- BASE and span of the land instructions of a hall's kernels. -/
def kernelLands (b : Bytes) (l : Nat) : List (Nat × Nat) :=
  ((kernelWords b l).filter (fun w => bitsOf w 31 26 == 0x33 || bitsOf w 31 26 == 0x34)).map (fun w => (bitsOf w 7 3, bitsOf w 12 8 + 1))

/-- A hall's land set. -/
def landSet (b : Bytes) (l : Nat) : List Nat :=
  (List.range 32).filter (fun k => (opsCode b l 0x54).any (fun o => bitsOf o.word 48 44 == k) || (kernelLands b l).any (fun e => decide (e.1 ≤ k) && decide (k < e.1 + e.2)))

/-- A hall's land set breaks R179. -/
def landsBad (b : Bytes) (l : Nat) : Bool :=
  (kernelLands b l).any (fun e => decide (32 < e.1 + e.2)) ||
    ((logicals b).filter (fun k => decide (k < l))).any (fun k => (landSet b k).any (fun x => (landSet b l).contains x))

/-! ### PROGRAM (0x0D) -/

/-- The physical hall of a used logical one. -/
def own (b : Bytes) (l : Nat) : Nat := (phys b l).getD 0

def programFail (b : Bytes) (rate : Nat → Nat) : Option PlanFail :=
  let spans := ((allOps b).map (spansOf b (own b) rate)).flatten
  let late := spanClashes b spans
  perHall b (fun l =>
    let bad := fun (o : PlanOp) => opBad b rate o || endBad b (own b) rate o || late.contains o || ptrTwice b o || landEarly b o || (o.code == 0x52 && ctxBad b o) ||
      (o.code == 0x53 && crxWinBad b o) || (o.code == 0x54 && evtBad b o)
    firstOf [
      preambleFail b l,
      (firstOp ((opsOf b l).filter bad)).map (fun o => o.fail 0xD),
      shapeFail b l,
      failAt (pools b) (fun p => p.carriedBy l && windowsBad b l p) 0xD l,
      failIf (landsBad b l) 0xD l])

/-! ### GRADE, ISSUE (R30, R82) -/

/-- GRADE (0x0E). -/
def gradeFail (s : State) (b : Bytes) : Option PlanFail :=
  let slow := fun h => decide (reqGrade b h < s.fld Fld.BARO_MT_W0_CERT_G 0 h)
  firstOf [failIf ((List.range 18).any (fun h => spare b h && slow h)) 0xE, perHall b (fun l => failIf (slow (own b l)) 0xE l)]

/-- ISSUE (0x0F): arrival demand, flow windows and OPEN windows of a tread. -/
def issueFail (b : Bytes) : Option PlanFail :=
  perHall b (fun l =>
    let bad := fun (e : Nat × Nat × List Nat) =>
      let w := slot e.2.2 1
      decide (rateOf b l < demand b l + (if opcode w = 0x20 then bitsOf w 28 21 + bitsOf w 20 13 else 0))
    let p := program b l
    ((numbered (treadBundles p) (lead p)).find? bad).map (fun e =>
      { code := 0xF, hall := l, tread := e.1, record := e.2.1, clock := if slot e.2.2 1 = 0 then none else some (1, offset (slot e.2.2 1)) }))

/-! ### WAKE_LEAD, DUTY_HALL (R52, R55, R80, R122) -/

/-- A WAKE_SCHEDULE record breaks R80 by itself. -/
def wakeBad (b : Bytes) (r : Bytes) : Bool :=
  let period := leAt r 4 4
  decide (15 < leAt r 0 1) || (phys b (leAt r 0 1)).isNone || (leAt r 1 1 != 2 && leAt r 1 1 != 3) || leAt r 2 2 != 0 || decide (period < 2) ||
    decide (65536 < period) || decide (period ≤ leAt r 8 4) || leAt r 12 4 == 0 || decide (period ≤ leAt r 12 4) ||
    decide (1 < ((wakes b).filter (fun w => w.1 == leAt r 0 1 % 16)).length)

/-- Flights after which every schedule of the plan repeats. -/
def allPeriods (b : Bytes) : Nat := (wakes b).foldl (fun m w => Nat.lcm m w.2.2.1) 1

/-- A WAKE op fires in a flight for the return of a flight: its hall runs AHEAD flights before. n is a whole number of periods added so
that no flight is negative. -/
def wakesFor (b : Bytes) (o : PlanOp) (f : Nat) : Bool :=
  let n := allPeriods b
  let ahead := bitsOf o.word 44 29
  runsIn b o.hall (f + n * ahead - ahead)

/-- The WAKE ops that name a hall. -/
def wakeOps (b : Bytes) (l : Nat) : List PlanOp := (allOps b).filter (fun o => o.code == 0x51 && bitsOf o.word 48 45 == l)

/-- The flights of one round in which a hall returns to F0. -/
def returns (b : Bytes) (w : Nat × Nat × Nat × Nat × Nat) : List Nat := (List.range (allPeriods b / w.2.2.1)).map (fun k => w.2.2.2.1 + k * w.2.2.1)

/-- A WAKE op gives too little lead, or matches no return. -/
def wakeOpBad (b : Bytes) (o : PlanOp) : Bool :=
  match wakeOf b (bitsOf o.word 48 45) with
  | none => true
  | some w =>
    decide (bitsOf o.word 44 29 * flightLen b < o.tread + (if w.2.1 = 2 then 160 else 15000)) || !(returns b w).any (wakesFor b o)

/-- WAKE_LEAD (0x14). -/
def wakeFail (b : Bytes) : Option PlanFail :=
  firstOf [
    failAt (records 16 (bodyOf b 0xB 0xFF)) (wakeBad b) 0x14,
    failAt (wakes b) (fun w => (returns b w).any (fun f => !(wakeOps b w.1).any (fun o => wakesFor b o f))) 0x14,
    perHall b (fun l => (firstOp ((opsCode b l 0x51).filter (wakeOpBad b))).map (fun o => o.fail 0x14))]

/-- DUTY_HALL (0x15). -/
def dutyFail (b : Bytes) (rate : Nat → Nat) : Option PlanFail :=
  failIf ((List.range 8).any (fun p =>
    bitsOf (leAt b (0x88 + p) 1) 6 4 != 0 ||
      (rate p != 0 && (match duty b p with | some l => (phys b l).isNone || (wakeOf b l).isSome | none => true)))) 0x15

/-! ### Reflex kernels (R165, R166, R180, R181) -/

def rfxOp (w : Nat) : Nat := bitsOf w 31 26
def isBranch (w : Nat) : Bool := decide (0x20 ≤ rfxOp w) && decide (rfxOp w ≤ 0x26)

/-- Clocks of an instruction (R166); 0 for an encoding that is reserved. -/
def rfxClocks (w : Nat) : Nat :=
  let fn := bitsOf w 10 0
  match rfxOp w with
  | 0x00 => if fn ≤ 0x0D then 1 else if fn = 0x10 ∨ fn = 0x11 ∨ fn = 0x12 ∨ fn = 0x22 then 2 else if fn = 0x14 ∨ fn = 0x15 then 34
    else if fn = 0x23 then 36 else if fn = 0x20 ∨ fn = 0x21 ∨ fn = 0x24 ∨ fn = 0x25 then 1 else 0
  | 0x10 | 0x11 => 2
  | 0x18 | 0x19 | 0x28 | 0x31 => 4
  | 0x30 => 2
  | 0x12 | 0x13 | 0x14 | 0x15 | 0x1A | 0x1B | 0x1C | 0x1D | 0x27 | 0x29 | 0x32 | 0x33 | 0x34 => 1
  | op => if 1 ≤ op ∧ op ≤ 0x0A then 1 else if 0x20 ≤ op ∧ op ≤ 0x26 then 2 else 0

/-- A word decodes: no reserved encoding, reserved bits and fields 0, its register rules hold. -/
def rfxWordOk (w : Nat) : Bool :=
  let rd := bitsOf w 25 21
  let ra := bitsOf w 20 16
  let rb := bitsOf w 15 11
  let fn := bitsOf w 10 0
  let imm := bitsOf w 15 0
  let pair := rd % 2 == 0 && decide (2 ≤ rd)
  rfxClocks w != 0 && (match rfxOp w with
  | 0x00 => !(fn == 0x24 || fn == 0x25) || rb == 0
  | 0x07 => ra == 0
  | 0x08 | 0x09 | 0x0A => decide (imm < 32)
  | 0x10 | 0x11 | 0x14 => fn == 0 && rd == 0
  | 0x12 | 0x28 | 0x29 => bitsOf w 25 0 == 0
  | 0x13 => ra == 0 && decide (imm < 64)
  | 0x15 => fn == 0 && pair && ra == 0 && rb == 0
  | 0x26 => rd == 0 && ra == 0 && decide (1 ≤ imm) && decide (imm ≤ 16383)
  | 0x27 => decide (1 ≤ bitsOf w 25 12) && decide (bitsOf w 25 12 ≤ 16383) && decide (1 ≤ bitsOf w 11 0)
  | 0x30 => bitsOf w 20 0 == 0 && pair
  | 0x31 => bitsOf w 20 5 == 0 && rd % 4 == 0 && decide (4 ≤ rd)
  | 0x32 => bitsOf w 20 5 == 0
  | 0x33 => rd % 4 == 0 && decide (4 ≤ rd) && bitsOf w 2 0 == 0
  | 0x34 => rd == 0 && bitsOf w 15 13 == 0 && bitsOf w 2 0 == 0
  | op => if 0x20 ≤ op ∧ op ≤ 0x25 then decide (1 ≤ imm) && decide (imm ≤ 16383) else true)

/-- The loop bodies of a kernel: first instruction and continuation. -/
def bodies : List Nat → Nat → List (Nat × Nat)
  | [], _ => []
  | w :: t, i => if rfxOp w = 0x27 then (i + 1, i + 1 + bitsOf w 11 0) :: bodies t (i + 1) else bodies t (i + 1)

/-- The innermost body that an instruction lies in. -/
def innermost (bs : List (Nat × Nat)) (i : Nat) : Option (Nat × Nat) :=
  (bs.filter (fun e => decide (e.1 ≤ i) && decide (i < e.2))).getLast?

/-- Rules 3 and 4 of R180 about instruction i. -/
def placeOk (bs : List (Nat × Nat)) (n : Nat) (i w : Nat) : Bool :=
  let mine := innermost bs i
  let deep := (bs.filter (fun e => decide (e.1 ≤ i) && decide (i < e.2))).length
  decide (deep ≤ 4) &&
    (if isBranch w then
      let t := i + bitsOf w 15 0
      decide (t < n) && (innermost bs t == mine || (match mine with | some e => t == e.2 | none => false))
    else if rfxOp w = 0x27 then
      let e := i + 1 + bitsOf w 11 0
      decide (e ≤ n) && (match mine with | some b => decide (e ≤ b.2) | none => true)
    else true) &&
    (match mine with
    | some e => rfxOp w != 0x28 && !(i + 1 == e.2 && (isBranch w || rfxOp w == 0x27))
    | none => true)

/-- Worst cost from each instruction of a kernel to the end of its innermost body (R181), the last k instructions of it; none where a path
runs off. -/
def worstFrom (ws : List Nat) (bs : List (Nat × Nat)) (cost : Nat → Nat) : Nat → List (Option Nat)
  | 0 => []
  | k + 1 =>
    let t := worstFrom ws bs cost k
    let i := ws.length - (k + 1)
    let w := ws.getD i 0
    let stop := (innermost bs i).map (fun e => e.2)
    let at_ := fun j => if stop = some j then some 0 else t.getD (j - i - 1) none
    let v := if rfxOp w = 0x28 then some (cost w)
      else if rfxOp w = 0x26 then (at_ (i + bitsOf w 15 0)).map (· + cost w)
      else if isBranch w then (match at_ (i + 1), at_ (i + bitsOf w 15 0) with | some x, some y => some (cost w + max x y) | _, _ => none)
      else if rfxOp w = 0x27 then
        (match t.getD 0 none, at_ (i + 1 + bitsOf w 11 0) with | some x, some y => some (cost w + bitsOf w 25 12 * x + y) | _, _ => none)
      else (at_ (i + 1)).map (· + cost w)
    v :: t

/-- The worst case of a kernel. -/
def worstCase (ws : List Nat) (cost : Nat → Nat) : Option Nat := (worstFrom ws (bodies ws 0) cost ws.length).headD none

/-- Entries that an instruction takes of the commit buffer (R171). -/
def rfxEntries (w : Nat) : Nat := if [0x1A, 0x1B, 0x33, 0x34].contains (rfxOp w) then 1 else 0

/-- Every instruction of a kernel with its place keeps rules 3 and 4. -/
def placesOk (bs : List (Nat × Nat)) (n : Nat) : List Nat → Nat → Bool
  | [], _ => true
  | w :: t, i => placeOk bs n i w && placesOk bs n t (i + 1)

/-- A REFLEX_BUDGET record or its kernel breaks R74 or R180. -/
def kernelBad (b : Bytes) (l : Nat) (r : Bytes) : Bool :=
  let off := leAt r 4 4
  let len := leAt r 8 4
  let budget := leAt r 12 4
  let ws := code b l off len
  decide (255 < leAt r 0 2) || leAt r 2 2 != 0 || off % 4 != 0 || len % 4 != 0 || len == 0 || decide (65536 < len) || decide ((bodyOf b 6 l).length < off + len) ||
    budget == 0 || decide (1 < ((kernels b l).filter (fun k => k.1 == leAt r 0 2)).length) ||
    !ws.all rfxWordOk || !placesOk (bodies ws 0) ws.length ws 0 ||
    (match worstCase ws rfxClocks, worstCase ws rfxEntries with | some c, some e => decide (budget < c) || decide (256 < e) | _, _ => true)

/-- REFLEX_BUDGET (0x16). -/
def budgetFail (b : Bytes) : Option PlanFail :=
  perHall b (fun l => firstOf [
    (firstOp ((opsCode b l 0x50).filter (fun o => (kernel b l (bitsOf o.word 46 39)).isNone))).map (fun o => o.fail 0x16),
    failAt (records 16 (bodyOf b 7 l)) (kernelBad b l) 0x16 l])

/-- REFLEX_OVERLAP (0x17). -/
def overlapFail (b : Bytes) : Option PlanFail :=
  perHall b (fun l =>
    let spans := (opsCode b l 0x50).filterMap (fun o => (kernel b l (bitsOf o.word 46 39)).map (fun k => (⟨bitsOf o.word 48 47, o.clockOf b, k.2.2.2, o⟩ : Span)))
    (firstOp (spanClashes b spans)).map (fun o => o.fail 0x17))

/-! ### PRELOAD (R75, R191, R251, R274, R282, R283) -/

/-- Entry octets and entries of a target. -/
def targetShape (t : Nat) : Option (Nat × Nat) :=
  match t with
  | 1 => some (1, alcoveTop) | 2 => some (160, 16384) | 3 => some (16, 262144) | 4 => some (16, 65536) | 5 => some (32, 8192) | 6 => some (128, 2048) | _ => none

/-- Entry i of a table is well formed. -/
def entryOk (t i : Nat) (e : Bytes) : Bool :=
  match t with
  | 2 => tcamOk e
  | 3 => bridgeOk e && (!bitOf (leAt e 12 4) 31 || (let (x, y) := probes (leAt e 6 2) (sliceB e 0 6); (x ++ y).contains i))
  | 4 => stnOk i e
  | 5 => vportOk e
  | 6 => tunOk none e
  | _ => true

/-- The entries of a block with their indices. -/
def entriesOf (k : Block) : List (Nat × Bytes) := (List.range k.count).map (fun i => (k.start + i, sliceB k.data (i * k.width) k.width))

/-- The VALID keys that a block puts into the bridge table. -/
def bridgeKeys (k : Block) : List Bytes :=
  if k.target = 3 then ((entriesOf k).filter (fun e => bitOf (leAt e.2 12 4) 31)).map (fun e => sliceB e.2 0 8) else []

/-- A key stands twice. -/
def twice : List Bytes → Bool
  | [] => false
  | x :: t => t.contains x || twice t

/-- The first block of a section that breaks R75 or its table's rules, and the bridge keys that its blocks hold; seen holds those of the hall's blocks
before. -/
def blockBad : List Block → List Bytes → Nat → Option Nat × List Bytes
  | [], seen, _ => (none, seen)
  | k :: t, seen, i =>
    let ks := bridgeKeys k
    let bad := k.rsv != 0 || leNat k.pad != 0 || (match targetShape k.target with
      | none => true
      | some (w, n) => k.width != w || decide (n < k.start + k.count) || (k.target != 1 && !(entriesOf k).all (fun e => entryOk k.target e.1 e.2)))
    if bad || twice ks || ks.any (fun x => seen.contains x) then (some i, seen) else blockBad t (seen ++ ks) (i + 1)

/-- The first bad block of a hall's preload sections, by its index in its own section (R93). -/
def blocksBad : List (List Block) → List Bytes → Option Nat
  | [], _ => none
  | k :: t, seen => match blockBad k seen 0 with | (some i, _) => some i | (none, seen) => blocksBad t seen

/-- PRELOAD (0x18). -/
def preloadFail (b : Bytes) : Option PlanFail :=
  perHall b (fun l => (blocksBad (((sections b).filter (fun s => s.ty == 8 && s.hall == l)).map (fun s => blocks s.count (body b s))) []).map
    (fun i => { code := 0x18, hall := l, record := i }))

/-! ### CAPACITY, TWIN, DEADLINE, OPEN_BUDGET, ENERGY (R76 to R78, R83, R208) -/

/-- The octets of the alcove that a pool takes: its slot areas and its status array. -/
def Pool.extent (p : Pool) : Nat := p.slots * p.stride + (8 * p.slots + 63) / 64 * 64

/-- Two pools share octets in some hall that carries both. -/
def poolsMeet (p q : Pool) : Bool :=
  (List.range 16).any (fun l => p.carriedBy l && q.carriedBy l) && decide (p.off < q.off + q.extent) && decide (q.off < p.off + p.extent)

/-- A pool's own fields break R76. -/
def poolBad (b : Bytes) (r : Bytes) : Bool :=
  let p := pool r
  decide (15 < leAt r 2 1) || bitsOf (leAt r 3 1) 6 4 != 0 || p.slots == 0 || p.segs == 0 || decide (16 < leAt r 6 1) || decide (1 < leAt r 7 1) ||
    decide (1440 * p.segs < p.out) || decide (1440 * p.segs < p.inn) || leAt r 0x0C 4 != 0 || decide (flightLen b ≤ leAt r 0x10 4) || p.off % 64 != 0 ||
    decide (alcoveTop < p.off + p.extent) || leAt r 0x1D 3 != 0 || !(portsOf b p.hall).any (fun lane => laneMode b lane == p.mode)

/-- The first pool that breaks R76, alone or against those before it. -/
def poolsBad (b : Bytes) : List Bytes → List Pool → Nat → Option Nat
  | [], _, _ => none
  | r :: t, seen, i =>
    let p := pool r
    if poolBad b r || seen.any (fun q => q.id == p.id || poolsMeet p q) || decide (65536 < (seen.map (fun q => q.slots)).sum + p.slots) then some i
    else poolsBad b t (seen ++ [p]) (i + 1)

/-- CAPACITY (0x19). -/
def capacityFail (b : Bytes) : Option PlanFail := (poolsBad b (records 32 (bodyOf b 9 0xFF)) [] 0).map (fun i => { code := 0x19, record := i })

/-- TWIN (0x1A). -/
def twinFail (b : Bytes) : Option PlanFail :=
  failAt (pools b) (fun p => match p.twin with
    | none => false
    | some t => (phys b t).isNone || own b t / 9 == own b p.hall / 9 || !(portsOf b t).any (fun lane => laneMode b lane == p.mode) ||
        windowsBad b p.hall p || windowsBad b t p) 0x1A

/-- The deadline test of R77 for a slot in a hall, in ns times Mb/s. -/
def deadlineOk (b : Bytes) (l : Nat) (p : Pool) (i : Nat) : Bool :=
  let t := tTx b l (rateOf b l) p i
  let delta := if t < p.deadline then p.deadline - t else p.deadline + flightLen b - t
  let m := modeMbps p.mode
  let wIn := max (p.inn + p.segs * (66 + (if p.gmac then 16 else 0))) (p.segs * 84)
  decide ((200 + p.ring) * m + 8000 * p.wOut + 8000 * wIn ≤ 100 * delta * m)

/-- DEADLINE (0x1B). -/
def deadlineFail (b : Bytes) : Option PlanFail :=
  failAt (pools b) (fun p => (logicals b).any (fun l => p.carriedBy l && (List.range p.slots).any (fun i => !deadlineOk b l p i))) 0x1B

/-- The program of a hall holds an OPEN window. -/
def hasOpen (b : Bytes) (l : Nat) : Bool := (opsCode b l 0x20).any (fun o => bitsOf o.word 20 13 != 0)

/-- OPEN_BUDGET (0x1C). -/
def openFail (b : Bytes) : Option PlanFail :=
  perHall b (fun l =>
    let rs := records 16 (bodyOf b 0xA l)
    let cls := rs.take 8
    let served := cls.filter (fun r => leAt r 2 2 != 0)
    firstOf [
      failAt cls (fun r => decide (7 < leAt r 0 1) || decide (7 < leAt r 1 1) || decide (rateOf b l < leAt r 2 2) || leAt r 8 8 != 0 ||
        decide (1 < (cls.filter (fun x => leAt x 0 1 == leAt r 0 1)).length) ||
        (leAt r 2 2 != 0 && decide (1 < (served.filter (fun x => leAt x 1 1 == leAt r 1 1)).length))) 0x1C l,
      (match rs.getD 8 [] with
      | r => failIf (leAt r 0 1 != 0xFF || leAt r 1 1 != 0 || leAt r 2 2 != 0 || leAt r 8 8 != 0) 0x1C l).map (fun f => { f with record := 8 }),
      failIf (hasOpen b l && served.isEmpty) 0x1C l])

/-- ENERGY (0x1D). -/
def energyFail (s : State) (b : Bytes) : Option PlanFail :=
  failIf (decide (s.fld Fld.PLN_POWER_BUDGET_WATTS * flightLen b < energy b * 10)) 0x1D

/-! ### The whole (R81, R82) -/

/-- Flits per 256 Gallery clocks of a configured host port, 0 for one that is not (R81, R144). -/
def configRate (s : State) (p : Nat) : Nat :=
  if s.flag Fld.EP_PORT_MAP_EN 0 p then flitRate (s.fld Fld.EP_PORT_MAP_WIDTH 0 p + 2) (s.fld Fld.EP_PORT_CFG_GEN 0 p) else 0

/-- The checks in the order of R82: the first failure, or none. -/
def verify (s : State) (b : Bytes) : Option PlanFail :=
  let rate := configRate s
  firstOf [formatFail b, sizeFail b, sectionFail b, hashFail b, keyFail s b, headerFail s b, hallMapFail b, bayMapFail b, storeFail b,
    programFail b rate, gradeFail s b, issueFail b, (firstOp (galleryClash b (own b) rate)).map (fun o => o.fail 0x10), mismatchFail b (own b) rate,
    (firstOp (atriumClash b (own b) rate)).map (fun o => o.fail 0x12), refreshFail b, wakeFail b, dutyFail b rate, budgetFail b, overlapFail b,
    preloadFail b, capacityFail b, twinFail b, deadlineFail b, openFail b, energyFail s b]

/-- GAL_REMAP_OK of the logical halls of an accepted image (R160). -/
def remaps (s : State) (b : Bytes) : List Nat := (List.range 16).map (remapOk b (configRate s))

end Sys2Proof.Machine.Plan
end

