-- ==== Sys2Proof/Machine/Plans.lean ====
section
/-! DEFINITION. Plan slots (R84 to R92): loads, verification, the library, swaps until they land or are abandoned, how a start is
selected (R481). -/

namespace Sys2Proof.Machine

/-! ### What PLN registers show (R93) -/

def State.standbyState (s : State) : Nat := s.fld Fld.PLN_STANDBY_STATUS_STATE
def State.setStandby (s : State) (v : Nat) : State := s.setFld Fld.PLN_STANDBY_STATUS_STATE v
def State.setReason (s : State) (v : Nat) : State := s.setFld Fld.PLN_STANDBY_STATUS_REASON v

/-- Serial and hash of both slots; 0 for an empty one. -/
def State.showSlots (s : State) : State :=
  let ser := fun (b : Bytes) => if b = [] then 0 else Plan.serial b
  let s := (s.setFld Fld.PLN_ACTIVE_SERIAL_LO_SERIAL (ser s.pln.active)).setFld Fld.PLN_ACTIVE_SERIAL_HI_SERIAL (ser s.pln.active / 2 ^ 32)
  let s := (s.setFld Fld.PLN_STANDBY_SERIAL_LO_SERIAL (ser s.pln.standby)).setFld Fld.PLN_STANDBY_SERIAL_HI_SERIAL (ser s.pln.standby / 2 ^ 32)
  (List.range 12).foldl (fun (s : State) i =>
    (s.setFld Fld.PLN_ACTIVE_HASH_HASH (leAt (Plan.hash s.pln.active) (4 * i) 4) 0 i).setFld Fld.PLN_STANDBY_HASH_HASH (leAt (Plan.hash s.pln.standby) (4 * i) 4) 0 i) s

/-- A plan command fails with a reason of R82, which REASON keeps. -/
def State.planFail (s : State) (d : AdminCmd) (reason : Nat) : State := (s.setReason reason).adminFail d St.planRejected reason

/-- Complete a command if one waits. -/
def State.planDone (s : State) (c : Option AdminCmd) (status detail opspec : Nat) : State :=
  match c with
  | some d => s.adminDone d status detail opspec 0
  | none => s

/-! ### Loads (R81, R84, R85) -/

/-- The verifier starts on the image in standby; it works with what it reads now (R81, R93). -/
def State.startVerify (s : State) : State :=
  let b := s.pln.standby
  let v := match Plan.verify s b with
    | some f => (f.code, f.where_, f.item, [])
    | none => (0, 0, 0xFFFF00FF, Plan.remaps s b)
  ({ s with pln := { s.pln with verdict := some v } }.setStandby 2).showSlots

/-- A load may not replace what stands in standby. -/
def State.slotBusy (s : State) : Bool := s.standbyState == 1 || s.standbyState == 2 || s.standbyState == 5

/-- PLAN_LOAD (R84, R85): the image is the command's buffer. -/
def execPlanLoad (d : AdminCmd) (buf : Bytes) (s : State) : Answer :=
  .next (s.admin d 0x10 (fun s =>
    if s.slotBusy then s.planFail d 0x40
    else
      let s := { s with pln := { s.pln with standby := sliceB buf 0 d.bufLen, load := some d, bootCase := 0 } }
      (s.setFld Fld.PLN_STANDBY_STATUS_SOURCE 0).startVerify))

/-- A load from the library or the active slot begins. -/
def State.beginCopyIn (s : State) (kind idx boot : Nat) (cmd : Option AdminCmd) : State :=
  let s := { s with pln := { s.pln with standby := [], load := cmd, bootCase := boot, copies := s.pln.copies ++ [PlanCopy.mk kind idx [] none] } }
  ((s.setStandby 1).setFld Fld.PLN_STANDBY_STATUS_SOURCE 1).showSlots

/-- PLAN_LOAD_STORED (R85). -/
def execPlanLoadStored (d : AdminCmd) (s : State) : Answer :=
  .next (s.admin d 0x11 (fun s => if s.slotBusy then s.planFail d 0x40 else s.beginCopyIn 1 (d.p 0) 0 (some d)))

/-- PLAN_STORE (R85). -/
def execPlanStore (d : AdminCmd) (s : State) : Answer :=
  .next (s.admin d 0x12 (fun s =>
    if s.pln.standby = [] then s.planFail d 0x41
    else { s with pln := { s.pln with copies := s.pln.copies ++ [PlanCopy.mk 0 (d.p 0) s.pln.standby (some d)] } }))

/-- PLAN_DISCARD (R85). A load command that waits for the slot completes with PLAN_REJECTED and reason 0: the model's choice (log entry 40). -/
def execPlanDiscard (d : AdminCmd) (s : State) : Answer :=
  .next (s.admin d 0x15 (fun s =>
    if s.standbyState = 5 then s.planFail d 0x40
    else
      let waiting := s.pln.load
      let s := { s with pln := { s.pln with standby := [], verdict := none, load := none, bootCase := 0, copies := s.pln.copies.filter (fun c => c.kind == 0) } }
      ((s.setStandby 0).showSlots.planDone waiting St.planRejected 0 0).adminOk d))

/-! ### Swaps (R86 to R89) -/

/-- A swap, or a start from no active plan, is requested: the loader fills the idle banks and wakes the halls that it needs. -/
def State.requestSwap (s : State) (named : Option Nat) (cmd : Option AdminCmd) (standalone : Bool) : State :=
  let b := s.pln.standby
  let up := fun h => if s.awake h then s.now else s.now + (if s.frost h = 2 then 160 else 15000) * treadTicks
  let w : Tbl Nat := ((List.range 18).filter (Plan.used b)).map (fun h => (h, up h))
  let s := { s with pln := { s.pln with swap := some { named := named, epoch := s.epoch, since := s.now, cmd := cmd, woken := w, standalone := standalone } } }
  let s := (s.setStandby 5).setFld Fld.PLN_HALL_READY_READY 0
  let s := (s.setFld Fld.PLN_SWAP_FLIGHT_LO_FLIGHT (named.getD 0)).setFld Fld.PLN_SWAP_FLIGHT_HI_FLIGHT (named.getD 0 / 2 ^ 32)
  if s.planActive then s else s.setFld Fld.PLN_ACTIVE_STATUS_STATE 1

/-- Ticks since the origin that a start would read at an instant; none before the origin (R41, R42). -/
def State.sinceOrigin (s : State) (t : Nat) : Option Nat :=
  let o := if s.planActive then s.origin else s.originRegs
  if t < o then none else some (t - o)

/-- The flight length that counts landings: of the active plan, or of the plan that is to start. -/
def State.landLen (s : State) : Nat := if s.planActive then s.flightLen else Plan.flightLen s.pln.standby

/-- The flight whose landing an instant is. -/
def State.landingAt (s : State) (t : Nat) : Option Nat :=
  match s.sinceOrigin t with
  | some x => if s.landLen ≠ 0 ∧ x % (s.landLen * treadTicks) = 0 then some (x / (s.landLen * treadTicks)) else none
  | none => none

/-- A named flight's landing has passed. -/
def State.flightGone (s : State) (k : Nat) : Bool :=
  match s.sinceOrigin s.now with
  | some x => decide (k * s.landLen * treadTicks < x)
  | none => false

/-- Abandon the swap (R87 to R89). -/
def State.abandonSwap (s : State) (reason : Nat) : State :=
  match s.pln.swap with
  | none => s
  | some w =>
    let s := { s with pln := { s.pln with swap := none } }
    let s := ((s.setStandby 3).setReason reason).bump Fld.PLN_COUNTS_REJECTS
    let s := (s.almDev 0x0202 (leBytes 1 reason)).setFld Fld.PLN_HALL_READY_READY 0
    let s := if s.planActive then s else s.setFld Fld.PLN_ACTIVE_STATUS_STATE 0
    s.planDone w.cmd St.planRejected reason 0

/-- PLAN_SWAP (R85, R87): one named for a flight whose landing is past cannot land. -/
def execPlanSwap (d : AdminCmd) (s : State) : Answer :=
  .next (s.admin d 0x13 (fun s =>
    if s.standbyState ≠ 3 then s.planFail d 0x41
    else
      let named := if bitOf (d.p 0) 0 then some (d.p64 1) else none
      let s := s.requestSwap named (some d) false
      match named with
      | some k => if s.flightGone k then s.abandonSwap 0x43 else s
      | none => s))

/-- Work of a hall that keeps it from counting as drained (R51). -/
def State.drained (s : State) (h : Nat) : Bool :=
  let q := s.seq h
  decide (q.busy ≤ s.now) && q.allocs == [] && q.hands == [] && s.gal.moves.all (fun m => m.hall != h) && s.dma.bursts.all (fun b => b.hall != h) &&
    (List.range 4).all (fun c => !s.coreBusy h c) && (List.range 64).all (fun c => (s.dch h c).descs == []) && (s.cphOf h).ops == [] && s.wq.cqs.all (fun (e : Nat × Cq) => e.2.staged.all (fun r => r.hall != h)) &&
    (List.range 8).all (fun p => (s.hp p).reqs.all (fun r => !((r.purpose == 1 || r.purpose == 2 || r.purpose == 3) && r.arg / 64 == h))) &&
    (List.range 8).all (fun p => s.posts h p == []) && s.dma.reads.all (fun r => r.hall != h || r.carried == r.asked)

/-- A hall's role changes or ends under the image in standby. -/
def State.roleChanges (s : State) (h : Nat) : Bool :=
  match s.logicalOf h with
  | some l => !(Plan.used s.pln.standby h && Plan.logical s.pln.standby h == l)
  | none => false

/-- The halls whose readiness a swap waits for. -/
def State.swapHalls (s : State) : List Nat := (List.range 18).filter (fun h => Plan.used s.pln.standby h || s.roleChanges h)

/-- A hall is awake, or has had its wake time, for the swap. -/
def State.wokenFor (s : State) (w : Swap) (h : Nat) : Bool :=
  s.awake h || (match look w.woken h with | some t => decide (t ≤ s.now) | none => false)

/-- What R86 asks of a hall before it reports ready, but for its drain. -/
def State.bankReady (s : State) (w : Swap) (h : Nat) : Bool :=
  (s.fld Fld.FLT_HALL_STATE 0 h == 0 || s.fld Fld.FLT_HALL_STATE 0 h == 4) && (!Plan.used s.pln.standby h || s.wokenFor w h)

/-- The octets of a hall's resident sections (R71, R86). -/
def residentOf (b : Bytes) (l : Nat) : Bytes :=
  (((Plan.sections b).filter (fun x => x.hall == l && Plan.perHallType x.ty && x.ty != 8)).map (Plan.body b)).flatten

/-- HALL_READY (R86): a hall's idle bank is written and it is up. -/
def execHallReady (h at_ : Nat) (s : State) : Answer :=
  let s := s.atTime at_
  match s.pln.swap with
  | none => .next s
  | some w =>
    if !s.swapHalls.contains h ∨ !s.bankReady w h ∨ (s.roleChanges h ∧ !s.drained h) then .next s
    else
      let s := if Plan.used s.pln.standby h then
          { s with pln := { s.pln with bankCrc := s.pln.bankCrc.put h (crc32c (residentOf s.pln.standby (Plan.logical s.pln.standby h))) } } else s
      let s := if Plan.used s.pln.standby h then s.setFld Fld.TSQ_STATE_PRE_DONE 1 h else s
      .next (s.setFld Fld.PLN_HALL_READY_READY (withBit (s.fld Fld.PLN_HALL_READY_READY) h true))

/-- SWAP_TIMEOUT (R87): a swap for the first ready landing has not landed in time. -/
def execSwapTimeout (at_ : Nat) (s : State) : Answer :=
  let s := s.atTime at_
  match s.pln.swap with
  | some w => .next (if w.named = none ∧ s.expired (w.since + s.fld Fld.PLN_SWAP_TIMEOUT_MS * 1000000 * nsTicks) then s.abandonSwap 0x42 else s)
  | none => .next s

/-- PLAN_STOP (R91): the plan ends at the next landing. -/
def execPlanStop (d : AdminCmd) (s : State) : Answer :=
  .next (s.admin d 0x14 (fun s => { s with pln := { s.pln with stops := s.pln.stops ++ [d] } }.setFld Fld.PLN_ACTIVE_STATUS_STATE 3))

/-! ### Starts (R92, R481) -/

/-- The standalone case begins, where PLN_BOOT asks for it; else no plan runs. -/
def State.startStandalone (s : State) : State :=
  if s.flag Fld.PLN_BOOT_AUTO then (s.setFld Fld.OWN_BOOT_STATUS_START 2).beginCopyIn 1 (s.fld Fld.PLN_BOOT_INDEX) 2 none
  else s.setFld Fld.OWN_BOOT_STATUS_START 0

/-- A start fails: resume falls through to the standalone case, which itself waits for an owner. -/
def State.startFails (s : State) (reason : Nat) : State :=
  let boot := s.pln.bootCase
  let s := { s with pln := { s.pln with bootCase := 0 } }
  let s := s.setFld Fld.OWN_BOOT_STATUS_REASON reason
  if boot = 1 then ((s.raise Fld.OWN_FLAGS_RESTORE_FAIL).almDev 0x0C03 (leBytes 1 reason)).startStandalone
  else s.almDev 0x0204 (leBytes 1 reason)

/-- No plan starts during a thermal hold (R567), or while EXTEST, CLAMP or HIGHZ has the lands (R564). -/
def State.startHeld (s : State) : Bool := s.pkg.hold || s.pkg.jtag == 1 || s.pkg.jtag == 3 || s.pkg.jtag == 4

/-- After a device reset the plan that was RUNNING restarts without a new verification (R493): resume is asked for, and the kept grades of the
halls that the plan uses or names as spares are less than 10 minutes old and meet it. -/
def State.restarts (s : State) : Bool :=
  s.fld Fld.OWN_BOOT_STATUS_LAST_RESET == 1 && s.own.planWasRunning && s.flag Fld.OWN_CFG_RESUME && s.pln.active != [] &&
    decide (s.now < s.baro.passAt + 600 * secTicks) &&
    (List.range 18).all (fun h => !(Plan.used s.pln.active h || Plan.spare s.pln.active h) || (match (s.baro.halls.get {} h).kept with
      | some g => decide (g ≤ Plan.reqGrade s.pln.active h)
      | none => false))

/-- The restart: the kept grades are published, and the active image starts as it was accepted. -/
def State.restartPlan (s : State) : State :=
  let s := (List.range 18).foldl (fun (s : State) h => match (s.baro.halls.get {} h).kept with
    | some g => s.setFld Fld.BARO_MT_W0_CERT_G g 0 h
    | none => s) s
  let s := s.setFld Fld.OWN_BOOT_STATUS_START 3
  ({ s with pln := { s.pln with standby := s.pln.active, remaps := s.pln.activeRemaps } }).requestSwap none none false

/-- START_SELECT (R481, R493): once certified grades exist, or at once for a restart. -/
def execStartSelect (at_ : Nat) (s : State) : Answer :=
  let s := s.atTime at_
  if s.pln.selected ∨ s.fld Fld.OWN_BOOT_STATUS_STAGE ≠ 2 ∨ s.planActive ∨ s.slotBusy ∨ s.startHeld then .next s
  else if s.restarts then .next ({ s with pln := { s.pln with selected := true } }).restartPlan
  else if s.baro.passes = 0 then .next s
  else
    let s := { s with pln := { s.pln with selected := true }, own := { s.own with planWasRunning := false } }
    if s.flag Fld.OWN_CFG_RESUME ∧ s.pln.active ≠ [] then .next ((s.setFld Fld.OWN_BOOT_STATUS_START 1).beginCopyIn 2 0 1 none)
    else .next s.startStandalone

/-- The image that was to come into standby could not be supplied (R82, R92). -/
def State.copyFails (s : State) : State :=
  let cmd := s.pln.load
  let s := { s with pln := { s.pln with load := none } }
  let s := ((s.setStandby 4).setReason 0x45).bump Fld.PLN_COUNTS_REJECTS
  if s.pln.bootCase = 0 then s.planDone cmd St.planRejected 0x45 0 else s.startFails 0x45

/-- LIBRARY_COPY_COMPLETE (R84, R85, R92): the oldest copy ends; ok is whether the store could supply or take it. -/
def execLibraryCopyComplete (ok : Bool) (s : State) : Answer :=
  match s.pln.copies with
  | [] => .next s
  | c :: t =>
    let s := { s with pln := { s.pln with copies := t } }
    if c.kind = 0 then
      let s := { s with pln := { s.pln with library := s.pln.library.put (c.idx % 16) c.image } }
      .next (s.planDone c.cmd St.success 0 0)
    else
      let b := if c.kind = 1 then s.pln.library.get [] (c.idx % 16) else s.pln.active
      if !ok ∨ b = [] then .next s.copyFails
      else .next ({ s with pln := { s.pln with standby := b } }).startVerify

/-- VERIFY_COMPLETE (R81, R82): the verifier's answer stands. -/
def execVerifyComplete (at_ : Nat) (s : State) : Answer :=
  let s := s.atTime at_
  match s.pln.verdict with
  | none => .next s
  | some (code, wh, item, oks) =>
    let cmd := s.pln.load
    let s := { s with pln := { s.pln with verdict := none, load := none, remaps := oks } }
    let s := s.setWord .PLN_VERIFY_WHERE (BitVec.ofNat 32 wh)
    let s := s.setWord .PLN_VERIFY_ITEM (BitVec.ofNat 32 item)
    let s := s.setReason code
    if code = 0 then
      let s := s.setStandby 3
      if s.pln.bootCase = 0 then .next (s.planDone cmd St.success 0 (wh + item * 2 ^ 32))
      else if Plan.standaloneOk s.pln.standby then
        let two := s.pln.bootCase == 2
        .next (({ s with pln := { s.pln with bootCase := 0 } }).requestSwap none none two)
      else .next (s.startFails 0)
    else
      let s := (s.setStandby 4).bump Fld.PLN_COUNTS_REJECTS
      if s.pln.bootCase = 0 then .next (s.planDone cmd St.planRejected code (wh + item * 2 ^ 32)) else .next (s.startFails code)

end Sys2Proof.Machine
end

