-- ==== Sys2Proof/Machine/Roles.lean ====
section
/-! DEFINITION. What a physical hall holds and loses: its window's registers, its tables and preloads (R49, R75), its preamble (R130),
its lanes (R222), the logical hall it runs and that hall's DMA configuration (R358). -/

namespace Sys2Proof.Machine

/-! ### Registers of a hall's window (R49, R246, R358, R575) -/

/-- Offsets of adapter-wide registers: one value, which stands in the window of HALL0. -/
def wideOffset (o : Nat) : Bool :=
  (decide (0xC00 ≤ o) && decide (o < 0xC0C)) || (decide (0xC40 ≤ o) && decide (o < 0xC90)) || o == 0x1004 ||
    (decide (0x1100 ≤ o) && decide (o < 0x1180)) || o == 0x1400 || o == 0x1800 || o == 0x2800

/-- Those of them that a write stages: PRS_STATUS is read-only. -/
def stagedOffset (o : Nat) : Bool := wideOffset o && o != 0xC08

/-- Offsets of the source MAC of cyclic frames, adapter-wide as well (R217). -/
def macOffset (o : Nat) : Bool := o == 0x810 || o == 0x814

/-- Offsets of the DMA configuration that belongs to the logical hall. -/
def dmaOffset (o : Nat) : Bool :=
  o == 0x3000 || (decide (0x3100 ≤ o) && decide (o < 0x3900) && [0, 8, 12, 16].contains (o % 32))

/-- The window of a hall. -/
def inWindow (h a : Nat) : Bool := a / 2 ^ 24 == 0x10 + h

/-- The registers of a hall's window return to their reset values; its role, and what does not belong to the physical hall, stay. -/
def State.hallInit (s : State) (h : Nat) : State :=
  { s with regs := s.regs.filter (fun (e : Nat × Word) => !(inWindow h e.1 && !(e.1 % 2 ^ 24 == 0 || wideOffset (e.1 % 2 ^ 24) || macOffset (e.1 % 2 ^ 24) || dmaOffset (e.1 % 2 ^ 24)))) }

/-- Offsets of the counters and maxima of a hall's window that start at 0 with a plan (R185, R217, R265, R295, R320, R359). -/
def counterOffset (o : Nat) : Bool :=
  [(0x430, 0x470), (0x840, 0x884), (0xD00, 0x1000), (0x1010, 0x1020), (0x1410, 0x1428), (0x1840, 0x188C), (0x1980, 0x19C0), (0x2000, 0x2800), (0x2840, 0x2864),
    (0x2C10, 0x2C20), (0x2C40, 0x2C6C), (0x3040, 0x3070)].any (fun r => decide (r.1 ≤ o) && decide (o < r.2))

/-- A hall that starts a plan holding none starts its counters at 0. -/
def State.zeroCounters (s : State) (h : Nat) : State :=
  { s with regs := s.regs.filter (fun (e : Nat × Word) => !(inWindow h e.1 && counterOffset (e.1 % 2 ^ 24))) }

/-- The Nave keeps the DMA configuration of a logical hall that its hall ceases to run. -/
def State.saveDma (s : State) (h l : Nat) : State :=
  let mine := s.regs.filter (fun (e : Nat × Word) => inWindow h e.1 && dmaOffset (e.1 % 2 ^ 24))
  let conf := mine.foldl (fun (t : Tbl Word) (e : Nat × Word) => t.put (l * 2 ^ 24 + e.1 % 2 ^ 24) e.2) (s.dma.conf.filter (fun (e : Nat × Word) => e.1 / 2 ^ 24 != l))
  { s with regs := s.regs.filter (fun (e : Nat × Word) => !(inWindow h e.1 && dmaOffset (e.1 % 2 ^ 24))), dma := { s.dma with conf := conf } }

/-- The Nave writes it into the hall that runs the logical hall. -/
def State.loadDma (s : State) (h l : Nat) : State :=
  let mine := s.dma.conf.filter (fun (e : Nat × Word) => e.1 / 2 ^ 24 == l)
  let s := { s with regs := mine.foldl (fun (t : Tbl Word) (e : Nat × Word) => t.put ((0x10 + h) * 2 ^ 24 + e.1 % 2 ^ 24) e.2) s.regs }
  let s := { s with dma := { s.dma with conf := s.dma.conf.filter (fun (e : Nat × Word) => e.1 / 2 ^ 24 != l), chans := s.dma.chans.filter (fun (e : Nat × DmaCh) => e.1 / 64 != h) } }
  (List.range 64).foldl (fun (s : State) c => if s.dmaService h c = 0 then s else s.setChState h c 1) s

/-! ### Tables (R75) -/

/-- A hall drops its tables; the counts derived from them follow. -/
def State.dropAll (s : State) (h : Nat) : State :=
  let fw := s.fw
  let fw := { fw with frags := fw.frags.filter (fun e => e.1 / 4096 != h), tcam := fw.tcam.filter (fun e => e.1 / 16384 != h), counters := fw.counters.filter (fun e => e.1 / 16384 != h), bridge := fw.bridge.filter (fun e => e.1 / 2 ^ 18 != h) }
  let fw := { fw with vports := fw.vports.filter (fun e => e.1 / 8192 != h), tuns := fw.tuns.filter (fun e => e.1 / 2048 != h), audit := fw.audit.del h, renew := fw.renew.del h, learns := fw.learns.filter (fun e => e.hall != h) }
  let s := { s with fw := fw, cyc := { s.cyc with dirs := s.cyc.dirs.filter (fun e => e.1 / 65536 != h) }, pln := { s.pln with tables := s.pln.tables.del h } }
  (((s.setFld Fld.CYC_DIR_VALID_COUNT 0 h).setFld Fld.FWD_ENTRIES_COUNT 0 h).setFld Fld.CLS_STATUS_VALID 0 h).setFld Fld.FRG_STATUS_IN_USE 0 h

/-- What a hall loses at F3: its alcove, its tables and the registers of its window (R49). -/
def State.loseAll (s : State) (h : Nat) : State :=
  let s := { s with alcove := Memory.clear s.alcove (h * 2 ^ 25) ((h + 1) * 2 ^ 25), flt := { s.flt with poisonAlcove := s.flt.poisonAlcove.filter (fun u => u / 2 ^ 19 != h) } }
  (s.dropAll h).hallInit h

/-- One entry of a preload. -/
def State.preloadEntry (s : State) (h target i : Nat) (e : Bytes) : State :=
  match target with
  | 2 => s.setTcam h i e
  | 3 => if bitOf (leAt e 12 4) 31 then s.setBridge h i { bd := leAt e 6 2, mac := sliceB e 0 6, dest := leAt e 8 4, state := leAt e 12 4 } else s.freeBridge h i
  | 4 => s.setStation h i e
  | 5 => { s with fw := { s.fw with vports := s.fw.vports.put (h * 8192 + i) e } }
  | 6 => s.setTemplate h i e
  | _ => s

/-- One block: octets of the alcove, or entries of a table. -/
def State.preloadBlock (s : State) (h : Nat) (b : Plan.Block) : State :=
  if b.target = 1 then s.alcoveWrite h b.start b.data
  else (List.range b.count).foldl (fun (s : State) j => s.preloadEntry h b.target (b.start + j) (sliceB b.data (j * b.width) b.width)) s

/-- A hall that runs keeps its tables across a swap, whichever logical hall it then runs. -/
def State.keepTables (s : State) (h l : Nat) : State :=
  if (look s.pln.tables h).isSome then { s with pln := { s.pln with tables := s.pln.tables.put h l } } else s

/-- A hall that holds none of a logical hall's tables takes its preloads under the active plan. -/
def State.preload (s : State) (h l : Nat) : State :=
  if look s.pln.tables h = some l then s
  else
    let s := if (look s.pln.tables h).isSome then s.dropAll h else s
    let s := (Plan.preloads s.pln.active l).foldl (fun (s : State) b => s.preloadBlock h b) s
    { s with pln := { s.pln with tables := s.pln.tables.put h l } }

/-! ### The preamble (R103, R129, R130) -/

/-- One preamble op. -/
def State.preambleOp (s : State) (h o : Nat) : State :=
  if Plan.opcode o = 0x12 then let (k, e, a) := setptrFields o; s.setPtr h k e a none
  else
    let base := bitsOf o 36 18 * 64
    ({ s with flows := s.flows.put (h * 4096 + bitsOf o 48 37) (base, 2 ^ (12 + bitsOf o 17 14)) }).alcoveWrite h base (leBytes 8 0)

/-- A hall starts its plan: pointers invalid, flows and cores empty, the preamble applied in the other bank, which becomes the one in
use. -/
def State.applyPreamble (s : State) (h l : Nat) : State :=
  let s := s.dropBuffers h
  let s := { s with flows := s.flows.filter (fun e => e.1 / 4096 != h), cores := s.cores.filter (fun e => e.1 / 4 != h) }
  let s := (List.range 16).foldl (fun (s : State) k => s.voidPtr h k) s
  let s := (Plan.preamble (Plan.program s.pln.active l)).foldl (fun (s : State) o => s.preambleOp h o) s
  (s.setFld Fld.TSQ_STATE_BANK (s.fld Fld.TSQ_STATE_BANK h + 1) h).setFld Fld.TSQ_STATE_PRE_DONE 0 h

/-! ### Lanes (R50, R218, R222) -/

/-- The FEC choice of a lane's configuration is one that its mode allows. -/
def fecOk (mode fec : Nat) : Bool :=
  fec == 0 || (fec == 1 && decide (1 ≤ mode) && decide (mode ≤ 4)) || (fec == 2 && (mode == 3 || mode == 4)) || (fec == 3 && mode == 4)

/-- A lane goes dark: a port's link goes down and its buffers are lost. -/
def State.darken (s : State) (l : Nat) : State :=
  let s := if s.isPort l then (s.portDown l 15).dropPort l else s
  let s := (s.setFld Fld.LN_LANE_STATUS_MODE 0 0 l).setFld Fld.LN_LANE_STATUS_FEC_LOCK 0 0 l
  (s.setFld Fld.LN_LANE_STATUS_TRAINING 0 0 l).setFld Fld.LN_LANE_STATUS_FEC_DEFAULT 0 0 l

/-- A lane starts under a mode: a port trains where its mode does, and needs no FEC lock where no FEC is in use. -/
def State.lightLane (s : State) (l mode : Nat) : State :=
  let s := (s.setFld Fld.LN_LANE_STATUS_MODE mode 0 l).train l
  let s := s.setFld Fld.LN_LANE_STATUS_FEC_LOCK (b2n (modeLanes mode != 0 && s.portFec l == 0)) 0 l
  s.setFld Fld.LN_LANE_STATUS_FEC_DEFAULT (b2n (modeLanes mode != 0 && !fecOk mode (s.fld Fld.LN_LANE_CFG_FEC 0 l))) 0 l

/-- The lanes of a hall's bays under the active plan. -/
def State.hallLanes (s : State) (h : Nat) : List Nat := (List.range 256).filter (fun l => s.bayOwner (l / 8) == some h)

/-- The bays of a hall go dark, or are lit where they are dark. -/
def State.darkenHall (s : State) (h : Nat) : State := (s.hallLanes h).foldl State.darken s
def State.lightHall (s : State) (h : Nat) : State :=
  (s.hallLanes h).foldl (fun (s : State) l => if s.laneDark l then s.lightLane l (Plan.laneMode s.pln.active l) else s) s

/-- A lane's change of FEC or polarity takes effect and restarts its port; the values in force stand in wide. -/
def State.laneCfgLand (s : State) (l : Nat) : State :=
  let a := Reg.addr .LN_LANE_CFG 0 l
  let k := if s.continues l then 4 else 0
  let now := bitsOf (s.word .LN_LANE_CFG 0 l).toNat 5 k
  let was := bitsOf ((look s.wide a).getD (Reg.reset .LN_LANE_CFG 0 l)).toNat 5 k
  if now = was then s
  else
    let s := { s with wide := s.wide.put a (s.word .LN_LANE_CFG 0 l) }
    if s.laneDark l then s
    else
      let first := ((List.range 8).map (fun i => l - i)).find? (fun x => s.isPort x && decide (l < x + modeLanes (s.laneMode x)))
      match first with
      | some p => (s.portDown p 15).lightLane p (s.laneMode p)
      | none => s

/-- STO_STAGE and STO_CH take effect at a landing too (R463). -/
def stageOffset (a : Nat) : Bool := decide (0x0D000100 ≤ a) && decide (a < 0x0D000180)

/-- Adapter-wide values that were staged take effect in every hall (R246, R44), and the storage configuration. -/
def State.wideLand (s : State) : State :=
  let s := ((s.regs.filter (fun (e : Nat × Word) => e.1 / 2 ^ 24 == 9)).map (fun e => e.1)).foldl (fun (s : State) a =>
    match (List.range 256).find? (fun l => Reg.addr .LN_LANE_CFG 0 l == a) with | some l => s.laneCfgLand l | none => s) s
  let new := s.regs.filter (fun (e : Nat × Word) => stageOffset e.1 || (inWindow 0 e.1 && wideOffset (e.1 % 2 ^ 24)))
  ({ s with wide := (s.wide.filter (fun (e : Nat × Word) => !inWindow 0 e.1 && !stageOffset e.1)) |> fun (t : Tbl Word) => new.foldl (fun (t : Tbl Word) (e : Nat × Word) => t.put e.1 e.2) t }).setFld Fld.PRS_STATUS_PENDING 0

/-! ### What a transition discards (R49, R51) -/

/-- The functions whose work stands in a hall's engines. -/
def State.workFns (s : State) (h : Nat) : List Nat :=
  let js := (s.cphOf h).jobs.map (fun j => j.fn)
  let ds := (List.range 64).flatMap (fun c => (s.dch h c).descs.map (fun d => d.fn))
  let st := s.wq.cqs.filterMap (fun (e : Nat × Cq) => if e.2.staged.any (fun r => r.hall == h) then some e.2.fn else none)
  let rs := (List.range 8).flatMap (fun p => (s.hp p).reqs.filterMap (fun r => if (r.purpose == 1 || r.purpose == 2 || r.purpose == 3) && r.arg / 64 == h then some r.fn else none))
  (js ++ ds ++ st ++ rs ++ s.carrierFns h).eraseDups

/-- The work left in a hall is discarded under the fault semantics of each function affected (cause DRAIN_FORCED). -/
def State.forceDrain (s : State) (h : Nat) : State :=
  (s.workFns h).foldl (fun (s : State) f => if s.fnExists f then s.functionFault f 0x33 (s.inProgress f) else s) s

/-- Pipeline, engine and channel state of a hall are lost; its ports keep their buffers (R222). -/
def State.hallClear (s : State) (h : Nat) : State :=
  let s := ((((s.forceDrain h).dropKernels h).dropBuffers h).dropMoves h).dropHallFrames h
  let s := ((s.dropDma h).dropCyclic h).scrubSends
  ({ s with flows := s.flows.filter (fun e => e.1 / 4096 != h), cores := s.cores.filter (fun e => e.1 / 4 != h) }).setFld Fld.RFX_STATUS_BUSY 0 h

/-- The same, and the buffers of its ports. -/
def State.hallSleep (s : State) (h : Nat) : State := ((s.hallPorts h).foldl State.dropPort s).hallClear h

/-- A hall enters F2 or F3 (R49); one with a pool region in its alcove enters F2 at most (R324). -/
def State.enterLevel (s : State) (h level : Nat) : State :=
  let v := if level = 3 ∧ s.holdsRegion h then 2 else level
  if s.frost h = v ∨ s.frost h = 3 then (s.setFld Fld.CALM_HALL_STATE_PENDING 0 0 h).setFld Fld.CALM_HALL_STATE_TARGET (s.frost h) 0 h
  else
    let s := (s.darkenHall h).hallSleep h
    let s := if v = 3 then s.loseAll h else s
    let s := ((s.setFrost h v).bump Fld.CALM_HALL_STATE_TRANSITIONS 0 h).setFld Fld.TSQ_STATE_STATE 0 h
    let s := ((s.setFld Fld.CALM_HALL_STATE_PENDING 0 0 h).setFld Fld.CALM_HALL_STATE_TARGET v 0 h).setFld Fld.CALM_HALL_STATE_DRAIN_WAIT 0 0 h
    { s with pln := { s.pln with deferred := s.pln.deferred.del h } }

/-- A scheduled entry into F2 or F3: at once where the hall has drained, deferred up to three times, then forced (R51). -/
def State.drainInto (s : State) (h level : Nat) : State :=
  let n := s.pln.deferred.get 0 h
  if s.drained h ∨ 3 ≤ n then s.enterLevel h level
  else
    let s := { s with pln := { s.pln with deferred := s.pln.deferred.put h (n + 1) } }
    let s := (s.raise Fld.CALM_HALL_STATE_DRAIN_WAIT 0 h).setFld Fld.TSQ_STATE_STATE 3 h
    s.almHall 0x0205 h (leBytes 1 (n + 1))

/-! ### Roles (R66, R86, R514, R542) -/

/-- A hall ceases to run its logical hall. -/
def State.endRole (s : State) (h : Nat) : State :=
  match s.logicalOf h with
  | none => s
  | some l =>
    let s := (((s.hallClear h).dropTables h).saveDma h l).setFld Fld.RFX_LANDS_LANDS 0 h
    let s := (s.setFld Fld.CPH_WIN_MAX_JOBS 0 h).setFld Fld.CPH_WIN_MAX_INLINE 0 h
    (s.setFld Fld.TSQ_STATE_ROLE 0 h).setFld Fld.TSQ_STATE_LOGICAL 0 h

/-- A logical hall is mapped to a physical hall, or to none. -/
def State.mapHall (s : State) (l : Nat) (h : Option Nat) : State :=
  (s.setFld Fld.TSQ_MAP_VALID (b2n h.isSome) 0 l).setFld Fld.TSQ_MAP_PHYS (h.getD 0) 0 l

/-- RFX_LANDS of a hall follows the land set of the logical hall that it runs (R179). -/
def State.showLands (s : State) (h l : Nat) : State := s.setFld Fld.RFX_LANDS_LANDS ((Plan.landSet s.pln.active l).foldl (fun n k => n + 2 ^ k) 0) h

/-- CPH_WIN_MAX of a hall follows the program of the logical hall that it runs (R320). -/
def State.showCipherMax (s : State) (h l : Nat) : State :=
  let slots := fun (src : Nat) => ((Plan.treadBundles (Plan.program s.pln.active l)).filter (fun e => Plan.opcode (Plan.slot e.2 2) == 0x30 && bitsOf (Plan.slot e.2 2) 48 47 == src)).foldl (fun m e => max m (slotsOf (bitsOf (Plan.slot e.2 2) 46 31))) 0
  (s.setFld Fld.CPH_WIN_MAX_JOBS (min 0xFFFF (slots 1)) h).setFld Fld.CPH_WIN_MAX_INLINE (min 0xFFFF (slots 0)) h

/-- A hall takes a logical hall of the active plan: the role, the DMA configuration, the preloads, the preamble, the land set and the
windows that the program holds. fresh: it held no plan, and its counters start at 0; a hall that held one keeps its tables (R75). -/
def State.takeRole (s : State) (h l : Nat) (fresh : Bool) : State :=
  let had := s.logicalOf h == some l
  let s := if fresh then s.zeroCounters h else s
  let s := (s.setFld Fld.TSQ_STATE_ROLE 1 h).setFld Fld.TSQ_STATE_LOGICAL l h
  let s := if had then s else s.loadDma h l
  let s := if fresh then s else s.keepTables h l
  ((((s.preload h l).applyPreamble h l).showLands h l).showCipherMax h l).zeroWords h l

end Sys2Proof.Machine
end

