-- ==== Sys2Proof/Machine/Swap.lean ====
section
/-! DEFINITION. What a landing does to plans (R43, R87 to R91, R222, R462, R490, R542, R581): the landing of a swap or a start, the end of
the plan, and how a requested swap is judged. -/

namespace Sys2Proof.Machine

/-! ### How a swap stands at a landing (R87, R88) -/

/-- The time base is in the state that REQUIRE_SYNC asks for: it follows a source, and is not in holdover. -/
def State.synced (s : State) : Bool :=
  let src := s.tbSrc
  src != 0 && !s.flag Fld.TB_STATUS_HOLDOVER && (decide (src < 3) || s.flag Fld.TB_STATUS_LOCKED)

/-- Every hall that is used or spare under the standby plan certifies what the plan asks for. -/
def State.gradesFit (s : State) : Bool :=
  (List.range 18).all (fun h => !(Plan.used s.pln.standby h || Plan.spare s.pln.standby h) || decide (s.fld Fld.BARO_MT_W0_CERT_G 0 h ≤ Plan.reqGrade s.pln.standby h))

/-- A hall has reported ready, and is still up. -/
def State.hallReady (s : State) (w : Swap) (h : Nat) : Bool := bitOf (s.fld Fld.PLN_HALL_READY_READY) h && s.bankReady w h

/-- A hall waits only for its drain. -/
def State.onlyDrains (s : State) (w : Swap) (h : Nat) : Bool := s.roleChanges h && !s.drained h && s.bankReady w h

/-! ### The event lands of a plan (R581) -/

/-- The lands of a plan's land sets. -/
def planLands (b : Bytes) : List Nat := (List.range 32).filter (fun k => (Plan.logicals b).any (fun l => (Plan.landSet b l).contains k))

/-- The land is in a land set of the active plan (R179), whatever the frost level of the hall whose set it is. -/
def State.inLandSet (s : State) (k : Nat) : Bool := s.planActive && (planLands s.pln.active).contains k

/-- EVT_HOST_WRITE (R235): refused for a land of a land set; otherwise the action takes place at the next whole
nanosecond. -/
def execEvtHostWrite (who : Who) (k value at_ : Nat) (s : State) : Answer :=
  let s := s.atTime at_
  let act := value % 8
  let width := bitsOf value 18 3
  if 32 ≤ k ∨ !s.mayWrite who ∨ !s.flag Fld.EVT_STATUS_POWERED then .next s
  else if s.inLandSet k then .next (s.raise Fld.EVT_STATUS_HOST_REFUSED)
  else if act = 2 ∧ width = 0 then .next s
  else .next (s.actSoon k act width)

/-- At a start the capture history and counts are empty. -/
def State.clearCaptures (s : State) : State :=
  (List.range 32).foldl (fun (s : State) k =>
    let l := s.land k
    let s := s.setLand k { l with queue := [], latest := none, snap := (l.snap.1, none, 0), snapNext := (l.snapNext.1, none, 0) }
    ((s.setFld Fld.EVT_CAP_INFO_COUNT 0 0 k).setFld Fld.EVT_CAP_INFO_OVF 0 0 k).setFld Fld.EVT_CAP_INFO_GLITCH 0 0 k) s

/-! ### Channels and connections at a swap (R90, R462) -/

/-- A channel's slot is the same in both plans, on the same physical halls, and is sent at the same T_tx by each of them (R77, R90). -/
def State.slotKept (s : State) (c : Chan) : Bool :=
  let new := s.pln.standby
  match s.poolRec c.pool, Plan.poolOf new c.pool with
  | some p, some q =>
    let same := p.slots == q.slots && p.segs == q.segs && p.out == q.out && p.inn == q.inn && p.off == q.off && p.deadline == q.deadline
    let halls := p.hall == q.hall && p.twin == q.twin && s.physOf p.hall == Plan.phys new q.hall && (match p.twin with | some t => s.physOf t == Plan.phys new t | none => true)
    let sends := fun (x y : Nat) => tTx s.pln.active x (Plan.rateOf s.pln.active x) p c.slot == tTx new y (Plan.rateOf new y) q c.slot
    same && halls && sends p.hall q.hall && (match p.twin, q.twin with | some t, some u => sends t u | _, _ => true)
  | _, _ => false

/-- Channels on slots that do not carry over end with reason 1. -/
def State.swapChannels (s : State) : State :=
  s.cyc.chans.foldl (fun (s : State) (e : Nat × Chan) => if s.slotKept e.2 then s else s.unbindNow e.1 e.2 1 (s.chanWords e.2)) s

/-- A plan's program of a logical hall defines a flow. -/
def defines (b : Bytes) (l f : Nat) : Bool := (Plan.preamble (Plan.program b l)).any (fun o => Plan.opcode o == 0x70 && bitsOf o 48 37 == f)

/-- The logical halls whose connections fail: their physical hall changes, or a connection's flow is gone. -/
def State.swapStorage (s : State) : List Nat :=
  let ls := (s.sto.conns.map (fun (e : Nat × StoConn) => e.2.hall)).eraseDups
  ls.filter (fun l => s.physOf l != Plan.phys s.pln.standby l || s.sto.conns.any (fun (e : Nat × StoConn) => e.2.hall == l && !defines s.pln.standby l e.2.flow))

/-! ### The swap lands (R43, R89) -/

/-- Ports that the plan sends bursts through. -/
def burstPorts (b : Bytes) : List Nat := (List.range 8).filter (fun p => Plan.hostBursts b p true != [] || Plan.hostBursts b p false != [])

/-- What the maps of the new plan show: TSQ_MAP, duty halls, permitted remaps. -/
def State.showMaps (s : State) : State :=
  let b := s.pln.active
  let s := (List.range 16).foldl (fun (s : State) l => (s.mapHall l (Plan.phys b l)).setFld Fld.GAL_REMAP_OK_PHYS (s.pln.activeRemaps.getD l 0) 0 l) s
  (List.range 8).foldl (fun (s : State) p =>
    match (match Plan.duty b p with | some l => Plan.phys b l | none => none) with
    | some h => (s.raise Fld.CALM_DUTY_PORT_VALID 0 p).setFld Fld.CALM_DUTY_PORT_HALL h 0 p
    | none => (s.setFld Fld.CALM_DUTY_PORT_VALID 0 0 p).setFld Fld.CALM_DUTY_PORT_HALL 0 0 p) s

/-- What only a start from no active plan does: the origin is read, and what is kept since the plan started begins anew. -/
def State.beginPlan (s : State) : State :=
  let s := { s with pln := { s.pln with origin := s.originRegs, wakes := [], deferred := [] } }
  let s := (List.range 8).foldl (fun (s : State) p => (s.setFld Fld.GAL_HOSTQ_MAX_MAX_IN 0 0 p).setFld Fld.GAL_HOSTQ_MAX_MAX_OUT 0 0 p) s
  let s := (List.range 4).foldl (fun (s : State) k => s.setFld Fld.ATR_REFRESH_GAP_CLOCKS 0 0 k) s
  { s.clearCaptures with gal := { s.gal with refreshed := (List.range 64).foldl (fun (t : Tbl Nat) i => t.put i s.now) [] } }

/-- A hall's place under the plan that is now active; held: it held a plan until now. -/
def State.placeHall (s : State) (held : Bool) (h : Nat) : State :=
  let b := s.pln.active
  if Plan.used b h then
    let s := if s.frost h = 1 ∨ 2 ≤ s.frost h then s.setFrost h 0 else s
    let s := if s.fld Fld.FLT_HALL_STATE 0 h = 4 then s.hallReturns h else s
    s.takeRole h (Plan.logical b h) (!held)
  else
    let s := s.setFld Fld.TSQ_STATE_ROLE (if Plan.spare b h then 2 else 0) h
    let s := s.setFld Fld.RFX_LANDS_LANDS 0 h
    if s.fld Fld.FLT_HALL_STATE 0 h = 3 then (s.hallReturns h).setFld Fld.TSQ_STATE_STATE 0 h else s

/-- Reserve in use stays until the landing of a swap after which the hall certifies its grade without it (R535). -/
def State.releaseReserve (s : State) (h : Nat) : State :=
  if Plan.used s.pln.active h ∧ (s.age h).reserve ≠ 0 ∧ s.fld Fld.BARO_MT_W0_CERT_G 0 h ≤ Plan.reqGrade s.pln.active h then
    (s.setAge h { s.age h with reserve := 0 }).setFld Fld.BARO_MT_W1_RESERVE_MV 0 0 h
  else s

/-- The swap, or the start, takes effect. -/
def State.landSwap (s : State) (w : Swap) : State :=
  let start := !s.planActive
  let old := if start ∧ s.own.planWasRunning then [] else s.pln.active
  let s := { s with own := { s.own with planWasRunning := false } }
  let owners := (List.range 32).map s.bayOwner
  let was := s.pln.activeSource
  let fails := s.swapStorage
  let held := if start then [] else (List.range 18).filter (fun h => (s.logicalOf h).isSome)
  let s := if start then s else fails.foldl State.stoHallFail s.swapChannels
  let s := (List.range 18).foldl (fun (s : State) h => if s.roleChanges h then s.endRole h else s) s
  let added := (planLands s.pln.standby).filter (fun k => !s.inLandSet k)
  let s := added.foldl State.releaseLand s
  let s := { s with pln := { s.pln with active := s.pln.standby, standby := old, activeRemaps := s.pln.remaps, remaps := s.pln.activeRemaps, activeSource := s.fld Fld.PLN_STANDBY_STATUS_SOURCE, swap := none, overs := 0 }, cyc := { s.cyc with crx := s.cyc.crx.map (fun (e : Nat × CrxWin) => (e.1, { e.2 with past := true })) } }
  let s := s.setFld Fld.PLN_STANDBY_STATUS_SOURCE (if old = [] then 0 else was)
  let s := if start then s.beginPlan else s
  let s := (s.setFld Fld.TB_FLIGHT_LEN_L (Plan.flightLen s.pln.active)).setStandby (if old = [] then 0 else 3)
  let s := (s.setFld Fld.PLN_ACTIVE_STATUS_STATE 2).setFld Fld.PLN_ACTIVE_STATUS_STANDALONE (b2n w.standalone)
  let s := ((s.setFld Fld.PLN_ACTIVE_STATUS_REMAPPED 0).bump Fld.PLN_COUNTS_SWAPS).showSlots
  let s := (s.setFld Fld.PLN_HALL_READY_READY 0).showMaps
  let s := { s with planBursts := burstPorts s.pln.active }
  let s := (List.range 18).foldl (fun (s : State) h => match s.recov h with | some r => if r.route = 3 then s.setRecov h none else s | none => s) s
  let s := (List.range 18).foldl (fun (s : State) h => s.placeHall (held.contains h) h) s
  let s := (List.range 256).foldl (fun (s : State) l =>
    let mode := match s.bayOwner (l / 8) with | some _ => Plan.laneMode s.pln.active l | none => 0
    if s.laneMode l = mode ∧ owners.getD (l / 8) none = s.bayOwner (l / 8) then s
    else let s := s.darken l; if mode = 0 then s else s.lightLane l mode) s
  let s := (List.range 18).foldl State.releaseReserve s
  let s := s.almDev 0x0201 (leBytes 8 (Plan.serial s.pln.active) ++ sliceB (Plan.hash s.pln.active) 0 8)
  s.planDone w.cmd St.success 0 0

/-- A swap is judged at a landing of flight k: it lands, it is abandoned, or it waits. -/
def State.swapStep (s : State) (k : Nat) : State :=
  match s.pln.swap with
  | none => s
  | some w =>
    if w.epoch ≠ s.epoch then s.abandonSwap 0x44 else
    match w.named with
    | some f =>
      if k < f then s
      else if f < k then s.abandonSwap 0x43
      else
        let drains := s.swapHalls.filter (s.onlyDrains w)
        let s := drains.foldl State.forceDrain s
        if s.swapHalls.any (fun h => !(s.hallReady w h || drains.contains h)) then s.abandonSwap 0x43
        else if !s.gradesFit then s.abandonSwap 0x0E else s.landSwap w
    | none =>
      if s.swapHalls.any (fun h => !s.hallReady w h || (s.roleChanges h && !s.drained h)) ∨ (Plan.requireSync s.pln.standby ∧ !s.synced) then s
      else if !s.gradesFit then s.abandonSwap 0x0E else s.landSwap w

/-! ### The end of the plan (R91, R490, R581) -/

/-- A hall at a landing of a plan that ends: one that has drained leaves its role and enters F3, another defers it (R51). force: now. -/
def State.endHall (force : Bool) (s : State) (h : Nat) : State :=
  if !force ∧ (s.logicalOf h).isSome ∧ s.awake h ∧ !s.drained h ∧ s.pln.deferred.get 0 h < 3 then s.drainInto h 3
  else (((s.darkenHall h).endRole h).enterLevel h 3).setFld Fld.TSQ_STATE_ROLE 0 h

/-- What ends with the plan at once: channels, connections, and the programs of its halls. -/
def State.endWork (s : State) : State :=
  if s.pln.ending then s else
  let s := s.cyc.chans.foldl (fun (s : State) (e : Nat × Chan) => s.unbindNow e.1 e.2 1 (s.chanWords e.2)) s
  let s := ((s.sto.conns.map (fun (e : Nat × StoConn) => e.2.hall)).eraseDups).foldl State.stoHallFail s
  let s := (List.range 18).foldl (fun (s : State) h => if (s.logicalOf h).isSome ∧ s.running h then s.setFld Fld.TSQ_STATE_STATE 3 h else s) s
  ({ s with pln := { s.pln with ending := true, deferred := [] } }).setFld Fld.PLN_ACTIVE_STATUS_STATE 3

/-- Every used hall has entered F3: the lands of the plan's land sets are released, the active slot is EMPTY, and the commands that ended the
plan complete. -/
def State.planGone (s : State) : State :=
  let s := s.reportEnergy
  let s := ((List.range 32).filter s.inLandSet).foldl State.releaseLand s
  let s := (List.range 18).foldl (fun (s : State) h =>
    let st := s.fld Fld.FLT_HALL_STATE 0 h
    if st = 0 then s.setRecov h none else if st = 1 ∨ st = 2 then s.hallReturns h else s) s
  let cmds := s.pln.stops
  let s := { s with pln := { s.pln with active := [], activeRemaps := [], activeSource := 0, stops := [], overs := 0, wakes := [], deferred := [], lastFlight := none, ending := false }, planBursts := [] }
  let s := (s.setFld Fld.PLN_ACTIVE_STATUS_STATE (if s.pln.swap.isSome then 1 else 0)).setFld Fld.PLN_ACTIVE_STATUS_STANDALONE 0
  let s := ((s.setFld Fld.PLN_ACTIVE_STATUS_REMAPPED 0).setFld Fld.TB_FLIGHT_LEN_L 0).showMaps.showSlots
  cmds.foldl (fun (s : State) d => s.adminOk d) s

/-- A landing of a plan that ends: its used halls drain and enter F3, over as many landings as R51 lets them take. -/
def State.endPlan (s : State) (force : Bool) : State :=
  let s := (List.range 18).foldl (State.endHall force) s.endWork
  if (List.range 18).any (fun h => (s.logicalOf h).isSome) then s else s.planGone

/-- The factory trust of COMMISSION_CLEAR (R490): everything but the end of the plan. -/
def State.clearTrust (s : State) : State :=
  let s := if s.pln.swap.isSome then s.abandonSwap 0x41 else s
  let s := ({ s with pln := { s.pln with load := none } }).planDone s.pln.load St.planRejected 0x41 0
  let s := { s with pln := { s.pln with standby := [], library := [], verdict := none, remaps := [], copies := [] } }
  let s := (s.setStandby 0).showSlots
  let s := (s.keys.slots.map (fun (e : Nat × KeySlot) => e.1)).foldl State.zeroize s
  let s := { s with keys := { s.keys with keks := [] }, own := { s.own with planKeys := [], kek0 := none } }
  let s := s.showPlanKeys.setFld Fld.CPH_KEK_VALID_VALID 0
  let regs : List Reg := [.PLN_MIN_SERIAL_LO, .PLN_MIN_SERIAL_HI, .PLN_DOMAIN, .PLN_RANK, .PLN_BOOT, .PLN_POWER_BUDGET, .OWN_CFG]
  regs.foldl (fun (s : State) r => s.setWord r (r.reset 0 0)) s

end Sys2Proof.Machine
end

