-- ==== Sys2Proof/Machine/Landing.lean ====
section
/-! DEFINITION. The landing of a flight (R43), the start of a tread (R98, R133), and device standby (R57, R58). -/

namespace Sys2Proof.Machine

/-! ### Energy (R83) -/

/-- The energy of the flight that ends is published; the 64th flight in a row above ENERGY_UJ is reported. -/
def State.flightEnergy (s : State) (uj : Nat) : State :=
  let s := s.setFld Fld.PLN_ENERGY_LAST_UJ uj
  let n := if Plan.energy s.pln.active < uj then s.pln.overs + 1 else 0
  let s := { s with pln := { s.pln with overs := n } }
  if n = 64 then (s.raise Fld.PLN_ACTIVE_STATUS_ENERGY_OVER).almDev 0x0203 (leBytes 4 uj ++ leBytes 4 (Plan.energy s.pln.active)) else s

/-! ### The halves (R500, R501) -/

/-- The records of the halves: epoch and hash, as loaded from the arbiter; bad names a half that loads a record of its own. -/
def State.halfRecord (s : State) (bad : Option (Nat × Nat × Bytes)) (e : Nat) : Nat × Bytes :=
  match bad with
  | some (h, ep, hash) => if h = e then (ep, hash) else (s.epoch, Plan.hash s.pln.active)
  | none => (s.epoch, Plan.hash s.pln.active)

/-- A half fences itself. -/
def State.fence (s : State) (e : Nat) (r0 r1 : Nat × Bytes) : State :=
  if s.fld Fld.FLT_HALF_STATE 0 e = 3 then s else
  let s := ((s.raise Fld.OWN_HALF_STATE_FENCED 0 e).bump Fld.OWN_HALF_STATE_FENCES 0 e).raise Fld.OWN_FLAGS_FENCED
  let s := s.alm 0x0C06 4 0xFF 7 e (leBytes 4 r0.1 ++ leBytes 4 r1.1 ++ sliceB r0.2 0 8 ++ sliceB r1.2 0 8)
  s.halfFault e 0x10

/-- Both halves load and compare. -/
def State.compareHalves (s : State) (bad : Option (Nat × Nat × Bytes)) : State :=
  let r0 := s.halfRecord bad 0
  let r1 := s.halfRecord bad 1
  let s := (s.setFld Fld.OWN_HALF_EPOCH_EPOCH r0.1 0 0).setFld Fld.OWN_HALF_EPOCH_EPOCH r1.1 0 1
  let s := (s.setFld Fld.OWN_HALF_HASH_HASH (leAt r0.2 0 4) 0 0).setFld Fld.OWN_HALF_HASH_HASH (leAt r1.2 0 4) 0 1
  let s := { s with own := { s.own with halfHash := [(0, r0.2), (1, r1.2)] } }
  if r0.1 < r1.1 then s.fence 0 r0 r1
  else if r1.1 < r0.1 then s.fence 1 r0 r1
  else if r0.2 = r1.2 then s else s.fence 1 r0 r1

/-- The records of the halves agree. -/
def State.halvesAgree (s : State) : Bool :=
  s.fld Fld.OWN_HALF_EPOCH_EPOCH 0 0 == s.fld Fld.OWN_HALF_EPOCH_EPOCH 0 1 && s.own.halfHash.get [] 0 == s.own.halfHash.get [] 1

/-! ### Recoveries (R514 to R516, R542) -/

/-- Treads since an instant. -/
def State.treadsFrom (s : State) (t : Nat) : Nat := (s.now - t) / treadTicks

/-- A recovery is logged. -/
def State.recovered (s : State) (scope hall route since : Nat) : State :=
  s.alm 0x0D06 scope hall 0 0 (leBytes 1 scope ++ leBytes 1 route ++ leBytes 2 0 ++ leBytes 4 (s.treadsFrom since))

/-- A half returns: its halls are then dealt with one by one. -/
def State.halfReturn (s : State) (e : Nat) : State :=
  match s.flt.halfRecov.get none e with
  | none => s
  | some r =>
    if s.treadsFrom r.since < 15000 ∨ (s.fld Fld.FLT_HALF_STATE 0 e = 3 ∧ !s.halvesAgree) then s
    else
      let s := { s with flt := { s.flt with halfRecov := s.flt.halfRecov.put e none } }
      let s := (s.setFld Fld.FLT_HALF_STATE 0 0 e).setFld Fld.OWN_HALF_STATE_FENCED 0 0 e
      s.recovered 4 0xFF 0 r.since

/-- A logical hall moves from a hall to a spare, which takes it from its preamble and preloads. -/
def State.remapHall (s : State) (h x l cause : Nat) : State :=
  let s := (s.stoHallFail l).endRole h
  let s := (s.mapHall l (some x)).dropAll x
  let s := (s.setFrost x 0).takeRole x l true
  let move := fun (e : Nat × ChanHall) => if e.1 / 65536 == h then (x * 65536 + e.1 % 65536, e.2) else e
  let s := { s with cyc := { s.cyc with halls := (s.cyc.halls.map move).foldl (fun (t : Tbl ChanHall) (e : Nat × ChanHall) => t.put e.1 e.2) [] } }
  let s := s.channelsRestart x
  let s := (List.range 8).foldl (fun (s : State) p => if s.dutyHall p = some h then s.setFld Fld.CALM_DUTY_PORT_HALL x 0 p else s) s
  let s := (s.setRecov h none).setFld Fld.FLT_HALL_STATE 4 0 h
  let s := (s.enterLevel h 3).setFld Fld.TSQ_STATE_STATE 0 h
  (s.raise Fld.PLN_ACTIVE_STATUS_REMAPPED).almHall 0x0206 h (leBytes 1 l ++ leBytes 1 h ++ leBytes 1 x ++ leBytes 1 cause)

/-- A grade remap whose spare has had its wake time takes effect; functions with work there are affected (R542). -/
def State.gradeRemap (s : State) (h : Nat) : State :=
  match s.recov h with
  | some r =>
    match r.spare, r.logical with
    | some x, some l =>
      if r.route ≠ 3 ∨ s.treadsFrom r.since < r.minTreads then s
      else (((s.hallFns h).foldl (fun (s : State) f => s.functionFault f 0x34 (s.inProgress f)) s).remapHall h x l 7)
    | _, _ => s
  | none => s

/-- A faulted hall at its recovery landing (R514); no hall of a half that is down recovers. -/
def State.hallRecovers (s : State) (h : Nat) : State :=
  if s.fld Fld.FLT_HALF_STATE 0 (h / 9) ≠ 0 then s else
  match s.recov h with
  | none => s
  | some r =>
    if r.route = 0 ∧ (r.resetDone ∨ r.minTreads ≠ 0) ∧ r.minTreads ≤ s.treadsFrom r.since then
      let s := (s.hallReturns h).recovered 3 h 0 r.since
      match s.logicalOf h with
      | some l => (((s.applyPreamble h l).channelsRestart h).lightHall h).setFld Fld.TSQ_STATE_STATE 0 h
      | none => s.setFld Fld.TSQ_STATE_STATE 0 h
    else if r.route = 1 ∧ r.minTreads ≤ s.treadsFrom r.since then
      match r.spare, r.logical with
      | some x, some l => (s.remapHall h x l r.cause).recovered 3 x 1 r.since
      | _, _ => s
    else s

/-! ### Frost transitions (R50 to R54, R80) -/

/-- A hall returns to F0 at a landing. -/
def State.wakeHall (s : State) (h : Nat) : State :=
  let s := (if s.frost h = 2 then { s with fw := { s.fw with renew := s.fw.renew.put h 32768 } } else s).setFrost h 0
  match s.logicalOf h with
  | some l => (((((s.preload h l).applyPreamble h l).showLands h l).showCipherMax h l).lightHall h).setFld Fld.CALM_HALL_STATE_GRADE (Plan.reqGrade s.pln.active ((Plan.phys s.pln.active l).getD h)) 0 h
  | none => s.setFld Fld.CALM_HALL_STATE_GRADE 0 0 h

/-- A hall that runs this flight. -/
def State.upFor (s : State) (k h l : Nat) (all : Bool) (reload : List Nat) : State :=
  if s.awake h then
    let s := { s with pln := { s.pln with deferred := s.pln.deferred.del h } }
    (s.setFld Fld.CALM_HALL_STATE_DRAIN_WAIT 0 0 h).setFld Fld.TSQ_STATE_STATE 2 h
  else if reload.contains h then (s.raise Fld.PLN_ACTIVE_STATUS_RELOAD_FAIL).hallFault h 4
  else if all ∨ (s.pln.wakes.get [] l).contains k then (s.wakeHall h).setFld Fld.TSQ_STATE_STATE 2 h
  else s.hallFault h 3

/-- One hall's transition at the landing of flight k. all: the device resumes from F4, and this is the landing at which every used hall reaches F0
(R58), before the schedule sends a hall that does not run in flight k to its level. -/
def State.frostStep (s : State) (k : Nat) (all : Bool) (reload : List Nat) (h : Nat) : State :=
  if s.fld Fld.FLT_HALL_STATE 0 h ≠ 0 then s else
  let forSwap := match s.pln.swap with | some w => Plan.used s.pln.standby h && s.wokenFor w h | none => false
  match s.logicalOf h with
  | some l =>
    if Plan.runsIn s.pln.active l k then s.upFor k h l all reload
    else if all ∧ !s.awake h ∧ reload.contains h then (s.raise Fld.PLN_ACTIVE_STATUS_RELOAD_FAIL).hallFault h 4
    else
    let s := if all ∧ !s.awake h then s.wakeHall h else s
    if forSwap then (if s.awake h then s else s.wakeHall h).setFld Fld.TSQ_STATE_STATE 0 h
    else if s.awake h then s.drainInto h (Plan.waitLevel s.pln.active l) else s
  | none =>
    let level := if s.fld Fld.TSQ_STATE_ROLE h = 2 then Plan.idleFrost s.pln.active h else 3
    let target := if s.holdsRegion h then min 2 level else level
    if forSwap then (if s.awake h then s else s.wakeHall h)
    else if s.awake h ∨ s.frost h < target then s.drainInto h target
    else if target = 2 ∧ s.frost h = 3 then (s.setFrost h 2).setFld Fld.CALM_HALL_STATE_TARGET 2 0 h
    else s

/-- What is scheduled for the next landing (CALM_HALL_STATE). -/
def State.showNext (s : State) (k h : Nat) : State :=
  let show_ := fun (s : State) (p t : Nat) => (s.setFld Fld.CALM_HALL_STATE_PENDING p 0 h).setFld Fld.CALM_HALL_STATE_TARGET t 0 h
  match s.logicalOf h with
  | some l =>
    let runs := Plan.runsIn s.pln.active l (k + 1)
    if s.awake h ∧ !runs then show_ s 1 (Plan.waitLevel s.pln.active l)
    else if !s.awake h ∧ runs ∧ (s.pln.wakes.get [] l).contains (k + 1) then show_ s 1 0
    else show_ s 0 (s.frost h)
  | none => show_ s (s.fld Fld.CALM_HALL_STATE_DRAIN_WAIT 0 h) (if s.flag Fld.CALM_HALL_STATE_DRAIN_WAIT 0 h then s.fld Fld.CALM_HALL_STATE_TARGET 0 h else s.frost h)

/-! ### The landing (R43) -/

/-- Grades that the active plan requires; an unused hall at F0 or F1 runs at G0 (R46). -/
def State.gradesLand (s : State) : State :=
  (List.range 18).foldl (fun (s : State) h =>
    match s.logicalOf h with
    | some l => s.setFld Fld.CALM_HALL_STATE_GRADE (Plan.reqGrade s.pln.active ((Plan.phys s.pln.active l).getD h)) 0 h
    | none => s.setFld Fld.CALM_HALL_STATE_GRADE 0 0 h) s

/-- What is counted per flight begins anew. -/
def State.newFlight (s : State) : State :=
  let s := (List.range 18).foldl (fun (s : State) h => (s.setSeq h { s.seq h with issues := [] }).setFld Fld.FWD_FLOOD_USED_COUNT 0 h) s
  { s with vfn := { s.vfn with used := [] }, bpm := { s.bpm with logged := [] } }

/-- Drains of R411 and R436 count a landing. -/
def Drain.land (d : Drain) : Drain := { d with landings := d.landings - 1 }
def State.drainsLand (s : State) : State :=
  { s with ep := { s.ep with fns := s.ep.fns.map (fun (e : Nat × FnSt) => (e.1, { e.2 with drain := e.2.drain.map Drain.land, quiesce := e.2.quiesce.map (fun (q : AdminCmd × Drain) => (q.1, q.2.land)) })) } }

/-- Staged values and commands that take effect at a landing after the steps of R43. -/
def State.stagedLand (s : State) (k : Nat) : State :=
  let s := (((s.wideLand.channelsLand).bridgeLand).ceilingsLand).ageLand k
  let hand := s.handoffPending
  let s := hand.foldl State.handoffLand { s with handoffPending := [] }
  let cfg := s.dma.cfgNew
  (cfg.foldl State.cfgLand { s with dma := { s.dma with cfgNew := [] } }).drainsLand

/-- A landing of the plan, in the order of R43. -/
def State.land43 (s : State) (uj : Nat) (reload : List Nat) (bad : Option (Nat × Nat × Bytes)) (k : Nat) : State :=
  let all := s.tb.wakeAt.isSome
  let s := { s.cycFlight with tb := { s.tb with wakeAt := none }, pln := { s.pln with lastFlight := some k } }
  let s := (if k = 0 then s else s.flightEnergy uj).applyOwnerChange.compareHalves bad
  if s.flt.deviceFault.isSome then s else
  let ends := s.pln.stops != [] || s.own.clearCmd.isSome
  if ends then
    let cmd := s.own.clearCmd
    let s := s.endPlan false
    let s := match cmd with
      | some d => if s.planActive then s else (({ s with own := { s.own with clearCmd := none } }).clearTrust).adminOk d
      | none => s
    (s.sharesLand.newFlight).stagedLand k
  else
    let s := s.swapStep k
    let k' := if s.planActive then s.flightNow else k
    let s := ((List.range 18).foldl State.gradeRemap s).gradesLand.sharesLand
    let s := (List.range 2).foldl State.halfReturn s
    let s := (List.range 18).foldl State.hallRecovers s
    let s := (List.range 18).foldl (fun (s : State) h => s.frostStep k' all reload h) s
    let s := (List.range 18).foldl (fun (s : State) h => s.showNext k' h) s
    let s := { s with pln := { s.pln with lastFlight := some k', wakes := s.pln.wakes.map (fun (e : Nat × List Nat) => (e.1, e.2.filter (fun f => decide (k' < f)))) } }
    s.newFlight.stagedLand k'

/-! ### Treads (R25, R49, R98, R102, R133, R175) -/

/-- An op that counts as issued (R102). -/
def issues (o : Nat) : Bool := !(([0, 0x55, 0x56, 0x57] : List Nat).contains (Plan.opcode o))

/-- An op of an earlier tread still occupies a block of the hall (R49, R131). -/
def State.occupied (s : State) (h : Nat) : Bool :=
  decide (s.now < (s.seq h).busy) || s.gal.moves.any (fun m => m.hall == h) || s.dma.bursts.any (fun b => b.hall == h) ||
    s.cyc.crx.any (fun (e : Nat × CrxWin) => e.1 / 65536 == h && decide (s.now < e.2.deadline))

/-- F1 gating at the start of a tread (R49): a hall that issues no op and in which none still occupies a block stops its clocks, unless an access
to its window was served at this boundary. -/
def State.gate (s : State) (h : Nat) (issuing : Bool) : State :=
  s.setFrost h (if issuing ∨ s.occupied h ∨ (s.seq h).touched = some s.now then 0 else 1)

/-- One hall at the start of tread n: it fetches or holds a bundle; err: 0 none, 1 a single-bit error, corrected, 2 an uncorrectable
one, 3 one that makes a reserved opcode. -/
def State.treadHall (s : State) (n err h : Nat) : State :=
  let s := s.learnsBefore h s.now
  if !s.running h then (if s.awake h then s.gate h false else s) else
  match s.logicalOf h with
  | none => s
  | some l =>
    if err = 2 then s.hallFault h 1
    else if err = 3 then s.hallFault h 2
    else
      let s := if err = 1 then s.bump Fld.TSQ_CNT_ECC_COUNT h else s
      let prog := Plan.program s.pln.active l
      match Plan.treadPlace prog n with
      | none => s
      | some (i, covered, left) =>
        let bd := prog.getD i []
        let ops := if covered then [0, Plan.slot bd 1, 0, 0] else bd
        let q := s.seq h
        let s := s.setSeq h { q with ops := ops, tread := n, start := s.now, win := {}, former := [] }
        let s := ((s.setFld Fld.TSQ_BUNDLE_INDEX i h).setFld Fld.TSQ_BUNDLE_SKIPPING (b2n covered) h).setFld Fld.TSQ_SKIP_LEFT_LEFT left h
        s.gate h (ops.any issues)

/-- The snapshots of the event lands move on: kernels read the level at the start of the tread before, also in the first tread of a plan, and the capture
that stood there (R175). -/
def State.snapLands (s : State) : State :=
  (List.range 32).foldl (fun (s : State) k =>
    let l := s.land k
    s.setLand k { l with snap := (l.levelAt (s.now - treadTicks), l.snapNext.2), snapNext := (l.pin, l.latest, s.fld Fld.EVT_CAP_INFO_COUNT 0 k) }) s

/-! ### Device standby (R57 to R59) -/

/-- Every function of every port is in D3hot or D3cold or has its link down. -/
def State.allAsleep (s : State) : Bool :=
  (List.range 8).all (fun p => !s.flag Fld.EP_PORT_MAP_EN 0 p || !s.flag Fld.EP_PORT_STATUS_LINK_UP 0 p || (s.portFns p).all (fun f => !s.inD0 f))

/-- A wake source of R58's table is enabled and has fired. -/
def State.wakes (s : State) (reason : Nat) : Bool :=
  match reason with
  | 1 => s.flag Fld.CALM_STANDBY_WAKE_D0 && !s.allAsleep
  | 2 => s.flag Fld.CALM_STANDBY_WAKE_PERST && s.flag Fld.CALM_PERST_EDGE
  | 3 => s.flag Fld.CALM_STANDBY_WAKE_EVT && Nat.land (s.fld Fld.CALM_EVT_IN_EDGE) (s.fld Fld.CALM_EVT_WAKE_EN_EN) != 0
  | 4 => s.flag Fld.CALM_STANDBY_WAKE_LANE && (List.range 8).any (fun i => s.flag Fld.CALM_LANE_ED_ED 0 i)
  | _ => false

/-- The reload of the active plan fails with a reason of R82: the device stays at F4 with the plan slot empty (R58, R481). -/
def State.resumeFails (s : State) (r : Nat) : State :=
  let s := s.endPlan true
  let s := { s with tb := { s.tb with hadPlan := false } }
  let s := ((s.raise Fld.OWN_FLAGS_RESTORE_FAIL).setFld Fld.OWN_BOOT_STATUS_REASON r).almDev 0x0104 (leBytes 1 r)
  if s.ownerValid && s.flag Fld.EP_PORT_STATUS_LINK_UP 0 (portOf s.ownerFn) then s.eventOwner 0x05 (leBytes 1 r)
  else { s with own := { s.own with restoreEvent := some r } }

/-- The device leaves F4: the next landing of its plan comes once the halls have had their wake time. -/
def State.leaveF4 (s : State) (reason : Nat) : State :=
  let s := ((s.setFld Fld.CALM_STATE_STANDBY 0).setFld Fld.CALM_STATE_WAKE_REASON reason).setFld Fld.CALM_STANDBY_REQ 0
  let s := ((s.setFld Fld.ATR_STATUS_POWERED 15).raise Fld.EVT_STATUS_POWERED).almDev 0x0103 (leBytes 1 reason)
  let s := ((List.range 18).filter s.holdsRegion).foldl (fun (s : State) h => (s.setFrost h 2).setFld Fld.CALM_HALL_STATE_TARGET 2 0 h) s
  let up := s.now + 15000 * treadTicks
  let sw := s.pln.swap.map (fun (w : Swap) => { w with woken := w.woken.map (fun (e : Nat × Nat) => (e.1, up)) })
  let s := { s with pln := { s.pln with swap := sw } }
  if s.tb.hadPlan then { s with tb := { s.tb with wakeAt := some up } } else s

/-- STANDBY_WAKE (R58): an enabled source fires at F4. fail is the reason with which the reload of the active plan fails, if it does. -/
def execStandbyWake (reason : Nat) (fail : Option Nat) (at_ : Nat) (s : State) : Answer :=
  let s := s.atTime at_
  if !s.atF4 ∨ !s.wakes reason then .next s
  else match fail with
    | some r => .next (if s.tb.hadPlan then s.resumeFails r else s.leaveF4 reason)
    | none => .next (s.leaveF4 reason)

end Sys2Proof.Machine
end

