-- ==== Sys2Proof/Machine/Host.lean ====
section
/-! DEFINITION. Host ports and functions from outside (chapter 15): function-level and port resets, link-up and link-down, virtual
functions coming and going, windows and BAR4 requests, completions of the device's own requests and their timeouts. -/

namespace Sys2Proof.Machine

/-! ### Function Level Reset (R422) -/

/-- A function's queues and CQs are destroyed without records; index generations advance. -/
def State.dropRings (s : State) (f : Nat) : State :=
  let qs := (s.wq.queues.filter (fun (e : Nat × Queue) => e.2.present && e.2.fn == f && decide (e.1 < 65536))).map (fun e => e.1)
  let cs := (s.wq.cqs.filter (fun (e : Nat × Cq) => e.2.present && e.2.fn == f && decide (e.1 < 65536))).map (fun e => e.1)
  let s := qs.foldl (fun (s : State) k => (s.setQueue k {}).nextGen 1 k) s
  let s := cs.foldl (fun (s : State) k => (s.setCq k {}).nextGen 2 k) s
  let s := { s with wq := { s.wq with pages := s.wq.pages.filter (fun e => e.1 / 65536 != f), dueIrqs := s.wq.dueIrqs.filter (fun e => e.1 != f) } }
  let s := { s with handoffs := s.handoffs.filter (fun e => !qs.contains e.2.2), handoffPending := s.handoffPending.map (fun (e : AdminCmd × Option (Nat × Nat)) => (e.1, e.2.filter (fun (b : Nat × Nat) => !qs.contains b.2))) }
  let s := { s with sto := { s.sto with conns := s.sto.conns.map (fun (e : Nat × StoConn) => if qs.contains e.2.sq then (e.1, { e.2 with sq := 0 }) else e) } }
  let s := (List.range 18).foldl State.showStage s
  (s.setFld Fld.WQ_QUEUES_QUEUES (s.fld Fld.WQ_QUEUES_QUEUES - qs.length)).setFld Fld.WQ_QUEUES_CQS (s.fld Fld.WQ_QUEUES_CQS - cs.length)

/-- Key slots that a function loaded are erased (R302): a slot with a key is REVOKING from the next tread boundary, a load under way is
given up. -/
def State.eraseKeysOf (s : State) (f : Nat) : State :=
  let fresh := (s.keys.loads.filter (fun l => l.cmd.fn == f && l.fresh && decide (l.target < 65536))).map (fun l => l.target)
  let s := { s with keys := { s.keys with loads := s.keys.loads.filter (fun l => l.cmd.fn != f) } }
  let s := fresh.foldl (fun (s : State) k => s.setSlot k {}) s
  let ks := (s.keys.slots.filter (fun (e : Nat × KeySlot) => e.2.loader == f && decide (2 ≤ e.2.state) && e.2.eraseAt.isNone)).map (fun e => e.1)
  ks.foldl (fun (s : State) k => s.setSlot k { s.slot k with eraseAt := some s.nextTread }) s

/-- The registers of a function's page, and its WQ_FN registers, return to their reset values; its fault epoch is kept (R510). -/
def State.initPage (s : State) (f : Nat) : State :=
  let b := 0x30000000 + 0x10000 * f
  ((s.initRange b (b + 0xC000)).initRange (b + 0xC004) (b + 0x10000)).initRange (0x0C100000 + 0x100 * f) (0x0C100000 + 0x100 * f + 0x100)

/-- Everything that the FLR table resets of one function, its work discarded under fault semantics. Its share, and a quiesced VF's
state, stay; a quiesce under way ends with nothing left to drain (R444). -/
def State.resetFn (s : State) (f : Nat) : State :=
  let s := s.stopLog f
  let s := s.functionFault f 0x31 (s.inProgress f)
  let s := (s.dropRings f).resetAdminRings f
  let s := (s.eraseKeysOf f).initPage f
  let s := { s with bpm := { s.bpm with owners := s.bpm.owners.map (fun (e : Nat × BufOwner) => if e.2.fn = f then (e.1, { e.2 with fn := 8192 }) else e) } }
  let t := s.fn f
  let s := s.setFn f { vstate := t.vstate, quiesce := t.quiesce, admitWait := t.admitWait, logBits := t.logBits, logLines := t.logLines }
  s.quiesced f

/-- Virtual functions cease to exist: each is reset as by its own FLR. -/
def State.endVfs (s : State) (vs : List Nat) : State :=
  vs.foldl (fun (s : State) f => let s := s.resetFn f; s.setFn f { admitWait := (s.fn f).admitWait, logBits := (s.fn f).logBits, logLines := (s.fn f).logLines }) s

/-- VF Enable and NumVFs take values (R425). -/
def State.setVfs (s : State) (p : Nat) (en : Bool) (n : Nat) : State :=
  let old := (s.portFns p).filter (fun f => !isPf f)
  let s := s.endVfs (old.filter (fun f => !(en && decide (f % 1024 ≤ n))))
  ((s.setFld Fld.VFN_PORT_VF_EN (b2n en) 0 p).setFld Fld.VFN_PORT_NUM_VFS n 0 p).showLogs p

/-- VF_ENABLE_WRITE (R425, R441): NumVFs above 512 is ignored. -/
def execVfEnableWrite (p : Nat) (en : Bool) (n at_ : Nat) (s : State) : Answer :=
  let s := s.atTime at_
  if 8 ≤ p ∨ !s.fnExists (1024 * p) then .next s
  else .next (s.setVfs p en (if n ≤ 512 then n else s.fld Fld.VFN_PORT_NUM_VFS 0 p))

/-- The port settings that a PF's configuration space holds return to their defaults; AER's bits are sticky. -/
def State.initPort (s : State) (p : Nat) : State :=
  let h := s.hp p
  let s := s.setHp p { perst := h.perst, reqs := h.reqs, nextTag := h.nextTag, late := h.late, idleSince := h.idleSince, aerUncorr := h.aerUncorr, aerCorr := h.aerCorr, aerMask := h.aerMask, aerSev := h.aerSev, aerCorrMask := h.aerCorrMask }
  (s.setFld Fld.EP_PORT_CPL_CTO_US 50000 0 p).setFld Fld.EP_PORT_STATUS_PF_D3 0 0 p

/-! ### What the link and the settings allow (R147, R399, R416) -/

/-- Planned read-ahead of a port, in octets: 64 treads of its planned rate (R351, R416). -/
def State.readAhead (s : State) (p : Nat) : Nat :=
  32 * flitRate (s.fld Fld.EP_PORT_MAP_WIDTH 0 p + 2) (s.fld Fld.EP_PORT_CFG_GEN 0 p) * 128

/-- The condition of R416 fails. -/
def State.readShort (s : State) (p : Nat) : Bool :=
  let h := s.hp p
  decide (h.tagLimit - 64 < ceilDiv (s.readAhead p) (128 * 2 ^ h.mrrs) + 1)

/-- The link runs below its configuration, or the payload size is below 512 octets. -/
def State.linkSlow (s : State) (p : Nat) : Bool :=
  decide (s.fld Fld.EP_PORT_STATUS_WIDTH 0 p < s.fld Fld.EP_PORT_MAP_WIDTH 0 p + 2) || decide (s.fld Fld.EP_PORT_STATUS_GEN 0 p < s.fld Fld.EP_PORT_CFG_GEN 0 p) ||
    decide ((s.hp p).mps < 2)

/-- Evaluate both, at every link training and at every change of the settings. -/
def State.showRates (s : State) (p : Nat) : State :=
  let s := s.setFld Fld.EP_PORT_STATUS_READ_SHORT (b2n (s.readShort p)) 0 p
  if s.flag Fld.EP_PORT_STATUS_LINK_UP 0 p ∧ (s.readShort p ∨ s.linkSlow p) then s.raise Fld.GAL_STATUS_HOST_SLOW else s

/-- FLR (R422). A PF's FLR also clears VF Enable, which resets every VF of the port. Until FLR_COMPLETE the function answers memory
requests with UR. -/
def execFlr (f at_ : Nat) (s : State) : Answer :=
  let s := s.atTime at_
  if !s.fnExists f then .next s else
  let p := portOf f
  let s := s.bump Fld.EP_CNT_FLR_COUNT 0 p
  let s := if isPf f then ((s.setVfs p false 0).resetFn f).initPort p else s.resetFn f
  let s := s.raise Fld.EP_FN_STATE_FLR_BUSY f
  .next (if isPf f then (s.showBlocked p).showRates p else s)

/-- FLR_COMPLETE (R422). -/
def execFlrComplete (f at_ : Nat) (s : State) : Answer :=
  let s := s.atTime at_
  if !s.flag Fld.EP_FN_STATE_FLR_BUSY f then .next s
  else .next (s.setFld Fld.EP_FN_STATE_FLR_BUSY 0 f)

/-! ### Port resets and link state (R48, R410, R491, R494) -/

/-- A port reset resets every function of the port as by FLR, but for those that keep counting as in D3cold; requests outstanding and
packets waiting at the port are lost. -/
def State.portReset (s : State) (p : Nat) (cold : List Nat) : State :=
  let fs := (s.portFns p).filter (fun f => !cold.contains f)
  let pf := fs.contains (1024 * p)
  let s := if pf then s.setVfs p false 0 else (fs.filter (fun f => !isPf f)).foldl State.resetFn s
  let s := if pf then (s.resetFn (1024 * p)).initPort p else s
  let logs := (s.ep.fns.filter (fun (e : Nat × FnSt) => match e.2.log with | some l => l.issuer == 1024 * p && !l.failed | none => false)).map (fun e => e.1)
  let s := logs.foldl State.failLog s
  let s := s.setHp p { s.hp p with reqs := [], late := [], nextTag := 0 }
  { s with ep := { s.ep with tlps := s.ep.tlps.del p } }.showTags p

/-- The link is down; a port whose PERST# is deasserted trains again. -/
def State.linkLost (s : State) (p : Nat) : State :=
  let s := ((s.setFld Fld.EP_PORT_STATUS_LINK_UP 0 0 p).setFld Fld.EP_PORT_STATUS_FLIT 0 0 p).setFld Fld.EP_PORT_STATUS_WIDTH 0 0 p
  let s := (s.setFld Fld.EP_PORT_STATUS_GEN 0 0 p).setFld Fld.EP_PORT_STATUS_LSTATE (if (s.hp p).perst then 0 else 4) 0 p
  s.showBlocked p

/-- PERST_EDGE (R48, R491): the latch sets on either edge; an assertion resets the port, a deassertion starts its
training. The edges of a disabled port do nothing else than change its level (R395). -/
def execPerstEdge (p : Nat) (asserted : Bool) (at_ : Nat) (s : State) : Answer :=
  let s := s.atTime at_
  if 8 ≤ p ∨ (s.hp p).perst = asserted then .next s else
  let s := s.setHp p { s.hp p with perst := asserted }
  if !s.flag Fld.EP_PORT_MAP_EN 0 p then .next s else
  let s := s.setFld Fld.CALM_PERST_EDGE (putBits (s.fld Fld.CALM_PERST_EDGE) p p 1)
  let s := if asserted then s.portReset p [] else s
  .next (s.linkLost p)

/-- HOST_LINK_UP (R494, R396): the port has trained to a generation and a width code of EP_PORT_STATUS, within its configuration, and is
in L0. Functions that counted as in D3cold are reset; WAKE_N is released (R412); the report of a failed reload reaches its owner (R481). -/
def execHostLinkUp (p gen width : Nat) (flit : Bool) (at_ : Nat) (s : State) : Answer :=
  let s := s.atTime at_
  if 8 ≤ p ∨ !s.flag Fld.EP_PORT_MAP_EN 0 p ∨ (s.hp p).perst ∨ s.flag Fld.EP_PORT_STATUS_LINK_UP 0 p ∨ !s.own.powered ∨
      s.fld Fld.EP_PORT_CFG_GEN 0 p < gen ∨ s.fld Fld.EP_PORT_MAP_WIDTH 0 p + 2 < width then .next s
  else
    let cold := (s.portFns p).filter (fun f => s.flag Fld.EP_FN_STATE_D3COLD f)
    let s := if cold = [] then s else s.portReset p []
    let s := ((s.raise Fld.EP_PORT_STATUS_LINK_UP 0 p).setFld Fld.EP_PORT_STATUS_GEN gen 0 p).setFld Fld.EP_PORT_STATUS_WIDTH width 0 p
    let s := (s.setFld Fld.EP_PORT_STATUS_FLIT (b2n (flit || gen == 3)) 0 p).setFld Fld.EP_PORT_STATUS_LSTATE 1 0 p
    let s := if s.flag Fld.EP_PORT_STATUS_WAKE_N 0 p then (s.setFld Fld.EP_PORT_STATUS_WAKE_N 0 0 p).emit (.pin 1 p true) else s
    let s := s.setHp p { s.hp p with idleSince := s.now }
    let s := (s.showBlocked p).showRates p
    .next (match s.own.restoreEvent with
      | some r => if s.ownerValid ∧ portOf s.ownerFn = p then ({ s with own := { s.own with restoreEvent := none } }).eventOwner 0x05 (leBytes 1 r) else s
      | none => s)

/-- HOST_LINK_DOWN (R410, R491): functions in D3hot count as in D3cold from now on and keep their state until they leave it; the others are
reset. -/
def execHostLinkDown (p at_ : Nat) (s : State) : Answer :=
  let s := s.atTime at_
  if 8 ≤ p ∨ !s.flag Fld.EP_PORT_STATUS_LINK_UP 0 p then .next s
  else
    let cold := (s.portFns p).filter (fun f => !s.inD0 f)
    let s := cold.foldl (fun (s : State) f => s.raise Fld.EP_FN_STATE_D3COLD f) s
    .next ((s.portReset p cold).linkLost p)

/-- HOT_RESET (R491). -/
def execHotReset (p at_ : Nat) (s : State) : Answer :=
  let s := s.atTime at_
  if 8 ≤ p ∨ !s.flag Fld.EP_PORT_STATUS_LINK_UP 0 p then .next s
  else .next ((s.portReset p []).linkLost p)

/-! ### Windows (R404 to R407, R427, R431) -/

/-- An entry of a window table. -/
structure WinEntry where
  valid : Bool
  rd : Bool
  wr : Bool
  rsv : Bool
  kind : Nat
  index : Nat
  twin : Bool
  pool : Nat
  sizeLog2 : Nat
  bar : Nat
  target : Nat
deriving DecidableEq, Repr

def winEntry (w0 w1 w2 w3 : Nat) : WinEntry :=
  { valid := bitOf w0 31, rd := bitOf w0 30, wr := bitOf w0 29, rsv := bitsOf w0 28 27 != 0 || bitsOf w0 18 16 != 0, kind := bitsOf w0 26 24, index := bitsOf w0 23 20,
    twin := bitOf w0 19, pool := bitsOf w0 15 0, sizeLog2 := bitsOf w1 31 26, bar := bitsOf w1 25 0 * 4096, target := w2 + 2 ^ 32 * w3 }

def State.shadowWin (s : State) (f w : Nat) : WinEntry :=
  winEntry (s.word .EP_WIN_SHADOW_W0 f w).toNat (s.word .EP_WIN_SHADOW_W1 f w).toNat (s.word .EP_WIN_SHADOW_W2 f w).toNat (s.word .EP_WIN_SHADOW_W3 f w).toNat
def State.liveWin (s : State) (f w : Nat) : WinEntry :=
  winEntry (s.word .EP_WIN_LIVE_W0 f w).toNat (s.word .EP_WIN_LIVE_W1 f w).toNat (s.word .EP_WIN_LIVE_W2 f w).toNat (s.word .EP_WIN_LIVE_W3 f w).toNat

def WinEntry.size (e : WinEntry) : Nat := 2 ^ e.sizeLog2

/-- BAR4 of a PF or a VF, in octets (R402). -/
def bar4Size (f : Nat) : Nat := if isPf f then 2 ^ 38 else 2 ^ 30

/-- Reserved bits are 0, and fields that the entry's KIND does not use are 0. -/
def WinEntry.clean (e : WinEntry) : Bool :=
  !e.rsv && (if e.kind == 3 then e.index == 0 else !e.twin && e.pool == 0)

/-- The target range obeys R404; a pool that is not in the plan is judged by the next check. -/
def State.winRange (s : State) (e : WinEntry) : Bool :=
  e.target % 4096 == 0 && (match e.kind with
    | 1 => decide (e.index < 4) && decide (e.target + e.size ≤ stackSize)
    | 2 => decide (e.target + e.size ≤ alcoveTop)
    | _ => match s.poolRec e.pool with
      | some p => decide (e.target + e.size ≤ Plan.Pool.extent p)
      | none => true)

/-- What the entry names is part of the active plan. -/
def State.winKnown (s : State) (e : WinEntry) : Bool :=
  match e.kind with
  | 2 => s.planActive && s.flag Fld.TSQ_MAP_VALID 0 e.index
  | 3 => s.planActive && (match s.poolRec e.pool with
      | some p => !e.twin || p.twin.isSome
      | none => false)
  | _ => true

/-- The target lies in what the function's share grants (R427); the owner is not bound. -/
def State.winGranted (s : State) (f : Nat) (e : WinEntry) : Bool :=
  s.isOwner f || (match e.kind with
    | 1 => bitOf (s.shareAt f 0x48 1) 7 && s.shareAt f 0x48 1 % 4 == e.index && decide (s.shareAt f 0x50 8 ≤ e.target) &&
        decide (e.target + e.size ≤ s.shareAt f 0x50 8 + s.shareAt f 0x58 8)
    | 3 => bitOf (s.shareAt f 0x62 1) 0 && s.shareAt f 0x60 2 == e.pool && (!e.wr || bitOf (s.shareAt f 0x62 1) 1) && (!e.twin || bitOf (s.shareAt f 0x62 1) 2)
    | _ => false)

/-- The first check that a valid shadow entry fails (R406); 0 when it passes. others are the table's other valid entries. -/
def State.winCheck (s : State) (f : Nat) (e : WinEntry) (others : List WinEntry) : Nat :=
  if !e.clean then 1
  else if !(decide (1 ≤ e.kind) && decide (e.kind ≤ 3) && (e.rd || e.wr)) then 2
  else if !(decide (12 ≤ e.sizeLog2) && decide (e.sizeLog2 ≤ if isPf f then 36 else 30)) then 3
  else if !(e.bar % e.size == 0 && decide (e.bar + e.size ≤ bar4Size f)) then 4
  else if others.any (fun x => decide (x.bar < e.bar + e.size) && decide (e.bar < x.bar + x.size)) then 5
  else if !s.winRange e then 6
  else if !s.winKnown e then 7
  else if !s.winGranted f e then 8
  else 0

/-- Copy one table's words to the other. -/
def State.copyWins (s : State) (f : Nat) (toLive : Bool) : State :=
  (List.range 64).foldl (fun (s : State) w =>
    if toLive then
      (((s.setWord .EP_WIN_LIVE_W0 (s.word .EP_WIN_SHADOW_W0 f w) f w).setWord .EP_WIN_LIVE_W1 (s.word .EP_WIN_SHADOW_W1 f w) f w).setWord .EP_WIN_LIVE_W2
        (s.word .EP_WIN_SHADOW_W2 f w) f w).setWord .EP_WIN_LIVE_W3 (s.word .EP_WIN_SHADOW_W3 f w) f w
    else
      (((s.setWord .EP_WIN_SHADOW_W0 (s.word .EP_WIN_LIVE_W0 f w) f w).setWord .EP_WIN_SHADOW_W1 (s.word .EP_WIN_LIVE_W1 f w) f w).setWord .EP_WIN_SHADOW_W2
        (s.word .EP_WIN_LIVE_W2 f w) f w).setWord .EP_WIN_SHADOW_W3 (s.word .EP_WIN_LIVE_W3 f w) f w) s

/-- The first valid shadow entry that fails, with its reason. -/
def State.winFail (s : State) (f : Nat) : Option (Nat × Nat) :=
  let all := (List.range 64).map (fun w => (w, s.shadowWin f w))
  let valid := all.filter (fun e => e.2.valid)
  valid.findSome? (fun e =>
    let r := s.winCheck f e.2 ((valid.filter (fun x => x.1 != e.1)).map (fun x => x.2))
    if r = 0 then none else some (e.1, r))

/-- The sender may write a function's page: the function, the owner through EP_FSEL, or management firmware (R424, R577). -/
def State.mayPage (s : State) (who : Who) (f : Nat) : Bool :=
  match who with
  | .fn g => g == f || s.isOwner g
  | .core _ => true

/-- WIN_COMMIT (R406). -/
def execWinCommit (who : Who) (f : Nat) (s : State) : Answer :=
  if !s.mayPage who f ∨ !s.fnExists f then .next s
  else match s.winFail f with
    | some (w, r) => .next (((s.raise Fld.EP_WIN_STATUS_ERROR f).setFld Fld.EP_WIN_STATUS_ENTRY w f).setFld Fld.EP_WIN_STATUS_REASON r f)
    | none => .next (s.copyWins f true)

/-- WIN_LOAD (R407). -/
def execWinLoad (who : Who) (f : Nat) (s : State) : Answer :=
  if !s.mayPage who f ∨ !s.fnExists f then .next s else .next (s.copyWins f false)

/-- A request is answered with UR and counted (R420); a posted one is discarded. -/
def State.answerUr (s : State) (f : Nat) (posted : Bool) : State :=
  let p := portOf f
  let s := (s.bump Fld.EP_CNT_UR_COUNT 0 p).aer p 20 (!posted)
  if posted then s else s.emit (.unsupported p)

/-- A function accepts memory requests: it exists, it is in D0, no FLR is in progress (R410, R422). -/
def State.takesMem (s : State) (f : Nat) : Bool := s.fnExists f && s.inD0 f && !s.flag Fld.EP_FN_STATE_FLR_BUSY f

/-- The physical place of a window's target: 1 Atrium stack, 2 alcove; which; the address of its first octet. -/
def State.winPlace (s : State) (e : WinEntry) : Option (Nat × Nat × Nat) :=
  match e.kind with
  | 1 => some (1, e.index, e.target)
  | 2 => (s.physOf e.index).map (fun h => (2, h, e.target))
  | 3 => match s.poolRec e.pool with
    | some p => match (if e.twin then p.twin else some p.hall) with
      | some l => (s.physOf l).map (fun h => (2, h, p.off + e.target))
      | none => none
    | none => none
  | _ => none

/-- A read of a window's memory, and whether some of it is poisoned; an alcove at F3 holds nothing (R49). -/
def State.winRead (s : State) (k i a n : Nat) : Bytes × Bool :=
  if k = 1 then (s.atriumRead i a n, (unitsOf 512 a n).any (fun u => s.beatBad i (u * 512)))
  else (s.alcoveRead i a n, s.alcoveBad i a n)
def State.winWrite (s : State) (k i a : Nat) (b : Bytes) : State :=
  if k = 1 then s.putAtrium i a b
  else if s.frost i = 3 then s else s.putAlcove i a b

/-- BAR4_REQUEST (R404, R405, R420): a read of len octets, or a write of data, at an offset of BAR4. -/
def execBar4Request (f : Nat) (write : Bool) (off len : Nat) (data : Bytes) (poisoned : Bool) (s : State) : Answer :=
  let p := portOf f
  let n := if write then data.length else len
  if !s.takesMem f then .next (if s.fnExists f then s.answerUr f write else s)
  else if write ∧ poisoned then .next (s.aer p 12 true)
  else
    match ((List.range 64).map (fun w => s.liveWin f w)).find? (fun e => e.valid && decide (e.bar ≤ off) && decide (off < e.bar + e.size)) with
    | none => .next ((s.bump Fld.EP_CNT_WIN_MISS_COUNT 0 p).answerUr f write)
    | some e =>
      match s.winPlace e with
      | some (k, i, a) =>
        if e.bar + e.size < off + n ∨ !(if write then e.wr else e.rd) ∨ !s.winRange e ∨ !s.winKnown e ∨ !s.winGranted f e then
          .next ((s.bump Fld.EP_CNT_WIN_MISS_COUNT 0 p).answerUr f write)
        else if write then .next (s.winWrite k i (a + (off - e.bar)) data)
        else
          let r := s.winRead k i (a + (off - e.bar)) n
          .next (if r.2 then (s.poisonUse true).emit (.tlp p 9 [f] r.1) else s.emit (.readBytes f r.1))
      | none => .next ((s.bump Fld.EP_CNT_WIN_MISS_COUNT 0 p).answerUr f write)

/-! ### Completions and timeouts (R417 to R419) -/

/-- The device's timeout of a Completion Timeout Value, in microseconds. -/
def ctoUs (v : Nat) : Nat :=
  match v with
  | 1 => 100 | 2 => 10000 | 5 => 55000 | 6 => 210000 | 9 => 900000 | 10 => 3500000 | 13 => 13000000 | 14 => 64000000 | _ => 50000

/-- A request was not served: whose work it was decides (R418). what: 1 planned read-ahead and 2 queue data of a hall's channel, 3 another
read of a hall's engine (arg is 64 times the hall plus the channel), 4 an admin command's buffer (arg its ring index), 5 an AQ fetch, 6 a
buffer header, whose operation ends with BUS_ERROR where it is made (R324), 7 a status-page write (R511), 8 a line of a dirty-page log, whose
log fails (R440). kind is the KIND of DMA_ERR_INFO. -/
def State.requestFailed (s : State) (p what kind fn arg addr : Nat) : State :=
  match what with
  | 4 => match s.wq.inflight.find? (fun d => d.fn == fn && d.idx == arg) with
    | some d => s.adminFail d St.busError
    | none => s
  | 5 => if s.flag Fld.WQ_FN_AQ_CFG_EN fn then (s.resetAdminRings fn).alm 0x0A02 1 0xFF 1 fn (leBytes 8 addr) else s
  | 6 => s
  | 8 => (match (s.fn fn).log with | some l => if l.failed then s else s.failLog fn | none => s)
  | 7 => (s.bump Fld.FLT_CNT_PAGE_FAIL_COUNT).raise Fld.FLT_STATUS_PAGE_FAIL
  | _ => if arg / 64 < 18 then s.dmaError (arg / 64) { kind := kind, port := p, ch := arg % 64, fn := fn, addr := addr } else s

/-- Take a request from those outstanding. -/
def State.takeReq (s : State) (p tag : Nat) : State :=
  let h := s.hp p
  (s.setHp p { h with reqs := h.reqs.filter (fun r => r.tag != tag) }).showTags p

/-- COMPLETION_TIMEOUT (R417, R418): what 0 names a request by its tag, whose time must have passed; other requests, which the part's other
commands make and complete, are named by what they serve. -/
def execCompletionTimeout (p what tag fn arg addr at_ : Nat) (s : State) : Answer :=
  let s := s.atTime at_
  if 8 ≤ p ∨ 8 < what then .next s else
  if what = 0 then
    match (s.hp p).reqs.find? (fun r => r.tag == tag) with
    | none => .next s
    | some r =>
      if !s.expired (r.sent + ctoUs (s.hp p).ctoValue * 1000 * nsTicks) then .next s
      else
        let s := s.takeReq p tag
        let s := s.setHp p { s.hp p with late := tag :: (s.hp p).late }
        let s := (s.bump Fld.EP_CNT_CTO_COUNT 0 p).aer p 14 false
        .next (s.requestFailed p r.purpose 4 r.fn r.arg r.addr)
  else .next (((s.bump Fld.EP_CNT_CTO_COUNT 0 p).aer p 14 false).requestFailed p what 4 fn arg addr)

/-- Data of a tracked read reaches what asked for it: another read of a hall, or a channel's descriptor. -/
def State.readArrived (s : State) (r : HostReq) (data : Bytes) : State :=
  let h := r.arg / 64
  let c := r.arg % 64
  if r.purpose = 3 then { s with dma := { s.dma with reads := s.dma.reads.map (fun x => if x.id = r.arg2 / 2 ^ 32 then { x with here := x.here + r.len } else x) } }
  else
  match (s.dch h c).descs.find? (fun d => d.id == r.arg2 / 2 ^ 32) with
  | some d => s.setDesc h c { d with got := d.got ++ [(r.arg2 % 2 ^ 32, sliceB data 0 r.len)] }
  | none => s

/-- READ_COMPLETION_RX (R418, R419): the completion of a tracked request by tag (what 0), or one that failed of another request. status:
0 successful, 1 UR, 2 CA, 3 poisoned. -/
def execReadCompletionRx (p what tag status : Nat) (data : Bytes) (fn arg addr at_ : Nat) (s : State) : Answer :=
  let s := s.atTime at_
  if 8 ≤ p ∨ 8 < what ∨ 3 < status then .next s else
  let s := if status = 3 then s.aer p 12 true else s
  if what ≠ 0 then .next (if status = 0 then s else s.requestFailed p what status fn arg addr)
  else match (s.hp p).reqs.find? (fun r => r.tag == tag) with
    | some r =>
      let s := s.takeReq p tag
      .next (if status = 0 then s.readArrived r data else s.requestFailed p r.purpose status r.fn r.arg r.addr)
    | none =>
      let h := s.hp p
      if h.late.contains tag then
        let s := s.setHp p { h with late := removeFirst (· == tag) h.late }
        .next ((s.bump Fld.EP_LATE_CPL_COUNT 0 p).aer p 16 true)
      else .next ((s.bump Fld.EP_CNT_UNEXP_CPL_COUNT 0 p).aer p 16 true)

end Sys2Proof.Machine
end

