-- ==== Sys2Proof/Machine/BringUp.lean ====
section
/-! DEFINITION. Power and resets (chapter 19, R517, R518): power good and the removal of power, device and warm resets with what each
initialises (R492), the host port map (R394, R395), the return to factory trust. -/

namespace Sys2Proof.Machine

/-! ### The host port map (R394, R395) -/

/-- The first quad that a map entry takes, and how many. -/
def mapQuads (w : Word) : Nat × Nat := (bitsOf w.toNat 2 0, 2 ^ bitsOf w.toNat 5 4)

/-- An enabled entry is well formed: a width of the table, a first quad that is a multiple of it. -/
def mapEntryOk (w : Word) : Bool :=
  !bitOf w.toNat 8 || (bitsOf w.toNat 5 4 != 3 && (mapQuads w).1 % (mapQuads w).2 == 0 && decide ((mapQuads w).1 + (mapQuads w).2 ≤ 8))

/-- A port map is valid (R394). -/
def mapOk (m : List Word) : Bool :=
  let on := m.filter (fun w => bitOf w.toNat 8)
  m.all mapEntryOk && on != [] && (List.range 8).all (fun q => decide ((on.filter (fun w => decide ((mapQuads w).1 ≤ q) && decide (q < (mapQuads w).1 + (mapQuads w).2))).length ≤ 1))

/-- The stored map: factory values where nothing has been written. -/
def State.storedMap (s : State) : List Word := (List.range 8).map (fun p => (look s.ep.mapStored p).getD (Reg.reset .EP_PORT_MAP 0 p))

/-- Show whether the stored map differs from the map in use. -/
def State.showMapPending (s : State) : State :=
  s.setFld Fld.EP_PORT_MAP_STATUS_PENDING (b2n ((List.range 8).any (fun p => s.storedMap.getD p 0#32 != s.word .EP_PORT_MAP 0 p)))

/-- The map that is in use after power-on or a device reset: the stored one, or the factory map where that is not valid. -/
def State.takeMap (s : State) : State :=
  let m := s.storedMap
  if mapOk m then
    (((List.range 8).foldl (fun (s : State) p => s.setWord .EP_PORT_MAP (m.getD p 0#32) 0 p) s).setFld Fld.EP_PORT_MAP_STATUS_FALLBACK 0).showMapPending
  else
    let s := (List.range 8).foldl (fun (s : State) p => s.setWord .EP_PORT_MAP (Reg.reset .EP_PORT_MAP 0 p) 0 p) s
    ((s.raise Fld.EP_PORT_MAP_STATUS_FALLBACK).almDev 0x0602 []).showMapPending

/-! ### What a reset leaves (R7, R492) -/

/-- Registers of the non-volatile store (R93, R492, R503). -/
def nvsAddr (a : Nat) : Bool :=
  [Reg.addr .PLN_MIN_SERIAL_LO 0 0, Reg.addr .PLN_MIN_SERIAL_HI 0 0, Reg.addr .PLN_DOMAIN 0 0, Reg.addr .PLN_RANK 0 0, Reg.addr .PLN_BOOT 0 0,
    Reg.addr .PLN_POWER_BUDGET 0 0, Reg.addr .OWN_CFG 0 0].contains a

/-- Registers of the calm domain: CALM, TB, OWN, the Almanac's, the count of device faults, the fault epochs (R492, R528). -/
def calmAddr (a : Nat) : Bool :=
  decide (a < 0x3000) || (decide (0x07001000 ≤ a) && decide (a < 0x08000000)) || a == 0x0700020C || (decide (0x30000000 ≤ a) && a % 0x10000 == 0xC000)

/-- What a host port keeps through any reset: the level of its PERST#. -/
def keptPort (h : HpSt) : HpSt := { perst := h.perst }

/-- The generation limits of the ports, kept in the non-volatile store, and what a reset of the endpoint leaves of their status. -/
def State.portsAfter (s old : State) : State :=
  let s := (List.range 8).foldl (fun (s : State) p => s.setFld Fld.EP_PORT_CFG_GEN (old.fld Fld.EP_PORT_CFG_GEN 0 p) 0 p) s
  (List.range 8).foldl (fun (s : State) p => if s.flag Fld.EP_PORT_MAP_EN 0 p then s.linkLost p else s) s.takeMap

/-- The trust anchors that the non-volatile store keeps, as their registers show them. -/
def State.trustAfter (s old : State) : State :=
  let s := (s.showPlanKeys).setFld ⟨.CPH_KEK_VALID, 0, 0⟩ (b2n s.own.kek0.isSome)
  (s.setFld Fld.OWN_FW_SVN_MIN (old.fld Fld.OWN_FW_SVN_MIN)).setFld Fld.OWN_BOOT_STATUS_PREFER (old.fld Fld.OWN_BOOT_STATUS_PREFER)

/-- The event lands after a reset: the levels of their pins, nothing driven. -/
def State.pinsOnly (s : State) : Tbl LandSt := s.lands.map (fun (e : Nat × LandSt) => (e.1, { pin := e.2.pin }))

/-- Power is removed, or returns: everything is initialised but the non-volatile store, and what stands outside the part. -/
def State.powerReset (s : State) : State :=
  let t : State := { regs := s.regs.filter (fun (e : Nat × Word) => nvsAddr e.1), freeCtr := s.freeCtr, tb := { ref10In := s.tb.ref10In, energy := s.tb.energy }, own := { planKeys := s.own.planKeys, kek0 := s.own.kek0, imageA := s.own.imageA, imageB := s.own.imageB }, pln := { active := s.pln.active, library := s.pln.library }, ep := { ports := s.ep.ports.map (fun (e : Nat × HpSt) => (e.1, keptPort e.2)), mapStored := s.ep.mapStored }, lands := s.pinsOnly, baro := { halls := s.baro.halls }, out := s.out, pending := s.pending }
  (t.portsAfter s).trustAfter s

/-- POWER_GOOD (R480, R487): Device Time starts at 0, the calm domain is armed and its event unit powered, a nonce is drawn. -/
def execPowerGood (s : State) : Answer :=
  if s.own.powered then .next s else
  let s := s.powerReset
  let s := ({ s with own := { s.own with powered := true } }).newNonce
  .next ((s.raise Fld.EVT_STATUS_POWERED).almDev 0x0C01 (leBytes 1 0 ++ leBytes 1 0))

/-- Power is removed (R554, R572): nothing else completes. -/
def State.powerOff (s : State) : State := if s.own.powered then s.powerReset else s

/-- Commands and changes of the arbiter that a device reset leaves: no command completes, and with no plan active a pending change of
ownership takes effect (R496). -/
def State.arbiterAfter (s : State) : State :=
  let s := { s with own := { s.own with changeCmd := none, clearCmd := none } }
  s.applyOwnerChange

/-- The halls at F3 after a device reset, no plan active (R49). -/
def State.hallsAfter (s : State) : State :=
  let s := (List.range 18).foldl (fun (s : State) h =>
    let s := if s.frost h = 3 then s else (s.setFrost h 3).bump Fld.CALM_HALL_STATE_TRANSITIONS 0 h
    let s := (s.setFld Fld.CALM_HALL_STATE_TARGET 3 0 h).setFld Fld.CALM_HALL_STATE_PENDING 0 0 h
    (s.setFld Fld.CALM_HALL_STATE_DRAIN_WAIT 0 0 h).setFld Fld.CALM_HALL_STATE_GRADE 0 0 h) s
  let s := (List.range 8).foldl (fun (s : State) p => s.setWord .CALM_DUTY_PORT 0#32 0 p) s
  ((s.setFld Fld.CALM_STATE_STANDBY 0).setFld Fld.CALM_STATE_STANDBY_PENDING 0).setFld Fld.TB_FLIGHT_LEN_L 0

/-- A device reset (R491 to R493): blocks are initialised as R492's table says, and the boot ROM starts again. The cause of a device fault
that it follows is logged; a thermal trip's hold begins (R567). -/
def State.deviceReset (s : State) : State :=
  let running := s.fld Fld.PLN_ACTIVE_STATUS_STATE == 2
  let cause := s.flt.faultCause
  let f := s.flt
  let t : State := { regs := s.regs.filter (fun (e : Nat × Word) => nvsAddr e.1 || calmAddr e.1), latched := s.latched, now := s.now, freeCtr := s.freeCtr, tb := { s.tb with hadPlan := false, wakeAt := none, ppsEnd := none }, own := { s.own with planWasRunning := running, entry := 0 }, flt := { lastFn := f.lastFn, ring := f.ring, almQueue := f.almQueue, almCounts := f.almCounts, almPeriod := f.almPeriod, freezeLeft := f.freezeLeft }, pln := { active := s.pln.active, activeRemaps := s.pln.activeRemaps, library := s.pln.library }, ep := { ports := s.ep.ports.map (fun (e : Nat × HpSt) => (e.1, keptPort e.2)), mapStored := s.ep.mapStored }, lands := s.pinsOnly, baro := { halls := s.baro.halls, passAt := s.baro.passAt }, pkg := s.pkg, out := s.out, pending := s.pending }
  let t := ((t.portsAfter s).setFld ⟨.CPH_KEK_VALID, 0, 0⟩ (b2n t.own.kek0.isSome)).hallsAfter.arbiterAfter
  let t := ((t.setFld Fld.OWN_BOOT_STATUS_LAST_RESET 1).setFld Fld.OWN_BOOT_STATUS_STAGE 0).setFld Fld.OWN_FW_SVN_RUNNING 0
  let t := t.setFld Fld.FLT_STATUS_DEVICE_RESET (if s.flt.deviceFault.isSome then 1 else s.fld Fld.FLT_STATUS_DEVICE_RESET)
  let t := (t.raise Fld.EVT_STATUS_POWERED).almDev 0x0C01 (leBytes 1 1 ++ leBytes 1 (if s.flt.deviceFault.isSome then cause else 0))
  if s.pkg.tripped && !s.pkg.hold then ({ t with pkg := { t.pkg with hold := true, alert := true } }).emit (.pin 3 0 false) else t

/-- A warm reset (R23, R491, R492, R518): the management cores and the interrupt controller start again, and the plan keeps running. A time
base that a firmware servo disciplines goes into holdover. -/
def State.warmReset (s : State) : State :=
  let s := { s.initRange 0x06000000 0x07000000 with sic := {} }
  let s := (s.setFld Fld.OWN_BOOT_STATUS_LAST_RESET 2).setFld Fld.OWN_BOOT_STATUS_STAGE 0
  let s := s.almDev 0x0C01 (leBytes 1 2 ++ leBytes 1 0)
  if (s.tbSrc = 1 ∨ s.tbSrc = 2) ∧ !s.flag Fld.TB_STATUS_HOLDOVER then s.enterHoldover else s

/-- DEVICE_RESET (R491). -/
def execDeviceReset (at_ : Nat) (s : State) : Answer := .next (if s.own.powered then (s.atTime at_).deviceReset else s)

/-- WARM_RESET (R491). -/
def execWarmReset (at_ : Nat) (s : State) : Answer := .next (if s.own.powered then (s.atTime at_).warmReset else s)

/-- OWN_DEVICE_RESET (R491, R502): a warm reset's command completes before the reset, a device reset's never. -/
def execOwnDeviceReset (d : AdminCmd) (at_ : Nat) (s : State) : Answer :=
  let s := s.atTime at_
  .next (s.admin d 0x73 (fun s => if d.p 0 % 2 = 1 then (s.adminOk d).warmReset else s.deviceReset))

/-- FIRMWARE_WATCHDOG (R518): LIMIT_MS have passed without a kick while the firmware runs. -/
def execFirmwareWatchdog (at_ : Nat) (s : State) : Answer :=
  let s := s.atTime at_
  if s.fld Fld.OWN_BOOT_STATUS_STAGE = 2 ∧ s.expired (s.flt.wdogKick + s.fld Fld.FLT_WDOG_LIMIT_MS * 1000000 * nsTicks) then
    .next ((s.raise Fld.FLT_STATUS_WATCHDOG).almDev 0x0D07 (leBytes 1 s.flt.wdogCore)).warmReset
  else .next s

/-- DEVICE_FAULT_RESET (R517): 1 ms after a device fault. -/
def execDeviceFaultReset (at_ : Nat) (s : State) : Answer :=
  let s := s.atTime at_
  match s.flt.deviceFault with
  | some t => .next (if t + 1000000 * nsTicks ≤ s.now then s.deviceReset else s)
  | none => .next s

/-- COMMISSION_CLEAR (R490): at the next landing, or at once with no plan active. -/
def execCommissionClear (d : AdminCmd) (b : Bytes) (s : State) : Answer :=
  .next (s.signed d b 0x77 0 true (fun s =>
    if s.own.clearCmd.isSome then s.refused d St.unsupported 12
    else if s.planActive then { s.newNonce with own := { s.newNonce.own with clearCmd := some d } }
    else (s.newNonce.clearTrust).adminOk d))

end Sys2Proof.Machine
end

