-- ==== Sys2Proof/Machine/Package.lean ====
section
/-! DEFINITION. The package (chapter 22): the 48 V input and the module supplies, thermal latches, trip and hold, the SMBus target and the
boundary-scan port. -/

namespace Sys2Proof.Machine

/-! ### Latches and the alert (R48, R554, R561, R566) -/

/-- SMB_ALERT_N is asserted. -/
def State.alertOn (s : State) : State :=
  if s.pkg.alert then s else ({ s with pkg := { s.pkg with alert := true } }).emit (.pin 3 0 false)

/-- A latch of CALM_THERM sets: its Almanac entry, and the alert. -/
def State.thermLatch (s : State) (bit : Nat) : State :=
  ((s.setFld ⟨.CALM_THERM, bit, bit⟩ 1).almDev 0x0101 (leBytes 1 bit)).alertOn

/-- INPUT_UV (R554): the input falls below 37.0 V. -/
def execInputUv (at_ : Nat) (s : State) : Answer :=
  let s := s.atTime at_
  if !s.own.powered ∨ !s.pkg.uvArmed then .next s
  else .next ({ s with pkg := { s.pkg with uvArmed := false } }.thermLatch 3)

/-- INPUT_UV_REARM (R554). -/
def execInputUvRearm (at_ : Nat) (s : State) : Answer :=
  let s := s.atTime at_
  .next { s with pkg := { s.pkg with uvArmed := true } }

/-- SUPPLY_SHUTDOWN (R554): removal of power. -/
def execSupplyShutdown (at_ : Nat) (s : State) : Answer := .next (s.atTime at_).powerOff

/-- OVERVOLTAGE (R554): removal of power. -/
def execOvervoltage (at_ : Nat) (s : State) : Answer := .next (s.atTime at_).powerOff

/-! ### Module supplies (R555) -/

/-- A bay's supply is to be on: the active plan assigns the bay, or WAKE_LANE asks for lane energy at F4 and in dark bays. -/
def State.supplyAsked (s : State) (b : Nat) : Bool := !s.pkg.hold && ((s.bayOwner b).isSome || s.flag Fld.CALM_STANDBY_WAKE_LANE)

/-- MODULE_OVERCURRENT: the supply is switched off, and the bay's ports go down. -/
def execModuleOvercurrent (b at_ : Nat) (s : State) : Answer :=
  let s := s.atTime at_
  if 32 ≤ b ∨ !s.supplyAsked b ∨ (look s.pkg.ocOff b).isSome then .next s
  else
    let s := { s with pkg := { s.pkg with ocOff := s.pkg.ocOff.put b s.now } }
    .next ((List.range 8).foldl (fun (s : State) i =>
      let l := 8 * b + i
      if s.isPort l then (s.portDown l 15).setFld Fld.LN_LANE_STATUS_TRAINING 0 0 l else s) s)

/-- MODULE_SUPPLY_RETRY: after 1 s; it stays off in a bay that is not to be supplied (R572). -/
def execModuleSupplyRetry (b at_ : Nat) (s : State) : Answer :=
  let s := s.atTime at_
  match look s.pkg.ocOff b with
  | none => .next s
  | some t =>
    if s.now < t + secTicks then .next s
    else
      let s := { s with pkg := { s.pkg with ocOff := s.pkg.ocOff.del b } }
      if !s.supplyAsked b then .next s
      else .next ((List.range 8).foldl (fun (s : State) i => if s.isPort (8 * b + i) then s.train (8 * b + i) else s) s)

/-! ### Heat (R566, R567) -/

/-- Thresholds in degrees: LID_WARN, LID_LIMIT, JUNCTION_HOT, and the trips of lid and junction, by ordering code. -/
def lidWarn : Int := if Config.isXS then 90 else 80
def lidLimit : Int := if Config.isXS then 95 else 85
def junctionHot : Int := if Config.isXS then 125 else 115
def lidTrip : Int := if Config.isXS then 105 else 95
def junctionTrip : Int := if Config.isXS then 135 else 125

/-- A sample in 1/16 of a degree is at or above a threshold; it has fallen 3 degrees below it. -/
def atOrAbove (t th : Int) : Bool := decide (16 * th ≤ t)
def fallen (t th : Int) : Bool := decide (t ≤ 16 * (th - 3))

/-- Since when a condition holds. -/
def since (now : Nat) (was : Option Nat) (holds : Bool) : Option Nat := if holds then some (was.getD now) else none

/-- The lid's latches, and for how long it has been cool. -/
def State.lidSample (s : State) (t : Int) : State :=
  let w := s.pkg.warnArmed && atOrAbove t lidWarn
  let l := s.pkg.limitArmed && atOrAbove t lidLimit
  let wa : Bool := if atOrAbove t lidWarn then false else s.pkg.warnArmed || fallen t lidWarn
  let la : Bool := if atOrAbove t lidLimit then false else s.pkg.limitArmed || fallen t lidLimit
  let cool := since s.now s.pkg.coolSince (decide (t ≤ 16 * (lidLimit - 10)))
  let s := { s with pkg := { s.pkg with lid := t, warnArmed := wa, limitArmed := la, coolSince := cool } }
  let s := if w then s.thermLatch 0 else s
  if l then s.thermLatch 1 else s

/-- The junctions' latch, from the hottest sensor. -/
def State.junctionSample (s : State) (t : Int) : State :=
  let h := s.pkg.hotArmed && atOrAbove t junctionHot
  let ha : Bool := if atOrAbove t junctionHot then false else s.pkg.hotArmed || fallen t junctionHot
  let s := { s with pkg := { s.pkg with tj := t, hotArmed := ha } }
  if h then s.thermLatch 2 else s

/-- THERMAL_SAMPLE (R565, R566): a sample of the lid, or of the hottest junction, in 1/16 of a degree; a part without power takes none. -/
def execThermalSample (lid : Bool) (t : Int) (at_ : Nat) (s : State) : Answer :=
  let s := s.atTime at_
  if !s.own.powered then .next s else
  let s := if lid then s.lidSample t else s.junctionSample t
  .next { s with pkg := { s.pkg with tripSince := since s.now s.pkg.tripSince (atOrAbove s.pkg.lid lidTrip || atOrAbove s.pkg.tj junctionTrip) } }

/-- THERMAL_TRIP (R566, R567): a trip threshold has held for 1 ms: a device fault of cause PACKAGE, and THERMTRIP_N. -/
def execThermalTrip (at_ : Nat) (s : State) : Answer :=
  let s := s.atTime at_
  match s.pkg.tripSince with
  | none => .next s
  | some t =>
    if s.now < t + 1000000 * nsTicks ∨ s.pkg.tripped then .next s
    else
      let s := { s with pkg := { s.pkg with tripped := true } }
      .next ((s.deviceFaults 0x22).emit (.pin 4 0 false))

/-- THERMAL_HOLD_END (R567): the lid has been cool for 60 s; THERMTRIP_N is released, and the device may start a plan. -/
def execThermalHoldEnd (at_ : Nat) (s : State) : Answer :=
  let s := s.atTime at_
  match s.pkg.coolSince with
  | some t =>
    if !s.pkg.hold ∨ s.now < t + 60 * secTicks then .next s
    else .next (({ s with pkg := { s.pkg with hold := false, tripped := false } }).emit (.pin 4 0 true))
  | none => .next s

/-! ### SMBus (R560, R561) -/

/-- The target acknowledges a command: the part has power (R558), and the command's Packet Error Code does not fail. -/
def State.smbTakes (s : State) (pec : Bool) : Bool := s.own.powered && pec

/-- A command that is not acknowledged is ignored; a read is answered least significant octet first. -/
def State.smbRead (s : State) (pec : Bool) (code n v : Nat) : State := if s.smbTakes pec then s.emit (.smb code (leBytes n v)) else s

/-- A signed reading as a word. -/
def word16 (t : Int) : Nat := (t % 65536).toNat

/-- SMB_STATUS: the read also ends the alert. -/
def execSmbStatus (pec : Bool) (s : State) : Answer :=
  if !s.smbTakes pec then .next s else
  let v := b2n s.pkg.alert * 128 + b2n s.pkg.hold * 64 + b2n s.atF4 * 32 + b2n s.planActive * 16 + (s.word .CALM_THERM).toNat % 16
  let s := s.smbRead true 0x00 1 v
  .next (if s.pkg.alert then ({ s with pkg := { s.pkg with alert := false } }).emit (.pin 3 0 true) else s)

/-- SMB_LID_TEMP. -/
def execSmbLidTemp (pec : Bool) (s : State) : Answer := .next (s.smbRead pec 0x01 2 (word16 s.pkg.lid))

/-- SMB_TJ_MAX. -/
def execSmbTjMax (pec : Bool) (s : State) : Answer := .next (s.smbRead pec 0x02 2 (word16 s.pkg.tj))

/-- SMB_VIN: the reading of the meter, in mV. -/
def execSmbVin (pec : Bool) (mv : Nat) (s : State) : Answer := .next (s.smbRead pec 0x03 2 mv)

/-- SMB_IIN: the reading of the meter, in mA. -/
def execSmbIin (pec : Bool) (ma : Nat) (s : State) : Answer := .next (s.smbRead pec 0x04 2 ma)

/-- SMB_PIN: the reading of the meter, in units of 0.125 W. -/
def execSmbPin (pec : Bool) (units : Nat) (s : State) : Answer := .next (s.smbRead pec 0x05 2 units)

/-- SMB_PDEV: the reading of the meter, in units of 0.125 W. -/
def execSmbPdev (pec : Bool) (units : Nat) (s : State) : Answer := .next (s.smbRead pec 0x06 2 units)

/-- SMB_PMOD: the reading of the meter, in units of 0.125 W. -/
def execSmbPmod (pec : Bool) (units : Nat) (s : State) : Answer := .next (s.smbRead pec 0x07 2 units)

/-- SMB_BOOT: LAST_RESET and STAGE. -/
def execSmbBoot (pec : Bool) (s : State) : Answer :=
  .next (s.smbRead pec 0x08 1 (s.fld Fld.OWN_BOOT_STATUS_LAST_RESET * 16 + s.fld Fld.OWN_BOOT_STATUS_STAGE))

/-- SMB_SERIAL. -/
def execSmbSerial (pec : Bool) (s : State) : Answer := .next (s.smbRead pec 0x10 8 Config.serial.toNat)

/-- The IDCODE (R564). -/
def idcode : Nat := Config.siliconRevision.toNat * 2 ^ 28 + 0x092563C5

/-- SMB_IDCODE. -/
def execSmbIdcode (pec : Bool) (s : State) : Answer := .next (s.smbRead pec 0x11 4 idcode)

/-- SMB_DEVICE_RESET: 0xA5 resets the device, other values are ignored. -/
def execSmbDeviceReset (pec : Bool) (value at_ : Nat) (s : State) : Answer :=
  let s := s.atTime at_
  .next (if s.smbTakes pec ∧ value = 0xA5 then s.deviceReset else s)

/-! ### Boundary scan (R563, R564) -/

/-- The test access port holds an instruction; what takes the lands does so only while no plan is active. -/
def State.tap (s : State) (i : Nat) : State :=
  { s with pkg := { s.pkg with jtag := i, scanned := s.pkg.scanned || ((i == 1 || i == 3 || i == 4) && !s.planActive) } }

/-- JTAG_EXTEST: the boundary register drives the covered lands and samples them; while a plan is active it acts as BYPASS. -/
def execJtagExtest (drive sample : Nat) (s : State) : Answer :=
  let act := !s.planActive
  let s := s.tap 1
  .next (if act then ({ s with pkg := { s.pkg with scan := drive } }).emit (.note 10 [drive]) |>.emit (.jtag 0 sample) else s.emit (.jtag 2 0))

/-- JTAG_SAMPLE_PRELOAD: samples the lands without disturbing them, and preloads the boundary register. -/
def execJtagSamplePreload (preload sample : Nat) (s : State) : Answer :=
  let s := s.tap 2
  .next (({ s with pkg := { s.pkg with scan := preload } }).emit (.jtag 0 sample))

/-- JTAG_IDCODE. -/
def execJtagIdcode (s : State) : Answer := .next ((s.tap 0).emit (.jtag 1 idcode))

/-- JTAG_CLAMP: the preloaded values are held on the lands, and BYPASS is selected. -/
def execJtagClamp (s : State) : Answer :=
  let act := !s.planActive
  let s := s.tap 3
  .next ((if act then s.emit (.note 10 [s.pkg.scan]) else s).emit (.jtag 2 0))

/-- JTAG_HIGHZ: every covered output is in high impedance. -/
def execJtagHighz (s : State) : Answer :=
  let act := !s.planActive
  let s := s.tap 4
  .next ((if act then s.emit (.note 11 []) else s).emit (.jtag 2 0))

/-- JTAG_BYPASS: also every code outside the table. -/
def execJtagBypass (s : State) : Answer := .next ((s.tap 5).emit (.jtag 2 0))

/-- JTAG_TEST_LOGIC_RESET: IDCODE is selected; after an instruction that has taken the lands, the device resets. -/
def execJtagTestLogicReset (at_ : Nat) (s : State) : Answer :=
  let s := s.atTime at_
  let took := s.pkg.scanned || ((s.pkg.jtag == 1 || s.pkg.jtag == 3 || s.pkg.jtag == 4) && !s.planActive)
  let s := { s with pkg := { s.pkg with jtag := 0, scanned := false } }
  .next (if took ∧ s.own.powered then s.deviceReset else s)

end Sys2Proof.Machine
end

