-- ==== Sys2Proof/Machine/Access.lean ====
section
/-! DEFINITION. Register accesses from the register network (R4 to R7, chapter 23): what a read shows, what a write does under the access
types, 64-bit pairs, the views of functions and cores; and the requests that hosts send to functions (chapter 15): BAR0, doorbell
pages, configuration space. -/

namespace Sys2Proof.Machine

/-! ### Places -/

/-- A function's page in the flat numbering of offsets that the model uses, and the function of such an offset. -/
def pageBase (f : Nat) : Nat := 0x30000000 + 0x10000 * f
def pageFn (a : Nat) : Nat := (a - 0x30000000) / 0x10000
def inPage (a : Nat) : Bool := decide (0x30000000 ≤ a) && decide (a < 0x50000000)

/-- The function of a WQ_FN register's offset. -/
def wqFn (a : Nat) : Option Nat := if 0x0C100000 ≤ a ∧ a < 0x0C300000 then some ((a - 0x0C100000) / 0x100) else none

/-- A hall's window, by offset. -/
def windowOf (a : Nat) : Option Nat := if 0x10000000 ≤ a ∧ a < 0x22000000 then some (a / 2 ^ 24 - 0x10) else none

/-- An offset of a hall's window whose register is not one per physical hall (R217, R246, R358). -/
def sharedOffset (a : Nat) : Bool := wideOffset (a % 2 ^ 24) || macOffset (a % 2 ^ 24)

/-- Where an offset leads: the function page shows the function's own WQ_FN registers (R578), and one adapter-wide value stands behind
every hall's window (R246). -/
def canonical (a : Nat) : Nat :=
  let a := if inPage a ∧ 0xD000 ≤ a % 0x10000 ∧ a % 0x10000 < 0xD020 then 0x0C100000 + 0x100 * pageFn a + (a % 0x10000 - 0xD000) else a
  if (windowOf a).isSome ∧ sharedOffset a then 0x10000000 + a % 2 ^ 24 else a

/-- The register at an offset, with its instance (R573, R574, R578); a VF has 64 vector gaps. -/
def place (a : Nat) : Option (Reg × Nat × Nat) :=
  match Reg.atAddr a with
  | some (.SIC_FN_VGAP, o, i) => if isPf o ∨ i < 64 then some (.SIC_FN_VGAP, o, i) else none
  | r => r

/-! ### Views (R59, R577) -/

/-- Offsets that answer at F4: CALM, TB and OWN (R59). -/
def calmBlock (a : Nat) : Bool := decide (a < 0x01000000)

/-- A sender sees the register at an offset; what it does not see reads 0. -/
def State.sees (s : State) (who : Who) (a : Nat) : Bool :=
  match who with
  | .core _ => true
  | .fn f =>
    s.takesMem f && (!s.atF4 || calmBlock a) &&
      (if inPage a then pageFn a == f || s.isOwner f
      else match wqFn a with
        | some g => g == f || s.isOwner f
        | none => isPf f && (s.isOwner f || !(decide (0x07800000 ≤ a) && decide (a < 0x07A00000))))

/-- A sender's writes take effect at an offset. A register of a function that does not exist takes none. -/
def State.writes (s : State) (who : Who) (a : Nat) : Bool :=
  s.sees who a && (if inPage a then s.fnExists (pageFn a) else match wqFn a with | some g => s.fnExists g | none => s.mayWrite who || a == Reg.addr .OWN_RENEW 0 0)

/-! ### What reads show (R4) -/

/-- A word out of field values. -/
def packFields (l : List (Fld × Nat)) : Nat := l.foldl (fun n e => n + e.2 % 2 ^ (e.1.hi + 1 - e.1.lo) * 2 ^ e.1.lo) 0

/-- A mask of the numbers below n that satisfy a test. -/
def maskOf (n : Nat) (p : Nat → Bool) : Nat := (List.range n).foldl (fun m i => if p i then m + 2 ^ i else m) 0

/-- Context of the queue or CQ that WQ_QSEL selects: present, P, C, watermark, and the word of WQ_QINFO. -/
def State.selQueue (s : State) : Bool × Nat × Nat × Nat × Nat :=
  let i := s.fld Fld.WQ_QSEL_INDEX
  if i = 0 then (false, 0, 0, 0, 0)
  else if s.flag Fld.WQ_QSEL_CQ then
    let c := s.cq i
    (c.present, c.p, c.c, 0, packFields [(Fld.WQ_QINFO_VALID, 1), (Fld.WQ_QINFO_DETAIL, c.detail), (Fld.WQ_QINFO_SIZE_LOG2, c.sizeLog2), (Fld.WQ_QINFO_STATE, c.state)])
  else
    let q := s.queue i
    (q.present, q.p, q.c, q.wm, packFields [(Fld.WQ_QINFO_VALID, 1), (Fld.WQ_QINFO_DETAIL, q.detail), (Fld.WQ_QINFO_SIZE_LOG2, q.sizeLog2), (Fld.WQ_QINFO_STATE, q.state.code)])

/-- WQ_FN_ADMIN_STATE of a function (R387, R393). -/
def State.adminState (s : State) (f : Nat) : Nat :=
  let q := s.queue (adminKey f)
  packFields [(Fld.WQ_FN_ADMIN_STATE_INFLIGHT, q.inProg.length), (Fld.WQ_FN_ADMIN_STATE_DETAIL, q.detail), (Fld.WQ_FN_ADMIN_STATE_ACQ, (s.cq (adminKey f)).state), (Fld.WQ_FN_ADMIN_STATE_AQ, q.state.code)]

/-- The function that VFN_FSEL selects, and its registers (R445). -/
def State.vfSel (s : State) : Nat := s.fld Fld.VFN_FSEL_FUNCTION
def State.vfInfo (s : State) (f : Nat) : Nat :=
  let log := match (s.fn f).log with | none => 0 | some l => if l.failed then 2 else 1
  packFields [(Fld.VFN_FINFO_VALID, b2n (s.fnExists f)), (Fld.VFN_FINFO_LOG, log), (Fld.VFN_FINFO_STAGED, b2n (look s.vfn.staged f).isSome), (Fld.VFN_FINFO_STATE, (s.fn f).vstate)]
def State.vfUse (s : State) (f : Nat) : Nat :=
  packFields [(Fld.VFN_FUSE_CQS, (s.wq.cqs.filter (fun (e : Nat × Cq) => e.2.present && e.2.fn == f && decide (e.1 < 65536))).length),
    (Fld.VFN_FUSE_QUEUES, (s.wq.queues.filter (fun (e : Nat × Queue) => e.2.present && e.2.fn == f && decide (e.1 < 65536))).length)]
def State.vfInflight (s : State) (f : Nat) : Nat :=
  packFields [(Fld.VFN_FINFLIGHT_LIMIT, if s.isOwner f then 0 else s.shareAt f 8 2), (Fld.VFN_FINFLIGHT_COUNT, s.sqInflight f)]

/-- Milliseconds that are left of the owner's lease (R495). -/
def State.leaseLeft (s : State) : Nat :=
  if !s.ownerValid then 0 else (s.own.leaseStart + s.fld Fld.OWN_LEASE_TERM_MS * 1000000 * nsTicks - s.now) / (1000000 * nsTicks)

/-- Octets that remain of a channel's current descriptor. -/
def State.chRemain (s : State) (h c : Nat) : Nat :=
  match (s.dch h c).descs with
  | d :: _ => dmaTotal d.bytes - d.moved
  | [] => 0

/-- Key slots in some of the states of R303. -/
def State.slotsIn (s : State) (p : Nat → Bool) : Nat := (s.keys.slots.filter (fun (e : Nat × KeySlot) => p (s.slotState e.1))).length

/-- CPH_LEVELS of a hall: jobs, frames that wait to enter the pipeline again, inline frames. -/
def State.cipherLevels (s : State) (h : Nat) : Nat :=
  packFields [(Fld.CPH_LEVELS_JOBQ, ((s.cphOf h).jobs.filter CphJob.waits).length), (Fld.CPH_LEVELS_REENTRY, ((s.fw.opened.get [] h).filter (fun w => w.srcKind == 3)).length), (Fld.CPH_LEVELS_INLINE, (s.cphOf h).inl.length)]

/-- A register whose fields the model computes from other state; none where the word it holds is what it shows. -/
def State.computed (s : State) (r : Reg) (o i : Nat) : Option Nat :=
  match r with
  | .CALM_PERST => some (s.fld Fld.CALM_PERST_EDGE + 256 * maskOf 8 (fun p => (s.hp p).perst))
  | .TB_TREAD => some s.treadAt
  | .TB_FLIGHT_LO => some (s.flightNow % 2 ^ 32)
  | .TB_FLIGHT_HI => some (s.flightNow / 2 ^ 32 % 2 ^ 32)
  | .TSQ_RUN => some (maskOf 18 (fun h => s.running h && s.awake h))
  | .TSQ_FAULT_SUM => some (maskOf 18 (fun h => s.any .TSQ_FAULT h))
  | .LN_EYE =>
    let w := (s.word .LN_EYE 0 i).toNat
    some (if s.flag Fld.LN_EYE_VALID 0 i then putBits w 7 0 (min 255 ((s.now - s.ln.eyeAt.get 0 i) / (60 * secTicks))) else w)
  | .LN_LANE_CFG => some (if s.continues i then putBits (s.word .LN_LANE_CFG 0 i).toNat 1 0 0 else (s.word .LN_LANE_CFG 0 i).toNat)
  | .EVT_LEVEL => some (packFields [(Fld.EVT_LEVEL_ARMED, b2n (s.land i).armed), (Fld.EVT_LEVEL_DRIVEN, b2n (s.land i).driven), (Fld.EVT_LEVEL_PIN, b2n (s.land i).pin)])
  | .CPH_KS_STATUS => some (s.slotsIn (fun c => c == 2 || c == 3))
  | .CPH_KS_REVOKING => some (s.slotsIn (fun c => c == 4))
  | .CPH_LEVELS => some (s.cipherLevels o)
  | .DMA_CH_CFG => (match s.logicalOf o with | some l => (look s.dma.cfgNew (l * 64 + i)).map BitVec.toNat | none => none)
  | .DMA_CH_QUEUE => some (match s.chRing o i with | some k => s.handle 1 k | none => 0)
  | .DMA_CH_REMAIN => some (s.chRemain o i)
  | .WQ_QINFO => some (if s.selQueue.1 then s.selQueue.2.2.2.2 else 0)
  | .WQ_QPROD => some (if s.selQueue.1 then s.selQueue.2.1 else 0)
  | .WQ_QCONS => some (if s.selQueue.1 then s.selQueue.2.2.1 else 0)
  | .WQ_QWMARK => some (if s.selQueue.1 then s.selQueue.2.2.2.1 else 0)
  | .WQ_FN_ADMIN_STATE => some (s.adminState o)
  | .VFN_FINFO => some (s.vfInfo s.vfSel)
  | .VFN_FUSE => some (s.vfUse s.vfSel)
  | .VFN_FINFLIGHT => some (s.vfInflight s.vfSel)
  | .VFN_CNT_ADMIT_WAIT => some (s.fn s.vfSel).admitWait
  | .VFN_CNT_LOG_BITS => some (s.fn s.vfSel).logBits
  | .VFN_CNT_LOG_LINES => some (s.fn s.vfSel).logLines
  | .SIC_STATUS => some (((List.range 1280).filter (fun n => sourceExists n && s.srcPending n)).length)
  | .SIC_SRC_PEND => some (maskOf 32 (fun b => sourceExists (32 * i + b) && s.srcPending (32 * i + b)))
  | .SIC_SRC_ACTIVE => some (maskOf 32 (fun b => s.srcActive (32 * i + b)))
  | .OWN_LEASE => some (s.fld Fld.OWN_LEASE_TERM_MS * 65536 + min 65535 s.leaseLeft)
  | .ALM_ENTRY => some (leAt (s.flt.ring.get (List.replicate 64 0) o) (4 * i) 4)
  | .BARO_MT_W1 => some (packFields [(Fld.BARO_MT_W1_VOLT_MV, s.fld Fld.BARO_MT_W1_VOLT_MV 0 i), (Fld.BARO_MT_W1_V_CAP_MV, Config.vCap i), (Fld.BARO_MT_W1_RESERVE_MV, s.fld Fld.BARO_MT_W1_RESERVE_MV 0 i), (Fld.BARO_MT_W1_RESERVE_MAX_MV, Config.reserveMax i)])
  | .BARO_MT_W6 => some (packFields [(Fld.BARO_MT_W6_S_V, Config.slopeV i), (Fld.BARO_MT_W6_S_T, Config.slopeT i), (Fld.BARO_MT_W6_WORST, s.fld Fld.BARO_MT_W6_WORST 0 i)])
  | .EP_PORT_MAP => some ((look s.ep.mapStored i).getD (Reg.reset .EP_PORT_MAP 0 i)).toNat
  | .EP_FN_ID => some (packFields [(Fld.EP_FN_ID_OWNER, b2n (s.isOwner o)), (Fld.EP_FN_ID_VF, b2n (!isPf o)), (Fld.EP_FN_ID_FUNCTION, o)])
  | _ => none

/-- The registers of a hall's window that are the hall's own return reset values at F3 (R575). -/
def State.asleep (s : State) (a level : Nat) : Bool :=
  match windowOf a with
  | some h => !sharedOffset a && !dmaOffset (a % 2 ^ 24) && decide (level ≤ s.frost h)
  | none => false

/-- What a register shows. -/
def State.shown (s : State) (r : Reg) (o i : Nat) : Nat :=
  if s.asleep (r.addr o i) 3 then (r.reset o i).toNat else (s.computed r o i).getD (s.word r o i).toNat

/-! ### 64-bit pairs (R6) -/

/-- The high word of a pair, by its low word. -/
def pairHigh : Reg → Option Reg
  | .TB_ORIGIN_SEC_LO => some .TB_ORIGIN_SEC_HI
  | .TB_FLIGHT_LO => some .TB_FLIGHT_HI
  | .PLN_MIN_SERIAL_LO => some .PLN_MIN_SERIAL_HI
  | .PLN_ACTIVE_SERIAL_LO => some .PLN_ACTIVE_SERIAL_HI
  | .PLN_STANDBY_SERIAL_LO => some .PLN_STANDBY_SERIAL_HI
  | .PLN_SWAP_FLIGHT_LO => some .PLN_SWAP_FLIGHT_HI
  | .TSQ_PTR_LO => some .TSQ_PTR_HI
  | .GAL_CNT_FLITS_LO => some .GAL_CNT_FLITS_HI
  | .GAL_CNT_OPEN_IDLE_LO => some .GAL_CNT_OPEN_IDLE_HI
  | .CYC_SRC_MAC_LO => some .CYC_SRC_MAC_HI
  | .CPH_SLOTS_USED_LO => some .CPH_SLOTS_USED_HI
  | .CPH_SLOTS_IDLE_LO => some .CPH_SLOTS_IDLE_HI
  | .BPM_BYTES_LO => some .BPM_BYTES_HI
  | .DMA_ERR_ADDR_LO => some .DMA_ERR_ADDR_HI
  | .DMA_CNT_BYTES_LO => some .DMA_CNT_BYTES_HI
  | .DMA_CNT_CARRIER_IDLE_LO => some .DMA_CNT_CARRIER_IDLE_HI
  | .DMA_CH_CHAIN_LO => some .DMA_CH_CHAIN_HI
  | .WQ_FN_AQ_BASE_LO => some .WQ_FN_AQ_BASE_HI
  | .WQ_FN_ACQ_BASE_LO => some .WQ_FN_ACQ_BASE_HI
  | .SIC_CORE_VBASE_LO => some .SIC_CORE_VBASE_HI
  | .OWN_NONCE_LO => some .OWN_NONCE_HI
  | .FLT_FN_PAGE_LO => some .FLT_FN_PAGE_HI
  | _ => none

/-- The low words that a write stages, and the low word of each high word that commits (R6). -/
def stagedLows : List Reg := [.TB_ORIGIN_SEC_LO, .PLN_MIN_SERIAL_LO, .CYC_SRC_MAC_LO, .DMA_CH_CHAIN_LO, .WQ_FN_AQ_BASE_LO, .WQ_FN_ACQ_BASE_LO, .SIC_CORE_VBASE_LO]
def pairLow (r : Reg) : Option Reg := stagedLows.find? (fun l => pairHigh l == some r)

/-- High words that read as latched: of every pair, and the words that other reads latch (R60, R230, R234, R295). -/
def latchedReg (r : Reg) : Bool :=
  [.TB_ORIGIN_SEC_HI, .TB_FLIGHT_HI, .PLN_MIN_SERIAL_HI, .PLN_ACTIVE_SERIAL_HI, .PLN_STANDBY_SERIAL_HI, .PLN_SWAP_FLIGHT_HI, .TSQ_PTR_HI, .GAL_CNT_FLITS_HI,
    .GAL_CNT_OPEN_IDLE_HI, .CYC_SRC_MAC_HI, .CPH_SLOTS_USED_HI, .CPH_SLOTS_IDLE_HI, .BPM_BYTES_HI, .DMA_ERR_ADDR_HI, .DMA_CNT_BYTES_HI, .DMA_CNT_CARRIER_IDLE_HI,
    .DMA_CH_CHAIN_HI, .WQ_FN_AQ_BASE_HI, .WQ_FN_ACQ_BASE_HI, .SIC_CORE_VBASE_HI, .OWN_NONCE_HI, .FLT_FN_PAGE_HI, .TB_NOW_NS, .TB_NOW_SEC_LO, .TB_NOW_SEC_HI,
    .LN_TXTS_NS, .LN_TXTS_SEC_LO, .LN_TXTS_SEC_HI, .EVT_CAP_LO, .EVT_CAP_HI, .FWD_AUDIT_FAIL_DIGEST].contains r

/-! ### Reads -/

/-- The state and the value that a command with an answer of its own gives. -/
def answered (s : State) : Answer → State × Nat
  | .next t => match t.out.getLast? with
    | some (.readValue _ _ v) => ({ t with out := t.out.dropLast }, v)
    | _ => (t, 0)
  | _ => (s, 0)

/-- An access to a hall's window is served: the hall leaves F1, and stays out of it for the tread that begins (R49). -/
def State.touch (s : State) (h : Nat) : State :=
  let s := s.setSeq h { s.seq h with touched := some s.now }
  if s.frost h = 1 then s.setFrost h 0 else s

/-- The hall for whose next tread boundary an access waits (R20): with a plan active, a hall at F0 or F1; at F2 and F3 the window answers at once (R575). -/
def State.boundaryHall (s : State) (a : Nat) : Option Nat :=
  match windowOf a with
  | some h => if s.planActive && !s.atF4 && s.awake h then some h else none
  | none => none

/-- An access waits for its hall's boundary. -/
def State.await (s : State) (h : Nat) (who : Who) (a : Nat) (act : HallAct) : State :=
  { s with hallq := s.hallq ++ [{ hall := h, who := who, addr := a, act := act }] }

/-- A read of one register: some take their value from a queue or sample a clock, a low word latches its high word (R6), the others show
what they hold. -/
def State.readReg (s : State) (who : Who) (r : Reg) (o i at_ : Nat) : State × Nat :=
  match r with
  | .TB_NOW_FRAC => answered s (execTbNowRead who at_ s)
  | .LN_TXTS_INFO => answered s (execLnTxtsInfoRead who s)
  | .EVT_CAP_INFO => answered s (execEvtCapInfoRead who i s)
  | .BPM_ALARM_NEXT => answered s (execBpmAlarmNextRead who s)
  | .FWD_AUDIT_FAIL => if s.asleep (r.addr o i) 3 then (s, 0) else answered s (execFwdAuditFailRead who o s)
  | r =>
    if latchedReg r then (s, s.latchOf who (r.addr o i))
    else match pairHigh r with
      | some hi => (s.latch who (hi.addr o i) (s.shown hi o i), s.shown r o i)
      | none => (s, s.shown r o i)

/-- The MSI-X table and the Pending Bit Array of a function (R408, R578). -/
def State.msixWord (s : State) (f off : Nat) : Nat :=
  let t := s.fn f
  let n := vectorLimit f
  if off < 16 * n then
    let m := t.msix.get {} (off / 16)
    match off % 16 / 4 with
    | 0 => m.addr % 2 ^ 32
    | 1 => m.addr / 2 ^ 32
    | 2 => m.data
    | _ => m.ctrl
  else if 0x8000 ≤ off ∧ 8 * (off - 0x8000) < n then maskOf 32 (fun b => t.pba.contains (8 * (off - 0x8000) + b))
  else 0

/-- What a read of the word at an offset shows a sender who sees it; what holds no register reads 0 (R574). -/
def State.readSeen (s : State) (who : Who) (a at_ : Nat) : State × Nat :=
  let a := canonical (a / 4 * 4)
  if inPage a ∧ a % 0x10000 < 0x9000 then (s, s.msixWord (pageFn a) (a % 0x10000))
  else match place a with
    | some (r, o, i) => s.readReg who r o i at_
    | none => (s, 0)

/-- A read of the word at an offset, in the sender's view (R577). -/
def State.readWord (s : State) (who : Who) (a at_ : Nat) : State × Nat :=
  let s := s.atTime at_
  if s.sees who (canonical (a / 4 * 4)) then s.readSeen who a at_ else (s, 0)

/-- Read n words in ascending order, each as 4 octets. -/
def State.readRun (s : State) (who : Who) (a at_ : Nat) : Nat → State × Bytes
  | 0 => (s, [])
  | n + 1 =>
    let r := s.readSeen who a at_
    let t := State.readRun r.1 who (a + 4) at_ n
    (t.1, leBytes 4 r.2 ++ t.2)

/-- A host's read of a hall's window is answered with the octets it asked for. -/
def State.finishLoad (s : State) (who : Who) (a len : Nat) : State :=
  let t := s.readRun who (a / 4 * 4) s.now ((a + len + 3) / 4 - a / 4)
  match who with
  | .fn f => t.1.emit (.readBytes f (sliceB t.2 (a % 4) len))
  | .core _ => t.1

/-! ### Writes -/

/-- Values that a field does not take: a write of one keeps what the field holds. -/
def fieldTakes (r : Reg) (hi v : Nat) : Bool :=
  let within := fun (lo up : Nat) => decide (lo ≤ v) && decide (v ≤ up)
  match r, hi with
  | .PLN_POWER_BUDGET, _ => within 1 480
  | .PLN_SWAP_TIMEOUT, _ => within 10 60000
  | .CYC_CFG, 23 => within 1 255
  | .LN_PPS_OUT, 18 => within 1 500000
  | .PRS_CFG, 1 => within 0 2
  | .PRS_CUSTOM, 30 => within 0 2
  | .PRS_CUSTOM, 28 => within 0 2
  | .PRS_CUSTOM, 20 => within 1 16
  | .PRS_UDF, 26 => within 0 4
  | .PRS_UDF, 7 => within 0 252
  | .FRG_CFG, 31 => within 100 1000000
  | .FRG_CFG, 1 => within 0 2
  | .FWD_CFG, 31 => v == 0 || within 10 4000
  | .DMA_CFG, _ => within 16 65536
  | .WQ_CFG, 31 => within 10 65535
  | .WQ_CFG, 15 => within 1 60000
  | .STO_CFG, 23 => within 1 32
  | .STO_CFG, 15 => within 1 1000
  | .STO_STAGE, 3 => within 0 12
  | .OWN_LEASE, 31 => within 2000 60000
  | .FLT_CFG, 23 => within 2 255
  | .FLT_CFG, 15 => within 1 65535
  | .FLT_WDOG, 31 => within 100 60000
  | .ALM_CFG, 30 => within 1 32767
  | .ALM_CFG, 7 => within 1 255
  | _, _ => true

/-- Registers whose hardware values management firmware writes too: OWN (R503), BARO (R548), LN_DOMAIN_STATUS. -/
def firmwareReg (r : Reg) : Bool :=
  let b := r.info.base
  (decide (0x2000 ≤ b) && decide (b < 0x3000)) || (decide (0x08000000 ≤ b) && decide (b < 0x09000000)) || r == .LN_DOMAIN_STATUS

/-- One field of a write under its access type (R4). -/
def writeField (r : Reg) (firmware : Bool) (v : Nat) (w : Nat) (f : FieldInfo) : Nat :=
  let n := bitsOf v f.hi f.lo
  let old := bitsOf w f.hi f.lo
  match f.acc with
  | .rw => if fieldTakes r f.hi n then putBits w f.hi f.lo n else w
  | .w1c => putBits w f.hi f.lo (old - (old &&& n))
  | .w1s => putBits w f.hi f.lo (old ||| n)
  | .ro => if firmware then putBits w f.hi f.lo n else w
  | .wo => w

/-- The word that a write leaves (R4). -/
def writtenWord (r : Reg) (firmware : Bool) (w v : Nat) : Nat := r.fields.foldl (writeField r firmware v) w

/-- Store what a write leaves of a register. -/
def State.putReg (s : State) (who : Who) (r : Reg) (o i v : Nat) : State :=
  let fw := match who with | .core _ => firmwareReg r | .fn _ => false
  s.setWord r (BitVec.ofNat 32 (writtenWord r fw (s.word r o i).toNat v)) o i

/-- Staged adapter-wide values wait for the next landing, or take effect at once with no plan active (R44, R246). -/
def State.staged (s : State) : State := if s.planActive then s.raise Fld.PRS_STATUS_PENDING else s.wideLand

/-- The two words of a pair take their values in one clock (R6). A minimum serial below the one that stands (R93), a base of an enabled ring
(R393), and a chain of a hall that runs no logical hall (R359), are ignored. The staged low word is kept per sender, and a high word with no low
word staged since the last commit takes the sender's last staged low word, or 0 if there was none: the model's choices, as R6 is silent (log entry 61). -/
def State.commitPair (s : State) (who : Who) (lo hi : Reg) (o i v : Nat) : State :=
  let l := s.latchOf who (lo.addr o i)
  let both := ((s.putReg who lo o i l).putReg who hi o i v)
  match lo with
  | .PLN_MIN_SERIAL_LO => if l + 2 ^ 32 * v < s.fld Fld.PLN_MIN_SERIAL_LO_SERIAL + 2 ^ 32 * s.fld Fld.PLN_MIN_SERIAL_HI_SERIAL then s else both
  | .WQ_FN_AQ_BASE_LO => if s.flag Fld.WQ_FN_AQ_CFG_EN o then s else both
  | .WQ_FN_ACQ_BASE_LO => if s.flag Fld.WQ_FN_ACQ_CFG_EN o then s else both
  | .DMA_CH_CHAIN_LO => if (s.logicalOf o).isSome then both else s
  | _ => both

/-- The state that a command gives; one that stops leaves what was. -/
def stateOf (s : State) : Answer → State
  | .next t => t
  | _ => s

/-- A write of one register: those with a command of their own act as it does; the others act under their access types (R4). -/
def State.writeReg (s : State) (who : Who) (r : Reg) (o i v at_ : Nat) : State :=
  match r with
  | .CALM_STANDBY => stateOf s (execStandbyRequest who v s)
  | .TB_CTRL => stateOf s (execTbCtrlWrite who v at_ s)
  | .TB_RATE => stateOf s (execTbRateWrite who v at_ s)
  | .TB_STEP => stateOf s (execTbStepWrite who v at_ s)
  | .TB_SET_NS => s.latch who (r.addr o i) v
  | .TB_SET_SEC_LO => s.latch who (r.addr o i) v
  | .TB_SET_SEC_HI => stateOf s (execTbSetCommit who v at_ s)
  | .TB_ORIGIN_NS => stateOf s (execTbOriginWrite who v s)
  | .OWN_RENEW => stateOf s (execOwnRenew who v at_ s)
  | .EVT_HOST => stateOf s (execEvtHostWrite who i v at_ s)
  | .SIC_SGI => stateOf s (execSicSgi who v s)
  | .SIC_CORE_COMPLETE => stateOf s (execSicCoreComplete who i v s)
  | .SIC_CORE_CTRL => if v % 2 = 1 then stateOf s (execSicCoreFlush who i s) else s
  | .SIC_SRC_PEND => stateOf s (execSicSrcPendClear who i v s)
  | .SIC_SRC_CFG => if sourceExists i then s.putReg who r o i v else s
  | .ALM_CTRL => stateOf s (execAlmUnfreeze who v s)
  | .FLT_WDOG => stateOf s (execWdogKick who v at_ (s.putReg who r o i v))
  | .WQ_FN_AQ_CFG => stateOf s (execAqCfgWrite who o v s)
  | .WQ_FN_ACQ_CFG => stateOf s (execAcqCfgWrite who o v s)
  | .FWD_AUDIT_SHADOW => stateOf s (execAuditShadowWrite who o i v false s)
  | .DMA_CH_CFG => stateOf s (execDmaChCfgWrite who o i v s)
  | .DMA_CH_CTRL =>
    let s := if bitOf v 1 then stateOf s (execDmaChStart who o i s) else s
    if bitOf v 0 then stateOf s (execDmaChKick who o i s) else s
  | .DMA_CFG => if (s.logicalOf o).isSome then s.putReg who r o i v else s
  | .DMA_CH_CHAIN_FN => if (s.logicalOf o).isSome then s.putReg who r o i v else s
  | .EP_WIN_CTRL =>
    let s := if bitOf v 0 then stateOf s (execWinCommit who o s) else s
    if bitOf v 1 then stateOf s (execWinLoad who o s) else s
  | .EP_WIN_LIVE_W0 => s
  | .EP_WIN_LIVE_W1 => s
  | .EP_WIN_LIVE_W2 => s
  | .EP_WIN_LIVE_W3 => s
  | .EP_PORT_MAP => ({ s with ep := { s.ep with mapStored := s.ep.mapStored.put i (BitVec.ofNat 32 (v &&& 0x137)) } }).showMapPending
  | .LN_LANE_CFG =>
    let s := s.putReg who r o i (if s.continues i then putBits v 1 0 (s.fld Fld.LN_LANE_CFG_FEC 0 i) else v)
    let s := if bitOf v 7 then stateOf s (execEyeNow who i at_ s) else s
    if s.planActive then s else s.wideLand
  | .EVT_CAP_INFO => if bitOf v 29 then (s.putReg who r o i v).setFld Fld.EVT_CAP_INFO_GLITCH 0 0 i else s.putReg who r o i v
  | .LN_TXTS_STATUS => if bitOf v 31 then (s.putReg who r o i v).setFld Fld.LN_TXTS_STATUS_LOST 0 else s
  | .BPM_CFG => (fun (s : State) => if s.planActive then s else s.ageLand 0) (s.putReg who r o i v)
  | .STO_STAGE => (fun (s : State) => if s.planActive then s else s.wideLand) (s.putReg who r o i v)
  | .STO_CH => (fun (s : State) => if s.planActive then s else s.wideLand) (s.putReg who r o i v)
  | r =>
    if stagedLows.contains r then s.latch who (r.addr o i) v
    else match pairLow r with
      | some lo => s.commitPair who lo r o i v
      | none =>
        let s := s.putReg who r o i v
        if (windowOf (r.addr o i)).isSome ∧ stagedOffset (r.addr o i % 2 ^ 24) then s.staged else s

/-- A write into the MSI-X table (R408); the Pending Bit Array is read-only. A vector that is unmasked sends what was pending (R409). -/
def State.msixWrite (s : State) (f off v : Nat) : State :=
  if 16 * vectorLimit f ≤ off then s
  else
    let t := s.fn f
    let k := off / 16
    let m := t.msix.get {} k
    let m := match off % 16 / 4 with
      | 0 => { m with addr := m.addr / 2 ^ 32 * 2 ^ 32 + v }
      | 1 => { m with addr := m.addr % 2 ^ 32 + 2 ^ 32 * v }
      | 2 => { m with data := v }
      | _ => { m with ctrl := v % 2 }
    (s.setFn f { t with msix := t.msix.put k m }).sendPending f

/-- A write of the word at an offset by a sender whose writes take effect there; one that holds no register ignores it (R574), and so does a
register of a hall's own at F2 or F3 (R575). -/
def State.writeSeen (s : State) (who : Who) (a v at_ : Nat) : State :=
  let a := canonical a
  if inPage a ∧ a % 0x10000 < 0x9000 then s.msixWrite (pageFn a) (a % 0x10000) v
  else match place a with
    | some (r, o, i) => if s.asleep a 2 then s else s.writeReg who r o i v at_
    | none => s

/-- A write of the word at an offset, in the sender's view, which is judged when the access is received (R577); one to the window of a hall that
is awake waits for the tread boundary (R20). -/
def State.writeWord (s : State) (who : Who) (a v at_ : Nat) : State :=
  let s := s.atTime at_
  if !s.writes who (canonical a) ∨ canonical a % 4 ≠ 0 ∨ 2 ^ 32 ≤ v then s
  else match s.boundaryHall a with
    | some h => s.await h who a (.write v)
    | none => s.writeSeen who a v at_

/-! ### The rows -/

/-- LOW_WORD_READ (R6): the low word of a pair is answered, and its high word latched for the sender; the read of a hall that is awake is answered at
the tread boundary (R20). addr is an offset of the device space, or 0x3000_0000 plus 64 KiB times the function for a function page. -/
def execLowWordRead (who : Who) (addr at_ : Nat) (s : State) : Answer :=
  match place (canonical addr) with
  | some (r, _, _) =>
    if (pairHigh r).isNone then .next (s.atTime at_)
    else
      let s := s.atTime at_
      match (if s.sees who (canonical (addr / 4 * 4)) then s.boundaryHall addr else none) with
      | some h => .next (s.await h who addr .read)
      | none =>
        let t := s.readWord who addr at_
        .next (t.1.answer who addr t.2)
  | none => .next (s.atTime at_)

/-- HIGH_WORD_COMMIT (R6): a write of the high word of a pair that stages its low word. -/
def execHighWordCommit (who : Who) (addr value at_ : Nat) (s : State) : Answer :=
  match place (canonical addr) with
  | some (r, _, _) => .next (if (pairLow r).isSome ∨ r = .TB_SET_SEC_HI then s.writeWord who addr value at_ else s.atTime at_)
  | none => .next (s.atTime at_)

/-- REGISTER_WRITE (R4, R576, R577). -/
def execRegisterWrite (who : Who) (addr value at_ : Nat) (s : State) : Answer := .next (s.writeWord who addr value at_)

/-! ### BAR0 (R403, R577) -/

/-- Where an offset of a function's BAR0 leads: the device space and its page for a PF, with the page that EP_FSEL selects for the owner; the page alone
for a VF. -/
def State.bar0 (s : State) (f off : Nat) : Option Nat :=
  if !isPf f then (if off < 0x10000 then some (pageBase f + off) else none)
  else if off < 0x22000000 then
    if 0x01010000 ≤ off ∧ off < 0x01020000 then
      (if s.isOwner f ∧ s.fnExists (s.fld Fld.EP_FSEL_FUNCTION) then some (pageBase (s.fld Fld.EP_FSEL_FUNCTION) + off % 0x10000) else none)
    else some off
  else if 0x30000000 ≤ off ∧ off < 0x30010000 then some (pageBase f + off % 0x10000)
  else none

/-- Read n words of BAR0 in ascending order; each as 4 octets. -/
def State.readWords (s : State) (f off at_ : Nat) : Nat → State × Bytes
  | 0 => (s, [])
  | n + 1 =>
    let r := match s.bar0 f off with
      | some a => s.readWord (.fn f) a at_
      | none => (s, 0)
    let t := State.readWords r.1 f (off + 4) at_ n
    (t.1, leBytes 4 r.2 ++ t.2)

/-- Write a word of BAR0. -/
def State.writeBar0 (s : State) (f off v at_ : Nat) : State :=
  match s.bar0 f off with
  | some a => s.writeWord (.fn f) a v at_
  | none => s

/-- A write of BAR0: 32 or 64 aligned bits, the lower register first; any other size is ignored and counted (R403). -/
def State.bar0Write (s : State) (f off : Nat) (b : Bytes) (at_ : Nat) : State :=
  if b.length = 4 ∧ off % 4 = 0 then s.writeBar0 f off (leNat b) at_
  else if b.length = 8 ∧ off % 8 = 0 then (s.writeBar0 f off (leNat (b.take 4)) at_).writeBar0 f (off + 4) (leNat (b.drop 4)) at_
  else s.bump Fld.EP_CNT_UR_COUNT 0 (portOf f)

/-! ### BAR2: doorbell pages (R376) -/

/-- Doorbell pages of a function (R402). -/
def pagesOf (f : Nat) : Nat := if isPf f then 65536 else 2048

/-- A write of a doorbell page: an aligned 32-bit write acts as the page's layout says; any other access is ignored and counted. -/
def State.bellWrite (s : State) (f off : Nat) (b : Bytes) : State :=
  let page := off / 4096
  let v := leNat b
  if b.length ≠ 4 ∨ off % 4 ≠ 0 ∨ pagesOf f ≤ page then s.bellIgnored
  else match s.pageOf f page, off % 4096 with
    | some (_, false), 0 => stateOf s (execDoorbellProducer f page v s)
    | some (_, false), 4 => stateOf s (execDoorbellRearm f page v s)
    | some (_, true), 0 => stateOf s (execDoorbellConsumer f page v s)
    | some (_, true), 8 => stateOf s (execCqModerationWrite f page v s)
    | _, _ => s.bellIgnored

/-! ### Configuration space (R400, R401; the layout of the capabilities is the PCI Express standard's, log entry 29) -/

/-- A capability's header, and an extended capability's. -/
def capHead (id next hi : Nat) : Nat := id + next * 256 + hi * 65536
def extHead (id ver next : Nat) : Nat := id + ver * 65536 + next * 2 ^ 20

/-- A dword of configuration space. -/
def State.cfgWord (s : State) (f off : Nat) : Nat :=
  let p := portOf f
  let h := s.hp p
  let t := s.fn f
  let pf := isPf f
  match off with
  | 0x00 => if pf then 0x92561F3C else 0xFFFFFFFF
  | 0x04 => 0x00100000 + b2n t.bme * 4
  | 0x08 => 0x02000000 + Config.siliconRevision.toNat
  | 0x2C => Config.subsystem.toNat
  | 0x34 => 0x40
  | 0x40 => capHead 0x01 0x50 (if pf then 0xC003 else 0x4003)
  | 0x44 => s.fld Fld.EP_FN_STATE_DSTATE f + 8 + b2n t.pmeEn * 2 ^ 8 + b2n t.pmeStatus * 2 ^ 15
  | 0x50 => capHead 0x10 0x90 0x0002
  | 0x54 => 0x10008025
  | 0x58 => b2n t.relaxed * 16 + (if pf then h.errEn % 8 + h.mps % 8 * 32 + h.mrrs % 8 * 4096 else 0)
  | 0x5C => if pf then s.fld Fld.EP_PORT_CFG_GEN 0 p + 3 + 2 ^ (s.fld Fld.EP_PORT_MAP_WIDTH 0 p + 2) * 16 + 2 * 1024 else 0
  | 0x60 => if pf then h.aspm % 4 + (s.fld Fld.EP_PORT_STATUS_GEN 0 p + 3 + 2 ^ (s.fld Fld.EP_PORT_STATUS_WIDTH 0 p) * 16) * 65536 else 0
  | 0x74 => 0x0003000F
  | 0x78 => if pf then h.ctoValue % 16 + b2n h.tags10 * 4096 else 0
  | 0x90 => capHead 0x11 0 (vectorLimit f - 1 + b2n t.fnMask * 2 ^ 14 + b2n t.msixEn * 2 ^ 15)
  | 0x94 => if pf then 0x30000000 else 0
  | 0x98 => if pf then 0x30008000 else 0x8000
  | 0x100 => extHead 0x0001 2 (if pf then 0x148 else 0x158)
  | 0x104 => if pf then h.aerUncorr else 0
  | 0x108 => if pf then h.aerMask else 0
  | 0x10C => if pf then h.aerSev else 0
  | 0x110 => if pf then h.aerCorr else 0
  | 0x114 => if pf then h.aerCorrMask else 0
  | 0x148 => if pf then extHead 0x0003 1 0x158 else 0
  | 0x14C => if pf then Config.serial.toNat % 2 ^ 32 else 0
  | 0x150 => if pf then Config.serial.toNat / 2 ^ 32 else 0
  | 0x158 => extHead 0x000E 1 (if pf then 0x160 else 0)
  | 0x160 => if pf then extHead 0x0019 1 0x180 else 0
  | 0x180 => if pf then extHead 0x0010 1 0x1C0 else 0
  | 0x188 => if pf then s.fld Fld.VFN_PORT_VF_EN 0 p else 0
  | 0x18C => if pf then 512 * 65536 + 512 else 0
  | 0x190 => if pf then s.fld Fld.VFN_PORT_NUM_VFS 0 p else 0
  | 0x194 => if pf then 0x00010001 else 0
  | 0x198 => if pf then 0x92570000 else 0
  | 0x19C => if pf then 0x11 else 0
  | 0x1A0 => if pf then 1 else 0
  | 0x1C0 => if pf then extHead 0x0025 1 0x1D0 else 0
  | 0x1D0 => if pf then extHead 0x0026 1 0x200 else 0
  | 0x200 => if pf then extHead 0x002A 1 0x230 else 0
  | 0x230 => if pf then extHead 0x0031 1 0x260 else 0
  | 0x260 => if pf then extHead 0x0027 1 0 else 0
  | _ => 0

/-- A write of PowerState and the PME fields (R410, R412); other power states are ignored. -/
def State.writePm (s : State) (f v at_ : Nat) : State :=
  let t := s.fn f
  let s := s.setFn f { t with pmeEn := bitOf v 8, pmeStatus := t.pmeStatus && !bitOf v 15 }
  if v % 4 = 0 then stateOf s (execPowerstateD0 f s)
  else if v % 4 = 3 then stateOf s (execPowerstateD3hot f at_ s)
  else s

/-- A dword of configuration space is written. -/
def State.cfgPut (s : State) (f off v at_ : Nat) : State :=
  let p := portOf f
  let h := s.hp p
  match off, isPf f with
  | 0x04, _ => stateOf s (execBusMasterEnableWrite f (bitOf v 2) s)
  | 0x44, _ => s.writePm f v at_
  | 0x58, pf =>
    let s := s.setFn f { s.fn f with relaxed := bitOf v 4 }
    let s := if pf then (s.setHp p { h with errEn := v % 8, mps := if bitsOf v 7 5 ≤ 5 then bitsOf v 7 5 else h.mps, mrrs := if bitsOf v 14 12 ≤ 5 then bitsOf v 14 12 else h.mrrs }).showRates p else s
    if bitOf v 15 then stateOf s (execFlr f at_ s) else s
  | 0x60, true => s.setHp p { h with aspm := v % 4 }
  | 0x78, true => ((s.setHp p { h with ctoValue := v % 16, tags10 := bitOf v 12 }).setFld Fld.EP_PORT_CPL_CTO_US (ctoUs (v % 16)) 0 p).showRates p
  | 0x90, _ => (s.setFn f { s.fn f with msixEn := bitOf v 31, fnMask := bitOf v 30 }).sendPending f
  | 0x104, true => s.setHp p { h with aerUncorr := h.aerUncorr - (h.aerUncorr &&& v) }
  | 0x108, true => s.setHp p { h with aerMask := v }
  | 0x10C, true => s.setHp p { h with aerSev := v }
  | 0x110, true => s.setHp p { h with aerCorr := h.aerCorr - (h.aerCorr &&& v) }
  | 0x114, true => s.setHp p { h with aerCorrMask := v }
  | 0x188, true => stateOf s (execVfEnableWrite p (bitOf v 0) (s.fld Fld.VFN_PORT_NUM_VFS 0 p) at_ s)
  | 0x190, true => stateOf s (execVfEnableWrite p (s.flag Fld.VFN_PORT_VF_EN 0 p) (v % 65536) at_ s)
  | _, _ => s

/-- Flags of a configuration dword that a 1 clears: they are not written back by a write of other octets of the dword. -/
def cfgClear (off : Nat) : Nat := if off = 0x44 then 0x8000 else if off = 0x104 ∨ off = 0x110 then 0xFFFFFFFF else 0

/-- Octets of configuration space, and a write of 1 to 4 octets within a dword. -/
def State.cfgWrite (s : State) (f off : Nat) (b : Bytes) (at_ : Nat) : State :=
  let dw := off / 4 * 4
  let old := s.cfgWord f dw
  let kept := leBytes 4 (old - (old &&& cfgClear dw))
  s.cfgPut f dw (leNat (sliceB (spliceB kept (off % 4) b) 0 4)) at_

/-! ### HOST_REQUEST (R420) -/

/-- A memory read. -/
def State.hostLoad (s : State) (f bar off len at_ : Nat) : State :=
  if !s.takesMem f then s.answerUr f false
  else match bar with
    | 0 =>
      match (if isPf f ∧ s.sees (.fn f) (canonical (off / 4 * 4)) then s.boundaryHall off else none) with
      | some h => s.await h (.fn f) off (.load len)
      | none =>
        let t := s.readWords f (off / 4 * 4) at_ ((off + len + 3) / 4 - off / 4)
        t.1.emit (.readBytes f (sliceB t.2 (off % 4) len))
    | 2 => s.bellIgnored.emit (.readBytes f (List.replicate len 0))
    | 4 => stateOf s (execBar4Request f false off len [] false s)
    | _ => s.answerUr f false

/-- A memory write. -/
def State.hostStore (s : State) (f bar off : Nat) (b : Bytes) (at_ : Nat) : State :=
  if !s.takesMem f then s.answerUr f true
  else match bar with
    | 0 => s.bar0Write f off b at_
    | 2 => s.bellWrite f off b
    | 4 => stateOf s (execBar4Request f true off 0 b false s)
    | _ => s.answerUr f true

/-- HOST_REQUEST (R397, R403, R420): a request to a function is served, or answered with UR and counted; a port that is disabled receives none. -/
def execHostRequest (f : Nat) (op : HostOp) (at_ : Nat) (s : State) : Answer :=
  let s := s.atTime at_
  if 8192 ≤ f ∨ !s.flag Fld.EP_PORT_MAP_EN 0 (portOf f) then .next s
  else match op with
    | .memRead bar off len => .next (s.hostLoad f bar off len at_)
    | .memWrite bar off b => .next (s.hostStore f bar off b at_)
    | .cfgRead off => .next (if s.fnExists f then s.emit (.readBytes f (leBytes 4 (s.cfgWord f (off / 4 * 4)))) else s.answerUr f false)
    | .cfgWrite off b => .next (if s.fnExists f then (s.cfgWrite f off b at_).emit (.tlp (portOf f) 10 [f] []) else s.answerUr f false)
    | .other 3 => .next (s.answerUr f true)
    | .other 4 => .next s
    | .other _ => .next (s.answerUr f false)

end Sys2Proof.Machine
end

