-- ==== Sys2Proof/Machine/Boundary.lean ====
section
/-! DEFINITION. What happens at a boundary of the plan's time: register accesses that waited for it are served (R20, R576), a flight lands (R43), a
tread starts (R98), the device enters standby (R57). -/

namespace Sys2Proof.Machine

/-! ### Accesses of the register network (R20, R49, R576) -/

/-- An access that reads. -/
def HallAccess.reads (x : HallAccess) : Bool := match x.act with | .write _ => false | _ => true

/-- Insert a write behind those of the same function and of lower ones (R576). -/
def insertAccess (l : List HallAccess) (x : HallAccess) : List HallAccess :=
  l.filter (fun y => decide (whoKey y.who ≤ whoKey x.who)) ++ x :: l.filter (fun y => decide (whoKey x.who < whoKey y.who))

/-- One access is served: its hall counts as addressed at this boundary. -/
def State.serveAccess (s : State) (x : HallAccess) : State :=
  let s := s.touch x.hall
  match x.act with
  | .read => (s.readSeen x.who x.addr s.now).1.answer x.who x.addr (s.readSeen x.who x.addr s.now).2
  | .write v => s.writeSeen x.who x.addr v s.now
  | .load n => s.finishLoad x.who x.addr n

/-- Every access that waits is served: reads see what stood before the boundary's writes, writes go in ascending function number. -/
def State.serveAccesses (s : State) : State :=
  let q := s.hallq
  let s := (q.filter HallAccess.reads).foldl State.serveAccess { s with hallq := [] }
  ((q.filter (fun x => !x.reads)).foldl insertAccess []).foldl State.serveAccess s

/-! ### The landing (R43) -/

/-- LANDING (R43): the landing of a flight, which each flight has once. uj is the energy measured over the flight that ends, reload the
halls whose plan store could not be reloaded, bad the record of a half that differs from the arbiter. With no plan active only a start
lands (R44, R87). Accesses that wait for the boundary are served ahead of the landing's steps (log entry 63). -/
def execLanding (uj : Nat) (reload : List Nat) (bad : Option (Nat × Nat × Bytes)) (at_ : Nat) (s : State) : Answer :=
  let s := s.atTime at_
  match s.landingAt at_ with
  | none => .next s
  | some k =>
    let early : Bool := match s.tb.wakeAt with | some t => decide (s.now < t) | none => false
    if s.now ≠ at_ ∨ s.atF4 ∨ early ∨ s.flt.deviceFault.isSome then .next s
    else if s.planActive then .next (if s.pln.lastFlight = some k then s else s.serveAccesses.land43 uj reload bad k)
    else
      let s := if s.startHeld then s else s.swapStep k
      if !s.planActive then .next s
      else
        let s := s.gradesLand.sharesLand
        let s := (List.range 18).foldl (fun (s : State) h => s.frostStep k true reload h) s
        let s := (List.range 18).foldl (fun (s : State) h => s.showNext k h) s
        .next (({ s with pln := { s.pln with lastFlight := some k } }).newFlight.stagedLand k)

/-! ### Treads (R25, R98) -/

/-- A tread of the active plan begins at this instant. -/
def State.treadEdge (s : State) (at_ : Nat) : Bool :=
  s.planActive && s.now == at_ && decide (s.origin ≤ s.now) && (s.now - s.origin) % treadTicks == 0 && !s.atF4

/-- TREAD_START: the accesses that wait for the boundary are served (R20), and every running hall begins a tread of the flight that has landed.
errs names the halls whose fetch meets an error. -/
def execTreadStart (errs : List (Nat × Nat)) (at_ : Nat) (s : State) : Answer :=
  let s := s.atTime at_
  if !s.treadEdge at_ then .next s else
  let s := s.serveAccesses
  if s.pln.lastFlight ≠ some s.flightNow ∨ s.flt.deviceFault.isSome then .next s
  else
    let n := s.treadAt
    let err := fun (h : Nat) => match errs.find? (fun e => e.1 == h) with | some e => e.2 | none => 0
    .next ((List.range 18).foldl (fun (s : State) h => s.treadHall n (err h) h) s.snapLands)

/-! ### Device standby (R57) -/

/-- STANDBY_ENTER (R57, R49, R324): at a landing, or with no plan active at once. -/
def execStandbyEnter (at_ : Nat) (s : State) : Answer :=
  let s := s.atTime at_
  if s.atF4 ∨ !s.flag Fld.CALM_STANDBY_REQ ∨ !s.allAsleep ∨ (s.planActive ∧ (s.landingAt s.now).isNone) ∨ s.flt.deviceFault.isSome then .next s
  else
    let had := s.planActive
    let halls := List.range 18
    let s := s.serveAccesses.resetRegions
    let s := halls.foldl (fun (s : State) h =>
      if s.frost h = 3 then s
      else
        let s := (((s.darkenHall h).hallSleep h).loseAll h).setFrost h 3
        ((s.bump Fld.CALM_HALL_STATE_TRANSITIONS 0 h).setFld Fld.CALM_HALL_STATE_TARGET 3 0 h).setFld Fld.TSQ_STATE_STATE 0 h) s
    let s := { s with atrium := [], flt := { s.flt with poisonAtrium := [] }, tb := { s.tb with hadPlan := had } }
    let s := ((s.setFld Fld.ATR_STATUS_POWERED 0).setFld Fld.EVT_STATUS_POWERED 0).setFld Fld.CALM_STATE_STANDBY_PENDING 0
    .next ((s.raise Fld.CALM_STATE_STANDBY).almDev 0x0102 [])

end Sys2Proof.Machine
end

