-- ==== Sys2Proof/Machine/Packets.lean ====
section
/-! DEFINITION. Best-effort packets at the host ports (R146, R414): they use the time that planned departures leave. -/

namespace Sys2Proof.Machine

/-- The earliest departure of the bursts of a port that the active plan has still to issue: flit 0 of each may leave 8 clocks after it reaches the port (R145), in
this flight or the next. In 880ths of a tick. -/
def State.planDeparture (s : State) (p : Nat) : Option Nat :=
  if !s.planActive then none
  else ((Plan.hostBursts s.pln.active p true).filterMap (fun o =>
    (s.physOf o.hall).map (fun h =>
      let t := s.startOf s.flightNow 0 + (o.gal s.pln.active + 4 + 2 * Plan.naveHops h true) * galTick
      880 * ((if s.now < t then t else t + s.flightLen * treadTicks) + 8 * galTick)))).min?

/-- The departure of the next flit that bursts under way send through a port. In 880ths of a tick. -/
def State.flitDeparture (s : State) (p : Nat) : Option Nat :=
  (nextBurst (fun b => let b := b.skip b.flits; if b.through p true ∧ b.sent < b.flits then some (b.turn b.sent) else none) s.dma.bursts).map (fun e => s.departure p true (e.1.skip e.1.flits))

/-- The next planned departure of a port toward the host (R145, R146): of a burst under way, or of one that the plan is to issue. In 880ths of a tick. -/
def State.nextDeparture (s : State) (p : Nat) : Option Nat :=
  match s.flitDeparture p, s.planDeparture p with
  | some a, some b => some (min a b)
  | some a, none => some a
  | none, b => b

/-- A waiting packet may be issued (R414): a request of a function whose Bus Master Enable is 0 waits, and a data write waits behind the
dirty-page log's lines ahead of it (R440). -/
def State.mayIssue (s : State) (ahead : List Out) (o : Out) : Bool :=
  match o with
  | .hostWrite f _ _ => (s.fn f).bme && (match (s.fn f).log with
      | some l => l.issuer == f || ahead.all (fun x => match x with | .hostWrite g _ _ => g != l.issuer | _ => true)
      | none => true)
  | .hostRead f _ _ => (s.fn f).bme
  | .msix f _ _ _ => (s.fn f).bme
  | _ => true

/-- The oldest waiting packet that may be issued, and the others in their order; ahead are the held ones before it. -/
def State.nextPacket (s : State) : List Out → List Out → Option (Out × List Out)
  | _, [] => none
  | ahead, o :: t => if s.mayIssue ahead o then some (o, ahead ++ t) else s.nextPacket (ahead ++ [o]) t

/-- BEST_EFFORT_TLP_SEND (R146, R414): the oldest packet at a port that may be issued leaves, if it will have crossed (at the instant
crossed) before the next planned departure. -/
def execBestEffortTlpSend (p crossed at_ : Nat) (s : State) : Answer :=
  let s := s.atTime at_
  match s.nextPacket [] (s.ep.tlps.get [] p) with
  | none => .next s
  | some (o, t) =>
    let clear := match s.nextDeparture p with | some d => decide (880 * max s.now crossed ≤ d) | none => true
    if !clear ∨ !s.flag Fld.EP_PORT_STATUS_LINK_UP 0 p ∨ s.fld Fld.EP_PORT_STATUS_LSTATE 0 p ≠ 1 then .next s
    else
      let s := { s with ep := { s.ep with tlps := s.ep.tlps.put p t } }
      .next (((s.setHp p { s.hp p with idleSince := s.now }).leave o).afterPacket o)

end Sys2Proof.Machine
end

