-- ==== Sys2Proof/Machine/Dispatch.lean ====
section
/-! DEFINITION. The dispatch of commands: one arm per constructor, each a call of its meaning. -/

namespace Sys2Proof.Machine

def exec (i : Instr) (s : State) : Host.Outcome State Fault Refusal :=
  match i with
  | .treadStart errs at_ => Sys2Proof.Machine.execTreadStart errs at_ s
  | .landing uj reload bad at_ => Sys2Proof.Machine.execLanding uj reload bad at_ s
  | .opNop h slot => Sys2Proof.Machine.execOpNop h slot s
  | .move h => Sys2Proof.Machine.execMove h s
  | .moveFlitDeliver mv bad => Sys2Proof.Machine.execMoveFlitDeliver mv bad s
  | .atriumBeat mv ecc => Sys2Proof.Machine.execAtriumBeat mv ecc s
  | .refresh h => Sys2Proof.Machine.execRefresh h s
  | .emergRefresh stack ch at_ => Sys2Proof.Machine.execEmergRefresh stack ch at_ s
  | .selfRefresh stack ch at_ => Sys2Proof.Machine.execSelfRefresh stack ch at_ s
  | .setptr h => Sys2Proof.Machine.execSetptr h s
  | .win h => Sys2Proof.Machine.execWin h s
  | .arrivalIssue h ptp ecc at_ => Sys2Proof.Machine.execArrivalIssue h ptp ecc at_ s
  | .flowIssue h ecc at_ => Sys2Proof.Machine.execFlowIssue h ecc at_ s
  | .openIssue h ptp ecc at_ => Sys2Proof.Machine.execOpenIssue h ptp ecc at_ s
  | .replicateCopy h => Sys2Proof.Machine.execReplicateCopy h s
  | .rqDelivery h => Sys2Proof.Machine.execRqDelivery h s
  | .cipherWindow h at_ => Sys2Proof.Machine.execCipherWindow h at_ s
  | .cipherOpRelease h src aad tag at_ => Sys2Proof.Machine.execCipherOpRelease h src aad tag at_ s
  | .cipherJobFetch k at_ => Sys2Proof.Machine.execCipherJobFetch k at_ s
  | .entropyHealthFail h test at_ => Sys2Proof.Machine.execEntropyHealthFail h test at_ s
  | .keyExhaust k at_ => Sys2Proof.Machine.execKeyExhaust k at_ s
  | .dmaOp h => Sys2Proof.Machine.execDmaOp h s
  | .dmaBurstComplete h c bad at_ => Sys2Proof.Machine.execDmaBurstComplete h c bad at_ s
  | .hostFlitRelease p toward bad at_ => Sys2Proof.Machine.execHostFlitRelease p toward bad at_ s
  | .readAheadRequest h c at_ => Sys2Proof.Machine.execReadAheadRequest h c at_ s
  | .bestEffortTlpSend p crossed at_ => Sys2Proof.Machine.execBestEffortTlpSend p crossed at_ s
  | .descriptorFetch h c more host list at_ => Sys2Proof.Machine.execDescriptorFetch h c more host list at_ s
  | .descriptorComplete h c => Sys2Proof.Machine.execDescriptorComplete h c s
  | .dmaEngineStop h at_ => Sys2Proof.Machine.execDmaEngineStop h at_ s
  | .dmaChKick who h c => Sys2Proof.Machine.execDmaChKick who h c s
  | .dmaChStart who h c => Sys2Proof.Machine.execDmaChStart who h c s
  | .dmaChCfgWrite who h c value => Sys2Proof.Machine.execDmaChCfgWrite who h c value s
  | .bufOpAlloc h => Sys2Proof.Machine.execBufOpAlloc h s
  | .bufAllocResult h at_ => Sys2Proof.Machine.execBufAllocResult h at_ s
  | .bufOpHand h => Sys2Proof.Machine.execBufOpHand h s
  | .handPost h => Sys2Proof.Machine.execHandPost h s
  | .bufOpRelease h => Sys2Proof.Machine.execBufOpRelease h s
  | .tableWindow h at_ => Sys2Proof.Machine.execTableWindow h at_ s
  | .rfx h => Sys2Proof.Machine.execRfx h s
  | .kernelBudgetEnd h c at_ => Sys2Proof.Machine.execKernelBudgetEnd h c at_ s
  | .wake h => Sys2Proof.Machine.execWake h s
  | .ctx h => Sys2Proof.Machine.execCtx h s
  | .ctxEmission h pool cut at_ => Sys2Proof.Machine.execCtxEmission h pool cut at_ s
  | .crx h => Sys2Proof.Machine.execCrx h s
  | .poolDeadline h pool at_ => Sys2Proof.Machine.execPoolDeadline h pool at_ s
  | .evtOp h => Sys2Proof.Machine.execEvtOp h s
  | .skipOp h => Sys2Proof.Machine.execSkipOp h s
  | .land h => Sys2Proof.Machine.execLand h s
  | .addOp h c ecc rd ra rb => Sys2Proof.Machine.execAddOp h c ecc rd ra rb s
  | .subOp h c ecc rd ra rb => Sys2Proof.Machine.execSubOp h c ecc rd ra rb s
  | .andOp h c ecc rd ra rb => Sys2Proof.Machine.execAndOp h c ecc rd ra rb s
  | .orOp h c ecc rd ra rb => Sys2Proof.Machine.execOrOp h c ecc rd ra rb s
  | .xorOp h c ecc rd ra rb => Sys2Proof.Machine.execXorOp h c ecc rd ra rb s
  | .shl h c ecc rd ra rb => Sys2Proof.Machine.execShl h c ecc rd ra rb s
  | .shr h c ecc rd ra rb => Sys2Proof.Machine.execShr h c ecc rd ra rb s
  | .sar h c ecc rd ra rb => Sys2Proof.Machine.execSar h c ecc rd ra rb s
  | .slt h c ecc rd ra rb => Sys2Proof.Machine.execSlt h c ecc rd ra rb s
  | .sltu h c ecc rd ra rb => Sys2Proof.Machine.execSltu h c ecc rd ra rb s
  | .minOp h c ecc rd ra rb => Sys2Proof.Machine.execMinOp h c ecc rd ra rb s
  | .maxOp h c ecc rd ra rb => Sys2Proof.Machine.execMaxOp h c ecc rd ra rb s
  | .minu h c ecc rd ra rb => Sys2Proof.Machine.execMinu h c ecc rd ra rb s
  | .maxu h c ecc rd ra rb => Sys2Proof.Machine.execMaxu h c ecc rd ra rb s
  | .mulOp h c ecc rd ra rb => Sys2Proof.Machine.execMulOp h c ecc rd ra rb s
  | .mulh h c ecc rd ra rb => Sys2Proof.Machine.execMulh h c ecc rd ra rb s
  | .mulhu h c ecc rd ra rb => Sys2Proof.Machine.execMulhu h c ecc rd ra rb s
  | .divu h c ecc rd ra rb => Sys2Proof.Machine.execDivu h c ecc rd ra rb s
  | .remu h c ecc rd ra rb => Sys2Proof.Machine.execRemu h c ecc rd ra rb s
  | .qadd h c ecc rd ra rb => Sys2Proof.Machine.execQadd h c ecc rd ra rb s
  | .qsub h c ecc rd ra rb => Sys2Proof.Machine.execQsub h c ecc rd ra rb s
  | .qmul h c ecc rd ra rb => Sys2Proof.Machine.execQmul h c ecc rd ra rb s
  | .qdiv h c ecc rd ra rb => Sys2Proof.Machine.execQdiv h c ecc rd ra rb s
  | .qabs h c ecc rd ra => Sys2Proof.Machine.execQabs h c ecc rd ra s
  | .qneg h c ecc rd ra => Sys2Proof.Machine.execQneg h c ecc rd ra s
  | .addi h c ecc rd ra imm => Sys2Proof.Machine.execAddi h c ecc rd ra imm s
  | .andi h c ecc rd ra imm => Sys2Proof.Machine.execAndi h c ecc rd ra imm s
  | .ori h c ecc rd ra imm => Sys2Proof.Machine.execOri h c ecc rd ra imm s
  | .xori h c ecc rd ra imm => Sys2Proof.Machine.execXori h c ecc rd ra imm s
  | .slti h c ecc rd ra imm => Sys2Proof.Machine.execSlti h c ecc rd ra imm s
  | .sltiu h c ecc rd ra imm => Sys2Proof.Machine.execSltiu h c ecc rd ra imm s
  | .lui h c ecc rd imm => Sys2Proof.Machine.execLui h c ecc rd imm s
  | .shli h c ecc rd ra imm => Sys2Proof.Machine.execShli h c ecc rd ra imm s
  | .shri h c ecc rd ra imm => Sys2Proof.Machine.execShri h c ecc rd ra imm s
  | .sari h c ecc rd ra imm => Sys2Proof.Machine.execSari h c ecc rd ra imm s
  | .mac h c ecc ra rb => Sys2Proof.Machine.execMac h c ecc ra rb s
  | .msu h c ecc ra rb => Sys2Proof.Machine.execMsu h c ecc ra rb s
  | .acclr h c ecc => Sys2Proof.Machine.execAcclr h c ecc s
  | .acrd h c ecc rd imm => Sys2Proof.Machine.execAcrd h c ecc rd imm s
  | .acset h c ecc ra rb => Sys2Proof.Machine.execAcset h c ecc ra rb s
  | .acget h c ecc rd => Sys2Proof.Machine.execAcget h c ecc rd s
  | .ldw h c ecc rd ra imm => Sys2Proof.Machine.execLdw h c ecc rd ra imm s
  | .ldhu h c ecc rd ra imm => Sys2Proof.Machine.execLdhu h c ecc rd ra imm s
  | .stw h c ecc rs ra imm => Sys2Proof.Machine.execStw h c ecc rs ra imm s
  | .sth h c ecc rs ra imm => Sys2Proof.Machine.execSth h c ecc rs ra imm s
  | .lds h c ecc rd ra imm => Sys2Proof.Machine.execLds h c ecc rd ra imm s
  | .sts h c ecc rs ra imm => Sys2Proof.Machine.execSts h c ecc rs ra imm s
  | .beq h c ecc ra rb off => Sys2Proof.Machine.execBeq h c ecc ra rb off s
  | .bne h c ecc ra rb off => Sys2Proof.Machine.execBne h c ecc ra rb off s
  | .blt h c ecc ra rb off => Sys2Proof.Machine.execBlt h c ecc ra rb off s
  | .bge h c ecc ra rb off => Sys2Proof.Machine.execBge h c ecc ra rb off s
  | .bltu h c ecc ra rb off => Sys2Proof.Machine.execBltu h c ecc ra rb off s
  | .bgeu h c ecc ra rb off => Sys2Proof.Machine.execBgeu h c ecc ra rb off s
  | .jmp h c ecc off => Sys2Proof.Machine.execJmp h c ecc off s
  | .loopOp h c ecc count body => Sys2Proof.Machine.execLoopOp h c ecc count body s
  | .endOp h c ecc => Sys2Proof.Machine.execEndOp h c ecc s
  | .rfxNop h c ecc => Sys2Proof.Machine.execRfxNop h c ecc s
  | .timeOp h c ecc rd => Sys2Proof.Machine.execTimeOp h c ecc rd s
  | .ecap h c ecc rd land => Sys2Proof.Machine.execEcap h c ecc rd land s
  | .elvl h c ecc rd land => Sys2Proof.Machine.execElvl h c ecc rd land s
  | .esch h c ecc ra rb act span base => Sys2Proof.Machine.execEsch h c ecc ra rb act span base s
  | .ecan h c ecc rb span base => Sys2Proof.Machine.execEcan h c ecc rb span base s
  | .evtAction k at_ => Sys2Proof.Machine.execEvtAction k at_ s
  | .evtHostWrite who k value at_ => Sys2Proof.Machine.execEvtHostWrite who k value at_ s
  | .evtEdge k rising at_ => Sys2Proof.Machine.execEvtEdge k rising at_ s
  | .evtEdgeConfirm k at_ => Sys2Proof.Machine.execEvtEdgeConfirm k at_ s
  | .evtCapInfoRead who k => Sys2Proof.Machine.execEvtCapInfoRead who k s
  | .cyclicFrameRx l cut => Sys2Proof.Machine.execCyclicFrameRx l cut s
  | .notifyOverflowSend h => Sys2Proof.Machine.execNotifyOverflowSend h s
  | .laneFrameRx l octets ce ue stamp at_ => Sys2Proof.Machine.execLaneFrameRx l octets ce ue stamp at_ s
  | .portFrameTx l opened corr stamp at_ => Sys2Proof.Machine.execPortFrameTx l opened corr stamp at_ s
  | .lnTxtsInfoRead who => Sys2Proof.Machine.execLnTxtsInfoRead who s
  | .portLinkUp l got aligned at_ => Sys2Proof.Machine.execPortLinkUp l got aligned at_ s
  | .portLinkDown l lost at_ => Sys2Proof.Machine.execPortLinkDown l lost at_ s
  | .eyeNow who l at_ => Sys2Proof.Machine.execEyeNow who l at_ s
  | .eyeMeasureDone l height width at_ => Sys2Proof.Machine.execEyeMeasureDone l height width at_ s
  | .ppsOutPulse at_ => Sys2Proof.Machine.execPpsOutPulse at_ s
  | .ppsEdge rising at_ => Sys2Proof.Machine.execPpsEdge rising at_ s
  | .ppsTimeout at_ => Sys2Proof.Machine.execPpsTimeout at_ s
  | .servoHoldoverTimeout at_ => Sys2Proof.Machine.execServoHoldoverTimeout at_ s
  | .ref10Loss at_ => Sys2Proof.Machine.execRef10Loss at_ s
  | .ref10Restore since at_ => Sys2Proof.Machine.execRef10Restore since at_ s
  | .tbNowRead who at_ => Sys2Proof.Machine.execTbNowRead who at_ s
  | .tbCtrlWrite who value at_ => Sys2Proof.Machine.execTbCtrlWrite who value at_ s
  | .tbRateWrite who value at_ => Sys2Proof.Machine.execTbRateWrite who value at_ s
  | .tbStepWrite who value at_ => Sys2Proof.Machine.execTbStepWrite who value at_ s
  | .slewComplete at_ => Sys2Proof.Machine.execSlewComplete at_ s
  | .tbSetCommit who value at_ => Sys2Proof.Machine.execTbSetCommit who value at_ s
  | .tbOriginWrite who value => Sys2Proof.Machine.execTbOriginWrite who value s
  | .lowWordRead who addr at_ => Sys2Proof.Machine.execLowWordRead who addr at_ s
  | .highWordCommit who addr value at_ => Sys2Proof.Machine.execHighWordCommit who addr value at_ s
  | .registerWrite who addr value at_ => Sys2Proof.Machine.execRegisterWrite who addr value at_ s
  | .laneEnergyDetect l => Sys2Proof.Machine.execLaneEnergyDetect l s
  | .perstEdge p asserted at_ => Sys2Proof.Machine.execPerstEdge p asserted at_ s
  | .hostLinkUp p gen width flit at_ => Sys2Proof.Machine.execHostLinkUp p gen width flit at_ s
  | .standbyRequest who value => Sys2Proof.Machine.execStandbyRequest who value s
  | .standbyEnter at_ => Sys2Proof.Machine.execStandbyEnter at_ s
  | .standbyWake reason fail at_ => Sys2Proof.Machine.execStandbyWake reason fail at_ s
  | .powerGood => Sys2Proof.Machine.execPowerGood s
  | .inputUv at_ => Sys2Proof.Machine.execInputUv at_ s
  | .supplyShutdown at_ => Sys2Proof.Machine.execSupplyShutdown at_ s
  | .overvoltage at_ => Sys2Proof.Machine.execOvervoltage at_ s
  | .moduleOvercurrent b at_ => Sys2Proof.Machine.execModuleOvercurrent b at_ s
  | .moduleSupplyRetry b at_ => Sys2Proof.Machine.execModuleSupplyRetry b at_ s
  | .thermalSample lid t at_ => Sys2Proof.Machine.execThermalSample lid t at_ s
  | .thermalTrip at_ => Sys2Proof.Machine.execThermalTrip at_ s
  | .thermalHoldEnd at_ => Sys2Proof.Machine.execThermalHoldEnd at_ s
  | .firmwareVerify at_ => Sys2Proof.Machine.execFirmwareVerify at_ s
  | .baroPass ms ret wear at_ => Sys2Proof.Machine.execBaroPass ms ret wear at_ s
  | .baroStale at_ => Sys2Proof.Machine.execBaroStale at_ s
  | .railFault h at_ => Sys2Proof.Machine.execRailFault h at_ s
  | .startSelect at_ => Sys2Proof.Machine.execStartSelect at_ s
  | .verifyComplete at_ => Sys2Proof.Machine.execVerifyComplete at_ s
  | .hallReady h at_ => Sys2Proof.Machine.execHallReady h at_ s
  | .swapTimeout at_ => Sys2Proof.Machine.execSwapTimeout at_ s
  | .planLoad d buf => Sys2Proof.Machine.execPlanLoad d buf s
  | .planLoadStored d => Sys2Proof.Machine.execPlanLoadStored d s
  | .planStore d => Sys2Proof.Machine.execPlanStore d s
  | .planSwap d => Sys2Proof.Machine.execPlanSwap d s
  | .planStop d => Sys2Proof.Machine.execPlanStop d s
  | .planDiscard d => Sys2Proof.Machine.execPlanDiscard d s
  | .channelBind d => Sys2Proof.Machine.execChannelBind d s
  | .channelUnbind d => Sys2Proof.Machine.execChannelUnbind d s
  | .channelSetKey d => Sys2Proof.Machine.execChannelSetKey d s
  | .channelQuery d => Sys2Proof.Machine.execChannelQuery d s
  | .stationRead d => Sys2Proof.Machine.execStationRead d s
  | .stationWrite d buf => Sys2Proof.Machine.execStationWrite d buf s
  | .stationClear d => Sys2Proof.Machine.execStationClear d s
  | .clsWrite d buf => Sys2Proof.Machine.execClsWrite d buf s
  | .clsInvalidate d => Sys2Proof.Machine.execClsInvalidate d s
  | .clsRead d => Sys2Proof.Machine.execClsRead d s
  | .clsCounterRead d => Sys2Proof.Machine.execClsCounterRead d s
  | .frgFlush d => Sys2Proof.Machine.execFrgFlush d s
  | .fragEntryExpiry h set at_ => Sys2Proof.Machine.execFragEntryExpiry h set at_ s
  | .fwdWrite d buf => Sys2Proof.Machine.execFwdWrite d buf s
  | .fwdDelete d => Sys2Proof.Machine.execFwdDelete d s
  | .fwdFlush d => Sys2Proof.Machine.execFwdFlush d s
  | .fwdRead d => Sys2Proof.Machine.execFwdRead d s
  | .vportWrite d buf => Sys2Proof.Machine.execVportWrite d buf s
  | .vportRead d => Sys2Proof.Machine.execVportRead d s
  | .tunWrite d buf => Sys2Proof.Machine.execTunWrite d buf s
  | .tunRead d => Sys2Proof.Machine.execTunRead d s
  | .bdWrite d buf => Sys2Proof.Machine.execBdWrite d buf s
  | .floodWrite d buf => Sys2Proof.Machine.execFloodWrite d buf s
  | .bridgeSweepVisit h set at_ => Sys2Proof.Machine.execBridgeSweepVisit h set at_ s
  | .auditShadowWrite who h b value clash => Sys2Proof.Machine.execAuditShadowWrite who h b value clash s
  | .fwdAuditFailRead who h => Sys2Proof.Machine.execFwdAuditFailRead who h s
  | .keyLoad d buf => Sys2Proof.Machine.execKeyLoad d buf s
  | .keyCommit target at_ => Sys2Proof.Machine.execKeyCommit target at_ s
  | .keyErase d => Sys2Proof.Machine.execKeyErase d s
  | .keyZeroize k at_ => Sys2Proof.Machine.execKeyZeroize k at_ s
  | .keyQuery d => Sys2Proof.Machine.execKeyQuery d s
  | .kekLoad d buf => Sys2Proof.Machine.execKekLoad d buf s
  | .kekErase d => Sys2Proof.Machine.execKekErase d s
  | .bpmRegionAdd d => Sys2Proof.Machine.execBpmRegionAdd d s
  | .bpmRegionRemove d => Sys2Proof.Machine.execBpmRegionRemove d s
  | .bpmRegionQuery d => Sys2Proof.Machine.execBpmRegionQuery d s
  | .bpmOwnerCreate d => Sys2Proof.Machine.execBpmOwnerCreate d s
  | .bpmOwnerSet d buf => Sys2Proof.Machine.execBpmOwnerSet d buf s
  | .bpmOwnerDestroy d => Sys2Proof.Machine.execBpmOwnerDestroy d s
  | .bufAlloc d => Sys2Proof.Machine.execBufAlloc d s
  | .bufRef d => Sys2Proof.Machine.execBufRef d s
  | .bufRelease d buf => Sys2Proof.Machine.execBufRelease d buf s
  | .bpmAudit d => Sys2Proof.Machine.execBpmAudit d s
  | .stockRefill c loc inst => Sys2Proof.Machine.execStockRefill c loc inst s
  | .bpmAlarmNextRead who => Sys2Proof.Machine.execBpmAlarmNextRead who s
  | .queueEntryFetch k idx entry at_ => Sys2Proof.Machine.execQueueEntryFetch k idx entry at_ s
  | .stalePhaseTimeout k at_ => Sys2Proof.Machine.execStalePhaseTimeout k at_ s
  | .ethSend k host at_ => Sys2Proof.Machine.execEthSend k host at_ s
  | .stagedRecordWrite k => Sys2Proof.Machine.execStagedRecordWrite k s
  | .cqStallTimeout k at_ => Sys2Proof.Machine.execCqStallTimeout k at_ s
  | .doorbellProducer fn page value => Sys2Proof.Machine.execDoorbellProducer fn page value s
  | .doorbellConsumer fn page value => Sys2Proof.Machine.execDoorbellConsumer fn page value s
  | .doorbellRearm fn page value => Sys2Proof.Machine.execDoorbellRearm fn page value s
  | .cqModerationWrite fn page value => Sys2Proof.Machine.execCqModerationWrite fn page value s
  | .aqCfgWrite who fn value => Sys2Proof.Machine.execAqCfgWrite who fn value s
  | .acqCfgWrite who fn value => Sys2Proof.Machine.execAcqCfgWrite who fn value s
  | .adminCommandStart fn => Sys2Proof.Machine.execAdminCommandStart fn s
  | .asyncEventPost => Sys2Proof.Machine.execAsyncEventPost s
  | .eventQueueDrain fn => Sys2Proof.Machine.execEventQueueDrain fn s
  | .adminNop d => Sys2Proof.Machine.execAdminNop d s
  | .queueCreate d => Sys2Proof.Machine.execQueueCreate d s
  | .queueDestroy d => Sys2Proof.Machine.execQueueDestroy d s
  | .cqCreate d => Sys2Proof.Machine.execCqCreate d s
  | .cqDestroy d => Sys2Proof.Machine.execCqDestroy d s
  | .queueQuery d => Sys2Proof.Machine.execQueueQuery d s
  | .queueReset d => Sys2Proof.Machine.execQueueReset d s
  | .evqSet d => Sys2Proof.Machine.execEvqSet d s
  | .handoffBind d => Sys2Proof.Machine.execHandoffBind d s
  | .handoffUnbind d => Sys2Proof.Machine.execHandoffUnbind d s
  | .bar4Request f write off len data poisoned => Sys2Proof.Machine.execBar4Request f write off len data poisoned s
  | .hostRequest f op at_ => Sys2Proof.Machine.execHostRequest f op at_ s
  | .winCommit who f => Sys2Proof.Machine.execWinCommit who f s
  | .winLoad who f => Sys2Proof.Machine.execWinLoad who f s
  | .interruptDue => Sys2Proof.Machine.execInterruptDue s
  | .cqHoldExpiry k at_ => Sys2Proof.Machine.execCqHoldExpiry k at_ s
  | .vectorGapEnd f v at_ => Sys2Proof.Machine.execVectorGapEnd f v at_ s
  | .powerstateD3hot f at_ => Sys2Proof.Machine.execPowerstateD3hot f at_ s
  | .powerstateD0 f => Sys2Proof.Machine.execPowerstateD0 f s
  | .d3DrainDeadline f at_ => Sys2Proof.Machine.execD3DrainDeadline f at_ s
  | .pmeTurnOff p => Sys2Proof.Machine.execPmeTurnOff p s
  | .aspmL1Entry p at_ => Sys2Proof.Machine.execAspmL1Entry p at_ s
  | .flr f at_ => Sys2Proof.Machine.execFlr f at_ s
  | .flrComplete f at_ => Sys2Proof.Machine.execFlrComplete f at_ s
  | .completionTimeout p what tag fn arg addr at_ => Sys2Proof.Machine.execCompletionTimeout p what tag fn arg addr at_ s
  | .readCompletionRx p what tag status data fn arg addr at_ => Sys2Proof.Machine.execReadCompletionRx p what tag status data fn arg addr at_ s
  | .vfnShareSet d buf => Sys2Proof.Machine.execVfnShareSet d buf s
  | .vfnShareQuery d => Sys2Proof.Machine.execVfnShareQuery d s
  | .vfnQuiesce d => Sys2Proof.Machine.execVfnQuiesce d s
  | .quiesceDeadline f at_ => Sys2Proof.Machine.execQuiesceDeadline f at_ s
  | .vfnResume d => Sys2Proof.Machine.execVfnResume d s
  | .vfnLogStart d => Sys2Proof.Machine.execVfnLogStart d s
  | .vfnLogSwap d => Sys2Proof.Machine.execVfnLogSwap d s
  | .vfnLogStop d => Sys2Proof.Machine.execVfnLogStop d s
  | .vfnStateSave d => Sys2Proof.Machine.execVfnStateSave d s
  | .vfnStateRestore d buf => Sys2Proof.Machine.execVfnStateRestore d buf s
  | .stoConnCreate d buf => Sys2Proof.Machine.execStoConnCreate d buf s
  | .stoConnClose d => Sys2Proof.Machine.execStoConnClose d s
  | .stoConnQuery d => Sys2Proof.Machine.execStoConnQuery d s
  | .stoSegmentRx c at_ => Sys2Proof.Machine.execStoSegmentRx c at_ s
  | .rtoExpiry c at_ => Sys2Proof.Machine.execRtoExpiry c at_ s
  | .delayedAck c at_ => Sys2Proof.Machine.execDelayedAck c at_ s
  | .stoCommandFetch k at_ => Sys2Proof.Machine.execStoCommandFetch k at_ s
  | .stoCommandStart c host at_ => Sys2Proof.Machine.execStoCommandStart c host at_ s
  | .segmentEnqueue c host at_ => Sys2Proof.Machine.execSegmentEnqueue c host at_ s
  | .sicDeliver accepts pcs => Sys2Proof.Machine.execSicDeliver accepts pcs s
  | .sicCoreComplete who core value => Sys2Proof.Machine.execSicCoreComplete who core value s
  | .sicSgi who value => Sys2Proof.Machine.execSicSgi who value s
  | .sicCoreFlush who core => Sys2Proof.Machine.execSicCoreFlush who core s
  | .sicSrcPendClear who w value => Sys2Proof.Machine.execSicSrcPendClear who w value s
  | .lullExpiry g at_ accepts pcs => Sys2Proof.Machine.execLullExpiry g at_ accepts pcs s
  | .ownClaim d => Sys2Proof.Machine.execOwnClaim d s
  | .ownRelease d => Sys2Proof.Machine.execOwnRelease d s
  | .ownSeize d buf => Sys2Proof.Machine.execOwnSeize d buf s
  | .ownDeviceReset d at_ => Sys2Proof.Machine.execOwnDeviceReset d at_ s
  | .plankeyEnroll d buf => Sys2Proof.Machine.execPlankeyEnroll d buf s
  | .plankeyRevoke d buf => Sys2Proof.Machine.execPlankeyRevoke d buf s
  | .kek0Install d buf => Sys2Proof.Machine.execKek0Install d buf s
  | .commissionClear d buf => Sys2Proof.Machine.execCommissionClear d buf s
  | .fwUpdate d buf => Sys2Proof.Machine.execFwUpdate d buf s
  | .fwSvnRaise d => Sys2Proof.Machine.execFwSvnRaise d s
  | .ownIdentityGet d => Sys2Proof.Machine.execOwnIdentityGet d s
  | .ownRenew who value at_ => Sys2Proof.Machine.execOwnRenew who value at_ s
  | .leaseLapse at_ => Sys2Proof.Machine.execLeaseLapse at_ s
  | .deviceReset at_ => Sys2Proof.Machine.execDeviceReset at_ s
  | .warmReset at_ => Sys2Proof.Machine.execWarmReset at_ s
  | .wdogKick who value at_ => Sys2Proof.Machine.execWdogKick who value at_ s
  | .firmwareWatchdog at_ => Sys2Proof.Machine.execFirmwareWatchdog at_ s
  | .hallFault h cause at_ => Sys2Proof.Machine.execHallFault h cause at_ s
  | .hallResetComplete h at_ => Sys2Proof.Machine.execHallResetComplete h at_ s
  | .halfFault e cause at_ => Sys2Proof.Machine.execHalfFault e cause at_ s
  | .deviceFault cause at_ => Sys2Proof.Machine.execDeviceFault cause at_ s
  | .deviceFaultReset at_ => Sys2Proof.Machine.execDeviceFaultReset at_ s
  | .laneFault l cause at_ => Sys2Proof.Machine.execLaneFault l cause at_ s
  | .laneResetComplete l at_ => Sys2Proof.Machine.execLaneResetComplete l at_ s
  | .fltStatusPageSet d => Sys2Proof.Machine.execFltStatusPageSet d s
  | .fltQuery d => Sys2Proof.Machine.execFltQuery d s
  | .fltInject d at_ => Sys2Proof.Machine.execFltInject d at_ s
  | .fltHallRestore d at_ => Sys2Proof.Machine.execFltHallRestore d at_ s
  | .almRead d => Sys2Proof.Machine.execAlmRead d s
  | .almClear d => Sys2Proof.Machine.execAlmClear d s
  | .almanacWrite => Sys2Proof.Machine.execAlmanacWrite s
  | .almUnfreeze who value => Sys2Proof.Machine.execAlmUnfreeze who value s
  | .smbStatus pec => Sys2Proof.Machine.execSmbStatus pec s
  | .smbLidTemp pec => Sys2Proof.Machine.execSmbLidTemp pec s
  | .smbTjMax pec => Sys2Proof.Machine.execSmbTjMax pec s
  | .smbVin pec mv => Sys2Proof.Machine.execSmbVin pec mv s
  | .smbIin pec ma => Sys2Proof.Machine.execSmbIin pec ma s
  | .smbPin pec units => Sys2Proof.Machine.execSmbPin pec units s
  | .smbPdev pec units => Sys2Proof.Machine.execSmbPdev pec units s
  | .smbPmod pec units => Sys2Proof.Machine.execSmbPmod pec units s
  | .smbBoot pec => Sys2Proof.Machine.execSmbBoot pec s
  | .smbSerial pec => Sys2Proof.Machine.execSmbSerial pec s
  | .smbIdcode pec => Sys2Proof.Machine.execSmbIdcode pec s
  | .smbDeviceReset pec value at_ => Sys2Proof.Machine.execSmbDeviceReset pec value at_ s
  | .jtagExtest drive sample => Sys2Proof.Machine.execJtagExtest drive sample s
  | .jtagSamplePreload preload sample => Sys2Proof.Machine.execJtagSamplePreload preload sample s
  | .jtagIdcode => Sys2Proof.Machine.execJtagIdcode s
  | .jtagClamp => Sys2Proof.Machine.execJtagClamp s
  | .jtagHighz => Sys2Proof.Machine.execJtagHighz s
  | .jtagBypass => Sys2Proof.Machine.execJtagBypass s
  | .jtagTestLogicReset at_ => Sys2Proof.Machine.execJtagTestLogicReset at_ s
  | .hostLinkDown p at_ => Sys2Proof.Machine.execHostLinkDown p at_ s
  | .hotReset p at_ => Sys2Proof.Machine.execHotReset p at_ s
  | .l1Exit p at_ => Sys2Proof.Machine.execL1Exit p at_ s
  | .laneEnergyGone l => Sys2Proof.Machine.execLaneEnergyGone l s
  | .inputUvRearm at_ => Sys2Proof.Machine.execInputUvRearm at_ s
  | .ppsOutPulseEnd at_ => Sys2Proof.Machine.execPpsOutPulseEnd at_ s
  | .vfEnableWrite p en n at_ => Sys2Proof.Machine.execVfEnableWrite p en n at_ s
  | .busMasterEnableWrite f v => Sys2Proof.Machine.execBusMasterEnableWrite f v s
  | .libraryCopyComplete ok => Sys2Proof.Machine.execLibraryCopyComplete ok s

end Sys2Proof.Machine
end

