-- ==== Sys2Proof/Safety.lean ====
section
/-! DEFINITION. What counts as a safe run: the form that both memories of the part keep, and runs in which no step stops. -/

namespace Sys2Proof.Machine

/-- Both memories of the part, the alcoves and the Atrium, are in their canonical form. -/
def MemoriesCanonical (s : State) : Prop := Memory.wf s.alcove = true ∧ Memory.wf s.atrium = true

/-- A run of so many steps, none of which stops, from one state to another. -/
def SafeRun : Nat → State → State → Prop
  | 0, s, t => t = s
  | n + 1, s, t => ∃ u, step s = .next u ∧ SafeRun n u t

end Sys2Proof.Machine
end

