-- ==== Sys2Proof/Certificates/Slice0/Obligations.lean ====
section
/-! DEFINITION. The statements about the model: what each command does under conditions on the state and the operands alone, what reset leaves, what stays
as it was, and what every step keeps. Names under Sys2Proof.Spec are the vocabulary of the statements. -/

namespace Sys2Proof.Spec

open Sys2Proof.Machine

/-- A command completes: it answers this next state. -/
def Gives (c : Instr) (s t : State) : Prop := Machine.exec c s = .next t

/-! ### Kernels (chapter 6) -/

/-- The words of formats R, I (and B, with RA and RB in the places of RD and RA), L, T and E (R165). -/
def wordR (op fn rd ra rb : Nat) : Nat := 2 ^ 26 * op + 2 ^ 21 * rd + 2 ^ 16 * ra + 2 ^ 11 * rb + fn
def wordI (op rd ra imm : Nat) : Nat := 2 ^ 26 * op + 2 ^ 21 * rd + 2 ^ 16 * ra + imm
def wordL (op count body : Nat) : Nat := 2 ^ 26 * op + 2 ^ 12 * count + body
def wordT (op rd land : Nat) : Nat := 2 ^ 26 * op + 2 ^ 21 * rd + land
def wordE (op ra rb act span base : Nat) : Nat := 2 ^ 26 * op + 2 ^ 21 * ra + 2 ^ 16 * rb + 2 ^ 13 * act + 2 ^ 8 * (span - 1) + 8 * base

/-- A kernel runs on the core, clocks of its budget are left, the word that comes next in it is this one, and it is read, corrected or not. -/
def Runs (s : State) (h c ecc w : Nat) : Prop :=
  s.kernelRuns h c = true ∧ (s.rcore h c).clock < (s.rcore h c).budget ∧ ecc ≤ 1 ∧ s.codeWord h c (s.rcore h c).pc = some w

/-- The state in which an instruction of a kernel takes its effect: Device Time has come to its clock, RFX_CORE.INDEX shows it, and a corrected word is
counted. -/
def atWord (s : State) (h c ecc : Nat) : State :=
  let m := s.rcore h c
  let t := (s.atTime (clockAt m.start (m.issue + m.clock) m.rate)).setFld Fld.RFX_CORE_INDEX m.pc h c
  if ecc = 1 then t.bump Fld.TSQ_CNT_ECC_COUNT h else t

/-- An instruction has ended after n clocks with the core as it then is, and control goes to an index, as the loops have it. -/
def stepTo (s : State) (h c : Nat) (m : RCore) (n i : Nat) : State :=
  s.setCore h c { m with clock := m.clock + n, loops := (wrapLoops m.loops i).1, pc := (wrapLoops m.loops i).2 }

/-- An instruction that leaves the core as given has ended after n clocks, and the following one is next. -/
def kernelStep (s : State) (h c ecc : Nat) (m : RCore) (n : Nat) : State := stepTo (atWord s h c ecc) h c m n (m.pc + 1)

/-- A whole number saturated to 32 signed bits, and to 64. -/
def saturate32 (x : Int) : Int := max (-2147483648) (min 2147483647 x)
def saturate64 (x : Int) : Int := max (-9223372036854775808) (min 9223372036854775807 x)

/-- IMM sign-extended, as a whole number. -/
def immInt (imm : Nat) : Int := (BitVec.ofNat 16 imm).toInt

end Sys2Proof.Spec

open Sys2Proof Sys2Proof.Machine Sys2Proof.Spec

/-! ### Steps and reset -/

/-- A step runs the command at the front of the queue with the queue's rest; the commands are served first in, first out. With nothing waiting a step changes nothing (the model's choice, log entry 1). -/
def Obligations.StepsServeTheQueue : Prop :=
  (∀ (c : Instr) (rest : List Instr) (s : State), step { s with pending := c :: rest } = exec c { s with pending := rest }) ∧
  (∀ s : State, s.pending = [] → step s = .next s)

/-- After reset every register of the map reads as its field table's Reset column, the part has no owner, no plan, and waits for power good. -/
def Obligations.ResetLeavesResetColumns : Prop :=
  (∀ (r : Reg) (o i : Nat), State.reset.word r o i = r.reset o i) ∧ State.reset.ownerValid = false ∧ State.reset.planActive = false ∧
  State.reset.fld Fld.PLN_POWER_BUDGET_WATTS = 480 ∧ State.reset.fld Fld.OWN_LEASE_TERM_MS = 3000 ∧ State.reset.fld Fld.BPM_CFG_SPAN_LOG2 = 4 ∧
  State.reset.fld Fld.TB_CTRL_SLEW = 10 ∧ State.reset.fld Fld.WQ_CFG_CQ_STALL_MS = 100 ∧ State.reset.fld Fld.ALM_CFG_HIGH_WATER = 24576 ∧
  (∀ p : Nat, p < 8 → State.reset.flag Fld.EP_PORT_MAP_EN 0 p = decide (p < 2)) ∧ State.reset.own.powered = false ∧ State.reset.pending = []

/-! ### Kernel instructions (R165 to R178) -/

/-- The integer instructions of format R, where the kernel's next word spells them: RD takes the value the table gives from RA and RB as they were, the other
registers keep theirs, the clocks of the table pass, and the following instruction is next. -/
def Obligations.KernelIntegerOps : Prop :=
  ∀ (h c ecc rd ra rb : Nat) (s : State), rd < 32 → ra < 32 → rb < 32 →
    let m := s.rcore h c
    let a := m.r ra
    let b := m.r rb
    let op := fun (fn : Nat) (i : Instr) (n : Nat) (v : Word) => Runs s h c ecc (wordR 0x00 fn rd ra rb) → Gives i s (kernelStep s h c ecc (m.set rd v) n)
    op 0x000 (.addOp h c ecc rd ra rb) 1 (BitVec.ofNat 32 (a.toNat + b.toNat)) ∧
    op 0x001 (.subOp h c ecc rd ra rb) 1 (BitVec.ofInt 32 (a.toInt - b.toInt)) ∧
    op 0x002 (.andOp h c ecc rd ra rb) 1 (a &&& b) ∧
    op 0x003 (.orOp h c ecc rd ra rb) 1 (a ||| b) ∧
    op 0x004 (.xorOp h c ecc rd ra rb) 1 (a ^^^ b) ∧
    op 0x005 (.shl h c ecc rd ra rb) 1 (BitVec.ofNat 32 (a.toNat * 2 ^ (b.toNat % 32))) ∧
    op 0x006 (.shr h c ecc rd ra rb) 1 (BitVec.ofNat 32 (a.toNat / 2 ^ (b.toNat % 32))) ∧
    op 0x007 (.sar h c ecc rd ra rb) 1 (BitVec.ofInt 32 (a.toInt / 2 ^ (b.toNat % 32))) ∧
    op 0x008 (.slt h c ecc rd ra rb) 1 (if a.toInt < b.toInt then 1 else 0) ∧
    op 0x009 (.sltu h c ecc rd ra rb) 1 (if a.toNat < b.toNat then 1 else 0) ∧
    op 0x00A (.minOp h c ecc rd ra rb) 1 (BitVec.ofInt 32 (min a.toInt b.toInt)) ∧
    op 0x00B (.maxOp h c ecc rd ra rb) 1 (BitVec.ofInt 32 (max a.toInt b.toInt)) ∧
    op 0x00C (.minu h c ecc rd ra rb) 1 (BitVec.ofNat 32 (min a.toNat b.toNat)) ∧
    op 0x00D (.maxu h c ecc rd ra rb) 1 (BitVec.ofNat 32 (max a.toNat b.toNat)) ∧
    op 0x010 (.mulOp h c ecc rd ra rb) 2 (BitVec.ofNat 32 (a.toNat * b.toNat)) ∧
    op 0x011 (.mulh h c ecc rd ra rb) 2 (BitVec.ofInt 32 (a.toInt * b.toInt / 2 ^ 32)) ∧
    op 0x012 (.mulhu h c ecc rd ra rb) 2 (BitVec.ofNat 32 (a.toNat * b.toNat / 2 ^ 32))

/-- The unsigned divisions and QDIV: a divisor of 0 gives the results of R168 and is counted; nothing aborts. The Q16.16 instructions saturate: the exact result, rounded as R167 says, held to 32 signed bits. -/
def Obligations.KernelDivisionsAndQFormat : Prop :=
  (∀ (h c ecc rd ra rb : Nat) (s : State), rd < 32 → ra < 32 → rb < 32 →
      let m := s.rcore h c
      let a := m.r ra
      let b := m.r rb
      let op := fun (fn : Nat) (i : Instr) (n : Nat) (v : Word) => Runs s h c ecc (wordR 0x00 fn rd ra rb) →
        let t := if b.toNat = 0 then (atWord s h c ecc).bump Fld.RFX_CNT_DIVZ_COUNT h else atWord s h c ecc
        Gives i s (stepTo t h c (m.set rd v) n (m.pc + 1))
      op 0x014 (.divu h c ecc rd ra rb) 34 (if b.toNat = 0 then 0xFFFFFFFF else BitVec.ofNat 32 (a.toNat / b.toNat)) ∧
      op 0x015 (.remu h c ecc rd ra rb) 34 (BitVec.ofNat 32 (a.toNat % b.toNat)) ∧
      op 0x023 (.qdiv h c ecc rd ra rb) 36 (if b.toNat = 0 then (if 0 ≤ a.toInt then 0x7FFFFFFF else 0x80000000)
        else BitVec.ofInt 32 (saturate32 (Int.tdiv (a.toInt * 65536) b.toInt)))) ∧
  (∀ (h c ecc rd ra rb : Nat) (s : State), rd < 32 → ra < 32 → rb < 32 →
      let m := s.rcore h c
      let a := (m.r ra).toInt
      let b := (m.r rb).toInt
      let op := fun (w : Nat) (i : Instr) (n : Nat) (x : Int) => Runs s h c ecc w → Gives i s (kernelStep s h c ecc (m.set rd (BitVec.ofInt 32 (saturate32 x))) n)
      op (wordR 0x00 0x020 rd ra rb) (.qadd h c ecc rd ra rb) 1 (a + b) ∧
      op (wordR 0x00 0x021 rd ra rb) (.qsub h c ecc rd ra rb) 1 (a - b) ∧
      op (wordR 0x00 0x022 rd ra rb) (.qmul h c ecc rd ra rb) 2 ((a * b + 32768) / 65536) ∧
      op (wordR 0x00 0x024 rd ra 0) (.qabs h c ecc rd ra) 1 (if a < 0 then -a else a) ∧
      op (wordR 0x00 0x025 rd ra 0) (.qneg h c ecc rd ra) 1 (-a))

/-- The instructions with an immediate: IMM is sign-extended but in ANDI, ORI, XORI and LUI. -/
def Obligations.KernelImmediateOps : Prop :=
  ∀ (h c ecc rd ra imm : Nat) (s : State), rd < 32 → ra < 32 → imm < 2 ^ 16 →
    let m := s.rcore h c
    let a := m.r ra
    let op := fun (w : Nat) (i : Instr) (v : Word) => Runs s h c ecc w → Gives i s (kernelStep s h c ecc (m.set rd v) 1)
    op (wordI 0x01 rd ra imm) (.addi h c ecc rd ra imm) (BitVec.ofInt 32 (a.toInt + immInt imm)) ∧
    op (wordI 0x02 rd ra imm) (.andi h c ecc rd ra imm) (a &&& BitVec.ofNat 32 imm) ∧
    op (wordI 0x03 rd ra imm) (.ori h c ecc rd ra imm) (a ||| BitVec.ofNat 32 imm) ∧
    op (wordI 0x04 rd ra imm) (.xori h c ecc rd ra imm) (a ^^^ BitVec.ofNat 32 imm) ∧
    op (wordI 0x05 rd ra imm) (.slti h c ecc rd ra imm) (if a.toInt < immInt imm then 1 else 0) ∧
    op (wordI 0x06 rd ra imm) (.sltiu h c ecc rd ra imm) (if a.toNat < (BitVec.ofInt 32 (immInt imm)).toNat then 1 else 0) ∧
    op (wordI 0x07 rd 0 imm) (.lui h c ecc rd imm) (BitVec.ofNat 32 (imm * 65536)) ∧
    (imm < 32 →
      op (wordI 0x08 rd ra imm) (.shli h c ecc rd ra imm) (BitVec.ofNat 32 (a.toNat * 2 ^ imm)) ∧
      op (wordI 0x09 rd ra imm) (.shri h c ecc rd ra imm) (BitVec.ofNat 32 (a.toNat / 2 ^ imm)) ∧
      op (wordI 0x0A rd ra imm) (.sari h c ecc rd ra imm) (BitVec.ofInt 32 (a.toInt / 2 ^ imm)))

/-- The accumulator instructions: ACC is a 64-bit signed number that MAC and MSU saturate; ACRD rounds and shifts it. -/
def Obligations.KernelAccumulator : Prop :=
  ∀ (h c ecc rd ra rb imm : Nat) (s : State), rd < 32 → ra < 32 → rb < 32 → imm < 64 →
    let m := s.rcore h c
    let a := (m.r ra).toInt
    let b := (m.r rb).toInt
    let op := fun (w : Nat) (i : Instr) (n : Nat) (m : RCore) => Runs s h c ecc w → Gives i s (kernelStep s h c ecc m n)
    op (wordR 0x10 0 0 ra rb) (.mac h c ecc ra rb) 2 { m with acc := saturate64 (m.acc + a * b) } ∧
    op (wordR 0x11 0 0 ra rb) (.msu h c ecc ra rb) 2 { m with acc := saturate64 (m.acc - a * b) } ∧
    op (wordR 0x12 0 0 0 0) (.acclr h c ecc) 1 { m with acc := 0 } ∧
    op (wordI 0x13 rd 0 imm) (.acrd h c ecc rd imm) 1 (m.set rd (BitVec.ofInt 32 (saturate32 (if imm = 0 then m.acc else saturate64 (m.acc + 2 ^ (imm - 1)) / 2 ^ imm)))) ∧
    op (wordR 0x14 0 0 ra rb) (.acset h c ecc ra rb) 1 { m with acc := (BitVec.ofNat 64 ((m.r ra).toNat + 2 ^ 32 * (m.r rb).toNat)).toInt } ∧
    op (wordR 0x15 0 rd 0 0) (.acget h c ecc rd) 1 ((m.set rd (BitVec.ofInt 32 m.acc)).set (rd + 1) (BitVec.ofInt 32 (m.acc / 2 ^ 32)))

/-- Loads and stores whose access lies in its space and is aligned: an alcove load reads the alcove under the kernel's own earlier stores, an alcove store goes
to the commit buffer, and scratch is read and written at once. One beyond its space, or misaligned, aborts the kernel with reason 2 or 3. -/
def Obligations.KernelMemoryOps : Prop :=
  ∀ (h c ecc rd ra imm : Nat) (s : State), rd < 32 → ra < 32 → imm < 2 ^ 16 →
    let m := s.rcore h c
    let a := m.addr ra imm
    let t := fun (n : Nat) => (atWord s h c ecc).poisonUse ((atWord s h c ecc).alcoveBad h a n)
    let load := fun (op n : Nat) (i : Instr) => Runs s h c ecc (wordI op rd ra imm) → a + n ≤ 0x01C00000 → a % n = 0 →
      Gives i s (stepTo (t n) h c (m.set rd (BitVec.ofNat 32 (leNat (s.kernelRead h m a n)))) 4 (m.pc + 1))
    let store := fun (op n : Nat) (i : Instr) => Runs s h c ecc (wordI op rd ra imm) → a + n ≤ 0x01C00000 → a % n = 0 →
      Gives i s (kernelStep s h c ecc { m with commit := m.commit ++ [.store a (leBytes n (m.r rd).toNat)] } 1)
    let stray := fun (op n top : Nat) (i : Instr) => Runs s h c ecc (wordI op rd ra imm) → top < a + n ∨ a % n ≠ 0 →
      Gives i s ((atWord s h c ecc).kernelAbort h c (if top < a + n then 2 else 3) (clockAt m.start (m.issue + m.clock) m.rate))
    load 0x18 4 (.ldw h c ecc rd ra imm) ∧ load 0x19 2 (.ldhu h c ecc rd ra imm) ∧
    store 0x1A 4 (.stw h c ecc rd ra imm) ∧ store 0x1B 2 (.sth h c ecc rd ra imm) ∧
    (Runs s h c ecc (wordI 0x1C rd ra imm) → a + 4 ≤ 1024 → a % 4 = 0 → Gives (.lds h c ecc rd ra imm) s
      (kernelStep s h c ecc (m.set rd (BitVec.ofNat 32 (leNat (Memory.readN m.scratch a 4)))) 1)) ∧
    (Runs s h c ecc (wordI 0x1D rd ra imm) → a + 4 ≤ 1024 → a % 4 = 0 → Gives (.sts h c ecc rd ra imm) s
      (kernelStep s h c ecc { m with scratch := Memory.writeN m.scratch a (leBytes 4 (m.r rd).toNat) } 1)) ∧
    stray 0x18 4 0x01C00000 (.ldw h c ecc rd ra imm) ∧ stray 0x19 2 0x01C00000 (.ldhu h c ecc rd ra imm) ∧
    stray 0x1A 4 0x01C00000 (.stw h c ecc rd ra imm) ∧ stray 0x1B 2 0x01C00000 (.sth h c ecc rd ra imm) ∧
    stray 0x1C 4 1024 (.lds h c ecc rd ra imm) ∧ stray 0x1D 4 1024 (.sts h c ecc rd ra imm)

/-- Branches and loops: a branch costs two clocks, taken or not; LOOP runs the next BODY instructions COUNT times; NOP takes a clock. -/
def Obligations.KernelControlFlow : Prop :=
  ∀ (h c ecc ra rb off count body : Nat) (s : State), ra < 32 → rb < 32 → off < 2 ^ 16 → count < 2 ^ 14 → body < 2 ^ 12 →
    let m := s.rcore h c
    let a := m.r ra
    let b := m.r rb
    let branch := fun (w : Nat) (i : Instr) (taken : Prop) [Decidable taken] => Runs s h c ecc w →
      Gives i s (stepTo (atWord s h c ecc) h c m 2 (if taken then m.pc + off else m.pc + 1))
    branch (wordI 0x20 ra rb off) (.beq h c ecc ra rb off) (a = b) ∧
    branch (wordI 0x21 ra rb off) (.bne h c ecc ra rb off) (a ≠ b) ∧
    branch (wordI 0x22 ra rb off) (.blt h c ecc ra rb off) (a.toInt < b.toInt) ∧
    branch (wordI 0x23 ra rb off) (.bge h c ecc ra rb off) (a.toInt ≥ b.toInt) ∧
    branch (wordI 0x24 ra rb off) (.bltu h c ecc ra rb off) (a.toNat < b.toNat) ∧
    branch (wordI 0x25 ra rb off) (.bgeu h c ecc ra rb off) (a.toNat ≥ b.toNat) ∧
    branch (wordI 0x26 0 0 off) (.jmp h c ecc off) True ∧
    (Runs s h c ecc (wordL 0x27 count body) → Gives (.loopOp h c ecc count body) s ((atWord s h c ecc).setCore h c
      { m with clock := m.clock + 1, pc := m.pc + 1, loops := { left := count, first := m.pc + 1, stop := m.pc + 1 + body } :: m.loops })) ∧
    (Runs s h c ecc (wordR 0x29 0 0 0 0) → Gives (.rfxNop h c ecc) s (kernelStep s h c ecc m 1))

/-- Time, lands and the commit: TIME samples ns since the origin, ECAP and ELVL read the snapshot, ESCH and ECAN enter the commit buffer with their operands,
and END commits the buffer in its fourth clock. -/
def Obligations.KernelTimeLandsCommit : Prop :=
  ∀ (h c ecc rd ra rb act span base land : Nat) (s : State), rd < 32 → ra < 32 → rb < 32 → act < 8 → 1 ≤ span → span ≤ 32 → base < 32 → land < 32 →
    let m := s.rcore h c
    let t := atWord s h c ecc
    let ns := (m.start - s.origin) / nsTicks + (m.issue + m.clock) * 100 / m.rate
    let pair := fun (m : RCore) (r v : Nat) => (m.set r (BitVec.ofNat 32 v)).set (r + 1) (BitVec.ofNat 32 (v / 2 ^ 32))
    (Runs s h c ecc (wordT 0x30 rd 0) → Gives (.timeOp h c ecc rd) s (kernelStep s h c ecc (pair m rd ns) 2)) ∧
    (∀ lvl e n, Runs s h c ecc (wordT 0x31 rd land) → (s.land land).snap = (lvl, some e, n) → Gives (.ecap h c ecc rd land) s
      (kernelStep s h c ecc ((pair m rd (t.nsSince e.time)).set (rd + 2) (BitVec.ofNat 32 (b2n e.rising * 65536 + n % 65536))) 4)) ∧
    (∀ lvl n, Runs s h c ecc (wordT 0x31 rd land) → (s.land land).snap = (lvl, none, n) → Gives (.ecap h c ecc rd land) s
      (kernelStep s h c ecc ((pair m rd 0).set (rd + 2) 0) 4)) ∧
    (Runs s h c ecc (wordT 0x32 rd land) → Gives (.elvl h c ecc rd land) s (kernelStep s h c ecc (m.set rd (if (s.land land).snap.1 then 1 else 0)) 1)) ∧
    (Runs s h c ecc (wordE 0x33 ra rb act span base) → Gives (.esch h c ecc ra rb act span base) s (kernelStep s h c ecc
      { m with commit := m.commit ++ [.sched (m.r rb).toNat span base act ((m.r ra).toNat + 2 ^ 32 * (m.r (ra + 1)).toNat) (m.r (ra + 2)).toNat] } 1)) ∧
    (Runs s h c ecc (wordE 0x34 0 rb 0 span base) → Gives (.ecan h c ecc rb span base) s (kernelStep s h c ecc { m with commit := m.commit ++ [.cancel (m.r rb).toNat span base] } 1)) ∧
    (Runs s h c ecc (wordR 0x28 0 0 0 0) → m.clock + 4 ≤ m.budget → ∃ u, Gives (.endOp h c ecc) s u ∧ (u.rcore h c).commit = [] ∧ u.flag Fld.RFX_CORE_RUNNING h c = false ∧
      u.fld Fld.RFX_CORE_OUTCOME h c = 1 ∧ u.now = max s.now (clockAt m.start (m.issue + m.clock + 4) m.rate) ∧
      u.alcove = (m.commit.foldl (fun (x : State) e => x.applyEntry h m e) (t.atTime (clockAt m.start (m.issue + m.clock + 4) m.rate))).alcove ∧
      u.lands = (m.commit.foldl (fun (x : State) e => x.applyEntry h m e) (t.atTime (clockAt m.start (m.issue + m.clock + 4) m.rate))).lands)

/-- The instruction of a kernel that a command stands for: its hall, its core, what the store's code says of its word, and the word that spells it. -/
def Sys2Proof.Spec.kernelWord : Instr → Option (Nat × Nat × Nat × Nat)
  | .addOp h c e rd ra rb => some (h, c, e, wordR 0 0x000 rd ra rb)
  | .subOp h c e rd ra rb => some (h, c, e, wordR 0 0x001 rd ra rb)
  | .andOp h c e rd ra rb => some (h, c, e, wordR 0 0x002 rd ra rb)
  | .orOp h c e rd ra rb => some (h, c, e, wordR 0 0x003 rd ra rb)
  | .xorOp h c e rd ra rb => some (h, c, e, wordR 0 0x004 rd ra rb)
  | .shl h c e rd ra rb => some (h, c, e, wordR 0 0x005 rd ra rb)
  | .shr h c e rd ra rb => some (h, c, e, wordR 0 0x006 rd ra rb)
  | .sar h c e rd ra rb => some (h, c, e, wordR 0 0x007 rd ra rb)
  | .slt h c e rd ra rb => some (h, c, e, wordR 0 0x008 rd ra rb)
  | .sltu h c e rd ra rb => some (h, c, e, wordR 0 0x009 rd ra rb)
  | .minOp h c e rd ra rb => some (h, c, e, wordR 0 0x00A rd ra rb)
  | .maxOp h c e rd ra rb => some (h, c, e, wordR 0 0x00B rd ra rb)
  | .minu h c e rd ra rb => some (h, c, e, wordR 0 0x00C rd ra rb)
  | .maxu h c e rd ra rb => some (h, c, e, wordR 0 0x00D rd ra rb)
  | .mulOp h c e rd ra rb => some (h, c, e, wordR 0 0x010 rd ra rb)
  | .mulh h c e rd ra rb => some (h, c, e, wordR 0 0x011 rd ra rb)
  | .mulhu h c e rd ra rb => some (h, c, e, wordR 0 0x012 rd ra rb)
  | .divu h c e rd ra rb => some (h, c, e, wordR 0 0x014 rd ra rb)
  | .remu h c e rd ra rb => some (h, c, e, wordR 0 0x015 rd ra rb)
  | .qadd h c e rd ra rb => some (h, c, e, wordR 0 0x020 rd ra rb)
  | .qsub h c e rd ra rb => some (h, c, e, wordR 0 0x021 rd ra rb)
  | .qmul h c e rd ra rb => some (h, c, e, wordR 0 0x022 rd ra rb)
  | .qdiv h c e rd ra rb => some (h, c, e, wordR 0 0x023 rd ra rb)
  | .qabs h c e rd ra => some (h, c, e, wordR 0 0x024 rd ra 0)
  | .qneg h c e rd ra => some (h, c, e, wordR 0 0x025 rd ra 0)
  | .addi h c e rd ra imm => some (h, c, e, wordI 0x01 rd ra imm)
  | .andi h c e rd ra imm => some (h, c, e, wordI 0x02 rd ra imm)
  | .ori h c e rd ra imm => some (h, c, e, wordI 0x03 rd ra imm)
  | .xori h c e rd ra imm => some (h, c, e, wordI 0x04 rd ra imm)
  | .slti h c e rd ra imm => some (h, c, e, wordI 0x05 rd ra imm)
  | .sltiu h c e rd ra imm => some (h, c, e, wordI 0x06 rd ra imm)
  | .lui h c e rd imm => some (h, c, e, wordI 0x07 rd 0 imm)
  | .shli h c e rd ra imm => some (h, c, e, wordI 0x08 rd ra imm)
  | .shri h c e rd ra imm => some (h, c, e, wordI 0x09 rd ra imm)
  | .sari h c e rd ra imm => some (h, c, e, wordI 0x0A rd ra imm)
  | .mac h c e ra rb => some (h, c, e, wordR 0x10 0 0 ra rb)
  | .msu h c e ra rb => some (h, c, e, wordR 0x11 0 0 ra rb)
  | .acclr h c e => some (h, c, e, wordR 0x12 0 0 0 0)
  | .acrd h c e rd imm => some (h, c, e, wordI 0x13 rd 0 imm)
  | .acset h c e ra rb => some (h, c, e, wordR 0x14 0 0 ra rb)
  | .acget h c e rd => some (h, c, e, wordR 0x15 0 rd 0 0)
  | .ldw h c e rd ra imm => some (h, c, e, wordI 0x18 rd ra imm)
  | .ldhu h c e rd ra imm => some (h, c, e, wordI 0x19 rd ra imm)
  | .stw h c e rs ra imm => some (h, c, e, wordI 0x1A rs ra imm)
  | .sth h c e rs ra imm => some (h, c, e, wordI 0x1B rs ra imm)
  | .lds h c e rd ra imm => some (h, c, e, wordI 0x1C rd ra imm)
  | .sts h c e rs ra imm => some (h, c, e, wordI 0x1D rs ra imm)
  | .beq h c e ra rb off => some (h, c, e, wordI 0x20 ra rb off)
  | .bne h c e ra rb off => some (h, c, e, wordI 0x21 ra rb off)
  | .blt h c e ra rb off => some (h, c, e, wordI 0x22 ra rb off)
  | .bge h c e ra rb off => some (h, c, e, wordI 0x23 ra rb off)
  | .bltu h c e ra rb off => some (h, c, e, wordI 0x24 ra rb off)
  | .bgeu h c e ra rb off => some (h, c, e, wordI 0x25 ra rb off)
  | .jmp h c e off => some (h, c, e, wordI 0x26 0 0 off)
  | .loopOp h c e count body => some (h, c, e, wordL 0x27 count body)
  | .endOp h c e => some (h, c, e, wordR 0x28 0 0 0 0)
  | .rfxNop h c e => some (h, c, e, wordR 0x29 0 0 0 0)
  | .timeOp h c e rd => some (h, c, e, wordT 0x30 rd 0)
  | .ecap h c e rd land => some (h, c, e, wordT 0x31 rd land)
  | .elvl h c e rd land => some (h, c, e, wordT 0x32 rd land)
  | .esch h c e ra rb act span base => some (h, c, e, wordE 0x33 ra rb act span base)
  | .ecan h c e rb span base => some (h, c, e, wordE 0x34 0 rb 0 span base)
  | _ => none

/-- Whatever the instruction: with no kernel on the core, or where the kernel's next word spells another instruction, it does nothing (log entry 16); once the
budget is used up the kernel is aborted with reason 1 and the core is free, and a word that cannot be read aborts it with reason 4, the core staying within
its budget; the abort discards the commit buffer, frees nothing of the alcove, and is counted. -/
def Obligations.KernelAborts : Prop :=
  ∀ (i : Instr) (h c ecc w : Nat) (s : State), i.wellFormed = true → kernelWord i = some (h, c, ecc, w) →
    let m := s.rcore h c
    (s.kernelRuns h c = false → Gives i s s) ∧
    (s.kernelRuns h c = true → m.clock < m.budget → ecc ≤ 1 → s.codeWord h c m.pc ≠ some w → Gives i s s) ∧
    (s.kernelRuns h c = true → m.budget ≤ m.clock → s.coreBusy h c = true → ∃ u, Gives i s u ∧ (u.rcore h c).commit = [] ∧
      u.flag Fld.RFX_CORE_RUNNING h c = false ∧ u.fld Fld.RFX_CORE_OUTCOME h c = 2 ∧ u.fld Fld.RFX_CORE_REASON h c = 1 ∧ u.coreBusy h c = false ∧
      u.fld Fld.RFX_CNT_ABORT_COUNT h c = (s.fld Fld.RFX_CNT_ABORT_COUNT h c + 1) % 2 ^ 32 ∧ u.alcove = s.alcove ∧ u.atrium = s.atrium) ∧
    (s.kernelRuns h c = true → m.clock < m.budget → 2 ≤ ecc → ∃ u, Gives i s u ∧ (u.rcore h c).commit = [] ∧
      u.flag Fld.RFX_CORE_RUNNING h c = false ∧ u.fld Fld.RFX_CORE_OUTCOME h c = 2 ∧ u.fld Fld.RFX_CORE_REASON h c = 4 ∧ u.coreBusy h c = s.coreBusy h c ∧
      u.fld Fld.RFX_ABORT_INFO_INDEX h = m.pc % 2 ^ 14 ∧ u.fld Fld.RFX_CNT_ABORT_COUNT h c = (s.fld Fld.RFX_CNT_ABORT_COUNT h c + 1) % 2 ^ 32 ∧ u.alcove = s.alcove ∧ u.atrium = s.atrium)

/-- What a kernel instruction other than END cannot reach: the alcove, the Atrium, what has left the part, the lands, the queues, the tables, and every other
core. w0 reads 0 whatever is written to it, and a write of another register changes that register alone. -/
def Obligations.KernelFrameAndRegisters : Prop :=
  (∀ (i : Instr) (h c ecc w : Nat) (s t : State), kernelWord i = some (h, c, ecc, w) → (∀ e, i ≠ .endOp h c e) → h < 18 → c < 4 → Gives i s t →
      t.alcove = s.alcove ∧ t.atrium = s.atrium ∧ t.out = s.out ∧ t.lands = s.lands ∧ t.wq = s.wq ∧ t.fw = s.fw ∧ t.bpm = s.bpm ∧ t.keys = s.keys ∧ t.dma = s.dma ∧
      t.latched = s.latched ∧ t.wide = s.wide ∧ t.hallq = s.hallq ∧ t.pending = s.pending ∧
      (∀ h' c', h' < 18 → c' < 4 → (h', c') ≠ (h, c) → t.rcore h' c' = s.rcore h' c')) ∧
  (∀ (m : RCore) (i j : Nat) (v : Word), (m.set i v).r 0 = 0 ∧ (i % 32 ≠ 0 → (m.set i v).r i = v) ∧ (i % 32 ≠ j % 32 → (m.set i v).r j = m.r j) ∧
      (m.set i v).acc = m.acc ∧ (m.set i v).scratch = m.scratch ∧ (m.set i v).commit = m.commit)

/-! ### Ops of tread programs (chapters 4 and 5) -/

/-- The hall runs a tread program, and the op of a slot of its current tread is this one, of this opcode, and has not issued. -/
def Sys2Proof.Spec.Issues (s : State) (h slot opc o : Nat) : Prop :=
  s.running h = true ∧ (s.seq h).ops.getD slot 0 = o ∧ o ≠ 0 ∧ Plan.opcode o = opc

/-- The op has issued: the slot is empty, and Device Time has come to its issue clock. -/
def Sys2Proof.Spec.issued (s : State) (h slot o : Nat) : State :=
  (s.setSeq h { s.seq h with ops := (s.seq h).ops.set slot 0 }).atTime (clockAt (s.seq h).start (Plan.offset o) (s.clocks h))

/-- The op has issued, and the results of ALLOCs that are due by its clock stand in their pointers (R101). -/
def Sys2Proof.Spec.pointersAt (s : State) (h slot o : Nat) : State := (issued s h slot o).allocsLand h

/-- The op row a command stands for: its hall, its slot and its opcode. -/
def Sys2Proof.Spec.opRow : Instr → Option (Nat × Nat × Nat)
  | .opNop h slot => some (h, slot, 0)
  | .move h => some (h, 0, 0x10)
  | .refresh h => some (h, 0, 0x11)
  | .setptr h => some (h, 0, 0x12)
  | .win h => some (h, 1, 0x20)
  | .dmaOp h => some (h, 2, 0x31)
  | .bufOpAlloc h | .bufOpHand h | .bufOpRelease h => some (h, 2, 0x32)
  | .rfx h => some (h, 3, 0x50)
  | .wake h => some (h, 3, 0x51)
  | .ctx h => some (h, 3, 0x52)
  | .crx h => some (h, 3, 0x53)
  | .evtOp h => some (h, 3, 0x54)
  | .skipOp h => some (h, 3, 0x55)
  | .land h => some (h, 3, 0x56)
  | _ => none

/-- A row of an op that the hall's current tread does not hold in the op's slot, or has issued, changes nothing (the model's choice, log entry 15). -/
def Obligations.OpRowNeedsItsOp : Prop :=
  ∀ (c : Instr) (h slot opc : Nat) (s : State), opRow c = some (h, slot, opc) → (∀ o, ¬ Issues s h slot opc o) → Gives c s s

/-- The ops that move no data, where the hall's tread holds them. NOP, SKIP and LAND only pass; SETPTR writes the pointer it names, an endpoint of 0x3F making it
invalid, and a buffer it still held is counted and no longer held; WIN sets the tread's windows from its clock on; WAKE marks the flight for its landing where that
landing is a scheduled return; EVT appends an action at the start of the next tread plus FINE ns; CTX and CRX open a pool's windows. -/
def Obligations.TreadProgramOps : Prop :=
  ∀ (h o : Nat) (s : State),
    (∀ slot, Issues s h slot 0 o → Gives (.opNop h slot) s (issued s h slot o)) ∧
    (Issues s h 3 0x55 o → Gives (.skipOp h) s (issued s h 3 o)) ∧
    (Issues s h 3 0x56 o → Gives (.land h) s (issued s h 3 o)) ∧
    (Issues s h 0 0x12 o → let k := bitsOf o 48 45
      let u := pointersAt s h 0 o
      (u.ptrBuf h k = none → Gives (.setptr h) s ((u.notePtr h k o).setPtr h k (bitsOf o 44 39) (bitsOf o 38 0) none)) ∧
      ∃ t, Gives (.setptr h) s t ∧ t.ptrEndp h k = bitsOf o 44 39 ∧ t.ptrAddr h k = bitsOf o 38 0 ∧
        t.flag Fld.TSQ_PTR_HI_VALID h k = decide (bitsOf o 44 39 ≠ 0x3F) ∧ t.ptrBuf h k = none ∧
        t.fld Fld.TSQ_CNT_ORPHAN_COUNT h = (s.fld Fld.TSQ_CNT_ORPHAN_COUNT h + b2n (u.ptrBuf h k).isSome) % 2 ^ 32) ∧
    (Issues s h 1 0x20 o → ∃ t, Gives (.win h) s t ∧
      (t.seq h).win = { start := Plan.offset o, rx := bitsOf o 48 41, flow := bitsOf o 40 29, fl := bitsOf o 28 21, op := bitsOf o 20 13, next := Plan.offset o, rank := 0, turn := 0, seen := none } ∧
      (∀ j, j ≠ h → t.seq j = s.seq j) ∧ t.regs = s.regs) ∧
    (∀ a b period phase e, Issues s h 3 0x51 o → Plan.wakeOf s.pln.active (bitsOf o 48 45) = some (a, b, period, phase, e) →
      let f := (issued s h 3 o).flightNow + bitsOf o 44 29
      let l := bitsOf o 48 45
      ∃ t, Gives (.wake h) s t ∧ t.pln.wakes.get [] l = (if Plan.phaseAt f phase period = 0 then f :: s.pln.wakes.get [] l else s.pln.wakes.get [] l) ∧
        (∀ j, j ≠ l → t.pln.wakes.get [] j = s.pln.wakes.get [] j)) ∧
    (Issues s h 3 0x54 o → ∃ t, Gives (.evtOp h) s t ∧
      (t.land (bitsOf o 48 44)).acts = (s.land (bitsOf o 48 44)).acts ++
        [{ time := (s.seq h).start + 6553600 + bitsOf o 40 34 * 65536, act := bitsOf o 43 41, width := bitsOf o 33 18, kernel := false, hall := h }] ∧
      (∀ k, k ≠ bitsOf o 48 44 → t.land k = s.land k) ∧ t.out = s.out) ∧
    (Issues s h 3 0x52 o → ∃ t, Gives (.ctx h) s t ∧ t.cyc.wins = s.cyc.wins ++
      [{ hall := h, pool := bitsOf o 48 33, first := bitsOf o 32 17, count := ctxCount o, pace := bitsOf o 8 0, base := clockAt (s.seq h).start (Plan.offset o) (s.clocks h), flight := (issued s h 3 o).flightNow, next := 0 }]) ∧
    (Issues s h 3 0x53 o → ∃ t, Gives (.crx h) s t ∧ look t.cyc.crx (h * 65536 + bitsOf o 48 33) = some
      { flight := (issued s h 3 o).flightNow, start := clockAt (s.seq h).start (Plan.offset o) (s.clocks h), deadline := (s.seq h).start + bitsOf o 32 13 * 6553600, done := false })

/-- RFX dispatches the kernel of its op on its core, which is free: it starts at index 0 with w1 the flight number, w2 the tread, w3 the kernel, the logical hall and the
core, every other register and the accumulator 0, an empty commit buffer, and the budget of its record. -/
def Obligations.RfxDispatchesKernel : Prop :=
  ∀ (h o : Nat) (s : State) (a b n budget : Nat), Issues s h 3 0x50 o →
    Plan.kernel s.pln.active (s.fld Fld.TSQ_STATE_LOGICAL h) (bitsOf o 46 39) = some (a, b, n, budget) →
    let c := bitsOf o 48 47
    let k := bitsOf o 46 39
    ∃ t, Gives (.rfx h) s t ∧ t.kernelRuns h c = true ∧ t.coreBusy h c = true ∧ t.fld Fld.RFX_CORE_KERNEL h c = k ∧ t.fld Fld.RFX_CORE_INDEX h c = 0 ∧
      (t.rcore h c).budget = budget ∧ (t.rcore h c).pc = 0 ∧ (t.rcore h c).clock = 0 ∧ (t.rcore h c).issue = Plan.offset o ∧ (t.rcore h c).start = (s.seq h).start ∧
      (t.rcore h c).commit = [] ∧ (t.rcore h c).acc = 0 ∧ (t.rcore h c).loops = [] ∧ (t.rcore h c).scratch = [] ∧
      (t.rcore h c).r 1 = BitVec.ofNat 32 (issued s h 3 o).flightNow ∧ (t.rcore h c).r 2 = BitVec.ofNat 32 (s.seq h).tread ∧
      (t.rcore h c).r 3 = BitVec.ofNat 32 (k * 65536 + s.fld Fld.TSQ_STATE_LOGICAL h * 256 + c) ∧ (∀ i, 4 ≤ i → i < 32 → (t.rcore h c).r i = 0)

/-- MOVE reads its pointer as it stood before the op's clock. Where endpoint and address obey R104 the move is under way with the flits the op names, the pointer advanced
where the op says so; a static push carries what the alcove holds at the issue, an open one takes whole records of the staging queue; where they do not obey, the move is
suppressed and counted, and no data moves. A flit of a push into an alcove writes its 128 octets there and nothing else; a pull from an alcove writes the far alcove's
128 octets into the hall's own; the last flit ends a push; a record that a push brings to a lane buffer joins the port's planned queue; the last flit of a push into a
flow ring appends its records; a beat of a push into a stack writes its 512 octets into the Atrium, a beat of a pull reads 512. A flit that fails its link check is
counted and flagged. -/
def Obligations.MovesStartAndArrive : Prop :=
  (∀ (h o : Nat) (s : State), Issues s h 0 0x10 o →
      let u := pointersAt s h 0 o
      let k := bitsOf o 47 44
      let n := moveFlits o
      let e := (u.ptrFor h k o).endp
      let a := (u.ptrFor h k o).addr
      let beyond := (u.ptrFor h k o).buf.isSome && decide ((u.ptrFor h k o).span.2 < a + 128 * n)
      (beyond = true ∨ s.farEnd e a (128 * n) = none → ∃ t, Gives (.move h) s t ∧ t.gal.moves = s.gal.moves ∧
        t.fld Fld.TSQ_CNT_SUPPRESS_COUNT h = (s.fld Fld.TSQ_CNT_SUPPRESS_COUNT h + 1) % 2 ^ 32 ∧ t.alcove = s.alcove ∧ t.atrium = s.atrium) ∧
      (∀ far, beyond = false → s.farEnd e a (128 * n) = some far → bitOf o 14 = false → ∃ t m, Gives (.move h) s t ∧ t.gal.moves = s.gal.moves ++ [m] ∧
        m.id = s.gal.nextMove ∧ m.hall = h ∧ m.pull = bitOf o 48 ∧ m.endp = e ∧ m.far = far ∧ m.addr = a ∧ m.laddr = bitsOf o 42 24 * 64 ∧ m.flits = n ∧ m.opened = false ∧
        m.sent = 0 ∧ m.beats = 0 ∧ m.data = (if bitOf o 48 then [] else s.alcoveRead h (bitsOf o 42 24 * 64) (128 * n)) ∧
        t.gal.nextMove = s.gal.nextMove + 1 ∧ t.alcove = s.alcove ∧ t.atrium = s.atrium ∧
        (bitOf o 43 = true → t.ptrAddr h k = (a + 128 * n) % 2 ^ 39 ∧ t.ptrEndp h k = e % 64)) ∧
      (∀ far, beyond = false → s.farEnd e a (128 * n) = some far → bitOf o 14 = true → ∃ t m, Gives (.move h) s t ∧ t.gal.moves = s.gal.moves ++ [m] ∧
        m.opened = true ∧ m.pull = bitOf o 48 ∧ m.frames = (fillOpen e a ((s.ranked h).map (fun r => r.1)) (s.stageq.get [] h) (128 * n)).1 ∧
        t.stageq.get [] h = (fillOpen e a ((s.ranked h).map (fun r => r.1)) (s.stageq.get [] h) (128 * n)).2.1 ∧ t.alcove = s.alcove ∧ t.atrium = s.atrium)) ∧
  (∀ (i : Nat) (m : Move) (s : State), s.moveOf i = some m →
      (∀ bad, m.flitDue = true → m.pull = false → m.endp < 0x10 → ∃ t, Gives (.moveFlitDeliver i bad) s t ∧
        t.alcove = (s.putAlcove m.far (m.addr + 128 * m.sent) (sliceB m.data (128 * m.sent) 128)).alcove ∧ t.atrium = s.atrium ∧ t.out = s.out ∧
        (m.sent + 1 = m.flits → t.gal.moves = s.gal.moves.filter (fun x => x.id != i)) ∧
        (bad = true → t.flag Fld.GAL_STATUS_FLIT_ERR = true ∧ t.fld Fld.GAL_CNT_FLIT_ERR_COUNT = (s.fld Fld.GAL_CNT_FLIT_ERR_COUNT + 1) % 2 ^ 32)) ∧
      (m.flitDue = true → m.pull = true → isAtrium m.endp = false → ∃ t, Gives (.moveFlitDeliver i false) s t ∧
        t.alcove = (s.putAlcove m.hall (m.laddr + 128 * m.sent) (s.alcoveRead m.far (m.addr + 128 * m.sent) 128)).alcove ∧ t.atrium = s.atrium ∧ t.out = s.out) ∧
      (m.flitDue = true → m.pull = true → isAtrium m.endp = true → ∃ t, Gives (.moveFlitDeliver i false) s t ∧
        t.alcove = (s.putAlcove m.hall (m.laddr + 128 * m.sent) (sliceB m.data (128 * m.sent) 128)).alcove ∧ t.atrium = s.atrium ∧ t.out = s.out) ∧
      (m.flitDue = true → m.pull = false → isAtrium m.endp = true → ∃ t, Gives (.moveFlitDeliver i false) s t ∧ t.alcove = s.alcove ∧ t.atrium = s.atrium ∧
        t.moveOf i = some { m with sent := m.sent + 1 }) ∧
      (m.pull = false → 0x10 ≤ m.endp → m.endp < 0x20 → m.flits = 1 → m.sent = 0 → m.used = 0 → m.dead = false → m.opened = false → m.bad = [] → m.data.length = 128 →
        0x3C ≤ leAt m.data 0 2 → leAt m.data 0 2 ≤ 120 → s.portUp m.addr = true → queued (s.port m.addr).planned + leAt m.data 0 2 ≤ 65536 →
        ∃ t, Gives (.moveFlitDeliver i false) s t ∧ t.alcove = s.alcove ∧ t.gal.moves = s.gal.moves.filter (fun x => x.id != i) ∧
          (t.port m.addr).planned = (s.port m.addr).planned ++ [{ octets := sliceB m.data 8 (leAt m.data 0 2), tstamp := bitOf (leAt m.data 0 8) 16, drops := [], send := none }]) ∧
      (∀ x, m.pull = false → 0x24 ≤ m.endp → m.endp < 0x34 → m.flits = 1 → m.sent = 0 → m.bad = [] → m.data.length = 128 → 0x3C ≤ leAt m.data 0 2 → leAt m.data 0 2 ≤ 120 →
        s.flowAppend m.far m.addr (sliceB m.data 0 128) = (x, true) → ∃ t, Gives (.moveFlitDeliver i false) s t ∧ t.alcove = x.alcove ∧ t.gal.moves = s.gal.moves.filter (fun x => x.id != i)) ∧
      (isAtrium m.endp = true → 4 * m.beats < m.flits → m.pull = false → 4 * (m.beats + 1) ≤ m.sent → ∃ t, Gives (.atriumBeat i 0) s t ∧ t.alcove = s.alcove ∧
        t.atrium = (s.putBeat m.far m.beatAt (sliceB m.data (512 * m.beats) 512)).atrium ∧
        (m.flits ≤ 4 * (m.beats + 1) → t.gal.moves = s.gal.moves.filter (fun x => x.id != i))) ∧
      (∀ ecc, isAtrium m.endp = true → 4 * m.beats < m.flits → m.pull = true → ∃ t, Gives (.atriumBeat i ecc) s t ∧ t.alcove = s.alcove ∧ t.atrium = s.atrium ∧
        ∃ m', t.moveOf i = some m' ∧ m'.data = m.data ++ s.atriumRead m.far m.beatAt 512 ∧ m'.beats = m.beats + 1 ∧ m'.sent = m.sent))

/-- A refresh is noted on its channel at its start: the op's 8 Gallery clocks after it enters; the stack controller's own, while a plan is active, once 8,192 Gallery clocks
have passed without one, flagged and counted; self-refresh where no plan is active and 4,096 Gallery clocks have passed. The Atrium's data stays. -/
def Obligations.RefreshStarts : Prop :=
  ∀ (h o stack ch at_ : Nat) (s : State),
    (Issues s h 0 0x11 o → ∃ t, Gives (.refresh h) s t ∧ t.gal.refreshed.get 0 (bitsOf o 48 47 * 16 + bitsOf o 46 43) = s.galleryAt h o 8 ∧
      (∀ j, j ≠ bitsOf o 48 47 * 16 + bitsOf o 46 43 → t.gal.refreshed.get 0 j = s.gal.refreshed.get 0 j) ∧ t.atrium = s.atrium ∧ t.alcove = s.alcove) ∧
    (stack < 4 → ch < 16 → s.planActive = true → 8192 ≤ galClocks (max s.now at_ - (look s.gal.refreshed (stack * 16 + ch)).getD 0) →
      ∃ t, Gives (.emergRefresh stack ch at_) s t ∧ t.gal.refreshed.get 0 (stack * 16 + ch) = max s.now at_ ∧ bitOf (t.fld Fld.ATR_STATUS_EMERG) stack = true ∧
        t.fld Fld.ATR_CNT_EMERG_COUNT 0 stack = (s.fld Fld.ATR_CNT_EMERG_COUNT 0 stack + 1) % 2 ^ 32 ∧ t.atrium = s.atrium) ∧
    (stack < 4 → ch < 16 → s.planActive = false → bitOf (s.fld Fld.ATR_STATUS_POWERED) stack = true →
      (∀ x, look s.gal.refreshed (stack * 16 + ch) = some x → 4096 ≤ galClocks (max s.now at_ - x)) →
      Gives (.selfRefresh stack ch at_) s { s.atTime at_ with gal := { s.gal with refreshed := s.gal.refreshed.put (stack * 16 + ch) (max s.now at_) } }) ∧
    (∀ x, stack < 4 → ch < 16 → look s.gal.refreshed (stack * 16 + ch) = some x → galClocks (max s.now at_ - x) < 4096 → Gives (.selfRefresh stack ch at_) s (s.atTime at_))

/-- Buffers in tread programs (R119). ALLOC is answered 32 clocks after it, with the pointer left invalid where it failed; HAND waits for the moves through its pointer and then
offers the buffer with the length the pointer has advanced; RELEASE drops the pointer's buffer and makes the pointer invalid; a waiting delivery goes when its queue has a
descriptor, and one of a handed-off buffer completes with that buffer. -/
def Obligations.BufferOpsOfPrograms : Prop :=
  ∀ (h o at_ : Nat) (s : State),
    (let u := (((issued s h 2 o).occupy h o 1).allocsLand h)
     let k := bitsOf o 45 42
     let due := clockAt (s.seq h).start (Plan.offset o + 32) (s.clocks h)
     Issues s h 2 0x32 o → bitsOf o 48 46 = 0 → u.ptrBuf h k = none →
      (u.handoff h (bitsOf o 36 29) = none → ∃ t, Gives (.bufOpAlloc h) s t ∧ (t.seq h).allocs = (u.seq h).allocs ++ [{ ptr := k, due := due, stack := bitsOf o 38 37, result := none }] ∧
        t.fld Fld.TSQ_CNT_ALLOC_FAIL_COUNT h = (s.fld Fld.TSQ_CNT_ALLOC_FAIL_COUNT h + 1) % 2 ^ 32) ∧
      (∀ own q v id n r, u.handoff h (bitsOf o 36 29) = some (own, q) → (u.notePtr h k o).allocFor own (bitsOf o 41 39) 1 (bitsOf o 38 37) = (v, .inl id) → v.regionOf id = some (n, r) →
        Gives (.bufOpAlloc h) s (v.setSeq h { v.seq h with allocs := (v.seq h).allocs ++
          [{ ptr := k, due := due, stack := bitsOf o 38 37, result := some (id, r.dataAt id, r.dataAt id + classSize (bitsOf o 41 39)) }] }))) ∧
    (∀ a rest, h < 18 → (s.seq h).allocs = a :: rest → a.due ≤ max s.now at_ → a.ptr < 16 →
      (a.result = none → ∃ t, Gives (.bufAllocResult h at_) s t ∧ (t.seq h).allocs = rest ∧ t.flag Fld.TSQ_PTR_HI_VALID h a.ptr = false ∧ t.ptrBuf h a.ptr = none) ∧
      (∀ id lo hi, a.result = some (id, lo, hi) → id < 2 ^ 32 → a.stack < 4 → ∃ t, Gives (.bufAllocResult h at_) s t ∧ (t.seq h).allocs = rest ∧
        (t.seq h).spans.get (0, 0) a.ptr = (lo, hi) ∧ t.ptrBuf h a.ptr = some id ∧ t.ptrEndp h a.ptr = 0x20 + a.stack ∧ t.ptrAddr h a.ptr = lo % 2 ^ 39)) ∧
    (let u := (((issued s h 2 o).occupy h o 1).allocsLand h)
     ∀ id, Issues s h 2 0x32 o → bitsOf o 48 46 = 1 → (u.ptrFor h (bitsOf o 45 42) o).buf = some id → ∃ t, Gives (.bufOpHand h) s t ∧
      (t.seq h).hands = (s.seq h).hands ++ [{ moves := (s.gal.moves.filter (fun m => m.hall == h && m.ptr == bitsOf o 45 42)).map (fun m => m.id), ptr := bitsOf o 45 42, buffer := id, hx := bitsOf o 36 29 }] ∧
      t.out = s.out ∧ t.wq = s.wq) ∧
    (∀ x own q, (s.seq h).hands.find? s.handDue = some x → s.ptrBuf h x.ptr = some x.buffer → s.handoff h x.hx = some (own, q) →
      Gives (.handPost h) s (((s.setSeq h { s.seq h with hands := removeFirst (fun y => y == x) (s.seq h).hands }).voidPtr h x.ptr).offer h
        { queue := q, buffer := some x.buffer, data := [], len := s.ptrAddr h x.ptr - ((s.seq h).spans.get (0, 0) x.ptr).1, mark := 0, low := 0, stamp := s.now })) ∧
    (let u := (((issued s h 2 o).occupy h o 1).allocsLand h)
     ∀ id, Issues s h 2 0x32 o → bitsOf o 48 46 = 2 → (u.ptrFor h (bitsOf o 45 42) o).buf = some id →
      Gives (.bufOpRelease h) s (((u.notePtr h (bitsOf o 45 42) o).drop id).voidPtr h (bitsOf o 45 42))) ∧
    (let u := (s.waiting h).foldl (fun (s : State) (d : Delivery) => s.rqSkim d.queue 16) s
     ∀ d, (u.waiting h).find? (fun d => u.rqReady d.queue || !u.rqThere d.queue) = some d →
      (u.rqThere d.queue = true → Gives (.rqDelivery h) s ((u.setWaiting h (removeFirst (fun e => e == d) (u.waiting h))).deliverNow d)) ∧
      (u.rqThere d.queue = false → Gives (.rqDelivery h) s ((u.setWaiting h (removeFirst (fun e => e == d) (u.waiting h))).dropDelivery d))) ∧
    (∀ d e rest id, (s.queue d.queue).ready = e :: rest → (s.queue d.queue).kind = 1 → d.buffer = some id → s.deliverNow d = s.rqDone d.queue St.success d.mark id d.len d)

/-- The issue of frames (R113 to R115, R289): one clock of a window takes the oldest arrival, the next record of the flow, or the work of the class whose turn it is, and hands its octets to the
pipeline with the source it came from; a send descriptor that passes its checks joins its hall's OPEN work with its frame, from host memory once the carriers have brought it or from a pool
buffer; the replication unit makes one copy of its frame. -/
def Obligations.FramesEnterPipeline : Prop :=
  ∀ (h k at_ : Nat) (ptp : Bool) (ecc : List Nat) (host : Bytes) (s : State),
    (∀ c l f, (s.atTime at_).winClock h Win.rxPlace = some c → let u := (s.atTime at_).useClock h c
      firstArrival (u.arrivals h (clockAt (s.seq h).start c (s.clocks h))) = some (l, f) →
      Gives (.arrivalIssue h ptp ecc at_) s ((u.takeRx l f).issue h
        { octets := f.octets.take (f.octets.length - 4), srcKind := 0, srcIdx := l, orig := 0, rxKey := none, stamp := f.stamp, ptp := ptp, send := none, drops := [], ecc := ecc })) ∧
    (∀ c base size top, (s.atTime at_).winClock h Win.flowPlace = some c → s.flow h (s.seq h).win.flow = some (base, size) → let u := ((s.atTime at_).readProducer h).useClock h c
      (u.seq h).win.seen = some top → Gives (.flowIssue h ecc at_) s ((u.passPad h base size top).flowRecord h (s.seq h).win.flow base size top ecc)) ∧
    (∀ f base size top len, 0 < sub32 top (s.consumer h base) → leNat (s.alcoveRead h (base + 64 + s.consumer h base % size) 2) = len → 0x3C ≤ len → len ≤ 0x23FC →
      s.alcoveBad h (base + 64 + s.consumer h base % size) (recordSize len) = false →
      s.flowRecord h f base size top ecc = (s.putAlcove h (base + 4) (leBytes 4 (add32 (s.consumer h base) (recordSize len)))).issue h
        { octets := s.alcoveRead h (base + 64 + s.consumer h base % size + 8) len, srcKind := 1, srcIdx := f, orig := 1, rxKey := none, stamp := s.now, ptp := false, send := none, drops := [], ecc := ecc }) ∧
    (∀ clock c place turn w, (s.atTime at_).winClock h Win.openPlace = some clock → let u := (s.atTime at_).serveThaw h
      u.openNext h = some (c, place, turn) → u.openWork h c = some w → let v := u.spendOpen h clock c place turn w.fn
      Gives (.openIssue h ptp ecc at_) s ({ v with fw := { v.fw with opened := v.fw.opened.put h (removeFirst (fun x => x == w) (v.fw.opened.get [] h)) } }.issue h
        { octets := w.octets, srcKind := w.srcKind, srcIdx := w.srcIdx, orig := w.orig, rxKey := w.rxKey, stamp := v.now, ptp := ptp, send := w.send, drops := w.drops, ecc := ecc })) ∧
    (∀ e rest, (s.queue k).ready = e :: rest → (s.queue k).present = true → (s.queue k).isRq = false → (s.queue k).kind = 0 → k < 65536 → s.servingHall (s.queue k) = h → h < 18 →
      s.ethCheck (s.queue k).fn e.bytes = none →
      (bitOf (leAt e.bytes 0x17 1) 0 = false → s.readDone h 3 k e.idx = true → (∀ r, s.readFor h 3 k e.idx = some r → r.bad = false) → ∃ t w, Gives (.ethSend k host at_) s t ∧
        t.fw.opened.get [] h = s.fw.opened.get [] h ++ [w] ∧ w.octets = sliceB host 0 (leAt e.bytes 0x10 4) ∧ w.srcKind = 2 ∧ w.srcIdx = leAt e.bytes 0x14 2 ∧ w.cls = leAt e.bytes 0x16 1 ∧
        w.fn = some (s.queue k).fn ∧ (t.queue k).ready = rest) ∧
      (∀ b, bitOf (leAt e.bytes 0x17 1) 0 = true → s.bufferRead (leAt e.bytes 8 4) 0 (leAt e.bytes 0x10 4) = some (b, false) → ∃ t w, Gives (.ethSend k host at_) s t ∧
        t.fw.opened.get [] h = s.fw.opened.get [] h ++ [w] ∧ w.octets = b ∧ w.drops = [leAt e.bytes 8 4] ∧ w.fn = some (s.queue k).fn ∧ (t.queue k).ready = rest)) ∧
    (∀ e rest st, (s.queue k).ready = e :: rest → (s.queue k).present = true → (s.queue k).isRq = false → (s.queue k).kind = 0 → k < 65536 → s.servingHall (s.queue k) = h → h < 18 →
      s.ethCheck (s.queue k).fn e.bytes = some st → Gives (.ethSend k host at_) s
        ((((s.atTime at_).setQueue k { s.queue k with ready := rest }).endRead h 3 k e.idx).descDone k e.idx ⟨e.cookie, e.batchEnd, st, 0, 0, 0, 0, 0⟩)) ∧
    (∀ j rest d e ds, s.fw.repl.get [] h = j :: rest → j.dests = d :: e :: ds →
      Gives (.replicateCopy h) s ({ s with fw := { s.fw with repl := s.fw.repl.put h ({ j with dests := e :: ds } :: rest) } }.copyTo h d j.frame.cls { j.frame.plain with send := none, drops := j.shared })) ∧
    (∀ j rest d, s.fw.repl.get [] h = j :: rest → j.dests = [d] →
      Gives (.replicateCopy h) s ({ s with fw := { s.fw with repl := s.fw.repl.put h rest } }.copyTo h d j.frame.cls j.frame.plain))

/-- The hall's cipher engine. A CIPHER op opens a window with its source, length and rate, and what may start by the command's instant starts; the operation that is due first leaves at
its release, a frame into the pipeline, a job's unit into what the job writes, or revoked with nothing; a started descriptor of a cipher send queue, in an OPEN clock, joins the job queue where it
passes R315's checks and ends with their status where it does not; a failing health test is flagged and counted; a slot whose last value is spent becomes EXHAUSTED. -/
def Obligations.CipherEngineEvents : Prop :=
  ∀ (h k at_ test o : Nat) (src aad tag : Bytes) (s : State), h < 18 →
    (Issues s h 2 0x30 o → let v := ((issued s h 2 o).openWindow h o).atTime at_
      Gives (.cipherWindow h at_) s (v.cipherTo (max ((issued s h 2 o).openWindow h o).now at_)).stoXtsDone ∧
      (let x := ((issued s h 2 o).cipherTo (issued s h 2 o).now).occupy h o (bitsOf o 46 31)
       (((issued s h 2 o).openWindow h o).cphOf h).window = some { src := bitsOf o 48 47, tread := (x.seq h).start, off := Plan.offset o, len := bitsOf o 46 31, rate := x.clocks h, used := 0, idle := 0 })) ∧
    ((∀ o, ¬ Issues s h 2 0x30 o) → Gives (.cipherWindow h at_) s ((s.atTime at_).cipherTo (max s.now at_)).stoXtsDone) ∧
    (let u := (s.atTime at_).cipherTo (s.atTime at_).now
     ∀ op, firstDue (u.cphOf h).ops = some op → op.due ≤ u.now →
      let v := u.setCph h { u.cphOf h with ops := removeFirst (fun x => x == op) (u.cphOf h).ops }
      (∀ f, op.frame = some f → v.revokedBy op = false → Gives (.cipherOpRelease h src aad tag at_) s (v.releaseFrame h op f).stoXtsDone) ∧
      (∀ f, op.frame = some f → v.revokedBy op = true → Gives (.cipherOpRelease h src aad tag at_) s ((v.bump Fld.CPH_CNT_REVOKED_COUNT h).inlineEnd f).stoXtsDone) ∧
      (∀ id off len j, op.frame = none → op.job = some (id, off, len) → (v.cphOf h).jobs.find? (fun j => j.id == id) = some j → v.revokedBy op = false →
        (j.mode = 2 → Gives (.cipherOpRelease h src aad tag at_) s ((v.releaseXts h op j off len src).settleJob h id).stoXtsDone) ∧
        (j.mode ≠ 2 → Gives (.cipherOpRelease h src aad tag at_) s ((v.releaseGcm h op j off len src aad tag).settleJob h id).stoXtsDone))) ∧
    (∀ d rest u, (s.queue k).ready = d :: rest → (s.queue k).present = true → (s.queue k).isRq = false → (s.queue k).kind = 1 → k < 65536 → s.servingHall (s.queue k) = h → s.jobRoom h = true →
      (s.atTime at_).openTurn h (s.jobClass h) (s.queue k).fn = some u → let v := u.setQueue k { s.queue k with ready := rest }
      (∀ st, v.jobCheck h (parseJob 0 k (s.queue k).fn d) = some st → Gives (.cipherJobFetch k at_) s (v.descDone k d.idx ⟨d.cookie, d.batchEnd, st, 0, 0, 0, 0, 0⟩)) ∧
      (v.jobCheck h (parseJob 0 k (s.queue k).fn d) = none → let w := v.cipherTo v.now
        ∃ t, Gives (.cipherJobFetch k at_) s t ∧ t = w.setCph h { w.cphOf h with jobs := (w.cphOf h).jobs ++ [{ parseJob 0 k (s.queue k).fn d with id := (w.cphOf h).nextJob }], nextJob := (w.cphOf h).nextJob + 1 })) ∧
    (∃ t, Gives (.entropyHealthFail h test at_) s t ∧ t.flag Fld.CPH_STATUS_ENTROPY_FAIL h = true ∧
      t.fld Fld.CPH_CNT_ENTROPY_COUNT h = (s.fld Fld.CPH_CNT_ENTROPY_COUNT h + 1) % 2 ^ 32 ∧ t.cph = s.cph ∧ t.keys = s.keys) ∧
    (∀ t, (s.slot k).exhaustAt = some t → t ≤ max s.now at_ → (s.slot k).state = 2 → ∃ u, Gives (.keyExhaust k at_) s u ∧ (u.slot k).state = 3 ∧ (u.slot k).exhaustAt = none ∧
      (u.slot k).key = (s.slot k).key ∧ (u.slot k).counter = (s.slot k).counter ∧ (∀ j, j ∈ (s.slot k).users → j < 18 → u.flag Fld.CPH_STATUS_HARD_LIMIT j = true))

/-! ### DMA and host traffic (chapters 5 and 13) -/

/-- The DMA op has issued and its data path is occupied for a clock. -/
def Sys2Proof.Spec.dmaIssued (s : State) (h o : Nat) : State := (issued s h 2 o).occupy h o 1

/-- The burst of a DMA op, before it has taken anything along: its channel and flits, whether it goes toward the far end, and when its first flit gets to its port or it ends. -/
def Sys2Proof.Spec.burstOf (u : State) (h o : Nat) : Burst :=
  let c := bitsOf o 48 43
  let toward := if c < 48 then decide (c % 4 < 2) else true
  let n := ceilDiv (bitsOf o 42 27) 2
  { id := 0, hall := h, ch := c, port := if decide (c < 32) then some (c / 4) else none, toward := toward, units := [], flits := n,
    first := u.galleryAt h o (if decide (c < 32) then 4 + 2 * Plan.naveHops h toward else u.farClocks h c n toward), arrived := 0, sent := 0, drop := [], last := 0 }

/-- Planned traffic. A DMA op of a stopped engine, of a blocked port, or that finds none of its channel's data is counted idle and keeps its occupancy; a planned one takes up to COUNT units of its
channel's data in order, a carrier what its hall has for the port; a flit leaves its port at its departure and brings its data; a burst that has ended is over, and one to another end is carried out then;
the port asks ahead for the data of planned from-host channels; a best-effort packet leaves where it crosses before the next departure. -/
def Obligations.PlannedTraffic : Prop :=
  ∀ (h o c p at_ crossed : Nat) (toward bad : Bool) (errs : List (Nat × Nat)) (s : State),
    (let u := dmaIssued s h o
     let ch := bitsOf o 48 43
     let n := bitsOf o 42 27
     let idle := fun (x : State) => (x.bump Fld.TSQ_CNT_DMA_IDLE_COUNT h).addBurst (burstOf u h o)
     Issues s h 2 0x31 o →
      (u.flag Fld.DMA_STATUS_STOPPED h = true ∨ (ch < 32 ∧ u.plannedBlocked (ch / 4) = true) → Gives (.dmaOp h) s (idle u)) ∧
      (u.flag Fld.DMA_STATUS_STOPPED h = false → (ch < 32 → u.plannedBlocked (ch / 4) = false ∧ u.chBme h ch = true) → u.dmaService h ch = 1 → ∀ x us, u.fillPlanned h ch n = (x, us) →
        (us ≠ [] → Gives (.dmaOp h) s (x.addBurst { burstOf u h o with units := us })) ∧ (us = [] → Gives (.dmaOp h) s (idle x))) ∧
      (u.flag Fld.DMA_STATUS_STOPPED h = false → ch < 32 → u.plannedBlocked (ch / 4) = false → u.dmaService h ch = 2 → ∀ x us, u.fillCarrier h (ch / 4) (decide (ch % 4 < 2)) n = (x, us) →
        let y := x.bump64 Fld.DMA_CNT_CARRIER_IDLE_LO_COUNT Fld.DMA_CNT_CARRIER_IDLE_HI_COUNT (n - us.length) h
        (us ≠ [] → Gives (.dmaOp h) s (y.addBurst { burstOf u h o with units := us })) ∧ (us = [] → Gives (.dmaOp h) s (idle y)))) ∧
    (∀ (x : State) (b : Burst), (x.addBurst b).dma.bursts = x.dma.bursts ++ [{ b with id := x.dma.nextId }] ∧ (x.addBurst b).alcove = x.alcove) ∧
    (let u := s.atTime at_
     ∀ b, u.dma.bursts.find? (fun b => b.hall == h && b.ch == c) = some b → u.burstEnd b ≤ 880 * u.now → let v := { u with dma := { u.dma with bursts := u.dma.bursts.filter (fun x => x.id != b.id) } }
      (b.port.isSome = true → b.done = true → Gives (.dmaBurstComplete h c errs at_) s v) ∧
      (∀ x, b.port = none → b.units = [x] → Gives (.dmaBurstComplete h c errs at_) s
        ((v.bump64 Fld.GAL_CNT_FLITS_LO_COUNT Fld.GAL_CNT_FLITS_HI_COUNT 1).farUnit h b.toward ((errs.find? (fun e => e.1 == 0)).getD (0, 0)).2 x)) ∧
      (b.port = none → Gives (.dmaBurstComplete h c errs at_) s
        ((List.range b.units.length).foldl (fun (s : State) i => match b.units[i]? with | none => s | some x => s.farUnit h b.toward ((errs.find? (fun e => e.1 == i)).getD (0, 0)).2 x)
          (v.bump64 Fld.GAL_CNT_FLITS_LO_COUNT Fld.GAL_CNT_FLITS_HI_COUNT (ceilDiv b.units.length 2))))) ∧
    (let t := s.atTime at_
     let u := (t.arriveFlits p toward ((t.dma.bursts.foldl (fun n (b : Burst) => n + b.flits) 0) + 1)).skipDropped p toward
     ∀ b, p < 8 → u.nextFlit p toward = some b → u.departure p toward b ≤ 880 * u.now → u.fld Fld.EP_PORT_STATUS_LSTATE 0 p = 1 ∨ b.flit b.sent = [] →
      Gives (.hostFlitRelease p toward bad at_) s (u.passFlit p toward bad b (u.departure p toward b))) ∧
    (∀ (x : State) (u : DmaUnit) (d : DmaDesc) (data : Bytes), x.unitDesc h u = some d →
      (x.landFrom h u data none).alcove = (x.putAlcove h (dmaLocal d.bytes + u.off) (data.take (min u.len (dmaLen d.bytes - u.off)))).alcove) ∧
    (let u := s.atTime at_
     ∀ d a n, h < 18 → c < 32 → 2 ≤ c % 4 → u.dmaService h c = 1 → u.plannedBlocked (c / 4) = false → u.flag Fld.DMA_STATUS_STOPPED h = false → u.chBme h c = true →
      ((u.hp (c / 4)).reqs.filter (fun r => r.purpose == 1)).length < (u.hp (c / 4)).tagLimit - 64 → (u.hp (c / 4)).reqs.length < (u.hp (c / 4)).tagLimit →
      (u.dch h c).descs.find? (fun d => (u.nextRead (c / 4) d).isSome) = some d → u.nextRead (c / 4) d = some (a, n) → u.aheadHeld (c / 4) + n ≤ 1048576 →
      Gives (.readAheadRequest h c at_) s ((u.setDesc h c { d with asked := d.asked + n }).sendRead (c / 4) 1 d.fn a n (h * 64 + c) (d.id * 2 ^ 32 + d.asked))) ∧
    (let u := s.atTime at_
     ∀ x rest, u.nextPacket [] (u.ep.tlps.get [] p) = some (x, rest) → (∀ d, u.nextDeparture p = some d → 880 * max u.now crossed ≤ d) → u.flag Fld.EP_PORT_STATUS_LINK_UP 0 p = true →
      u.fld Fld.EP_PORT_STATUS_LSTATE 0 p = 1 → let v := { u with ep := { u.ep with tlps := u.ep.tlps.put p rest } }
      Gives (.bestEffortTlpSend p crossed at_) s (((v.setHp p { v.hp p with idleSince := v.now }).leave x).afterPacket x))

/-- Descriptors and channels. A ring channel takes its next ready descriptor in an OPEN clock of its class and checks it; a chain channel takes the one its pointer names, from its alcove or as the carriers
brought it in; further entries of a list are followed; the first descriptor whose data has all moved ends, with its CRC stored, its status in the channel and its record on the ring's CQ or its write-back
word; a failed read stops the engine with its cause in DMA_ERR, faults the hall, and leaves no channel active; a chain is started and goes on after parking; a configuration is staged. -/
def Obligations.DescriptorsRun : Prop :=
  ∀ (h c at_ value : Nat) (host : Bytes) (list : List Bytes) (who : Who) (s : State), h < 18 → c < 64 →
    (let t := s.atTime at_
     t.dmaFetches h c = true →
      (∀ u, t.descAtHand h c = true → t.openTurn h (t.fld Fld.DMA_CH_CFG_CLASS h c) (t.chFn h c) = some u →
        (∀ k d rest, u.isChain h c = false → u.chRing h c = some k → (u.queue k).ready = d :: rest → Gives (.descriptorFetch h c false host list at_) s
          (((u.setQueue k { u.queue k with ready := rest }).setChState h c 2).acceptDesc h c d.idx 0 d.bytes)) ∧
        (u.isChain h c = true → u.inAlcove h c = true → (u.dch h c).next + 64 ≤ alcoveTop → Gives (.descriptorFetch h c false host list at_) s
          (u.readChain h c (u.alcoveRead h (u.dch h c).next 64))) ∧
        (u.isChain h c = true → u.inAlcove h c = false → Gives (.descriptorFetch h c false host list at_) s
          ((u.endRead h 1 (h * 64 + c) (u.dch h c).next).readChain h c (sliceB host 0 64)))) ∧
      (∀ d a x e, (t.dch h c).descs.find? (fun d => d.sgNext.isSome) = some d → d.sgNext = some a → t.inAlcove h c = true → (t.endRead h 2 (h * 64 + c) a).followList h c d
          (list.take (match t.readFor h 2 (h * 64 + c) a with | some r => r.total / 16 | none => 0)) = (x, e) → Gives (.descriptorFetch h c true host list at_) s (x.setDesc h c e)) ∧
      (∀ d a x e r, (t.dch h c).descs.find? (fun d => d.sgNext.isSome) = some d → d.sgNext = some a → t.inAlcove h c = false → t.readDone h 2 (h * 64 + c) a = true → t.readFor h 2 (h * 64 + c) a = some r →
        (t.endRead h 2 (h * 64 + c) a).followList h c d (list.take (r.total / 16)) = (x, e) → Gives (.descriptorFetch h c true host list at_) s (x.setDesc h c e))) ∧
    (∀ d rest u e, (s.dch h c).descs = d :: rest → s.descFinished h c d = true → s.storeCrc h d = (u, e) →
      let v := ((u.setDch h c { u.dch h c with descs := rest }).bump (if e.status = 0 then Fld.DMA_CNT_DESC_COUNT else Fld.DMA_CNT_DESC_ERR_COUNT) h).setFld Fld.DMA_CH_STATUS_LAST_STATUS e.status h c
      (∀ k, v.isChain h c = false → v.chRing h c = some k → Gives (.descriptorComplete h c) s
        ((if rest = [] then v.setChState h c 1 else v).descDone k e.idx { cookie := leAt e.bytes 0 8 / 2 ^ 32, batchEnd := bitOf (leAt e.bytes 0 8) 16, status := e.status, detail := e.detail, opspec := if dmaCrc e.bytes then e.result else 0, bytes := min e.moved (dmaLen e.bytes), info := 0, low := 0 })) ∧
      (v.isChain h c = true → let w := v.writeBack h c e.addr e.status e.detail (min e.moved (dmaLen e.bytes))
        Gives (.descriptorComplete h c) s ((if dmaIrq e.bytes then w.raise Fld.DMA_CH_STATUS_WB_DONE h c else w).chainIdle h c))) ∧
    (∀ e, look s.dma.errs h = some e → ∃ t, Gives (.dmaEngineStop h at_) s t ∧ ∀ i, i < 64 → t.chState h i = 0 ∨ t.chState h i = 4) ∧
    (s.chainChannel who h c = true → s.chState h c = 3 → Gives (.dmaChKick who h c) s (s.setChState h c 2)) ∧
    (s.chainChannel who h c = true → s.chState h c = 1 ∨ s.chState h c = 5 → ∃ t, Gives (.dmaChStart who h c) s t ∧ t.chState h c = 2 ∧ (t.dch h c).atEnd = false ∧ (t.dch h c).links = 0 ∧
      (t.dch h c).next = s.fld Fld.DMA_CH_CHAIN_LO_ADDR h c + 2 ^ 32 * s.fld Fld.DMA_CH_CHAIN_HI_ADDR h c) ∧
    (∀ l, s.mayWrite who = true → s.logicalOf h = some l →
      (s.chState h c = 2 ∨ s.chState h c = 3 → ∃ t, Gives (.dmaChCfgWrite who h c value) s t ∧ t.flag Fld.DMA_CH_STATUS_CFG_REFUSED h c = true ∧ t.dma = s.dma) ∧
      (s.chState h c ≠ 2 → s.chState h c ≠ 3 → Gives (.dmaChCfgWrite who h c value) s
        { s with dma := { s.dma with cfgNew := s.dma.cfgNew.put (l * 64 + c) (BitVec.ofNat 32 (bitsOf value 10 8 * 256 + value % 8)) } }))

/-! ### Kernels' budgets, event lands, lanes and cyclic frames (chapters 6 to 8) -/

/-- Event lands. At a kernel's budget end its core is free, and a kernel that has not ended aborts as OVERRUN; the actions of a land that are due take place; a write by the owner or firmware gives its land an action at the next whole
nanosecond unless the land is in a land set, which is refused and flagged; an edge while the unit is powered down only latches an armed land for the calm domain; a filtered edge is confirmed and captured after its time; a read of EVT_CAP_INFO takes
the head capture and latches its instant for the reader. -/
def Obligations.EventLandCommands : Prop :=
  ∀ (h c k value at_ : Nat) (rising : Bool) (who : Who) (s : State),
    (h < 18 → c < 4 → s.coreBusy h c = true → (s.rcore h c).budgetEnd ≤ max s.now at_ →
      (∃ t, Gives (.kernelBudgetEnd h c at_) s t ∧ t.coreBusy h c = false ∧ t.kernelRuns h c = false ∧ t.alcove = s.alcove ∧ t.lands = s.lands) ∧
      (s.kernelRuns h c = true → ∃ t, Gives (.kernelBudgetEnd h c at_) s t ∧ t.fld Fld.RFX_CORE_OUTCOME h c = 2 ∧ t.fld Fld.RFX_CORE_REASON h c = 1 ∧ (t.rcore h c).commit = [] ∧
        t.fld Fld.RFX_CNT_ABORT_COUNT h c = (s.fld Fld.RFX_CNT_ABORT_COUNT h c + 1) % 2 ^ 32)) ∧
    (k < 32 → s.flag Fld.EVT_STATUS_POWERED = true → Gives (.evtAction k at_) s ((s.atTime at_).actsDue k (max s.now at_) (2 * (s.land k).acts.length + 1))) ∧
    (∀ (x : State) (u : Nat) (a : LandAct), (x.land k).acts = [a] → a.time = u → a.act = 4 → (x.land k).driven = false → x.actsAt k u = x.setLand k { x.land k with acts := [], armRise := true, armFall := false }) ∧
    (k < 32 → s.mayWrite who = true → s.flag Fld.EVT_STATUS_POWERED = true → s.inLandSet k = true →
      ∃ t, Gives (.evtHostWrite who k value at_) s t ∧ t.flag Fld.EVT_STATUS_HOST_REFUSED = true ∧ t.lands = s.lands ∧ t.out = s.out) ∧
    (k < 32 → s.mayWrite who = true → s.flag Fld.EVT_STATUS_POWERED = true → s.inLandSet k = false → ¬ (value % 8 = 2 ∧ bitsOf value 18 3 = 0) →
      ∃ t, Gives (.evtHostWrite who k value at_) s t ∧ (t.land k).acts = (s.land k).acts ++ [{ time := (max s.now at_ + nsTicks - 1) / nsTicks * nsTicks, act := value % 8, width := bitsOf value 18 3, kernel := false, hall := 18 }] ∧
        (∀ j, j ≠ k → t.land j = s.land j) ∧ t.regs = s.regs ∧ t.out = s.out) ∧
    (k < 32 → (s.land k).driven = false → (s.land k).pin ≠ rising → s.flag Fld.EVT_STATUS_POWERED = false → ∃ t, Gives (.evtEdge k rising at_) s t ∧ (t.land k).pin = rising ∧
      bitOf (t.fld Fld.CALM_EVT_IN_EDGE) k = (bitOf (s.fld Fld.CALM_EVT_IN_EDGE) k || (if rising then (s.land k).armRise else (s.land k).armFall)) ∧ (t.land k).queue = (s.land k).queue) ∧
    (k < 32 → (s.land k).driven = false → (s.land k).pin ≠ rising → s.flag Fld.EVT_STATUS_POWERED = true → Gives (.evtEdge k rising at_) s ((s.atTime at_).pinTo k rising (max s.now at_))) ∧
    (k < 32 → (s.land k).pin ≠ rising → (s.land k).candidate = none → (s.land k).armRise = true → (s.land k).armFall = true → s.fld Fld.EVT_LAND_CFG_FILTER 0 k = 0 → (s.land k).queue.length < 16 → (s.land k).driven = false →
      s.flag Fld.EVT_STATUS_POWERED = true → ∃ t, Gives (.evtEdge k rising at_) s t ∧ (t.land k).pin = rising ∧ (t.land k).queue = (s.land k).queue ++ [{ time := max s.now at_, rising := rising }] ∧
        (t.land k).latest = some { time := max s.now at_, rising := rising }) ∧
    (∀ x, k < 32 → s.flag Fld.EVT_STATUS_POWERED = true → (s.land k).candidate = some x → x.time + s.fld Fld.EVT_LAND_CFG_FILTER 0 k * 65536 ≤ max s.now at_ →
      Gives (.evtEdgeConfirm k at_) s (((s.atTime at_).setLand k { s.land k with candidate := none }).capture k x)) ∧
    (∀ x rest, k < 32 → (s.land k).queue = x :: rest → rest.length < 32 → ∃ t v, Gives (.evtCapInfoRead who k) s t ∧ (t.land k).queue = rest ∧ t.out = s.out ++ [.readValue who (Reg.addr .EVT_CAP_INFO 0 k) v] ∧
      v / 2 ^ 30 = 2 + b2n x.rising ∧ t.latchOf who (Reg.addr .EVT_CAP_LO 0 k) = s.nsSince x.time % 2 ^ 32 ∧ t.latchOf who (Reg.addr .EVT_CAP_HI 0 k) = s.nsSince x.time / 2 ^ 32 % 2 ^ 32)

/-- The state as a frame of a port arrives: the receive latency of its mode and FEC has passed since its last octet passed the lands, and the codewords of its FEC are counted. -/
def Sys2Proof.Spec.arrived (s : State) (l ce ue at_ : Nat) : State :=
  let u := s.atTime (at_ + rxLatency (s.laneMode l) (s.portFec l) * 65536)
  if u.portFec l = 0 then u else (u.bumpBy Fld.LN_CNT_FEC_CE_COUNT ce 0 l).bumpBy Fld.LN_CNT_FEC_UE_COUNT ue 0 l

/-- A port's frames. Room is judged when a frame's first octet comes into the buffer: one without it is dropped and counted, a bad one and MAC control are counted and leave nothing, and a good one joins the receive buffer with its arrival instant and its stamp
corrected by the board delay; the oldest frame of a port leaves with its FCS when the port is free and its gate is open, its correctionField corrected; the stamp queue is read from its head. -/
def Obligations.PortFrames : Prop :=
  ∀ (l ce ue corr stamp at_ : Nat) (opened : Bool) (octets : Bytes) (who : Who) (s : State),
    (s.isPort l = true → s.portUp l = true → let u := arrived s l ce ue at_
      let full := modeLanes (s.laneMode l) * 65536 < (u.port l).rxUsed (u.now - octetTicks (s.laneMode l) octets.length) + 9216
      (full → ∃ t, Gives (.laneFrameRx l octets ce ue stamp at_) s t ∧ t.ln = s.ln ∧ t.fld Fld.LN_CNT_RXDROP_COUNT 0 l = (s.fld Fld.LN_CNT_RXDROP_COUNT 0 l + 1) % 2 ^ 32) ∧
      (¬ full → octets.length < 64 ∨ 9216 < octets.length ∨ fcsOk octets = false →
        ∃ t, Gives (.laneFrameRx l octets ce ue stamp at_) s t ∧ t.ln = s.ln ∧ t.fld Fld.LN_CNT_RXERR_COUNT 0 l = (s.fld Fld.LN_CNT_RXERR_COUNT 0 l + 1) % 2 ^ 32) ∧
      (¬ full → 64 ≤ octets.length → octets.length ≤ 9216 → fcsOk octets = true → beAt octets 12 2 = 0x8808 →
        ∃ t, Gives (.laneFrameRx l octets ce ue stamp at_) s t ∧ t.ln = s.ln ∧ t.fld Fld.LN_CNT_MACCTL_COUNT 0 l = (s.fld Fld.LN_CNT_MACCTL_COUNT 0 l + 1) % 2 ^ 32) ∧
      (¬ full → 64 ≤ octets.length → octets.length ≤ 9216 → fcsOk octets = true → beAt octets 12 2 ≠ 0x8808 → ∃ t, Gives (.laneFrameRx l octets ce ue stamp at_) s t ∧
        (t.port l).rx = (s.port l).rx ++ [{ octets := octets, arrival := u.now, stamp := ((stamp : Int) - boardTicks (s.fld Fld.LN_LANE_DELAY_RX_PS 0 l)).toNat }] ∧
        t.fld Fld.LN_CNT_RXFRAMES_COUNT 0 l = (s.fld Fld.LN_CNT_RXFRAMES_COUNT 0 l + 1) % 2 ^ 32 ∧ ∀ j, j ≠ l → t.port j = s.port j)) ∧
    (let u := s.atTime at_
     ∀ h f rest, s.isPort l = true → u.bayOwner (l / 8) = some h → (if opened then (u.port l).opened else (u.port l).planned) = f :: rest → (u.port l).freeAt ≤ u.now →
      let b := withFcs (ptpCorrect f.octets corr)
      let wire := octetTicks (s.laneMode l) (b.length + 20)
      let event := ((stamp : Int) + boardTicks (u.fld Fld.LN_LANE_DELAY_TX_PS 0 l)).toNat
      let v := u.setPort l (if opened then { u.port l with freeAt := u.now + wire, opened := rest } else { u.port l with freeAt := u.now + wire, planned := rest })
      let w := (v.bump Fld.LN_CNT_TXFRAMES_COUNT 0 l).leave (.frame l b false)
      u.mayStart h l wire opened = true →
      (s.portUp l = true → f.tstamp = false → Gives (.portFrameTx l opened corr stamp at_) s (w.frameDone f event)) ∧
      (s.portUp l = true → f.tstamp = true → Gives (.portFrameTx l opened corr stamp at_) s ((w.pushStamp l event).frameDone f event)) ∧
      (s.portUp l = false → Gives (.portFrameTx l opened corr stamp at_) s ((v.bump Fld.LN_CNT_TXDOWN_COUNT 0 l).dropFrame f))) ∧
    (∀ m q t rest, s.ln.stamps = (m, q, t) :: rest → ∃ u, Gives (.lnTxtsInfoRead who) s u ∧ u.ln.stamps = rest ∧ u.fld Fld.LN_TXTS_STATUS_LEVEL = rest.length % 2 ^ 11 ∧
      u.out = s.out ++ [.readValue who (Reg.addr .LN_TXTS_INFO 0 0) (2 ^ 31 + m * 65536 + q % 65536)] ∧
      u.latchOf who (Reg.addr .LN_TXTS_NS 0 0) = nsOf t % 2 ^ 32 ∧ u.latchOf who (Reg.addr .LN_TXTS_SEC_LO 0 0) = secsOf t % 2 ^ 32)

/-- A lane's link, eye and faults. A port that is down shows what its lanes have reached, and comes up with signal, lock and alignment of all of them; one that loses any of them goes down at once; both are flagged and logged. An eye measurement of a
lit lane starts on EYE_NOW and leaves its height and width with its age 0. Energy on a dark lane latches for the calm domain, and thaws the duty hall that tells the owner, or tells the owner at once. A fault of a port takes it down and resets it; its
reset ends in training where its mode trains. -/
def Obligations.LaneLinks : Prop :=
  ∀ (l lost height width cause at_ : Nat) (got : List Nat) (aligned : Bool) (who : Who) (s : State), l < 256 →
    (s.isPort l = true → s.portUp l = false → s.flt.laneReset.get none l = none → look s.pkg.ocOff (l / 8) = none →
      let u := (s.atTime at_).showLanes l got (aligned || modeLanes (s.laneMode l) == 1)
      (u.linkReady l got aligned = true → Gives (.portLinkUp l got aligned at_) s (((u.raise Fld.LN_LANE_STATUS_LINK_UP 0 l).setFld Fld.LN_LANE_STATUS_TRAINING 0 0 l).linkChange l true)) ∧
      (u.linkReady l got aligned = false → Gives (.portLinkUp l got aligned at_) s u)) ∧
    (s.isPort l = true → lost % 16 ≠ 0 → Gives (.portLinkDown l lost at_) s ((s.atTime at_).portDown l lost)) ∧
    (s.portUp l = true → ∃ t, s.portDown l lost = t ∧ t.portUp l = false ∧ t.flag Fld.LN_LANE_STATUS_LINK_CHANGE 0 l = true) ∧
    (s.mayWrite who = true → s.laneDark l = false → ∃ t, Gives (.eyeNow who l at_) s t ∧ look t.ln.eyes l = some (max s.now at_) ∧ t.regs = s.regs) ∧
    (s.laneDark l = false → ∃ t, Gives (.eyeMeasureDone l height width at_) s t ∧ t.flag Fld.LN_EYE_VALID 0 l = true ∧ t.fld Fld.LN_EYE_HEIGHT 0 l = min height 255 ∧ t.fld Fld.LN_EYE_WIDTH 0 l = min width 255 ∧
      t.fld Fld.LN_EYE_AGE 0 l = 0 ∧ t.ln.eyeAt.get 0 l = max s.now at_ ∧ look t.ln.eyes l = none) ∧
    (s.laneDark l = true → s.tb.energy.get false l = false → let u := { s with tb := { s.tb with energy := s.tb.energy.put l true } }.setFld Fld.CALM_LANE_ED_ED (s.fld Fld.CALM_LANE_ED_ED 0 (l / 32) ||| 2 ^ (l % 32)) 0 (l / 32)
      (u.ownerDuty = none → Gives (.laneEnergyDetect l) s (u.energyEvent l)) ∧
      (∀ h, u.ownerDuty = some h → Gives (.laneEnergyDetect l) s { u.thaw h with tb := { u.tb with edLanes := u.tb.edLanes ++ [l] } })) ∧
    (∃ t, Gives (.laneEnergyGone l) s t ∧ t.tb.energy.get false l = false ∧ t.regs = s.regs ∧ (∀ j, j ≠ l → t.tb.energy.get false j = s.tb.energy.get false j)) ∧
    (s.isPort l = true → cause = 0x40 ∨ cause = 0x41 → ∃ t, Gives (.laneFault l cause at_) s t ∧ t.flt.laneReset.get none l = some t.now) ∧
    (∀ x, s.isPort l = true → s.flt.laneReset.get none l = some x → ∃ t, Gives (.laneResetComplete l at_) s t ∧ t.flt.laneReset.get none l = none ∧
      t.flag Fld.LN_LANE_STATUS_TRAINING 0 l = trains (s.laneMode l) (s.flag Fld.LN_LANE_CFG_TRAIN 0 l) ∧ t.alcove = s.alcove ∧ t.out = s.out)

/-- The window of a pool in a hall whose next emission is due first. -/
def Sys2Proof.Spec.ctxNext (s : State) (h pool : Nat) : Option CtxWin :=
  (s.cyc.wins.filter (fun w => w.hall == h && w.pool == pool)).foldl (fun (b : Option CtxWin) w => match b with | some v => if w.due < v.due then some w else b | none => some w) none

/-- The window has done its next emission, and is over with its last. -/
def Sys2Proof.Spec.ctxDone (s : State) (p : Plan.Pool) (w : CtxWin) : State :=
  { s with cyc := { s.cyc with wins := (s.cyc.wins.map (fun x => if x = w then { w with next := w.next + 1 } else x)).filter (fun x => decide (x.next < x.count * p.segs)) } }

/-- Cyclic traffic. The oldest cyclic frame of a running hall's ports, in the order of their last octets, leaves its receive buffer and is judged; an emission of a window that is due sends its segment, tagged in a pool with tags, or is counted idle where the slot
has no channel or its channel may not send; at a window's deadline each of its pool's channels is judged once; an overflow of notifications is reported in a later flight with room. -/
def Obligations.CyclicTraffic : Prop :=
  ∀ (l h pool at_ : Nat) (cut : Bool) (s : State),
    (∀ f, s.bayOwner (l / 8) = some h → s.running h = true → (s.port l).cyclicFrame = some f → (∀ x g, x ∈ s.hallPorts h → (s.port x).cyclicFrame = some g → f.arrival ≤ g.arrival) →
      Gives (.cyclicFrameRx l cut) s ((s.takeRx l f).cyclicRx h l (f.octets.take (f.octets.length - 4)) ((cyclicAt f.octets).getD 14) f.arrival cut)) ∧
    (let u := s.atTime at_
     ∀ w p, ctxNext u h pool = some w → w.due ≤ u.now → u.poolRec pool = some p → let v := ctxDone u p w
      let seg := w.next % p.segs
      let idle := v.bump Fld.CYC_CNT_IDLE_COUNT h
      (v.slotChan pool (w.first + w.next / p.segs) = none → Gives (.ctxEmission h pool cut at_) s idle) ∧
      (∀ i c, v.slotChan pool (w.first + w.next / p.segs) = some (i, c) → v.chHall h i = none → Gives (.ctxEmission h pool cut at_) s idle) ∧
      (∀ i c x, v.slotChan pool (w.first + w.next / p.segs) = some (i, c) → v.chHall h i = some x → segs p.out ≤ seg ∨ v.maySend h c x = false → Gives (.ctxEmission h pool cut at_) s idle) ∧
      (∀ i c x eth hdr pay, v.slotChan pool (w.first + w.next / p.segs) = some (i, c) → v.chHall h i = some x → seg < segs p.out → v.maySend h c x = true → p.gmac = false →
        v.dataOut h p c x ((w.due - v.origin) / (v.flightLen * 6553600) % 2 ^ 32) seg = (eth, hdr, pay) →
        Gives (.ctxEmission h pool cut at_) s ((v.sendCyclic (stnLane (v.station h c.sid)) (withFcs (eth ++ hdr ++ pay)) false).bump Fld.CYC_CNT_TX_COUNT h)) ∧
      (∀ i c x eth hdr pay k y, v.slotChan pool (w.first + w.next / p.segs) = some (i, c) → v.chHall h i = some x → seg < segs p.out → v.maySend h c x = true → p.gmac = true →
        v.dataOut h p c x ((w.due - v.origin) / (v.flightLen * 6553600) % 2 ^ 32) seg = (eth, hdr, pay) → v.cycSlot c c.txKey = some k → v.useCycKey h c.sid k = (y, true) → (y.slot k).eraseAt = none →
        Gives (.ctxEmission h pool cut at_) s ((y.sendCyclic (stnLane (v.station h c.sid)) (withFcs (eth ++ hdr ++ pay ++ sliceB (Config.gcmTag (y.slot k).key
          (cycIv ((w.due - v.origin) / (v.flightLen * 6553600) % 2 ^ 32) c.sid (seg * 16 + (segs p.out - 1)) 1 (y.fld Fld.PLN_RANK_RANK)) (hdr ++ pay) []) 0 16)) false).bump Fld.CYC_CNT_TX_COUNT h))) ∧
    (∀ w p, look s.cyc.crx (h * 65536 + pool) = some w → (s.atTime at_).poolRec pool = some p → w.done = false → w.deadline ≤ max s.now at_ → s.running h = true →
      let u := { s.atTime at_ with cyc := { s.cyc with crx := s.cyc.crx.put (h * 65536 + pool) { w with done := true } } }
      Gives (.poolDeadline h pool at_) s ((u.cyc.chans.foldl (fun (s : State) (e : Nat × Chan) =>
        if e.2.pool ≠ pool then s else match s.chHall h e.1 with
          | some x => if x.state < 2 then s else s.slotDeadline h p e.1 e.2 x
          | none => s) u).showBound h)) ∧
    (∀ f, look s.cyc.overflow h = some f → f < s.flightNow → s.cyc.sent.get 0 h < s.fld Fld.CYC_CFG_NOTIFY_LIMIT h → ∃ t, Gives (.notifyOverflowSend h) s t ∧
      t.cyc.overflow = s.cyc.overflow.del h ∧ t.cyc.sent.get 0 h = s.cyc.sent.get 0 h + 1)

/-! ### Device Time and the calm domain (chapter 2) -/

/-- The time base under writes of the owner or firmware: CTRL takes a legal source and slew, RATE its rate within the bound of R39, STEP shifts Device Time or adds to the slew, SET sets it with no plan active, ORIGIN is held
to whole 100 ns; under the hardware servo RATE and STEP are ignored and flagged; a read of NOW latches the other words; a slew ends when it has been carried out. The references. An edge of the selected sense records its presence, and under the hardware servo counts toward the lock within 50 ns, and means holdover beyond 500 ns; more than 2 s without one, or more than 4 s without a servo write under the servo sources, mean holdover; the 10 MHz input's loss and return are shown; PPS_OUT
pulses on whole seconds for its width. -/
def Obligations.TimeBaseAndReferences : Prop :=
  (∀ (value at_ : Nat) (who : Who) (s : State),
      (∃ t, Gives (.tbNowRead who at_) s t ∧ t.now = max s.now at_ ∧ t.out = s.out ++ [.readValue who (Reg.addr .TB_NOW_FRAC 0 0) (max s.now at_ % 65536)] ∧
        t.latchOf who (Reg.addr .TB_NOW_NS 0 0) = max s.now at_ / 65536 % 1000000000 % 2 ^ 32 ∧ t.latchOf who (Reg.addr .TB_NOW_SEC_LO 0 0) = max s.now at_ / 65536000000000 % 2 ^ 32 ∧
        t.latchOf who (Reg.addr .TB_NOW_SEC_HI 0 0) = max s.now at_ / 65536000000000 / 2 ^ 32 % 65536 ∧ t.regs = s.regs) ∧
      (s.mayWrite who = true → ∃ t, Gives (.tbCtrlWrite who value at_) s t ∧ t.fld Fld.TB_CTRL_PPS_DELAY = bitsOf value 31 16 ∧ t.fld Fld.TB_CTRL_PPS_EDGE = bitsOf value 3 3 ∧
        t.fld Fld.TB_CTRL_SRC = (if bitsOf value 2 0 ≤ 4 then bitsOf value 2 0 else s.fld Fld.TB_CTRL_SRC) ∧
        t.fld Fld.TB_CTRL_SLEW = (if 1 ≤ bitsOf value 15 8 ∧ bitsOf value 15 8 ≤ 30 then bitsOf value 15 8 else s.fld Fld.TB_CTRL_SLEW)) ∧
      (s.mayWrite who = true → s.hwServo = true → ∃ t u, Gives (.tbRateWrite who value at_) s t ∧ Gives (.tbStepWrite who value at_) s u ∧
        t.flag Fld.TB_STATUS_SRC_WRITE_IGNORED = true ∧ u.flag Fld.TB_STATUS_SRC_WRITE_IGNORED = true ∧ t.fld Fld.TB_RATE_RATE = s.fld Fld.TB_RATE_RATE ∧ u.now = max s.now at_) ∧
      (s.mayWrite who = true → s.hwServo = false → ∃ t, Gives (.tbRateWrite who value at_) s t ∧
        t.fld Fld.TB_RATE_RATE = ofSigned 32 (max (-rateBound) (min rateBound (toSigned 32 value)))) ∧
      (s.mayWrite who = true → s.hwServo = false → s.planActive = false → ∃ t, Gives (.tbStepWrite who value at_) s t ∧
        t.now = ((max s.now at_ : Nat) + max (-2147483647) (toSigned 32 value) * 65536 : Int).toNat) ∧
      (s.mayWrite who = true → s.hwServo = false → s.planActive = true → ∃ t, Gives (.tbStepWrite who value at_) s t ∧ t.now = max s.now at_ ∧
        t.tb.slew = (s.atTime at_).servoWrite.runSlew.tb.slew + max (-2147483647) (toSigned 32 value) * 65536) ∧
      (Gives (.slewComplete at_) s (s.atTime at_).runSlew) ∧
      (s.tb.slew.natAbs ≤ slewDone s.slewRate (max s.now at_ - s.tb.slewAt) → ∃ t, Gives (.slewComplete at_) s t ∧ t.tb.slew = 0 ∧ t.flag Fld.TB_STATUS_SLEWING = false ∧ t.now = max s.now at_) ∧
      (s.mayWrite who = true → s.planActive = true ∨ 999999999 < s.latchOf who (Reg.addr .TB_SET_NS 0 0) → ∃ t, Gives (.tbSetCommit who value at_) s t ∧
        t.flag Fld.TB_STATUS_SET_REFUSED = true ∧ t.now = max s.now at_) ∧
      (s.mayWrite who = true → s.planActive = false → s.latchOf who (Reg.addr .TB_SET_NS 0 0) ≤ 999999999 → ∃ t, Gives (.tbSetCommit who value at_) s t ∧
        t.now = (s.latchOf who (Reg.addr .TB_SET_SEC_LO 0 0) + 2 ^ 32 * (value % 65536)) * 65536000000000 + s.latchOf who (Reg.addr .TB_SET_NS 0 0) * 65536 ∧ t.regs = (s.atTime at_).runSlew.regs) ∧
      (s.mayWrite who = true → value ≤ 999999999 → ∃ t, Gives (.tbOriginWrite who value) s t ∧ t.fld Fld.TB_ORIGIN_NS_NS = value / 100 * 100) ∧
      (s.mayWrite who = false → Gives (.tbOriginWrite who value) s s)) ∧
  (∀ (at_ since : Nat) (rising : Bool) (s : State),
      (rising ≠ s.flag Fld.TB_CTRL_PPS_EDGE → s.hwServo = false → ∃ t, Gives (.ppsEdge rising at_) s t ∧ t.flag Fld.TB_STATUS_PPS_PRESENT = true ∧ t.tb.edge = max s.now at_ ∧
        t.fld Fld.TB_RATE_RATE = s.fld Fld.TB_RATE_RATE) ∧
      (let off := secondOffset (((max s.now at_ : Nat) : Int) - (s.fld Fld.TB_CTRL_PPS_DELAY * 65536 : Nat))
       rising ≠ s.flag Fld.TB_CTRL_PPS_EDGE → s.hwServo = true →
        (500 < off.natAbs → ∃ t, Gives (.ppsEdge rising at_) s t ∧ t.flag Fld.TB_STATUS_HOLDOVER = true ∧ t.tb.good = 0 ∧ t.flag Fld.TB_STATUS_PPS_PRESENT = true) ∧
        (off.natAbs ≤ 50 → ∃ t, Gives (.ppsEdge rising at_) s t ∧ t.flag Fld.TB_STATUS_HOLDOVER = false ∧ t.tb.good = s.tb.good + 1 ∧ (7 ≤ s.tb.good → t.flag Fld.TB_STATUS_LOCKED = true) ∧
          -rateBound ≤ toSigned 32 (t.fld Fld.TB_RATE_RATE) ∧ toSigned 32 (t.fld Fld.TB_RATE_RATE) ≤ rateBound)) ∧
      (∀ e, s.tb.edgeAt = some e → e + 2 * 65536000000000 < max s.now at_ → s.tb.edge + 2 * 65536000000000 < max s.now at_ → s.hwServo = true → ∃ t, Gives (.ppsTimeout at_) s t ∧ t.flag Fld.TB_STATUS_PPS_PRESENT = false ∧ t.flag Fld.TB_STATUS_HOLDOVER = true ∧ t.tb.good = 0) ∧
      (s.fld Fld.TB_CTRL_SRC = 1 ∨ s.fld Fld.TB_CTRL_SRC = 2 → s.tb.servo + 4 * 65536000000000 < max s.now at_ → ∃ t, Gives (.servoHoldoverTimeout at_) s t ∧ t.flag Fld.TB_STATUS_HOLDOVER = true) ∧
      (∃ t, Gives (.ref10Loss at_) s t ∧ t.flag Fld.TB_STATUS_REF10_PRESENT = false ∧ t.tb.ref10In = false) ∧
      (s.fld Fld.TB_CTRL_SRC = 4 → since + 65536000000000 ≤ max s.now at_ → ∃ t, Gives (.ref10Restore since at_) s t ∧ t.flag Fld.TB_STATUS_REF10_PRESENT = true ∧ t.tb.ref10In = true) ∧
      (s.flag Fld.LN_PPS_OUT_EN = true → max s.now at_ % 65536000000000 = 0 → ∃ t, Gives (.ppsOutPulse at_) s t ∧ t.out = s.out ++ [.pin 2 0 true] ∧
        t.tb.ppsEnd = some (max s.now at_ + s.fld Fld.LN_PPS_OUT_WIDTH_US * 1000 * 65536)) ∧
      (∀ e, s.tb.ppsEnd = some e → e ≤ max s.now at_ → ∃ t, Gives (.ppsOutPulseEnd at_) s t ∧ t.out = s.out ++ [.pin 2 0 false] ∧ t.tb.ppsEnd = none))

/-! ### Landings, treads, standby and plans (chapters 2 and 3) -/

/-- The flight's clock. At a tread boundary the accesses that wait for it are served and every hall begins the tread once, in the order of the halls; a running hall without a fetch error takes the bundle of its program that stands at the tread, or holds while a SKIP covers it; a landing lands its flight once, and with no plan active only a
start that is not held lands; what is due at neither changes only Device Time. -/
def Obligations.LandingsAndTreads : Prop :=
  (∀ (k uj at_ : Nat) (errs : List (Nat × Nat)) (reload : List Nat) (bad : Option (Nat × Nat × Bytes)) (s : State), s.now ≤ at_ → s.atF4 = false → s.flt.deviceFault = none →
    (s.planActive = true → s.origin ≤ at_ → (at_ - s.origin) % 6553600 = 0 → let u := (s.atTime at_).serveAccesses
      u.pln.lastFlight = some u.flightNow → u.flt.deviceFault = none →
      Gives (.treadStart errs at_) s ((List.range 18).foldl (fun (s : State) h => s.treadHall u.treadAt (match errs.find? (fun e => e.1 == h) with | some e => e.2 | none => 0) h) u.snapLands)) ∧
    (s.planActive = true → at_ < s.origin ∨ (at_ - s.origin) % 6553600 ≠ 0 → Gives (.treadStart errs at_) s (s.atTime at_)) ∧
    (s.planActive = true → (s.atTime at_).landingAt at_ = some k → s.tb.wakeAt = none → s.pln.lastFlight ≠ some k → Gives (.landing uj reload bad at_) s ((s.atTime at_).serveAccesses.land43 uj reload bad k)) ∧
    (∀ w, s.planActive = true → (s.atTime at_).landingAt at_ = some k → s.tb.wakeAt = some w → w ≤ at_ → s.pln.lastFlight ≠ some k → Gives (.landing uj reload bad at_) s ((s.atTime at_).serveAccesses.land43 uj reload bad k)) ∧
    (s.planActive = true → s.pln.lastFlight = some k → (s.atTime at_).landingAt at_ = some k → Gives (.landing uj reload bad at_) s (s.atTime at_)) ∧
    (s.planActive = false → (s.atTime at_).landingAt at_ = some k → s.startHeld = false → s.tb.wakeAt = none → let u := (s.atTime at_).swapStep k
      u.planActive = true → Gives (.landing uj reload bad at_) s
        (let v := (List.range 18).foldl (fun (s : State) h => s.frostStep k true reload h) u.gradesLand.sharesLand
         let w := (List.range 18).foldl (fun (s : State) h => s.showNext k h) v
         (({ w with pln := { w.pln with lastFlight := some k } }).newFlight.stagedLand k))) ∧
    (s.planActive = false → s.startHeld = true → s.tb.wakeAt = none → Gives (.landing uj reload bad at_) s (s.atTime at_)) ∧
    ((s.atTime at_).landingAt at_ = none → Gives (.landing uj reload bad at_) s (s.atTime at_))) ∧
  (∀ (n h l i left : Nat) (covered : Bool) (s : State), let v := s.learnsBefore h s.now
    v.running h = true → v.logicalOf h = some l → Plan.treadPlace (Plan.program v.pln.active l) n = some (i, covered, left) → let bd := (Plan.program v.pln.active l).getD i []
    ∃ t, s.treadHall n 0 h = t ∧ (t.seq h).tread = n ∧ (t.seq h).start = v.now ∧ (t.seq h).ops = (if covered then [0, Plan.slot bd 1, 0, 0] else bd) ∧ t.fld Fld.TSQ_BUNDLE_INDEX h = i % 65536 ∧
      t.flag Fld.TSQ_BUNDLE_SKIPPING h = covered)

/-- Standby. A request sets CALM_STANDBY and is pending while not at F4; F4 is entered with every function in D3hot at a landing or with no plan, the Atrium's contents gone and its stacks and the event unit powered down; a wake whose
source is enabled ends F4 with its reason shown, and sets when the plan's halls have had their wake time. -/
def Obligations.StandbyEntersAndWakes : Prop :=
  ∀ (value reason at_ : Nat) (who : Who) (s : State),
    (s.mayWrite who = true → ∃ t, Gives (.standbyRequest who value) s t ∧ t.fld Fld.CALM_STANDBY_REQ = value % 2 ∧ t.fld Fld.CALM_STATE_STANDBY_PENDING = (if s.atF4 then 0 else value % 2)) ∧
    (s.atF4 = false → s.flag Fld.CALM_STANDBY_REQ = true → s.allAsleep = true → (s.planActive = true → ((s.atTime at_).landingAt (max s.now at_)).isSome = true) → s.flt.deviceFault = none →
      ∃ t, Gives (.standbyEnter at_) s t ∧ t.atF4 = true ∧ t.atrium = [] ∧ t.fld Fld.ATR_STATUS_POWERED = 0 ∧ t.flag Fld.EVT_STATUS_POWERED = false ∧ t.flag Fld.CALM_STATE_STANDBY_PENDING = false ∧
        t.tb.hadPlan = s.planActive) ∧
    (s.atF4 = true → s.wakes reason = true → reason ≤ 4 → ∃ t, Gives (.standbyWake reason none at_) s t ∧ t.atF4 = false ∧ t.fld Fld.CALM_STATE_WAKE_REASON = reason ∧ t.fld Fld.ATR_STATUS_POWERED = 15 ∧
      t.flag Fld.EVT_STATUS_POWERED = true ∧ t.flag Fld.CALM_STANDBY_REQ = false ∧ (s.tb.hadPlan = true → t.tb.wakeAt = some (max s.now at_ + 15000 * 6553600))) ∧
    (∀ r, s.atF4 = true → s.wakes reason = true → s.tb.hadPlan = true → Gives (.standbyWake reason (some r) at_) s ((s.atTime at_).resumeFails r))

/-- An admin command is accepted: no fault has discarded it, and it passes the first three steps of R387. -/
def Sys2Proof.Spec.Accepted (s : State) (d : AdminCmd) (op : Nat) : Prop := s.wq.gone.contains (d.fn, d.idx) = false ∧ s.adminCheck d op = none

/-- Plan commands. A load takes its image into the standby slot and verifies it, a stored one begins its copy, a store begins its copy out, a swap is requested for a READY slot, a stop makes the plan STOPPING, a discard empties
the slot, where a load that waited ends rejected with reason 0 (the model's choice, log entry 40); each completes when what it asks for has ended; a slot in the wrong state rejects with its reason, and so does a swap for a landing that is past. -/
def Obligations.PlanCommands : Prop :=
  ∀ (d : AdminCmd) (buf : Bytes) (s : State),
    (Accepted s d 0x10 → s.slotBusy = false → Gives (.planLoad d buf) s
      (({ s with pln := { s.pln with standby := sliceB buf 0 d.bufLen, load := some d, bootCase := 0 } }.setFld Fld.PLN_STANDBY_STATUS_SOURCE 0).startVerify)) ∧
    (Accepted s d 0x11 → s.slotBusy = false → ∃ t, Gives (.planLoadStored d) s t ∧ t.pln.standby = [] ∧ t.pln.load = some d ∧ t.standbyState = 1 ∧ t.pln.copies = s.pln.copies ++ [PlanCopy.mk 1 (d.p 0) [] none]) ∧
    (Accepted s d 0x12 → s.pln.standby ≠ [] → Gives (.planStore d) s { s with pln := { s.pln with copies := s.pln.copies ++ [PlanCopy.mk 0 (d.p 0) s.pln.standby (some d)] } }) ∧
    (Accepted s d 0x13 → s.standbyState = 3 → bitOf (d.p 0) 0 = false → Gives (.planSwap d) s (s.requestSwap none (some d) false)) ∧
    (Accepted s d 0x13 → s.standbyState = 3 → bitOf (d.p 0) 0 = true → (s.requestSwap (some (d.p64 1)) (some d) false).flightGone (d.p64 1) = false →
      Gives (.planSwap d) s (s.requestSwap (some (d.p64 1)) (some d) false)) ∧
    (Accepted s d 0x13 → s.standbyState = 3 → bitOf (d.p 0) 0 = true → (s.requestSwap (some (d.p64 1)) (some d) false).flightGone (d.p64 1) = true →
      Gives (.planSwap d) s ((s.requestSwap (some (d.p64 1)) (some d) false).abandonSwap 0x43)) ∧
    (Accepted s d 0x14 → ∃ t, Gives (.planStop d) s t ∧ t.fld Fld.PLN_ACTIVE_STATUS_STATE = 3 ∧ t.pln.stops = s.pln.stops ++ [d]) ∧
    (Accepted s d 0x15 → s.standbyState ≠ 5 → Gives (.planDiscard d) s
      ((((({ s with pln := { s.pln with standby := [], verdict := none, load := none, bootCase := 0, copies := s.pln.copies.filter (fun c => c.kind == 0) } }).setStandby 0).showSlots).planDone s.pln.load St.planRejected 0 0).adminOk d)) ∧
    (Accepted s d 0x10 → s.slotBusy = true → Gives (.planLoad d buf) s (s.planFail d 0x40)) ∧
    (Accepted s d 0x12 → s.pln.standby = [] → Gives (.planStore d) s (s.planFail d 0x41)) ∧
    (Accepted s d 0x13 → s.standbyState ≠ 3 → Gives (.planSwap d) s (s.planFail d 0x41)) ∧
    (Accepted s d 0x15 → s.standbyState = 5 → Gives (.planDiscard d) s (s.planFail d 0x40))

/-- The slots move by themselves: a verdict leaves the slot READY, or rejected and counted with its place and reason, and at a boot starts the plan or falls through; a hall of the requested swap becomes ready when its bank is written, it is up and, where its role changes, it has drained; a swap for the
first ready landing is abandoned after its time; start selection restarts, resumes, or waits for a certified grade and takes the standalone case; a copy into the library keeps its image, and one into the standby slot is verified, or fails. -/
def Obligations.PlanSlotEvents : Prop :=
  ∀ (h at_ : Nat) (s : State),
    (∀ wh item oks d, s.pln.verdict = some (0, wh, item, oks) → s.pln.bootCase = 0 → s.pln.load = some d → Gives (.verifyComplete at_) s
      ((((({ s.atTime at_ with pln := { s.pln with verdict := none, load := none, remaps := oks } }.setWord .PLN_VERIFY_WHERE (BitVec.ofNat 32 wh)).setWord .PLN_VERIFY_ITEM (BitVec.ofNat 32 item)).setReason 0).setStandby 3).adminDone d St.success 0 (wh + item * 2 ^ 32) 0)) ∧
    (∀ code wh item oks d, s.pln.verdict = some (code, wh, item, oks) → code ≠ 0 → s.pln.bootCase = 0 → s.pln.load = some d → Gives (.verifyComplete at_) s
      (((((({ s.atTime at_ with pln := { s.pln with verdict := none, load := none, remaps := oks } }.setWord .PLN_VERIFY_WHERE (BitVec.ofNat 32 wh)).setWord .PLN_VERIFY_ITEM (BitVec.ofNat 32 item)).setReason code).setStandby 4).bump Fld.PLN_COUNTS_REJECTS).adminDone d
        St.planRejected code (wh + item * 2 ^ 32) 0)) ∧
    (∀ code wh item oks, s.pln.verdict = some (code, wh, item, oks) → s.pln.bootCase ≠ 0 →
      let u := (({ s.atTime at_ with pln := { s.pln with verdict := none, load := none, remaps := oks } }.setWord .PLN_VERIFY_WHERE (BitVec.ofNat 32 wh)).setWord .PLN_VERIFY_ITEM (BitVec.ofNat 32 item)).setReason code
      (code = 0 → Plan.standaloneOk s.pln.standby = true → Gives (.verifyComplete at_) s (({ u.setStandby 3 with pln := { (u.setStandby 3).pln with bootCase := 0 } }).requestSwap none none (s.pln.bootCase == 2))) ∧
      (code = 0 → Plan.standaloneOk s.pln.standby = false → Gives (.verifyComplete at_) s ((u.setStandby 3).startFails 0)) ∧
      (code ≠ 0 → Gives (.verifyComplete at_) s (((u.setStandby 4).bump Fld.PLN_COUNTS_REJECTS).startFails code))) ∧
    (∀ w, s.pln.swap = some w → (s.atTime at_).swapHalls.contains h = true → (s.atTime at_).bankReady w h = true → (s.atTime at_).roleChanges h = false ∨ (s.atTime at_).drained h = true → h < 18 → ∃ t, Gives (.hallReady h at_) s t ∧
      bitOf (t.fld Fld.PLN_HALL_READY_READY) h = true ∧ t.pln.swap = some w) ∧
    (∀ w, s.pln.swap = some w → w.named = none → w.since + s.fld Fld.PLN_SWAP_TIMEOUT_MS * 1000000 * 65536 < max s.now at_ → Gives (.swapTimeout at_) s ((s.atTime at_).abandonSwap 0x42)) ∧
    (s.pln.selected = false → s.fld Fld.OWN_BOOT_STATUS_STAGE = 2 → s.planActive = false → s.slotBusy = false → s.startHeld = false →
      ((s.atTime at_).restarts = true → Gives (.startSelect at_) s ({ s.atTime at_ with pln := { s.pln with selected := true } }).restartPlan) ∧
      ((s.atTime at_).restarts = false → s.baro.passes ≠ 0 → let u := { s.atTime at_ with pln := { s.pln with selected := true }, own := { s.own with planWasRunning := false } }
        (s.flag Fld.OWN_CFG_RESUME = true → s.pln.active ≠ [] → Gives (.startSelect at_) s ((u.setFld Fld.OWN_BOOT_STATUS_START 1).beginCopyIn 2 0 1 none)) ∧
        (s.flag Fld.OWN_CFG_RESUME = false ∨ s.pln.active = [] → Gives (.startSelect at_) s u.startStandalone))) ∧
    (∀ c rest ok, s.pln.copies = c :: rest → let u := { s with pln := { s.pln with copies := rest } }
      (c.kind = 0 → Gives (.libraryCopyComplete ok) s ({ u with pln := { u.pln with library := s.pln.library.put (c.idx % 16) c.image } }.planDone c.cmd St.success 0 0)) ∧
      (∀ b, c.kind ≠ 0 → b = (if c.kind = 1 then s.pln.library.get [] (c.idx % 16) else s.pln.active) →
        (ok = true → b ≠ [] → Gives (.libraryCopyComplete ok) s ({ u with pln := { u.pln with standby := b } }.startVerify)) ∧
        (ok = false ∨ b = [] → Gives (.libraryCopyComplete ok) s u.copyFails)))

/-! ### Queues, doorbells, completion queues and admin rings (chapter 14) -/

/-- A command names an SQ, RQ or AQ that its function owns, or that the owner may name. -/
def Sys2Proof.Spec.NamesQueue (s : State) (d : AdminCmd) (k : Nat) : Prop :=
  s.ringKey 1 (d.p 0) d.fn = some k ∧ (s.queue k).present = true ∧ ((s.queue k).fn = d.fn ∨ s.isOwner d.fn = true)

/-- A command names a CQ of its function. -/
def Sys2Proof.Spec.NamesCq (s : State) (d : AdminCmd) (k : Nat) : Prop :=
  s.ringKey 2 (d.p 0) d.fn = some k ∧ (s.cq k).present = true ∧ (s.cq k).fn = d.fn

/-- Doorbells of pages that name a live ring of a function in D0. A producer write that leaves at most the ring's size between P and C becomes P, another makes the queue ERROR and is reported as OVERRUN; a consumer write up to P becomes C, another makes the CQ
ERROR; a re-arm with the function's current fault epoch returns a halted queue to ACTIVE at its watermark, another is counted; moderation fields are taken as written; a page that names no live ring is counted as ignored. -/
def Obligations.DoorbellRules : Prop :=
  ∀ (fn page value k : Nat) (s : State), fn < 8192 →
    (∀ q, s.bell fn page false = some k → s.queue k = q → sub32 value q.p + sub32 q.p q.c ≤ 2 ^ q.sizeLog2 →
      ∃ t, Gives (.doorbellProducer fn page value) s t ∧ t.queue k = { q with p := value } ∧ (∀ j, j ≠ k → t.queue j = s.queue j) ∧ t.wq.cqs = s.wq.cqs) ∧
    (∀ q, s.bell fn page false = some k → s.queue k = q → 2 ^ q.sizeLog2 < sub32 value q.p + sub32 q.p q.c → (s.cq (if k ≥ 65536 then k else q.cq)).present = false →
      ∃ t, Gives (.doorbellProducer fn page value) s t ∧ t.queue k = { q with state := .error, detail := 1 } ∧ t.flag Fld.WQ_STATUS_OVERRUN = true) ∧
    (∀ q, s.bell fn page false = some k → s.queue k = q → 2 ^ q.sizeLog2 < sub32 value q.p + sub32 q.p q.c → let u := ((((s.dbWake fn).setQueue k { q with state := .error, detail := 1 }).raise Fld.WQ_STATUS_OVERRUN).bump Fld.WQ_CNT_OVERRUN_COUNT)
      Gives (.doorbellProducer fn page value) s (u.cqPost (if k ≥ 65536 then k else q.cq) (if k ≥ 65536 then 18 else u.servingHall q) (u.queueReport k q.p value St.queueOverrun 1) false)) ∧
    (∀ c, s.bell fn page true = some k → s.cq k = c → sub32 value c.c ≤ sub32 c.p c.c →
      ∃ t, Gives (.doorbellConsumer fn page value) s t ∧ t.cq k = { c with c := value, stallStart := if value = c.c then c.stallStart else none } ∧ t.wq.queues = s.wq.queues) ∧
    (∀ c, s.bell fn page true = some k → s.cq k = c → sub32 c.p c.c < sub32 value c.c →
      Gives (.doorbellConsumer fn page value) s (((((s.dbWake fn).setCq k { c with state := 3, detail := 4 }).raise Fld.WQ_STATUS_OVERRUN).bump Fld.WQ_CNT_OVERRUN_COUNT).pauseFeeders k true)) ∧
    (∀ q, s.bell fn page false = some k → s.queue k = q → q.state = .haltedEpoch → value % 65536 = s.fld Fld.FLT_FN_EPOCH_EPOCH fn →
      ∃ t, Gives (.doorbellRearm fn page value) s t ∧ t.queue k = { q with state := .active, c := q.wm, ready := [], inProg := [], finished := [], batchSum := 0, staleSince := none }) ∧
    (∀ q, s.bell fn page false = some k → s.queue k = q → q.state ≠ .haltedEpoch ∨ value % 65536 ≠ s.fld Fld.FLT_FN_EPOCH_EPOCH fn →
      ∃ t, Gives (.doorbellRearm fn page value) s t ∧ t.wq = s.wq ∧ t.fld Fld.WQ_CNT_REARM_STALE_COUNT = (s.fld Fld.WQ_CNT_REARM_STALE_COUNT + 1) % 2 ^ 32) ∧
    (∀ c, s.bell fn page true = some k → s.cq k = c →
      Gives (.cqModerationWrite fn page value) s (s.setCq k { c with irqEn := bitOf value 31, holdCnt := bitsOf value 27 16, holdUs := bitsOf value 15 0 })) ∧
    (s.bell fn page false = none → Gives (.doorbellProducer fn page value) s s.bellIgnored ∧ Gives (.doorbellRearm fn page value) s s.bellIgnored) ∧
    (s.bell fn page true = none → Gives (.doorbellConsumer fn page value) s s.bellIgnored ∧ Gives (.cqModerationWrite fn page value) s s.bellIgnored)

/-- A ring's entry is at hand: its queue is active, its function runs, its hall serves it, and, but for an AQ, which the Nave fetches itself, the hall's carriers have brought the entry in. -/
def Sys2Proof.Spec.EntryAtHand (s : State) (k idx : Nat) : Prop :=
  (s.queue k).present = true ∧ (s.queue k).state = .active ∧
  (if 65536 ≤ k then s.aqFetches (s.queue k).fn = true else s.fnRuns (s.queue k).fn = true ∧ s.queueServed (s.queue k) = true ∧ s.readDone (s.servingHall (s.queue k)) 0 k idx = true)

/-- Entries and records. An entry at hand that is next, below P, and of the right phase is used: of an admitted send queue a NOP ends with SUCCESS, a work descriptor is started, and any other ends with BAD_DESCRIPTOR; one of a receive queue or an AQ is held; one of the wrong phase is dropped and counted, and makes the
queue ERROR after its time; one staged record at a time is written; a stalled CQ ends its feeders; the Nave starts the oldest fetched admin command, refusing at once what R387's first steps refuse; the oldest raised event is posted, and a freed place of the event queue takes the record of dropped events first. -/
def Obligations.QueueWork : Prop :=
  ∀ (k idx fn at_ : Nat) (entry : Bytes) (s : State),
    (let u := s.atTime at_
     ∀ q, u.queue k = q → EntryAtHand u k idx → sub32 idx q.c < sub32 q.p q.c → sub32 idx q.c < 2 ^ q.sizeLog2 →
      let v := u.endRead (u.servingHall q) 0 k idx
      let d := parseDesc idx entry
      let w := (v.setQueue k { q with c := add32 idx 1, staleSince := none, inProg := q.inProg ++ [idx] }).setCq q.cq { u.cq q.cq with reserved := (u.cq q.cq).reserved + 1 }
      (leAt entry 0 1 % 2 = phaseOf idx q.sizeLog2 → k < 65536 → q.isRq = false → idx = q.c → u.admits q = true →
        (d.opcode = 0 → headerOk entry = true → Gives (.queueEntryFetch k idx entry at_) s (w.descDone k idx ⟨d.cookie, d.batchEnd, St.success, 0, 0, 0, 0, 0⟩)) ∧
        (d.opcode = 1 → headerOk entry = true → Gives (.queueEntryFetch k idx entry at_) s (w.setQueue k { w.queue k with ready := q.ready ++ [d] })) ∧
        (1 < d.opcode ∨ headerOk entry = false → Gives (.queueEntryFetch k idx entry at_) s (w.descDone k idx ⟨d.cookie, d.batchEnd, St.badDescriptor, 0, 0, 0, 0, 0⟩))) ∧
      (leAt entry 0 1 % 2 = phaseOf idx q.sizeLog2 → idx = add32 q.c q.ready.length → let x := v.setQueue k { q with staleSince := none, ready := q.ready ++ [d] }
        (65536 ≤ k → q.isRq = false → Gives (.queueEntryFetch k idx entry at_) s x) ∧ (k < 65536 → q.isRq = true → Gives (.queueEntryFetch k idx entry at_) s (x.rqSkim k 1))) ∧
      (leAt entry 0 1 % 2 ≠ phaseOf idx q.sizeLog2 → Gives (.queueEntryFetch k idx entry at_) s ((v.bump Fld.WQ_CNT_REFETCH_COUNT).setQueue k { q with staleSince := some (q.staleSince.getD u.now) }))) ∧
    (∀ q t, s.queue k = q → q.staleSince = some t → q.present = true → q.state = .active → t + s.fld Fld.WQ_CFG_PHASE_US * 1000 * 65536 < max s.now at_ →
      ∃ u, Gives (.stalePhaseTimeout k at_) s u ∧ u.queue k = { q with state := .error, detail := 3, staleSince := none } ∧ u.flag Fld.WQ_STATUS_PHASE = true) ∧
    (Gives (.stagedRecordWrite k) s (s.drainStaged k 1)) ∧
    (∀ r t x, (s.cq k).staged = r :: t → t ≠ [] → (s.cq k).state = 0 → 0 < (s.cq k).space → r.crec.mark = none → 18 ≤ r.hall → ((s.setCq k { s.cq k with staged := t }).cqWrite State.hostWrite k r.crec).showStage r.hall = x → (x.cq k).state = 0 →
      Gives (.stagedRecordWrite k) s x) ∧
    (∀ c t, s.cq k = c → c.stallStart = some t → c.present = true → c.state = 1 → t + s.fld Fld.WQ_CFG_CQ_STALL_MS * 1000000 * 65536 < max s.now at_ →
      let feeders := (s.wq.queues.filter (fun e => e.2.present && e.2.cq == k && (e.2.state == .active || e.2.state == .paused || e.2.state == .haltedEpoch))).map (·.1)
      let u := feeders.foldl (fun (s : State) q => s.stallQueue q k) (s.atTime at_)
      Gives (.cqStallTimeout k at_) s (((u.setCq k { u.cq k with stallStart := none }).raise Fld.WQ_STATUS_STALL).bump Fld.WQ_CNT_STALL_COUNT)) ∧
    (∀ d rest, (s.queue (adminKey fn)).ready = d :: rest → s.aqFetches fn = true → (s.queue (adminKey fn)).inProg.length < 64 →
      let c := parseAdmin fn d.idx d.bytes
      let q := s.queue (adminKey fn)
      let v := s.setQueue (adminKey fn) { q with ready := rest, c := add32 q.c 1, inProg := q.inProg ++ [d.idx] }
      let u := { v with wq := { v.wq with inflight := v.wq.inflight ++ [c], gone := v.wq.gone.filter (· != (fn, d.idx)) } }
      Gives (.adminCommandStart fn) s (if opAssigned c.opcode then (match u.adminCheck c c.opcode with | some (st, dt) => u.adminFail c st dt | none => u)
        else if c.reserved ≠ 0 then u.adminFail c St.badDescriptor else u.adminFail c St.unsupported)) ∧
    (∀ e rest, s.wq.raised = e :: rest → Gives .asyncEventPost s ({ s with wq := { s.wq with raised := rest } }.postEvent e)) ∧
    (∀ (x : State) (e : Event), x.cqRoom (x.evqKey e.fn) = true → (x.wq.evWait.get {} e.fn).waiting = [] → (x.wq.evWait.get {} e.fn).dropped = 0 → x.postEvent e = x.cqPost (x.evqKey e.fn) 18 (eventRec e) false) ∧
    (s.cqRoom (s.evqKey fn) = true → (s.wq.evWait.get {} fn).dropped ≠ 0 → Gives (.eventQueueDrain fn) s
      ((s.setEvWait fn { s.wq.evWait.get {} fn with dropped := 0, bits := 0 }).cqPost (s.evqKey fn) 18 (droppedRec (s.wq.evWait.get {} fn)) false)) ∧
    (∀ e rest, s.cqRoom (s.evqKey fn) = true → (s.wq.evWait.get {} fn).dropped = 0 → (s.wq.evWait.get {} fn).waiting = e :: rest → Gives (.eventQueueDrain fn) s
      ((s.setEvWait fn { s.wq.evWait.get {} fn with waiting := rest }).cqPost (s.evqKey fn) 18 (eventRec e) false))

/-- The admin rings: enabling makes the ring with its size and base, an enabled ACQ takes a new vector, and taking EN away from either ring ends both. -/
def Obligations.AdminRingWrites : Prop :=
  ∀ (who : Who) (fn value : Nat) (s : State), fn < 8192 → s.mayWriteFn who fn = true →
    (s.flag Fld.WQ_FN_AQ_CFG_EN fn = false → bitOf value 31 = true → ∃ t, Gives (.aqCfgWrite who fn value) s t ∧ t.flag Fld.WQ_FN_AQ_CFG_EN fn = true ∧
      t.queue (adminKey fn) = { present := true, fn := fn, sizeLog2 := ringSize (s.fld Fld.WQ_FN_AQ_CFG_SIZE_LOG2 fn) value, cq := adminKey fn, base := s.fld Fld.WQ_FN_AQ_BASE_LO_ADDR fn * 4096 + 2 ^ 32 * s.fld Fld.WQ_FN_AQ_BASE_HI_ADDR fn }) ∧
    (s.flag Fld.WQ_FN_ACQ_CFG_EN fn = false → bitOf value 31 = true → ∃ t, Gives (.acqCfgWrite who fn value) s t ∧ t.flag Fld.WQ_FN_ACQ_CFG_EN fn = true ∧ t.fld Fld.WQ_FN_ACQ_CFG_VECTOR fn = bitsOf value 26 16 ∧
      t.cq (adminKey fn) = { present := true, fn := fn, sizeLog2 := ringSize (s.fld Fld.WQ_FN_ACQ_CFG_SIZE_LOG2 fn) value, vector := bitsOf value 26 16, base := s.fld Fld.WQ_FN_ACQ_BASE_LO_ADDR fn * 4096 + 2 ^ 32 * s.fld Fld.WQ_FN_ACQ_BASE_HI_ADDR fn }) ∧
    (s.flag Fld.WQ_FN_ACQ_CFG_EN fn = true → bitOf value 31 = true → ∃ t, Gives (.acqCfgWrite who fn value) s t ∧ t.cq (adminKey fn) = { s.cq (adminKey fn) with vector := bitsOf value 26 16 } ∧ t.wq.queues = s.wq.queues) ∧
    (s.flag Fld.WQ_FN_AQ_CFG_EN fn = false → bitOf value 31 = false → ∃ t, Gives (.aqCfgWrite who fn value) s t ∧ t.flag Fld.WQ_FN_AQ_CFG_EN fn = false ∧ t.wq = s.wq ∧
      t.fld Fld.WQ_FN_AQ_CFG_SIZE_LOG2 fn = ringSize (s.fld Fld.WQ_FN_AQ_CFG_SIZE_LOG2 fn) value) ∧
    (s.flag Fld.WQ_FN_ACQ_CFG_EN fn = false → bitOf value 31 = false → ∃ t, Gives (.acqCfgWrite who fn value) s t ∧ t.flag Fld.WQ_FN_ACQ_CFG_EN fn = false ∧ t.wq = s.wq ∧ t.fld Fld.WQ_FN_ACQ_CFG_VECTOR fn = bitsOf value 26 16) ∧
    (bitOf value 31 = false → (s.flag Fld.WQ_FN_AQ_CFG_EN fn = true → Gives (.aqCfgWrite who fn value) s (s.resetAdminRings fn)) ∧
      (s.flag Fld.WQ_FN_ACQ_CFG_EN fn = true → Gives (.acqCfgWrite who fn value) s (s.resetAdminRings fn))) ∧
    ((s.resetAdminRings fn).queue (adminKey fn) = {} ∧ (s.resetAdminRings fn).cq (adminKey fn) = {} ∧ (s.resetAdminRings fn).flag Fld.WQ_FN_AQ_CFG_EN fn = false ∧
      (s.resetAdminRings fn).flag Fld.WQ_FN_ACQ_CFG_EN fn = false)

/-- Ring commands that are accepted. A created queue or CQ has the attributes of its parameters, the lowest free index, the lowest free page, and its handle with its page in the record; a query writes 32 octets; a reset brings C and P to the watermark and the queue to ACTIVE; a
destroyed CQ is gone; a destroyed queue stops fetching; EVQ_SET names the events' CQ; a hand-off is bound or unbound at the next landing. -/
def Obligations.RingCommands : Prop :=
  ∀ (d : AdminCmd) (s : State),
    (Accepted s d 0x00 → Gives (.adminNop d) s (s.adminOk d)) ∧
    (let ty := d.p 0 % 4
     let kind := bitsOf (d.p 0) 5 2
     let z := bitsOf (d.p 0) 12 8
     let hall := bitsOf (d.p 0) 23 16
     let loc := d.p 6 % 4
     let inst := bitsOf (d.p 6) 7 4
     let pool := ty == 1 && kind == 1
     ∀ pg k cqk, Accepted s d 0x01 → ty < 2 → kind < 4 → (ty = 1 → kind < 2 ∧ bitOf (d.p 0) 6 = false) → (pool = true → loc ≠ 3 ∧ ¬ (loc = 1 ∧ 4 ≤ inst) ∧ ¬ (loc = 2 ∧ 8 ≤ inst)) → (ty = 0 → kind = 2 → s.isOwner d.fn = true) →
      4 ≤ z → z ≤ 16 → d.p64 2 % 4096 = 0 → hall = 0xFF ∨ hall < 16 → s.ringKey 2 (d.p 1) d.fn = some cqk → (s.cq cqk).present = true → (s.cq cqk).fn = d.fn →
      (pool = true → (s.ownerIdx (d.p 5)).isSome = true ∧ (s.isOwner d.fn = true ∨ s.bpm.owners.any (fun e => some e.1 == s.ownerIdx (d.p 5) && e.2.fn == d.fn) = true)) →
      s.isOwner d.fn = true ∨ s.queuesOf d.fn < s.shareAt d.fn 4 2 → s.freeIndex false 1 65535 = some k → s.freePage d.fn 2 (pageLimit d.fn) = some pg →
      let q : Queue := { present := true, isRq := ty == 1, kind := kind, batch := bitOf (d.p 0) 6, stopOnErr := bitOf (d.p 0) 7, sizeLog2 := z, hall := hall, ch := bitsOf (d.p 0) 29 24, cq := cqk, base := d.p64 2, vport := d.p 4 % 8192, owner := if pool then d.p 5 else 0, loc := loc, locIdx := inst, fn := d.fn }
      let t := ((s.setQueue k q).setPage d.fn pg k false).setFld Fld.WQ_QUEUES_QUEUES (s.fld Fld.WQ_QUEUES_QUEUES + 1)
      Gives (.queueCreate d) s (t.adminOk d (t.handle 1 k + 2 ^ 32 * pg))) ∧
    (∀ k, Accepted s d 0x02 → NamesQueue s d k → k < 65536 → s.queueBound k = false → (s.queue k).state ≠ .destroying → Gives (.queueDestroy d) s
      ((s.setQueue k { s.queue k with state := .destroying, destroyCmd := some d, ready := (s.queue k).ready.filter (fun e => (s.queue k).inProg.contains e.idx) }).finishDestroy k)) ∧
    (∀ k pg, Accepted s d 0x03 → 4 ≤ d.p 0 % 32 → d.p 0 % 32 ≤ 16 → d.p64 2 % 4096 = 0 → bitsOf (d.p 0) 26 16 < vectorLimit d.fn → s.isOwner d.fn = true ∨ s.cqsOf d.fn < s.shareAt d.fn 6 2 →
      s.freeIndex true 1 65535 = some k → s.freePage d.fn 2 (pageLimit d.fn) = some pg →
      let t := ((s.setCq k { present := true, fn := d.fn, base := d.p64 2, sizeLog2 := d.p 0 % 32, vector := bitsOf (d.p 0) 26 16 }).setPage d.fn pg k true).setFld Fld.WQ_QUEUES_CQS (s.fld Fld.WQ_QUEUES_CQS + 1)
      Gives (.cqCreate d) s (t.adminOk d (t.handle 2 k + 2 ^ 32 * pg))) ∧
    (∀ k, Accepted s d 0x04 → NamesCq s d k → k < 65536 → s.wq.queues.any (fun e => e.2.present && e.2.cq == k) = false → s.fld Fld.WQ_FN_EVQ_HANDLE d.fn ≠ s.handle 2 k →
      let u := (s.setCq k {}).nextGen 2 k
      let v := { u with wq := { u.wq with pages := u.wq.pages.filter (fun e => !(e.2 == (k, true))) } }
      Gives (.cqDestroy d) s ((v.setFld Fld.WQ_QUEUES_CQS (v.fld Fld.WQ_QUEUES_CQS - 1)).adminOk d)) ∧
    (∀ k, Accepted s d 0x05 → NamesQueue s d k → d.p 0 / 2 ^ 28 ≠ 2 → let q := s.queue k
      Gives (.queueQuery d) s ((s.adminOut d (queueQuery q.p q.c q.wm q.state.code q.detail q.sizeLog2 (if 65536 ≤ k then 0xFE else q.hall) (if 65536 ≤ q.cq then 0x20010000 else s.handle 2 q.cq))).adminOk d)) ∧
    (∀ k, Accepted s d 0x05 → s.ringKey 2 (d.p 0) d.fn = some k → d.p 0 / 2 ^ 28 = 2 → (s.cq k).present = true → (s.cq k).fn = d.fn ∨ s.isOwner d.fn = true → let c := s.cq k
      Gives (.queueQuery d) s ((s.adminOut d (queueQuery c.p c.c 0 c.state c.detail c.sizeLog2 0xFE (d.p 0))).adminOk d)) ∧
    (∀ k, Accepted s d 0x06 → NamesQueue s d k → let q := s.queue k
      let u := (s.unreserve q.cq (if q.isRq = true ∨ 65536 ≤ k then 0 else q.inProg.length)).setQueue k { q with state := if q.state = .destroying then .destroying else .active, detail := 0, c := q.wm, p := q.wm, ready := [], inProg := [], finished := [], batchSum := 0, staleSince := none }
      Gives (.queueReset d) s ((((u.unstage k).dropQueue k).finishDestroy k).adminOk d q.wm)) ∧
    (Accepted s d 0x07 → d.p 0 = 0x20010000 ∨ (∃ k, NamesCq s d k) → Gives (.evqSet d) s ((s.setFld Fld.WQ_FN_EVQ_HANDLE (d.p 0) d.fn).adminOk d)) ∧
    (∀ o k, Accepted s d 0x08 → d.p 0 % 256 < 16 → s.flag Fld.TSQ_MAP_VALID 0 (d.p 0 % 256) = true → s.ownerIdx (d.p 1) = some o → s.ringKey 1 (d.p 2) d.fn = some k → k < 65536 → (s.queue k).present = true → (s.queue k).isRq = true → (s.queue k).kind = 1 →
      Gives (.handoffBind d) s { s with handoffPending := s.handoffPending ++ [(d, some (d.p 1, k))] }) ∧
    (Accepted s d 0x09 → d.p 0 % 256 < 16 → s.flag Fld.TSQ_MAP_VALID 0 (d.p 0 % 256) = true → Gives (.handoffUnbind d) s { s with handoffPending := s.handoffPending ++ [(d, none)] })

/-- Interrupts of the host and of the management cores. A due interrupt is sent or held by R409; a hold and a gap end at their instants; an SGI pends its edge source; a pending edge source is cleared by a 1; completing the id on a core's stack removes it and completing another is
spurious; a flush empties a stack and pends its edge sources again; a lull ends with an arbitration; with the part at F4 nothing is delivered and a lull waits. -/
def Obligations.InterruptCommands : Prop :=
  ∀ (k f v g core value w at_ accepts : Nat) (pcs : List Nat) (who : Who) (s : State),
    (∀ fn vec rest, s.wq.dueIrqs = (fn, vec) :: rest → Gives .interruptDue s ({ s with wq := { s.wq with dueIrqs := rest } }.irq fn vec)) ∧
    ((s.cq k).holding = true → (s.cq k).holdStart + (s.cq k).holdUs * 1000 * 65536 < max s.now at_ → ∃ t, Gives (.cqHoldExpiry k at_) s t ∧ (t.cq k).holding = false ∧ (t.cq k).holdSeen = 0 ∧
      t.wq.dueIrqs = s.wq.dueIrqs ++ [((s.cq k).fn, (s.cq k).vector)]) ∧
    (∀ e, look (s.fn f).gaps v = some e → e < max s.now at_ → (s.fn f).pba.contains v = false → ∃ t, Gives (.vectorGapEnd f v at_) s t ∧ (t.fn f).gaps = (s.fn f).gaps.del v ∧ t.out = s.out) ∧
    (∀ e, look (s.fn f).gaps v = some e → e < max s.now at_ → (s.fn f).pba.contains v = true → s.inD0 f = true → (s.fn f).vstate = 0 → s.msixOpen f v = true →
      Gives (.vectorGapEnd f v at_) s (((s.atTime at_).setFn f { s.fn f with gaps := (s.fn f).gaps.del v }).sendMsix f v)) ∧
    (∀ x : State, (v < vectorLimit f → x.inD0 f = true → (x.fn f).vstate = 0 → x.gapRuns f v = false → x.msixOpen f v = true → x.irq f v = x.sendMsix f v) ∧
      (v < vectorLimit f → x.inD0 f = true → (x.fn f).vstate ≠ 0 ∨ x.gapRuns f v = true ∨ x.msixOpen f v = false → x.irq f v = x.setPba f v)) ∧
    (s.flag Fld.CALM_STATE_STANDBY = false → Gives (.sicDeliver accepts pcs) s (State.arbitrate accepts pcs s.candidates [] s)) ∧
    (∀ (x : State) (n c : Nat), x.lulled n = false → ((List.range 8).filter (fun j => x.eligible accepts n j)).foldl (betterCore x) none = some c → State.arbitrate accepts pcs [n] [] x = x.deliver n c (pcs.getD c 0) ∧
      ((x.deliver n c (pcs.getD c 0)).mcore c).stack = (n, x.prio n) :: (x.mcore c).stack) ∧
    (s.flag Fld.CALM_STATE_STANDBY = true → Gives (.sicDeliver accepts pcs) s s) ∧
    (s.mayWrite who = true → (s.mcore core).stack.any (fun t => t.1 == value % 2048) = true → ∃ t, Gives (.sicCoreComplete who core value) s t ∧
      (t.mcore core).stack = (s.mcore core).stack.filter (fun t => t.1 != value % 2048)) ∧
    (s.mayWrite who = true → (s.mcore core).stack.any (fun t => t.1 == value % 2048) = false → ∃ t, Gives (.sicCoreComplete who core value) s t ∧ t.sic = s.sic ∧ t.flag Fld.SIC_FLAGS_SPURIOUS = true) ∧
    (s.mayWrite who = true → s.sic.edge.contains (96 + value % 32) = false → ∃ t, Gives (.sicSgi who value) s t ∧ t.sic.edge = s.sic.edge ++ [96 + value % 32] ∧ t.sic.cores = s.sic.cores) ∧
    (s.mayWrite who = true → ∃ t, Gives (.sicCoreFlush who core) s t ∧ (t.mcore core).stack = [] ∧ ∀ e ∈ (s.mcore core).stack, isEdge e.1 = true → t.sic.edge.contains e.1 = true) ∧
    (s.mayWrite who = true → ∃ t, Gives (.sicSrcPendClear who w value) s t ∧ (∀ n, t.sic.edge.contains n = (s.sic.edge.contains n && !(n / 32 == w && bitOf value (n % 32)))) ∧ t.regs = s.regs) ∧
    (∀ t, (s.lull g).expiry = some t → t < max s.now at_ → s.flag Fld.CALM_STATE_STANDBY = false → let u := ((s.atTime at_).setLull g {}).setFld Fld.SIC_GROUP_LULL_LULLING 0 0 g
      Gives (.lullExpiry g at_ accepts pcs) s (State.arbitrate accepts pcs u.candidates [] u))

/-! ### Keys, functions and virtual functions (chapters 12, 15 and 16) -/

/-- Keys. An accepted load of a free slot makes it LOADING and begins its unwrap, one of a slot that has a key begins a rewrite, a KEK load begins its own; an unwrap that fails ends with AUTH_FAIL, a padded one with BAD_DESCRIPTOR, and another commits at the tread boundary that follows, where the slot is READY
with the unwrapped key; an erase makes the slot REVOKING from the next tread boundary, and it is zeroized at a boundary when no operation is in flight under it; a query answers the attributes and never the key; a KEK erase forgets the KEK at once; the tread boundary after the hard limit makes its slot EXHAUSTED. -/
def Obligations.KeyCommands : Prop :=
  ∀ (d : AdminCmd) (buf : Bytes) (k target at_ : Nat) (s : State),
    (let a := sliceB buf 0 48
     let w := sliceB buf 48 (wrappedLen (keyType a))
     ∀ kk, Accepted s d 0x38 → keyAttrOk a = true → d.bufLen = 48 + wrappedLen (keyType a) → s.isOwner d.fn = true ∨ (1 ≤ keyType a ∧ keyType a ≤ 4) → s.kek (leAt a 2 1) = some kk →
      (d.p 0 = 0 → s.emptySlot d.fn = some k → Gives (.keyLoad d buf) s ((s.setSlot k { s.slot k with state := 1, loader := d.fn }).beginUnwrap
        { target := k, cmd := d, attr := a, fresh := true, padded := Config.keyPadded kk w, material := Config.keyUnwrap kk w })) ∧
      (d.p 0 ≠ 0 → s.resolve 4 (d.p 0) = some k → s.keyRange d.fn k = true → s.slotState k = 2 ∨ s.slotState k = 3 → Gives (.keyLoad d buf) s
        (s.beginUnwrap { target := k, cmd := d, attr := a, fresh := false, padded := Config.keyPadded kk w, material := Config.keyUnwrap kk w }))) ∧
    (∀ l, s.keys.loads.find? (fun l => l.target == target) = some l → let u := { s.atTime at_ with keys := { s.keys with loads := removeFirst (fun x => x.target == target) s.keys.loads } }
      (l.padded = true → Gives (.keyCommit target at_) s (u.loadFailed l St.badDescriptor)) ∧
      (l.padded = false → l.material = none → Gives (.keyCommit target at_) s ((u.bump Fld.CPH_KS_CNT_UNWRAP_FAIL_COUNT).loadFailed l St.authFail)) ∧
      (∀ m, l.padded = false → l.material = some m → target < 65536 → Gives (.keyCommit target at_) s (u.cipherBoundary.landKey l m)) ∧
      (∀ m, l.padded = false → l.material = some m → 65536 ≤ target → Gives (.keyCommit target at_) s (u.cipherBoundary.landKek l m))) ∧
    (∀ (l : KeyLoad) (m : Bytes) n n', keySizes (keyType l.attr) = some (n, n') → xtsHalvesEqual (keyType l.attr) m = false → l.fresh = true ∨ (s.resolve 4 (l.cmd.p 0)).isSome = true →
      (∀ t, (s.slot l.target).eraseAt = some t → s.now ≤ t) → let v := s.slot l.target
      s.landKey l m = ((s.setSlot l.target { state := 2, attr := l.attr, key := m.take (n + n'), counter := leAt l.attr 8 8, loader := l.cmd.fn, eraseAt := v.eraseAt, eraseCmd := v.eraseCmd, load := v.load + 1, former := s.keepFormer l.target }).bump Fld.CPH_KS_CNT_LOAD_COUNT).adminOk l.cmd (s.handle 4 l.target)) ∧
    (∀ (l : KeyLoad) (m : Bytes),
      (xtsHalvesEqual (keyType l.attr) m = true → s.landKey l m = s.loadFailed l St.badDescriptor) ∧
      (xtsHalvesEqual (keyType l.attr) m = false → l.fresh = false → s.resolve 4 (l.cmd.p 0) = none → s.landKey l m = s.adminFail l.cmd St.badHandle) ∧
      (∀ t, xtsHalvesEqual (keyType l.attr) m = false → l.fresh = false → (s.resolve 4 (l.cmd.p 0)).isSome = true → (s.slot l.target).eraseAt = some t → t < s.now → s.landKey l m = s.adminFail l.cmd St.keyRevoked) ∧
      (∀ i, l.target = 65536 + i → let u := { s with keys := { s.keys with keks := s.keys.keks.put i m } }
        s.landKek l m = ((u.setFld Fld.CPH_KEK_VALID_VALID (putBits (s.fld Fld.CPH_KEK_VALID_VALID) i i 1)).bump Fld.CPH_KS_CNT_LOAD_COUNT).adminOk l.cmd)) ∧
    (Accepted s d 0x39 → s.resolve 4 (d.p 0) = some k → s.keyRange d.fn k = true → s.isOwner d.fn = true ∨ keyType (s.slot k).attr ≤ 4 → s.slotState k = 2 ∨ s.slotState k = 3 → (s.slot k).eraseAt = none →
      Gives (.keyErase d) s (s.setSlot k { s.slot k with eraseAt := some s.nextTread, eraseCmd := some d })) ∧
    (let u := (s.atTime at_).cipherBoundary
     u.slotState k = 4 → u.slotOps k = 0 →
      ((u.slot k).eraseCmd = none → Gives (.keyZeroize k at_) s ((u.zeroize k).bump Fld.CPH_KS_CNT_ERASE_COUNT)) ∧
      (∀ c, (u.slot k).eraseCmd = some c → Gives (.keyZeroize k at_) s (((u.zeroize k).bump Fld.CPH_KS_CNT_ERASE_COUNT).adminOk c))) ∧
    (((s.zeroize k).slot k).key = [] ∧ ((s.zeroize k).slot k).state = 0) ∧
    (Accepted s d 0x3A → s.resolve 4 (d.p 0) = some k → s.keyRange d.fn k = true → s.isOwner d.fn = true ∨ keyType (s.slot k).attr ≤ 4 → let u := s.cipherTo s.now
      Gives (.keyQuery d) s ((u.adminOut d (sliceB (u.slot k).attr 0 48 ++ leBytes 8 (min (u.slot k).counter (2 ^ 64 - 1)) ++ leBytes 4 (u.slotOps k) ++ leBytes 1 (u.slotState k) ++ leBytes 3 0)).adminOk d)) ∧
    (∀ kk, Accepted s d 0x3B → 0 < d.p 0 → d.p 0 ≤ 15 → d.bufLen = 40 → s.own.kek0 = some kk → Gives (.kekLoad d buf) s
      (s.beginUnwrap { target := 65536 + d.p 0, cmd := d, attr := [], fresh := false, padded := Config.keyPadded kk (sliceB buf 0 40), material := Config.keyUnwrap kk (sliceB buf 0 40) })) ∧
    (Accepted s d 0x3C → 0 < d.p 0 → d.p 0 ≤ 15 → Gives (.kekErase d) s
      (({ s with keys := { s.keys with keks := s.keys.keks.del (d.p 0) } }.setFld Fld.CPH_KEK_VALID_VALID (putBits (s.fld Fld.CPH_KEK_VALID_VALID) (d.p 0) (d.p 0) 0)).adminOk d)) ∧
    (∀ t, (s.slot k).exhaustAt = some t → t ≤ max s.now at_ → (s.slot k).state = 2 → ∃ u, Gives (.keyExhaust k at_) s u ∧ (u.slot k).state = 3 ∧ (u.slot k).exhaustAt = none ∧ u.now = max s.now at_)

/-- Power states and links. A function of D0 that is sent to D3hot shows it and drains what it has in progress; it returns to D0 with its drain over; its drain ends by its deadline, with a fault where work is left; PME_Turn_Off is answered, and with the answer's packet sent the link is in L2/L3 Ready; the link goes to L1 when
idle for its time and leaves it at an exit; Bus Master Enable is taken as written; a quiesce ends with nothing in progress, or with a fault at its deadline. -/
def Obligations.FunctionPowerStates : Prop :=
  ∀ (f p at_ : Nat) (s : State), f < 8192 → p < 8 →
    (s.inD0 f = true → s.fnExists f = true → ∃ t, Gives (.powerstateD3hot f at_) s t ∧ t.fld Fld.EP_FN_STATE_DSTATE f = 3 ∧ t.wq = s.wq ∧ t.now = max s.now at_ ∧
      t.flag Fld.EP_FN_STATE_DRAINING f = decide (0 < s.inProgress f) ∧ (t.fn f).drain = (if s.inProgress f = 0 then none else some (s.atTime at_).newDrain) ∧
      (f % 1024 = 0 → t.flag Fld.EP_PORT_STATUS_PF_D3 0 (f / 1024) = true ∧ t.flag Fld.EP_PORT_STATUS_PLANNED_BLOCKED 0 (f / 1024) = true)) ∧
    (s.inD0 f = false → s.flag Fld.EP_FN_STATE_D3COLD f = false → ∃ t, Gives (.powerstateD0 f) s t ∧ t.inD0 f = true ∧ (t.fn f).drain = none ∧ t.flag Fld.EP_FN_STATE_DRAINING f = false ∧ t.wq = s.wq) ∧
    (∀ d, (s.fn f).drain = some d → (s.atTime at_).drainOver d = true → s.inProgress f = 0 → ∃ t, Gives (.d3DrainDeadline f at_) s t ∧ (t.fn f).drain = none ∧ t.flag Fld.EP_FN_STATE_DRAINING f = false ∧ t.wq = s.wq) ∧
    (∀ d, (s.fn f).drain = some d → (s.atTime at_).drainOver d = true → 0 < s.inProgress f → Gives (.d3DrainDeadline f at_) s
      ((((s.atTime at_).setFn f { s.fn f with drain := none }).setFld Fld.EP_FN_STATE_DRAINING 0 f).functionFault f 0x30 (s.inProgress f))) ∧
    (s.flag Fld.EP_PORT_STATUS_LINK_UP 0 p = true → ∃ t, Gives (.pmeTurnOff p) s t ∧ t.ep.tlps.get [] p = s.ep.tlps.get [] p ++ [.tlp p 2 [] []] ∧
      t.fld Fld.EP_PORT_STATUS_LSTATE 0 p = (if s.fld Fld.EP_PORT_STATUS_LSTATE 0 p = 2 then 1 else s.fld Fld.EP_PORT_STATUS_LSTATE 0 p)) ∧
    ((s.afterPacket (.tlp p 2 [] [])).fld Fld.EP_PORT_STATUS_LSTATE 0 p = 3) ∧
    (bitOf (s.hp p).aspm 1 = true → s.fld Fld.EP_PORT_CFG_L1_IDLE_US 0 p ≠ 0 → s.fld Fld.EP_PORT_STATUS_LSTATE 0 p = 1 → (s.hp p).idleSince + s.fld Fld.EP_PORT_CFG_L1_IDLE_US 0 p * 1000 * 65536 ≤ max s.now at_ → s.planBursts.contains p = false →
      ∃ t, Gives (.aspmL1Entry p at_) s t ∧ t.fld Fld.EP_PORT_STATUS_LSTATE 0 p = 2 ∧ t.ep = s.ep) ∧
    (s.fld Fld.EP_PORT_STATUS_LSTATE 0 p = 2 → ∃ t, Gives (.l1Exit p at_) s t ∧ t.fld Fld.EP_PORT_STATUS_LSTATE 0 p = 1 ∧ (t.hp p).idleSince = max s.now at_) ∧
    (∀ v, ∃ t, Gives (.busMasterEnableWrite f v) s t ∧ (t.fn f).bme = v ∧ t.wq = s.wq ∧ (v = false → t.out = s.out)) ∧
    (∀ x, (s.fn f).quiesce = some x → s.inProgress f = 0 → Gives (.quiesceDeadline f at_) s ((s.atTime at_).quiesced f)) ∧
    (∀ c dr, (s.fn f).quiesce = some (c, dr) → 0 < s.inProgress f → (s.atTime at_).drainOver dr = true → Gives (.quiesceDeadline f at_) s
      ((((s.atTime at_).setFn f { s.fn f with discarded := s.inProgress f }).functionFault f 0x32 (s.inProgress f)).quiesced f))

/-- Virtual functions (R427 to R442). A share takes effect at once with no plan active and else at the next landing; a share is answered with the allowances, staged or not; a quiesce drains and then completes; a resume sends what is pending; the dirty-page log starts empty, swaps to a new map with its count answered, and
stops; the state of a quiesced function is saved as a record per queue and CQ and restored into fresh ones. -/
def Obligations.VirtualFunctionCommands : Prop :=
  ∀ (d : AdminCmd) (buf : Bytes) (s : State),
    (Accepted s d 0x50 → s.shareCheck buf = none → s.planActive = false → Gives (.vfnShareSet d buf) s ({ s with vfn := { s.vfn with shares := s.vfn.shares.put (leAt buf 0 2) (sliceB buf 0 128) } }.adminOk d)) ∧
    (∀ cs, Accepted s d 0x50 → s.shareCheck buf = none → s.planActive = true → (match look s.vfn.staged (leAt buf 0 2) with | some e => e.2 | none => []) = cs → ∃ t, Gives (.vfnShareSet d buf) s t ∧
      look t.vfn.staged (leAt buf 0 2) = some (sliceB buf 0 128, cs ++ [d]) ∧ t.vfn.shares = s.vfn.shares ∧ t.flag Fld.VFN_STATUS_SHARE_PENDING = true) ∧
    (Accepted s d 0x51 → s.isOwner d.fn = true ∨ d.p 0 = d.fn → s.fnExists (d.p 0) = true → look s.vfn.staged (d.p 0) = none →
      Gives (.vfnShareQuery d) s ((s.drawn.adminOut d (s.share (d.p 0) ++ List.replicate 128 0 ++ s.allowances (d.p 0) s.free)).adminOk d 0 0)) ∧
    (∀ b cs, Accepted s d 0x51 → s.isOwner d.fn = true ∨ d.p 0 = d.fn → s.fnExists (d.p 0) = true → look s.vfn.staged (d.p 0) = some (b, cs) →
      Gives (.vfnShareQuery d) s ((s.drawn.adminOut d (s.share (d.p 0) ++ b ++ s.allowances (d.p 0) s.free)).adminOk d 0 1)) ∧
    (let f := d.p 0
     s.fnExists f = true → isPf f = false → s.isOwner d.fn = true ∨ d.fn = 1024 * portOf f →
      (Accepted s d 0x52 → (s.fn f).vstate ≠ 1 → let u := s.setFn f { s.fn f with vstate := 1, quiesce := some (d, s.newDrain), discarded := 0 }
        Gives (.vfnQuiesce d) s (if s.inProgress f = 0 then (u.setFn f { s.fn f with vstate := 2, quiesce := none, discarded := 0 }).adminOk d 0 0 else u)) ∧
      (Accepted s d 0x53 → (s.fn f).vstate = 2 → Gives (.vfnResume d) s (((s.setFn f { s.fn f with vstate := 0 }).sendPending f).adminOk d)) ∧
      (Accepted s d 0x54 → (s.fn f).log = none → d.p64 1 % 4096 = 0 → 0 < d.p 3 → d.p 3 ≤ 2 ^ 28 → d.p64 4 % 64 = 0 → Gives (.vfnLogStart d) s
        (((s.setFn f { s.fn f with log := some { issuer := d.fn, base := d.p64 1, pages := d.p 3, map := d.p64 4, failed := false, bits := [], count := 0, waiting := [] } }).showLogs (portOf f)).adminOk d)) ∧
      (Accepted s d 0x57 → (s.fn f).vstate = 2 → s.wq.queues = [] → s.wq.cqs = [] → Gives (.vfnStateSave d) s ((s.adminOut d []).adminOk d 0 0)) ∧
      (∀ k q, Accepted s d 0x57 → (s.fn f).vstate = 2 → s.wq.queues = [(k, q)] → k < 65536 → q.present = true → q.fn = f → q.cq < 65536 → s.wq.cqs = [] → 32 ≤ d.bufLen → Gives (.vfnStateSave d) s
        ((s.adminOut d (leBytes 4 (s.handle 1 k) ++ leBytes 4 (b2n q.isRq + q.kind * 4 + b2n q.batch * 64 + b2n q.stopOnErr * 128 + q.sizeLog2 * 256 + q.state.code * 8192 + q.hall * 65536) ++
          leBytes 8 q.base ++ leBytes 4 q.p ++ leBytes 4 q.c ++ leBytes 4 q.wm ++ leBytes 4 (s.handle 2 q.cq))).adminOk d 0 1)) ∧
      (Accepted s d 0x58 → (s.fn f).vstate = 2 → s.queuesOf f = 0 → s.cqsOf f = 0 → d.p 1 = 1 → leAt (sliceB buf 0 32) 4 4 % 4 = 2 → saveOk (sliceB buf 0 32) = true → 1 ≤ s.shareAt f 6 2 → s.fld Fld.WQ_QUEUES_CQS < 65535 → s.fld Fld.WQ_QUEUES_QUEUES ≤ 65535 →
        let x := s.restoreCq f (sliceB buf 0 32)
        Gives (.vfnStateRestore d buf) s ((x.1.adminOut d (spliceB (sliceB buf 0 32) 0 (leBytes 4 (x.1.handle 2 x.2.2.1) ++ leBytes 4 (leAt (sliceB buf 0 32) 4 4 % 65536 + x.2.2.2 * 65536)) ++ [])).adminOk d 0 0)) ∧
      (Accepted s d 0x58 → (s.fn f).vstate = 2 → s.queuesOf f = 0 → s.cqsOf f = 0 → d.p 1 = 1 → leAt (sliceB buf 0 32) 4 4 % 4 ≤ 1 → saveOk (sliceB buf 0 32) = true → leAt (sliceB buf 0 32) 28 4 = 0x20010000 → 1 ≤ s.shareAt f 4 2 → s.fld Fld.WQ_QUEUES_CQS ≤ 65535 → s.fld Fld.WQ_QUEUES_QUEUES < 65535 →
        let x := s.restoreQueue f [] (sliceB buf 0 32)
        Gives (.vfnStateRestore d buf) s ((x.1.adminOut d (spliceB (sliceB buf 0 32) 0 (leBytes 4 (x.1.handle 1 x.2.2.1) ++ leBytes 4 (leAt (sliceB buf 0 32) 4 4 % 65536 + x.2.2.2 * 65536)) ++ [])).adminOk d 0 1))) ∧
    (let f := d.p 0
     ∀ l, s.fnExists f = true → isPf f = false → (s.fn f).log = some l → l.issuer = d.fn →
      (Accepted s d 0x55 → l.failed = false → d.p64 4 % 64 = 0 → Gives (.vfnLogSwap d) s
        ((s.setFn f { s.fn f with log := some { l with map := d.p64 4, bits := [], count := 0 }, lines := [] }).adminOk d l.count)) ∧
      (Accepted s d 0x56 → Gives (.vfnLogStop d) s ((s.stopLog f).adminOk d l.count))) ∧
    (let f := d.p 0
     Accepted s d 0x52 → s.isOwner d.fn = true → s.fnExists f = false → Gives (.vfnQuiesce d) s (s.adminFail d St.badDescriptor))

/-! ### Hosts, windows and registers (chapters 15 and 23) -/

/-- A port has trained: what its status shows, WAKE_N released, its idle time started and its limits evaluated. -/
def Sys2Proof.Spec.linkUp (s : State) (p gen width : Nat) (flit : Bool) : State :=
  let v := ((s.raise Fld.EP_PORT_STATUS_LINK_UP 0 p).setFld Fld.EP_PORT_STATUS_GEN gen 0 p).setFld Fld.EP_PORT_STATUS_WIDTH width 0 p
  let v := (v.setFld Fld.EP_PORT_STATUS_FLIT (b2n (flit || gen == 3)) 0 p).setFld Fld.EP_PORT_STATUS_LSTATE 1 0 p
  let v := if v.flag Fld.EP_PORT_STATUS_WAKE_N 0 p then (v.setFld Fld.EP_PORT_STATUS_WAKE_N 0 0 p).emit (.pin 1 p true) else v
  ((v.setHp p { v.hp p with idleSince := v.now }).showBlocked p).showRates p

/-- Host ports. A port that is enabled, out of PERST and powered trains to a generation and width within its configuration and is in L0, its functions that counted as in D3cold reset first; a lost link resets every function that is not in D3hot, a hot reset all of them; a PERST edge sets its latch and an assertion resets the port; an FLR
is counted and the function, with its VFs if it is a PF, is reset and busy until it completes; VF Enable and NumVFs take their values. -/
def Obligations.HostPortEvents : Prop :=
  ∀ (p gen width f n at_ : Nat) (flit en : Bool) (s : State), p < 8 →
    (s.flag Fld.EP_PORT_MAP_EN 0 p = true → (s.hp p).perst = false → s.flag Fld.EP_PORT_STATUS_LINK_UP 0 p = false → s.own.powered = true → gen ≤ s.fld Fld.EP_PORT_CFG_GEN 0 p → width ≤ s.fld Fld.EP_PORT_MAP_WIDTH 0 p + 2 →
      let u := linkUp (if (s.portFns p).filter (fun f => s.flag Fld.EP_FN_STATE_D3COLD f) = [] then s.atTime at_ else (s.atTime at_).portReset p []) p gen width flit
      (u.flag Fld.EP_PORT_STATUS_LINK_UP 0 p = true ∧ u.fld Fld.EP_PORT_STATUS_GEN 0 p = gen % 4 ∧ u.fld Fld.EP_PORT_STATUS_LSTATE 0 p = 1) ∧
      (u.own.restoreEvent = none → Gives (.hostLinkUp p gen width flit at_) s u) ∧
      (∀ r, u.own.restoreEvent = some r → u.ownerValid = true → portOf u.ownerFn = p → Gives (.hostLinkUp p gen width flit at_) s (({ u with own := { u.own with restoreEvent := none } }).eventOwner 0x05 (leBytes 1 r))) ∧
      (∀ r, u.own.restoreEvent = some r → u.ownerValid = false ∨ portOf u.ownerFn ≠ p → Gives (.hostLinkUp p gen width flit at_) s u)) ∧
    (s.flag Fld.EP_PORT_STATUS_LINK_UP 0 p = true → Gives (.hotReset p at_) s (((s.atTime at_).portReset p []).linkLost p) ∧
      Gives (.hostLinkDown p at_) s (((((s.portFns p).filter (fun f => !s.inD0 f)).foldl (fun (s : State) f => s.raise Fld.EP_FN_STATE_D3COLD f) (s.atTime at_)).portReset p ((s.portFns p).filter (fun f => !s.inD0 f))).linkLost p)) ∧
    (let u := fun (a : Bool) => ((s.atTime at_).setHp p { s.hp p with perst := a }).setFld Fld.CALM_PERST_EDGE (putBits (s.fld Fld.CALM_PERST_EDGE) p p 1)
     ((s.hp p).perst = false → s.flag Fld.EP_PORT_MAP_EN 0 p = true → Gives (.perstEdge p true at_) s (((u true).portReset p []).linkLost p)) ∧
     ((s.hp p).perst = true → s.flag Fld.EP_PORT_MAP_EN 0 p = true → Gives (.perstEdge p false at_) s ((u false).linkLost p)) ∧
     (∀ a, (s.hp p).perst ≠ a → s.flag Fld.EP_PORT_MAP_EN 0 p = false → ∃ t, Gives (.perstEdge p a at_) s t ∧ (t.hp p).perst = a ∧ t.regs = s.regs)) ∧
    (f < 8192 → s.fnExists f = true → let u := (s.atTime at_).bump Fld.EP_CNT_FLR_COUNT 0 (portOf f)
      ∃ t, Gives (.flr f at_) s t ∧ t.flag Fld.EP_FN_STATE_FLR_BUSY f = true ∧
        t = (if isPf f then ((((((u.setVfs (portOf f) false 0).resetFn f).initPort (portOf f)).raise Fld.EP_FN_STATE_FLR_BUSY f).showBlocked (portOf f)).showRates (portOf f)) else (u.resetFn f).raise Fld.EP_FN_STATE_FLR_BUSY f)) ∧
    (s.flag Fld.EP_FN_STATE_FLR_BUSY f = true → ∃ t, Gives (.flrComplete f at_) s t ∧ t.flag Fld.EP_FN_STATE_FLR_BUSY f = false ∧ t.fld Fld.EP_FN_STATE_DSTATE f = s.fld Fld.EP_FN_STATE_DSTATE f ∧ t.wq = s.wq) ∧
    (s.fnExists (1024 * p) = true → ∃ t, Gives (.vfEnableWrite p en n at_) s t ∧ t.flag Fld.VFN_PORT_VF_EN 0 p = en ∧ t.fld Fld.VFN_PORT_NUM_VFS 0 p = (if n ≤ 512 then n else s.fld Fld.VFN_PORT_NUM_VFS 0 p))

/-- Requests in flight. A tracked request whose time has passed with no completion is counted, keeps its tag against a late completion and has the consequence of a failure of kind 4; a completion hands its data on, and a failed one has the consequence of its kind; a late one is counted as late, and one that names no request as unexpected. -/
def Obligations.CompletionsOfReads : Prop :=
  ∀ (p what tag status fn arg addr at_ : Nat) (data : Bytes) (s : State), p < 8 → what ≤ 8 → status ≤ 3 →
    let c := if status = 3 then (s.atTime at_).aer p 12 true else s.atTime at_
    (∀ r, (s.hp p).reqs.find? (fun r => r.tag == tag) = some r → r.sent + ctoUs (s.hp p).ctoValue * 1000 * 65536 < max s.now at_ →
      let u := (s.atTime at_).takeReq p tag
      Gives (.completionTimeout p 0 tag fn arg addr at_) s ((((u.setHp p { u.hp p with late := tag :: (u.hp p).late }).bump Fld.EP_CNT_CTO_COUNT 0 p).aer p 14 false).requestFailed p r.purpose 4 r.fn r.arg r.addr)) ∧
    (what ≠ 0 → Gives (.completionTimeout p what tag fn arg addr at_) s ((((s.atTime at_).bump Fld.EP_CNT_CTO_COUNT 0 p).aer p 14 false).requestFailed p what 4 fn arg addr)) ∧
    (∀ r, (s.hp p).reqs.find? (fun r => r.tag == tag) = some r → Gives (.readCompletionRx p 0 tag 0 data fn arg addr at_) s (((s.atTime at_).takeReq p tag).readArrived r data)) ∧
    (∀ r, status ≠ 0 → (c.hp p).reqs.find? (fun r => r.tag == tag) = some r → Gives (.readCompletionRx p 0 tag status data fn arg addr at_) s ((c.takeReq p tag).requestFailed p r.purpose status r.fn r.arg r.addr)) ∧
    (what ≠ 0 → status ≠ 0 → Gives (.readCompletionRx p what tag status data fn arg addr at_) s (c.requestFailed p what status fn arg addr)) ∧
    (what ≠ 0 → Gives (.readCompletionRx p what tag 0 data fn arg addr at_) s (s.atTime at_)) ∧
    ((c.hp p).reqs.find? (fun r => r.tag == tag) = none → (c.hp p).late.contains tag = true → Gives (.readCompletionRx p 0 tag status data fn arg addr at_) s
      (((c.setHp p { c.hp p with late := removeFirst (· == tag) (c.hp p).late }).bump Fld.EP_LATE_CPL_COUNT 0 p).aer p 16 true)) ∧
    ((c.hp p).reqs.find? (fun r => r.tag == tag) = none → (c.hp p).late.contains tag = false → Gives (.readCompletionRx p 0 tag status data fn arg addr at_) s
      ((c.bump Fld.EP_CNT_UNEXP_CPL_COUNT 0 p).aer p 16 true))

/-- Memory windows and requests of hosts. A commit of valid entries makes them live, another is reported with its entry and reason; a load copies the live entries back; a BAR4 read or write within a live window that allows it reaches the window's target, poisoned data answered as such, and a miss is counted and answered
Unsupported Request; a request to BAR0 reads or writes registers, one to BAR2 is a doorbell, one to BAR4 is a window's; configuration reads answer four octets; a vendor message of type 1 is dropped; what a function cannot take is Unsupported Request. -/
def Obligations.WindowsAndHostRequests : Prop :=
  ∀ (f off len at_ : Nat) (data : Bytes) (who : Who) (s : State),
    (s.mayPage who f = true → s.fnExists f = true → s.winFail f = none → Gives (.winCommit who f) s (s.copyWins f true)) ∧
    (∀ w r, s.mayPage who f = true → s.fnExists f = true → s.winFail f = some (w, r) → w < 64 → r < 16 → ∃ t, Gives (.winCommit who f) s t ∧ t.flag Fld.EP_WIN_STATUS_ERROR f = true ∧
      t.fld Fld.EP_WIN_STATUS_ENTRY f = w ∧ t.fld Fld.EP_WIN_STATUS_REASON f = r ∧ t.ep = s.ep) ∧
    (s.mayPage who f = true → s.fnExists f = true → Gives (.winLoad who f) s (s.copyWins f false)) ∧
    (let hit := fun (e : WinEntry) => ((List.range 64).map (fun w => s.liveWin f w)).find? (fun e => e.valid && decide (e.bar ≤ off) && decide (off < e.bar + e.size)) = some e ∧ s.winRange e = true ∧ s.winKnown e = true ∧ s.winGranted f e = true
     ∀ e k i a, s.takesMem f = true → hit e → s.winPlace e = some (k, i, a) →
      (e.wr = true → off + data.length ≤ e.bar + e.size → Gives (.bar4Request f true off len data false) s (s.winWrite k i (a + (off - e.bar)) data)) ∧
      (∀ b, e.rd = true → off + len ≤ e.bar + e.size → s.winRead k i (a + (off - e.bar)) len = (b, false) → Gives (.bar4Request f false off len data false) s (s.emit (.readBytes f b))) ∧
      (∀ b, e.rd = true → off + len ≤ e.bar + e.size → s.winRead k i (a + (off - e.bar)) len = (b, true) → Gives (.bar4Request f false off len data false) s ((s.poisonUse true).emit (.tlp (portOf f) 9 [f] b)))) ∧
    (∀ w, s.takesMem f = true → ((List.range 64).map (fun w => s.liveWin f w)).find? (fun e => e.valid && decide (e.bar ≤ off) && decide (off < e.bar + e.size)) = none →
      Gives (.bar4Request f w off len data false) s ((s.bump Fld.EP_CNT_WIN_MISS_COUNT 0 (portOf f)).answerUr f w)) ∧
    (s.takesMem f = true → Gives (.bar4Request f true off len data true) s (s.aer (portOf f) 12 true)) ∧
    (∀ w b, s.takesMem f = false → s.fnExists f = true → Gives (.bar4Request f w off len data b) s (s.answerUr f w)) ∧
    (f < 8192 → s.flag Fld.EP_PORT_MAP_EN 0 (portOf f) = true → let u := s.atTime at_
      (∀ n b, Gives (.hostRequest f (.memRead n off len) at_) s (u.hostLoad f n off len at_) ∧ Gives (.hostRequest f (.memWrite n off b) at_) s (u.hostStore f n off b at_)) ∧
      (s.fnExists f = true → Gives (.hostRequest f (.cfgRead off) at_) s (u.emit (.readBytes f (leBytes 4 (u.cfgWord f (off / 4 * 4)))))) ∧
      (s.fnExists f = true → Gives (.hostRequest f (.cfgWrite off data) at_) s ((u.cfgWrite f off data at_).emit (.tlp (portOf f) 10 [f] []))) ∧
      (s.fnExists f = false → Gives (.hostRequest f (.cfgRead off) at_) s (u.answerUr f false) ∧ Gives (.hostRequest f (.cfgWrite off data) at_) s (u.answerUr f false)) ∧
      Gives (.hostRequest f (.other 0) at_) s (u.answerUr f false) ∧ Gives (.hostRequest f (.other 3) at_) s (u.answerUr f true) ∧ Gives (.hostRequest f (.other 4) at_) s u) ∧
    (s.takesMem f = false → ∀ n b, s.hostLoad f n off len at_ = s.answerUr f false ∧ s.hostStore f n off b at_ = s.answerUr f true) ∧
    (s.takesMem f = true →
      (∀ h, isPf f = true → s.sees (.fn f) (canonical (off / 4 * 4)) = true → s.boundaryHall off = some h → s.hostLoad f 0 off len at_ = s.await h (.fn f) off (.load len)) ∧
      (s.boundaryHall off = none → let r := s.readWords f (off / 4 * 4) at_ ((off + len + 3) / 4 - off / 4)
        s.hostLoad f 0 off len at_ = r.1.emit (.readBytes f (sliceB r.2 (off % 4) len))) ∧
      (off % 4 = 0 → data.length = 4 → s.hostStore f 0 off data at_ = s.writeBar0 f off (leNat data) at_) ∧
      (off % 8 = 0 → data.length = 8 → s.hostStore f 0 off data at_ = (s.writeBar0 f off (leNat (data.take 4)) at_).writeBar0 f (off + 4) (leNat (data.drop 4)) at_) ∧
      (s.hostLoad f 2 off len at_ = s.bellIgnored.emit (.readBytes f (List.replicate len 0)) ∧ s.hostStore f 2 off data at_ = s.bellWrite f off data) ∧
      (∀ t, Gives (.bar4Request f false off len [] false) s t → s.hostLoad f 4 off len at_ = t) ∧ (∀ t, Gives (.bar4Request f true off 0 data false) s t → s.hostStore f 4 off data at_ = t))

def Sys2Proof.Spec.HoldsFields (r : Reg) (w : Nat) : Prop :=
  w < 2 ^ 32 ∧ (∀ k, k < 32 → bitOf w k = true → ∃ f ∈ r.fields, f.lo ≤ k ∧ k ≤ f.hi ∧ f.acc ≠ .wo)

/-- Register fields behave by their access types (R4). A write leaves of each field: a read-write field takes the bits written (where its value range allows them), a read-only field keeps its value, a 1 clears a write-1-to-clear bit and sets a write-1-to-set bit, a write-only field keeps nothing; reserved bits and
write-only fields hold 0 at reset and after every write; and a read of a register that is awake and that no rule computes answers the word held. -/
def Obligations.RegisterFieldsTakeWritesByType : Prop :=
  (∀ (r : Reg) (f : FieldInfo) (w v : Nat), f ∈ r.fields → w < 2 ^ 32 → v < 2 ^ 32 →
    bitsOf (writtenWord r false w v) f.hi f.lo =
      match f.acc with
      | .rw => if fieldTakes r f.hi (bitsOf v f.hi f.lo) then bitsOf v f.hi f.lo else bitsOf w f.hi f.lo
      | .ro => bitsOf w f.hi f.lo
      | .w1c => bitsOf w f.hi f.lo - (bitsOf w f.hi f.lo &&& bitsOf v f.hi f.lo)
      | .w1s => bitsOf w f.hi f.lo ||| bitsOf v f.hi f.lo
      | .wo => bitsOf w f.hi f.lo) ∧
  (∀ (r : Reg) (fw : Bool) (w v : Nat), HoldsFields r w → HoldsFields r (writtenWord r fw w v)) ∧
  (∀ (r : Reg) (o i : Nat), HoldsFields r (r.reset o i).toNat) ∧
  (∀ (r : Reg) (o i : Nat) (s : State), s.asleep (r.addr o i) 3 = false → s.computed r o i = none → s.shown r o i = (s.word r o i).toNat)

/-- Register accesses. A write in the sender's view of an awake register acts on it, one to the window of a hall that is awake under a plan at the tread boundary; outside the view it is ignored; a read of the low word of a pair answers it and latches the high word; a write of a staged pair's high word gives both words at once; a write of
an offset that holds no register is ignored. At the boundary the reads come before the writes, and each finds the hall as it then is. -/
def Obligations.RegisterAccesses : Prop :=
  ∀ (who : Who) (addr value at_ : Nat) (s : State),
    (let u := s.atTime at_
     let a := canonical addr
     let page := inPage a = true ∧ a % 0x10000 < 0x9000
     (u.writes who a = true → a % 4 = 0 → value < 2 ^ 32 →
      (∀ h, u.boundaryHall addr = some h → Gives (.registerWrite who addr value at_) s (u.await h who addr (.write value))) ∧
      (∀ r o i, u.boundaryHall addr = none → ¬ page → Machine.place a = some (r, o, i) → u.asleep a 2 = false → Gives (.registerWrite who addr value at_) s (u.writeReg who r o i value at_)) ∧
      (u.boundaryHall addr = none → page → Gives (.registerWrite who addr value at_) s (u.msixWrite (pageFn a) (a % 0x10000) value)) ∧
      (∀ r o i, u.boundaryHall addr = none → ¬ page → Machine.place a = some (r, o, i) → u.asleep a 2 = true → Gives (.registerWrite who addr value at_) s u) ∧
      (u.boundaryHall addr = none → ¬ page → Machine.place a = none → Gives (.registerWrite who addr value at_) s u)) ∧
     (u.writes who a = false → Gives (.registerWrite who addr value at_) s u) ∧
     (∀ r o i h, Machine.place a = some (r, o, i) → (pairHigh r).isSome = true → u.sees who (canonical (addr / 4 * 4)) = true → u.boundaryHall addr = some h → Gives (.lowWordRead who addr at_) s (u.await h who addr .read)) ∧
     (∀ r o i, Machine.place a = some (r, o, i) → (pairHigh r).isSome = true → u.sees who (canonical (addr / 4 * 4)) = false ∨ u.boundaryHall addr = none →
      Gives (.lowWordRead who addr at_) s ((s.readWord who addr at_).1.answer who addr (s.readWord who addr at_).2)) ∧
     (∀ r o i, Machine.place a = some (r, o, i) → (pairLow r).isSome = true ∨ r = .TB_SET_SEC_HI → Gives (.highWordCommit who addr value at_) s (s.writeWord who addr value at_))) ∧
    (∀ r hi o i, pairHigh r = some hi → latchedReg r = false → s.readReg who r o i at_ = (s.latch who (hi.addr o i) (s.shown hi o i), s.shown r o i)) ∧
    (∀ h a, let t := s.touch h
      s.serveAccess ⟨h, who, a, .write value⟩ = t.writeSeen who a value s.now ∧ s.serveAccess ⟨h, who, a, .read⟩ = (t.readSeen who a s.now).1.answer who a (t.readSeen who a s.now).2) ∧
    (∀ x y, s.hallq = [x, y] → (∃ v, x.act = .write v) → y.act = .read → s.serveAccesses = (({ s with hallq := [] }).serveAccess y).serveAccess x)

/-! ### Ownership, firmware and resets (chapters 18 and 19) -/

/-- Ownership. A claim with the current epoch of a part that has no owner, or whose owner's lease has lapsed, becomes pending, and with no plan active takes effect at once; the owner's own claim is answered with the epoch; one with another epoch is refused, and so is one beside a pending change or of an owner whose lease holds; a release becomes pending; a renewal by the owner
with the epoch restarts its lease, another is counted as bad; a lease that is not renewed in its term lapses; a signed seizure becomes pending and draws a new nonce, and a pending claim is refused for it. -/
def Obligations.OwnershipCommands : Prop :=
  ∀ (d : AdminCmd) (b : Bytes) (who : Who) (value at_ : Nat) (s : State),
    (Accepted s d 0x70 → d.p 0 = s.epoch → s.isOwner d.fn = false → s.flag Fld.OWN_STATE_PENDING = false → s.epoch < 0xFFFFFFFF → s.ownerValid = false ∨ s.flag Fld.OWN_STATE_LAPSED = true →
      Gives (.ownClaim d) s (s.pendChange d 0 (portOf d.fn)) ∧
      (s.planActive = true → ∃ t, Gives (.ownClaim d) s t ∧ t.flag Fld.OWN_STATE_PENDING = true ∧ t.fld Fld.OWN_STATE_PENDING_KIND = 0 ∧ t.own.changeCmd = some d ∧ t.ownerValid = s.ownerValid)) ∧
    (Accepted s d 0x70 → d.p 0 = s.epoch → s.isOwner d.fn = true → s.flag Fld.OWN_STATE_PENDING = false → Gives (.ownClaim d) s (s.adminOk d s.epoch)) ∧
    (Accepted s d 0x70 → d.p 0 ≠ s.epoch → Gives (.ownClaim d) s (s.refused d St.accessDenied 2)) ∧
    (Accepted s d 0x70 → d.p 0 = s.epoch → s.flag Fld.OWN_STATE_PENDING = true → Gives (.ownClaim d) s (s.refused d St.accessDenied 4)) ∧
    (Accepted s d 0x70 → d.p 0 = s.epoch → s.isOwner d.fn = false → s.flag Fld.OWN_STATE_PENDING = false → s.epoch < 0xFFFFFFFF → s.ownerValid = true → s.flag Fld.OWN_STATE_LAPSED = false → Gives (.ownClaim d) s (s.refused d St.accessDenied 3)) ∧
    (Accepted s d 0x71 → s.flag Fld.OWN_STATE_PENDING = false → s.epoch < 0xFFFFFFFF → Gives (.ownRelease d) s (s.pendChange d 2 0)) ∧
    (Accepted s d 0x72 → s.signedCheck 0x72 1 (leAt b 0x18 1 == portOf d.fn) b = none → s.epoch < 0xFFFFFFFF →
      (s.flag Fld.OWN_STATE_PENDING = false → Gives (.ownSeize d b) s (s.newNonce.pendChange d 1 (portOf d.fn))) ∧
      (∀ c, s.flag Fld.OWN_STATE_PENDING = true → s.fld Fld.OWN_STATE_PENDING_KIND = 0 → s.own.changeCmd = some c → Gives (.ownSeize d b) s ((s.refused c St.accessDenied 4).newNonce.pendChange d 1 (portOf d.fn)))) ∧
    (∀ f, who = .fn f → s.isOwner f = true → value = s.epoch → ∃ t, Gives (.ownRenew who value at_) s t ∧ t.own.leaseStart = max s.now at_ ∧ t.flag Fld.OWN_STATE_LAPSED = false) ∧
    (∀ f, who = .fn f → s.isOwner f = false ∨ value ≠ s.epoch → ∃ t, Gives (.ownRenew who value at_) s t ∧ t.own = s.own ∧ t.flag Fld.OWN_FLAGS_RENEW_BAD = true) ∧
    (s.ownerValid = true → s.flag Fld.OWN_STATE_LAPSED = false → s.own.leaseStart + s.fld Fld.OWN_LEASE_TERM_MS * 1000000 * 65536 < max s.now at_ →
      Gives (.leaseLapse at_) s (((((s.atTime at_).raise Fld.OWN_STATE_LAPSED).raise Fld.OWN_FLAGS_LAPSED).almDev 0x0C05 (leBytes 4 (s.fld Fld.OWN_STATE_OWNER_PORT) ++ leBytes 4 s.epoch)).eventPfs 0x08 (ownBody (s.fld Fld.OWN_STATE_OWNER_PORT) s.epoch 3)))

/-- Trust and firmware. An enrolled key fills its slot and a revoked one keeps it, revoked; KEK0 is what the wrapped payload holds; an accepted image goes into the slot that is not running, which becomes preferred; the fused minimum rises to the running image's number; the identity is answered; a clear empties the trust store at once with no
plan active, and else waits for the next landing; the boot ROM runs the preferred image when it verifies, else the other, and waits in recovery when neither does; commands that a warm reset cut off end then. -/
def Obligations.TrustAndFirmware : Prop :=
  ∀ (d : AdminCmd) (b : Bytes) (at_ : Nat) (s : State),
    (let slot := leAt b 0x18 1
     Accepted s d 0x74 → s.signedCheck 0x74 98 (decide (slot < 4) && leAt b 0x19 1 == 4) b = none → look s.own.planKeys slot = none →
      Gives (.plankeyEnroll d b) s (({ s with own := { s.own with planKeys := s.own.planKeys.put slot ⟨payloadAt b 1 97, false⟩ } }.showPlanKeys.newNonce).adminOk d)) ∧
    (∀ k, Accepted s d 0x75 → s.signedCheck 0x75 1 (decide (leAt b 0x18 1 < 4)) b = none → s.planKey (leAt b 0x18 1) = some k → 1 < (s.own.planKeys.filter (fun e => !e.2.revoked)).length →
      Gives (.plankeyRevoke d b) s (({ s with own := { s.own with planKeys := s.own.planKeys.put (leAt b 0x18 1) { k with revoked := true } } }.showPlanKeys.newNonce).adminOk d)) ∧
    (∀ k, Accepted s d 0x76 → s.signedCheck 0x76 137 true b = none → Config.keyUnwrap (Config.kek0WrapKey (payloadAt b 0 97) (beBytes 8 Config.serial.toNat)) (payloadAt b 97 40) = some k →
      Gives (.kek0Install d b) s ((({ s with own := { s.own with kek0 := some k } }.setFld ⟨.CPH_KEK_VALID, 0, 0⟩ 1).newNonce).adminOk d)) ∧
    (Accepted s d 0x77 → s.signedCheck 0x77 0 true b = none → s.own.clearCmd = none → (s.planActive = false → Gives (.commissionClear d b) s (s.newNonce.clearTrust.adminOk d)) ∧
      (s.planActive = true → Gives (.commissionClear d b) s { s.newNonce with own := { s.newNonce.own with clearCmd := some d } })) ∧
    (Accepted s d 0x78 → s.imageOk b = true →
      (s.fld Fld.OWN_BOOT_STATUS_IMAGE = 1 → Gives (.fwUpdate d b) s (({ s with own := { s.own with imageA := b } }.setFld Fld.OWN_BOOT_STATUS_PREFER 0).adminOk d)) ∧
      (s.fld Fld.OWN_BOOT_STATUS_IMAGE = 0 → Gives (.fwUpdate d b) s (({ s with own := { s.own with imageB := b } }.setFld Fld.OWN_BOOT_STATUS_PREFER 1).adminOk d))) ∧
    (Accepted s d 0x79 → let m := max (s.fld Fld.OWN_FW_SVN_MIN) (s.fld Fld.OWN_FW_SVN_RUNNING)
      Gives (.fwSvnRaise d) s ((s.setFld Fld.OWN_FW_SVN_MIN m).adminOk d m)) ∧
    (Accepted s d 0x7A → Gives (.ownIdentityGet d) s ((s.adminOut d (leBytes 8 Config.serial.toNat ++ sliceB Config.identityKey 0 97 ++ leBytes 3 0 ++ sliceB Config.identitySignature 0 96)).adminOk d)) ∧
    (let u := s.atTime at_
     s.fld Fld.OWN_BOOT_STATUS_STAGE < 2 → s.own.powered = true → s.fld Fld.OWN_BOOT_STATUS_PREFER = 0 →
      (s.fld Fld.OWN_BOOT_STATUS_LAST_RESET ≠ 2 → s.imageOk s.own.imageA = true → ∃ t, Gives (.firmwareVerify at_) s t ∧ t = (u.setFld Fld.OWN_BOOT_STATUS_A_BAD 0).runImage 0 s.own.imageA ∧ t.fld Fld.OWN_BOOT_STATUS_STAGE = 2 ∧ t.fld Fld.OWN_BOOT_STATUS_IMAGE = 0 ∧ t.own.entry = leAt s.own.imageA 16 8) ∧
      (s.fld Fld.OWN_BOOT_STATUS_LAST_RESET = 2 → s.imageOk s.own.imageA = true → Gives (.firmwareVerify at_) s ((u.setFld Fld.OWN_BOOT_STATUS_A_BAD 0).runImage 0 s.own.imageA).failInflight) ∧
      (s.fld Fld.OWN_BOOT_STATUS_LAST_RESET ≠ 2 → s.imageOk s.own.imageA = false → s.imageOk s.own.imageB = true → let v := ((u.setFld Fld.OWN_BOOT_STATUS_A_BAD 1).setFld Fld.OWN_BOOT_STATUS_B_BAD 0).runImage 1 s.own.imageB
        Gives (.firmwareVerify at_) s ((v.raise Fld.OWN_FLAGS_BOOT_FALLBACK).almDev 0x0C02 (leBytes 1 1 ++ leBytes 1 (leAt s.own.imageB 8 1)))) ∧
      (s.fld Fld.OWN_BOOT_STATUS_LAST_RESET ≠ 2 → s.imageOk s.own.imageA = false → s.imageOk s.own.imageB = false → ∃ t, Gives (.firmwareVerify at_) s t ∧ t.fld Fld.OWN_BOOT_STATUS_STAGE = 3 ∧ t.flag Fld.OWN_BOOT_STATUS_A_BAD = true ∧ t.flag Fld.OWN_BOOT_STATUS_B_BAD = true)) ∧
    (s.fld Fld.OWN_BOOT_STATUS_STAGE < 2 → s.own.powered = true → s.fld Fld.OWN_BOOT_STATUS_PREFER = 1 → s.fld Fld.OWN_BOOT_STATUS_LAST_RESET ≠ 2 → s.imageOk s.own.imageB = true → ∃ t, Gives (.firmwareVerify at_) s t ∧
      t.fld Fld.OWN_BOOT_STATUS_STAGE = 2 ∧ t.fld Fld.OWN_BOOT_STATUS_IMAGE = 1 ∧ t.own.entry = leAt s.own.imageB 16 8)

/-- Resets. Power good starts a part afresh; a device reset ends every plan, function and memory content but keeps Device Time and the trust store; a warm reset restarts the management cores alone; the owner's reset command does the one or the other, a warm one after its record; the firmware watchdog's reset is warm; a supply that shuts
down, or an overvoltage, removes power. -/
def Obligations.ResetCommands : Prop :=
  ∀ (d : AdminCmd) (at_ : Nat) (s : State),
    (s.own.powered = false → ∃ t, Gives .powerGood s t ∧ t.own.powered = true ∧ t.flag Fld.EVT_STATUS_POWERED = true) ∧
    (s.own.powered = true → ∃ t, Gives (.deviceReset at_) s t ∧ t.alcove = [] ∧ t.now = max s.now at_ ∧ t.own.planKeys = s.own.planKeys ∧ t.own.kek0 = s.own.kek0 ∧ t.flt.deviceFault = none) ∧
    (s.own.powered = true → Gives (.warmReset at_) s (s.atTime at_).warmReset ∧ (s.atTime at_).warmReset.alcove = s.alcove ∧ (s.atTime at_).warmReset.atrium = s.atrium ∧ (s.atTime at_).warmReset.wq.queues = s.wq.queues) ∧
    (s.wq.gone.contains (d.fn, d.idx) = false → (s.atTime at_).adminCheck d 0x73 = none → (d.p 0 % 2 = 1 → Gives (.ownDeviceReset d at_) s ((s.atTime at_).adminOk d).warmReset) ∧ (d.p 0 % 2 = 0 → Gives (.ownDeviceReset d at_) s (s.atTime at_).deviceReset)) ∧
    (s.fld Fld.OWN_BOOT_STATUS_STAGE = 2 → s.flt.wdogKick + s.fld Fld.FLT_WDOG_LIMIT_MS * 1000000 * 65536 < max s.now at_ →
      Gives (.firmwareWatchdog at_) s ((((s.atTime at_).raise Fld.FLT_STATUS_WATCHDOG).almDev 0x0D07 (leBytes 1 s.flt.wdogCore)).warmReset)) ∧
    (∀ t, s.flt.deviceFault = some t → t + 1000000 * 65536 ≤ max s.now at_ → Gives (.deviceFaultReset at_) s (s.atTime at_).deviceReset) ∧
    (Gives (.supplyShutdown at_) s (s.atTime at_).powerOff ∧ Gives (.overvoltage at_) s (s.atTime at_).powerOff ∧ (s.own.powered = true → ((s.atTime at_).powerOff).own.powered = false))

/-- Faults. A hall fault of a cause 1 to 9 takes R506's course, a hall's reset in place is noted, and with no plan active the hall returns, rail, half and device faults take theirs, a restored HALTED hall is recovering for its command, an injection answers before its fault. -/
def Obligations.FaultCommands : Prop :=
  ∀ (d : AdminCmd) (h cause e at_ : Nat) (s : State),
    (h < 18 → 1 ≤ cause → cause ≤ 9 → s.flt.deviceFault = none → Gives (.hallFault h cause at_) s ((s.atTime at_).hallFault h cause)) ∧
    (∀ r, s.recov h = some r → r.route = 0 → let u := (s.atTime at_).setRecov h (some { r with resetDone := true })
      (s.planActive = true → Gives (.hallResetComplete h at_) s u ∧ u.recov h = some { r with resetDone := true }) ∧ (s.planActive = false → Gives (.hallResetComplete h at_) s ((u.hallReturns h).setFld Fld.TSQ_STATE_STATE 0 h))) ∧
    (h < 18 → s.flt.deviceFault = none → Gives (.railFault h at_) s ((s.atTime at_).hallFault h 8)) ∧
    (e < 2 → cause = 0x11 ∨ cause = 0x12 → s.flt.deviceFault = none → Gives (.halfFault e cause at_) s ((s.atTime at_).halfFault e cause)) ∧
    (cause = 0x20 ∨ cause = 0x22 → s.flt.deviceFault = none → ∃ t, Gives (.deviceFault cause at_) s t ∧ t = (s.atTime at_).deviceFaults cause ∧ t.flt.deviceFault = some (max s.now at_)) ∧
    (let u := s.atTime at_
     s.wq.gone.contains (d.fn, d.idx) = false → u.adminCheck d 0x82 = none →
      (u.injectOk (d.p 0) (d.p 1) = false → Gives (.fltInject d at_) s (u.adminFail d St.badDescriptor)) ∧
      (u.injectOk (d.p 0) (d.p 1) = true → let v := u.adminOk d
        (d.p 0 = 1 → Gives (.fltInject d at_) s (v.functionFault (d.p 1) 0x50 (v.inProgress (d.p 1)))) ∧ (d.p 0 = 2 → Gives (.fltInject d at_) s (v.laneFault (d.p 1) 0x50)) ∧
        (d.p 0 = 3 → Gives (.fltInject d at_) s (v.hallFault (d.p 1) 0x50)) ∧ (d.p 0 = 4 → Gives (.fltInject d at_) s (v.halfFault (d.p 1) 0x50)) ∧ (d.p 0 = 5 → Gives (.fltInject d at_) s (v.deviceFaults 0x50)))) ∧
    (s.wq.gone.contains (d.fn, d.idx) = false → (s.atTime at_).adminCheck d 0x83 = none → d.p 0 = h → h < 18 → s.fld Fld.FLT_HALL_STATE 0 h = 3 → ∃ t, Gives (.fltHallRestore d at_) s t ∧ t.fld Fld.FLT_HALL_STATE 0 h = 2 ∧
      t.recov h = some { route := 0, cause := s.fld Fld.FLT_HALL_CAUSE 0 h, since := max s.now at_, logical := s.logicalOf h, spare := none, resetDone := false, minTreads := 0, cmd := some d })

/-- The Almanac, the status page and the watchdog. The head entry of the write queue is written, suppressed once its code has used its rate, or lost while the Almanac is frozen; a freeze ends; entries are read by their numbers; a clear empties the ring and logs itself first; a function's status page is set or removed; a query answers the
function's last fault; a kick by firmware restarts the watchdog. -/
def Obligations.AlmanacAndPageCommands : Prop :=
  ∀ (d : AdminCmd) (who : Who) (value at_ : Nat) (s : State),
    (∀ e rest, s.flt.almQueue = e :: rest → s.flag Fld.ALM_STATUS_FROZEN = true → ∃ t, Gives .almanacWrite s t ∧ t.flt.almQueue = rest ∧ t.flt.ring = s.flt.ring ∧ t.fld Fld.ALM_CNT_LOST_COUNT = (s.fld Fld.ALM_CNT_LOST_COUNT + 1) % 2 ^ 32) ∧
    (∀ e rest, s.flt.almQueue = e :: rest → s.flag Fld.ALM_STATUS_FROZEN = false → neverSuppressed e.code = true ∨ s.flt.almCounts.get 0 e.code < s.fld Fld.ALM_CFG_CODE_RATE → ∃ t, Gives .almanacWrite s t ∧ t.flt.almQueue = rest ∧
      t.flt.ring.get [] (s.fld Fld.ALM_HEAD_SEQ % 32768) = almBytes (s.fld Fld.ALM_HEAD_SEQ) e ∧ t.fld Fld.ALM_HEAD_SEQ = (if s.fld Fld.ALM_HEAD_SEQ = 0xFFFFFFFF then 1 else s.fld Fld.ALM_HEAD_SEQ + 1)) ∧
    (∀ e rest, s.flt.almQueue = e :: rest → s.flag Fld.ALM_STATUS_FROZEN = false → neverSuppressed e.code = false → s.fld Fld.ALM_CFG_CODE_RATE ≤ s.flt.almCounts.get 0 e.code → ∃ t, Gives .almanacWrite s t ∧ t.flt.almQueue = rest ∧
      t.flt.ring = s.flt.ring ∧ t.flag Fld.ALM_STATUS_SUPPRESSED = true) ∧
    (s.mayWrite who = true → value % 2 = 1 → ∃ t, Gives (.almUnfreeze who value) s t ∧ t.flag Fld.ALM_STATUS_FROZEN = false ∧ t.flt.freezeLeft = none ∧ t.flt.ring = s.flt.ring) ∧
    (Accepted s d 0x84 → 0 < d.p 1 → d.p 1 ≤ 32768 → let es := (seqRange (d.p 0) (d.p 1)).map s.almEntry
      Gives (.almRead d) s ((s.adminOut d es.flatten).adminOk d (s.fld Fld.ALM_HEAD_SEQ) (es.filter (fun b => leAt b 0 4 != 0)).length)) ∧
    (Accepted s d 0x85 → let u := { s with flt := { s.flt with ring := [] } }.unfreeze
      Gives (.almClear d) s ({ u with flt := { u.flt with almQueue := { code := 0x0D08, scope := 5, hall := 0xFF, srcKind := 0, srcIdx := 0, time := u.now, flight := u.flightNow, payload := leBytes 4 (s.fld Fld.ALM_HEAD_SEQ) } :: u.flt.almQueue } }.adminOk d)) ∧
    (Accepted s d 0x80 → d.p64 0 % 64 = 0 → Gives (.fltStatusPageSet d) s
      ((((s.setFld Fld.FLT_FN_PAGE_LO_ADDR (d.p64 0 / 64) d.fn).setFld Fld.FLT_FN_PAGE_HI_ADDR (d.p64 0 / 2 ^ 32) d.fn).setFld Fld.FLT_FN_PAGE_LO_VALID (if d.p64 0 = 0 then 0 else 1) d.fn).adminOk d)) ∧
    (Accepted s d 0x81 → Gives (.fltQuery d) s ((s.adminOut d (faultPage ((look s.flt.lastFn d.fn).getD { epoch := s.fld Fld.FLT_FN_EPOCH_EPOCH d.fn }))).adminOk d (s.fld Fld.FLT_FN_EPOCH_EPOCH d.fn))) ∧
    (∀ k, who = .core k → value % 2 = 1 → ∃ t, Gives (.wdogKick who value at_) s t ∧ t.flt.wdogKick = max s.now at_ ∧ t.flt.wdogCore = k ∧ t.regs = s.regs)

/-! ### Grades, the package and its side ports (chapters 20 to 22) -/

/-- The Barometer. A pass of running firmware publishes its results at one instant: it counts itself, its second, and that it is not stale, with the store's wear, whichever halls it measures (here none of a plan's, whose consequences are R540's); a used hall below its plan takes reserve where that holds its running grade, else a spare, else it faults; 1,800 s
without a pass are stale. -/
def Obligations.BarometerPasses : Prop :=
  ∀ (ms : List HallMeas) (ret : List Nat) (wear at_ h l n : Nat) (tw : Int) (s : State),
    (s.fld Fld.OWN_BOOT_STATUS_STAGE = 2 → s.atF4 = false → s.flt.deviceFault = none → (∀ m ∈ ms, m.hall ∉ s.usedPhys) → ∃ t, Gives (.baroPass ms ret wear at_) s t ∧ t.baro.passAt = max s.now at_ ∧ t.baro.passes = s.baro.passes + 1 ∧
      t.flag Fld.BARO_STATUS_STALE = false ∧ t.fld Fld.BARO_NVS_WEAR_PCT = min 255 wear ∧ t.fld Fld.BARO_PASS_SEC_SEC = max s.now at_ / 65536000000000 % 2 ^ 32) ∧
    (let req := Plan.reqGrade s.pln.active ((Plan.phys s.pln.active l).getD h)
     s.logicalOf h = some l →
      (s.fld Fld.BARO_MT_W0_CERT_G 0 h ≤ req → s.belowPlan h tw = s) ∧
      (req < s.fld Fld.BARO_MT_W0_CERT_G 0 h → s.fld Fld.FLT_HALL_STATE 0 h = 0 →
        (s.flag Fld.BARO_CFG_RESERVE_EN = true → s.fld Fld.BARO_MT_W0_CERT_G_RES 0 h ≤ req → reserveSteps h (s.fld Fld.CALM_HALL_STATE_GRADE 0 h) tw = some n → s.belowPlan h tw = s.useReserve h n) ∧
        (s.flag Fld.BARO_CFG_RESERVE_EN = false → s.recov h = none → s.chooseSpare h l = none → s.belowPlan h tw = s.hallFault h 7) ∧
        (∀ x, s.flag Fld.BARO_CFG_RESERVE_EN = false → s.recov h = none → s.chooseSpare h l = some x →
          s.belowPlan h tw = s.setRecov h (some { route := 3, cause := 7, since := s.now, logical := some l, spare := some x, resetDone := false, minTreads := if s.frost x ≤ 2 then 160 else 15000, cmd := none })))) ∧
    (s.baro.passAt + 1800 * 65536000000000 ≤ max s.now at_ → ∃ t, Gives (.baroStale at_) s t ∧ t.flag Fld.BARO_STATUS_STALE = true ∧ t.baro = s.baro) ∧
    (max s.now at_ < s.baro.passAt + 1800 * 65536000000000 → Gives (.baroStale at_) s (s.atTime at_))

/-- Supplies and temperatures. Input undervoltage latches once until it is armed again; an overcurrent switches a module off for 1 s, its ports down, and the retry trains them again; a sample of a powered part updates the lid or the hottest junction; a trip threshold held for 1 ms faults the device and asserts THERMTRIP_N; the hold ends after 60 s of a
cool lid. -/
def Obligations.SupplyAndThermalEvents : Prop :=
  ∀ (b at_ : Nat) (lid : Bool) (x : Int) (s : State),
    (s.own.powered = true → s.pkg.uvArmed = true → Gives (.inputUv at_) s ({ s.atTime at_ with pkg := { s.pkg with uvArmed := false } }.thermLatch 3)) ∧
    (Gives (.inputUvRearm at_) s { s.atTime at_ with pkg := { s.pkg with uvArmed := true } }) ∧
    (b < 32 → s.supplyAsked b = true → look s.pkg.ocOff b = none → let u := { s.atTime at_ with pkg := { s.pkg with ocOff := s.pkg.ocOff.put b (max s.now at_) } }
      Gives (.moduleOvercurrent b at_) s ((List.range 8).foldl (fun (v : State) i => if v.isPort (8 * b + i) then (v.portDown (8 * b + i) 15).setFld Fld.LN_LANE_STATUS_TRAINING 0 0 (8 * b + i) else v) u) ∧
      ((∀ i, i < 8 → s.isPort (8 * b + i) = false) → Gives (.moduleOvercurrent b at_) s u)) ∧
    (∀ t, look s.pkg.ocOff b = some t → t + 65536000000000 ≤ max s.now at_ → let u := { s.atTime at_ with pkg := { s.pkg with ocOff := s.pkg.ocOff.del b } }
      (u.supplyAsked b = false → Gives (.moduleSupplyRetry b at_) s u) ∧
      (u.supplyAsked b = true → Gives (.moduleSupplyRetry b at_) s ((List.range 8).foldl (fun (v : State) i => if v.isPort (8 * b + i) then v.train (8 * b + i) else v) u))) ∧
    (let u := if lid then (s.atTime at_).lidSample x else (s.atTime at_).junctionSample x
     s.own.powered = true → Gives (.thermalSample lid x at_) s { u with pkg := { u.pkg with tripSince := since u.now u.pkg.tripSince (atOrAbove u.pkg.lid lidTrip || atOrAbove u.pkg.tj junctionTrip) } }) ∧
    (∀ t, s.pkg.tripSince = some t → t + 1000000 * 65536 ≤ max s.now at_ → s.pkg.tripped = false → Gives (.thermalTrip at_) s
      (({ s.atTime at_ with pkg := { s.pkg with tripped := true } }.deviceFaults 0x22).leave (.pin 4 0 false))) ∧
    (∀ t, s.pkg.coolSince = some t → s.pkg.hold = true → t + 60 * 65536000000000 ≤ max s.now at_ → Gives (.thermalHoldEnd at_) s
      ({ s.atTime at_ with pkg := { s.pkg with hold := false, tripped := false } }.leave (.pin 4 0 true)))

/-- The side ports. SMBus reads of a powered part with a good PEC answer their code's octets, STATUS also ending the alert, and a read without one answers nothing; DEVICE_RESET takes 0xA5 alone. JTAG selects its registers, leaves the lands alone while a plan is active, and resets the part at Test-Logic-Reset after an instruction that had taken them. -/
def Obligations.SidePorts : Prop :=
  ∀ (v drive sample at_ : Nat) (s : State),
    (s.own.powered = true →
      (s.pkg.alert = false → Gives (.smbStatus true) s (s.leave (.smb 0x00 (leBytes 1 (b2n s.pkg.hold * 64 + b2n s.atF4 * 32 + b2n s.planActive * 16 + (s.word .CALM_THERM).toNat % 16))))) ∧
      (s.pkg.alert = true → ∃ t, Gives (.smbStatus true) s t ∧ t.pkg.alert = false ∧ t.regs = s.regs ∧
        t.out = s.out ++ [.smb 0x00 (leBytes 1 (128 + b2n s.pkg.hold * 64 + b2n s.atF4 * 32 + b2n s.planActive * 16 + (s.word .CALM_THERM).toNat % 16)), .pin 3 0 true]) ∧
      Gives (.smbLidTemp true) s (s.leave (.smb 0x01 (leBytes 2 (word16 s.pkg.lid)))) ∧
      Gives (.smbTjMax true) s (s.leave (.smb 0x02 (leBytes 2 (word16 s.pkg.tj)))) ∧
      Gives (.smbVin true v) s (s.leave (.smb 0x03 (leBytes 2 v))) ∧
      Gives (.smbIin true v) s (s.leave (.smb 0x04 (leBytes 2 v))) ∧
      Gives (.smbPin true v) s (s.leave (.smb 0x05 (leBytes 2 v))) ∧
      Gives (.smbPdev true v) s (s.leave (.smb 0x06 (leBytes 2 v))) ∧
      Gives (.smbPmod true v) s (s.leave (.smb 0x07 (leBytes 2 v))) ∧
      Gives (.smbBoot true) s (s.leave (.smb 0x08 (leBytes 1 (s.fld Fld.OWN_BOOT_STATUS_LAST_RESET * 16 + s.fld Fld.OWN_BOOT_STATUS_STAGE)))) ∧
      Gives (.smbSerial true) s (s.leave (.smb 0x10 (leBytes 8 Config.serial.toNat))) ∧
      Gives (.smbIdcode true) s (s.leave (.smb 0x11 (leBytes 4 idcode))) ∧
      Gives (.smbDeviceReset true 0xA5 at_) s (s.atTime at_).deviceReset) ∧
    (∀ pec, pec = false ∨ s.own.powered = false → Gives (.smbVin pec v) s s ∧ Gives (.smbStatus pec) s s ∧ Gives (.smbSerial pec) s s ∧ Gives (.smbLidTemp pec) s s ∧ Gives (.smbBoot pec) s s ∧ Gives (.smbDeviceReset pec v at_) s (s.atTime at_)) ∧
    (v ≠ 0xA5 → Gives (.smbDeviceReset true v at_) s (s.atTime at_)) ∧
    (s.planActive = false → ∃ t, Gives (.jtagExtest drive sample) s t ∧ t.out = s.out ++ [.note 10 [drive], .jtag 0 sample] ∧ t.pkg.jtag = 1 ∧ t.pkg.scan = drive ∧ t.regs = s.regs) ∧
    (s.planActive = true → ∃ t, Gives (.jtagExtest drive sample) s t ∧ t.out = s.out ++ [.jtag 2 0] ∧ t.pkg.scan = s.pkg.scan) ∧
    (∃ t, Gives (.jtagSamplePreload drive sample) s t ∧ t.out = s.out ++ [.jtag 0 sample] ∧ t.pkg.scan = drive ∧ t.pkg.jtag = 2) ∧
    (∃ t, Gives .jtagIdcode s t ∧ t.out = s.out ++ [.jtag 1 idcode] ∧ t.pkg.jtag = 0) ∧
    (∃ t, Gives .jtagClamp s t ∧ t.out = s.out ++ (if s.planActive then [.jtag 2 0] else [.note 10 [s.pkg.scan], .jtag 2 0]) ∧ t.pkg.jtag = 3) ∧
    (∃ t, Gives .jtagHighz s t ∧ t.out = s.out ++ (if s.planActive then [.jtag 2 0] else [.note 11 [], .jtag 2 0]) ∧ t.pkg.jtag = 4) ∧
    (∃ t, Gives .jtagBypass s t ∧ t.out = s.out ++ [.jtag 2 0] ∧ t.pkg.jtag = 5) ∧
    (s.pkg.scanned = false → s.pkg.jtag = 0 → Gives (.jtagTestLogicReset at_) s (s.atTime at_)) ∧
    (s.own.powered = true → s.pkg.scanned = true ∨ (s.planActive = false ∧ (s.pkg.jtag = 1 ∨ s.pkg.jtag = 3 ∨ s.pkg.jtag = 4)) →
      Gives (.jtagTestLogicReset at_) s ({ s.atTime at_ with pkg := { s.pkg with jtag := 0, scanned := false } }).deviceReset)

/-! ### Tables, their windows and audits, stations and channels (chapters 7, 10 and 11) -/

/-- Every hall that a table command names is a USED hall whose program has a table window, and there is one. -/
def Sys2Proof.Spec.HallsServe (s : State) (d : AdminCmd) (all : Bool) : Prop :=
  s.namedHalls (d.p 0 % 256) all ≠ [] ∧ ∀ h ∈ s.namedHalls (d.p 0 % 256) all, ∃ l, s.logicalOf h = some l ∧ hasTableWindow s.pln.active l = true

/-- A table command stands last in the queue of every hall that it names. -/
def Sys2Proof.Spec.queued (s : State) (d : AdminCmd) (buf : Bytes) (all : Bool) : State :=
  (s.namedHalls (d.p 0 % 256) all).foldl (fun (s : State) h => { s with tblq := s.tblq.put h (s.tblq.get [] h ++ [{ cmd := d, buf := buf, pos := 0, acc := [] }]) }) s

/-- The alternative S-TPID that PRS_CFG gives, where it is enabled. -/
def Sys2Proof.Spec.altTpid (s : State) : Option Nat := if s.cfg Fld.PRS_CFG_ALT_EN = 1 then some (s.cfg Fld.PRS_CFG_ALT_STPID) else none

/-- Table commands. An accepted command whose operands are in range waits in the queue of every hall it names, a write with its image; a bridge domain or flood target is staged for the next landing; a command that names a hall without a window ends UNSUPPORTED, and an image that breaks a field's rule ends BAD_DESCRIPTOR. -/
def Obligations.TableCommands : Prop :=
  ∀ (d : AdminCmd) (buf : Bytes) (s : State),
    (Accepted s d 0x1C → HallsServe s d false → 0 < d.p 2 → d.p 2 ≤ 4096 → d.p 1 + d.p 2 ≤ 65536 → Gives (.stationRead d) s (queued s d [] false)) ∧
    (Accepted s d 0x1D → HallsServe s d false → stnOk (d.p 1) (sliceB buf 0 16) = true → Gives (.stationWrite d buf) s (queued s d (sliceB buf 0 16) false)) ∧
    (Accepted s d 0x1E → HallsServe s d false → Gives (.stationClear d) s (queued s d (List.replicate 16 0) false)) ∧
    (Accepted s d 0x20 → s.isOwner d.fn = true → s.planActive = true → HallsServe s d true → (if bitOf (d.p 0) 8 then actionOk (tcamAction (sliceB buf 0 160)) else tcamOk (sliceB buf 0 160)) = true →
      Gives (.clsWrite d buf) s (queued s d (sliceB buf 0 160) true)) ∧
    (Accepted s d 0x20 → s.isOwner d.fn = false → s.tenantAction d.fn (tcamAction (sliceB buf 0 160)) = false → Gives (.clsWrite d buf) s (s.adminFail d St.accessDenied)) ∧
    (Accepted s d 0x20 → s.isOwner d.fn = false → s.tenantAction d.fn (tcamAction (sliceB buf 0 160)) = true → s.planActive = true → HallsServe s d true →
      (if bitOf (d.p 0) 8 then actionOk (tcamAction (sliceB buf 0 160)) else tcamOk (sliceB buf 0 160)) = true → Gives (.clsWrite d buf) s (queued s d (s.tenantEntry d.fn (sliceB buf 0 160)) true)) ∧
    (Accepted s d 0x21 → HallsServe s d true → 0 < d.p 2 → d.p 1 + d.p 2 ≤ 16384 → Gives (.clsInvalidate d) s (queued s d [] true)) ∧
    (Accepted s d 0x22 → HallsServe s d false → 0 < d.p 2 → d.p 2 ≤ 256 → d.p 1 + d.p 2 ≤ 16384 → Gives (.clsRead d) s (queued s d [] false)) ∧
    (Accepted s d 0x23 → HallsServe s d false → 0 < d.p 2 → d.p 2 ≤ 256 → d.p 1 + d.p 2 ≤ 16384 → Gives (.clsCounterRead d) s (queued s d [] false)) ∧
    (Accepted s d 0x24 → HallsServe s d true → Gives (.frgFlush d) s (queued s d [] true)) ∧
    (Accepted s d 0x28 → HallsServe s d true → bridgeOk (sliceB buf 0 16) = true → Gives (.fwdWrite d buf) s (queued s d (sliceB buf 0 16) true)) ∧
    (Accepted s d 0x29 → HallsServe s d true → Gives (.fwdDelete d) s (queued s d [] true)) ∧
    (Accepted s d 0x2A → HallsServe s d true → d.p 1 < 4096 ∨ d.p 1 = 0xFFFF → Gives (.fwdFlush d) s (queued s d [] true)) ∧
    (Accepted s d 0x2B → HallsServe s d false → 0 < d.p 2 → d.p 2 ≤ 256 → d.p 1 + d.p 2 ≤ 262144 → Gives (.fwdRead d) s (queued s d [] false)) ∧
    (Accepted s d 0x2C → HallsServe s d true → d.p 1 < 8192 → vportOk (sliceB buf 0 32) = true → Gives (.vportWrite d buf) s (queued s d (sliceB buf 0 32) true)) ∧
    (Accepted s d 0x2D → HallsServe s d false → 0 < d.p 2 → d.p 2 ≤ 256 → d.p 1 + d.p 2 ≤ 8192 → Gives (.vportRead d) s (queued s d [] false)) ∧
    (Accepted s d 0x2E → HallsServe s d true → d.p 1 < 2048 → tunOk (altTpid s) (sliceB buf 0 128) = true → Gives (.tunWrite d buf) s (queued s d (sliceB buf 0 128) true)) ∧
    (Accepted s d 0x2F → HallsServe s d false → 0 < d.p 2 → d.p 2 ≤ 256 → d.p 1 + d.p 2 ≤ 2048 → Gives (.tunRead d) s (queued s d [] false)) ∧
    (Accepted s d 0x30 → d.p 1 < 4096 → domainOk (sliceB buf 0 32) = true → Gives (.bdWrite d buf) s { s with fw := { s.fw with bdNew := s.fw.bdNew ++ [(d, d.p 1, sliceB buf 0 32)] } }) ∧
    (let ws := (List.range (d.p 2)).map (fun i => leAt buf (4 * i) 4)
     Accepted s d 0x31 → 0 < d.p 2 → d.p 2 ≤ 256 → d.p 1 + d.p 2 ≤ 2048 → ws.all (fun w => dstOk w .flood) = true → Gives (.floodWrite d buf) s { s with fw := { s.fw with floodNew := s.fw.floodNew ++ [(d, d.p 1, ws)] } }) ∧
    (∀ h ∈ s.namedHalls (d.p 0 % 256) true, s.logicalOf h = none → Accepted s d 0x24 → Gives (.frgFlush d) s (s.adminFail d St.unsupported)) ∧
    (Accepted s d 0x28 → HallsServe s d true → bridgeOk (sliceB buf 0 16) = false → Gives (.fwdWrite d buf) s (s.adminFail d St.badDescriptor))

/-- Windows and walkers. A window is open for the clocks its op gives, over treads where it is long; its clocks up to an instant serve the hall's queue, and its end closes it; a command whose clocks are over leaves the queue and ends when no hall has it left; a read of the audit's failures takes the oldest; a shadow digest written is valid;
an expired fragment entry is freed and counted; a sweep frees a dynamic bridge entry at its age, the learning writes of its clock ahead of it. -/
def Obligations.TableWindowsAndWalkers : Prop :=
  ∀ (h b x value at_ : Nat) (who : Who) (s : State),
    ((∀ o, ¬ Issues s h 2 0x33 o) → Gives (.tableWindow h at_) s ((s.atTime at_).tableServe h)) ∧
    (∀ o, Issues s h 2 0x33 o → let u := ((issued s h 2 o).tableServe h).occupy h o (bitsOf o 46 31)
      let v := u.setSeq h { u.seq h with table := some (bitsOf o 48 47, clockAt (u.seq h).start (Plan.offset o) (u.clocks h), bitsOf o 46 31, 0) }
      Gives (.tableWindow h at_) s ((v.atTime at_).tableServe h)) ∧
    ((s.seq h).table = none → s.tableServe h = s) ∧
    (∀ kind start len used, (s.seq h).table = some (kind, start, len, used) → let done := min len ((s.now - start) * s.clocks h / treadTicks)
      let t := s.tableClocks h kind start len (done - used) (len - used)
      s.tableServe h = t.setSeq h { t.seq h with table := if len ≤ done then none else some (kind, start, len, max used done) }) ∧
    (∀ j rest, s.tblq.get [] h = j :: rest → j.st = 0 → (∀ e ∈ s.tblq.put h rest, ∀ k ∈ e.2, (k.cmd.fn, k.cmd.idx) ≠ (j.cmd.fn, j.cmd.idx)) → let u := { s with tblq := s.tblq.put h rest }
      (j.acc = [] → s.tableDone h j = u.adminOk j.cmd) ∧ (j.acc ≠ [] → s.tableDone h j = (u.adminOut j.cmd j.acc).adminOk j.cmd)) ∧
    (s.mayWrite who = true → h < 18 → b < 512 → Gives (.auditShadowWrite who h b value false) s ((s.setFld Fld.FWD_AUDIT_SHADOW_DIGEST value h b).setBlockValid h b 1) ∧
      Gives (.auditShadowWrite who h b value true) s ((s.setFld Fld.FWD_AUDIT_SHADOW_DIGEST value h b).setBlockValid h b 0)) ∧
    (∀ f g rest, h < 18 → (s.auditSt h).fails = (f, g) :: rest → ∃ t, Gives (.fwdAuditFailRead who h) s t ∧ (t.auditSt h).fails = rest ∧ t.regs = s.regs ∧
      t.out = s.out ++ [.readValue who (Reg.addr .FWD_AUDIT_FAIL h 0) (2 ^ 31 + rest.length * 65536 + f)]) ∧
    (h < 18 → (s.auditSt h).fails = [] → Gives (.fwdAuditFailRead who h) s (s.answer who (Reg.addr .FWD_AUDIT_FAIL h 0) 0)) ∧
    (h < 18 → b < 1024 → ∃ t, Gives (.fragEntryExpiry h b at_) s t ∧ (∀ w e, w < 4 → s.fragAt (h * 4096 + b * 4 + w) = some e → e.live (max s.now at_) = false → t.fragAt (h * 4096 + b * 4 + w) = none) ∧
      (∀ w e, w < 4 → s.fragAt (h * 4096 + b * 4 + w) = some e → e.live (max s.now at_) = true → t.fragAt (h * 4096 + b * 4 + w) = some e)) ∧
    ((s.atTime at_).sweeps h = true → b < 32768 → let u := (s.atTime at_).learnsBefore h (max s.now at_ + 1)
      let left := u.fw.renew.get 0 h
      let v := if left = 0 then u else { u with fw := { u.fw with renew := if left = 1 then u.fw.renew.del h else u.fw.renew.put h (left - 1) } }
      Gives (.bridgeSweepVisit h b at_) s (((List.range 4).map (· + 4 * b) ++ (List.range 4).map (· + 131072 + 4 * b)).foldl (fun (u : State) y => u.sweepEntry h y (left != 0)) v)) ∧
    (∀ e, s.bridgeAt h x = some e → e.static = false → s.cfg Fld.FWD_CFG_AGE_S ≠ 0 → s.cfg Fld.FWD_CFG_AGE_S ≤ since12 s.sec12 e.seen → s.sweepEntry h x false = (s.freeBridge h x).bump Fld.FWD_CNT_AGED_COUNT h) ∧
    (∀ e, s.bridgeAt h x = some e → e.static = true → s.sweepEntry h x false = s ∧ s.sweepEntry h x true = s)

/-- Channels of cyclic exchange. A bind takes the slot that its checks answer and shows its handle; an unbind of a pending bind ends it and of another waits; keys are staged; a query writes its state and words; each refuses a handle of no channel. -/
def Obligations.ChannelCommands : Prop :=
  ∀ (d : AdminCmd) (s : State),
    (∀ dt st, Accepted s d 0x18 → s.bindCheck d = .inl (dt, st) → Gives (.channelBind d) s (s.adminFail d st dt)) ∧
    (∀ slot, Accepted s d 0x18 → s.bindCheck d = .inr slot →
      let c : Chan := { sid := d.p 0 % 65536, pool := d.p 0 / 65536, slot := slot, hold := bitOf (d.p 1) 16, lost := bitsOf (d.p 1) 31 24, pcp := bitsOf (d.p 1) 20 18, keyA := d.p 2, keyB := d.p 3, txKey := bitsOf (d.p 1) 17 17, newKeys := none, phase := 1 }
      let hs := match s.poolRec c.pool with | some p => s.poolHalls p | none => []
      let u := hs.foldl (fun (u : State) h => u.setChHall h s.freeChan (if stnValid (u.station h c.sid) then { port := some (stnLane (u.station h c.sid)), armed := true } else {})) (s.setChan s.freeChan c)
      Gives (.channelBind d) s (u.adminOk d (u.handle 3 s.freeChan + slot * 2 ^ 32))) ∧
    (∀ i c, s.resolve 3 (d.p 0) = some i → look s.cyc.chans i = some c →
      (Accepted s d 0x19 → c.phase = 1 → Gives (.channelUnbind d) s ((s.endChan i).adminOk d)) ∧
      (Accepted s d 0x19 → c.phase ≠ 1 → Gives (.channelUnbind d) s ((s.setChan i { c with phase := 7 }).adminOk d)) ∧
      (∀ t a b, Accepted s d 0x1A → c.newKeys.getD (c.txKey, c.keyA, c.keyB) = (t, a, b) → (bitOf (d.p 1) 1 = false → d.p 2 = 0) → (bitOf (d.p 1) 2 = false → d.p 3 = 0) →
        let a' := if bitOf (d.p 1) 1 then d.p 2 else a
        let b' := if bitOf (d.p 1) 2 then d.p 3 else b
        s.keyHandleOk a' = true → s.keyHandleOk b' = true → Gives (.channelSetKey d) s ((s.setChan i { c with newKeys := some (bitsOf (d.p 1) 0 0, a', b') }).adminOk d)) ∧
      (∀ p h x y rest, Accepted s d 0x1B → s.poolRec c.pool = some p → s.poolHalls p = h :: rest → s.chHall h i = some x → (match rest with | g :: _ => s.chanWord g c | [] => 0) = y → Gives (.channelQuery d) s
        ((s.adminOut d (leBytes 2 c.sid ++ leBytes 2 c.pool ++ leBytes 2 c.slot ++ leBytes 1 (if c.phase = 2 then x.state else c.phase) ++ leBytes 1 0 ++ leBytes 8 (s.chanWord h c) ++ leBytes 8 y ++ leBytes 8 0)).adminOk d))) ∧
    (s.resolve 3 (d.p 0) = none → (Accepted s d 0x19 → Gives (.channelUnbind d) s (s.adminFail d St.badHandle)) ∧ (Accepted s d 0x1A → Gives (.channelSetKey d) s (s.adminFail d St.badHandle)) ∧
      (Accepted s d 0x1B → Gives (.channelQuery d) s (s.adminFail d St.badHandle)))

/-! ### The buffer pool manager (chapter 12) -/

/-- Pool commands. A region takes the lowest free number and the first free run of indices, and a hall at F3 whose alcove it lies in is at F2; one with nothing allocated is removed, its free buffers taken from the pair's stock and list; owners are created with no ceilings, set and destroyed; a stock below its mark is refilled; an audit and a query
write their records; the alarm queue answers its oldest. -/
def Obligations.PoolCommands : Prop :=
  ∀ (d : AdminCmd) (buf : Bytes) (c loc inst : Nat) (who : Who) (s : State),
    (let held := s.bpm.regions.foldl (fun n e => n + (if e.2.cls = d.p 0 % 8 then e.2.count else 0)) 0
     let bytes := s.bpm.regions.foldl (fun n e => n + e.2.count * slotStride e.2.cls e.2.loc) 0
     let first := s.freeRun (d.p 0 % 8) (d.p 3)
     let lc := bitsOf (d.p 0) 5 4
     let hh := bitsOf (d.p 0) 12 8
     let key := pairKey (d.p 0 % 8) lc hh
     ∀ n, Accepted s d 0x40 → s.regionOk (d.p 0 % 8) lc hh (d.p64 1) (d.p 3) = true → s.freeRegion = some n → held + d.p 3 ≤ 2 ^ 29 → first + d.p 3 ≤ 2 ^ 29 →
      bytes + d.p 3 * slotStride (d.p 0 % 8) lc ≤ 2 ^ 42 →
      let u := if lc = 0 ∧ s.frost hh = 3 ∧ !s.atF4 then (s.setFrost hh 2).setFld Fld.CALM_HALL_STATE_TARGET 2 0 hh else s
      let v := if (s.pair key).cut then u.setPair key { s.pair key with broken := false, cut := false } else u
      Gives (.bpmRegionAdd d) s
        ((v.setRegion n { cls := d.p 0 % 8, loc := lc, inst := hh, base := d.p64 1, count := d.p 3, first := first, next := first, used := first, allocated := 0 }).showPools.adminOk d first n)) ∧
    (Accepted s d 0x40 → s.regionOk (d.p 0 % 8) (bitsOf (d.p 0) 5 4) (bitsOf (d.p 0) 12 8) (d.p64 1) (d.p 3) = false → Gives (.bpmRegionAdd d) s (s.adminFail d St.badDescriptor)) ∧
    (∀ r, Accepted s d 0x41 → look s.bpm.regions (d.p 0) = some r →
      let u := { s with bpm := { s.bpm with regions := s.bpm.regions.del (d.p 0) } }
      let p := s.pair r.key
      let inside := fun id => decide (bufId r.cls r.first ≤ id) && decide (id < bufId r.cls r.first + r.count)
      let ids := s.freeList p.listed p.head
      let keep := ids.filter (fun id => !inside id)
      (r.allocated = 0 → (s.bpm.regions.del (d.p 0)).any (fun e => e.2.key == r.key) = false → Gives (.bpmRegionRemove d) s ((u.setPair r.key {}).showPools.adminOk d)) ∧
      (r.allocated = 0 → (s.bpm.regions.del (d.p 0)).any (fun e => e.2.key == r.key) = true → keep = ids → Gives (.bpmRegionRemove d) s
        ((u.setPair r.key { p with stock := p.stock.filter (fun id => !inside id), cut := p.broken }).showPools.adminOk d)) ∧
      (r.allocated = 0 → (s.bpm.regions.del (d.p 0)).any (fun e => e.2.key == r.key) = true → keep ≠ ids → s.unreachable r = false → Gives (.bpmRegionRemove d) s
        (((u.thread keep).setPair r.key { p with stock := p.stock.filter (fun id => !inside id), head := keep.head?, listed := keep.length }).showPools.adminOk d)) ∧
      (r.allocated ≠ 0 → Gives (.bpmRegionRemove d) s (s.adminFail d St.quota))) ∧
    (∀ r, Accepted s d 0x42 → look s.bpm.regions (d.p 0) = some r → Gives (.bpmRegionQuery d) s ((s.adminOut d (leBytes 4 (r.cls + r.loc * 16 + r.inst * 256) ++ leBytes 8 r.base ++ leBytes 4 r.count ++ leBytes 4 r.used ++
      leBytes 4 (r.count - r.allocated) ++ leBytes 4 r.allocated ++ leBytes 4 0)).adminOk d)) ∧
    (∀ o f, Accepted s d 0x43 → (d.p 0 = 0 → f = d.fn) → (d.p 0 ≠ 0 → f = d.p 0 ∧ s.isOwner d.fn = true) → s.fnExists f = true → s.isOwner d.fn = true ∨ s.ownersOf d.fn < s.shareAt d.fn 0x0A 2 → s.freeOwner = some o →
      let u := s.setBufOwner o { noOwner with fn := f, ceil := List.replicate 8 0, counts := List.replicate 8 0 }
      Gives (.bpmOwnerCreate d) s (u.adminOk d (u.ownerHandle o))) ∧
    (∀ o, s.ownerIdx (d.p 0) = some o → s.bpm.owners.any (fun e => e.1 == o) = true → s.isOwner d.fn = true ∨ (s.bufOwner o).fn = d.fn →
      (Accepted s d 0x44 → s.planActive = true → Gives (.bpmOwnerSet d buf) s ((s.setBufOwner o { s.bufOwner o with staged := some ((List.range 8).map (fun c => leAt buf (4 * c) 4), d.p 1) }).adminOk d)) ∧
      (Accepted s d 0x44 → s.planActive = false → Gives (.bpmOwnerSet d buf) s ((s.setBufOwner o { s.bufOwner o with ceil := (List.range 8).map (fun c => leAt buf (4 * c) 4), ageLimit := d.p 1 }).adminOk d)) ∧
      (Accepted s d 0x45 → o ≠ 0 → (s.bufOwner o).closing = none → Gives (.bpmOwnerDestroy d) s ((s.setBufOwner o { s.bufOwner o with closing := some d }).finishOwner o)) ∧
      (Accepted s d 0x45 → o = 0 → Gives (.bpmOwnerDestroy d) s (s.adminFail d St.accessDenied))) ∧
    (32 ≤ (s.pair (pairKey c loc inst)).stock.length → Gives (.stockRefill c loc inst) s s) ∧
    ((s.pair (pairKey c loc inst)).stock.length < 32 → Gives (.stockRefill c loc inst) s (s.refill (pairKey c loc inst) 64)) ∧
    (Accepted s d 0x49 → d.p 0 ≤ 8191 → 0 < d.p 1 → d.p 0 + d.p 1 ≤ 8192 → s.isOwner d.fn = true ∨ s.bpm.owners.any (fun e => decide (d.p 0 ≤ e.1) && decide (e.1 < d.p 0 + d.p 1) && e.2.fn != d.fn) = false →
      Gives (.bpmAudit d) s ((s.adminOut d (((List.range (d.p 1)).map (fun i => d.p 0 + i)).map s.auditRecord).flatten).adminOk d)) ∧
    (∀ o rest, s.bpm.alarms = o :: rest → Gives (.bpmAlarmNextRead who) s (({ s with bpm := { s.bpm with alarms := rest } }).answer who (Reg.addr .BPM_ALARM_NEXT 0 0) (2 ^ 31 + rest.length * 2 ^ 16 + o))) ∧
    (s.bpm.alarms = [] → Gives (.bpmAlarmNextRead who) s (s.answer who (Reg.addr .BPM_ALARM_NEXT 0 0) 0))

/-- Buffers. An allocation by class, or by length in the smallest class that holds it, takes a buffer that its pair's stock holds, one reference and its owner's; a refused one says why and is counted; a reference is added, and each of a list is released on its own, the last reference's release freeing the buffer. -/
def Obligations.BufferCommands : Prop :=
  ∀ (d : AdminCmd) (buf : Bytes) (o : Nat) (s : State),
    (let loc := bitsOf (d.p 1) 5 4
     let inst := bitsOf (d.p 1) 12 8
     ∀ c, Accepted s d 0x46 → (bitOf (d.p 1) 3 = false ∧ c = some (d.p 1 % 8)) ∨ (bitOf (d.p 1) 3 = true ∧ 0 < d.p 2 ∧ d.p 2 ≤ 1048576 ∧ c = s.classFor (d.p 2) loc inst) →
      (loc = 0 ∧ inst < 18) ∨ (loc = 1 ∧ inst < 4) ∨ (loc = 2 ∧ inst < 8) → s.ownerIdx (d.p 0) = some o → s.bpm.owners.any (fun e => e.1 == o) = true → s.isOwner d.fn = true ∨ (s.bufOwner o).fn = d.fn →
      (∀ k, c = some k → s.quotaFull o k = true → Gives (.bufAlloc d) s ((s.bump Fld.BPM_CNT_QUOTA_COUNT).adminFail d St.quota)) ∧
      (∀ k, c = some k → s.quotaFull o k = false → s.bpm.regions = [] → Gives (.bufAlloc d) s ((s.bump Fld.BPM_CNT_NO_BUFFER_COUNT).adminFail d St.noBuffer)) ∧
      (∀ k id u, c = some k → s.allocBuffer o k loc inst = (u, .inl id) → Gives (.bufAlloc d) s (u.adminOk d (match u.regionOf id with | some (_, r) => r.dataAt id | none => 0) id)) ∧
      (∀ k st u, c = some k → s.allocBuffer o k loc inst = (u, .inr st) → Gives (.bufAlloc d) s (u.adminFail d st)) ∧
      (c = none → (s.bufOwner o).closing = none → Gives (.bufAlloc d) s ((s.bump Fld.BPM_CNT_NO_BUFFER_COUNT).adminFail d St.noBuffer))) ∧
    (∀ id rest n r k, s.quotaFull o (d.p 1 % 8) = false → k = pairKey (d.p 1 % 8) 0 0 → (s.pair k).stock = id :: rest → s.regionOf id = some (n, r) → r.key = k → r.loc = 0 → r.inst = 0 → r ∈ s.bpm.regions.map (·.2) →
      ∃ u, s.allocBuffer o (d.p 1 % 8) 0 0 = (u, .inl id) ∧ (u.pair k).stock = rest ∧ (u.bufOwner o).counts = addAt (s.bufOwner o).counts (d.p 1 % 8) 1) ∧
    (∀ n r, Accepted s d 0x47 → s.refFault (d.p 0) (some d.fn) = none → s.regionOf (d.p 0) = some (n, r) → (s.header r (d.p 0)).refs < 65535 →
      Gives (.bufRef d) s ((s.putHeader r (d.p 0) { s.header r (d.p 0) with refs := (s.header r (d.p 0)).refs + 1 }).adminOk d)) ∧
    (∀ st, Accepted s d 0x47 → s.refFault (d.p 0) (some d.fn) = some st → Gives (.bufRef d) s ((s.noteRefFault (d.p 0) st (some d.fn)).adminFail d st)) ∧
    (∀ u n st, Accepted s d 0x48 → 0 < d.p 0 → d.p 0 ≤ 64 → s.releaseAll d.fn ((List.range (d.p 0)).map (fun i => leAt buf (4 * i) 4)) = (u, n, st) → Gives (.bufRelease d buf) s (u.adminDone d (st.getD St.success) 0 0 n)) ∧
    (∀ n r, Accepted s d 0x48 → d.p 0 = 1 → s.refFault (leAt buf 0 4) (some d.fn) = none → s.regionOf (leAt buf 0 4) = some (n, r) → (s.header r (leAt buf 0 4)).refs ≤ 1 →
      Gives (.bufRelease d buf) s ((s.freeBuffer n r (leAt buf 0 4) (s.header r (leAt buf 0 4))).adminDone d St.success 0 0 1)) ∧
    (Accepted s d 0x48 → 64 < d.p 0 → Gives (.bufRelease d buf) s (s.adminFail d St.badDescriptor))

/-! ### Storage (chapter 17) -/

/-- Storage connections and their commands. A create takes the lowest free place and wants its SYN sent; a close of a connection that has not begun, or has failed, ends it at once, an abort resets it, and of another closes it; a query writes what the connection is; an expired retransmission timer doubles its time and sends again, or
fails the connection; a delayed acknowledgement is due at its instant; a segment that is damaged is dropped, and another goes to the connection as its TCP state has it; a descriptor takes an OPEN clock of its class, waits at its connection if it breaks no rule, and takes the lowest free CID when it starts, once its in-capsule data is at hand; a segment that waits
to be sent goes into its flow ring. -/
def Obligations.StorageCommands : Prop :=
  ∀ (d : AdminCmd) (buf host : Bytes) (c k at_ : Nat) (s : State),
    (let b := sliceB buf 0 128
     let q := s.queue k
     let l := leAt b 4 1
     ∀ h, Accepted s d 0x60 → stoRecordOk b = true → s.physOf l = some h → (s.flow h (leAt b 6 2)).isSome = true → s.ringKey 1 (leAt b 0 4) d.fn = some k → q.present = true → q.hall = l → q.isRq = false → q.kind = 3 →
      (bitOf (leAt b 5 1) 4 = true → ∃ i, s.resolve 4 (leAt b 0x44 4) = some i ∧ keyRx (s.slot i).attr = true ∧ isEsp (keyType (s.slot i).attr) = true) →
      s.sto.conns.any (fun e => e.2.sq == k) = false → s.sto.conns.length < 4096 →
      s.sto.conns.any (fun e => e.2.hall == l && e.2.flag 0 == bitOf (leAt b 5 1) 0 && sliceB e.2.record 0x18 36 == sliceB b 0x18 36) = false → Gives (.stoConnCreate d buf) s
        ((s.drawn.setConn (((List.range 4096).find? (fun i => (s.conn i).isNone)).getD 0)
          { record := b, fn := q.fn, sq := k, createCmd := some d, iss := s.free % 2 ^ 32, una := s.free % 2 ^ 32, needSyn := true, scale := scaleFor (leAt b 0x42 2 * 1024), cwnd := 0 }).setFld Fld.STO_STATUS_CONNS (s.fld Fld.STO_STATUS_CONNS + 1))) ∧
    (∀ v, s.resolve 6 (d.p 0) = some c → s.conn c = some v → let u := s.setConn c { v with closeCmd := some d }
      (Accepted s d 0x61 → v.state = 3 ∨ (v.tcp = 0 ∧ d.p 1 = 0) → Gives (.stoConnClose d) s (u.connClose c)) ∧
      (Accepted s d 0x61 → v.state ≠ 3 → v.tcp = 0 → d.p 1 = 1 → Gives (.stoConnClose d) s ((u.connFail c 7).connClose c)) ∧
      (∀ h, Accepted s d 0x61 → v.state ≠ 3 → v.tcp ≠ 0 → d.p 1 = 1 → u.physOf v.hall = some h → Gives (.stoConnClose d) s
        ((((u.drawn.flowAppend h v.flow (frameRecord (u.tcpFrame v (u.free % 65536) 0x14 v.nxt [] []) false)).1).connFail c 7).connClose c)) ∧
      (Accepted s d 0x61 → v.state ≠ 3 → v.tcp ≠ 0 → d.p 1 = 0 → Gives (.stoConnClose d) s ((u.setConn c { v with closeCmd := some d, state := 2 }).connFinish c)) ∧
      (Accepted s d 0x62 → s.isOwner d.fn = true ∨ d.fn = v.fn → Gives (.stoConnQuery d) s ((s.adminOut d (leBytes 1 v.state ++ leBytes 1 v.reason ++ leBytes 2 0 ++ leBytes 4 v.cmds.length ++ leBytes 1 v.cpda ++
        leBytes 1 (b2n v.hdgst) ++ leBytes 2 (b2n v.ddgst) ++ leBytes 4 v.maxH2c ++ leBytes 4 v.peerMss ++ leBytes 4 v.retrans ++ leBytes 40 0)).adminOk d))) ∧
    (s.resolve 6 (d.p 0) = none → (Accepted s d 0x61 → Gives (.stoConnClose d) s (s.adminFail d St.badHandle)) ∧ (Accepted s d 0x62 → Gives (.stoConnQuery d) s (s.adminFail d St.badHandle))) ∧
    (∀ v t, s.conn c = some v → v.rtoAt = some t → t < max s.now at_ → v.state ≠ 3 → let u := s.atTime at_
      (s.fld Fld.STO_CFG_RETRIES ≤ v.retries + 1 → Gives (.rtoExpiry c at_) s (u.connFail c 2)) ∧
      (v.retries + 1 < s.fld Fld.STO_CFG_RETRIES → let w := { v with retries := v.retries + 1, rto := min 60000000 (2 * v.rto), timed := none, recovering := false, dups := 0, rtoAt := some (max s.now at_ + min 60000000 (2 * v.rto) * 1000 * 65536) }
        (v.tcp = 0 → Gives (.rtoExpiry c at_) s (u.setConn c { w with needSyn := true })) ∧
        (v.tcp ≠ 0 → Gives (.rtoExpiry c at_) s (u.setConn c { w with ssthresh := max (sub32 v.nxt v.una / 2) (2 * max 1 v.smss), cwnd := max 1 v.smss, sent := 0, needFin := decide (v.tcp = 2), rexmit := decide (v.outq ≠ []) })))) ∧
    (∀ v t, s.conn c = some v → v.ackAt = some t → t < max s.now at_ → Gives (.delayedAck c at_) s ((s.atTime at_).setConn c { v with needAck := true })) ∧
    (∀ v b rest, s.conn c = some v → s.sto.rx.get [] c = b :: rest → let u := { s.atTime at_ with sto := { s.sto with rx := s.sto.rx.put c rest } }
      let whole := 20 ≤ segHdr b ∧ segHdr b ≤ b.length ∧ onesSum (v.pseudo false b.length ++ b) 0 = 0xFFFF
      (¬ whole ∨ v.state = 3 → Gives (.stoSegmentRx c at_) s u) ∧
      (whole → v.state ≠ 3 → v.tcp = 0 → Gives (.stoSegmentRx c at_) s (u.synSent c v b)) ∧
      (whole → v.state ≠ 3 → v.tcp ≠ 0 → Gives (.stoSegmentRx c at_) s (u.segIn c v b)) ∧
      (bitOf (beAt b 13 1) 4 = false → bitOf (beAt b 13 1) 2 = false → u.synSent c v b = u) ∧
      (bitOf (beAt b 13 1) 4 = true → bitOf (beAt b 13 1) 2 = true → beAt b 8 4 = add32 v.iss 1 → u.synSent c v b = u.connFail c 3)) ∧
    (let q := s.queue k
     ∀ e rest u, q.ready = e :: rest → q.present = true → q.isRq = false → q.kind = 3 → k < 65536 →
      let t := s.atTime at_
      t.openTurn (t.servingHall q) (t.stoClass (t.servingHall q)) q.fn = some u → let w := u.setQueue k { q with ready := rest }
      (∀ dt st, w.stoCheck k q.fn e.bytes = some (dt, st) → Gives (.stoCommandFetch k at_) s (w.descDone k e.idx ⟨e.cookie, e.batchEnd, st, dt, 0, 0, 0, 0⟩)) ∧
      (∀ v, w.stoCheck k q.fn e.bytes = none → w.sto.conns.find? (fun x => x.2.sq == k) = some (c, v) → Gives (.stoCommandFetch k at_) s (w.setConn c { v with waiting := v.waiting ++ [e] }))) ∧
    (∀ e rest v cid h, s.conn c = some v → v.waiting = e :: rest → (List.range v.depth).find? (fun i => !v.cmds.any (fun m => m.cid == i)) = some cid → s.physOf v.hall = some h → v.state = 1 ∨ v.state = 2 →
      let t := s.atTime at_
      (∀ u, t.stoReady h c (stoArg 65536 e.idx) v e.bytes 0 (if stoInCap e.bytes then stoLen e.bytes else 0) = (u, true) → Gives (.stoCommandStart c host at_) s (u.stoStart h c v e rest cid host)) ∧
      (∀ u, t.stoReady h c (stoArg 65536 e.idx) v e.bytes 0 (if stoInCap e.bytes then stoLen e.bytes else 0) = (u, false) → Gives (.stoCommandStart c host at_) s u) ∧
      (stoHost e.bytes = true → stoInCap e.bytes = false → Gives (.stoCommandStart c host at_) s
        (((t.setConn c { v with waiting := rest }).setConn c { v with waiting := rest, cmds := v.cmds ++ [{ cid := cid, desc := e, moved := 0 }] }).pduOut c 4 0 (stoSqe e.bytes cid) []))) ∧
    (∀ v h, s.conn c = some v → s.physOf v.hall = some h → s.running h = true →
      let u := if v.state ≤ 2 ∧ v.outq.length < v.sent + v.smss + 1 then (s.atTime at_).answerR2t c v host else s.atTime at_
      let x := (u.conn c).getD v
      ∀ fl seq opts pay w t, u.nextSegment x = some (fl, seq, opts, pay, w) → u.flowAppend h x.flow (frameRecord (u.tcpFrame x (u.free % 65536) fl seq opts pay) false) = (t, true) →
      Gives (.segmentEnqueue c host at_) s (((t.drawn.setConn c w).bumpBy Fld.STO_CNT_RETRANS_COUNT (w.retrans - x.retrans)).connClosing c))

/-! ### What every step keeps -/

/-- A step takes one command from the queue, of which nothing else is changed, and keeps both memories canonical. -/
def Obligations.StepsKeepQueueAndMemories : Prop :=
  ∀ (s t : State), Machine.step s = .next t → t.pending = s.pending.drop 1 ∧ (MemoriesCanonical s → MemoriesCanonical t)

/-- After reset both memories are canonical, and the queue is empty. -/
def Obligations.ResetIsCanonical : Prop :=
  MemoriesCanonical State.reset ∧ State.reset.pending = []

/-- Every command completes: in every state, with every operand, exec answers a next state. -/
def Obligations.EveryCommandAnswers : Prop :=
  ∀ (i : Instr) (s : State), ∃ t, Gives i s t
end

