-- ==== Sys2Proof/Laws/Bits.lean ====
section
/-! SUPPORT. What the helpers of Bits.lean do: bit fields of numbers, and the sparse tables. -/

namespace Sys2Proof

/-- A field that was written reads back, cut to its width. -/
theorem bitsOf_putBits_same (w hi lo v : Nat) : bitsOf (putBits w hi lo v) hi lo = v % 2 ^ (hi + 1 - lo) := by
  unfold putBits bitsOf
  have h1 : w / 2 ^ lo % 2 ^ (hi + 1 - lo) * 2 ^ lo ≤ w := by
    calc w / 2 ^ lo % 2 ^ (hi + 1 - lo) * 2 ^ lo ≤ w / 2 ^ lo * 2 ^ lo := Nat.mul_le_mul_right _ (Nat.mod_le _ _)
      _ ≤ w := Nat.div_mul_le_self _ _
  have hp : 0 < 2 ^ lo := Nat.two_pow_pos lo
  have hq : 0 < 2 ^ (hi + 1 - lo) := Nat.two_pow_pos _
  have h2 : w - w / 2 ^ lo % 2 ^ (hi + 1 - lo) * 2 ^ lo = w % 2 ^ lo + 2 ^ lo * (2 ^ (hi + 1 - lo) * (w / 2 ^ lo / 2 ^ (hi + 1 - lo))) := by
    have e1 := Nat.div_add_mod w (2 ^ lo)
    have e2 := Nat.div_add_mod (w / 2 ^ lo) (2 ^ (hi + 1 - lo))
    have e3 : 2 ^ lo * (w / 2 ^ lo) = 2 ^ lo * (2 ^ (hi + 1 - lo) * (w / 2 ^ lo / 2 ^ (hi + 1 - lo))) + w / 2 ^ lo % 2 ^ (hi + 1 - lo) * 2 ^ lo := by
      conv => lhs; rw [← e2]
      ring
    omega
  rw [h2]
  have h3 : w % 2 ^ lo + 2 ^ lo * (2 ^ (hi + 1 - lo) * (w / 2 ^ lo / 2 ^ (hi + 1 - lo))) + v % 2 ^ (hi + 1 - lo) * 2 ^ lo
      = w % 2 ^ lo + 2 ^ lo * (2 ^ (hi + 1 - lo) * (w / 2 ^ lo / 2 ^ (hi + 1 - lo)) + v % 2 ^ (hi + 1 - lo)) := by ring
  rw [h3, Nat.add_mul_div_left _ _ hp, Nat.div_eq_of_lt (Nat.mod_lt _ hp), Nat.zero_add, Nat.mul_add_mod, Nat.mod_mod]

/-- A number as bits: replacing a field leaves every bit outside it. -/
theorem testBit_putBits (w hi lo v i : Nat) (h : lo ≤ hi) :
    (putBits w hi lo v).testBit i = if lo ≤ i ∧ i ≤ hi then v.testBit (i - lo) else w.testBit i := by
  have hp : 0 < 2 ^ lo := Nat.two_pow_pos lo
  have hle : w / 2 ^ lo % 2 ^ (hi + 1 - lo) * 2 ^ lo ≤ w :=
    (Nat.mul_le_mul_right _ (Nat.mod_le _ _)).trans (Nat.div_mul_le_self _ _)
  have hsplit : w = w % 2 ^ lo + 2 ^ lo * (w / 2 ^ lo % 2 ^ (hi + 1 - lo) + 2 ^ (hi + 1 - lo) * (w / 2 ^ lo / 2 ^ (hi + 1 - lo))) := by
    rw [Nat.mod_add_div, Nat.mod_add_div]
  have hput : putBits w hi lo v = 2 ^ lo * (2 ^ (hi + 1 - lo) * (w / 2 ^ lo / 2 ^ (hi + 1 - lo)) + v % 2 ^ (hi + 1 - lo)) + w % 2 ^ lo := by
    unfold putBits bitsOf
    have : w - w / 2 ^ lo % 2 ^ (hi + 1 - lo) * 2 ^ lo = w % 2 ^ lo + 2 ^ lo * (2 ^ (hi + 1 - lo) * (w / 2 ^ lo / 2 ^ (hi + 1 - lo))) := by
      have e3 : 2 ^ lo * (w / 2 ^ lo % 2 ^ (hi + 1 - lo) + 2 ^ (hi + 1 - lo) * (w / 2 ^ lo / 2 ^ (hi + 1 - lo)))
          = w / 2 ^ lo % 2 ^ (hi + 1 - lo) * 2 ^ lo + 2 ^ lo * (2 ^ (hi + 1 - lo) * (w / 2 ^ lo / 2 ^ (hi + 1 - lo))) := by ring
      omega
    rw [this]; ring
  rw [hput, Nat.testBit_two_pow_mul_add _ (Nat.mod_lt _ hp)]
  have hq := Nat.mod_lt v (Nat.two_pow_pos (hi + 1 - lo))
  have hvb : (v % 2 ^ (hi + 1 - lo)).testBit (i - lo) = (decide (i - lo < hi + 1 - lo) && v.testBit (i - lo)) := Nat.testBit_mod_two_pow ..
  by_cases h1 : i < lo
  · have : ¬ (lo ≤ i ∧ i ≤ hi) := by omega
    simp [h1, this, Nat.testBit_mod_two_pow]
  · rw [if_neg h1, Nat.testBit_two_pow_mul_add _ hq]
    by_cases h2 : i ≤ hi
    · have a : i - lo < hi + 1 - lo := by omega
      have b : lo ≤ i ∧ i ≤ hi := by omega
      simp [a, b, hvb]
    · have a : ¬ i - lo < hi + 1 - lo := by omega
      have b : ¬ (lo ≤ i ∧ i ≤ hi) := by omega
      simp only [a, b, if_false]
      rw [Nat.testBit_div_two_pow, Nat.testBit_div_two_pow]
      congr 1; omega

/-- A field beside the one that is written keeps its value. -/
theorem bitsOf_putBits_other (w hi lo v hi' lo' : Nat) (h : lo ≤ hi) (d : hi < lo' ∨ hi' < lo) :
    bitsOf (putBits w hi lo v) hi' lo' = bitsOf w hi' lo' := by
  unfold bitsOf
  apply Nat.eq_of_testBit_eq
  intro i
  rw [Nat.testBit_mod_two_pow, Nat.testBit_mod_two_pow, Nat.testBit_div_two_pow, Nat.testBit_div_two_pow]
  by_cases hi1 : i < hi' + 1 - lo'
  · rw [testBit_putBits _ _ _ _ _ h]
    have : ¬ (lo ≤ i + lo' ∧ i + lo' ≤ hi) := by omega
    simp [this]
  · simp [hi1]

/-- Writing a field of a word below 2^32 leaves a word below 2^32. -/
theorem putBits_lt (w hi lo v : Nat) (h : lo ≤ hi) (hw : w < 2 ^ 32) (hh : hi < 32) : putBits w hi lo v < 2 ^ 32 := by
  apply Nat.lt_pow_two_of_testBit
  intro i hi2
  rw [testBit_putBits _ _ _ _ _ h]
  have : ¬ (lo ≤ i ∧ i ≤ hi) := by omega
  rw [if_neg this]
  exact Nat.testBit_lt_two_pow (hw.trans_le (Nat.pow_le_pow_right (by omega) hi2))

namespace Tbl

variable {α : Type} (d v : α) (t : Tbl α) (k j : Nat)

/-- What was written at a key is read there. -/
@[simp] theorem get_put_same : (t.put k v).get d k = v := by
  induction t with
  | nil => simp [put, get]
  | cons e t ih =>
    obtain ⟨k', v'⟩ := e
    unfold put
    split
    · simp [get]
    · split
      · simp [get]
      · next h1 h2 =>
        have : ¬ k' = k := h2
        simp [get, h1, this, ih]

/-- A write leaves every other key as it was. -/
theorem get_put_ne (h : j ≠ k) : (t.put k v).get d j = t.get d j := by
  induction t with
  | nil => simp only [put, get]; split <;> simp_all
  | cons e t ih =>
    obtain ⟨k', v'⟩ := e
    unfold put
    split
    · next h1 =>
      simp only [get]
      by_cases hj : j < k
      · have e1 : ¬ k = j := by omega
        have e2 : ¬ k' = j := by omega
        have e3 : j < k' := by omega
        simp [e1, e2, e3, hj]
      · have e1 : ¬ k = j := by omega
        simp [e1, hj]
    · split
      · next h1 h2 =>
        subst h2
        have e1 : ¬ k' = j := by omega
        simp [get, e1]
      · next h1 h2 =>
        simp [get, ih]

end Tbl

namespace Machine

/-- look, after a write at the same key. -/
@[simp] theorem look_put_same {α : Type} (t : Tbl α) (k : Nat) (v : α) : look (t.put k v) k = some v := by
  induction t with
  | nil => simp [Tbl.put, look]
  | cons e t ih =>
    obtain ⟨k', v'⟩ := e
    unfold Tbl.put
    split
    · simp [look]
    · split
      · simp [look]
      · next h1 h2 =>
        have : ¬ k' = k := h2
        simp [look, h1, this, ih]

/-- look, after a write at another key. -/
theorem look_put_ne {α : Type} (t : Tbl α) (k j : Nat) (v : α) (h : j ≠ k) : look (t.put k v) j = look t j := by
  induction t with
  | nil => simp only [Tbl.put, look]; split <;> simp_all
  | cons e t ih =>
    obtain ⟨k', v'⟩ := e
    unfold Tbl.put
    split
    · next h1 =>
      simp only [look]
      by_cases hj : j < k
      · have e1 : ¬ k = j := by omega
        have e2 : ¬ k' = j := by omega
        have e3 : j < k' := by omega
        simp [e1, e2, e3, hj]
      · have e1 : ¬ k = j := by omega
        simp [e1, hj]
    · split
      · next h1 h2 =>
        subst h2
        have e1 : ¬ k' = j := by omega
        simp [look, e1]
      · next h1 h2 =>
        simp [look, ih]

end Machine

end Sys2Proof
end

