-- ==== Sys2Proof/Laws/Fields.lean ====
section
/-! SUPPORT. Reads of register fields after writes of register fields: the field written, another field of its word, a field of another word. -/

namespace Sys2Proof.Machine

variable (s : State) (r q : Reg) (f g : Fld) (v n o i o' i' : Nat) (w : Word)

/-- A word that was stored is read. -/
@[simp] theorem word_setWord : (s.setWord r w o i).word r o i = w := by simp [State.word, State.setWord]

/-- Storing a word leaves the words at other addresses. -/
theorem word_setWord_ne (h : q.addr o' i' ≠ r.addr o i) :
    (s.setWord r w o i).word q o' i' = s.word q o' i' := by
  simp only [State.word, State.setWord, look_put_ne _ _ _ _ h]

/-- A field that was stored reads back, cut to its width. -/
theorem fld_setFld (h : f.lo ≤ f.hi) (h' : f.hi < 32) : (s.setFld f v o i).fld f o i = v % 2 ^ (f.hi + 1 - f.lo) := by
  have hlt := putBits_lt (s.word f.reg o i).toNat f.hi f.lo v h (s.word f.reg o i).isLt h'
  simp only [State.fld, State.setFld, word_setWord, BitVec.toNat_ofNat, Nat.mod_eq_of_lt hlt, bitsOf_putBits_same]

/-- A field of the same word that does not overlap keeps its value. -/
theorem fld_setFld_word (hr : g.reg = f.reg) (h : f.lo ≤ f.hi) (h' : f.hi < 32) (d : f.hi < g.lo ∨ g.hi < f.lo) :
    (s.setFld f v o i).fld g o i = s.fld g o i := by
  have hlt := putBits_lt (s.word f.reg o i).toNat f.hi f.lo v h (s.word f.reg o i).isLt h'
  simp only [State.fld, State.setFld, hr, word_setWord, BitVec.toNat_ofNat, Nat.mod_eq_of_lt hlt, bitsOf_putBits_other _ _ _ _ _ _ h d]

/-- A field of a word at another address keeps its value. -/
theorem fld_setFld_ne (h : g.reg.addr o' i' ≠ f.reg.addr o i) : (s.setFld f v o i).fld g o' i' = s.fld g o' i' := by
  simp only [State.fld, State.setFld, State.word, State.setWord, look_put_ne _ _ _ _ h]

/-- Fields are read from the registers alone. -/
theorem fld_congr {t : State} (h : t.regs = s.regs) : t.fld f o i = s.fld f o i := by simp only [State.fld, State.word, h]

theorem flag_congr {t : State} (h : t.regs = s.regs) : t.flag f o i = s.flag f o i := by simp only [State.flag, fld_congr s f o i h]

end Sys2Proof.Machine
end

