-- ==== Sys2Proof/Laws/Memory.lean ====
section
/-! SUPPORT. Laws of the sparse memories: reads after writes, and every operation keeps the canonical form. -/

namespace Sys2Proof.Machine.Memory

/-- Being above a bound, one entry at a time. -/
theorem above_cons (b : Option Nat) (a : Nat) (v : Byte) (t : Memory) :
    above b ((a, v) :: t) = true ↔ (∀ x, b = some x → x < a) ∧ v ≠ blank ∧ above (some a) t = true := by
  cases b <;> simp [above, and_assoc]

/-- A memory above a bound is above every lower one. -/
theorem above_weaken {m : Memory} {x y : Nat} (h : y ≤ x) (hm : above (some x) m = true) : above (some y) m = true := by
  cases m with
  | nil => rfl
  | cons c t =>
    obtain ⟨a, v⟩ := c
    rw [above_cons] at hm ⊢
    exact ⟨fun z hz => by have := hm.1 x rfl; simp only [Option.some.injEq] at hz; omega, hm.2⟩

/-- A memory above some bound is canonical. -/
theorem above_none {m : Memory} {b : Option Nat} (hm : above b m = true) : above none m = true := by
  cases m with
  | nil => rfl
  | cons c t => obtain ⟨a, v⟩ := c; rw [above_cons] at hm ⊢; exact ⟨fun _ h => (Option.some_ne_none _ h.symm).elim, hm.2⟩

/-- A write above a bound stays above it. -/
theorem above_write {m : Memory} {b : Option Nat} {a : Nat} {v : Byte} (hm : above b m = true) (ha : ∀ x, b = some x → x < a) :
    above b (m.write a v) = true := by
  induction m generalizing b with
  | nil =>
    unfold write
    split
    · rfl
    · rw [above_cons]; exact ⟨ha, ‹_›, rfl⟩
  | cons c t ih =>
    obtain ⟨a', v'⟩ := c
    rw [above_cons] at hm
    unfold write
    split
    · split
      · rw [above_cons]; exact hm
      · rw [above_cons, above_cons]
        exact ⟨ha, ‹_›, fun x hx => by simp only [Option.some.injEq] at hx; omega, hm.2⟩
    · split
      · split
        · cases b with
          | none => exact above_none hm.2.2
          | some x => exact above_weaken (Nat.le_of_lt (hm.1 x rfl)) hm.2.2
        · subst_vars; rw [above_cons]; exact ⟨hm.1, ‹_›, hm.2.2⟩
      · rw [above_cons]
        exact ⟨hm.1, hm.2.1, ih hm.2.2 fun x hx => by simp only [Option.some.injEq] at hx; omega⟩

/-- A write keeps the canonical form. -/
theorem wf_write {m : Memory} (hm : m.wf = true) (a : Nat) (v : Byte) : (m.write a v).wf = true :=
  above_write hm fun _ h => (Option.some_ne_none _ h.symm).elim

/-- A write of several bytes keeps the canonical form. -/
theorem wf_writeN {m : Memory} (hm : m.wf = true) (a : Nat) (b : Bytes) : (m.writeN a b).wf = true := by
  induction b generalizing m a with
  | nil => exact hm
  | cons v t ih => exact ih (wf_write hm a v) (a + 1)

/-- What a filter leaves of a memory above a bound is above it. -/
theorem above_filter {m : Memory} {b : Option Nat} (p : Host.Cell → Bool) (hm : above b m = true) : above b (m.filter p) = true := by
  induction m generalizing b with
  | nil => exact hm
  | cons c t ih =>
    obtain ⟨a, v⟩ := c
    rw [above_cons] at hm
    rw [List.filter_cons]
    split
    · rw [above_cons]; exact ⟨hm.1, hm.2.1, ih hm.2.2⟩
    · cases b with
      | none => exact above_none (ih hm.2.2)
      | some x => exact above_weaken (Nat.le_of_lt (hm.1 x rfl)) (ih hm.2.2)

/-- Forgetting a range keeps the canonical form. -/
theorem wf_clear {m : Memory} (hm : m.wf = true) (lo hi : Nat) : (m.clear lo hi).wf = true := above_filter _ hm

/-- The empty memory is canonical. -/
theorem wf_nil : Memory.wf [] = true := rfl

/-- Below its first entry a memory reads blank. -/
theorem read_below {m : Memory} {b a : Nat} (hm : above (some b) m = true) (h : a ≤ b) : m.read a = blank := by
  cases m with
  | nil => rfl
  | cons c t =>
    obtain ⟨a', v⟩ := c
    rw [above_cons] at hm
    have := hm.1 b rfl
    unfold read
    rw [if_neg (by omega), if_pos (by omega)]

/-- A byte written reads back. -/
theorem read_write_same {m : Memory} (hm : m.wf = true) (a : Nat) (v : Byte) : (m.write a v).read a = v := by
  suffices ∀ b, above b m = true → (m.write a v).read a = v from this none hm
  intro b hb
  clear hm
  induction m generalizing b with
  | nil => unfold write; split <;> simp_all [read]
  | cons c t ih =>
    obtain ⟨a', v'⟩ := c
    rw [above_cons] at hb
    unfold write
    split
    · split
      · subst_vars; unfold read; rw [if_neg (by omega), if_pos ‹_›]
      · simp [read]
    · split
      · split
        · subst_vars; exact read_below hb.2.2 (Nat.le_refl _)
        · simp [read]
      · unfold read; rw [if_neg ‹_›, if_neg ‹_›]; exact ih _ hb.2.2

/-- A write leaves every other byte as it was. -/
theorem read_write_ne {m : Memory} (hm : m.wf = true) {a x : Nat} (v : Byte) (h : x ≠ a) : (m.write a v).read x = m.read x := by
  suffices ∀ b, above b m = true → (m.write a v).read x = m.read x from this none hm
  intro b hb
  clear hm
  induction m generalizing b with
  | nil => unfold write; split <;> simp [read]; omega
  | cons c t ih =>
    obtain ⟨a', v'⟩ := c
    rw [above_cons] at hb
    unfold write
    split
    · split
      · rfl
      · simp only [read]
        rw [if_neg (Ne.symm h)]
        split
        · rw [if_neg (by omega), if_pos (by omega)]
        · rfl
    · split
      · subst_vars
        split
        · simp only [read]
          rw [if_neg (Ne.symm h)]
          split
          · exact read_below hb.2.2 (by omega)
          · rfl
        · simp only [read, if_neg (Ne.symm h)]
      · simp only [read]
        rw [ih _ hb.2.2]

end Sys2Proof.Machine.Memory
end

