-- ==== Sys2Proof/Laws/KeepsBase.lean ====
section
/-! SUPPORT. What no command can do: every operation leaves the queue as it was and keeps both memories canonical. -/

namespace Sys2Proof.Machine

/-- From one state to another the queue is as it was, and memories that were canonical are. -/
structure Keeps (z s : State) : Prop where
  queue : s.pending = z.pending
  memories : MemoriesCanonical z → MemoriesCanonical s

theorem Keeps.refl (s : State) : Keeps s s := ⟨rfl, id⟩

/-- Nothing within a state needs a look. -/
@[congr] theorem Keeps.congr (z s : State) : Keeps z s = Keeps z s := rfl

/-- An update of other fields keeps what its source keeps. -/
theorem Keeps.update {z s : State} {a0 : Tbl Word} {a1 : Tbl Word} {a2 : Tbl Word} {a3 : Nat} {a4 : Nat} {a5 : TimeSt} {a6 : WqSt} {a7 : SicSt} {a8 : OwnSt} {a9 : FltSt} {a10 : EpSt} {a11 : VfnSt} {a12 : PlnSt} {a13 : Tbl SeqSt} {a14 : GalSt} {a15 : Tbl (List StageRec)} {a16 : Tbl (Nat × Nat)} {a17 : BpmSt} {a18 : List Nat} {a19 : LnSt} {a20 : Tbl LandSt} {a21 : Tbl RCore} {a22 : Tbl (Nat × Nat)} {a23 : List (AdminCmd × Option (Nat × Nat))} {a24 : DmaSt} {a25 : Tbl (List TblJob)} {a26 : CycSt} {a27 : KeySt} {a28 : Tbl CphSt} {a29 : FwdSt} {a30 : StoSt} {a31 : BaroSt} {a32 : PkgSt} {a33 : List HallAccess} {a34 : List Out} :
    Keeps z (State.mk a0 a1 a2 a3 a4 a5 a6 a7 a8 a9 a10 a11 a12 a13 a14 a15 a16 s.alcove s.atrium a17 a18 a19 a20 a21 a22 a23 a24 a25 a26 a27 a28 a29 a30 a31 a32 a33 a34 s.pending) ↔ Keeps z s := ⟨fun h => ⟨h.queue, h.memories⟩, fun h => ⟨h.queue, h.memories⟩⟩

/-- So does one that empties the Atrium, and one that starts afresh with empty memories and takes the queue over. -/
theorem Keeps.powerDown {z s : State} {a0 : Tbl Word} {a1 : Tbl Word} {a2 : Tbl Word} {a3 : Nat} {a4 : Nat} {a5 : TimeSt} {a6 : WqSt} {a7 : SicSt} {a8 : OwnSt} {a9 : FltSt} {a10 : EpSt} {a11 : VfnSt} {a12 : PlnSt} {a13 : Tbl SeqSt} {a14 : GalSt} {a15 : Tbl (List StageRec)} {a16 : Tbl (Nat × Nat)} {a17 : BpmSt} {a18 : List Nat} {a19 : LnSt} {a20 : Tbl LandSt} {a21 : Tbl RCore} {a22 : Tbl (Nat × Nat)} {a23 : List (AdminCmd × Option (Nat × Nat))} {a24 : DmaSt} {a25 : Tbl (List TblJob)} {a26 : CycSt} {a27 : KeySt} {a28 : Tbl CphSt} {a29 : FwdSt} {a30 : StoSt} {a31 : BaroSt} {a32 : PkgSt} {a33 : List HallAccess} {a34 : List Out} (h : Keeps z s) :
    Keeps z (State.mk a0 a1 a2 a3 a4 a5 a6 a7 a8 a9 a10 a11 a12 a13 a14 a15 a16 s.alcove [] a17 a18 a19 a20 a21 a22 a23 a24 a25 a26 a27 a28 a29 a30 a31 a32 a33 a34 s.pending) := ⟨h.queue, fun c => ⟨(h.memories c).1, rfl⟩⟩
theorem Keeps.fresh {z s : State} {a0 : Tbl Word} {a1 : Tbl Word} {a2 : Tbl Word} {a3 : Nat} {a4 : Nat} {a5 : TimeSt} {a6 : WqSt} {a7 : SicSt} {a8 : OwnSt} {a9 : FltSt} {a10 : EpSt} {a11 : VfnSt} {a12 : PlnSt} {a13 : Tbl SeqSt} {a14 : GalSt} {a15 : Tbl (List StageRec)} {a16 : Tbl (Nat × Nat)} {a17 : BpmSt} {a18 : List Nat} {a19 : LnSt} {a20 : Tbl LandSt} {a21 : Tbl RCore} {a22 : Tbl (Nat × Nat)} {a23 : List (AdminCmd × Option (Nat × Nat))} {a24 : DmaSt} {a25 : Tbl (List TblJob)} {a26 : CycSt} {a27 : KeySt} {a28 : Tbl CphSt} {a29 : FwdSt} {a30 : StoSt} {a31 : BaroSt} {a32 : PkgSt} {a33 : List HallAccess} {a34 : List Out} (h : Keeps z s) :
    Keeps z (State.mk a0 a1 a2 a3 a4 a5 a6 a7 a8 a9 a10 a11 a12 a13 a14 a15 a16 [] [] a17 a18 a19 a20 a21 a22 a23 a24 a25 a26 a27 a28 a29 a30 a31 a32 a33 a34 s.pending) := ⟨h.queue, fun _ => ⟨rfl, rfl⟩⟩

theorem Keeps.alcove {z s : State} {m : Memory} (h : Keeps z s) (w : Memory.wf s.alcove = true → Memory.wf m = true) : Keeps z { s with alcove := m } :=
  ⟨h.queue, fun c => ⟨w (h.memories c).1, (h.memories c).2⟩⟩
theorem Keeps.atrium {z s : State} {m : Memory} (h : Keeps z s) (w : Memory.wf s.atrium = true → Memory.wf m = true) : Keeps z { s with atrium := m } :=
  ⟨h.queue, fun c => ⟨(h.memories c).1, w (h.memories c).2⟩⟩

theorem Keeps.ite {z s t : State} {c : Prop} [Decidable c] (h : Keeps z s) (k : Keeps z t) : Keeps z (if c then s else t) := by split <;> assumption

/-- A fold whose step keeps. -/
theorem Keeps.foldl {z : State} {α : Type} (f : State → α → State) (hf : ∀ s a, Keeps z s → Keeps z (f s a)) (l : List α) : ∀ s, Keeps z s → Keeps z (l.foldl f s) := by
  induction l with
  | nil => exact fun _ h => h
  | cons a t ih => exact fun s h => ih _ (hf s a h)

/-- An answer, and a state that may be absent, whose state keeps. -/
def KeepsNext (z : State) : Answer → Prop
  | .next s => Keeps z s
  | _ => True
def KeepsSome (z : State) : Option State → Prop
  | some s => Keeps z s
  | none => True
@[congr] theorem KeepsNext.congr (z : State) (o : Answer) : KeepsNext z o = KeepsNext z o := rfl
@[congr] theorem KeepsSome.congr (z : State) (o : Option State) : KeepsSome z o = KeepsSome z o := rfl
theorem KeepsNext.next {z s : State} (h : Keeps z s) : KeepsNext z (.next s) := h
theorem KeepsNext.ite {z : State} {s t : Answer} {c : Prop} [Decidable c] (h : KeepsNext z s) (k : KeepsNext z t) : KeepsNext z (if c then s else t) := by split <;> assumption
theorem KeepsSome.some {z s : State} (h : Keeps z s) : KeepsSome z (some s) := h
theorem KeepsSome.none {z : State} : KeepsSome z none := trivial
theorem KeepsSome.ite {z : State} {s t : Option State} {c : Prop} [Decidable c] (h : KeepsSome z s) (k : KeepsSome z t) : KeepsSome z (if c then s else t) := by split <;> assumption
theorem KeepsSome.of_eq {z s : State} {o : Option State} (e : o = Option.some s) (h : KeepsSome z o) : Keeps z s := by subst e; exact h

/-- A state or something else: the state keeps. -/
def KeepsLeft {α : Type} (z : State) : State ⊕ α → Prop
  | .inl s => Keeps z s
  | .inr _ => True
@[congr] theorem KeepsLeft.congr {α : Type} (z : State) (o : State ⊕ α) : KeepsLeft z o = KeepsLeft z o := rfl
theorem KeepsLeft.left {α : Type} {z s : State} (h : Keeps z s) : KeepsLeft (α := α) z (.inl s) := h
theorem KeepsLeft.right {α : Type} {z : State} {a : α} : KeepsLeft z (.inr a) := trivial
theorem KeepsLeft.ite {α : Type} {z : State} {s t : State ⊕ α} {c : Prop} [Decidable c] (h : KeepsLeft z s) (k : KeepsLeft z t) : KeepsLeft z (if c then s else t) := by split <;> assumption
theorem KeepsLeft.of_eq {α : Type} {z s : State} {o : State ⊕ α} (e : o = .inl s) (h : KeepsLeft z o) : Keeps z s := by subst e; exact h

/-- A pair whose state keeps. -/
def KeepsFst {α : Type} (z : State) (p : State × α) : Prop := Keeps z p.1
@[congr] theorem KeepsFst.congr {α : Type} (z : State) (p : State × α) : KeepsFst z p = KeepsFst z p := rfl
theorem KeepsFst.pair {α : Type} {z s : State} {x : α} : KeepsFst z (s, x) ↔ Keeps z s := Iff.rfl
theorem KeepsFst.first {α : Type} {z : State} {p : State × α} (h : KeepsFst z p) : Keeps z p.1 := h
theorem KeepsFst.ite {α : Type} {z : State} {s t : State × α} {c : Prop} [Decidable c] (h : KeepsFst z s) (k : KeepsFst z t) : KeepsFst z (if c then s else t) := by split <;> assumption
theorem Keeps.fst {z t : State} {α : Type} {p : State × α} {x : α} (e : p = (t, x)) (h : KeepsFst z p) : Keeps z t := by subst e; exact h
theorem KeepsFst.foldl {α β : Type} {z : State} (f : State × α → β → State × α) (hf : ∀ s a, KeepsFst z s → KeepsFst z (f s a)) (l : List β) : ∀ s, KeepsFst z s → KeepsFst z (l.foldl f s) := by
  induction l with
  | nil => exact fun _ h => h
  | cons a t ih => exact fun s h => ih _ (hf s a h)

end Sys2Proof.Machine
end

