-- ==== Sys2Proof/Laws/KeepsQueues.lean ====
section
/-! SUPPORT. The operations of queues, admin rings, interrupts, ownership, the almanac and functions keep the queue and both memories' form: one lemma each. -/

namespace Sys2Proof.Machine

theorem State.setWord_keeps {z : State} (s : State) (r : Reg) (v : Word) (o : optParam Nat 0) (i : optParam Nat 0) : Keeps z s → Keeps z (State.setWord s r v o i) := by
  intro h0
  unfold State.setWord
  with_reducible repeat' (first | assumption | intro _ | simp only [Keeps.update] | apply Keeps.ite | apply Keeps.foldl | split)

theorem State.setFld_keeps {z : State} (s : State) (f : Fld) (v : Nat) (o : optParam Nat 0) (i : optParam Nat 0) : Keeps z s → Keeps z (State.setFld s f v o i) := by
  intro h0
  unfold State.setFld
  with_reducible repeat' (first | assumption | intro _ | apply State.setWord_keeps | simp only [Keeps.update] | apply Keeps.ite | apply Keeps.foldl | split)

theorem State.raise_keeps {z : State} (s : State) (f : Fld) (o : optParam Nat 0) (i : optParam Nat 0) : Keeps z s → Keeps z (State.raise s f o i) := by
  intro h0
  unfold State.raise
  with_reducible repeat' (first | assumption | intro _ | apply State.setFld_keeps | simp only [Keeps.update] | apply Keeps.ite | apply Keeps.foldl | split)

theorem State.bumpBy_keeps {z : State} (s : State) (f : Fld) (n : Nat) (o : optParam Nat 0) (i : optParam Nat 0) : Keeps z s → Keeps z (State.bumpBy s f n o i) := by
  intro h0
  unfold State.bumpBy
  with_reducible repeat' (first | assumption | intro _ | apply State.setFld_keeps | simp only [Keeps.update] | apply Keeps.ite | apply Keeps.foldl | split)

theorem State.bump_keeps {z : State} (s : State) (f : Fld) (o : optParam Nat 0) (i : optParam Nat 0) : Keeps z s → Keeps z (State.bump s f o i) := by
  intro h0
  unfold State.bump
  with_reducible repeat' (first | assumption | intro _ | apply State.bumpBy_keeps | simp only [Keeps.update] | apply Keeps.ite | apply Keeps.foldl | split)

theorem State.bumpSat_keeps {z : State} (s : State) (f : Fld) (o : optParam Nat 0) (i : optParam Nat 0) : Keeps z s → Keeps z (State.bumpSat s f o i) := by
  intro h0
  unfold State.bumpSat
  with_reducible repeat' (first | assumption | intro _ | apply State.bump_keeps | simp only [Keeps.update] | apply Keeps.ite | apply Keeps.foldl | split)

theorem State.bump64_keeps {z : State} (s : State) (lo : Fld) (hi : Fld) (n : Nat) (o : optParam Nat 0) (i : optParam Nat 0) : Keeps z s → Keeps z (State.bump64 s lo hi n o i) := by
  intro h0
  unfold State.bump64
  conv => zeta
  with_reducible repeat' (first | assumption | intro _ | apply State.setFld_keeps | simp only [Keeps.update] | apply Keeps.ite | apply Keeps.foldl | split)

theorem State.initRange_keeps {z : State} (s : State) (lo : Nat) (hi : Nat) : Keeps z s → Keeps z (State.initRange s lo hi) := by
  intro h0
  unfold State.initRange
  with_reducible repeat' (first | assumption | intro _ | simp only [Keeps.update] | apply Keeps.ite | apply Keeps.foldl | split)

theorem State.atTime_keeps {z : State} (s : State) (t : Nat) : Keeps z s → Keeps z (State.atTime s t) := by
  intro h0
  unfold State.atTime
  with_reducible repeat' (first | assumption | intro _ | simp only [Keeps.update] | apply Keeps.ite | apply Keeps.foldl | split)

theorem State.drawn_keeps {z : State} (s : State) : Keeps z s → Keeps z (State.drawn s) := by
  intro h0
  unfold State.drawn
  with_reducible repeat' (first | assumption | intro _ | simp only [Keeps.update] | apply Keeps.ite | apply Keeps.foldl | split)

theorem State.leave_keeps {z : State} (s : State) (o : Out) : Keeps z s → Keeps z (State.leave s o) := by
  intro h0
  unfold State.leave
  with_reducible repeat' (first | assumption | intro _ | simp only [Keeps.update] | apply Keeps.ite | apply Keeps.foldl | split)

theorem State.emit_keeps {z : State} (s : State) (o : Out) : Keeps z s → Keeps z (State.emit s o) := by
  intro h0
  unfold State.emit
  with_reducible repeat' (first | assumption | intro _ | apply State.leave_keeps | simp only [Keeps.update] | apply Keeps.ite | apply Keeps.foldl | split)

theorem State.nextGen_keeps {z : State} (s : State) (ty : Nat) (i : Nat) : Keeps z s → Keeps z (State.nextGen s ty i) := by
  intro h0
  unfold State.nextGen
  conv => zeta
  with_reducible repeat' (first | assumption | intro _ | simp only [Keeps.update] | apply Keeps.ite | apply Keeps.foldl | split)

theorem State.alm_keeps {z : State} (s : State) (code : Nat) (scope : Nat) (hall : Nat) (srcKind : Nat) (srcIdx : Nat) (payload : Bytes) : Keeps z s → Keeps z (State.alm s code scope hall srcKind srcIdx payload) := by
  intro h0
  unfold State.alm
  with_reducible repeat' (first | assumption | intro _ | apply State.raise_keeps | apply State.bump_keeps | simp only [Keeps.update] | apply Keeps.ite | apply Keeps.foldl | split)

theorem State.almDev_keeps {z : State} (s : State) (code : Nat) (payload : Bytes) : Keeps z s → Keeps z (State.almDev s code payload) := by
  intro h0
  unfold State.almDev
  with_reducible repeat' (first | assumption | intro _ | apply State.alm_keeps | simp only [Keeps.update] | apply Keeps.ite | apply Keeps.foldl | split)

theorem State.almHall_keeps {z : State} (s : State) (code : Nat) (hall : Nat) (payload : Bytes) : Keeps z s → Keeps z (State.almHall s code hall payload) := by
  intro h0
  unfold State.almHall
  with_reducible repeat' (first | assumption | intro _ | apply State.alm_keeps | simp only [Keeps.update] | apply Keeps.ite | apply Keeps.foldl | split)

theorem State.event_keeps {z : State} (s : State) (fn : Nat) (source : Nat) (body : Bytes) (hall : optParam (Option Nat) none) : Keeps z s → Keeps z (State.event s fn source body hall) := by
  intro h0
  unfold State.event
  with_reducible repeat' (first | assumption | intro _ | simp only [Keeps.update] | apply Keeps.ite | apply Keeps.foldl | split)

theorem State.eventOwner_keeps {z : State} (s : State) (source : Nat) (body : Bytes) (hall : optParam (Option Nat) none) : Keeps z s → Keeps z (State.eventOwner s source body hall) := by
  intro h0
  unfold State.eventOwner
  with_reducible repeat' (first | assumption | intro _ | apply State.event_keeps | simp only [Keeps.update] | apply Keeps.ite | apply Keeps.foldl | split)

theorem State.eventPfs_keeps {z : State} (s : State) (source : Nat) (body : Bytes) : Keeps z s → Keeps z (State.eventPfs s source body) := by
  intro h0
  unfold State.eventPfs
  with_reducible repeat' (first | assumption | intro _ | apply State.event_keeps | simp only [Keeps.update] | apply Keeps.ite | apply Keeps.foldl | split)

theorem State.setFn_keeps {z : State} (s : State) (f : Nat) (v : FnSt) : Keeps z s → Keeps z (State.setFn s f v) := by
  intro h0
  unfold State.setFn
  with_reducible repeat' (first | assumption | intro _ | simp only [Keeps.update] | apply Keeps.ite | apply Keeps.foldl | split)

theorem State.setLogBit_keeps {z : State} (s : State) (f : Nat) (k : Nat) : Keeps z s → Keeps z (State.setLogBit s f k) := by
  intro h0
  unfold State.setLogBit
  conv => zeta
  with_reducible repeat' (first | assumption | intro _ | apply State.setFn_keeps | apply State.emit_keeps | simp only [Keeps.update] | apply Keeps.ite | apply Keeps.foldl | split)

theorem State.hostWrite_keeps {z : State} (s : State) (f : Nat) (a : Nat) (b : Bytes) : Keeps z s → Keeps z (State.hostWrite s f a b) := by
  intro h0
  unfold State.hostWrite
  conv => zeta
  with_reducible repeat' (first | assumption | intro _ | apply State.emit_keeps | apply State.setFn_keeps | apply State.setLogBit_keeps | simp only [Keeps.update] | apply Keeps.ite | apply Keeps.foldl | split)

theorem State.setQueue_keeps {z : State} (s : State) (k : Nat) (q : Queue) : Keeps z s → Keeps z (State.setQueue s k q) := by
  intro h0
  unfold State.setQueue
  with_reducible repeat' (first | assumption | intro _ | simp only [Keeps.update] | apply Keeps.ite | apply Keeps.foldl | split)

theorem State.setCq_keeps {z : State} (s : State) (k : Nat) (c : Cq) : Keeps z s → Keeps z (State.setCq s k c) := by
  intro h0
  unfold State.setCq
  with_reducible repeat' (first | assumption | intro _ | simp only [Keeps.update] | apply Keeps.ite | apply Keeps.foldl | split)

theorem State.irqDue_keeps {z : State} (s : State) (fn : Nat) (vec : Nat) : Keeps z s → Keeps z (State.irqDue s fn vec) := by
  intro h0
  unfold State.irqDue
  with_reducible repeat' (first | assumption | intro _ | simp only [Keeps.update] | apply Keeps.ite | apply Keeps.foldl | split)

theorem State.moderate_keeps {z : State} (s : State) (k : Nat) : Keeps z s → Keeps z (State.moderate s k) := by
  intro h0
  unfold State.moderate
  conv => zeta
  with_reducible repeat' (first | assumption | intro _ | apply State.irqDue_keeps | apply State.setCq_keeps | simp only [Keeps.update] | apply Keeps.ite | apply Keeps.foldl | split)

theorem State.markDone_keeps {z : State} (s : State) (r : CRec) : Keeps z s → Keeps z (State.markDone s r) := by
  intro h0
  unfold State.markDone
  with_reducible repeat' (first | assumption | intro _ | apply State.setQueue_keeps | simp only [Keeps.update] | apply Keeps.ite | apply Keeps.foldl | split)

theorem State.cqWrite_keeps {z : State} (s : State) (put : State → Nat → Nat → Bytes → State) (k : Nat) (r : CRec) : Keeps z s → (∀ (x0 : State) (x1 : Nat) (x2 : Nat) (x3 : Bytes), Keeps z x0 → Keeps z (put x0 x1 x2 x3)) → Keeps z (State.cqWrite s put k r) := by
  intro h0 h1
  unfold State.cqWrite
  conv => zeta
  with_reducible repeat' (first | assumption | intro _ | apply h1 | apply State.moderate_keeps | apply State.markDone_keeps | apply State.setCq_keeps | simp only [Keeps.update] | apply Keeps.ite | apply Keeps.foldl | split)

theorem State.setPosts_keeps {z : State} (s : State) (h : Nat) (p : Nat) (l : List Post) : Keeps z s → Keeps z (State.setPosts s h p l) := by
  intro h0
  unfold State.setPosts
  with_reducible repeat' (first | assumption | intro _ | simp only [Keeps.update] | apply Keeps.ite | apply Keeps.foldl | split)

theorem State.addPost_keeps {z : State} (s : State) (h : Nat) (p : Nat) (x : Load) (cls : Nat) (own : Option (Nat × Nat)) : Keeps z s → Keeps z (State.addPost s h p x cls own) := by
  intro h0
  unfold State.addPost
  conv => zeta
  with_reducible repeat' (first | assumption | intro _ | apply State.setPosts_keeps | simp only [Keeps.update] | apply Keeps.ite | apply Keeps.foldl | split)

theorem State.hallWrite_keeps {z : State} (s : State) (h : Nat) (cls : Nat) (own : Option (Nat × Nat)) (f : Nat) (a : Nat) (b : Bytes) : Keeps z s → Keeps z (State.hallWrite s h cls own f a b) := by
  intro h0
  unfold State.hallWrite
  with_reducible repeat' (first | assumption | intro _ | apply State.addPost_keeps | apply State.hostWrite_keeps | simp only [Keeps.update] | apply Keeps.ite | apply Keeps.foldl | split)

theorem State.hostPut_keeps {z : State} (s : State) (f : Nat) (a : Nat) (b : Bytes) : Keeps z s → Keeps z (State.hostPut s f a b) := by
  intro h0
  unfold State.hostPut
  with_reducible repeat' (first | assumption | intro _ | apply State.hostWrite_keeps | apply State.leave_keeps | simp only [Keeps.update] | apply Keeps.ite | apply Keeps.foldl | split)

theorem State.postRecord_keeps {z : State} (s : State) (k : Nat) (h : Nat) (r : CRec) : Keeps z s → Keeps z (State.postRecord s k h r) := by
  intro h0
  unfold State.postRecord
  conv => zeta
  with_reducible repeat' (first | assumption | intro _ | apply State.addPost_keeps | apply State.setCq_keeps | simp only [Keeps.update] | apply Keeps.ite | apply Keeps.foldl | split)

theorem State.endRead_keeps {z : State} (s : State) (h : Nat) (kind : Nat) (key : Nat) (arg : Nat) : Keeps z s → Keeps z (State.endRead s h kind key arg) := by
  intro h0
  unfold State.endRead
  with_reducible repeat' (first | assumption | intro _ | simp only [Keeps.update] | apply Keeps.ite | apply Keeps.foldl | split)

theorem State.forgetPosts_keeps {z : State} (s : State) (gone : Nat → Post → Bool) : Keeps z s → Keeps z (State.forgetPosts s gone) := by
  intro h0
  unfold State.forgetPosts
  conv => zeta
  with_reducible repeat' (first | assumption | intro _ | apply State.setCq_keeps | simp only [Keeps.update] | apply Keeps.ite | apply Keeps.foldl | split)

theorem State.showStage_keeps {z : State} (s : State) (h : Nat) : Keeps z s → Keeps z (State.showStage s h) := by
  intro h0
  unfold State.showStage
  conv => zeta
  with_reducible repeat' (first | assumption | intro _ | apply State.setFld_keeps | simp only [Keeps.update] | apply Keeps.ite | apply Keeps.foldl | split)

theorem State.pauseFeeders_keeps {z : State} (s : State) (k : Nat) (paused : Bool) : Keeps z s → Keeps z (State.pauseFeeders s k paused) := by
  intro h0
  unfold State.pauseFeeders
  with_reducible repeat' (first | assumption | intro _ | simp only [Keeps.update] | apply Keeps.ite | apply Keeps.foldl | split)

theorem State.stage_keeps {z : State} (s : State) (k : Nat) (hall : Nat) (r : CRec) : Keeps z s → Keeps z (State.stage s k hall r) := by
  intro h0
  unfold State.stage
  conv => zeta
  with_reducible repeat' (first | assumption | intro _ | apply State.setCq_keeps | apply State.raise_keeps | apply State.bump_keeps | apply State.pauseFeeders_keeps | apply State.event_keeps | apply State.showStage_keeps | simp only [Keeps.update] | apply Keeps.ite | apply Keeps.foldl | split)

theorem State.cqPost_keeps {z : State} (s : State) (k : Nat) (hall : Nat) (r : CRec) (rsv : Bool) : Keeps z s → Keeps z (State.cqPost s k hall r rsv) := by
  intro h0
  unfold State.cqPost
  conv => zeta
  with_reducible repeat' (first | assumption | intro _ | apply State.setCq_keeps | apply State.postRecord_keeps | apply State.cqWrite_keeps | apply State.hostWrite_keeps | apply State.stage_keeps | simp only [Keeps.update] | apply Keeps.ite | apply Keeps.foldl | split)

theorem State.setLand_keeps {z : State} (s : State) (k : Nat) (l : LandSt) : Keeps z s → Keeps z (State.setLand s k l) := by
  intro h0
  unfold State.setLand
  with_reducible repeat' (first | assumption | intro _ | simp only [Keeps.update] | apply Keeps.ite | apply Keeps.foldl | split)

theorem State.adminDone_keeps {z : State} (s : State) (d : AdminCmd) (status : Nat) (detail : Nat) (opspec : Nat) (info : Nat) : Keeps z s → Keeps z (State.adminDone s d status detail opspec info) := by
  intro h0
  unfold State.adminDone
  conv => zeta
  with_reducible repeat' (first | assumption | intro _ | apply State.setQueue_keeps | apply State.cqPost_keeps | simp only [Keeps.update] | apply Keeps.ite | apply Keeps.foldl | split)

theorem State.adminFail_keeps {z : State} (s : State) (d : AdminCmd) (status : Nat) (detail : optParam Nat 0) : Keeps z s → Keeps z (State.adminFail s d status detail) := by
  intro h0
  unfold State.adminFail
  with_reducible repeat' (first | assumption | intro _ | apply State.adminDone_keeps | simp only [Keeps.update] | apply Keeps.ite | apply Keeps.foldl | split)

theorem State.adminOk_keeps {z : State} (s : State) (d : AdminCmd) (opspec : optParam Nat 0) (info : optParam Nat 0) : Keeps z s → Keeps z (State.adminOk s d opspec info) := by
  intro h0
  unfold State.adminOk
  with_reducible repeat' (first | assumption | intro _ | apply State.adminDone_keeps | simp only [Keeps.update] | apply Keeps.ite | apply Keeps.foldl | split)

theorem State.adminOut_keeps {z : State} (s : State) (d : AdminCmd) (b : Bytes) : Keeps z s → Keeps z (State.adminOut s d b) := by
  intro h0
  unfold State.adminOut
  with_reducible repeat' (first | assumption | intro _ | apply State.hostWrite_keeps | simp only [Keeps.update] | apply Keeps.ite | apply Keeps.foldl | split)

theorem State.unreserve_keeps {z : State} (s : State) (k : Nat) (n : Nat) : Keeps z s → Keeps z (State.unreserve s k n) := by
  intro h0
  unfold State.unreserve
  conv => zeta
  with_reducible repeat' (first | assumption | intro _ | apply State.setCq_keeps | simp only [Keeps.update] | apply Keeps.ite | apply Keeps.foldl | split)

theorem State.unstage_keeps {z : State} (s : State) (k : Nat) : Keeps z s → Keeps z (State.unstage s k) := by
  intro h0
  unfold State.unstage
  conv => zeta
  with_reducible repeat' (first | assumption | intro _ | apply State.forgetPosts_keeps | apply State.setCq_keeps | apply State.showStage_keeps | apply State.pauseFeeders_keeps | simp only [Keeps.update] | apply Keeps.ite | apply Keeps.foldl | split)

theorem State.haltQueues_keeps {z : State} (s : State) (fn : Nat) (touched : Nat → Queue → Bool) : Keeps z s → Keeps z (State.haltQueues s fn touched) := by
  intro h0
  unfold State.haltQueues
  with_reducible repeat' (first | assumption | intro _ | apply State.unstage_keeps | apply State.setQueue_keeps | apply State.unreserve_keeps | simp only [Keeps.update] | apply Keeps.ite | apply Keeps.foldl | split)

theorem State.affect_keeps {z : State} (s : State) (fn : Nat) (scope : Nat) (cause : Nat) (hall : Nat) (seq : Nat) (touched : Nat → Queue → Bool) : Keeps z s → Keeps z (State.affect s fn scope cause hall seq touched) := by
  intro h0
  unfold State.affect
  conv => zeta
  with_reducible repeat' (first | assumption | intro _ | apply State.setFld_keeps | apply State.haltQueues_keeps | apply State.hostWrite_keeps | apply State.event_keeps | simp only [Keeps.update] | apply Keeps.ite | apply Keeps.foldl | split)

theorem State.setFrost_keeps {z : State} (s : State) (h : Nat) (v : Nat) : Keeps z s → Keeps z (State.setFrost s h v) := by
  intro h0
  unfold State.setFrost
  with_reducible repeat' (first | assumption | intro _ | apply State.setFld_keeps | simp only [Keeps.update] | apply Keeps.ite | apply Keeps.foldl | split)

theorem State.thaw_keeps {z : State} (s : State) (h : Nat) : Keeps z s → Keeps z (State.thaw s h) := by
  intro h0
  unfold State.thaw
  conv => zeta
  with_reducible repeat' (first | assumption | intro _ | apply State.bump_keeps | apply State.setFrost_keeps | simp only [Keeps.update] | apply Keeps.ite | apply Keeps.foldl | split)

theorem State.admin_keeps {z : State} (s : State) (d : AdminCmd) (op : Nat) (k : State → State) : Keeps z s → (∀ (x0 : State), Keeps z x0 → Keeps z (k x0)) → Keeps z (State.admin s d op k) := by
  intro h0 h1
  unfold State.admin
  with_reducible repeat' (first | assumption | intro _ | apply h1 | apply State.adminFail_keeps | simp only [Keeps.update] | apply Keeps.ite | apply Keeps.foldl | split)

theorem State.giveBack_keeps {z : State} (s : State) (k : Nat) : Keeps z s → Keeps z (State.giveBack s k) := by
  intro h0
  unfold State.giveBack
  with_reducible repeat' (first | assumption | intro _ | apply State.unreserve_keeps | simp only [Keeps.update] | apply Keeps.ite | apply Keeps.foldl | split)

theorem State.finishDestroy_keeps {z : State} (s : State) (k : Nat) : Keeps z s → Keeps z (State.finishDestroy s k) := by
  intro h0
  unfold State.finishDestroy
  conv => zeta
  with_reducible repeat' (first | assumption | intro _ | apply State.nextGen_keeps | apply State.setQueue_keeps | apply State.adminOk_keeps | apply State.setFld_keeps | simp only [Keeps.update] | apply Keeps.ite | apply Keeps.foldl | split)

theorem State.descWrite_keeps {z : State} (s : State) (k : Nat) (idx : Nat) (r : DoneRec) : Keeps z s → Keeps z (State.descWrite s k idx r) := by
  intro h0
  unfold State.descWrite
  conv => zeta
  with_reducible repeat' (first | assumption | intro _ | apply State.cqPost_keeps | apply State.giveBack_keeps | apply State.setQueue_keeps | simp only [Keeps.update] | apply Keeps.ite | apply Keeps.foldl | split)

theorem State.drainDone_keeps {z : State} (s : State) (k : Nat) (v2 : Nat) : Keeps z s → Keeps z (State.drainDone s k v2) := by
  induction v2 generalizing s k with
  | zero =>
    intro h0
    unfold State.drainDone
    with_reducible repeat' (first | assumption | intro _ | apply State.descWrite_keeps | simp only [Keeps.update] | apply Keeps.ite | apply Keeps.foldl | split)
  | succ n ih =>
    intro h0
    unfold State.drainDone
    with_reducible repeat' (first | assumption | intro _ | apply ih | apply State.descWrite_keeps | simp only [Keeps.update] | apply Keeps.ite | apply Keeps.foldl | split)

theorem State.descDone_keeps {z : State} (s : State) (k : Nat) (idx : Nat) (r : DoneRec) : Keeps z s → Keeps z (State.descDone s k idx r) := by
  intro h0
  unfold State.descDone
  conv => zeta
  with_reducible repeat' (first | assumption | intro _ | apply State.finishDestroy_keeps | apply State.drainDone_keeps | apply State.setQueue_keeps | simp only [Keeps.update] | apply Keeps.ite | apply Keeps.foldl | split)

theorem State.rqSkim_keeps {z : State} (s : State) (k : Nat) (v2 : Nat) : Keeps z s → Keeps z (State.rqSkim s k v2) := by
  induction v2 generalizing s k with
  | zero =>
    intro h0
    unfold State.rqSkim
    conv => zeta
    with_reducible repeat' (first | assumption | intro _ | apply State.descDone_keeps | apply State.setQueue_keeps | simp only [Keeps.update] | apply Keeps.ite | apply Keeps.foldl | split)
  | succ n ih =>
    intro h0
    unfold State.rqSkim
    conv => zeta
    with_reducible repeat' (first | assumption | intro _ | apply ih | apply State.descDone_keeps | apply State.setQueue_keeps | simp only [Keeps.update] | apply Keeps.ite | apply Keeps.foldl | split)

theorem execQueueEntryFetch_keeps {z : State} (k : Nat) (idx : Nat) (entry : Bytes) (at_ : Nat) (s : State) : Keeps z s → KeepsNext z (execQueueEntryFetch k idx entry at_ s) := by
  intro h0
  unfold execQueueEntryFetch
  conv => zeta
  with_reducible repeat' (first | assumption | intro _ | apply State.atTime_keeps | apply State.bump_keeps | apply State.endRead_keeps | apply State.setQueue_keeps | apply State.rqSkim_keeps | apply State.setFn_keeps | apply State.setCq_keeps | apply State.descDone_keeps | apply KeepsNext.next | apply KeepsNext.ite | simp only [Keeps.update] | apply Keeps.ite | apply Keeps.foldl | split)

theorem execStalePhaseTimeout_keeps {z : State} (k : Nat) (at_ : Nat) (s : State) : Keeps z s → KeepsNext z (execStalePhaseTimeout k at_ s) := by
  intro h0
  unfold execStalePhaseTimeout
  conv => zeta
  with_reducible repeat' (first | assumption | intro _ | apply State.atTime_keeps | apply State.raise_keeps | apply State.setQueue_keeps | apply KeepsNext.next | apply KeepsNext.ite | simp only [Keeps.update] | apply Keeps.ite | apply Keeps.foldl | split)

theorem State.dbWake_keeps {z : State} (s : State) (fn : Nat) : Keeps z s → Keeps z (State.dbWake s fn) := by
  intro h0
  unfold State.dbWake
  with_reducible repeat' (first | assumption | intro _ | apply State.thaw_keeps | apply State.setFld_keeps | simp only [Keeps.update] | apply Keeps.ite | apply Keeps.foldl | split)

theorem State.bellIgnored_keeps {z : State} (s : State) : Keeps z s → Keeps z (State.bellIgnored s) := by
  intro h0
  unfold State.bellIgnored
  with_reducible repeat' (first | assumption | intro _ | apply State.bump_keeps | simp only [Keeps.update] | apply Keeps.ite | apply Keeps.foldl | split)

theorem execDoorbellProducer_keeps {z : State} (fn : Nat) (page : Nat) (value : Nat) (s : State) : Keeps z s → KeepsNext z (execDoorbellProducer fn page value s) := by
  intro h0
  unfold execDoorbellProducer
  conv => zeta
  with_reducible repeat' (first | assumption | intro _ | apply State.bellIgnored_keeps | apply State.dbWake_keeps | apply State.setQueue_keeps | apply State.bump_keeps | apply State.raise_keeps | apply State.cqPost_keeps | apply KeepsNext.next | apply KeepsNext.ite | simp only [Keeps.update] | apply Keeps.ite | apply Keeps.foldl | split)

theorem State.drainStaged_keeps {z : State} (s : State) (k : Nat) (v2 : Nat) : Keeps z s → Keeps z (State.drainStaged s k v2) := by
  induction v2 generalizing s k with
  | zero =>
    intro h0
    unfold State.drainStaged
    conv => zeta
    with_reducible repeat' (first | assumption | intro _ | apply State.setCq_keeps | apply State.showStage_keeps | apply State.postRecord_keeps | apply State.cqWrite_keeps | apply State.hostWrite_keeps | apply State.pauseFeeders_keeps | apply State.finishDestroy_keeps | simp only [Keeps.update] | apply Keeps.ite | apply Keeps.foldl | split)
  | succ n ih =>
    intro h0
    unfold State.drainStaged
    conv => zeta
    with_reducible repeat' (first | assumption | intro _ | apply ih | apply State.setCq_keeps | apply State.showStage_keeps | apply State.postRecord_keeps | apply State.cqWrite_keeps | apply State.hostWrite_keeps | apply State.pauseFeeders_keeps | apply State.finishDestroy_keeps | simp only [Keeps.update] | apply Keeps.ite | apply Keeps.foldl | split)

theorem execStagedRecordWrite_keeps {z : State} (k : Nat) (s : State) : Keeps z s → KeepsNext z (execStagedRecordWrite k s) := by
  intro h0
  unfold execStagedRecordWrite
  with_reducible repeat' (first | assumption | intro _ | apply State.drainStaged_keeps | apply KeepsNext.next | apply KeepsNext.ite | simp only [Keeps.update] | apply Keeps.ite | apply Keeps.foldl | split)

theorem execDoorbellConsumer_keeps {z : State} (fn : Nat) (page : Nat) (value : Nat) (s : State) : Keeps z s → KeepsNext z (execDoorbellConsumer fn page value s) := by
  intro h0
  unfold execDoorbellConsumer
  conv => zeta
  with_reducible repeat' (first | assumption | intro _ | apply State.bellIgnored_keeps | apply State.dbWake_keeps | apply State.setCq_keeps | apply State.bump_keeps | apply State.raise_keeps | apply State.pauseFeeders_keeps | apply KeepsNext.next | apply KeepsNext.ite | simp only [Keeps.update] | apply Keeps.ite | apply Keeps.foldl | split)

theorem execDoorbellRearm_keeps {z : State} (fn : Nat) (page : Nat) (value : Nat) (s : State) : Keeps z s → KeepsNext z (execDoorbellRearm fn page value s) := by
  intro h0
  unfold execDoorbellRearm
  conv => zeta
  with_reducible repeat' (first | assumption | intro _ | apply State.bellIgnored_keeps | apply State.setQueue_keeps | apply State.dbWake_keeps | apply State.bump_keeps | apply KeepsNext.next | apply KeepsNext.ite | simp only [Keeps.update] | apply Keeps.ite | apply Keeps.foldl | split)

theorem execCqModerationWrite_keeps {z : State} (fn : Nat) (page : Nat) (value : Nat) (s : State) : Keeps z s → KeepsNext z (execCqModerationWrite fn page value s) := by
  intro h0
  unfold execCqModerationWrite
  conv => zeta
  with_reducible repeat' (first | assumption | intro _ | apply State.bellIgnored_keeps | apply State.setCq_keeps | apply KeepsNext.next | apply KeepsNext.ite | simp only [Keeps.update] | apply Keeps.ite | apply Keeps.foldl | split)

theorem State.stallQueue_keeps {z : State} (s : State) (k : Nat) (cqk : Nat) : Keeps z s → Keeps z (State.stallQueue s k cqk) := by
  intro h0
  unfold State.stallQueue
  conv => zeta
  with_reducible repeat' (first | assumption | intro _ | apply State.setQueue_keeps | apply State.showStage_keeps | apply State.setCq_keeps | simp only [Keeps.update] | apply Keeps.ite | apply Keeps.foldl | split)

theorem execCqStallTimeout_keeps {z : State} (k : Nat) (at_ : Nat) (s : State) : Keeps z s → KeepsNext z (execCqStallTimeout k at_ s) := by
  intro h0
  unfold execCqStallTimeout
  conv => zeta
  with_reducible repeat' (first | assumption | intro _ | apply State.atTime_keeps | apply State.stallQueue_keeps | apply State.setCq_keeps | apply State.bump_keeps | apply State.raise_keeps | apply KeepsNext.next | apply KeepsNext.ite | simp only [Keeps.update] | apply Keeps.ite | apply Keeps.foldl | split)

theorem State.resetAdminRings_keeps {z : State} (s : State) (fn : Nat) : Keeps z s → Keeps z (State.resetAdminRings s fn) := by
  intro h0
  unfold State.resetAdminRings
  conv => zeta
  with_reducible repeat' (first | assumption | intro _ | apply State.setFld_keeps | apply State.setCq_keeps | apply State.setQueue_keeps | simp only [Keeps.update] | apply Keeps.ite | apply Keeps.foldl | split)

theorem execAqCfgWrite_keeps {z : State} (who : Who) (fn : Nat) (value : Nat) (s : State) : Keeps z s → KeepsNext z (execAqCfgWrite who fn value s) := by
  intro h0
  unfold execAqCfgWrite
  conv => zeta
  with_reducible repeat' (first | assumption | intro _ | apply State.resetAdminRings_keeps | apply State.setFld_keeps | apply State.setQueue_keeps | apply KeepsNext.next | apply KeepsNext.ite | simp only [Keeps.update] | apply Keeps.ite | apply Keeps.foldl | split)

theorem execAcqCfgWrite_keeps {z : State} (who : Who) (fn : Nat) (value : Nat) (s : State) : Keeps z s → KeepsNext z (execAcqCfgWrite who fn value s) := by
  intro h0
  unfold execAcqCfgWrite
  conv => zeta
  with_reducible repeat' (first | assumption | intro _ | apply State.resetAdminRings_keeps | apply State.setCq_keeps | apply State.setFld_keeps | apply KeepsNext.next | apply KeepsNext.ite | simp only [Keeps.update] | apply Keeps.ite | apply Keeps.foldl | split)

theorem execAdminCommandStart_keeps {z : State} (fn : Nat) (s : State) : Keeps z s → KeepsNext z (execAdminCommandStart fn s) := by
  intro h0
  unfold execAdminCommandStart
  conv => zeta
  with_reducible repeat' (first | assumption | intro _ | apply State.setQueue_keeps | apply State.adminFail_keeps | apply KeepsNext.next | apply KeepsNext.ite | simp only [Keeps.update] | apply Keeps.ite | apply Keeps.foldl | split)

theorem State.setEvWait_keeps {z : State} (s : State) (fn : Nat) (w : EvWait) : Keeps z s → Keeps z (State.setEvWait s fn w) := by
  intro h0
  unfold State.setEvWait
  with_reducible repeat' (first | assumption | intro _ | simp only [Keeps.update] | apply Keeps.ite | apply Keeps.foldl | split)

theorem State.postEvent_keeps {z : State} (s : State) (e : Event) : Keeps z s → Keeps z (State.postEvent s e) := by
  intro h0
  unfold State.postEvent
  conv => zeta
  with_reducible repeat' (first | assumption | intro _ | apply State.cqPost_keeps | apply State.bump_keeps | apply State.setEvWait_keeps | apply State.stage_keeps | simp only [Keeps.update] | apply Keeps.ite | apply Keeps.foldl | split)

theorem execAsyncEventPost_keeps {z : State} (s : State) : Keeps z s → KeepsNext z (execAsyncEventPost s) := by
  intro h0
  unfold execAsyncEventPost
  with_reducible repeat' (first | assumption | intro _ | apply State.postEvent_keeps | apply KeepsNext.next | apply KeepsNext.ite | simp only [Keeps.update] | apply Keeps.ite | apply Keeps.foldl | split)

theorem execEventQueueDrain_keeps {z : State} (fn : Nat) (s : State) : Keeps z s → KeepsNext z (execEventQueueDrain fn s) := by
  intro h0
  unfold execEventQueueDrain
  conv => zeta
  with_reducible repeat' (first | assumption | intro _ | apply State.cqPost_keeps | apply State.setEvWait_keeps | apply KeepsNext.next | apply KeepsNext.ite | simp only [Keeps.update] | apply Keeps.ite | apply Keeps.foldl | split)

theorem execAdminNop_keeps {z : State} (d : AdminCmd) (s : State) : Keeps z s → KeepsNext z (execAdminNop d s) := by
  intro h0
  unfold execAdminNop
  with_reducible repeat' (first | assumption | intro _ | apply State.admin_keeps | apply State.adminOk_keeps | apply KeepsNext.next | apply KeepsNext.ite | simp only [Keeps.update] | apply Keeps.ite | apply Keeps.foldl | split)

theorem State.setPage_keeps {z : State} (s : State) (fn : Nat) (page : Nat) (k : Nat) (isCq : Bool) : Keeps z s → Keeps z (State.setPage s fn page k isCq) := by
  intro h0
  unfold State.setPage
  with_reducible repeat' (first | assumption | intro _ | simp only [Keeps.update] | apply Keeps.ite | apply Keeps.foldl | split)

theorem execQueueCreate_keeps {z : State} (d : AdminCmd) (s : State) : Keeps z s → KeepsNext z (execQueueCreate d s) := by
  intro h0
  unfold execQueueCreate
  conv => zeta
  with_reducible repeat' (first | assumption | intro _ | apply State.admin_keeps | apply State.adminFail_keeps | apply State.setFld_keeps | apply State.setPage_keeps | apply State.setQueue_keeps | apply State.adminOk_keeps | apply KeepsNext.next | apply KeepsNext.ite | simp only [Keeps.update] | apply Keeps.ite | apply Keeps.foldl | split)

theorem State.queueFor_keeps {z : State} (s : State) (d : AdminCmd) (ownerToo : Bool) (k : Nat → State) : Keeps z s → (∀ (x0 : Nat), Keeps z (k x0)) → Keeps z (State.queueFor s d ownerToo k) := by
  intro h0 h1
  unfold State.queueFor
  with_reducible repeat' (first | assumption | intro _ | apply h1 | apply State.adminFail_keeps | simp only [Keeps.update] | apply Keeps.ite | apply Keeps.foldl | split)

theorem execQueueDestroy_keeps {z : State} (d : AdminCmd) (s : State) : Keeps z s → KeepsNext z (execQueueDestroy d s) := by
  intro h0
  unfold execQueueDestroy
  conv => zeta
  with_reducible repeat' (first | assumption | intro _ | apply State.admin_keeps | apply State.queueFor_keeps | apply State.adminFail_keeps | apply State.finishDestroy_keeps | apply State.setQueue_keeps | apply KeepsNext.next | apply KeepsNext.ite | simp only [Keeps.update] | apply Keeps.ite | apply Keeps.foldl | split)

theorem execCqCreate_keeps {z : State} (d : AdminCmd) (s : State) : Keeps z s → KeepsNext z (execCqCreate d s) := by
  intro h0
  unfold execCqCreate
  conv => zeta
  with_reducible repeat' (first | assumption | intro _ | apply State.admin_keeps | apply State.adminFail_keeps | apply State.setCq_keeps | apply State.setFld_keeps | apply State.setPage_keeps | apply State.adminOk_keeps | apply KeepsNext.next | apply KeepsNext.ite | simp only [Keeps.update] | apply Keeps.ite | apply Keeps.foldl | split)

theorem State.cqFor_keeps {z : State} (s : State) (d : AdminCmd) (k : Nat → State) : Keeps z s → (∀ (x0 : Nat), Keeps z (k x0)) → Keeps z (State.cqFor s d k) := by
  intro h0 h1
  unfold State.cqFor
  with_reducible repeat' (first | assumption | intro _ | apply h1 | apply State.adminFail_keeps | simp only [Keeps.update] | apply Keeps.ite | apply Keeps.foldl | split)

theorem execCqDestroy_keeps {z : State} (d : AdminCmd) (s : State) : Keeps z s → KeepsNext z (execCqDestroy d s) := by
  intro h0
  unfold execCqDestroy
  conv => zeta
  with_reducible repeat' (first | assumption | intro _ | apply State.admin_keeps | apply State.cqFor_keeps | apply State.adminFail_keeps | apply State.nextGen_keeps | apply State.setCq_keeps | apply State.adminOk_keeps | apply State.setFld_keeps | apply KeepsNext.next | apply KeepsNext.ite | simp only [Keeps.update] | apply Keeps.ite | apply Keeps.foldl | split)

theorem execQueueQuery_keeps {z : State} (d : AdminCmd) (s : State) : Keeps z s → KeepsNext z (execQueueQuery d s) := by
  intro h0
  unfold execQueueQuery
  conv => zeta
  with_reducible repeat' (first | assumption | intro _ | apply State.admin_keeps | apply State.adminFail_keeps | apply State.adminOk_keeps | apply State.adminOut_keeps | apply State.queueFor_keeps | apply KeepsNext.next | apply KeepsNext.ite | simp only [Keeps.update] | apply Keeps.ite | apply Keeps.foldl | split)

theorem execEvqSet_keeps {z : State} (d : AdminCmd) (s : State) : Keeps z s → KeepsNext z (execEvqSet d s) := by
  intro h0
  unfold execEvqSet
  with_reducible repeat' (first | assumption | intro _ | apply State.admin_keeps | apply State.adminOk_keeps | apply State.setFld_keeps | apply State.cqFor_keeps | apply KeepsNext.next | apply KeepsNext.ite | simp only [Keeps.update] | apply Keeps.ite | apply Keeps.foldl | split)

theorem execHandoffBind_keeps {z : State} (d : AdminCmd) (s : State) : Keeps z s → KeepsNext z (execHandoffBind d s) := by
  intro h0
  unfold execHandoffBind
  with_reducible repeat' (first | assumption | intro _ | apply State.admin_keeps | apply State.adminFail_keeps | apply KeepsNext.next | apply KeepsNext.ite | simp only [Keeps.update] | apply Keeps.ite | apply Keeps.foldl | split)

theorem execHandoffUnbind_keeps {z : State} (d : AdminCmd) (s : State) : Keeps z s → KeepsNext z (execHandoffUnbind d s) := by
  intro h0
  unfold execHandoffUnbind
  with_reducible repeat' (first | assumption | intro _ | apply State.admin_keeps | apply State.adminFail_keeps | apply KeepsNext.next | apply KeepsNext.ite | simp only [Keeps.update] | apply Keeps.ite | apply Keeps.foldl | split)

theorem State.handoffLand_keeps {z : State} (s : State) (e : AdminCmd × Option (Nat × Nat)) : Keeps z s → Keeps z (State.handoffLand s e) := by
  intro h0
  unfold State.handoffLand
  conv => zeta
  with_reducible repeat' (first | assumption | intro _ | apply State.adminOk_keeps | simp only [Keeps.update] | apply Keeps.ite | apply Keeps.foldl | split)

theorem State.setMcore_keeps {z : State} (s : State) (k : Nat) (c : MCore) : Keeps z s → Keeps z (State.setMcore s k c) := by
  intro h0
  unfold State.setMcore
  with_reducible repeat' (first | assumption | intro _ | simp only [Keeps.update] | apply Keeps.ite | apply Keeps.foldl | split)

theorem State.showCore_keeps {z : State} (s : State) (k : Nat) : Keeps z s → Keeps z (State.showCore s k) := by
  intro h0
  unfold State.showCore
  conv => zeta
  with_reducible repeat' (first | assumption | intro _ | apply State.setFld_keeps | simp only [Keeps.update] | apply Keeps.ite | apply Keeps.foldl | split)

theorem State.setLull_keeps {z : State} (s : State) (g : Nat) (l : Lull) : Keeps z s → Keeps z (State.setLull s g l) := by
  intro h0
  unfold State.setLull
  with_reducible repeat' (first | assumption | intro _ | simp only [Keeps.update] | apply Keeps.ite | apply Keeps.foldl | split)

theorem State.deliver_keeps {z : State} (s : State) (n : Nat) (k : Nat) (pc : Nat) : Keeps z s → Keeps z (State.deliver s n k pc) := by
  intro h0
  unfold State.deliver
  conv => zeta
  with_reducible repeat' (first | assumption | intro _ | apply State.showCore_keeps | apply State.setMcore_keeps | apply State.bump_keeps | apply State.raise_keeps | apply State.setLull_keeps | simp only [Keeps.update] | apply Keeps.ite | apply Keeps.foldl | split)

theorem State.arbitrate_keeps {z : State} (accepts : Nat) (pcs : List Nat) (v2 : List Nat) (v3 : List Nat) (v4 : State) : Keeps z v4 → Keeps z (State.arbitrate accepts pcs v2 v3 v4) := by
  induction v2 generalizing accepts pcs v3 v4 with
  | nil =>
    intro h0
    unfold State.arbitrate
    conv => zeta
    with_reducible repeat' (first | assumption | intro _ | apply State.bump_keeps | apply State.setLull_keeps | apply State.deliver_keeps | simp only [Keeps.update] | apply Keeps.ite | apply Keeps.foldl | split)
  | cons a t ih =>
    intro h0
    unfold State.arbitrate
    conv => zeta
    with_reducible repeat' (first | assumption | intro _ | apply ih | apply State.bump_keeps | apply State.setLull_keeps | apply State.deliver_keeps | simp only [Keeps.update] | apply Keeps.ite | apply Keeps.foldl | split)

theorem execSicDeliver_keeps {z : State} (accepts : Nat) (pcs : List Nat) (s : State) : Keeps z s → KeepsNext z (execSicDeliver accepts pcs s) := by
  intro h0
  unfold execSicDeliver
  with_reducible repeat' (first | assumption | intro _ | apply State.arbitrate_keeps | apply KeepsNext.next | apply KeepsNext.ite | simp only [Keeps.update] | apply Keeps.ite | apply Keeps.foldl | split)

theorem execLullExpiry_keeps {z : State} (g : Nat) (at_ : Nat) (accepts : Nat) (pcs : List Nat) (s : State) : Keeps z s → KeepsNext z (execLullExpiry g at_ accepts pcs s) := by
  intro h0
  unfold execLullExpiry
  conv => zeta
  with_reducible repeat' (first | assumption | intro _ | apply State.atTime_keeps | apply State.setFld_keeps | apply State.setLull_keeps | apply State.arbitrate_keeps | apply KeepsNext.next | apply KeepsNext.ite | simp only [Keeps.update] | apply Keeps.ite | apply Keeps.foldl | split)

theorem execSicCoreComplete_keeps {z : State} (who : Who) (core : Nat) (value : Nat) (s : State) : Keeps z s → KeepsNext z (execSicCoreComplete who core value s) := by
  intro h0
  unfold execSicCoreComplete
  conv => zeta
  with_reducible repeat' (first | assumption | intro _ | apply State.showCore_keeps | apply State.setMcore_keeps | apply State.raise_keeps | apply State.bump_keeps | apply KeepsNext.next | apply KeepsNext.ite | simp only [Keeps.update] | apply Keeps.ite | apply Keeps.foldl | split)

theorem State.edgeEvent_keeps {z : State} (s : State) (n : Nat) : Keeps z s → Keeps z (State.edgeEvent s n) := by
  intro h0
  unfold State.edgeEvent
  with_reducible repeat' (first | assumption | intro _ | apply State.bump_keeps | simp only [Keeps.update] | apply Keeps.ite | apply Keeps.foldl | split)

theorem execSicSgi_keeps {z : State} (who : Who) (value : Nat) (s : State) : Keeps z s → KeepsNext z (execSicSgi who value s) := by
  intro h0
  unfold execSicSgi
  with_reducible repeat' (first | assumption | intro _ | apply State.edgeEvent_keeps | apply KeepsNext.next | apply KeepsNext.ite | simp only [Keeps.update] | apply Keeps.ite | apply Keeps.foldl | split)

theorem execSicCoreFlush_keeps {z : State} (who : Who) (core : Nat) (s : State) : Keeps z s → KeepsNext z (execSicCoreFlush who core s) := by
  intro h0
  unfold execSicCoreFlush
  conv => zeta
  with_reducible repeat' (first | assumption | intro _ | apply State.showCore_keeps | apply State.setMcore_keeps | apply KeepsNext.next | apply KeepsNext.ite | simp only [Keeps.update] | apply Keeps.ite | apply Keeps.foldl | split)

theorem execSicSrcPendClear_keeps {z : State} (who : Who) (w : Nat) (value : Nat) (s : State) : Keeps z s → KeepsNext z (execSicSrcPendClear who w value s) := by
  intro h0
  unfold execSicSrcPendClear
  with_reducible repeat' (first | assumption | intro _ | apply KeepsNext.next | apply KeepsNext.ite | simp only [Keeps.update] | apply Keeps.ite | apply Keeps.foldl | split)

theorem State.setPba_keeps {z : State} (s : State) (f : Nat) (v : Nat) : Keeps z s → Keeps z (State.setPba s f v) := by
  intro h0
  unfold State.setPba
  conv => zeta
  with_reducible repeat' (first | assumption | intro _ | apply State.setFn_keeps | simp only [Keeps.update] | apply Keeps.ite | apply Keeps.foldl | split)

theorem State.sendMsix_keeps {z : State} (s : State) (f : Nat) (v : Nat) : Keeps z s → Keeps z (State.sendMsix s f v) := by
  intro h0
  unfold State.sendMsix
  conv => zeta
  with_reducible repeat' (first | assumption | intro _ | apply State.emit_keeps | apply State.setFn_keeps | simp only [Keeps.update] | apply Keeps.ite | apply Keeps.foldl | split)

theorem State.pme_keeps {z : State} (s : State) (f : Nat) : Keeps z s → Keeps z (State.pme s f) := by
  intro h0
  unfold State.pme
  conv => zeta
  with_reducible repeat' (first | assumption | intro _ | apply State.setFn_keeps | apply State.emit_keeps | apply State.raise_keeps | apply State.bump_keeps | apply State.setFld_keeps | simp only [Keeps.update] | apply Keeps.ite | apply Keeps.foldl | split)

theorem State.irq_keeps {z : State} (s : State) (f : Nat) (v : Nat) : Keeps z s → Keeps z (State.irq s f v) := by
  intro h0
  unfold State.irq
  with_reducible repeat' (first | assumption | intro _ | apply State.bump_keeps | apply State.pme_keeps | apply State.setPba_keeps | apply State.sendMsix_keeps | simp only [Keeps.update] | apply Keeps.ite | apply Keeps.foldl | split)

theorem State.sendPending_keeps {z : State} (s : State) (f : Nat) : Keeps z s → Keeps z (State.sendPending s f) := by
  intro h0
  unfold State.sendPending
  with_reducible repeat' (first | assumption | intro _ | apply State.sendMsix_keeps | simp only [Keeps.update] | apply Keeps.ite | apply Keeps.foldl | split)

theorem execInterruptDue_keeps {z : State} (s : State) : Keeps z s → KeepsNext z (execInterruptDue s) := by
  intro h0
  unfold execInterruptDue
  with_reducible repeat' (first | assumption | intro _ | apply State.irq_keeps | apply KeepsNext.next | apply KeepsNext.ite | simp only [Keeps.update] | apply Keeps.ite | apply Keeps.foldl | split)

theorem execCqHoldExpiry_keeps {z : State} (k : Nat) (at_ : Nat) (s : State) : Keeps z s → KeepsNext z (execCqHoldExpiry k at_ s) := by
  intro h0
  unfold execCqHoldExpiry
  conv => zeta
  with_reducible repeat' (first | assumption | intro _ | apply State.atTime_keeps | apply State.irqDue_keeps | apply State.setCq_keeps | apply KeepsNext.next | apply KeepsNext.ite | simp only [Keeps.update] | apply Keeps.ite | apply Keeps.foldl | split)

theorem execVectorGapEnd_keeps {z : State} (f : Nat) (v : Nat) (at_ : Nat) (s : State) : Keeps z s → KeepsNext z (execVectorGapEnd f v at_ s) := by
  intro h0
  unfold execVectorGapEnd
  conv => zeta
  with_reducible repeat' (first | assumption | intro _ | apply State.atTime_keeps | apply State.setFn_keeps | apply State.sendMsix_keeps | apply KeepsNext.next | apply KeepsNext.ite | simp only [Keeps.update] | apply Keeps.ite | apply Keeps.foldl | split)

theorem State.refused_keeps {z : State} (s : State) (d : AdminCmd) (status : Nat) (detail : Nat) : Keeps z s → Keeps z (State.refused s d status detail) := by
  intro h0
  unfold State.refused
  with_reducible repeat' (first | assumption | intro _ | apply State.adminFail_keeps | apply State.bump_keeps | simp only [Keeps.update] | apply Keeps.ite | apply Keeps.foldl | split)

theorem State.applyOwnerChange_keeps {z : State} (s : State) : Keeps z s → Keeps z (State.applyOwnerChange s) := by
  intro h0
  unfold State.applyOwnerChange
  conv => zeta
  with_reducible repeat' (first | assumption | intro _ | apply State.setFld_keeps | apply State.bump_keeps | apply State.raise_keeps | apply State.almDev_keeps | apply State.eventPfs_keeps | apply State.adminOk_keeps | simp only [Keeps.update] | apply Keeps.ite | apply Keeps.foldl | split)

theorem State.pendChange_keeps {z : State} (s : State) (d : AdminCmd) (kind : Nat) (port : Nat) : Keeps z s → Keeps z (State.pendChange s d kind port) := by
  intro h0
  unfold State.pendChange
  conv => zeta
  with_reducible repeat' (first | assumption | intro _ | apply State.setFld_keeps | apply State.raise_keeps | apply State.applyOwnerChange_keeps | simp only [Keeps.update] | apply Keeps.ite | apply Keeps.foldl | split)

theorem execOwnClaim_keeps {z : State} (d : AdminCmd) (s : State) : Keeps z s → KeepsNext z (execOwnClaim d s) := by
  intro h0
  unfold execOwnClaim
  with_reducible repeat' (first | assumption | intro _ | apply State.refused_keeps | apply State.adminOk_keeps | apply State.pendChange_keeps | apply KeepsNext.next | apply KeepsNext.ite | simp only [Keeps.update] | apply Keeps.ite | apply Keeps.foldl | split)

theorem execOwnRelease_keeps {z : State} (d : AdminCmd) (s : State) : Keeps z s → KeepsNext z (execOwnRelease d s) := by
  intro h0
  unfold execOwnRelease
  with_reducible repeat' (first | assumption | intro _ | apply State.admin_keeps | apply State.adminFail_keeps | apply State.pendChange_keeps | apply KeepsNext.next | apply KeepsNext.ite | simp only [Keeps.update] | apply Keeps.ite | apply Keeps.foldl | split)

theorem State.newNonce_keeps {z : State} (s : State) : Keeps z s → Keeps z (State.newNonce s) := by
  intro h0
  unfold State.newNonce
  with_reducible repeat' (first | assumption | intro _ | apply State.drawn_keeps | apply State.setFld_keeps | simp only [Keeps.update] | apply Keeps.ite | apply Keeps.foldl | split)

theorem State.signed_keeps {z : State} (s : State) (d : AdminCmd) (b : Bytes) (op : Nat) (used : Nat) (payloadOk : Bool) (k : State → State) : Keeps z s → (∀ (x0 : State), Keeps z x0 → Keeps z (k x0)) → Keeps z (State.signed s d b op used payloadOk k) := by
  intro h0 h1
  unfold State.signed
  with_reducible repeat' (first | assumption | intro _ | apply h1 | apply State.refused_keeps | simp only [Keeps.update] | apply Keeps.ite | apply Keeps.foldl | split)

theorem execOwnSeize_keeps {z : State} (d : AdminCmd) (b : Bytes) (s : State) : Keeps z s → KeepsNext z (execOwnSeize d b s) := by
  intro h0
  unfold execOwnSeize
  conv => zeta
  with_reducible repeat' (first | assumption | intro _ | apply State.signed_keeps | apply State.refused_keeps | apply State.pendChange_keeps | apply State.newNonce_keeps | apply KeepsNext.next | apply KeepsNext.ite | simp only [Keeps.update] | apply Keeps.ite | apply Keeps.foldl | split)

theorem execOwnRenew_keeps {z : State} (who : Who) (value : Nat) (at_ : Nat) (s : State) : Keeps z s → KeepsNext z (execOwnRenew who value at_ s) := by
  intro h0
  unfold execOwnRenew
  conv => zeta
  with_reducible repeat' (first | assumption | intro _ | apply State.atTime_keeps | apply State.setFld_keeps | apply State.raise_keeps | apply State.bump_keeps | apply KeepsNext.next | apply KeepsNext.ite | simp only [Keeps.update] | apply Keeps.ite | apply Keeps.foldl | split)

theorem execLeaseLapse_keeps {z : State} (at_ : Nat) (s : State) : Keeps z s → KeepsNext z (execLeaseLapse at_ s) := by
  intro h0
  unfold execLeaseLapse
  conv => zeta
  with_reducible repeat' (first | assumption | intro _ | apply State.atTime_keeps | apply State.raise_keeps | apply State.almDev_keeps | apply State.eventPfs_keeps | apply KeepsNext.next | apply KeepsNext.ite | simp only [Keeps.update] | apply Keeps.ite | apply Keeps.foldl | split)

theorem State.showPlanKeys_keeps {z : State} (s : State) : Keeps z s → Keeps z (State.showPlanKeys s) := by
  intro h0
  unfold State.showPlanKeys
  conv => zeta
  with_reducible repeat' (first | assumption | intro _ | apply State.setFld_keeps | simp only [Keeps.update] | apply Keeps.ite | apply Keeps.foldl | split)

theorem execPlankeyEnroll_keeps {z : State} (d : AdminCmd) (b : Bytes) (s : State) : Keeps z s → KeepsNext z (execPlankeyEnroll d b s) := by
  intro h0
  unfold execPlankeyEnroll
  conv => zeta
  with_reducible repeat' (first | assumption | intro _ | apply State.signed_keeps | apply State.refused_keeps | apply State.adminOk_keeps | apply State.newNonce_keeps | apply State.showPlanKeys_keeps | apply KeepsNext.next | apply KeepsNext.ite | simp only [Keeps.update] | apply Keeps.ite | apply Keeps.foldl | split)

theorem execPlankeyRevoke_keeps {z : State} (d : AdminCmd) (b : Bytes) (s : State) : Keeps z s → KeepsNext z (execPlankeyRevoke d b s) := by
  intro h0
  unfold execPlankeyRevoke
  conv => zeta
  with_reducible repeat' (first | assumption | intro _ | apply State.signed_keeps | apply State.refused_keeps | apply State.adminOk_keeps | apply State.newNonce_keeps | apply State.showPlanKeys_keeps | apply KeepsNext.next | apply KeepsNext.ite | simp only [Keeps.update] | apply Keeps.ite | apply Keeps.foldl | split)

theorem execKek0Install_keeps {z : State} (d : AdminCmd) (b : Bytes) (s : State) : Keeps z s → KeepsNext z (execKek0Install d b s) := by
  intro h0
  unfold execKek0Install
  conv => zeta
  with_reducible repeat' (first | assumption | intro _ | apply State.signed_keeps | apply State.refused_keeps | apply State.adminOk_keeps | apply State.newNonce_keeps | apply State.setFld_keeps | apply KeepsNext.next | apply KeepsNext.ite | simp only [Keeps.update] | apply Keeps.ite | apply Keeps.foldl | split)

theorem State.runImage_keeps {z : State} (s : State) (slot : Nat) (b : Bytes) : Keeps z s → Keeps z (State.runImage s slot b) := by
  intro h0
  unfold State.runImage
  conv => zeta
  with_reducible repeat' (first | assumption | intro _ | apply State.setFld_keeps | simp only [Keeps.update] | apply Keeps.ite | apply Keeps.foldl | split)

theorem State.failInflight_keeps {z : State} (s : State) : Keeps z s → Keeps z (State.failInflight s) := by
  intro h0
  unfold State.failInflight
  conv => zeta
  with_reducible repeat' (first | assumption | intro _ | apply State.adminFail_keeps | simp only [Keeps.update] | apply Keeps.ite | apply Keeps.foldl | split)

theorem execFirmwareVerify_keeps {z : State} (at_ : Nat) (s : State) : Keeps z s → KeepsNext z (execFirmwareVerify at_ s) := by
  intro h0
  unfold execFirmwareVerify
  conv => zeta
  with_reducible repeat' (first | assumption | intro _ | apply State.atTime_keeps | apply State.setFld_keeps | apply State.runImage_keeps | apply State.raise_keeps | apply State.almDev_keeps | apply State.failInflight_keeps | apply KeepsNext.next | apply KeepsNext.ite | simp only [Keeps.update] | apply Keeps.ite | apply Keeps.foldl | split)

theorem execFwUpdate_keeps {z : State} (d : AdminCmd) (b : Bytes) (s : State) : Keeps z s → KeepsNext z (execFwUpdate d b s) := by
  intro h0
  unfold execFwUpdate
  conv => zeta
  with_reducible repeat' (first | assumption | intro _ | apply State.admin_keeps | apply State.adminFail_keeps | apply State.adminOk_keeps | apply State.setFld_keeps | apply KeepsNext.next | apply KeepsNext.ite | simp only [Keeps.update] | apply Keeps.ite | apply Keeps.foldl | split)

theorem execFwSvnRaise_keeps {z : State} (d : AdminCmd) (s : State) : Keeps z s → KeepsNext z (execFwSvnRaise d s) := by
  intro h0
  unfold execFwSvnRaise
  conv => zeta
  with_reducible repeat' (first | assumption | intro _ | apply State.admin_keeps | apply State.adminOk_keeps | apply State.setFld_keeps | apply KeepsNext.next | apply KeepsNext.ite | simp only [Keeps.update] | apply Keeps.ite | apply Keeps.foldl | split)

theorem execOwnIdentityGet_keeps {z : State} (d : AdminCmd) (s : State) : Keeps z s → KeepsNext z (execOwnIdentityGet d s) := by
  intro h0
  unfold execOwnIdentityGet
  with_reducible repeat' (first | assumption | intro _ | apply State.admin_keeps | apply State.adminOk_keeps | apply State.adminOut_keeps | apply KeepsNext.next | apply KeepsNext.ite | simp only [Keeps.update] | apply Keeps.ite | apply Keeps.foldl | split)

theorem State.almWrite_keeps {z : State} (s : State) (e : AlmEntry) : Keeps z s → Keeps z (State.almWrite s e) := by
  intro h0
  unfold State.almWrite
  conv => zeta
  with_reducible repeat' (first | assumption | intro _ | apply State.setFld_keeps | apply State.raise_keeps | simp only [Keeps.update] | apply Keeps.ite | apply Keeps.foldl | split)

theorem execAlmanacWrite_keeps {z : State} (s : State) : Keeps z s → KeepsNext z (execAlmanacWrite s) := by
  intro h0
  unfold execAlmanacWrite
  conv => zeta
  with_reducible repeat' (first | assumption | intro _ | apply State.bump_keeps | apply State.raise_keeps | apply State.almWrite_keeps | apply KeepsNext.next | apply KeepsNext.ite | simp only [Keeps.update] | apply Keeps.ite | apply Keeps.foldl | split)

theorem State.unfreeze_keeps {z : State} (s : State) : Keeps z s → Keeps z (State.unfreeze s) := by
  intro h0
  unfold State.unfreeze
  with_reducible repeat' (first | assumption | intro _ | apply State.setFld_keeps | simp only [Keeps.update] | apply Keeps.ite | apply Keeps.foldl | split)

theorem execAlmUnfreeze_keeps {z : State} (who : Who) (value : Nat) (s : State) : Keeps z s → KeepsNext z (execAlmUnfreeze who value s) := by
  intro h0
  unfold execAlmUnfreeze
  with_reducible repeat' (first | assumption | intro _ | apply State.unfreeze_keeps | apply KeepsNext.next | apply KeepsNext.ite | simp only [Keeps.update] | apply Keeps.ite | apply Keeps.foldl | split)

theorem execAlmRead_keeps {z : State} (d : AdminCmd) (s : State) : Keeps z s → KeepsNext z (execAlmRead d s) := by
  intro h0
  unfold execAlmRead
  conv => zeta
  with_reducible repeat' (first | assumption | intro _ | apply State.admin_keeps | apply State.adminFail_keeps | apply State.adminOk_keeps | apply State.adminOut_keeps | apply KeepsNext.next | apply KeepsNext.ite | simp only [Keeps.update] | apply Keeps.ite | apply Keeps.foldl | split)

theorem execAlmClear_keeps {z : State} (d : AdminCmd) (s : State) : Keeps z s → KeepsNext z (execAlmClear d s) := by
  intro h0
  unfold execAlmClear
  conv => zeta
  with_reducible repeat' (first | assumption | intro _ | apply State.admin_keeps | apply State.unfreeze_keeps | apply State.adminOk_keeps | apply KeepsNext.next | apply KeepsNext.ite | simp only [Keeps.update] | apply Keeps.ite | apply Keeps.foldl | split)

theorem execFltStatusPageSet_keeps {z : State} (d : AdminCmd) (s : State) : Keeps z s → KeepsNext z (execFltStatusPageSet d s) := by
  intro h0
  unfold execFltStatusPageSet
  conv => zeta
  with_reducible repeat' (first | assumption | intro _ | apply State.admin_keeps | apply State.adminFail_keeps | apply State.setFld_keeps | apply State.adminOk_keeps | apply KeepsNext.next | apply KeepsNext.ite | simp only [Keeps.update] | apply Keeps.ite | apply Keeps.foldl | split)

theorem execFltQuery_keeps {z : State} (d : AdminCmd) (s : State) : Keeps z s → KeepsNext z (execFltQuery d s) := by
  intro h0
  unfold execFltQuery
  conv => zeta
  with_reducible repeat' (first | assumption | intro _ | apply State.admin_keeps | apply State.adminOk_keeps | apply State.adminOut_keeps | apply KeepsNext.next | apply KeepsNext.ite | simp only [Keeps.update] | apply Keeps.ite | apply Keeps.foldl | split)

theorem execWdogKick_keeps {z : State} (who : Who) (value : Nat) (at_ : Nat) (s : State) : Keeps z s → KeepsNext z (execWdogKick who value at_ s) := by
  intro h0
  unfold execWdogKick
  conv => zeta
  with_reducible repeat' (first | assumption | intro _ | apply State.atTime_keeps | apply KeepsNext.next | apply KeepsNext.ite | simp only [Keeps.update] | apply Keeps.ite | apply Keeps.foldl | split)

theorem State.setHp_keeps {z : State} (s : State) (p : Nat) (v : HpSt) : Keeps z s → Keeps z (State.setHp s p v) := by
  intro h0
  unfold State.setHp
  with_reducible repeat' (first | assumption | intro _ | simp only [Keeps.update] | apply Keeps.ite | apply Keeps.foldl | split)

theorem State.aer_keeps {z : State} (s : State) (p : Nat) (bit : Nat) (advisory : Bool) : Keeps z s → Keeps z (State.aer s p bit advisory) := by
  intro h0
  unfold State.aer
  conv => zeta
  with_reducible repeat' (first | assumption | intro _ | apply State.setHp_keeps | apply State.emit_keeps | simp only [Keeps.update] | apply Keeps.ite | apply Keeps.foldl | split)

theorem execPowerstateD3hot_keeps {z : State} (f : Nat) (at_ : Nat) (s : State) : Keeps z s → KeepsNext z (execPowerstateD3hot f at_ s) := by
  intro h0
  unfold execPowerstateD3hot
  conv => zeta
  with_reducible repeat' (first | assumption | intro _ | apply State.atTime_keeps | apply State.setFld_keeps | apply State.setFn_keeps | apply State.raise_keeps | apply KeepsNext.next | apply KeepsNext.ite | simp only [Keeps.update] | apply Keeps.ite | apply Keeps.foldl | split)

theorem State.showBlocked_keeps {z : State} (s : State) (p : Nat) : Keeps z s → Keeps z (State.showBlocked s p) := by
  intro h0
  unfold State.showBlocked
  with_reducible repeat' (first | assumption | intro _ | apply State.setFld_keeps | simp only [Keeps.update] | apply Keeps.ite | apply Keeps.foldl | split)

theorem execPowerstateD0_keeps {z : State} (f : Nat) (s : State) : Keeps z s → KeepsNext z (execPowerstateD0 f s) := by
  intro h0
  unfold execPowerstateD0
  conv => zeta
  with_reducible repeat' (first | assumption | intro _ | apply State.setFld_keeps | apply State.setFn_keeps | apply State.showBlocked_keeps | apply State.sendPending_keeps | apply KeepsNext.next | apply KeepsNext.ite | simp only [Keeps.update] | apply Keeps.ite | apply Keeps.foldl | split)

theorem execPmeTurnOff_keeps {z : State} (p : Nat) (s : State) : Keeps z s → KeepsNext z (execPmeTurnOff p s) := by
  intro h0
  unfold execPmeTurnOff
  conv => zeta
  with_reducible repeat' (first | assumption | intro _ | apply State.setFld_keeps | apply State.showBlocked_keeps | apply State.emit_keeps | apply KeepsNext.next | apply KeepsNext.ite | simp only [Keeps.update] | apply Keeps.ite | apply Keeps.foldl | split)

theorem State.afterPacket_keeps {z : State} (s : State) (o : Out) : Keeps z s → Keeps z (State.afterPacket s o) := by
  intro h0
  unfold State.afterPacket
  with_reducible repeat' (first | assumption | intro _ | apply State.showBlocked_keeps | apply State.raise_keeps | apply State.setFld_keeps | simp only [Keeps.update] | apply Keeps.ite | apply Keeps.foldl | split)

theorem execAspmL1Entry_keeps {z : State} (p : Nat) (at_ : Nat) (s : State) : Keeps z s → KeepsNext z (execAspmL1Entry p at_ s) := by
  intro h0
  unfold execAspmL1Entry
  conv => zeta
  with_reducible repeat' (first | assumption | intro _ | apply State.atTime_keeps | apply State.showBlocked_keeps | apply State.setFld_keeps | apply KeepsNext.next | apply KeepsNext.ite | simp only [Keeps.update] | apply Keeps.ite | apply Keeps.foldl | split)

theorem execL1Exit_keeps {z : State} (p : Nat) (at_ : Nat) (s : State) : Keeps z s → KeepsNext z (execL1Exit p at_ s) := by
  intro h0
  unfold execL1Exit
  conv => zeta
  with_reducible repeat' (first | assumption | intro _ | apply State.atTime_keeps | apply State.setFld_keeps | apply State.showBlocked_keeps | apply State.setHp_keeps | apply KeepsNext.next | apply KeepsNext.ite | simp only [Keeps.update] | apply Keeps.ite | apply Keeps.foldl | split)

theorem execBusMasterEnableWrite_keeps {z : State} (f : Nat) (v : Bool) (s : State) : Keeps z s → KeepsNext z (execBusMasterEnableWrite f v s) := by
  intro h0
  unfold execBusMasterEnableWrite
  conv => zeta
  with_reducible repeat' (first | assumption | intro _ | apply State.setFn_keeps | apply State.showBlocked_keeps | apply State.sendPending_keeps | apply KeepsNext.next | apply KeepsNext.ite | simp only [Keeps.update] | apply Keeps.ite | apply Keeps.foldl | split)

theorem State.shareLand_keeps {z : State} (s : State) (e : Nat × Bytes × List AdminCmd) : Keeps z s → Keeps z (State.shareLand s e) := by
  intro h0
  unfold State.shareLand
  with_reducible repeat' (first | assumption | intro _ | apply State.adminOk_keeps | simp only [Keeps.update] | apply Keeps.ite | apply Keeps.foldl | split)

theorem State.sharesLand_keeps {z : State} (s : State) : Keeps z s → Keeps z (State.sharesLand s) := by
  intro h0
  unfold State.sharesLand
  conv => zeta
  with_reducible repeat' (first | assumption | intro _ | apply State.setFld_keeps | apply State.shareLand_keeps | simp only [Keeps.update] | apply Keeps.ite | apply Keeps.foldl | split)

theorem execVfnShareSet_keeps {z : State} (d : AdminCmd) (b : Bytes) (s : State) : Keeps z s → KeepsNext z (execVfnShareSet d b s) := by
  intro h0
  unfold execVfnShareSet
  conv => zeta
  with_reducible repeat' (first | assumption | intro _ | apply State.admin_keeps | apply State.adminFail_keeps | apply State.raise_keeps | apply State.shareLand_keeps | apply KeepsNext.next | apply KeepsNext.ite | simp only [Keeps.update] | apply Keeps.ite | apply Keeps.foldl | split)

theorem State.vfFor_keeps {z : State} (s : State) (d : AdminCmd) (k : Nat → State) : Keeps z s → (∀ (x0 : Nat), Keeps z (k x0)) → Keeps z (State.vfFor s d k) := by
  intro h0 h1
  unfold State.vfFor
  conv => zeta
  with_reducible repeat' (first | assumption | intro _ | apply h1 | apply State.adminFail_keeps | simp only [Keeps.update] | apply Keeps.ite | apply Keeps.foldl | split)

theorem State.quiesced_keeps {z : State} (s : State) (f : Nat) : Keeps z s → Keeps z (State.quiesced s f) := by
  intro h0
  unfold State.quiesced
  conv => zeta
  with_reducible repeat' (first | assumption | intro _ | apply State.adminOk_keeps | apply State.setFn_keeps | simp only [Keeps.update] | apply Keeps.ite | apply Keeps.foldl | split)

theorem execVfnQuiesce_keeps {z : State} (d : AdminCmd) (s : State) : Keeps z s → KeepsNext z (execVfnQuiesce d s) := by
  intro h0
  unfold execVfnQuiesce
  conv => zeta
  with_reducible repeat' (first | assumption | intro _ | apply State.admin_keeps | apply State.vfFor_keeps | apply State.adminFail_keeps | apply State.setFn_keeps | apply State.quiesced_keeps | apply KeepsNext.next | apply KeepsNext.ite | simp only [Keeps.update] | apply Keeps.ite | apply Keeps.foldl | split)

theorem execVfnResume_keeps {z : State} (d : AdminCmd) (s : State) : Keeps z s → KeepsNext z (execVfnResume d s) := by
  intro h0
  unfold execVfnResume
  with_reducible repeat' (first | assumption | intro _ | apply State.admin_keeps | apply State.vfFor_keeps | apply State.adminFail_keeps | apply State.adminOk_keeps | apply State.sendPending_keeps | apply State.setFn_keeps | apply KeepsNext.next | apply KeepsNext.ite | simp only [Keeps.update] | apply Keeps.ite | apply Keeps.foldl | split)

theorem State.showLogs_keeps {z : State} (s : State) (p : Nat) : Keeps z s → Keeps z (State.showLogs s p) := by
  intro h0
  unfold State.showLogs
  conv => zeta
  with_reducible repeat' (first | assumption | intro _ | apply State.setFld_keeps | simp only [Keeps.update] | apply Keeps.ite | apply Keeps.foldl | split)

theorem execVfnLogStart_keeps {z : State} (d : AdminCmd) (s : State) : Keeps z s → KeepsNext z (execVfnLogStart d s) := by
  intro h0
  unfold execVfnLogStart
  conv => zeta
  with_reducible repeat' (first | assumption | intro _ | apply State.admin_keeps | apply State.vfFor_keeps | apply State.adminFail_keeps | apply State.adminOk_keeps | apply State.showLogs_keeps | apply State.setFn_keeps | apply KeepsNext.next | apply KeepsNext.ite | simp only [Keeps.update] | apply Keeps.ite | apply Keeps.foldl | split)

theorem State.logFor_keeps {z : State} (s : State) (d : AdminCmd) (k : Nat → VfLog → State) : Keeps z s → (∀ (x0 : Nat) (x1 : VfLog), Keeps z (k x0 x1)) → Keeps z (State.logFor s d k) := by
  intro h0 h1
  unfold State.logFor
  conv => zeta
  with_reducible repeat' (first | assumption | intro _ | apply h1 | apply State.adminFail_keeps | simp only [Keeps.update] | apply Keeps.ite | apply Keeps.foldl | split)

theorem execVfnLogSwap_keeps {z : State} (d : AdminCmd) (s : State) : Keeps z s → KeepsNext z (execVfnLogSwap d s) := by
  intro h0
  unfold execVfnLogSwap
  with_reducible repeat' (first | assumption | intro _ | apply State.admin_keeps | apply State.logFor_keeps | apply State.adminFail_keeps | apply State.adminOk_keeps | apply State.setFn_keeps | apply KeepsNext.next | apply KeepsNext.ite | simp only [Keeps.update] | apply Keeps.ite | apply Keeps.foldl | split)

theorem State.stopLog_keeps {z : State} (s : State) (f : Nat) : Keeps z s → Keeps z (State.stopLog s f) := by
  intro h0
  unfold State.stopLog
  conv => zeta
  with_reducible repeat' (first | assumption | intro _ | apply State.setFn_keeps | apply State.showLogs_keeps | apply State.emit_keeps | simp only [Keeps.update] | apply Keeps.ite | apply Keeps.foldl | split)

theorem execVfnLogStop_keeps {z : State} (d : AdminCmd) (s : State) : Keeps z s → KeepsNext z (execVfnLogStop d s) := by
  intro h0
  unfold execVfnLogStop
  with_reducible repeat' (first | assumption | intro _ | apply State.admin_keeps | apply State.logFor_keeps | apply State.adminOk_keeps | apply State.stopLog_keeps | apply KeepsNext.next | apply KeepsNext.ite | simp only [Keeps.update] | apply Keeps.ite | apply Keeps.foldl | split)

theorem State.failLog_keeps {z : State} (s : State) (f : Nat) : Keeps z s → Keeps z (State.failLog s f) := by
  intro h0
  unfold State.failLog
  conv => zeta
  with_reducible repeat' (first | assumption | intro _ | apply State.setFn_keeps | apply State.showLogs_keeps | apply State.raise_keeps | apply State.event_keeps | apply State.alm_keeps | simp only [Keeps.update] | apply Keeps.ite | apply Keeps.foldl | split)

theorem State.quiescedFor_keeps {z : State} (s : State) (d : AdminCmd) (k : Nat → State) : Keeps z s → (∀ (x0 : Nat), Keeps z (k x0)) → Keeps z (State.quiescedFor s d k) := by
  intro h0 h1
  unfold State.quiescedFor
  with_reducible repeat' (first | assumption | intro _ | apply h1 | apply State.vfFor_keeps | apply State.adminFail_keeps | simp only [Keeps.update] | apply Keeps.ite | apply Keeps.foldl | split)

theorem execVfnStateSave_keeps {z : State} (d : AdminCmd) (s : State) : Keeps z s → KeepsNext z (execVfnStateSave d s) := by
  intro h0
  unfold execVfnStateSave
  conv => zeta
  with_reducible repeat' (first | assumption | intro _ | apply State.admin_keeps | apply State.quiescedFor_keeps | apply State.adminFail_keeps | apply State.adminOk_keeps | apply State.adminOut_keeps | apply KeepsNext.next | apply KeepsNext.ite | simp only [Keeps.update] | apply Keeps.ite | apply Keeps.foldl | split)

theorem State.restoreCq_keeps {z : State} (s : State) (f : Nat) (b : Bytes) : Keeps z s → KeepsFst z (State.restoreCq s f b) := by
  intro h0
  unfold State.restoreCq
  conv => zeta
  with_reducible repeat' (first | assumption | intro _ | apply State.setCq_keeps | apply State.setFld_keeps | apply State.setPage_keeps | simp only [KeepsFst.pair] | apply KeepsFst.ite | apply KeepsFst.foldl | simp only [Keeps.update] | apply Keeps.ite | apply Keeps.foldl | (refine Keeps.fst (by assumption) ?_) | apply KeepsFst.first | split)

theorem State.restoreQueue_keeps {z : State} (s : State) (f : Nat) (cqs : List (Nat × Nat × Nat)) (b : Bytes) : Keeps z s → KeepsFst z (State.restoreQueue s f cqs b) := by
  intro h0
  unfold State.restoreQueue
  conv => zeta
  with_reducible repeat' (first | assumption | intro _ | apply State.setFld_keeps | apply State.setPage_keeps | apply State.setQueue_keeps | simp only [KeepsFst.pair] | apply KeepsFst.ite | apply KeepsFst.foldl | simp only [Keeps.update] | apply Keeps.ite | apply Keeps.foldl | (refine Keeps.fst (by assumption) ?_) | apply KeepsFst.first | split)

theorem execVfnStateRestore_keeps {z : State} (d : AdminCmd) (buf : Bytes) (s : State) : Keeps z s → KeepsNext z (execVfnStateRestore d buf s) := by
  intro h0
  unfold execVfnStateRestore
  conv => zeta
  with_reducible repeat' (first | assumption | intro _ | apply State.admin_keeps | apply State.quiescedFor_keeps | apply State.adminFail_keeps | apply State.restoreCq_keeps | apply State.restoreQueue_keeps | apply State.adminOk_keeps | apply State.adminOut_keeps | apply KeepsNext.next | apply KeepsNext.ite | simp only [KeepsFst.pair] | apply KeepsFst.ite | apply KeepsFst.foldl | simp only [Keeps.update] | apply Keeps.ite | apply Keeps.foldl | (refine Keeps.fst (by assumption) ?_) | apply KeepsFst.first | split)

end Sys2Proof.Machine
end

