-- ==== Sys2Proof/Laws/KeepsBuffers.lean ====
section
/-! SUPPORT. The operations of time, buffers, lanes, deliveries, treads, keys, cyclic exchange and ports keep the queue and both memories' form: one lemma each. -/

namespace Sys2Proof.Machine

theorem State.runSlew_keeps {z : State} (s : State) : Keeps z s → Keeps z (State.runSlew s) := by
  intro h0
  unfold State.runSlew
  conv => zeta
  with_reducible repeat' (first | assumption | intro _ | apply State.setFld_keeps | simp only [Keeps.update] | apply Keeps.ite | apply Keeps.foldl | split)

theorem State.enterHoldover_keeps {z : State} (s : State) : Keeps z s → Keeps z (State.enterHoldover s) := by
  intro h0
  unfold State.enterHoldover
  with_reducible repeat' (first | assumption | intro _ | apply State.almDev_keeps | apply State.setFld_keeps | apply State.raise_keeps | simp only [Keeps.update] | apply Keeps.ite | apply Keeps.foldl | split)

theorem State.servoWrite_keeps {z : State} (s : State) : Keeps z s → Keeps z (State.servoWrite s) := by
  intro h0
  unfold State.servoWrite
  with_reducible repeat' (first | assumption | intro _ | apply State.setFld_keeps | simp only [Keeps.update] | apply Keeps.ite | apply Keeps.foldl | split)

theorem State.putRate_keeps {z : State} (s : State) (r : Int) : Keeps z s → Keeps z (State.putRate s r) := by
  intro h0
  unfold State.putRate
  conv => zeta
  with_reducible repeat' (first | assumption | intro _ | apply State.setFld_keeps | apply State.raise_keeps | simp only [Keeps.update] | apply Keeps.ite | apply Keeps.foldl | split)

theorem execTbRateWrite_keeps {z : State} (who : Who) (value : Nat) (at_ : Nat) (s : State) : Keeps z s → KeepsNext z (execTbRateWrite who value at_ s) := by
  intro h0
  unfold execTbRateWrite
  conv => zeta
  with_reducible repeat' (first | assumption | intro _ | apply State.atTime_keeps | apply State.raise_keeps | apply State.putRate_keeps | apply State.servoWrite_keeps | apply State.runSlew_keeps | apply KeepsNext.next | apply KeepsNext.ite | simp only [Keeps.update] | apply Keeps.ite | apply Keeps.foldl | split)

theorem State.moveTimers_keeps {z : State} (s : State) (d : Int) : Keeps z s → Keeps z (State.moveTimers s d) := by
  intro h0
  unfold State.moveTimers
  conv => zeta
  with_reducible repeat' (first | assumption | intro _ | simp only [Keeps.update] | apply Keeps.ite | apply Keeps.foldl | split)

theorem State.shift_keeps {z : State} (s : State) (d : Int) : Keeps z s → Keeps z (State.shift s d) := by
  intro h0
  unfold State.shift
  with_reducible repeat' (first | assumption | intro _ | apply State.moveTimers_keeps | simp only [Keeps.update] | apply Keeps.ite | apply Keeps.foldl | split)

theorem execTbStepWrite_keeps {z : State} (who : Who) (value : Nat) (at_ : Nat) (s : State) : Keeps z s → KeepsNext z (execTbStepWrite who value at_ s) := by
  intro h0
  unfold execTbStepWrite
  conv => zeta
  with_reducible repeat' (first | assumption | intro _ | apply State.atTime_keeps | apply State.raise_keeps | apply State.runSlew_keeps | apply State.servoWrite_keeps | apply State.setFld_keeps | apply State.shift_keeps | apply KeepsNext.next | apply KeepsNext.ite | simp only [Keeps.update] | apply Keeps.ite | apply Keeps.foldl | split)

theorem execSlewComplete_keeps {z : State} (at_ : Nat) (s : State) : Keeps z s → KeepsNext z (execSlewComplete at_ s) := by
  intro h0
  unfold execSlewComplete
  with_reducible repeat' (first | assumption | intro _ | apply State.runSlew_keeps | apply State.atTime_keeps | apply KeepsNext.next | apply KeepsNext.ite | simp only [Keeps.update] | apply Keeps.ite | apply Keeps.foldl | split)

theorem execTbCtrlWrite_keeps {z : State} (who : Who) (value : Nat) (at_ : Nat) (s : State) : Keeps z s → KeepsNext z (execTbCtrlWrite who value at_ s) := by
  intro h0
  unfold execTbCtrlWrite
  conv => zeta
  with_reducible repeat' (first | assumption | intro _ | apply State.atTime_keeps | apply State.runSlew_keeps | apply State.setFld_keeps | apply KeepsNext.next | apply KeepsNext.ite | simp only [Keeps.update] | apply Keeps.ite | apply Keeps.foldl | split)

theorem execPpsEdge_keeps {z : State} (rising : Bool) (at_ : Nat) (s : State) : Keeps z s → KeepsNext z (execPpsEdge rising at_ s) := by
  intro h0
  unfold execPpsEdge
  conv => zeta
  with_reducible repeat' (first | assumption | intro _ | apply State.atTime_keeps | apply State.raise_keeps | apply State.setFld_keeps | apply State.enterHoldover_keeps | apply State.runSlew_keeps | apply State.drawn_keeps | apply State.putRate_keeps | apply KeepsNext.next | apply KeepsNext.ite | simp only [Keeps.update] | apply Keeps.ite | apply Keeps.foldl | split)

theorem execPpsTimeout_keeps {z : State} (at_ : Nat) (s : State) : Keeps z s → KeepsNext z (execPpsTimeout at_ s) := by
  intro h0
  unfold execPpsTimeout
  conv => zeta
  with_reducible repeat' (first | assumption | intro _ | apply State.atTime_keeps | apply State.setFld_keeps | apply State.enterHoldover_keeps | apply KeepsNext.next | apply KeepsNext.ite | simp only [Keeps.update] | apply Keeps.ite | apply Keeps.foldl | split)

theorem execServoHoldoverTimeout_keeps {z : State} (at_ : Nat) (s : State) : Keeps z s → KeepsNext z (execServoHoldoverTimeout at_ s) := by
  intro h0
  unfold execServoHoldoverTimeout
  conv => zeta
  with_reducible repeat' (first | assumption | intro _ | apply State.atTime_keeps | apply State.enterHoldover_keeps | apply KeepsNext.next | apply KeepsNext.ite | simp only [Keeps.update] | apply Keeps.ite | apply Keeps.foldl | split)

theorem execRef10Loss_keeps {z : State} (at_ : Nat) (s : State) : Keeps z s → KeepsNext z (execRef10Loss at_ s) := by
  intro h0
  unfold execRef10Loss
  conv => zeta
  with_reducible repeat' (first | assumption | intro _ | apply State.atTime_keeps | apply State.setFld_keeps | apply KeepsNext.next | apply KeepsNext.ite | simp only [Keeps.update] | apply Keeps.ite | apply Keeps.foldl | split)

theorem execRef10Restore_keeps {z : State} (since : Nat) (at_ : Nat) (s : State) : Keeps z s → KeepsNext z (execRef10Restore since at_ s) := by
  intro h0
  unfold execRef10Restore
  conv => zeta
  with_reducible repeat' (first | assumption | intro _ | apply State.atTime_keeps | apply State.raise_keeps | apply KeepsNext.next | apply KeepsNext.ite | simp only [Keeps.update] | apply Keeps.ite | apply Keeps.foldl | split)

theorem State.latch_keeps {z : State} (s : State) (who : Who) (a : Nat) (v : Nat) : Keeps z s → Keeps z (State.latch s who a v) := by
  intro h0
  unfold State.latch
  with_reducible repeat' (first | assumption | intro _ | simp only [Keeps.update] | apply Keeps.ite | apply Keeps.foldl | split)

theorem State.answer_keeps {z : State} (s : State) (who : Who) (a : Nat) (v : Nat) : Keeps z s → Keeps z (State.answer s who a v) := by
  intro h0
  unfold State.answer
  with_reducible repeat' (first | assumption | intro _ | apply State.emit_keeps | simp only [Keeps.update] | apply Keeps.ite | apply Keeps.foldl | split)

theorem execTbNowRead_keeps {z : State} (who : Who) (at_ : Nat) (s : State) : Keeps z s → KeepsNext z (execTbNowRead who at_ s) := by
  intro h0
  unfold execTbNowRead
  conv => zeta
  with_reducible repeat' (first | assumption | intro _ | apply State.atTime_keeps | apply State.latch_keeps | apply State.answer_keeps | apply KeepsNext.next | apply KeepsNext.ite | simp only [Keeps.update] | apply Keeps.ite | apply Keeps.foldl | split)

theorem execTbSetCommit_keeps {z : State} (who : Who) (value : Nat) (at_ : Nat) (s : State) : Keeps z s → KeepsNext z (execTbSetCommit who value at_ s) := by
  intro h0
  unfold execTbSetCommit
  conv => zeta
  with_reducible repeat' (first | assumption | intro _ | apply State.atTime_keeps | apply State.raise_keeps | apply State.shift_keeps | apply State.runSlew_keeps | apply KeepsNext.next | apply KeepsNext.ite | simp only [Keeps.update] | apply Keeps.ite | apply Keeps.foldl | split)

theorem execTbOriginWrite_keeps {z : State} (who : Who) (value : Nat) (s : State) : Keeps z s → KeepsNext z (execTbOriginWrite who value s) := by
  intro h0
  unfold execTbOriginWrite
  with_reducible repeat' (first | assumption | intro _ | apply State.setFld_keeps | apply KeepsNext.next | apply KeepsNext.ite | simp only [Keeps.update] | apply Keeps.ite | apply Keeps.foldl | split)

theorem State.energyEvent_keeps {z : State} (s : State) (l : Nat) : Keeps z s → Keeps z (State.energyEvent s l) := by
  intro h0
  unfold State.energyEvent
  with_reducible repeat' (first | assumption | intro _ | apply State.eventOwner_keeps | simp only [Keeps.update] | apply Keeps.ite | apply Keeps.foldl | split)

theorem State.reportEnergy_keeps {z : State} (s : State) : Keeps z s → Keeps z (State.reportEnergy s) := by
  intro h0
  unfold State.reportEnergy
  with_reducible repeat' (first | assumption | intro _ | apply State.energyEvent_keeps | simp only [Keeps.update] | apply Keeps.ite | apply Keeps.foldl | split)

theorem State.serveThaw_keeps {z : State} (s : State) (h : Nat) : Keeps z s → Keeps z (State.serveThaw s h) := by
  intro h0
  unfold State.serveThaw
  with_reducible repeat' (first | assumption | intro _ | apply State.reportEnergy_keeps | simp only [Keeps.update] | apply Keeps.ite | apply Keeps.foldl | split)

theorem execLaneEnergyDetect_keeps {z : State} (l : Nat) (s : State) : Keeps z s → KeepsNext z (execLaneEnergyDetect l s) := by
  intro h0
  unfold execLaneEnergyDetect
  conv => zeta
  with_reducible repeat' (first | assumption | intro _ | apply State.setFld_keeps | apply State.thaw_keeps | apply State.energyEvent_keeps | apply KeepsNext.next | apply KeepsNext.ite | simp only [Keeps.update] | apply Keeps.ite | apply Keeps.foldl | split)

theorem execLaneEnergyGone_keeps {z : State} (l : Nat) (s : State) : Keeps z s → KeepsNext z (execLaneEnergyGone l s) := by
  intro h0
  unfold execLaneEnergyGone
  with_reducible repeat' (first | assumption | intro _ | apply KeepsNext.next | apply KeepsNext.ite | simp only [Keeps.update] | apply Keeps.ite | apply Keeps.foldl | split)

theorem execStandbyRequest_keeps {z : State} (who : Who) (value : Nat) (s : State) : Keeps z s → KeepsNext z (execStandbyRequest who value s) := by
  intro h0
  unfold execStandbyRequest
  conv => zeta
  with_reducible repeat' (first | assumption | intro _ | apply State.setWord_keeps | apply State.setFld_keeps | apply KeepsNext.next | apply KeepsNext.ite | simp only [Keeps.update] | apply Keeps.ite | apply Keeps.foldl | split)

theorem State.alcoveWrite_keeps {z : State} (s : State) (h a : Nat) (b : Bytes) : Keeps z s → Keeps z (s.alcoveWrite h a b) :=
  fun k => k.alcove fun w => Memory.wf_writeN w _ b

theorem State.atriumWrite_keeps {z : State} (s : State) (k a : Nat) (b : Bytes) : Keeps z s → Keeps z (s.atriumWrite k a b) :=
  fun h => h.atrium fun w => Memory.wf_writeN w _ b

theorem State.setPair_keeps {z : State} (s : State) (k : Nat) (p : PoolPair) : Keeps z s → Keeps z (State.setPair s k p) := by
  intro h0
  unfold State.setPair
  with_reducible repeat' (first | assumption | intro _ | simp only [Keeps.update] | apply Keeps.ite | apply Keeps.foldl | split)

theorem State.setRegion_keeps {z : State} (s : State) (n : Nat) (r : Region) : Keeps z s → Keeps z (State.setRegion s n r) := by
  intro h0
  unfold State.setRegion
  with_reducible repeat' (first | assumption | intro _ | simp only [Keeps.update] | apply Keeps.ite | apply Keeps.foldl | split)

theorem State.headerWrite_keeps {z : State} (s : State) (r : Region) (a : Nat) (b : Bytes) : Keeps z s → Keeps z (State.headerWrite s r a b) := by
  intro h0
  unfold State.headerWrite
  with_reducible repeat' (first | assumption | intro _ | apply State.alcoveWrite_keeps | apply State.atriumWrite_keeps | apply State.hostWrite_keeps | simp only [Keeps.update] | apply Keeps.ite | apply Keeps.foldl | split)

theorem State.putHeader_keeps {z : State} (s : State) (r : Region) (id : Nat) (h : Header) : Keeps z s → Keeps z (State.putHeader s r id h) := by
  intro h0
  unfold State.putHeader
  with_reducible repeat' (first | assumption | intro _ | apply State.headerWrite_keeps | simp only [Keeps.update] | apply Keeps.ite | apply Keeps.foldl | split)

theorem State.setBufOwner_keeps {z : State} (s : State) (o : Nat) (v : BufOwner) : Keeps z s → Keeps z (State.setBufOwner s o v) := by
  intro h0
  unfold State.setBufOwner
  with_reducible repeat' (first | assumption | intro _ | simp only [Keeps.update] | apply Keeps.ite | apply Keeps.foldl | split)

theorem State.showPools_keeps {z : State} (s : State) : Keeps z s → Keeps z (State.showPools s) := by
  intro h0
  unfold State.showPools
  conv => zeta
  with_reducible repeat' (first | assumption | intro _ | apply State.setFld_keeps | simp only [Keeps.update] | apply Keeps.ite | apply Keeps.foldl | split)

theorem State.takeFree_keeps {z : State} (s : State) (k : Nat) : Keeps z s → KeepsFst z (State.takeFree s k) := by
  intro h0
  unfold State.takeFree
  conv => zeta
  with_reducible repeat' (first | assumption | intro _ | apply State.setPair_keeps | apply State.setRegion_keeps | simp only [KeepsFst.pair] | apply KeepsFst.ite | apply KeepsFst.foldl | simp only [Keeps.update] | apply Keeps.ite | apply Keeps.foldl | (refine Keeps.fst (by assumption) ?_) | apply KeepsFst.first | split)

theorem State.allocBuffer_keeps {z : State} (s : State) (o : Nat) (c : Nat) (loc : Nat) (inst : Nat) : Keeps z s → KeepsFst z (State.allocBuffer s o c loc inst) := by
  intro h0
  unfold State.allocBuffer
  conv => zeta
  with_reducible repeat' (first | assumption | intro _ | apply State.bump_keeps | apply State.takeFree_keeps | apply State.raise_keeps | apply State.putHeader_keeps | apply State.setRegion_keeps | apply State.setBufOwner_keeps | apply State.showPools_keeps | simp only [KeepsFst.pair] | apply KeepsFst.ite | apply KeepsFst.foldl | simp only [Keeps.update] | apply Keeps.ite | apply Keeps.foldl | (refine Keeps.fst (by assumption) ?_) | apply KeepsFst.first | split)

theorem State.allocFor_keeps {z : State} (s : State) (hd : Nat) (c : Nat) (loc : Nat) (inst : Nat) : Keeps z s → KeepsFst z (State.allocFor s hd c loc inst) := by
  intro h0
  unfold State.allocFor
  with_reducible repeat' (first | assumption | intro _ | apply State.allocBuffer_keeps | simp only [KeepsFst.pair] | apply KeepsFst.ite | apply KeepsFst.foldl | simp only [Keeps.update] | apply Keeps.ite | apply Keeps.foldl | (refine Keeps.fst (by assumption) ?_) | apply KeepsFst.first | split)

theorem State.badRelease_keeps {z : State} (s : State) (id : Nat) (status : Nat) (fn : Nat) (o : Nat) : Keeps z s → Keeps z (State.badRelease s id status fn o) := by
  intro h0
  unfold State.badRelease
  conv => zeta
  with_reducible repeat' (first | assumption | intro _ | apply State.bump_keeps | apply State.almDev_keeps | simp only [Keeps.update] | apply Keeps.ite | apply Keeps.foldl | split)

theorem State.finishOwner_keeps {z : State} (s : State) (o : Nat) : Keeps z s → Keeps z (State.finishOwner s o) := by
  intro h0
  unfold State.finishOwner
  conv => zeta
  with_reducible repeat' (first | assumption | intro _ | apply State.adminOk_keeps | apply State.nextGen_keeps | simp only [Keeps.update] | apply Keeps.ite | apply Keeps.foldl | split)

theorem State.freeBuffer_keeps {z : State} (s : State) (n : Nat) (r : Region) (id : Nat) (h : Header) : Keeps z s → Keeps z (State.freeBuffer s n r id h) := by
  intro h0
  unfold State.freeBuffer
  conv => zeta
  with_reducible repeat' (first | assumption | intro _ | apply State.putHeader_keeps | apply State.setPair_keeps | apply State.setRegion_keeps | apply State.setBufOwner_keeps | apply State.finishOwner_keeps | apply State.showPools_keeps | apply State.bump_keeps | simp only [Keeps.update] | apply Keeps.ite | apply Keeps.foldl | split)

theorem State.noteRefFault_keeps {z : State} (s : State) (id : Nat) (status : Nat) (f : Option Nat) : Keeps z s → Keeps z (State.noteRefFault s id status f) := by
  intro h0
  unfold State.noteRefFault
  conv => zeta
  with_reducible repeat' (first | assumption | intro _ | apply State.bump_keeps | apply State.raise_keeps | apply State.badRelease_keeps | apply State.drawn_keeps | simp only [Keeps.update] | apply Keeps.ite | apply Keeps.foldl | split)

theorem State.release_keeps {z : State} (s : State) (id : Nat) (f : Option Nat) : Keeps z s → KeepsFst z (State.release s id f) := by
  intro h0
  unfold State.release
  conv => zeta
  with_reducible repeat' (first | assumption | intro _ | apply State.noteRefFault_keeps | apply State.freeBuffer_keeps | apply State.putHeader_keeps | simp only [KeepsFst.pair] | apply KeepsFst.ite | apply KeepsFst.foldl | simp only [Keeps.update] | apply Keeps.ite | apply Keeps.foldl | (refine Keeps.fst (by assumption) ?_) | apply KeepsFst.first | split)

theorem State.drop_keeps {z : State} (s : State) (id : Nat) : Keeps z s → Keeps z (State.drop s id) := by
  intro h0
  unfold State.drop
  with_reducible repeat' (first | assumption | intro _ | apply State.release_keeps | simp only [KeepsFst.pair] | apply KeepsFst.ite | apply KeepsFst.foldl | simp only [Keeps.update] | apply Keeps.ite | apply Keeps.foldl | (refine Keeps.fst (by assumption) ?_) | apply KeepsFst.first | split)

theorem State.addRefs_keeps {z : State} (s : State) (id : Nat) (n : Nat) (f : Option Nat) : Keeps z s → KeepsFst z (State.addRefs s id n f) := by
  intro h0
  unfold State.addRefs
  conv => zeta
  with_reducible repeat' (first | assumption | intro _ | apply State.noteRefFault_keeps | apply State.putHeader_keeps | simp only [KeepsFst.pair] | apply KeepsFst.ite | apply KeepsFst.foldl | simp only [Keeps.update] | apply Keeps.ite | apply Keeps.foldl | (refine Keeps.fst (by assumption) ?_) | apply KeepsFst.first | split)

theorem State.refill_keeps {z : State} (s : State) (k : Nat) (v2 : Nat) : Keeps z s → Keeps z (State.refill s k v2) := by
  induction v2 generalizing s k with
  | zero =>
    intro h0
    unfold State.refill
    conv => zeta
    with_reducible repeat' (first | assumption | intro _ | apply State.setPair_keeps | apply State.almDev_keeps | apply State.raise_keeps | apply State.setRegion_keeps | simp only [Keeps.update] | apply Keeps.ite | apply Keeps.foldl | split)
  | succ n ih =>
    intro h0
    unfold State.refill
    conv => zeta
    with_reducible repeat' (first | assumption | intro _ | apply ih | apply State.setPair_keeps | apply State.almDev_keeps | apply State.raise_keeps | apply State.setRegion_keeps | simp only [Keeps.update] | apply Keeps.ite | apply Keeps.foldl | split)

theorem execStockRefill_keeps {z : State} (c : Nat) (loc : Nat) (inst : Nat) (s : State) : Keeps z s → KeepsNext z (execStockRefill c loc inst s) := by
  intro h0
  unfold execStockRefill
  conv => zeta
  with_reducible repeat' (first | assumption | intro _ | apply State.refill_keeps | apply KeepsNext.next | apply KeepsNext.ite | simp only [Keeps.update] | apply Keeps.ite | apply Keeps.foldl | split)

theorem State.forget_keeps {z : State} (s : State) (r : Region) (e : Nat × Nat) : Keeps z s → Keeps z (State.forget s r e) := by
  intro h0
  unfold State.forget
  conv => zeta
  with_reducible repeat' (first | assumption | intro _ | apply State.setBufOwner_keeps | simp only [Keeps.update] | apply Keeps.ite | apply Keeps.foldl | split)

theorem State.resetRegions_keeps {z : State} (s : State) : Keeps z s → Keeps z (State.resetRegions s) := by
  intro h0
  unfold State.resetRegions
  conv => zeta
  with_reducible repeat' (first | assumption | intro _ | apply State.forget_keeps | apply State.setRegion_keeps | apply State.showPools_keeps | apply State.finishOwner_keeps | simp only [Keeps.update] | apply Keeps.ite | apply Keeps.foldl | split)

theorem execBpmRegionAdd_keeps {z : State} (d : AdminCmd) (s : State) : Keeps z s → KeepsNext z (execBpmRegionAdd d s) := by
  intro h0
  unfold execBpmRegionAdd
  conv => zeta
  with_reducible repeat' (first | assumption | intro _ | apply State.admin_keeps | apply State.adminFail_keeps | apply State.setFld_keeps | apply State.setFrost_keeps | apply State.setPair_keeps | apply State.setRegion_keeps | apply State.adminOk_keeps | apply State.showPools_keeps | apply KeepsNext.next | apply KeepsNext.ite | simp only [Keeps.update] | apply Keeps.ite | apply Keeps.foldl | split)

theorem State.thread_keeps {z : State} (s : State) (ids : List Nat) : Keeps z s → Keeps z (State.thread s ids) := by
  intro h0
  unfold State.thread
  with_reducible repeat' (first | assumption | intro _ | apply State.putHeader_keeps | simp only [Keeps.update] | apply Keeps.ite | apply Keeps.foldl | split)

theorem execBpmRegionRemove_keeps {z : State} (d : AdminCmd) (s : State) : Keeps z s → KeepsNext z (execBpmRegionRemove d s) := by
  intro h0
  unfold execBpmRegionRemove
  conv => zeta
  with_reducible repeat' (first | assumption | intro _ | apply State.admin_keeps | apply State.adminFail_keeps | apply State.adminOk_keeps | apply State.showPools_keeps | apply State.setPair_keeps | apply State.thread_keeps | apply KeepsNext.next | apply KeepsNext.ite | simp only [Keeps.update] | apply Keeps.ite | apply Keeps.foldl | split)

theorem execBpmRegionQuery_keeps {z : State} (d : AdminCmd) (s : State) : Keeps z s → KeepsNext z (execBpmRegionQuery d s) := by
  intro h0
  unfold execBpmRegionQuery
  conv => zeta
  with_reducible repeat' (first | assumption | intro _ | apply State.admin_keeps | apply State.adminFail_keeps | apply State.adminOk_keeps | apply State.adminOut_keeps | apply KeepsNext.next | apply KeepsNext.ite | simp only [Keeps.update] | apply Keeps.ite | apply Keeps.foldl | split)

theorem execBpmOwnerCreate_keeps {z : State} (d : AdminCmd) (s : State) : Keeps z s → KeepsNext z (execBpmOwnerCreate d s) := by
  intro h0
  unfold execBpmOwnerCreate
  conv => zeta
  with_reducible repeat' (first | assumption | intro _ | apply State.admin_keeps | apply State.adminFail_keeps | apply State.setBufOwner_keeps | apply State.adminOk_keeps | apply KeepsNext.next | apply KeepsNext.ite | simp only [Keeps.update] | apply Keeps.ite | apply Keeps.foldl | split)

theorem State.ownerFor_keeps {z : State} (s : State) (d : AdminCmd) (h : Nat) (k : Nat → State) : Keeps z s → (∀ (x0 : Nat), Keeps z (k x0)) → Keeps z (State.ownerFor s d h k) := by
  intro h0 h1
  unfold State.ownerFor
  with_reducible repeat' (first | assumption | intro _ | apply h1 | apply State.adminFail_keeps | simp only [Keeps.update] | apply Keeps.ite | apply Keeps.foldl | split)

theorem execBpmOwnerSet_keeps {z : State} (d : AdminCmd) (buf : Bytes) (s : State) : Keeps z s → KeepsNext z (execBpmOwnerSet d buf s) := by
  intro h0
  unfold execBpmOwnerSet
  conv => zeta
  with_reducible repeat' (first | assumption | intro _ | apply State.admin_keeps | apply State.ownerFor_keeps | apply State.adminOk_keeps | apply State.setBufOwner_keeps | apply KeepsNext.next | apply KeepsNext.ite | simp only [Keeps.update] | apply Keeps.ite | apply Keeps.foldl | split)

theorem execBpmOwnerDestroy_keeps {z : State} (d : AdminCmd) (s : State) : Keeps z s → KeepsNext z (execBpmOwnerDestroy d s) := by
  intro h0
  unfold execBpmOwnerDestroy
  with_reducible repeat' (first | assumption | intro _ | apply State.admin_keeps | apply State.ownerFor_keeps | apply State.adminFail_keeps | apply State.finishOwner_keeps | apply State.setBufOwner_keeps | apply KeepsNext.next | apply KeepsNext.ite | simp only [Keeps.update] | apply Keeps.ite | apply Keeps.foldl | split)

theorem execBufAlloc_keeps {z : State} (d : AdminCmd) (s : State) : Keeps z s → KeepsNext z (execBufAlloc d s) := by
  intro h0
  unfold execBufAlloc
  conv => zeta
  with_reducible repeat' (first | assumption | intro _ | apply State.admin_keeps | apply State.adminFail_keeps | apply State.ownerFor_keeps | apply State.bump_keeps | apply State.allocBuffer_keeps | apply State.adminOk_keeps | apply KeepsNext.next | apply KeepsNext.ite | simp only [KeepsFst.pair] | apply KeepsFst.ite | apply KeepsFst.foldl | simp only [Keeps.update] | apply Keeps.ite | apply Keeps.foldl | (refine Keeps.fst (by assumption) ?_) | apply KeepsFst.first | split)

theorem execBufRef_keeps {z : State} (d : AdminCmd) (s : State) : Keeps z s → KeepsNext z (execBufRef d s) := by
  intro h0
  unfold execBufRef
  with_reducible repeat' (first | assumption | intro _ | apply State.admin_keeps | apply State.addRefs_keeps | apply State.adminOk_keeps | apply State.adminFail_keeps | apply KeepsNext.next | apply KeepsNext.ite | simp only [KeepsFst.pair] | apply KeepsFst.ite | apply KeepsFst.foldl | simp only [Keeps.update] | apply Keeps.ite | apply Keeps.foldl | (refine Keeps.fst (by assumption) ?_) | apply KeepsFst.first | split)

theorem State.releaseAll_keeps {z : State} (s : State) (f : Nat) (v2 : List Nat) : Keeps z s → KeepsFst z (State.releaseAll s f v2) := by
  induction v2 generalizing s f with
  | nil =>
    intro h0
    unfold State.releaseAll
    conv => zeta
    with_reducible repeat' (first | assumption | intro _ | apply State.release_keeps | simp only [KeepsFst.pair] | apply KeepsFst.ite | apply KeepsFst.foldl | simp only [Keeps.update] | apply Keeps.ite | apply Keeps.foldl | (refine Keeps.fst (by assumption) ?_) | apply KeepsFst.first | split)
  | cons a t ih =>
    intro h0
    unfold State.releaseAll
    conv => zeta
    with_reducible repeat' (first | assumption | intro _ | apply ih | apply State.release_keeps | simp only [KeepsFst.pair] | apply KeepsFst.ite | apply KeepsFst.foldl | simp only [Keeps.update] | apply Keeps.ite | apply Keeps.foldl | (refine Keeps.fst (by assumption) ?_) | apply KeepsFst.first | split)

theorem execBufRelease_keeps {z : State} (d : AdminCmd) (buf : Bytes) (s : State) : Keeps z s → KeepsNext z (execBufRelease d buf s) := by
  intro h0
  unfold execBufRelease
  with_reducible repeat' (first | assumption | intro _ | apply State.admin_keeps | apply State.adminFail_keeps | apply State.releaseAll_keeps | apply State.adminDone_keeps | apply KeepsNext.next | apply KeepsNext.ite | simp only [KeepsFst.pair] | apply KeepsFst.ite | apply KeepsFst.foldl | simp only [Keeps.update] | apply Keeps.ite | apply Keeps.foldl | (refine Keeps.fst (by assumption) ?_) | apply KeepsFst.first | split)

theorem execBpmAudit_keeps {z : State} (d : AdminCmd) (s : State) : Keeps z s → KeepsNext z (execBpmAudit d s) := by
  intro h0
  unfold execBpmAudit
  conv => zeta
  with_reducible repeat' (first | assumption | intro _ | apply State.admin_keeps | apply State.adminFail_keeps | apply State.adminOk_keeps | apply State.adminOut_keeps | apply KeepsNext.next | apply KeepsNext.ite | simp only [Keeps.update] | apply Keeps.ite | apply Keeps.foldl | split)

theorem State.ceilingsLand_keeps {z : State} (s : State) : Keeps z s → Keeps z (State.ceilingsLand s) := by
  intro h0
  unfold State.ceilingsLand
  with_reducible repeat' (first | assumption | intro _ | simp only [Keeps.update] | apply Keeps.ite | apply Keeps.foldl | split)

theorem State.ageCheck_keeps {z : State} (s : State) (o : Nat) (flight : Nat) : Keeps z s → Keeps z (State.ageCheck s o flight) := by
  intro h0
  unfold State.ageCheck
  conv => zeta
  with_reducible repeat' (first | assumption | intro _ | apply State.raise_keeps | apply State.setBufOwner_keeps | apply State.drawn_keeps | apply State.event_keeps | apply State.almDev_keeps | apply State.eventOwner_keeps | simp only [Keeps.update] | apply Keeps.ite | apply Keeps.foldl | split)

theorem State.ageLand_keeps {z : State} (s : State) (flight : Nat) : Keeps z s → Keeps z (State.ageLand s flight) := by
  intro h0
  unfold State.ageLand
  conv => zeta
  with_reducible repeat' (first | assumption | intro _ | apply State.ageCheck_keeps | simp only [Keeps.update] | apply Keeps.ite | apply Keeps.foldl | split)

theorem execBpmAlarmNextRead_keeps {z : State} (who : Who) (s : State) : Keeps z s → KeepsNext z (execBpmAlarmNextRead who s) := by
  intro h0
  unfold execBpmAlarmNextRead
  conv => zeta
  with_reducible repeat' (first | assumption | intro _ | apply State.answer_keeps | apply KeepsNext.next | apply KeepsNext.ite | simp only [Keeps.update] | apply Keeps.ite | apply Keeps.foldl | split)

theorem State.setPort_keeps {z : State} (s : State) (l : Nat) (p : PortSt) : Keeps z s → Keeps z (State.setPort s l p) := by
  intro h0
  unfold State.setPort
  with_reducible repeat' (first | assumption | intro _ | simp only [Keeps.update] | apply Keeps.ite | apply Keeps.foldl | split)

theorem State.train_keeps {z : State} (s : State) (l : Nat) : Keeps z s → Keeps z (State.train s l) := by
  intro h0
  unfold State.train
  with_reducible repeat' (first | assumption | intro _ | apply State.setFld_keeps | simp only [Keeps.update] | apply Keeps.ite | apply Keeps.foldl | split)

theorem State.showLanes_keeps {z : State} (s : State) (l : Nat) (got : List Nat) (aligned : Bool) : Keeps z s → Keeps z (State.showLanes s l got aligned) := by
  intro h0
  unfold State.showLanes
  conv => zeta
  with_reducible repeat' (first | assumption | intro _ | apply State.setFld_keeps | simp only [Keeps.update] | apply Keeps.ite | apply Keeps.foldl | split)

theorem State.linkChange_keeps {z : State} (s : State) (l : Nat) (up : Bool) : Keeps z s → Keeps z (State.linkChange s l up) := by
  intro h0
  unfold State.linkChange
  with_reducible repeat' (first | assumption | intro _ | apply State.alm_keeps | apply State.raise_keeps | simp only [Keeps.update] | apply Keeps.ite | apply Keeps.foldl | split)

theorem execPortLinkUp_keeps {z : State} (l : Nat) (got : List Nat) (aligned : Bool) (at_ : Nat) (s : State) : Keeps z s → KeepsNext z (execPortLinkUp l got aligned at_ s) := by
  intro h0
  unfold execPortLinkUp
  conv => zeta
  with_reducible repeat' (first | assumption | intro _ | apply State.atTime_keeps | apply State.showLanes_keeps | apply State.linkChange_keeps | apply State.setFld_keeps | apply State.raise_keeps | apply KeepsNext.next | apply KeepsNext.ite | simp only [Keeps.update] | apply Keeps.ite | apply Keeps.foldl | split)

theorem State.portDown_keeps {z : State} (s : State) (l : Nat) (lost : Nat) : Keeps z s → Keeps z (State.portDown s l lost) := by
  intro h0
  unfold State.portDown
  conv => zeta
  with_reducible repeat' (first | assumption | intro _ | apply State.train_keeps | apply State.showLanes_keeps | apply State.linkChange_keeps | apply State.setFld_keeps | simp only [Keeps.update] | apply Keeps.ite | apply Keeps.foldl | split)

theorem execPortLinkDown_keeps {z : State} (l : Nat) (lost : Nat) (at_ : Nat) (s : State) : Keeps z s → KeepsNext z (execPortLinkDown l lost at_ s) := by
  intro h0
  unfold execPortLinkDown
  conv => zeta
  with_reducible repeat' (first | assumption | intro _ | apply State.atTime_keeps | apply State.portDown_keeps | apply KeepsNext.next | apply KeepsNext.ite | simp only [Keeps.update] | apply Keeps.ite | apply Keeps.foldl | split)

theorem State.takeRx_keeps {z : State} (s : State) (l : Nat) (f : RxFrame) : Keeps z s → Keeps z (State.takeRx s l f) := by
  intro h0
  unfold State.takeRx
  conv => zeta
  with_reducible repeat' (first | assumption | intro _ | apply State.setPort_keeps | simp only [Keeps.update] | apply Keeps.ite | apply Keeps.foldl | split)

theorem execLaneFrameRx_keeps {z : State} (l : Nat) (octets : Bytes) (ce : Nat) (ue : Nat) (stamp : Nat) (at_ : Nat) (s : State) : Keeps z s → KeepsNext z (execLaneFrameRx l octets ce ue stamp at_ s) := by
  intro h0
  unfold execLaneFrameRx
  conv => zeta
  with_reducible repeat' (first | assumption | intro _ | apply State.atTime_keeps | apply State.bumpBy_keeps | apply State.bump_keeps | apply State.setPort_keeps | apply KeepsNext.next | apply KeepsNext.ite | simp only [Keeps.update] | apply Keeps.ite | apply Keeps.foldl | split)

theorem State.frameDone_keeps {z : State} (s : State) (f : TxFrame) (stamp : Nat) : Keeps z s → Keeps z (State.frameDone s f stamp) := by
  intro h0
  unfold State.frameDone
  conv => zeta
  with_reducible repeat' (first | assumption | intro _ | apply State.drop_keeps | apply State.descDone_keeps | simp only [Keeps.update] | apply Keeps.ite | apply Keeps.foldl | split)

theorem State.dropFrame_keeps {z : State} (s : State) (f : TxFrame) : Keeps z s → Keeps z (State.dropFrame s f) := by
  intro h0
  unfold State.dropFrame
  with_reducible repeat' (first | assumption | intro _ | apply State.frameDone_keeps | simp only [Keeps.update] | apply Keeps.ite | apply Keeps.foldl | split)

theorem State.openEnqueue_keeps {z : State} (s : State) (l : Nat) (f : TxFrame) : Keeps z s → Keeps z (State.openEnqueue s l f) := by
  intro h0
  unfold State.openEnqueue
  with_reducible repeat' (first | assumption | intro _ | apply State.dropFrame_keeps | apply State.bump_keeps | apply State.setPort_keeps | simp only [Keeps.update] | apply Keeps.ite | apply Keeps.foldl | split)

theorem execLnTxtsInfoRead_keeps {z : State} (who : Who) (s : State) : Keeps z s → KeepsNext z (execLnTxtsInfoRead who s) := by
  intro h0
  unfold execLnTxtsInfoRead
  conv => zeta
  with_reducible repeat' (first | assumption | intro _ | apply State.answer_keeps | apply State.setFld_keeps | apply State.latch_keeps | apply KeepsNext.next | apply KeepsNext.ite | simp only [Keeps.update] | apply Keeps.ite | apply Keeps.foldl | split)

theorem State.pushStamp_keeps {z : State} (s : State) (l : Nat) (t : Nat) : Keeps z s → Keeps z (State.pushStamp s l t) := by
  intro h0
  unfold State.pushStamp
  conv => zeta
  with_reducible repeat' (first | assumption | intro _ | apply State.setPort_keeps | apply State.bumpSat_keeps | apply State.raise_keeps | apply State.setFld_keeps | simp only [Keeps.update] | apply Keeps.ite | apply Keeps.foldl | split)

theorem execEyeNow_keeps {z : State} (who : Who) (l : Nat) (at_ : Nat) (s : State) : Keeps z s → KeepsNext z (execEyeNow who l at_ s) := by
  intro h0
  unfold execEyeNow
  conv => zeta
  with_reducible repeat' (first | assumption | intro _ | apply State.atTime_keeps | apply KeepsNext.next | apply KeepsNext.ite | simp only [Keeps.update] | apply Keeps.ite | apply Keeps.foldl | split)

theorem execEyeMeasureDone_keeps {z : State} (l : Nat) (height : Nat) (width : Nat) (at_ : Nat) (s : State) : Keeps z s → KeepsNext z (execEyeMeasureDone l height width at_ s) := by
  intro h0
  unfold execEyeMeasureDone
  conv => zeta
  with_reducible repeat' (first | assumption | intro _ | apply State.atTime_keeps | apply State.setFld_keeps | apply State.raise_keeps | apply KeepsNext.next | apply KeepsNext.ite | simp only [Keeps.update] | apply Keeps.ite | apply Keeps.foldl | split)

theorem execPpsOutPulse_keeps {z : State} (at_ : Nat) (s : State) : Keeps z s → KeepsNext z (execPpsOutPulse at_ s) := by
  intro h0
  unfold execPpsOutPulse
  conv => zeta
  with_reducible repeat' (first | assumption | intro _ | apply State.atTime_keeps | apply State.emit_keeps | apply KeepsNext.next | apply KeepsNext.ite | simp only [Keeps.update] | apply Keeps.ite | apply Keeps.foldl | split)

theorem execPpsOutPulseEnd_keeps {z : State} (at_ : Nat) (s : State) : Keeps z s → KeepsNext z (execPpsOutPulseEnd at_ s) := by
  intro h0
  unfold execPpsOutPulseEnd
  conv => zeta
  with_reducible repeat' (first | assumption | intro _ | apply State.atTime_keeps | apply State.emit_keeps | apply KeepsNext.next | apply KeepsNext.ite | simp only [Keeps.update] | apply Keeps.ite | apply Keeps.foldl | split)

theorem State.capture_keeps {z : State} (s : State) (k : Nat) (c : Capture) : Keeps z s → Keeps z (State.capture s k c) := by
  intro h0
  unfold State.capture
  conv => zeta
  with_reducible repeat' (first | assumption | intro _ | apply State.bump_keeps | apply State.setLand_keeps | apply State.raise_keeps | simp only [Keeps.update] | apply Keeps.ite | apply Keeps.foldl | split)

theorem State.confirm_keeps {z : State} (s : State) (k : Nat) (t : Nat) : Keeps z s → Keeps z (State.confirm s k t) := by
  intro h0
  unfold State.confirm
  with_reducible repeat' (first | assumption | intro _ | apply State.capture_keeps | apply State.setLand_keeps | simp only [Keeps.update] | apply Keeps.ite | apply Keeps.foldl | split)

theorem State.pinTo_keeps {z : State} (s : State) (k : Nat) (v : Bool) (t : Nat) : Keeps z s → Keeps z (State.pinTo s k v t) := by
  intro h0
  unfold State.pinTo
  conv => zeta
  with_reducible repeat' (first | assumption | intro _ | apply State.confirm_keeps | apply State.setLand_keeps | apply State.bumpSat_keeps | apply State.capture_keeps | simp only [Keeps.update] | apply Keeps.ite | apply Keeps.foldl | split)

theorem execEvtEdge_keeps {z : State} (k : Nat) (rising : Bool) (at_ : Nat) (s : State) : Keeps z s → KeepsNext z (execEvtEdge k rising at_ s) := by
  intro h0
  unfold execEvtEdge
  conv => zeta
  with_reducible repeat' (first | assumption | intro _ | apply State.atTime_keeps | apply State.pinTo_keeps | apply State.setLand_keeps | apply State.setFld_keeps | apply KeepsNext.next | apply KeepsNext.ite | simp only [Keeps.update] | apply Keeps.ite | apply Keeps.foldl | split)

theorem execEvtEdgeConfirm_keeps {z : State} (k : Nat) (at_ : Nat) (s : State) : Keeps z s → KeepsNext z (execEvtEdgeConfirm k at_ s) := by
  intro h0
  unfold execEvtEdgeConfirm
  conv => zeta
  with_reducible repeat' (first | assumption | intro _ | apply State.atTime_keeps | apply State.confirm_keeps | apply KeepsNext.next | apply KeepsNext.ite | simp only [Keeps.update] | apply Keeps.ite | apply Keeps.foldl | split)

theorem execEvtCapInfoRead_keeps {z : State} (who : Who) (k : Nat) (s : State) : Keeps z s → KeepsNext z (execEvtCapInfoRead who k s) := by
  intro h0
  unfold execEvtCapInfoRead
  conv => zeta
  with_reducible repeat' (first | assumption | intro _ | apply State.answer_keeps | apply State.setLand_keeps | apply State.latch_keeps | apply KeepsNext.next | apply KeepsNext.ite | simp only [Keeps.update] | apply Keeps.ite | apply Keeps.foldl | split)

theorem State.settle_keeps {z : State} (s : State) (k : Nat) (t : Nat) (was : Bool × Bool) : Keeps z s → Keeps z (State.settle s k t was) := by
  intro h0
  unfold State.settle
  conv => zeta
  with_reducible repeat' (first | assumption | intro _ | apply State.emit_keeps | apply State.pinTo_keeps | simp only [Keeps.update] | apply Keeps.ite | apply Keeps.foldl | split)

theorem State.actsAt_keeps {z : State} (s : State) (k : Nat) (t : Nat) : Keeps z s → Keeps z (State.actsAt s k t) := by
  intro h0
  unfold State.actsAt
  conv => zeta
  with_reducible repeat' (first | assumption | intro _ | apply State.bump_keeps | apply State.settle_keeps | apply State.setLand_keeps | simp only [Keeps.update] | apply Keeps.ite | apply Keeps.foldl | split)

theorem State.actsDue_keeps {z : State} (s : State) (k : Nat) (t : Nat) (v3 : Nat) : Keeps z s → Keeps z (State.actsDue s k t v3) := by
  induction v3 generalizing s k t with
  | zero =>
    intro h0
    unfold State.actsDue
    with_reducible repeat' (first | assumption | intro _ | apply State.actsAt_keeps | simp only [Keeps.update] | apply Keeps.ite | apply Keeps.foldl | split)
  | succ n ih =>
    intro h0
    unfold State.actsDue
    with_reducible repeat' (first | assumption | intro _ | apply ih | apply State.actsAt_keeps | simp only [Keeps.update] | apply Keeps.ite | apply Keeps.foldl | split)

theorem execEvtAction_keeps {z : State} (k : Nat) (at_ : Nat) (s : State) : Keeps z s → KeepsNext z (execEvtAction k at_ s) := by
  intro h0
  unfold execEvtAction
  conv => zeta
  with_reducible repeat' (first | assumption | intro _ | apply State.atTime_keeps | apply State.actsDue_keeps | apply KeepsNext.next | apply KeepsNext.ite | simp only [Keeps.update] | apply Keeps.ite | apply Keeps.foldl | split)

theorem State.actSoon_keeps {z : State} (s : State) (k : Nat) (act : Nat) (width : Nat) : Keeps z s → Keeps z (State.actSoon s k act width) := by
  intro h0
  unfold State.actSoon
  conv => zeta
  with_reducible repeat' (first | assumption | intro _ | apply State.setLand_keeps | simp only [Keeps.update] | apply Keeps.ite | apply Keeps.foldl | split)

theorem State.actNow_keeps {z : State} (s : State) (k : Nat) (act : Nat) (width : Nat) : Keeps z s → Keeps z (State.actNow s k act width) := by
  intro h0
  unfold State.actNow
  conv => zeta
  with_reducible repeat' (first | assumption | intro _ | apply State.settle_keeps | apply State.setLand_keeps | simp only [Keeps.update] | apply Keeps.ite | apply Keeps.foldl | split)

theorem State.releaseLand_keeps {z : State} (s : State) (k : Nat) : Keeps z s → Keeps z (State.releaseLand s k) := by
  intro h0
  unfold State.releaseLand
  with_reducible repeat' (first | assumption | intro _ | apply State.actNow_keeps | simp only [Keeps.update] | apply Keeps.ite | apply Keeps.foldl | split)

theorem State.setSeq_keeps {z : State} (s : State) (h : Nat) (q : SeqSt) : Keeps z s → Keeps z (State.setSeq s h q) := by
  intro h0
  unfold State.setSeq
  with_reducible repeat' (first | assumption | intro _ | simp only [Keeps.update] | apply Keeps.ite | apply Keeps.foldl | split)

theorem State.readProducer_keeps {z : State} (s : State) (h : Nat) : Keeps z s → Keeps z (State.readProducer s h) := by
  intro h0
  unfold State.readProducer
  conv => zeta
  with_reducible repeat' (first | assumption | intro _ | apply State.setSeq_keeps | simp only [Keeps.update] | apply Keeps.ite | apply Keeps.foldl | split)

theorem State.putAlcove_keeps {z : State} (s : State) (h : Nat) (a : Nat) (b : Bytes) : Keeps z s → Keeps z (State.putAlcove s h a b) := by
  intro h0
  unfold State.putAlcove
  conv => zeta
  with_reducible repeat' (first | assumption | intro _ | apply State.readProducer_keeps | apply State.alcoveWrite_keeps | simp only [Keeps.update] | apply Keeps.ite | apply Keeps.foldl | split)

theorem State.putBeat_keeps {z : State} (s : State) (k : Nat) (a : Nat) (b : Bytes) : Keeps z s → Keeps z (State.putBeat s k a b) := by
  intro h0
  unfold State.putBeat
  conv => zeta
  with_reducible repeat' (first | assumption | intro _ | apply State.atriumWrite_keeps | simp only [Keeps.update] | apply Keeps.ite | apply Keeps.foldl | split)

theorem State.putAtrium_keeps {z : State} (s : State) (k : Nat) (a : Nat) (b : Bytes) : Keeps z s → Keeps z (State.putAtrium s k a b) := by
  intro h0
  unfold State.putAtrium
  conv => zeta
  with_reducible repeat' (first | assumption | intro _ | apply State.atriumWrite_keeps | simp only [Keeps.update] | apply Keeps.ite | apply Keeps.foldl | split)

theorem State.poisonAlcove_keeps {z : State} (s : State) (h : Nat) (a : Nat) (n : Nat) (kind : Nat) : Keeps z s → Keeps z (State.poisonAlcove s h a n kind) := by
  intro h0
  unfold State.poisonAlcove
  conv => zeta
  with_reducible repeat' (first | assumption | intro _ | apply State.almHall_keeps | apply State.bump_keeps | simp only [Keeps.update] | apply Keeps.ite | apply Keeps.foldl | split)

theorem State.poisonBeat_keeps {z : State} (s : State) (k : Nat) (a : Nat) (kind : Nat) : Keeps z s → Keeps z (State.poisonBeat s k a kind) := by
  intro h0
  unfold State.poisonBeat
  conv => zeta
  with_reducible repeat' (first | assumption | intro _ | apply State.alm_keeps | apply State.bump_keeps | simp only [Keeps.update] | apply Keeps.ite | apply Keeps.foldl | split)

theorem State.poisonUse_keeps {z : State} (s : State) (bad : Bool) : Keeps z s → Keeps z (State.poisonUse s bad) := by
  intro h0
  unfold State.poisonUse
  with_reducible repeat' (first | assumption | intro _ | apply State.raise_keeps | apply State.bump_keeps | simp only [Keeps.update] | apply Keeps.ite | apply Keeps.foldl | split)

theorem State.fillBuffer_keeps {z : State} (s : State) (h : Nat) (cls : Nat) (own : Option (Nat × Nat)) (id : Nat) (b : Bytes) : Keeps z s → Keeps z (State.fillBuffer s h cls own id b) := by
  intro h0
  unfold State.fillBuffer
  with_reducible repeat' (first | assumption | intro _ | apply State.putAlcove_keeps | apply State.putAtrium_keeps | apply State.hallWrite_keeps | simp only [Keeps.update] | apply Keeps.ite | apply Keeps.foldl | split)

theorem State.dropDelivery_keeps {z : State} (s : State) (d : Delivery) : Keeps z s → Keeps z (State.dropDelivery s d) := by
  intro h0
  unfold State.dropDelivery
  conv => zeta
  with_reducible repeat' (first | assumption | intro _ | apply State.bump_keeps | apply State.drop_keeps | simp only [Keeps.update] | apply Keeps.ite | apply Keeps.foldl | split)

theorem State.rqDone_keeps {z : State} (s : State) (k : Nat) (status : Nat) (info : Nat) (cookie : Nat) (len : Nat) (d : Delivery) : Keeps z s → Keeps z (State.rqDone s k status info cookie len d) := by
  intro h0
  unfold State.rqDone
  conv => zeta
  with_reducible repeat' (first | assumption | intro _ | apply State.setQueue_keeps | apply State.descDone_keeps | simp only [Keeps.update] | apply Keeps.ite | apply Keeps.foldl | split)

theorem State.deliverNow_keeps {z : State} (s : State) (d : Delivery) : Keeps z s → Keeps z (State.deliverNow s d) := by
  intro h0
  unfold State.deliverNow
  conv => zeta
  with_reducible repeat' (first | assumption | intro _ | apply State.rqDone_keeps | apply State.hallWrite_keeps | apply State.dropDelivery_keeps | apply State.allocFor_keeps | apply State.fillBuffer_keeps | simp only [KeepsFst.pair] | apply KeepsFst.ite | apply KeepsFst.foldl | simp only [Keeps.update] | apply Keeps.ite | apply Keeps.foldl | (refine Keeps.fst (by assumption) ?_) | apply KeepsFst.first | split)

theorem State.setWaiting_keeps {z : State} (s : State) (h : Nat) (l : List Delivery) : Keeps z s → Keeps z (State.setWaiting s h l) := by
  intro h0
  unfold State.setWaiting
  with_reducible repeat' (first | assumption | intro _ | simp only [Keeps.update] | apply Keeps.ite | apply Keeps.foldl | split)

theorem State.offer_keeps {z : State} (s : State) (h : Nat) (d : Delivery) : Keeps z s → Keeps z (State.offer s h d) := by
  intro h0
  unfold State.offer
  conv => zeta
  with_reducible repeat' (first | assumption | intro _ | apply State.rqSkim_keeps | apply State.dropDelivery_keeps | apply State.deliverNow_keeps | apply State.setWaiting_keeps | simp only [Keeps.update] | apply Keeps.ite | apply Keeps.foldl | split)

theorem execRqDelivery_keeps {z : State} (h : Nat) (s : State) : Keeps z s → KeepsNext z (execRqDelivery h s) := by
  intro h0
  unfold execRqDelivery
  conv => zeta
  with_reducible repeat' (first | assumption | intro _ | apply State.rqSkim_keeps | apply State.setWaiting_keeps | apply State.deliverNow_keeps | apply State.dropDelivery_keeps | apply KeepsNext.next | apply KeepsNext.ite | simp only [Keeps.update] | apply Keeps.ite | apply Keeps.foldl | split)

theorem State.takeOp_keeps {z : State} (s : State) (h slot opc : Nat) : Keeps z s → ∀ u x, s.takeOp h slot opc = some (x, u) → Keeps z u := by
  intro h0 u x e
  unfold State.takeOp at e
  simp only [Option.ite_none_right_eq_some, Option.some.injEq, Prod.mk.injEq] at e
  obtain ⟨_, _, rfl⟩ := e
  exact State.atTime_keeps _ _ (State.setSeq_keeps _ _ _ h0)

theorem State.occupy_keeps {z : State} (s : State) (h : Nat) (o : Nat) (clocks : Nat) : Keeps z s → Keeps z (State.occupy s h o clocks) := by
  intro h0
  unfold State.occupy
  conv => zeta
  with_reducible repeat' (first | assumption | intro _ | apply State.setSeq_keeps | simp only [Keeps.update] | apply Keeps.ite | apply Keeps.foldl | split)

theorem execOpNop_keeps {z : State} (h : Nat) (slot : Nat) (s : State) : Keeps z s → KeepsNext z (execOpNop h slot s) := by
  intro h0
  unfold execOpNop
  with_reducible repeat' (first | assumption | intro _ | (refine State.takeOp_keeps _ _ _ _ ?_ _ _ (by assumption)) | apply KeepsNext.next | apply KeepsNext.ite | simp only [Keeps.update] | apply Keeps.ite | apply Keeps.foldl | split)

theorem State.setPtr_keeps {z : State} (s : State) (h : Nat) (k : Nat) (endp : Nat) (addr : Nat) (buf : Option Nat) : Keeps z s → Keeps z (State.setPtr s h k endp addr buf) := by
  intro h0
  unfold State.setPtr
  conv => zeta
  with_reducible repeat' (first | assumption | intro _ | apply State.setFld_keeps | simp only [Keeps.update] | apply Keeps.ite | apply Keeps.foldl | split)

theorem State.voidPtr_keeps {z : State} (s : State) (h : Nat) (k : Nat) : Keeps z s → Keeps z (State.voidPtr s h k) := by
  intro h0
  unfold State.voidPtr
  with_reducible repeat' (first | assumption | intro _ | apply State.setPtr_keeps | simp only [Keeps.update] | apply Keeps.ite | apply Keeps.foldl | split)

theorem State.orphan_keeps {z : State} (s : State) (h : Nat) (k : Nat) : Keeps z s → Keeps z (State.orphan s h k) := by
  intro h0
  unfold State.orphan
  with_reducible repeat' (first | assumption | intro _ | apply State.drop_keeps | apply State.bump_keeps | simp only [Keeps.update] | apply Keeps.ite | apply Keeps.foldl | split)

theorem State.allocLand_keeps {z : State} (s : State) (h : Nat) (a : Alloc) : Keeps z s → Keeps z (State.allocLand s h a) := by
  intro h0
  unfold State.allocLand
  with_reducible repeat' (first | assumption | intro _ | apply State.voidPtr_keeps | apply State.setPtr_keeps | apply State.setSeq_keeps | simp only [Keeps.update] | apply Keeps.ite | apply Keeps.foldl | split)

theorem State.allocsLand_keeps {z : State} (s : State) (h : Nat) : Keeps z s → Keeps z (State.allocsLand s h) := by
  intro h0
  unfold State.allocsLand
  conv => zeta
  with_reducible repeat' (first | assumption | intro _ | apply State.allocLand_keeps | apply State.setSeq_keeps | simp only [Keeps.update] | apply Keeps.ite | apply Keeps.foldl | split)

theorem State.notePtr_keeps {z : State} (s : State) (h : Nat) (k : Nat) (o : Nat) : Keeps z s → Keeps z (State.notePtr s h k o) := by
  intro h0
  unfold State.notePtr
  conv => zeta
  with_reducible repeat' (first | assumption | intro _ | apply State.setSeq_keeps | simp only [Keeps.update] | apply Keeps.ite | apply Keeps.foldl | split)

theorem State.doSetptr_keeps {z : State} (s : State) (h : Nat) (o : Nat) : Keeps z s → Keeps z (State.doSetptr s h o) := by
  intro h0
  unfold State.doSetptr
  conv => zeta
  with_reducible repeat' (first | assumption | intro _ | apply State.setPtr_keeps | apply State.orphan_keeps | apply State.notePtr_keeps | simp only [Keeps.update] | apply Keeps.ite | apply Keeps.foldl | split)

theorem execSetptr_keeps {z : State} (h : Nat) (s : State) : Keeps z s → KeepsNext z (execSetptr h s) := by
  intro h0
  unfold execSetptr
  with_reducible repeat' (first | assumption | intro _ | (refine State.takeOp_keeps _ _ _ _ ?_ _ _ (by assumption)) | apply State.doSetptr_keeps | apply State.allocsLand_keeps | apply KeepsNext.next | apply KeepsNext.ite | simp only [Keeps.update] | apply Keeps.ite | apply Keeps.foldl | split)

theorem State.addMove_keeps {z : State} (s : State) (m : Move) : Keeps z s → Keeps z (State.addMove s m) := by
  intro h0
  unfold State.addMove
  with_reducible repeat' (first | assumption | intro _ | simp only [Keeps.update] | apply Keeps.ite | apply Keeps.foldl | split)

theorem execMove_keeps {z : State} (h : Nat) (s : State) : Keeps z s → KeepsNext z (execMove h s) := by
  intro h0
  unfold execMove
  conv => zeta
  with_reducible repeat' (first | assumption | intro _ | (refine State.takeOp_keeps _ _ _ _ ?_ _ _ (by assumption)) | apply State.allocsLand_keeps | apply State.occupy_keeps | apply State.bump_keeps | apply State.setPtr_keeps | apply State.notePtr_keeps | apply State.bump64_keeps | apply State.addMove_keeps | apply State.poisonUse_keeps | apply KeepsNext.next | apply KeepsNext.ite | simp only [Keeps.update] | apply Keeps.ite | apply Keeps.foldl | split)

theorem State.flowAppend_keeps {z : State} (s : State) (h : Nat) (f : Nat) (r : Bytes) : Keeps z s → KeepsFst z (State.flowAppend s h f r) := by
  intro h0
  unfold State.flowAppend
  conv => zeta
  with_reducible repeat' (first | assumption | intro _ | apply State.putAlcove_keeps | simp only [KeepsFst.pair] | apply KeepsFst.ite | apply KeepsFst.foldl | simp only [Keeps.update] | apply Keeps.ite | apply Keeps.foldl | (refine Keeps.fst (by assumption) ?_) | apply KeepsFst.first | split)

theorem State.flowPush_keeps {z : State} (s : State) (h : Nat) (src : Nat) (f : Nat) (v4 : Nat) (v5 : Bytes) : Keeps z s → Keeps z (State.flowPush s h src f v4 v5) := by
  induction v4 generalizing s h src f v5 with
  | zero =>
    intro h0
    unfold State.flowPush
    conv => zeta
    with_reducible repeat' (first | assumption | intro _ | apply State.bumpBy_keeps | apply State.putAlcove_keeps | apply State.bump_keeps | apply State.flowAppend_keeps | simp only [KeepsFst.pair] | apply KeepsFst.ite | apply KeepsFst.foldl | simp only [Keeps.update] | apply Keeps.ite | apply Keeps.foldl | (refine Keeps.fst (by assumption) ?_) | apply KeepsFst.first | split)
  | succ n ih =>
    intro h0
    unfold State.flowPush
    conv => zeta
    with_reducible repeat' (first | assumption | intro _ | apply ih | apply State.bumpBy_keeps | apply State.putAlcove_keeps | apply State.bump_keeps | apply State.flowAppend_keeps | simp only [KeepsFst.pair] | apply KeepsFst.ite | apply KeepsFst.foldl | simp only [Keeps.update] | apply Keeps.ite | apply Keeps.foldl | (refine Keeps.fst (by assumption) ?_) | apply KeepsFst.first | split)

theorem State.planEnqueue_keeps {z : State} (s : State) (h : Nat) (l : Nat) (b : Bytes) (tstamp : Bool) : Keeps z s → Keeps z (State.planEnqueue s h l b tstamp) := by
  intro h0
  unfold State.planEnqueue
  with_reducible repeat' (first | assumption | intro _ | apply State.bump_keeps | apply State.setPort_keeps | simp only [Keeps.update] | apply Keeps.ite | apply Keeps.foldl | split)

theorem State.laneRecords_keeps {z : State} (s : State) (m : Move) (v2 : Nat) : Keeps z s → KeepsFst z (State.laneRecords s m v2) := by
  induction v2 generalizing s m with
  | zero =>
    intro h0
    unfold State.laneRecords
    conv => zeta
    with_reducible repeat' (first | assumption | intro _ | apply State.bump_keeps | apply State.poisonUse_keeps | apply State.dropFrame_keeps | apply State.openEnqueue_keeps | apply State.planEnqueue_keeps | simp only [KeepsFst.pair] | apply KeepsFst.ite | apply KeepsFst.foldl | simp only [Keeps.update] | apply Keeps.ite | apply Keeps.foldl | (refine Keeps.fst (by assumption) ?_) | apply KeepsFst.first | split)
  | succ n ih =>
    intro h0
    unfold State.laneRecords
    conv => zeta
    with_reducible repeat' (first | assumption | intro _ | apply ih | apply State.bump_keeps | apply State.poisonUse_keeps | apply State.dropFrame_keeps | apply State.openEnqueue_keeps | apply State.planEnqueue_keeps | simp only [KeepsFst.pair] | apply KeepsFst.ite | apply KeepsFst.foldl | simp only [Keeps.update] | apply Keeps.ite | apply Keeps.foldl | (refine Keeps.fst (by assumption) ?_) | apply KeepsFst.first | split)

theorem State.setMove_keeps {z : State} (s : State) (m : Move) : Keeps z s → Keeps z (State.setMove s m) := by
  intro h0
  unfold State.setMove
  with_reducible repeat' (first | assumption | intro _ | simp only [Keeps.update] | apply Keeps.ite | apply Keeps.foldl | split)

theorem State.endMove_keeps {z : State} (s : State) (i : Nat) : Keeps z s → Keeps z (State.endMove s i) := by
  intro h0
  unfold State.endMove
  with_reducible repeat' (first | assumption | intro _ | simp only [Keeps.update] | apply Keeps.ite | apply Keeps.foldl | split)

theorem State.deliverFlit_keeps {z : State} (s : State) (m : Move) : Keeps z s → Keeps z (State.deliverFlit s m) := by
  intro h0
  unfold State.deliverFlit
  conv => zeta
  with_reducible repeat' (first | assumption | intro _ | apply State.putAlcove_keeps | apply State.poisonAlcove_keeps | apply State.endMove_keeps | apply State.setMove_keeps | apply State.poisonUse_keeps | apply State.laneRecords_keeps | apply State.flowPush_keeps | simp only [KeepsFst.pair] | apply KeepsFst.ite | apply KeepsFst.foldl | simp only [Keeps.update] | apply Keeps.ite | apply Keeps.foldl | (refine Keeps.fst (by assumption) ?_) | apply KeepsFst.first | split)

theorem execMoveFlitDeliver_keeps {z : State} (i : Nat) (bad : Bool) (s : State) : Keeps z s → KeepsNext z (execMoveFlitDeliver i bad s) := by
  intro h0
  unfold execMoveFlitDeliver
  conv => zeta
  with_reducible repeat' (first | assumption | intro _ | apply State.atTime_keeps | apply State.bump64_keeps | apply State.raise_keeps | apply State.bump_keeps | apply State.deliverFlit_keeps | apply KeepsNext.next | apply KeepsNext.ite | simp only [Keeps.update] | apply Keeps.ite | apply Keeps.foldl | split)

theorem execAtriumBeat_keeps {z : State} (i : Nat) (ecc : Nat) (s : State) : Keeps z s → KeepsNext z (execAtriumBeat i ecc s) := by
  intro h0
  unfold execAtriumBeat
  conv => zeta
  with_reducible repeat' (first | assumption | intro _ | apply State.atTime_keeps | apply State.poisonUse_keeps | apply State.bump_keeps | apply State.alm_keeps | apply State.setMove_keeps | apply State.putBeat_keeps | apply State.poisonBeat_keeps | apply State.endMove_keeps | apply KeepsNext.next | apply KeepsNext.ite | simp only [Keeps.update] | apply Keeps.ite | apply Keeps.foldl | split)

theorem State.refresh_keeps {z : State} (s : State) (stack : Nat) (ch : Nat) (t : Nat) : Keeps z s → Keeps z (State.refresh s stack ch t) := by
  intro h0
  unfold State.refresh
  conv => zeta
  with_reducible repeat' (first | assumption | intro _ | apply State.setFld_keeps | simp only [Keeps.update] | apply Keeps.ite | apply Keeps.foldl | split)

theorem execRefresh_keeps {z : State} (h : Nat) (s : State) : Keeps z s → KeepsNext z (execRefresh h s) := by
  intro h0
  unfold execRefresh
  with_reducible repeat' (first | assumption | intro _ | (refine State.takeOp_keeps _ _ _ _ ?_ _ _ (by assumption)) | apply State.refresh_keeps | apply State.occupy_keeps | apply KeepsNext.next | apply KeepsNext.ite | simp only [Keeps.update] | apply Keeps.ite | apply Keeps.foldl | split)

theorem execEmergRefresh_keeps {z : State} (stack : Nat) (ch : Nat) (at_ : Nat) (s : State) : Keeps z s → KeepsNext z (execEmergRefresh stack ch at_ s) := by
  intro h0
  unfold execEmergRefresh
  conv => zeta
  with_reducible repeat' (first | assumption | intro _ | apply State.atTime_keeps | apply State.refresh_keeps | apply State.setFld_keeps | apply State.alm_keeps | apply State.bump_keeps | apply KeepsNext.next | apply KeepsNext.ite | simp only [Keeps.update] | apply Keeps.ite | apply Keeps.foldl | split)

theorem execSelfRefresh_keeps {z : State} (stack : Nat) (ch : Nat) (at_ : Nat) (s : State) : Keeps z s → KeepsNext z (execSelfRefresh stack ch at_ s) := by
  intro h0
  unfold execSelfRefresh
  conv => zeta
  with_reducible repeat' (first | assumption | intro _ | apply State.atTime_keeps | apply KeepsNext.next | apply KeepsNext.ite | simp only [Keeps.update] | apply Keeps.ite | apply Keeps.foldl | split)

theorem execWin_keeps {z : State} (h : Nat) (s : State) : Keeps z s → KeepsNext z (execWin h s) := by
  intro h0
  unfold execWin
  conv => zeta
  with_reducible repeat' (first | assumption | intro _ | (refine State.takeOp_keeps _ _ _ _ ?_ _ _ (by assumption)) | apply State.occupy_keeps | apply State.setSeq_keeps | apply KeepsNext.next | apply KeepsNext.ite | simp only [Keeps.update] | apply Keeps.ite | apply Keeps.foldl | split)

theorem execSkipOp_keeps {z : State} (h : Nat) (s : State) : Keeps z s → KeepsNext z (execSkipOp h s) := by
  intro h0
  unfold execSkipOp
  with_reducible repeat' (first | assumption | intro _ | (refine State.takeOp_keeps _ _ _ _ ?_ _ _ (by assumption)) | apply KeepsNext.next | apply KeepsNext.ite | simp only [Keeps.update] | apply Keeps.ite | apply Keeps.foldl | split)

theorem execLand_keeps {z : State} (h : Nat) (s : State) : Keeps z s → KeepsNext z (execLand h s) := by
  intro h0
  unfold execLand
  with_reducible repeat' (first | assumption | intro _ | (refine State.takeOp_keeps _ _ _ _ ?_ _ _ (by assumption)) | apply KeepsNext.next | apply KeepsNext.ite | simp only [Keeps.update] | apply Keeps.ite | apply Keeps.foldl | split)

theorem execWake_keeps {z : State} (h : Nat) (s : State) : Keeps z s → KeepsNext z (execWake h s) := by
  intro h0
  unfold execWake
  conv => zeta
  with_reducible repeat' (first | assumption | intro _ | (refine State.takeOp_keeps _ _ _ _ ?_ _ _ (by assumption)) | apply KeepsNext.next | apply KeepsNext.ite | simp only [Keeps.update] | apply Keeps.ite | apply Keeps.foldl | split)

theorem execBufOpAlloc_keeps {z : State} (h : Nat) (s : State) : Keeps z s → KeepsNext z (execBufOpAlloc h s) := by
  intro h0
  unfold execBufOpAlloc
  conv => zeta
  with_reducible repeat' (first | assumption | intro _ | (refine State.takeOp_keeps _ _ _ _ ?_ _ _ (by assumption)) | apply State.allocsLand_keeps | apply State.occupy_keeps | apply State.orphan_keeps | apply State.notePtr_keeps | apply State.voidPtr_keeps | apply State.bump_keeps | apply State.allocFor_keeps | apply State.setSeq_keeps | apply KeepsNext.next | apply KeepsNext.ite | simp only [KeepsFst.pair] | apply KeepsFst.ite | apply KeepsFst.foldl | simp only [Keeps.update] | apply Keeps.ite | apply Keeps.foldl | (refine Keeps.fst (by assumption) ?_) | apply KeepsFst.first | split)

theorem execBufAllocResult_keeps {z : State} (h : Nat) (at_ : Nat) (s : State) : Keeps z s → KeepsNext z (execBufAllocResult h at_ s) := by
  intro h0
  unfold execBufAllocResult
  conv => zeta
  with_reducible repeat' (first | assumption | intro _ | apply State.atTime_keeps | apply State.allocLand_keeps | apply State.setSeq_keeps | apply KeepsNext.next | apply KeepsNext.ite | simp only [Keeps.update] | apply Keeps.ite | apply Keeps.foldl | split)

theorem execBufOpHand_keeps {z : State} (h : Nat) (s : State) : Keeps z s → KeepsNext z (execBufOpHand h s) := by
  intro h0
  unfold execBufOpHand
  conv => zeta
  with_reducible repeat' (first | assumption | intro _ | (refine State.takeOp_keeps _ _ _ _ ?_ _ _ (by assumption)) | apply State.allocsLand_keeps | apply State.occupy_keeps | apply State.setSeq_keeps | apply KeepsNext.next | apply KeepsNext.ite | simp only [Keeps.update] | apply Keeps.ite | apply Keeps.foldl | split)

theorem execHandPost_keeps {z : State} (h : Nat) (s : State) : Keeps z s → KeepsNext z (execHandPost h s) := by
  intro h0
  unfold execHandPost
  conv => zeta
  with_reducible repeat' (first | assumption | intro _ | apply State.setSeq_keeps | apply State.voidPtr_keeps | apply State.drop_keeps | apply State.bump_keeps | apply State.offer_keeps | apply KeepsNext.next | apply KeepsNext.ite | simp only [KeepsFst.pair] | apply KeepsFst.ite | apply KeepsFst.foldl | simp only [Keeps.update] | apply Keeps.ite | apply Keeps.foldl | (refine Keeps.fst (by assumption) ?_) | apply KeepsFst.first | split)

theorem execBufOpRelease_keeps {z : State} (h : Nat) (s : State) : Keeps z s → KeepsNext z (execBufOpRelease h s) := by
  intro h0
  unfold execBufOpRelease
  conv => zeta
  with_reducible repeat' (first | assumption | intro _ | (refine State.takeOp_keeps _ _ _ _ ?_ _ _ (by assumption)) | apply State.allocsLand_keeps | apply State.occupy_keeps | apply State.voidPtr_keeps | apply State.drop_keeps | apply State.notePtr_keeps | apply KeepsNext.next | apply KeepsNext.ite | simp only [Keeps.update] | apply Keeps.ite | apply Keeps.foldl | split)

theorem execEvtOp_keeps {z : State} (h : Nat) (s : State) : Keeps z s → KeepsNext z (execEvtOp h s) := by
  intro h0
  unfold execEvtOp
  conv => zeta
  with_reducible repeat' (first | assumption | intro _ | (refine State.takeOp_keeps _ _ _ _ ?_ _ _ (by assumption)) | apply State.setLand_keeps | apply KeepsNext.next | apply KeepsNext.ite | simp only [Keeps.update] | apply Keeps.ite | apply Keeps.foldl | split)

theorem State.toBoundary_keeps {z : State} (s : State) : Keeps z s → Keeps z (State.toBoundary s) := by
  intro h0
  unfold State.toBoundary
  with_reducible repeat' (first | assumption | intro _ | apply State.atTime_keeps | simp only [Keeps.update] | apply Keeps.ite | apply Keeps.foldl | split)

theorem State.setSlot_keeps {z : State} (s : State) (k : Nat) (v : KeySlot) : Keeps z s → Keeps z (State.setSlot s k v) := by
  intro h0
  unfold State.setSlot
  with_reducible repeat' (first | assumption | intro _ | simp only [Keeps.update] | apply Keeps.ite | apply Keeps.foldl | split)

theorem State.zeroize_keeps {z : State} (s : State) (k : Nat) : Keeps z s → Keeps z (State.zeroize s k) := by
  intro h0
  unfold State.zeroize
  with_reducible repeat' (first | assumption | intro _ | apply State.nextGen_keeps | apply State.setSlot_keeps | simp only [Keeps.update] | apply Keeps.ite | apply Keeps.foldl | split)

theorem State.assignValue_keeps {z : State} (s : State) (h : Nat) (k : Nat) (t : Nat) : Keeps z s → KeepsFst z (State.assignValue s h k t) := by
  intro h0
  unfold State.assignValue
  conv => zeta
  with_reducible repeat' (first | assumption | intro _ | apply State.setSlot_keeps | apply State.almDev_keeps | apply State.event_keeps | apply State.raise_keeps | simp only [KeepsFst.pair] | apply KeepsFst.ite | apply KeepsFst.foldl | simp only [Keeps.update] | apply Keeps.ite | apply Keeps.foldl | (refine Keeps.fst (by assumption) ?_) | apply KeepsFst.first | split)

theorem State.tableSubmit_keeps {z : State} (s : State) (d : AdminCmd) (buf : Bytes) (all : Bool) (ok : Bool) : Keeps z s → Keeps z (State.tableSubmit s d buf all ok) := by
  intro h0
  unfold State.tableSubmit
  conv => zeta
  with_reducible repeat' (first | assumption | intro _ | apply State.adminFail_keeps | simp only [Keeps.update] | apply Keeps.ite | apply Keeps.foldl | split)

theorem State.setStation_keeps {z : State} (s : State) (h : Nat) (sid : Nat) (e : Bytes) : Keeps z s → Keeps z (State.setStation s h sid e) := by
  intro h0
  unfold State.setStation
  conv => zeta
  with_reducible repeat' (first | assumption | intro _ | apply State.setFld_keeps | simp only [Keeps.update] | apply Keeps.ite | apply Keeps.foldl | split)

theorem State.setChan_keeps {z : State} (s : State) (i : Nat) (c : Chan) : Keeps z s → Keeps z (State.setChan s i c) := by
  intro h0
  unfold State.setChan
  with_reducible repeat' (first | assumption | intro _ | simp only [Keeps.update] | apply Keeps.ite | apply Keeps.foldl | split)

theorem State.setChHall_keeps {z : State} (s : State) (h : Nat) (i : Nat) (c : ChanHall) : Keeps z s → Keeps z (State.setChHall s h i c) := by
  intro h0
  unfold State.setChHall
  with_reducible repeat' (first | assumption | intro _ | simp only [Keeps.update] | apply Keeps.ite | apply Keeps.foldl | split)

theorem State.showBound_keeps {z : State} (s : State) (h : Nat) : Keeps z s → Keeps z (State.showBound s h) := by
  intro h0
  unfold State.showBound
  with_reducible repeat' (first | assumption | intro _ | apply State.setFld_keeps | simp only [Keeps.update] | apply Keeps.ite | apply Keeps.foldl | split)

theorem State.notify_keeps {z : State} (s : State) (h : Nat) (kind : Nat) (sid : Nat) (reason : Nat) (mac : Bytes) (lane : Nat) (tci : Nat) : Keeps z s → Keeps z (State.notify s h kind sid reason mac lane tci) := by
  intro h0
  unfold State.notify
  conv => zeta
  with_reducible repeat' (first | assumption | intro _ | apply State.raise_keeps | apply State.bump_keeps | apply State.eventOwner_keeps | simp only [Keeps.update] | apply Keeps.ite | apply Keeps.foldl | split)

theorem State.notifySid_keeps {z : State} (s : State) (h : Nat) (kind : Nat) (sid : Nat) (reason : Nat) : Keeps z s → Keeps z (State.notifySid s h kind sid reason) := by
  intro h0
  unfold State.notifySid
  conv => zeta
  with_reducible repeat' (first | assumption | intro _ | apply State.notify_keeps | simp only [Keeps.update] | apply Keeps.ite | apply Keeps.foldl | split)

theorem execNotifyOverflowSend_keeps {z : State} (h : Nat) (s : State) : Keeps z s → KeepsNext z (execNotifyOverflowSend h s) := by
  intro h0
  unfold execNotifyOverflowSend
  with_reducible repeat' (first | assumption | intro _ | apply State.notify_keeps | apply KeepsNext.next | apply KeepsNext.ite | simp only [Keeps.update] | apply Keeps.ite | apply Keeps.foldl | split)

theorem State.sidConflict_keeps {z : State} (s : State) (h : Nat) (sid : Nat) (mac : Bytes) (lane : Nat) (tci : Nat) : Keeps z s → Keeps z (State.sidConflict s h sid mac lane tci) := by
  intro h0
  unfold State.sidConflict
  conv => zeta
  with_reducible repeat' (first | assumption | intro _ | apply State.almHall_keeps | apply State.notify_keeps | simp only [Keeps.update] | apply Keeps.ite | apply Keeps.foldl | split)

theorem execChannelBind_keeps {z : State} (d : AdminCmd) (s : State) : Keeps z s → KeepsNext z (execChannelBind d s) := by
  intro h0
  unfold execChannelBind
  conv => zeta
  with_reducible repeat' (first | assumption | intro _ | apply State.admin_keeps | apply State.adminFail_keeps | apply State.setChan_keeps | apply State.setChHall_keeps | apply State.adminOk_keeps | apply KeepsNext.next | apply KeepsNext.ite | simp only [Keeps.update] | apply Keeps.ite | apply Keeps.foldl | split)

theorem State.endChan_keeps {z : State} (s : State) (i : Nat) : Keeps z s → Keeps z (State.endChan s i) := by
  intro h0
  unfold State.endChan
  conv => zeta
  with_reducible repeat' (first | assumption | intro _ | apply State.showBound_keeps | apply State.nextGen_keeps | simp only [Keeps.update] | apply Keeps.ite | apply Keeps.foldl | split)

theorem State.unbindNow_keeps {z : State} (s : State) (i : Nat) (c : Chan) (reason : Nat) (words : List (Nat × Nat)) : Keeps z s → Keeps z (State.unbindNow s i c reason words) := by
  intro h0
  unfold State.unbindNow
  conv => zeta
  with_reducible repeat' (first | assumption | intro _ | apply State.notifySid_keeps | apply State.endChan_keeps | apply State.putAlcove_keeps | simp only [Keeps.update] | apply Keeps.ite | apply Keeps.foldl | split)

theorem State.chanFor_keeps {z : State} (s : State) (d : AdminCmd) (k : Nat → Chan → State) : Keeps z s → (∀ (x0 : Nat) (x1 : Chan), Keeps z (k x0 x1)) → Keeps z (State.chanFor s d k) := by
  intro h0 h1
  unfold State.chanFor
  with_reducible repeat' (first | assumption | intro _ | apply h1 | apply State.adminFail_keeps | simp only [Keeps.update] | apply Keeps.ite | apply Keeps.foldl | split)

theorem execChannelUnbind_keeps {z : State} (d : AdminCmd) (s : State) : Keeps z s → KeepsNext z (execChannelUnbind d s) := by
  intro h0
  unfold execChannelUnbind
  with_reducible repeat' (first | assumption | intro _ | apply State.admin_keeps | apply State.chanFor_keeps | apply State.adminOk_keeps | apply State.endChan_keeps | apply State.setChan_keeps | apply KeepsNext.next | apply KeepsNext.ite | simp only [Keeps.update] | apply Keeps.ite | apply Keeps.foldl | split)

theorem execChannelSetKey_keeps {z : State} (d : AdminCmd) (s : State) : Keeps z s → KeepsNext z (execChannelSetKey d s) := by
  intro h0
  unfold execChannelSetKey
  conv => zeta
  with_reducible repeat' (first | assumption | intro _ | apply State.admin_keeps | apply State.chanFor_keeps | apply State.adminFail_keeps | apply State.adminOk_keeps | apply State.setChan_keeps | apply KeepsNext.next | apply KeepsNext.ite | simp only [Keeps.update] | apply Keeps.ite | apply Keeps.foldl | split)

theorem execChannelQuery_keeps {z : State} (d : AdminCmd) (s : State) : Keeps z s → KeepsNext z (execChannelQuery d s) := by
  intro h0
  unfold execChannelQuery
  conv => zeta
  with_reducible repeat' (first | assumption | intro _ | apply State.admin_keeps | apply State.chanFor_keeps | apply State.adminOk_keeps | apply State.adminOut_keeps | apply KeepsNext.next | apply KeepsNext.ite | simp only [Keeps.update] | apply Keeps.ite | apply Keeps.foldl | split)

theorem execStationRead_keeps {z : State} (d : AdminCmd) (s : State) : Keeps z s → KeepsNext z (execStationRead d s) := by
  intro h0
  unfold execStationRead
  with_reducible repeat' (first | assumption | intro _ | apply State.admin_keeps | apply State.tableSubmit_keeps | apply KeepsNext.next | apply KeepsNext.ite | simp only [Keeps.update] | apply Keeps.ite | apply Keeps.foldl | split)

theorem execStationWrite_keeps {z : State} (d : AdminCmd) (buf : Bytes) (s : State) : Keeps z s → KeepsNext z (execStationWrite d buf s) := by
  intro h0
  unfold execStationWrite
  with_reducible repeat' (first | assumption | intro _ | apply State.admin_keeps | apply State.tableSubmit_keeps | apply KeepsNext.next | apply KeepsNext.ite | simp only [Keeps.update] | apply Keeps.ite | apply Keeps.foldl | split)

theorem execStationClear_keeps {z : State} (d : AdminCmd) (s : State) : Keeps z s → KeepsNext z (execStationClear d s) := by
  intro h0
  unfold execStationClear
  with_reducible repeat' (first | assumption | intro _ | apply State.admin_keeps | apply State.tableSubmit_keeps | apply KeepsNext.next | apply KeepsNext.ite | simp only [Keeps.update] | apply Keeps.ite | apply Keeps.foldl | split)

theorem State.entryNew_keeps {z : State} (s : State) (h : Nat) (sid : Nat) (was : Bool) : Keeps z s → Keeps z (State.entryNew s h sid was) := by
  intro h0
  unfold State.entryNew
  conv => zeta
  with_reducible repeat' (first | assumption | intro _ | apply State.setChHall_keeps | apply State.sidConflict_keeps | simp only [Keeps.update] | apply Keeps.ite | apply Keeps.foldl | split)

theorem State.zeroWords_keeps {z : State} (s : State) (h : Nat) (l : Nat) : Keeps z s → Keeps z (State.zeroWords s h l) := by
  intro h0
  unfold State.zeroWords
  with_reducible repeat' (first | assumption | intro _ | apply State.putAlcove_keeps | simp only [Keeps.update] | apply Keeps.ite | apply Keeps.foldl | split)

theorem State.zeroSlot_keeps {z : State} (s : State) (h : Nat) (p : Plan.Pool) (slot : Nat) : Keeps z s → Keeps z (State.zeroSlot s h p slot) := by
  intro h0
  unfold State.zeroSlot
  with_reducible repeat' (first | assumption | intro _ | apply State.putAlcove_keeps | simp only [Keeps.update] | apply Keeps.ite | apply Keeps.foldl | split)

theorem State.cycFlight_keeps {z : State} (s : State) : Keeps z s → Keeps z (State.cycFlight s) := by
  intro h0
  unfold State.cycFlight
  with_reducible repeat' (first | assumption | intro _ | simp only [Keeps.update] | apply Keeps.ite | apply Keeps.foldl | split)

theorem State.cycKeyLand_keeps {z : State} (s : State) (k : Nat) : Keeps z s → Keeps z (State.cycKeyLand s k) := by
  intro h0
  unfold State.cycKeyLand
  conv => zeta
  with_reducible repeat' (first | assumption | intro _ | apply State.setSlot_keeps | apply State.almHall_keeps | apply State.notifySid_keeps | apply State.raise_keeps | simp only [Keeps.update] | apply Keeps.ite | apply Keeps.foldl | split)

theorem State.channelsLand_keeps {z : State} (s : State) : Keeps z s → Keeps z (State.channelsLand s) := by
  intro h0
  unfold State.channelsLand
  conv => zeta
  with_reducible repeat' (first | assumption | intro _ | apply State.unbindNow_keeps | apply State.zeroSlot_keeps | apply State.setChan_keeps | apply State.cycKeyLand_keeps | apply State.showBound_keeps | simp only [Keeps.update] | apply Keeps.ite | apply Keeps.foldl | split)

theorem State.channelsRestart_keeps {z : State} (s : State) (h : Nat) : Keeps z s → Keeps z (State.channelsRestart s h) := by
  intro h0
  unfold State.channelsRestart
  with_reducible repeat' (first | assumption | intro _ | simp only [Keeps.update] | apply Keeps.ite | apply Keeps.foldl | split)

theorem execCtx_keeps {z : State} (h : Nat) (s : State) : Keeps z s → KeepsNext z (execCtx h s) := by
  intro h0
  unfold execCtx
  conv => zeta
  with_reducible repeat' (first | assumption | intro _ | (refine State.takeOp_keeps _ _ _ _ ?_ _ _ (by assumption)) | apply State.occupy_keeps | apply KeepsNext.next | apply KeepsNext.ite | simp only [Keeps.update] | apply Keeps.ite | apply Keeps.foldl | split)

theorem State.useCycKey_keeps {z : State} (s : State) (h : Nat) (sid : Nat) (k : Nat) : Keeps z s → KeepsFst z (State.useCycKey s h sid k) := by
  intro h0
  unfold State.useCycKey
  conv => zeta
  with_reducible repeat' (first | assumption | intro _ | apply State.setSlot_keeps | simp only [KeepsFst.pair] | apply KeepsFst.ite | apply KeepsFst.foldl | simp only [Keeps.update] | apply Keeps.ite | apply Keeps.foldl | (refine Keeps.fst (by assumption) ?_) | apply KeepsFst.first | split)

theorem State.sendCyclic_keeps {z : State} (s : State) (l : Nat) (b : Bytes) (bad : Bool) : Keeps z s → Keeps z (State.sendCyclic s l b bad) := by
  intro h0
  unfold State.sendCyclic
  conv => zeta
  with_reducible repeat' (first | assumption | intro _ | apply State.bump_keeps | apply State.emit_keeps | apply State.setPort_keeps | simp only [Keeps.update] | apply Keeps.ite | apply Keeps.foldl | split)

theorem execCtxEmission_keeps {z : State} (h : Nat) (pool : Nat) (cut : Bool) (at_ : Nat) (s : State) : Keeps z s → KeepsNext z (execCtxEmission h pool cut at_ s) := by
  intro h0
  unfold execCtxEmission
  conv => zeta
  with_reducible repeat' (first | assumption | intro _ | apply State.atTime_keeps | apply State.bump_keeps | apply State.sendCyclic_keeps | apply State.useCycKey_keeps | apply KeepsNext.next | apply KeepsNext.ite | simp only [KeepsFst.pair] | apply KeepsFst.ite | apply KeepsFst.foldl | simp only [Keeps.update] | apply Keeps.ite | apply Keeps.foldl | (refine Keeps.fst (by assumption) ?_) | apply KeepsFst.first | split)

theorem execCrx_keeps {z : State} (h : Nat) (s : State) : Keeps z s → KeepsNext z (execCrx h s) := by
  intro h0
  unfold execCrx
  conv => zeta
  with_reducible repeat' (first | assumption | intro _ | (refine State.takeOp_keeps _ _ _ _ ?_ _ _ (by assumption)) | apply KeepsNext.next | apply KeepsNext.ite | simp only [Keeps.update] | apply Keeps.ite | apply Keeps.foldl | split)

theorem State.lateCopy_keeps {z : State} (s : State) (h : Nat) (i : Nat) (x : ChanHall) (sid : Nat) (step : Nat) (ns : Nat) : Keeps z s → Keeps z (State.lateCopy s h i x sid step ns) := by
  intro h0
  unfold State.lateCopy
  conv => zeta
  with_reducible repeat' (first | assumption | intro _ | apply State.raise_keeps | apply State.bump_keeps | apply State.setChHall_keeps | apply State.almHall_keeps | simp only [Keeps.update] | apply Keeps.ite | apply Keeps.foldl | split)

theorem State.dataIn_keeps {z : State} (s : State) (h : Nat) (i : Nat) (c : Chan) (x : ChanHall) (p : Plan.Pool) (b : Bytes) (o : Nat) (arrival : Nat) (cut : Bool) : Keeps z s → Keeps z (State.dataIn s h i c x p b o arrival cut) := by
  intro h0
  unfold State.dataIn
  conv => zeta
  with_reducible repeat' (first | assumption | intro _ | apply State.bump_keeps | apply State.useCycKey_keeps | apply State.setChHall_keeps | apply State.lateCopy_keeps | apply State.setStation_keeps | apply State.putAlcove_keeps | simp only [KeepsFst.pair] | apply KeepsFst.ite | apply KeepsFst.foldl | simp only [Keeps.update] | apply Keeps.ite | apply Keeps.foldl | (refine Keeps.fst (by assumption) ?_) | apply KeepsFst.first | split)

theorem State.dirStep_keeps {z : State} (s : State) (h : Nat) (l : Nat) (ty : Nat) (sid : Nat) (mac : Bytes) (tagged : Bool) (tci : Nat) : Keeps z s → KeepsFst z (State.dirStep s h l ty sid mac tagged tci) := by
  intro h0
  unfold State.dirStep
  conv => zeta
  with_reducible repeat' (first | assumption | intro _ | apply State.setStation_keeps | apply State.entryNew_keeps | apply State.notify_keeps | apply State.bump_keeps | apply State.sidConflict_keeps | apply State.raise_keeps | simp only [KeepsFst.pair] | apply KeepsFst.ite | apply KeepsFst.foldl | simp only [Keeps.update] | apply Keeps.ite | apply Keeps.foldl | (refine Keeps.fst (by assumption) ?_) | apply KeepsFst.first | split)

theorem State.cyclicRx_keeps {z : State} (s : State) (h : Nat) (l : Nat) (b : Bytes) (o : Nat) (arrival : Nat) (cut : Bool) : Keeps z s → Keeps z (State.cyclicRx s h l b o arrival cut) := by
  intro h0
  unfold State.cyclicRx
  conv => zeta
  with_reducible repeat' (first | assumption | intro _ | apply State.bump_keeps | apply State.dirStep_keeps | apply State.setChHall_keeps | apply State.dataIn_keeps | simp only [KeepsFst.pair] | apply KeepsFst.ite | apply KeepsFst.foldl | simp only [Keeps.update] | apply Keeps.ite | apply Keeps.foldl | (refine Keeps.fst (by assumption) ?_) | apply KeepsFst.first | split)

theorem execCyclicFrameRx_keeps {z : State} (l : Nat) (cut : Bool) (s : State) : Keeps z s → KeepsNext z (execCyclicFrameRx l cut s) := by
  intro h0
  unfold execCyclicFrameRx
  with_reducible repeat' (first | assumption | intro _ | apply State.cyclicRx_keeps | apply State.takeRx_keeps | apply KeepsNext.next | apply KeepsNext.ite | simp only [Keeps.update] | apply Keeps.ite | apply Keeps.foldl | split)

theorem State.zeroMisses_keeps {z : State} (s : State) (h : Nat) (p : Plan.Pool) (slot : Nat) (rxMap : Nat) : Keeps z s → Keeps z (State.zeroMisses s h p slot rxMap) := by
  intro h0
  unfold State.zeroMisses
  with_reducible repeat' (first | assumption | intro _ | apply State.putAlcove_keeps | simp only [Keeps.update] | apply Keeps.ite | apply Keeps.foldl | split)

theorem State.slotDeadline_keeps {z : State} (s : State) (h : Nat) (p : Plan.Pool) (i : Nat) (c : Chan) (x : ChanHall) : Keeps z s → Keeps z (State.slotDeadline s h p i c x) := by
  intro h0
  unfold State.slotDeadline
  conv => zeta
  with_reducible repeat' (first | assumption | intro _ | apply State.zeroMisses_keeps | apply State.bump_keeps | apply State.notifySid_keeps | apply State.almHall_keeps | apply State.raise_keeps | apply State.setChHall_keeps | apply State.putAlcove_keeps | simp only [Keeps.update] | apply Keeps.ite | apply Keeps.foldl | split)

theorem execPoolDeadline_keeps {z : State} (h : Nat) (pool : Nat) (at_ : Nat) (s : State) : Keeps z s → KeepsNext z (execPoolDeadline h pool at_ s) := by
  intro h0
  unfold execPoolDeadline
  conv => zeta
  with_reducible repeat' (first | assumption | intro _ | apply State.atTime_keeps | apply State.showBound_keeps | apply State.slotDeadline_keeps | apply KeepsNext.next | apply KeepsNext.ite | simp only [Keeps.update] | apply Keeps.ite | apply Keeps.foldl | split)

theorem execPortFrameTx_keeps {z : State} (l : Nat) (opened : Bool) (corr : Nat) (stamp : Nat) (at_ : Nat) (s : State) : Keeps z s → KeepsNext z (execPortFrameTx l opened corr stamp at_ s) := by
  intro h0
  unfold execPortFrameTx
  conv => zeta
  with_reducible repeat' (first | assumption | intro _ | apply State.atTime_keeps | apply State.setPort_keeps | apply State.dropFrame_keeps | apply State.bump_keeps | apply State.emit_keeps | apply State.pushStamp_keeps | apply State.frameDone_keeps | apply KeepsNext.next | apply KeepsNext.ite | simp only [Keeps.update] | apply Keeps.ite | apply Keeps.foldl | split)

end Sys2Proof.Machine
end

