-- ==== Sys2Proof/Laws/KeepsFrames.lean ====
section
/-! SUPPORT. The operations of frames, the cipher and DMA engines, carriers and storage keep the queue and both memories' form: one lemma each. -/

namespace Sys2Proof.Machine

theorem State.endFrame_keeps {z : State} (s : State) (f : PFrame) : Keeps z s → Keeps z (State.endFrame s f) := by
  intro h0
  unfold State.endFrame
  with_reducible repeat' (first | assumption | intro _ | apply State.dropFrame_keeps | simp only [Keeps.update] | apply Keeps.ite | apply Keeps.foldl | split)

theorem State.egressDrop_keeps {z : State} (s : State) (h : Nat) (f : PFrame) : Keeps z s → Keeps z (State.egressDrop s h f) := by
  intro h0
  unfold State.egressDrop
  with_reducible repeat' (first | assumption | intro _ | apply State.endFrame_keeps | apply State.raise_keeps | apply State.bump_keeps | simp only [Keeps.update] | apply Keeps.ite | apply Keeps.foldl | split)

theorem State.toPort_keeps {z : State} (s : State) (h : Nat) (l : Nat) (cls : Nat) (f : PFrame) (b : Bytes) : Keeps z s → Keeps z (State.toPort s h l cls f b) := by
  intro h0
  unfold State.toPort
  conv => zeta
  with_reducible repeat' (first | assumption | intro _ | apply State.egressDrop_keeps | apply State.openEnqueue_keeps | simp only [Keeps.update] | apply Keeps.ite | apply Keeps.foldl | split)

theorem State.toVport_keeps {z : State} (s : State) (h : Nat) (v : Nat) (cls : Nat) (f : PFrame) (b : Bytes) : Keeps z s → Keeps z (State.toVport s h v cls f b) := by
  intro h0
  unfold State.toVport
  conv => zeta
  with_reducible repeat' (first | assumption | intro _ | apply State.endFrame_keeps | apply State.bump_keeps | apply State.offer_keeps | simp only [Keeps.update] | apply Keeps.ite | apply Keeps.foldl | split)

theorem State.toPlain_keeps {z : State} (s : State) (h : Nat) (d : Nat) (cls : Nat) (f : PFrame) (b : Bytes) : Keeps z s → Keeps z (State.toPlain s h d cls f b) := by
  intro h0
  unfold State.toPlain
  conv => zeta
  with_reducible repeat' (first | assumption | intro _ | apply State.toPort_keeps | apply State.toVport_keeps | apply State.endFrame_keeps | apply State.bump_keeps | simp only [Keeps.update] | apply Keeps.ite | apply Keeps.foldl | split)

theorem State.encap_keeps {z : State} (s : State) (h : Nat) (t : Bytes) (f : PFrame) : Keeps z s → KeepsLeft z (State.encap s h t f) := by
  intro h0
  unfold State.encap
  conv => zeta
  with_reducible repeat' (first | assumption | intro _ | apply State.endFrame_keeps | apply State.raise_keeps | apply State.bump_keeps | exact KeepsLeft.right | apply KeepsLeft.left | apply KeepsLeft.ite | simp only [Keeps.update] | apply Keeps.ite | apply Keeps.foldl | split)

theorem State.copyTo_keeps {z : State} (s : State) (h : Nat) (d : Nat) (cls : Nat) (f : PFrame) : Keeps z s → Keeps z (State.copyTo s h d cls f) := by
  intro h0
  unfold State.copyTo
  conv => zeta
  with_reducible repeat' (first | assumption | intro _ | apply State.encap_keeps | apply State.toPlain_keeps | apply State.bump_keeps | simp only [Keeps.update] | apply Keeps.ite | apply Keeps.foldl | (refine KeepsLeft.of_eq (by assumption) ?_) | apply KeepsLeft.ite | exact KeepsLeft.right | apply KeepsLeft.left | split)

theorem State.setBridge_keeps {z : State} (s : State) (h : Nat) (x : Nat) (b : Bridge) : Keeps z s → Keeps z (State.setBridge s h x b) := by
  intro h0
  unfold State.setBridge
  conv => zeta
  with_reducible repeat' (first | assumption | intro _ | apply State.setFld_keeps | simp only [Keeps.update] | apply Keeps.ite | apply Keeps.foldl | split)

theorem State.freeBridge_keeps {z : State} (s : State) (h : Nat) (x : Nat) : Keeps z s → Keeps z (State.freeBridge s h x) := by
  intro h0
  unfold State.freeBridge
  conv => zeta
  with_reducible repeat' (first | assumption | intro _ | apply State.setFld_keeps | simp only [Keeps.update] | apply Keeps.ite | apply Keeps.foldl | split)

theorem State.bridgeEcc_keeps {z : State} (s : State) (h : Nat) (xs : List Nat) : Keeps z s → Keeps z (State.bridgeEcc s h xs) := by
  intro h0
  unfold State.bridgeEcc
  with_reducible repeat' (first | assumption | intro _ | apply State.almHall_keeps | apply State.bump_keeps | apply State.freeBridge_keeps | simp only [Keeps.update] | apply Keeps.ite | apply Keeps.foldl | split)

theorem State.bridgeMove_keeps {z : State} (s : State) (h : Nat) (x : Nat) (e : Bridge) (d : Nat) (t : Nat) : Keeps z s → Keeps z (State.bridgeMove s h x e d t) := by
  intro h0
  unfold State.bridgeMove
  conv => zeta
  with_reducible repeat' (first | assumption | intro _ | apply State.bump_keeps | apply State.setBridge_keeps | apply State.setFld_keeps | apply State.raise_keeps | apply State.almHall_keeps | simp only [Keeps.update] | apply Keeps.ite | apply Keeps.foldl | split)

theorem State.learn_keeps {z : State} (s : State) (h : Nat) (bd : Nat) (mac : Bytes) (d : Nat) (t : Nat) : Keeps z s → Keeps z (State.learn s h bd mac d t) := by
  intro h0
  unfold State.learn
  conv => zeta
  with_reducible repeat' (first | assumption | intro _ | apply State.bump_keeps | apply State.raise_keeps | apply State.setBridge_keeps | apply State.bridgeMove_keeps | simp only [Keeps.update] | apply Keeps.ite | apply Keeps.foldl | split)

theorem State.learnsBefore_keeps {z : State} (s : State) (h : Nat) (t : Nat) : Keeps z s → Keeps z (State.learnsBefore s h t) := by
  intro h0
  unfold State.learnsBefore
  conv => zeta
  with_reducible repeat' (first | assumption | intro _ | apply State.learn_keeps | simp only [Keeps.update] | apply Keeps.ite | apply Keeps.foldl | split)

theorem State.learnStep_keeps {z : State} (s : State) (h : Nat) (f : PFrame) (a : Nat) (bd : Nat) (smac : Bytes) : Keeps z s → Keeps z (State.learnStep s h f a bd smac) := by
  intro h0
  unfold State.learnStep
  with_reducible repeat' (first | assumption | intro _ | simp only [Keeps.update] | apply Keeps.ite | apply Keeps.foldl | split)

theorem State.flood_keeps {z : State} (s : State) (h : Nat) (first : Nat) (count : Nat) (f : PFrame) : Keeps z s → Keeps z (State.flood s h first count f) := by
  intro h0
  unfold State.flood
  conv => zeta
  with_reducible repeat' (first | assumption | intro _ | apply State.endFrame_keeps | apply State.raise_keeps | apply State.bump_keeps | apply State.addRefs_keeps | simp only [KeepsFst.pair] | apply KeepsFst.ite | apply KeepsFst.foldl | simp only [Keeps.update] | apply Keeps.ite | apply Keeps.foldl | (refine Keeps.fst (by assumption) ?_) | apply KeepsFst.first | split)

theorem execReplicateCopy_keeps {z : State} (h : Nat) (s : State) : Keeps z s → KeepsNext z (execReplicateCopy h s) := by
  intro h0
  unfold execReplicateCopy
  conv => zeta
  with_reducible repeat' (first | assumption | intro _ | apply State.copyTo_keeps | apply KeepsNext.next | apply KeepsNext.ite | simp only [Keeps.update] | apply Keeps.ite | apply Keeps.foldl | split)

theorem State.bdOf_keeps {z : State} (s : State) (h : Nat) (target : Nat) (pass : Nat) (vni : Nat) : Keeps z s → KeepsLeft z (State.bdOf s h target pass vni) := by
  intro h0
  unfold State.bdOf
  with_reducible repeat' (first | assumption | intro _ | apply State.raise_keeps | apply State.bump_keeps | exact KeepsLeft.right | apply KeepsLeft.left | apply KeepsLeft.ite | simp only [Keeps.update] | apply Keeps.ite | apply Keeps.foldl | split)

theorem State.spoofCheck_keeps {z : State} (s : State) (h : Nat) (f : PFrame) : Keeps z s → KeepsSome z (State.spoofCheck s h f) := by
  intro h0
  unfold State.spoofCheck
  conv => zeta
  with_reducible repeat' (first | assumption | intro _ | apply State.endFrame_keeps | apply State.bump_keeps | apply State.raise_keeps | exact KeepsSome.none | apply KeepsSome.some | apply KeepsSome.ite | simp only [Keeps.update] | apply Keeps.ite | apply Keeps.foldl | split)

theorem State.bridgeTo_keeps {z : State} (s : State) (h : Nat) (bd : Nat) (cls : Nat) (dmac : Bytes) (f : PFrame) : Keeps z s → Keeps z (State.bridgeTo s h bd cls dmac f) := by
  intro h0
  unfold State.bridgeTo
  conv => zeta
  with_reducible repeat' (first | assumption | intro _ | apply State.bump_keeps | apply State.endFrame_keeps | apply State.flood_keeps | apply State.copyTo_keeps | simp only [Keeps.update] | apply Keeps.ite | apply Keeps.foldl | split)

theorem State.forward_keeps {z : State} (s : State) (h : Nat) (f : PFrame) (p : Parsed) (a : Nat) (pass : Nat) (noL2 : Option (Nat × Bytes)) : Keeps z s → Keeps z (State.forward s h f p a pass noL2) := by
  intro h0
  unfold State.forward
  conv => zeta
  with_reducible repeat' (first | assumption | intro _ | apply State.learnsBefore_keeps | apply State.endFrame_keeps | apply State.bump_keeps | apply State.bdOf_keeps | apply State.spoofCheck_keeps | apply State.learnStep_keeps | apply State.copyTo_keeps | apply State.bridgeTo_keeps | simp only [Keeps.update] | apply Keeps.ite | apply Keeps.foldl | (refine KeepsSome.of_eq (by assumption) ?_) | apply KeepsSome.ite | exact KeepsSome.none | apply KeepsSome.some | (refine KeepsLeft.of_eq (by assumption) ?_) | apply KeepsLeft.ite | exact KeepsLeft.right | apply KeepsLeft.left | split)

theorem State.sweepEntry_keeps {z : State} (s : State) (h : Nat) (x : Nat) (renew : Bool) : Keeps z s → Keeps z (State.sweepEntry s h x renew) := by
  intro h0
  unfold State.sweepEntry
  conv => zeta
  with_reducible repeat' (first | assumption | intro _ | apply State.setBridge_keeps | apply State.bump_keeps | apply State.freeBridge_keeps | simp only [Keeps.update] | apply Keeps.ite | apply Keeps.foldl | split)

theorem execBridgeSweepVisit_keeps {z : State} (h : Nat) (set : Nat) (at_ : Nat) (s : State) : Keeps z s → KeepsNext z (execBridgeSweepVisit h set at_ s) := by
  intro h0
  unfold execBridgeSweepVisit
  conv => zeta
  with_reducible repeat' (first | assumption | intro _ | apply State.atTime_keeps | apply State.learnsBefore_keeps | apply State.sweepEntry_keeps | apply KeepsNext.next | apply KeepsNext.ite | simp only [Keeps.update] | apply Keeps.ite | apply Keeps.foldl | split)

theorem Issue.end__keeps {z : State} (s : State) (w : Issue) : Keeps z s → Keeps z (Issue.end_ s w) := by
  intro h0
  unfold Issue.end_
  with_reducible repeat' (first | assumption | intro _ | apply State.dropFrame_keeps | simp only [Keeps.update] | apply Keeps.ite | apply Keeps.foldl | split)

theorem State.tcamLookup_keeps {z : State} (s : State) (h : Nat) (key : Nat) (k : Nat) : Keeps z s → KeepsFst z (State.tcamLookup s h key k) := by
  intro h0
  unfold State.tcamLookup
  conv => zeta
  with_reducible repeat' (first | assumption | intro _ | apply State.bump_keeps | apply State.raise_keeps | simp only [KeepsFst.pair] | apply KeepsFst.ite | apply KeepsFst.foldl | simp only [Keeps.update] | apply Keeps.ite | apply Keeps.foldl | (refine Keeps.fst (by assumption) ?_) | apply KeepsFst.first | split)

theorem State.countFrame_keeps {z : State} (s : State) (h : Nat) (a : Nat) (octets : Nat) : Keeps z s → Keeps z (State.countFrame s h a octets) := by
  intro h0
  unfold State.countFrame
  conv => zeta
  with_reducible repeat' (first | assumption | intro _ | simp only [Keeps.update] | apply Keeps.ite | apply Keeps.foldl | split)

theorem State.showFrags_keeps {z : State} (s : State) (h : Nat) : Keeps z s → Keeps z (State.showFrags s h) := by
  intro h0
  unfold State.showFrags
  with_reducible repeat' (first | assumption | intro _ | apply State.setFld_keeps | simp only [Keeps.update] | apply Keeps.ite | apply Keeps.foldl | split)

theorem State.putFrag_keeps {z : State} (s : State) (h : Nat) (x : Nat) (e : FragEntry) : Keeps z s → Keeps z (State.putFrag s h x e) := by
  intro h0
  unfold State.putFrag
  with_reducible repeat' (first | assumption | intro _ | apply State.showFrags_keeps | simp only [Keeps.update] | apply Keeps.ite | apply Keeps.foldl | split)

theorem State.freeFrag_keeps {z : State} (s : State) (h : Nat) (x : Nat) : Keeps z s → Keeps z (State.freeFrag s h x) := by
  intro h0
  unfold State.freeFrag
  with_reducible repeat' (first | assumption | intro _ | apply State.showFrags_keeps | simp only [Keeps.update] | apply Keeps.ite | apply Keeps.foldl | split)

theorem State.fragAdd_keeps {z : State} (s : State) (h : Nat) (x : Nat) (e : FragEntry) (p : Parsed) : Keeps z s → Keeps z (State.fragAdd s h x e p) := by
  intro h0
  unfold State.fragAdd
  conv => zeta
  with_reducible repeat' (first | assumption | intro _ | apply State.bump_keeps | apply State.freeFrag_keeps | apply State.putFrag_keeps | simp only [Keeps.update] | apply Keeps.ite | apply Keeps.foldl | split)

theorem State.fragInstall_keeps {z : State} (s : State) (h : Nat) (p : Parsed) (a : Nat) : Keeps z s → Keeps z (State.fragInstall s h p a) := by
  intro h0
  unfold State.fragInstall
  conv => zeta
  with_reducible repeat' (first | assumption | intro _ | apply State.fragAdd_keeps | apply State.bump_keeps | apply State.raise_keeps | apply State.putFrag_keeps | simp only [Keeps.update] | apply Keeps.ite | apply Keeps.foldl | split)

theorem execFragEntryExpiry_keeps {z : State} (h : Nat) (set : Nat) (at_ : Nat) (s : State) : Keeps z s → KeepsNext z (execFragEntryExpiry h set at_ s) := by
  intro h0
  unfold execFragEntryExpiry
  conv => zeta
  with_reducible repeat' (first | assumption | intro _ | apply State.atTime_keeps | apply State.bump_keeps | apply State.freeFrag_keeps | apply KeepsNext.next | apply KeepsNext.ite | simp only [Keeps.update] | apply Keeps.ite | apply Keeps.foldl | split)

theorem State.byTcam_keeps {z : State} (s : State) (h : Nat) (w : Issue) (b : Bytes) (win : Nat) (pass : Nat) (p : Parsed) (err : Bool) : Keeps z s → KeepsFst z (State.byTcam s h w b win pass p err) := by
  intro h0
  unfold State.byTcam
  conv => zeta
  with_reducible repeat' (first | assumption | intro _ | apply State.tcamLookup_keeps | apply State.fragInstall_keeps | simp only [KeepsFst.pair] | apply KeepsFst.ite | apply KeepsFst.foldl | simp only [Keeps.update] | apply Keeps.ite | apply Keeps.foldl | (refine Keeps.fst (by assumption) ?_) | apply KeepsFst.first | split)

theorem State.classify_keeps {z : State} (s : State) (h : Nat) (w : Issue) (b : Bytes) (win : Nat) (pass : Nat) (p : Parsed) : Keeps z s → KeepsFst z (State.classify s h w b win pass p) := by
  intro h0
  unfold State.classify
  conv => zeta
  with_reducible repeat' (first | assumption | intro _ | apply State.bump_keeps | apply State.byTcam_keeps | apply State.fragAdd_keeps | simp only [KeepsFst.pair] | apply KeepsFst.ite | apply KeepsFst.foldl | simp only [Keeps.update] | apply Keeps.ite | apply Keeps.foldl | (refine Keeps.fst (by assumption) ?_) | apply KeepsFst.first | split)

theorem State.stoTake_keeps {z : State} (s : State) (c : Nat × StoConn) (w : Issue) (p : Parsed) : Keeps z s → Keeps z (State.stoTake s c w p) := by
  intro h0
  unfold State.stoTake
  conv => zeta
  with_reducible repeat' (first | assumption | intro _ | apply Issue.end__keeps | apply State.raise_keeps | apply State.bump_keeps | simp only [Keeps.update] | apply Keeps.ite | apply Keeps.foldl | split)

theorem State.mirror_keeps {z : State} (s : State) (h : Nat) (a : Nat) (f : PFrame) : Keeps z s → Keeps z (State.mirror s h a f) := by
  intro h0
  unfold State.mirror
  conv => zeta
  with_reducible repeat' (first | assumption | intro _ | apply State.addRefs_keeps | apply State.copyTo_keeps | simp only [KeepsFst.pair] | apply KeepsFst.ite | apply KeepsFst.foldl | simp only [Keeps.update] | apply Keeps.ite | apply Keeps.foldl | (refine Keeps.fst (by assumption) ?_) | apply KeepsFst.first | split)

theorem State.inlineEnqueue_keeps {z : State} (s : State) (h : Nat) (a : Nat) (w : Issue) (b : Bytes) : Keeps z s → Keeps z (State.inlineEnqueue s h a w b) := by
  intro h0
  unfold State.inlineEnqueue
  conv => zeta
  with_reducible repeat' (first | assumption | intro _ | apply Issue.end__keeps | apply State.bump_keeps | simp only [Keeps.update] | apply Keeps.ite | apply Keeps.foldl | split)

theorem State.trapFrame_keeps {z : State} (s : State) (h : Nat) (code : Nat) (w : Issue) (b : Bytes) : Keeps z s → Keeps z (State.trapFrame s h code w b) := by
  intro h0
  unfold State.trapFrame
  with_reducible repeat' (first | assumption | intro _ | apply Issue.end__keeps | apply State.emit_keeps | simp only [Keeps.update] | apply Keeps.ite | apply Keeps.foldl | split)

theorem State.second_keeps {z : State} (s : State) (h : Nat) (w : Issue) (b : Bytes) (p : Parsed) (noL2 : Option (Nat × Bytes)) (r : Pass) : Keeps z s → Keeps z (State.second s h w b p noL2 r) := by
  intro h0
  unfold State.second
  conv => zeta
  with_reducible repeat' (first | assumption | intro _ | apply Issue.end__keeps | apply State.trapFrame_keeps | apply State.countFrame_keeps | apply State.mirror_keeps | apply State.forward_keeps | apply State.bump_keeps | apply State.raise_keeps | apply State.inlineEnqueue_keeps | simp only [Keeps.update] | apply Keeps.ite | apply Keeps.foldl | split)

theorem State.decap_keeps {z : State} (s : State) (h : Nat) (w : Issue) (p : Parsed) : Keeps z s → Keeps z (State.decap s h w p) := by
  intro h0
  unfold State.decap
  conv => zeta
  with_reducible repeat' (first | assumption | intro _ | apply Issue.end__keeps | apply State.bump_keeps | apply State.raise_keeps | apply State.trapFrame_keeps | apply State.classify_keeps | apply State.second_keeps | simp only [KeepsFst.pair] | apply KeepsFst.ite | apply KeepsFst.foldl | simp only [Keeps.update] | apply Keeps.ite | apply Keeps.foldl | (refine Keeps.fst (by assumption) ?_) | apply KeepsFst.first | split)

theorem State.issue_keeps {z : State} (s : State) (h : Nat) (w : Issue) : Keeps z s → Keeps z (State.issue s h w) := by
  intro h0
  unfold State.issue
  conv => zeta
  with_reducible repeat' (first | assumption | intro _ | apply State.bridgeEcc_keeps | apply State.bump_keeps | apply Issue.end__keeps | apply State.emit_keeps | apply State.stoTake_keeps | apply State.classify_keeps | apply State.trapFrame_keeps | apply State.countFrame_keeps | apply State.mirror_keeps | apply State.forward_keeps | apply State.decap_keeps | apply State.inlineEnqueue_keeps | simp only [KeepsFst.pair] | apply KeepsFst.ite | apply KeepsFst.foldl | simp only [Keeps.update] | apply Keeps.ite | apply Keeps.foldl | (refine Keeps.fst (by assumption) ?_) | apply KeepsFst.first | split)

theorem State.setCph_keeps {z : State} (s : State) (h : Nat) (c : CphSt) : Keeps z s → Keeps z (State.setCph s h c) := by
  intro h0
  unfold State.setCph
  with_reducible repeat' (first | assumption | intro _ | simp only [Keeps.update] | apply Keeps.ite | apply Keeps.foldl | split)

theorem State.setDch_keeps {z : State} (s : State) (h : Nat) (c : Nat) (x : DmaCh) : Keeps z s → Keeps z (State.setDch s h c x) := by
  intro h0
  unfold State.setDch
  with_reducible repeat' (first | assumption | intro _ | simp only [Keeps.update] | apply Keeps.ite | apply Keeps.foldl | split)

theorem State.setChState_keeps {z : State} (s : State) (h : Nat) (c : Nat) (v : Nat) : Keeps z s → Keeps z (State.setChState s h c v) := by
  intro h0
  unfold State.setChState
  with_reducible repeat' (first | assumption | intro _ | apply State.setFld_keeps | simp only [Keeps.update] | apply Keeps.ite | apply Keeps.foldl | split)

theorem State.useClock_keeps {z : State} (s : State) (h : Nat) (c : Nat) : Keeps z s → Keeps z (State.useClock s h c) := by
  intro h0
  unfold State.useClock
  conv => zeta
  with_reducible repeat' (first | assumption | intro _ | apply State.setSeq_keeps | simp only [Keeps.update] | apply Keeps.ite | apply Keeps.foldl | split)

theorem execArrivalIssue_keeps {z : State} (h : Nat) (ptp : Bool) (ecc : List Nat) (at_ : Nat) (s : State) : Keeps z s → KeepsNext z (execArrivalIssue h ptp ecc at_ s) := by
  intro h0
  unfold execArrivalIssue
  conv => zeta
  with_reducible repeat' (first | assumption | intro _ | apply State.atTime_keeps | apply State.useClock_keeps | apply State.takeRx_keeps | apply State.issue_keeps | apply KeepsNext.next | apply KeepsNext.ite | simp only [Keeps.update] | apply Keeps.ite | apply Keeps.foldl | split)

theorem State.passPad_keeps {z : State} (s : State) (h : Nat) (base : Nat) (size : Nat) (top : Nat) : Keeps z s → Keeps z (State.passPad s h base size top) := by
  intro h0
  unfold State.passPad
  conv => zeta
  with_reducible repeat' (first | assumption | intro _ | apply State.putAlcove_keeps | simp only [Keeps.update] | apply Keeps.ite | apply Keeps.foldl | split)

theorem State.flowRecord_keeps {z : State} (s : State) (h : Nat) (flow : Nat) (base : Nat) (size : Nat) (top : Nat) (ecc : List Nat) : Keeps z s → Keeps z (State.flowRecord s h flow base size top ecc) := by
  intro h0
  unfold State.flowRecord
  conv => zeta
  with_reducible repeat' (first | assumption | intro _ | apply State.putAlcove_keeps | apply State.poisonUse_keeps | apply State.issue_keeps | simp only [Keeps.update] | apply Keeps.ite | apply Keeps.foldl | split)

theorem execFlowIssue_keeps {z : State} (h : Nat) (ecc : List Nat) (at_ : Nat) (s : State) : Keeps z s → KeepsNext z (execFlowIssue h ecc at_ s) := by
  intro h0
  unfold execFlowIssue
  conv => zeta
  with_reducible repeat' (first | assumption | intro _ | apply State.atTime_keeps | apply State.useClock_keeps | apply State.readProducer_keeps | apply State.flowRecord_keeps | apply State.passPad_keeps | apply KeepsNext.next | apply KeepsNext.ite | simp only [Keeps.update] | apply Keeps.ite | apply Keeps.foldl | split)

theorem execVfnShareQuery_keeps {z : State} (d : AdminCmd) (s : State) : Keeps z s → KeepsNext z (execVfnShareQuery d s) := by
  intro h0
  unfold execVfnShareQuery
  conv => zeta
  with_reducible repeat' (first | assumption | intro _ | apply State.admin_keeps | apply State.adminFail_keeps | apply State.adminOk_keeps | apply State.adminOut_keeps | apply State.drawn_keeps | apply KeepsNext.next | apply KeepsNext.ite | simp only [Keeps.update] | apply Keeps.ite | apply Keeps.foldl | split)

theorem State.spendOpen_keeps {z : State} (s : State) (h : Nat) (clock : Nat) (c : Nat) (place : Nat) (turn : Nat) (fn : Option Nat) : Keeps z s → Keeps z (State.spendOpen s h clock c place turn fn) := by
  intro h0
  unfold State.spendOpen
  conv => zeta
  with_reducible repeat' (first | assumption | intro _ | apply State.setSeq_keeps | simp only [Keeps.update] | apply Keeps.ite | apply Keeps.foldl | split)

theorem State.openTurn_keeps {z : State} (s : State) (h : Nat) (c : Nat) (fn : Nat) : Keeps z s → KeepsSome z (State.openTurn s h c fn) := by
  intro h0
  unfold State.openTurn
  with_reducible repeat' (first | assumption | intro _ | apply State.spendOpen_keeps | apply State.serveThaw_keeps | exact KeepsSome.none | apply KeepsSome.some | apply KeepsSome.ite | simp only [Keeps.update] | apply Keeps.ite | apply Keeps.foldl | split)

theorem execOpenIssue_keeps {z : State} (h : Nat) (ptp : Bool) (ecc : List Nat) (at_ : Nat) (s : State) : Keeps z s → KeepsNext z (execOpenIssue h ptp ecc at_ s) := by
  intro h0
  unfold execOpenIssue
  conv => zeta
  with_reducible repeat' (first | assumption | intro _ | apply State.atTime_keeps | apply State.serveThaw_keeps | apply State.useClock_keeps | apply State.spendOpen_keeps | apply State.issue_keeps | apply KeepsNext.next | apply KeepsNext.ite | simp only [Keeps.update] | apply Keeps.ite | apply Keeps.foldl | split)

theorem execEthSend_keeps {z : State} (k : Nat) (host : Bytes) (at_ : Nat) (s : State) : Keeps z s → KeepsNext z (execEthSend k host at_ s) := by
  intro h0
  unfold execEthSend
  conv => zeta
  with_reducible repeat' (first | assumption | intro _ | apply State.atTime_keeps | apply State.endRead_keeps | apply State.setQueue_keeps | apply State.descDone_keeps | apply State.dropFrame_keeps | apply State.poisonUse_keeps | apply KeepsNext.next | apply KeepsNext.ite | simp only [Keeps.update] | apply Keeps.ite | apply Keeps.foldl | split)

theorem State.inlineEnd_keeps {z : State} (s : State) (f : InlineFrame) : Keeps z s → Keeps z (State.inlineEnd s f) := by
  intro h0
  unfold State.inlineEnd
  with_reducible repeat' (first | assumption | intro _ | apply State.dropFrame_keeps | simp only [Keeps.update] | apply Keeps.ite | apply Keeps.foldl | split)

theorem State.startOp_keeps {z : State} (s : State) (h : Nat) (w : CphWin) (cost : Nat) (op : CphOp) (twice : Bool) : Keeps z s → Keeps z (State.startOp s h w cost op twice) := by
  intro h0
  unfold State.startOp
  conv => zeta
  with_reducible repeat' (first | assumption | intro _ | apply State.setCph_keeps | apply State.bump_keeps | apply State.bump64_keeps | simp only [Keeps.update] | apply Keeps.ite | apply Keeps.foldl | split)

theorem State.popInline_keeps {z : State} (s : State) (h : Nat) : Keeps z s → Keeps z (State.popInline s h) := by
  intro h0
  unfold State.popInline
  conv => zeta
  with_reducible repeat' (first | assumption | intro _ | apply State.setCph_keeps | simp only [Keeps.update] | apply Keeps.ite | apply Keeps.foldl | split)

theorem State.serveInline_keeps {z : State} (s : State) (h : Nat) (w : CphWin) : Keeps z s → KeepsSome z (State.serveInline s h w) := by
  intro h0
  unfold State.serveInline
  conv => zeta
  with_reducible repeat' (first | assumption | intro _ | apply State.inlineEnd_keeps | apply State.bump_keeps | apply State.popInline_keeps | apply State.assignValue_keeps | apply State.startOp_keeps | exact KeepsSome.none | apply KeepsSome.some | apply KeepsSome.ite | simp only [KeepsFst.pair] | apply KeepsFst.ite | apply KeepsFst.foldl | simp only [Keeps.update] | apply Keeps.ite | apply Keeps.foldl | (refine Keeps.fst (by assumption) ?_) | apply KeepsFst.first | split)

theorem State.setJob_keeps {z : State} (s : State) (h : Nat) (j : CphJob) : Keeps z s → Keeps z (State.setJob s h j) := by
  intro h0
  unfold State.setJob
  conv => zeta
  with_reducible repeat' (first | assumption | intro _ | apply State.setCph_keeps | simp only [Keeps.update] | apply Keeps.ite | apply Keeps.foldl | split)

theorem State.jobWrite_keeps {z : State} (s : State) (h : Nat) (j : CphJob) (off : Nat) (b : Bytes) : Keeps z s → Keeps z (State.jobWrite s h j off b) := by
  intro h0
  unfold State.jobWrite
  with_reducible repeat' (first | assumption | intro _ | apply State.setJob_keeps | apply State.hallWrite_keeps | apply State.putAlcove_keeps | simp only [Keeps.update] | apply Keeps.ite | apply Keeps.foldl | split)

theorem State.endJob_keeps {z : State} (s : State) (h : Nat) (j : CphJob) : Keeps z s → Keeps z (State.endJob s h j) := by
  intro h0
  unfold State.endJob
  conv => zeta
  with_reducible repeat' (first | assumption | intro _ | apply State.jobWrite_keeps | apply State.endRead_keeps | apply State.setCph_keeps | apply State.descDone_keeps | simp only [Keeps.update] | apply Keeps.ite | apply Keeps.foldl | split)

theorem State.settleJob_keeps {z : State} (s : State) (h : Nat) (id : Nat) : Keeps z s → Keeps z (State.settleJob s h id) := by
  intro h0
  unfold State.settleJob
  conv => zeta
  with_reducible repeat' (first | assumption | intro _ | apply State.endJob_keeps | simp only [Keeps.update] | apply Keeps.ite | apply Keeps.foldl | split)

theorem State.failJob_keeps {z : State} (s : State) (h : Nat) (j : CphJob) (st : Nat) : Keeps z s → Keeps z (State.failJob s h j st) := by
  intro h0
  unfold State.failJob
  conv => zeta
  with_reducible repeat' (first | assumption | intro _ | apply State.bump_keeps | apply State.settleJob_keeps | apply State.setJob_keeps | simp only [Keeps.update] | apply Keeps.ite | apply Keeps.foldl | split)

theorem State.serveJob_keeps {z : State} (s : State) (h : Nat) (w : CphWin) : Keeps z s → KeepsSome z (State.serveJob s h w) := by
  intro h0
  unfold State.serveJob
  conv => zeta
  with_reducible repeat' (first | assumption | intro _ | apply State.failJob_keeps | apply State.assignValue_keeps | apply State.startOp_keeps | apply State.setJob_keeps | exact KeepsSome.none | apply KeepsSome.some | apply KeepsSome.ite | simp only [KeepsFst.pair] | apply KeepsFst.ite | apply KeepsFst.foldl | simp only [Keeps.update] | apply Keeps.ite | apply Keeps.foldl | (refine Keeps.fst (by assumption) ?_) | apply KeepsFst.first | split)

theorem State.startOps_keeps {z : State} (s : State) (upTo : Nat) (v2 : Nat) (v3 : List Nat) : Keeps z s → Keeps z (State.startOps s upTo v2 v3) := by
  induction v2 generalizing s upTo v3 with
  | zero =>
    intro h0
    unfold State.startOps
    with_reducible repeat' (first | assumption | intro _ | apply State.serveInline_keeps | apply State.serveJob_keeps | simp only [Keeps.update] | apply Keeps.ite | apply Keeps.foldl | (refine KeepsSome.of_eq (by assumption) ?_) | apply KeepsSome.ite | exact KeepsSome.none | apply KeepsSome.some | split)
  | succ n ih =>
    intro h0
    unfold State.startOps
    with_reducible repeat' (first | assumption | intro _ | apply ih | apply State.serveInline_keeps | apply State.serveJob_keeps | simp only [Keeps.update] | apply Keeps.ite | apply Keeps.foldl | (refine KeepsSome.of_eq (by assumption) ?_) | apply KeepsSome.ite | exact KeepsSome.none | apply KeepsSome.some | split)

theorem State.idleHall_keeps {z : State} (s : State) (upTo : Nat) (h : Nat) : Keeps z s → Keeps z (State.idleHall s upTo h) := by
  intro h0
  unfold State.idleHall
  conv => zeta
  with_reducible repeat' (first | assumption | intro _ | apply State.bump64_keeps | apply State.setCph_keeps | simp only [Keeps.update] | apply Keeps.ite | apply Keeps.foldl | split)

theorem State.cipherTo_keeps {z : State} (s : State) (upTo : Nat) : Keeps z s → Keeps z (State.cipherTo s upTo) := by
  intro h0
  unfold State.cipherTo
  conv => zeta
  with_reducible repeat' (first | assumption | intro _ | apply State.idleHall_keeps | apply State.startOps_keeps | simp only [Keeps.update] | apply Keeps.ite | apply Keeps.foldl | split)

theorem State.openWindow_keeps {z : State} (s : State) (h : Nat) (o : Nat) : Keeps z s → Keeps z (State.openWindow s h o) := by
  intro h0
  unfold State.openWindow
  conv => zeta
  with_reducible repeat' (first | assumption | intro _ | apply State.occupy_keeps | apply State.cipherTo_keeps | apply State.setCph_keeps | simp only [Keeps.update] | apply Keeps.ite | apply Keeps.foldl | split)

theorem State.cipherWindow_keeps {z : State} (s : State) (h : Nat) (at_ : Nat) : Keeps z s → Keeps z (State.cipherWindow s h at_) := by
  intro h0
  unfold State.cipherWindow
  conv => zeta
  with_reducible repeat' (first | assumption | intro _ | (refine State.takeOp_keeps _ _ _ _ ?_ _ _ (by assumption)) | apply State.openWindow_keeps | apply State.cipherTo_keeps | apply State.atTime_keeps | simp only [Keeps.update] | apply Keeps.ite | apply Keeps.foldl | split)

theorem State.reenter_keeps {z : State} (s : State) (h : Nat) (k : Nat) (f : InlineFrame) (b : Bytes) : Keeps z s → Keeps z (State.reenter s h k f b) := by
  intro h0
  unfold State.reenter
  conv => zeta
  with_reducible repeat' (first | assumption | intro _ | apply State.inlineEnd_keeps | apply State.bump_keeps | simp only [Keeps.update] | apply Keeps.ite | apply Keeps.foldl | split)

theorem State.tagFail_keeps {z : State} (s : State) (h : Nat) : Keeps z s → Keeps z (State.tagFail s h) := by
  intro h0
  unfold State.tagFail
  with_reducible repeat' (first | assumption | intro _ | apply State.bump_keeps | apply State.raise_keeps | simp only [Keeps.update] | apply Keeps.ite | apply Keeps.foldl | split)

theorem State.replay_keeps {z : State} (s : State) (op : CphOp) : Keeps z s → KeepsFst z (State.replay s op) := by
  intro h0
  unfold State.replay
  conv => zeta
  with_reducible repeat' (first | assumption | intro _ | apply State.setSlot_keeps | simp only [KeepsFst.pair] | apply KeepsFst.ite | apply KeepsFst.foldl | simp only [Keeps.update] | apply Keeps.ite | apply Keeps.foldl | (refine Keeps.fst (by assumption) ?_) | apply KeepsFst.first | split)

theorem State.releaseFrame_keeps {z : State} (s : State) (h : Nat) (op : CphOp) (f : InlineFrame) : Keeps z s → Keeps z (State.releaseFrame s h op f) := by
  intro h0
  unfold State.releaseFrame
  conv => zeta
  with_reducible repeat' (first | assumption | intro _ | apply State.toPlain_keeps | apply State.drawn_keeps | apply State.inlineEnd_keeps | apply State.tagFail_keeps | apply State.replay_keeps | apply State.reenter_keeps | apply State.bump_keeps | simp only [KeepsFst.pair] | apply KeepsFst.ite | apply KeepsFst.foldl | simp only [Keeps.update] | apply Keeps.ite | apply Keeps.foldl | (refine Keeps.fst (by assumption) ?_) | apply KeepsFst.first | split)

theorem State.spreadPoison_keeps {z : State} (s : State) (h : Nat) (a : Nat) (n : Nat) : Keeps z s → Keeps z (State.spreadPoison s h a n) := by
  intro h0
  unfold State.spreadPoison
  with_reducible repeat' (first | assumption | intro _ | simp only [Keeps.update] | apply Keeps.ite | apply Keeps.foldl | split)

theorem State.releaseGcm_keeps {z : State} (s : State) (h : Nat) (op : CphOp) (j : CphJob) (off : Nat) (len : Nat) (src : Bytes) (aad : Bytes) (tag : Bytes) : Keeps z s → Keeps z (State.releaseGcm s h op j off len src aad tag) := by
  intro h0
  unfold State.releaseGcm
  conv => zeta
  with_reducible repeat' (first | assumption | intro _ | apply State.poisonUse_keeps | apply State.setJob_keeps | apply State.jobWrite_keeps | apply State.spreadPoison_keeps | apply State.tagFail_keeps | simp only [Keeps.update] | apply Keeps.ite | apply Keeps.foldl | split)

theorem State.releaseXts_keeps {z : State} (s : State) (h : Nat) (op : CphOp) (j : CphJob) (off : Nat) (len : Nat) (src : Bytes) : Keeps z s → Keeps z (State.releaseXts s h op j off len src) := by
  intro h0
  unfold State.releaseXts
  conv => zeta
  with_reducible repeat' (first | assumption | intro _ | apply State.poisonUse_keeps | apply State.setJob_keeps | apply State.jobWrite_keeps | apply State.spreadPoison_keeps | simp only [Keeps.update] | apply Keeps.ite | apply Keeps.foldl | split)

theorem State.cipherRelease_keeps {z : State} (s : State) (h : Nat) (src : Bytes) (aad : Bytes) (tag : Bytes) : Keeps z s → Keeps z (State.cipherRelease s h src aad tag) := by
  intro h0
  unfold State.cipherRelease
  conv => zeta
  with_reducible repeat' (first | assumption | intro _ | apply State.cipherTo_keeps | apply State.setCph_keeps | apply State.bump_keeps | apply State.inlineEnd_keeps | apply State.releaseFrame_keeps | apply State.setJob_keeps | apply State.releaseXts_keeps | apply State.releaseGcm_keeps | apply State.settleJob_keeps | simp only [Keeps.update] | apply Keeps.ite | apply Keeps.foldl | split)

theorem State.pushJob_keeps {z : State} (s : State) (h : Nat) (j : CphJob) : Keeps z s → Keeps z (State.pushJob s h j) := by
  intro h0
  unfold State.pushJob
  conv => zeta
  with_reducible repeat' (first | assumption | intro _ | apply State.cipherTo_keeps | apply State.setCph_keeps | simp only [Keeps.update] | apply Keeps.ite | apply Keeps.foldl | split)

theorem execCipherJobFetch_keeps {z : State} (k : Nat) (at_ : Nat) (s : State) : Keeps z s → KeepsNext z (execCipherJobFetch k at_ s) := by
  intro h0
  unfold execCipherJobFetch
  conv => zeta
  with_reducible repeat' (first | assumption | intro _ | apply State.atTime_keeps | apply State.openTurn_keeps | apply State.setQueue_keeps | apply State.descDone_keeps | apply State.pushJob_keeps | apply KeepsNext.next | apply KeepsNext.ite | simp only [Keeps.update] | apply Keeps.ite | apply Keeps.foldl | (refine KeepsSome.of_eq (by assumption) ?_) | apply KeepsSome.ite | exact KeepsSome.none | apply KeepsSome.some | split)

theorem execEntropyHealthFail_keeps {z : State} (h : Nat) (test : Nat) (at_ : Nat) (s : State) : Keeps z s → KeepsNext z (execEntropyHealthFail h test at_ s) := by
  intro h0
  unfold execEntropyHealthFail
  with_reducible repeat' (first | assumption | intro _ | apply State.almHall_keeps | apply State.bump_keeps | apply State.raise_keeps | apply State.atTime_keeps | apply KeepsNext.next | apply KeepsNext.ite | simp only [Keeps.update] | apply Keeps.ite | apply Keeps.foldl | split)

theorem State.beginUnwrap_keeps {z : State} (s : State) (l : KeyLoad) : Keeps z s → Keeps z (State.beginUnwrap s l) := by
  intro h0
  unfold State.beginUnwrap
  with_reducible repeat' (first | assumption | intro _ | simp only [Keeps.update] | apply Keeps.ite | apply Keeps.foldl | split)

theorem execKeyLoad_keeps {z : State} (d : AdminCmd) (buf : Bytes) (s : State) : Keeps z s → KeepsNext z (execKeyLoad d buf s) := by
  intro h0
  unfold execKeyLoad
  conv => zeta
  with_reducible repeat' (first | assumption | intro _ | apply State.admin_keeps | apply State.adminFail_keeps | apply State.setSlot_keeps | apply State.beginUnwrap_keeps | apply KeepsNext.next | apply KeepsNext.ite | simp only [Keeps.update] | apply Keeps.ite | apply Keeps.foldl | split)

theorem State.loadFailed_keeps {z : State} (s : State) (l : KeyLoad) (st : Nat) : Keeps z s → Keeps z (State.loadFailed s l st) := by
  intro h0
  unfold State.loadFailed
  with_reducible repeat' (first | assumption | intro _ | apply State.adminFail_keeps | apply State.setSlot_keeps | simp only [Keeps.update] | apply Keeps.ite | apply Keeps.foldl | split)

theorem State.commitKey_keeps {z : State} (s : State) (l : KeyLoad) (m : Bytes) : Keeps z s → Keeps z (State.commitKey s l m) := by
  intro h0
  unfold State.commitKey
  conv => zeta
  with_reducible repeat' (first | assumption | intro _ | apply State.setSlot_keeps | simp only [Keeps.update] | apply Keeps.ite | apply Keeps.foldl | split)

theorem State.landKey_keeps {z : State} (s : State) (l : KeyLoad) (m : Bytes) : Keeps z s → Keeps z (State.landKey s l m) := by
  intro h0
  unfold State.landKey
  conv => zeta
  with_reducible repeat' (first | assumption | intro _ | apply State.loadFailed_keeps | apply State.adminFail_keeps | apply State.adminOk_keeps | apply State.bump_keeps | apply State.commitKey_keeps | simp only [Keeps.update] | apply Keeps.ite | apply Keeps.foldl | split)

theorem State.landKek_keeps {z : State} (s : State) (l : KeyLoad) (m : Bytes) : Keeps z s → Keeps z (State.landKek s l m) := by
  intro h0
  unfold State.landKek
  conv => zeta
  with_reducible repeat' (first | assumption | intro _ | apply State.setFld_keeps | apply State.adminOk_keeps | apply State.bump_keeps | simp only [Keeps.update] | apply Keeps.ite | apply Keeps.foldl | split)

theorem State.cipherBoundary_keeps {z : State} (s : State) : Keeps z s → Keeps z (State.cipherBoundary s) := by
  intro h0
  unfold State.cipherBoundary
  conv => zeta
  with_reducible repeat' (first | assumption | intro _ | apply State.toBoundary_keeps | apply State.cipherTo_keeps | simp only [Keeps.update] | apply Keeps.ite | apply Keeps.foldl | split)

theorem execKeyCommit_keeps {z : State} (target : Nat) (at_ : Nat) (s : State) : Keeps z s → KeepsNext z (execKeyCommit target at_ s) := by
  intro h0
  unfold execKeyCommit
  conv => zeta
  with_reducible repeat' (first | assumption | intro _ | apply State.atTime_keeps | apply State.loadFailed_keeps | apply State.bump_keeps | apply State.landKek_keeps | apply State.cipherBoundary_keeps | apply State.landKey_keeps | apply KeepsNext.next | apply KeepsNext.ite | simp only [Keeps.update] | apply Keeps.ite | apply Keeps.foldl | split)

theorem State.keyFor_keeps {z : State} (s : State) (d : AdminCmd) (k : Nat → State) : Keeps z s → (∀ (x0 : Nat), Keeps z (k x0)) → Keeps z (State.keyFor s d k) := by
  intro h0 h1
  unfold State.keyFor
  with_reducible repeat' (first | assumption | intro _ | apply h1 | apply State.adminFail_keeps | simp only [Keeps.update] | apply Keeps.ite | apply Keeps.foldl | split)

theorem execKeyErase_keeps {z : State} (d : AdminCmd) (s : State) : Keeps z s → KeepsNext z (execKeyErase d s) := by
  intro h0
  unfold execKeyErase
  with_reducible repeat' (first | assumption | intro _ | apply State.admin_keeps | apply State.keyFor_keeps | apply State.adminFail_keeps | apply State.setSlot_keeps | apply KeepsNext.next | apply KeepsNext.ite | simp only [Keeps.update] | apply Keeps.ite | apply Keeps.foldl | split)

theorem execKeyZeroize_keeps {z : State} (k : Nat) (at_ : Nat) (s : State) : Keeps z s → KeepsNext z (execKeyZeroize k at_ s) := by
  intro h0
  unfold execKeyZeroize
  conv => zeta
  with_reducible repeat' (first | assumption | intro _ | apply State.cipherBoundary_keeps | apply State.atTime_keeps | apply State.bump_keeps | apply State.zeroize_keeps | apply State.adminOk_keeps | apply KeepsNext.next | apply KeepsNext.ite | simp only [Keeps.update] | apply Keeps.ite | apply Keeps.foldl | split)

theorem execKeyQuery_keeps {z : State} (d : AdminCmd) (s : State) : Keeps z s → KeepsNext z (execKeyQuery d s) := by
  intro h0
  unfold execKeyQuery
  conv => zeta
  with_reducible repeat' (first | assumption | intro _ | apply State.admin_keeps | apply State.keyFor_keeps | apply State.cipherTo_keeps | apply State.adminOk_keeps | apply State.adminOut_keeps | apply KeepsNext.next | apply KeepsNext.ite | simp only [Keeps.update] | apply Keeps.ite | apply Keeps.foldl | split)

theorem execKekLoad_keeps {z : State} (d : AdminCmd) (buf : Bytes) (s : State) : Keeps z s → KeepsNext z (execKekLoad d buf s) := by
  intro h0
  unfold execKekLoad
  with_reducible repeat' (first | assumption | intro _ | apply State.admin_keeps | apply State.adminFail_keeps | apply State.beginUnwrap_keeps | apply KeepsNext.next | apply KeepsNext.ite | simp only [Keeps.update] | apply Keeps.ite | apply Keeps.foldl | split)

theorem execKekErase_keeps {z : State} (d : AdminCmd) (s : State) : Keeps z s → KeepsNext z (execKekErase d s) := by
  intro h0
  unfold execKekErase
  conv => zeta
  with_reducible repeat' (first | assumption | intro _ | apply State.admin_keeps | apply State.adminFail_keeps | apply State.adminOk_keeps | apply State.setFld_keeps | apply KeepsNext.next | apply KeepsNext.ite | simp only [Keeps.update] | apply Keeps.ite | apply Keeps.foldl | split)

theorem State.exhaust_keeps {z : State} (s : State) (k : Nat) : Keeps z s → Keeps z (State.exhaust s k) := by
  intro h0
  unfold State.exhaust
  conv => zeta
  with_reducible repeat' (first | assumption | intro _ | apply State.setSlot_keeps | apply State.raise_keeps | simp only [Keeps.update] | apply Keeps.ite | apply Keeps.foldl | split)

theorem execKeyExhaust_keeps {z : State} (k : Nat) (at_ : Nat) (s : State) : Keeps z s → KeepsNext z (execKeyExhaust k at_ s) := by
  intro h0
  unfold execKeyExhaust
  conv => zeta
  with_reducible repeat' (first | assumption | intro _ | apply State.atTime_keeps | apply State.exhaust_keeps | apply KeepsNext.next | apply KeepsNext.ite | simp only [Keeps.update] | apply Keeps.ite | apply Keeps.foldl | split)

theorem State.setDesc_keeps {z : State} (s : State) (h : Nat) (c : Nat) (d : DmaDesc) : Keeps z s → Keeps z (State.setDesc s h c d) := by
  intro h0
  unfold State.setDesc
  conv => zeta
  with_reducible repeat' (first | assumption | intro _ | apply State.setDch_keeps | simp only [Keeps.update] | apply Keeps.ite | apply Keeps.foldl | split)

theorem State.pushDesc_keeps {z : State} (s : State) (h : Nat) (c : Nat) (d : DmaDesc) : Keeps z s → Keeps z (State.pushDesc s h c d) := by
  intro h0
  unfold State.pushDesc
  conv => zeta
  with_reducible repeat' (first | assumption | intro _ | apply State.setDch_keeps | simp only [Keeps.update] | apply Keeps.ite | apply Keeps.foldl | split)

theorem State.chainLimit_keeps {z : State} (s : State) (h : Nat) (yes : Bool) : Keeps z s → Keeps z (State.chainLimit s h yes) := by
  intro h0
  unfold State.chainLimit
  with_reducible repeat' (first | assumption | intro _ | apply State.bump_keeps | apply State.raise_keeps | simp only [Keeps.update] | apply Keeps.ite | apply Keeps.foldl | split)

theorem State.followList_keeps {z : State} (s : State) (h : Nat) (c : Nat) (d : DmaDesc) (list : List Bytes) : Keeps z s → KeepsFst z (State.followList s h c d list) := by
  intro h0
  unfold State.followList
  conv => zeta
  with_reducible repeat' (first | assumption | intro _ | apply State.chainLimit_keeps | simp only [KeepsFst.pair] | apply KeepsFst.ite | apply KeepsFst.foldl | simp only [Keeps.update] | apply Keeps.ite | apply Keeps.foldl | (refine Keeps.fst (by assumption) ?_) | apply KeepsFst.first | split)

theorem State.acceptDesc_keeps {z : State} (s : State) (h : Nat) (c : Nat) (idx : Nat) (addr : Nat) (b : Bytes) : Keeps z s → Keeps z (State.acceptDesc s h c idx addr b) := by
  intro h0
  unfold State.acceptDesc
  conv => zeta
  with_reducible repeat' (first | assumption | intro _ | apply State.pushDesc_keeps | apply State.followList_keeps | simp only [KeepsFst.pair] | apply KeepsFst.ite | apply KeepsFst.foldl | simp only [Keeps.update] | apply Keeps.ite | apply Keeps.foldl | (refine Keeps.fst (by assumption) ?_) | apply KeepsFst.first | split)

theorem State.writeBack_keeps {z : State} (s : State) (h : Nat) (c : Nat) (addr : Nat) (st : Nat) (dt : Nat) (bytes : Nat) : Keeps z s → Keeps z (State.writeBack s h c addr st dt bytes) := by
  intro h0
  unfold State.writeBack
  conv => zeta
  with_reducible repeat' (first | assumption | intro _ | apply State.putAlcove_keeps | apply State.addPost_keeps | simp only [Keeps.update] | apply Keeps.ite | apply Keeps.foldl | split)

theorem State.chainNext_keeps {z : State} (s : State) (h : Nat) (c : Nat) (next : Nat) (links : Nat) : Keeps z s → Keeps z (State.chainNext s h c next links) := by
  intro h0
  unfold State.chainNext
  with_reducible repeat' (first | assumption | intro _ | apply State.setDch_keeps | simp only [Keeps.update] | apply Keeps.ite | apply Keeps.foldl | split)

theorem State.chainIdle_keeps {z : State} (s : State) (h : Nat) (c : Nat) : Keeps z s → Keeps z (State.chainIdle s h c) := by
  intro h0
  unfold State.chainIdle
  with_reducible repeat' (first | assumption | intro _ | apply State.setChState_keeps | simp only [Keeps.update] | apply Keeps.ite | apply Keeps.foldl | split)

theorem State.readChain_keeps {z : State} (s : State) (h : Nat) (c : Nat) (b : Bytes) : Keeps z s → Keeps z (State.readChain s h c b) := by
  intro h0
  unfold State.readChain
  conv => zeta
  with_reducible repeat' (first | assumption | intro _ | apply State.setChState_keeps | apply State.writeBack_keeps | apply State.chainLimit_keeps | apply State.setDch_keeps | apply State.chainIdle_keeps | apply State.chainNext_keeps | apply State.acceptDesc_keeps | simp only [Keeps.update] | apply Keeps.ite | apply Keeps.foldl | split)

theorem State.dmaError_keeps {z : State} (s : State) (h : Nat) (e : DmaErr) : Keeps z s → Keeps z (State.dmaError s h e) := by
  intro h0
  unfold State.dmaError
  with_reducible repeat' (first | assumption | intro _ | simp only [Keeps.update] | apply Keeps.ite | apply Keeps.foldl | split)

theorem State.fetchChain_keeps {z : State} (s : State) (h : Nat) (c : Nat) (host : Bytes) : Keeps z s → Keeps z (State.fetchChain s h c host) := by
  intro h0
  unfold State.fetchChain
  conv => zeta
  with_reducible repeat' (first | assumption | intro _ | apply State.setChState_keeps | apply State.readChain_keeps | apply State.endRead_keeps | simp only [Keeps.update] | apply Keeps.ite | apply Keeps.foldl | split)

theorem State.fetchList_keeps {z : State} (s : State) (h : Nat) (c : Nat) (list : List Bytes) : Keeps z s → Keeps z (State.fetchList s h c list) := by
  intro h0
  unfold State.fetchList
  conv => zeta
  with_reducible repeat' (first | assumption | intro _ | apply State.followList_keeps | apply State.endRead_keeps | apply State.setDesc_keeps | simp only [KeepsFst.pair] | apply KeepsFst.ite | apply KeepsFst.foldl | simp only [Keeps.update] | apply Keeps.ite | apply Keeps.foldl | (refine Keeps.fst (by assumption) ?_) | apply KeepsFst.first | split)

theorem execDescriptorFetch_keeps {z : State} (h : Nat) (c : Nat) (more : Bool) (host : Bytes) (list : List Bytes) (at_ : Nat) (s : State) : Keeps z s → KeepsNext z (execDescriptorFetch h c more host list at_ s) := by
  intro h0
  unfold execDescriptorFetch
  conv => zeta
  with_reducible repeat' (first | assumption | intro _ | apply State.atTime_keeps | apply State.fetchList_keeps | apply State.openTurn_keeps | apply State.fetchChain_keeps | apply State.acceptDesc_keeps | apply State.setChState_keeps | apply State.setQueue_keeps | apply KeepsNext.next | apply KeepsNext.ite | simp only [Keeps.update] | apply Keeps.ite | apply Keeps.foldl | (refine KeepsSome.of_eq (by assumption) ?_) | apply KeepsSome.ite | exact KeepsSome.none | apply KeepsSome.some | split)

theorem State.storeCrc_keeps {z : State} (s : State) (h : Nat) (d : DmaDesc) : Keeps z s → KeepsFst z (State.storeCrc s h d) := by
  intro h0
  unfold State.storeCrc
  conv => zeta
  with_reducible repeat' (first | assumption | intro _ | apply State.putAlcove_keeps | apply State.bump_keeps | simp only [KeepsFst.pair] | apply KeepsFst.ite | apply KeepsFst.foldl | simp only [Keeps.update] | apply Keeps.ite | apply Keeps.foldl | (refine Keeps.fst (by assumption) ?_) | apply KeepsFst.first | split)

theorem execDescriptorComplete_keeps {z : State} (h : Nat) (c : Nat) (s : State) : Keeps z s → KeepsNext z (execDescriptorComplete h c s) := by
  intro h0
  unfold execDescriptorComplete
  conv => zeta
  with_reducible repeat' (first | assumption | intro _ | apply State.storeCrc_keeps | apply State.setDch_keeps | apply State.setFld_keeps | apply State.bump_keeps | apply State.writeBack_keeps | apply State.chainIdle_keeps | apply State.raise_keeps | apply State.setChState_keeps | apply State.descDone_keeps | apply KeepsNext.next | apply KeepsNext.ite | simp only [KeepsFst.pair] | apply KeepsFst.ite | apply KeepsFst.foldl | simp only [Keeps.update] | apply Keeps.ite | apply Keeps.foldl | (refine Keeps.fst (by assumption) ?_) | apply KeepsFst.first | split)

theorem execDmaChCfgWrite_keeps {z : State} (who : Who) (h : Nat) (c : Nat) (value : Nat) (s : State) : Keeps z s → KeepsNext z (execDmaChCfgWrite who h c value s) := by
  intro h0
  unfold execDmaChCfgWrite
  with_reducible repeat' (first | assumption | intro _ | apply State.raise_keeps | apply KeepsNext.next | apply KeepsNext.ite | simp only [Keeps.update] | apply Keeps.ite | apply Keeps.foldl | split)

theorem State.cfgLand_keeps {z : State} (s : State) (e : Nat × Word) : Keeps z s → Keeps z (State.cfgLand s e) := by
  intro h0
  unfold State.cfgLand
  conv => zeta
  with_reducible repeat' (first | assumption | intro _ | apply State.setWord_keeps | apply State.setChState_keeps | simp only [Keeps.update] | apply Keeps.ite | apply Keeps.foldl | split)

theorem execDmaChStart_keeps {z : State} (who : Who) (h : Nat) (c : Nat) (s : State) : Keeps z s → KeepsNext z (execDmaChStart who h c s) := by
  intro h0
  unfold execDmaChStart
  with_reducible repeat' (first | assumption | intro _ | apply State.setChState_keeps | apply State.setDch_keeps | apply KeepsNext.next | apply KeepsNext.ite | simp only [Keeps.update] | apply Keeps.ite | apply Keeps.foldl | split)

theorem execDmaChKick_keeps {z : State} (who : Who) (h : Nat) (c : Nat) (s : State) : Keeps z s → KeepsNext z (execDmaChKick who h c s) := by
  intro h0
  unfold execDmaChKick
  with_reducible repeat' (first | assumption | intro _ | apply State.setChState_keeps | apply KeepsNext.next | apply KeepsNext.ite | simp only [Keeps.update] | apply Keeps.ite | apply Keeps.foldl | split)

theorem State.takeUnit_keeps {z : State} (s : State) (h c : Nat) (d : DmaDesc) : Keeps z s → ∀ u x, s.takeUnit h c d = some (u, x) → Keeps z u := by
  intro h0 u x e
  unfold State.takeUnit at e
  simp only [Option.ite_none_left_eq_some, Option.some.injEq, Prod.mk.injEq] at e
  obtain ⟨_, rfl, _⟩ := e
  exact State.bump64_keeps _ _ _ _ _ _ (State.setDesc_keeps _ _ _ _ (State.poisonUse_keeps _ _ h0))

theorem State.fillPlanned_keeps {z : State} (s : State) (h : Nat) (c : Nat) (v3 : Nat) : Keeps z s → KeepsFst z (State.fillPlanned s h c v3) := by
  induction v3 generalizing s h c with
  | zero =>
    intro h0
    unfold State.fillPlanned
    conv => zeta
    with_reducible repeat' (first | assumption | intro _ | (refine State.takeUnit_keeps _ _ _ _ ?_ _ _ (by assumption)) | apply State.bump_keeps | apply State.raise_keeps | simp only [KeepsFst.pair] | apply KeepsFst.ite | apply KeepsFst.foldl | simp only [Keeps.update] | apply Keeps.ite | apply Keeps.foldl | (refine Keeps.fst (by assumption) ?_) | apply KeepsFst.first | split)
  | succ n ih =>
    intro h0
    unfold State.fillPlanned
    conv => zeta
    with_reducible repeat' (first | assumption | intro _ | apply ih | (refine State.takeUnit_keeps _ _ _ _ ?_ _ _ (by assumption)) | apply State.bump_keeps | apply State.raise_keeps | simp only [KeepsFst.pair] | apply KeepsFst.ite | apply KeepsFst.foldl | simp only [Keeps.update] | apply Keeps.ite | apply Keeps.foldl | (refine Keeps.fst (by assumption) ?_) | apply KeepsFst.first | split)

theorem State.putPost_keeps {z : State} (s : State) (h : Nat) (p : Nat) (x : Post) : Keeps z s → Keeps z (State.putPost s h p x) := by
  intro h0
  unfold State.putPost
  with_reducible repeat' (first | assumption | intro _ | apply State.setPosts_keeps | simp only [Keeps.update] | apply Keeps.ite | apply Keeps.foldl | split)

theorem State.takePost_keeps {z : State} (s : State) (h : Nat) (p : Nat) (x : Post) : Keeps z s → KeepsFst z (State.takePost s h p x) := by
  intro h0
  unfold State.takePost
  conv => zeta
  with_reducible repeat' (first | assumption | intro _ | apply State.putPost_keeps | simp only [KeepsFst.pair] | apply KeepsFst.ite | apply KeepsFst.foldl | simp only [Keeps.update] | apply Keeps.ite | apply Keeps.foldl | (refine Keeps.fst (by assumption) ?_) | apply KeepsFst.first | split)

theorem State.fillRecords_keeps {z : State} (s : State) (h : Nat) (p : Nat) (v3 : Nat) : Keeps z s → KeepsFst z (State.fillRecords s h p v3) := by
  induction v3 generalizing s h p with
  | zero =>
    intro h0
    unfold State.fillRecords
    conv => zeta
    with_reducible repeat' (first | assumption | intro _ | apply State.takePost_keeps | simp only [KeepsFst.pair] | apply KeepsFst.ite | apply KeepsFst.foldl | simp only [Keeps.update] | apply Keeps.ite | apply Keeps.foldl | (refine Keeps.fst (by assumption) ?_) | apply KeepsFst.first | split)
  | succ n ih =>
    intro h0
    unfold State.fillRecords
    conv => zeta
    with_reducible repeat' (first | assumption | intro _ | apply ih | apply State.takePost_keeps | simp only [KeepsFst.pair] | apply KeepsFst.ite | apply KeepsFst.foldl | simp only [Keeps.update] | apply Keeps.ite | apply Keeps.foldl | (refine Keeps.fst (by assumption) ?_) | apply KeepsFst.first | split)

theorem State.setRead_keeps {z : State} (s : State) (r : HallRead) : Keeps z s → Keeps z (State.setRead s r) := by
  intro h0
  unfold State.setRead
  with_reducible repeat' (first | assumption | intro _ | simp only [Keeps.update] | apply Keeps.ite | apply Keeps.foldl | split)

theorem State.openReads_keeps {z : State} (s : State) (h : Nat) (p : Nat) : Keeps z s → Keeps z (State.openReads s h p) := by
  intro h0
  unfold State.openReads
  conv => zeta
  with_reducible repeat' (first | assumption | intro _ | simp only [Keeps.update] | apply Keeps.ite | apply Keeps.foldl | split)

theorem State.fillAsks_keeps {z : State} (s : State) (h : Nat) (p : Nat) (v3 : Nat) : Keeps z s → KeepsFst z (State.fillAsks s h p v3) := by
  induction v3 generalizing s h p with
  | zero =>
    intro h0
    unfold State.fillAsks
    conv => zeta
    with_reducible repeat' (first | assumption | intro _ | apply State.setRead_keeps | simp only [KeepsFst.pair] | apply KeepsFst.ite | apply KeepsFst.foldl | simp only [Keeps.update] | apply Keeps.ite | apply Keeps.foldl | (refine Keeps.fst (by assumption) ?_) | apply KeepsFst.first | split)
  | succ n ih =>
    intro h0
    unfold State.fillAsks
    conv => zeta
    with_reducible repeat' (first | assumption | intro _ | apply ih | apply State.setRead_keeps | simp only [KeepsFst.pair] | apply KeepsFst.ite | apply KeepsFst.foldl | simp only [Keeps.update] | apply Keeps.ite | apply Keeps.foldl | (refine Keeps.fst (by assumption) ?_) | apply KeepsFst.first | split)

theorem State.fillReads_keeps {z : State} (s : State) (h : Nat) (p : Nat) (v3 : Nat) : Keeps z s → KeepsFst z (State.fillReads s h p v3) := by
  induction v3 generalizing s h p with
  | zero =>
    intro h0
    unfold State.fillReads
    conv => zeta
    with_reducible repeat' (first | assumption | intro _ | apply State.setDesc_keeps | simp only [KeepsFst.pair] | apply KeepsFst.ite | apply KeepsFst.foldl | simp only [Keeps.update] | apply Keeps.ite | apply Keeps.foldl | (refine Keeps.fst (by assumption) ?_) | apply KeepsFst.first | split)
  | succ n ih =>
    intro h0
    unfold State.fillReads
    conv => zeta
    with_reducible repeat' (first | assumption | intro _ | apply ih | apply State.setDesc_keeps | simp only [KeepsFst.pair] | apply KeepsFst.ite | apply KeepsFst.foldl | simp only [Keeps.update] | apply Keeps.ite | apply Keeps.foldl | (refine Keeps.fst (by assumption) ?_) | apply KeepsFst.first | split)

theorem State.fillToward_keeps {z : State} (s : State) (h : Nat) (p : Nat) (v3 : Nat) : Keeps z s → KeepsFst z (State.fillToward s h p v3) := by
  induction v3 generalizing s h p with
  | zero =>
    intro h0
    unfold State.fillToward
    conv => zeta
    with_reducible repeat' (first | assumption | intro _ | apply State.takePost_keeps | (refine State.takeUnit_keeps _ _ _ _ ?_ _ _ (by assumption)) | simp only [KeepsFst.pair] | apply KeepsFst.ite | apply KeepsFst.foldl | simp only [Keeps.update] | apply Keeps.ite | apply Keeps.foldl | (refine Keeps.fst (by assumption) ?_) | apply KeepsFst.first | split)
  | succ n ih =>
    intro h0
    unfold State.fillToward
    conv => zeta
    with_reducible repeat' (first | assumption | intro _ | apply ih | apply State.takePost_keeps | (refine State.takeUnit_keeps _ _ _ _ ?_ _ _ (by assumption)) | simp only [KeepsFst.pair] | apply KeepsFst.ite | apply KeepsFst.foldl | simp only [Keeps.update] | apply Keeps.ite | apply Keeps.foldl | (refine Keeps.fst (by assumption) ?_) | apply KeepsFst.first | split)

theorem State.fillFrom_keeps {z : State} (s : State) (h : Nat) (p : Nat) (v3 : Nat) : Keeps z s → KeepsFst z (State.fillFrom s h p v3) := by
  induction v3 generalizing s h p with
  | zero =>
    intro h0
    unfold State.fillFrom
    conv => zeta
    with_reducible repeat' (first | assumption | intro _ | apply State.setRead_keeps | (refine State.takeUnit_keeps _ _ _ _ ?_ _ _ (by assumption)) | simp only [KeepsFst.pair] | apply KeepsFst.ite | apply KeepsFst.foldl | simp only [Keeps.update] | apply Keeps.ite | apply Keeps.foldl | (refine Keeps.fst (by assumption) ?_) | apply KeepsFst.first | split)
  | succ n ih =>
    intro h0
    unfold State.fillFrom
    conv => zeta
    with_reducible repeat' (first | assumption | intro _ | apply ih | apply State.setRead_keeps | (refine State.takeUnit_keeps _ _ _ _ ?_ _ _ (by assumption)) | simp only [KeepsFst.pair] | apply KeepsFst.ite | apply KeepsFst.foldl | simp only [Keeps.update] | apply Keeps.ite | apply Keeps.foldl | (refine Keeps.fst (by assumption) ?_) | apply KeepsFst.first | split)

theorem State.fillCarrier_keeps {z : State} (s : State) (h : Nat) (p : Nat) (toward : Bool) (n : Nat) : Keeps z s → KeepsFst z (State.fillCarrier s h p toward n) := by
  intro h0
  unfold State.fillCarrier
  conv => zeta
  with_reducible repeat' (first | assumption | intro _ | apply State.fillFrom_keeps | apply State.fillRecords_keeps | apply State.fillAsks_keeps | apply State.openReads_keeps | apply State.fillReads_keeps | apply State.fillToward_keeps | simp only [KeepsFst.pair] | apply KeepsFst.ite | apply KeepsFst.foldl | simp only [Keeps.update] | apply Keeps.ite | apply Keeps.foldl | (refine Keeps.fst (by assumption) ?_) | apply KeepsFst.first | split)

theorem State.addBurst_keeps {z : State} (s : State) (b : Burst) : Keeps z s → Keeps z (State.addBurst s b) := by
  intro h0
  unfold State.addBurst
  with_reducible repeat' (first | assumption | intro _ | simp only [Keeps.update] | apply Keeps.ite | apply Keeps.foldl | split)

theorem execDmaOp_keeps {z : State} (h : Nat) (s : State) : Keeps z s → KeepsNext z (execDmaOp h s) := by
  intro h0
  unfold execDmaOp
  conv => zeta
  with_reducible repeat' (first | assumption | intro _ | (refine State.takeOp_keeps _ _ _ _ ?_ _ _ (by assumption)) | apply State.occupy_keeps | apply State.addBurst_keeps | apply State.bump_keeps | apply State.fillPlanned_keeps | apply State.fillCarrier_keeps | apply State.bump64_keeps | apply KeepsNext.next | apply KeepsNext.ite | simp only [KeepsFst.pair] | apply KeepsFst.ite | apply KeepsFst.foldl | simp only [Keeps.update] | apply Keeps.ite | apply Keeps.foldl | (refine Keeps.fst (by assumption) ?_) | apply KeepsFst.first | split)

theorem State.landFrom_keeps {z : State} (s : State) (h : Nat) (u : DmaUnit) (data : Bytes) (poison : Option Nat) : Keeps z s → Keeps z (State.landFrom s h u data poison) := by
  intro h0
  unfold State.landFrom
  conv => zeta
  with_reducible repeat' (first | assumption | intro _ | apply State.putAlcove_keeps | apply State.poisonAlcove_keeps | apply State.setDesc_keeps | simp only [Keeps.update] | apply Keeps.ite | apply Keeps.foldl | split)

theorem State.portWrite_keeps {z : State} (s : State) (bad : Bool) (f : Nat) (a : Nat) (b : Bytes) : Keeps z s → Keeps z (State.portWrite s bad f a b) := by
  intro h0
  unfold State.portWrite
  with_reducible repeat' (first | assumption | intro _ | apply State.leave_keeps | apply State.hostPut_keeps | simp only [Keeps.update] | apply Keeps.ite | apply Keeps.foldl | split)

theorem State.landHost_keeps {z : State} (s : State) (h : Nat) (u : DmaUnit) (bad : Bool) : Keeps z s → Keeps z (State.landHost s h u bad) := by
  intro h0
  unfold State.landHost
  conv => zeta
  with_reducible repeat' (first | assumption | intro _ | apply State.setDesc_keeps | apply State.portWrite_keeps | simp only [KeepsFst.pair] | apply KeepsFst.ite | apply KeepsFst.foldl | simp only [Keeps.update] | apply Keeps.ite | apply Keeps.foldl | (refine Keeps.fst (by assumption) ?_) | apply KeepsFst.first | split)

theorem State.landFarPiece_keeps {z : State} (s : State) (d : DmaDesc) (bad : Bool) (a : Nat) (b : Bytes) : Keeps z s → Keeps z (State.landFarPiece s d bad a b) := by
  intro h0
  unfold State.landFarPiece
  conv => zeta
  with_reducible repeat' (first | assumption | intro _ | apply State.atriumWrite_keeps | apply State.poisonBeat_keeps | apply State.poisonAlcove_keeps | apply State.putAlcove_keeps | simp only [Keeps.update] | apply Keeps.ite | apply Keeps.foldl | split)

theorem State.landFar_keeps {z : State} (s : State) (h : Nat) (u : DmaUnit) (bad : Bool) : Keeps z s → Keeps z (State.landFar s h u bad) := by
  intro h0
  unfold State.landFar
  conv => zeta
  with_reducible repeat' (first | assumption | intro _ | apply State.setDesc_keeps | apply State.landFarPiece_keeps | simp only [KeepsFst.pair] | apply KeepsFst.ite | apply KeepsFst.foldl | simp only [Keeps.update] | apply Keeps.ite | apply Keeps.foldl | (refine Keeps.fst (by assumption) ?_) | apply KeepsFst.first | split)

theorem State.postUnit_keeps {z : State} (s : State) (h : Nat) (p : Nat) (u : DmaUnit) (bad : Bool) : Keeps z s → Keeps z (State.postUnit s h p u bad) := by
  intro h0
  unfold State.postUnit
  conv => zeta
  with_reducible repeat' (first | assumption | intro _ | apply State.portWrite_keeps | apply State.putPost_keeps | apply State.setPosts_keeps | apply State.cqWrite_keeps | apply State.setCq_keeps | simp only [Keeps.update] | apply Keeps.ite | apply Keeps.foldl | split)

theorem State.showTags_keeps {z : State} (s : State) (p : Nat) : Keeps z s → Keeps z (State.showTags s p) := by
  intro h0
  unfold State.showTags
  with_reducible repeat' (first | assumption | intro _ | apply State.setFld_keeps | simp only [Keeps.update] | apply Keeps.ite | apply Keeps.foldl | split)

theorem State.sendRead_keeps {z : State} (s : State) (p : Nat) (purpose : Nat) (fn : Nat) (addr : Nat) (len : Nat) (arg : Nat) (arg2 : Nat) : Keeps z s → Keeps z (State.sendRead s p purpose fn addr len arg arg2) := by
  intro h0
  unfold State.sendRead
  conv => zeta
  with_reducible repeat' (first | assumption | intro _ | apply State.leave_keeps | apply State.showTags_keeps | apply State.setHp_keeps | simp only [Keeps.update] | apply Keeps.ite | apply Keeps.foldl | split)

theorem execReadAheadRequest_keeps {z : State} (h : Nat) (c : Nat) (at_ : Nat) (s : State) : Keeps z s → KeepsNext z (execReadAheadRequest h c at_ s) := by
  intro h0
  unfold execReadAheadRequest
  conv => zeta
  with_reducible repeat' (first | assumption | intro _ | apply State.atTime_keeps | apply State.sendRead_keeps | apply State.setDesc_keeps | apply KeepsNext.next | apply KeepsNext.ite | simp only [Keeps.update] | apply Keeps.ite | apply Keeps.foldl | split)

theorem State.setBurst_keeps {z : State} (s : State) (b : Burst) : Keeps z s → Keeps z (State.setBurst s b) := by
  intro h0
  unfold State.setBurst
  with_reducible repeat' (first | assumption | intro _ | simp only [Keeps.update] | apply Keeps.ite | apply Keeps.foldl | split)

theorem State.discardUnit_keeps {z : State} (s : State) (h : Nat) (p : Nat) (u : DmaUnit) : Keeps z s → Keeps z (State.discardUnit s h p u) := by
  intro h0
  unfold State.discardUnit
  conv => zeta
  with_reducible repeat' (first | assumption | intro _ | apply State.putPost_keeps | apply State.setRead_keeps | apply State.setDesc_keeps | simp only [Keeps.update] | apply Keeps.ite | apply Keeps.foldl | split)

theorem State.showHostq_keeps {z : State} (s : State) (p : Nat) (toward : Bool) : Keeps z s → Keeps z (State.showHostq s p toward) := by
  intro h0
  unfold State.showHostq
  conv => zeta
  with_reducible repeat' (first | assumption | intro _ | apply State.setFld_keeps | simp only [Keeps.update] | apply Keeps.ite | apply Keeps.foldl | split)

theorem State.arriveFlits_keeps {z : State} (s : State) (p : Nat) (toward : Bool) (v3 : Nat) : Keeps z s → Keeps z (State.arriveFlits s p toward v3) := by
  induction v3 generalizing s p toward with
  | zero =>
    intro h0
    unfold State.arriveFlits
    conv => zeta
    with_reducible repeat' (first | assumption | intro _ | apply State.setBurst_keeps | apply State.discardUnit_keeps | apply State.raise_keeps | apply State.showHostq_keeps | simp only [Keeps.update] | apply Keeps.ite | apply Keeps.foldl | split)
  | succ n ih =>
    intro h0
    unfold State.arriveFlits
    conv => zeta
    with_reducible repeat' (first | assumption | intro _ | apply ih | apply State.setBurst_keeps | apply State.discardUnit_keeps | apply State.raise_keeps | apply State.showHostq_keeps | simp only [Keeps.update] | apply Keeps.ite | apply Keeps.foldl | split)

theorem State.flitError_keeps {z : State} (s : State) (bad : Bool) : Keeps z s → Keeps z (State.flitError s bad) := by
  intro h0
  unfold State.flitError
  with_reducible repeat' (first | assumption | intro _ | apply State.raise_keeps | apply State.bump_keeps | simp only [Keeps.update] | apply Keeps.ite | apply Keeps.foldl | split)

theorem State.sendUnit_keeps {z : State} (s : State) (p : Nat) (h : Nat) (bad : Bool) (u : DmaUnit) : Keeps z s → Keeps z (State.sendUnit s p h bad u) := by
  intro h0
  unfold State.sendUnit
  with_reducible repeat' (first | assumption | intro _ | apply State.sendRead_keeps | apply State.postUnit_keeps | apply State.landHost_keeps | simp only [Keeps.update] | apply Keeps.ite | apply Keeps.foldl | split)

theorem State.releaseUnit_keeps {z : State} (s : State) (h : Nat) (bad : Bool) (u : DmaUnit) : Keeps z s → KeepsFst z (State.releaseUnit s h bad u) := by
  intro h0
  unfold State.releaseUnit
  conv => zeta
  with_reducible repeat' (first | assumption | intro _ | apply State.setRead_keeps | apply State.cipherTo_keeps | apply State.landFrom_keeps | apply State.setDesc_keeps | simp only [KeepsFst.pair] | apply KeepsFst.ite | apply KeepsFst.foldl | simp only [Keeps.update] | apply Keeps.ite | apply Keeps.foldl | (refine Keeps.fst (by assumption) ?_) | apply KeepsFst.first | split)

theorem State.skipDropped_keeps {z : State} (s : State) (p : Nat) (toward : Bool) : Keeps z s → Keeps z (State.skipDropped s p toward) := by
  intro h0
  unfold State.skipDropped
  with_reducible repeat' (first | assumption | intro _ | simp only [Keeps.update] | apply Keeps.ite | apply Keeps.foldl | split)

theorem State.passFlit_keeps {z : State} (s : State) (p : Nat) (toward : Bool) (bad : Bool) (b : Burst) (d : Nat) : Keeps z s → Keeps z (State.passFlit s p toward bad b d) := by
  intro h0
  unfold State.passFlit
  conv => zeta
  with_reducible repeat' (first | assumption | intro _ | apply State.setBurst_keeps | apply State.flitError_keeps | apply State.bump64_keeps | apply State.sendUnit_keeps | apply State.releaseUnit_keeps | apply State.bump_keeps | apply State.raise_keeps | simp only [KeepsFst.pair] | apply KeepsFst.ite | apply KeepsFst.foldl | simp only [Keeps.update] | apply Keeps.ite | apply Keeps.foldl | (refine Keeps.fst (by assumption) ?_) | apply KeepsFst.first | split)

theorem execHostFlitRelease_keeps {z : State} (p : Nat) (toward : Bool) (bad : Bool) (at_ : Nat) (s : State) : Keeps z s → KeepsNext z (execHostFlitRelease p toward bad at_ s) := by
  intro h0
  unfold execHostFlitRelease
  conv => zeta
  with_reducible repeat' (first | assumption | intro _ | apply State.atTime_keeps | apply State.arriveFlits_keeps | apply State.skipDropped_keeps | apply State.passFlit_keeps | apply KeepsNext.next | apply KeepsNext.ite | simp only [Keeps.update] | apply Keeps.ite | apply Keeps.foldl | split)

theorem State.unitError_keeps {z : State} (s : State) (d : DmaDesc) (a : Nat) (e : Nat) : Keeps z s → Keeps z (State.unitError s d a e) := by
  intro h0
  unfold State.unitError
  conv => zeta
  with_reducible repeat' (first | assumption | intro _ | apply State.flitError_keeps | apply State.bump_keeps | apply State.alm_keeps | simp only [Keeps.update] | apply Keeps.ite | apply Keeps.foldl | split)

theorem State.farUnit_keeps {z : State} (s : State) (h : Nat) (toward : Bool) (e : Nat) (u : DmaUnit) : Keeps z s → Keeps z (State.farUnit s h toward e u) := by
  intro h0
  unfold State.farUnit
  conv => zeta
  with_reducible repeat' (first | assumption | intro _ | apply State.landFar_keeps | apply State.flitError_keeps | apply State.unitError_keeps | apply State.poisonUse_keeps | apply State.landFrom_keeps | simp only [Keeps.update] | apply Keeps.ite | apply Keeps.foldl | split)

theorem execDmaBurstComplete_keeps {z : State} (h : Nat) (c : Nat) (bad : List (Nat × Nat)) (at_ : Nat) (s : State) : Keeps z s → KeepsNext z (execDmaBurstComplete h c bad at_ s) := by
  intro h0
  unfold execDmaBurstComplete
  conv => zeta
  with_reducible repeat' (first | assumption | intro _ | apply State.atTime_keeps | apply State.bump64_keeps | apply State.farUnit_keeps | apply KeepsNext.next | apply KeepsNext.ite | simp only [Keeps.update] | apply Keeps.ite | apply Keeps.foldl | split)

theorem State.setConn_keeps {z : State} (s : State) (c : Nat) (v : StoConn) : Keeps z s → Keeps z (State.setConn s c v) := by
  intro h0
  unfold State.setConn
  with_reducible repeat' (first | assumption | intro _ | simp only [Keeps.update] | apply Keeps.ite | apply Keeps.foldl | split)

theorem State.connEvent_keeps {z : State} (s : State) (c : Nat) (v : StoConn) : Keeps z s → Keeps z (State.connEvent s c v) := by
  intro h0
  unfold State.connEvent
  conv => zeta
  with_reducible repeat' (first | assumption | intro _ | apply State.event_keeps | apply State.eventOwner_keeps | simp only [Keeps.update] | apply Keeps.ite | apply Keeps.foldl | split)

theorem State.connMove_keeps {z : State} (s : State) (c : Nat) (v : StoConn) (st : Nat) (reason : Nat) : Keeps z s → Keeps z (State.connMove s c v st reason) := by
  intro h0
  unfold State.connMove
  conv => zeta
  with_reducible repeat' (first | assumption | intro _ | apply State.connEvent_keeps | apply State.setConn_keeps | apply State.adminOk_keeps | simp only [Keeps.update] | apply Keeps.ite | apply Keeps.foldl | split)

theorem State.connClose_keeps {z : State} (s : State) (c : Nat) : Keeps z s → Keeps z (State.connClose s c) := by
  intro h0
  unfold State.connClose
  conv => zeta
  with_reducible repeat' (first | assumption | intro _ | apply State.connMove_keeps | apply State.setFld_keeps | apply State.nextGen_keeps | apply State.adminOk_keeps | simp only [Keeps.update] | apply Keeps.ite | apply Keeps.foldl | split)

theorem State.stoDone_keeps {z : State} (s : State) (v : StoConn) (d : Desc) (st : Nat) (dt : Nat) (ops : Nat) (info : Nat) (bytes : Nat) : Keeps z s → Keeps z (State.stoDone s v d st dt ops info bytes) := by
  intro h0
  unfold State.stoDone
  with_reducible repeat' (first | assumption | intro _ | apply State.descDone_keeps | simp only [Keeps.update] | apply Keeps.ite | apply Keeps.foldl | split)

theorem State.dropStoReads_keeps {z : State} (s : State) (c : Nat) (p : Nat → Bool) : Keeps z s → Keeps z (State.dropStoReads s c p) := by
  intro h0
  unfold State.dropStoReads
  with_reducible repeat' (first | assumption | intro _ | simp only [Keeps.update] | apply Keeps.ite | apply Keeps.foldl | split)

theorem State.cmdEnd_keeps {z : State} (s : State) (c : Nat) (m : StoCmd) (st : Nat) (dt : Nat) : Keeps z s → Keeps z (State.cmdEnd s c m st dt) := by
  intro h0
  unfold State.cmdEnd
  conv => zeta
  with_reducible repeat' (first | assumption | intro _ | apply State.setConn_keeps | apply State.dropStoReads_keeps | apply State.drop_keeps | apply State.stoDone_keeps | simp only [Keeps.update] | apply Keeps.ite | apply Keeps.foldl | split)

theorem State.setCmd_keeps {z : State} (s : State) (c : Nat) (m : StoCmd) : Keeps z s → Keeps z (State.setCmd s c m) := by
  intro h0
  unfold State.setCmd
  with_reducible repeat' (first | assumption | intro _ | apply State.setConn_keeps | simp only [Keeps.update] | apply Keeps.ite | apply Keeps.foldl | split)

theorem State.cmdSettle_keeps {z : State} (s : State) (c : Nat) (cid : Nat) : Keeps z s → Keeps z (State.cmdSettle s c cid) := by
  intro h0
  unfold State.cmdSettle
  with_reducible repeat' (first | assumption | intro _ | apply State.cmdEnd_keeps | simp only [Keeps.update] | apply Keeps.ite | apply Keeps.foldl | split)

theorem State.cmdsFail_keeps {z : State} (s : State) (c : Nat) (v : StoConn) (silent : Bool) : Keeps z s → Keeps z (State.cmdsFail s c v silent) := by
  intro h0
  unfold State.cmdsFail
  conv => zeta
  with_reducible repeat' (first | assumption | intro _ | apply State.drop_keeps | apply State.cmdEnd_keeps | apply State.stoDone_keeps | apply State.dropStoReads_keeps | apply State.setConn_keeps | simp only [Keeps.update] | apply Keeps.ite | apply Keeps.foldl | split)

theorem State.connFail_keeps {z : State} (s : State) (c : Nat) (reason : Nat) : Keeps z s → Keeps z (State.connFail s c reason) := by
  intro h0
  unfold State.connFail
  conv => zeta
  with_reducible repeat' (first | assumption | intro _ | apply State.almDev_keeps | apply State.raise_keeps | apply State.bump_keeps | apply State.setConn_keeps | apply State.cmdsFail_keeps | apply State.connMove_keeps | apply State.connClose_keeps | simp only [Keeps.update] | apply Keeps.ite | apply Keeps.foldl | split)

theorem State.pduOut_keeps {z : State} (s : State) (c : Nat) (ty : Nat) (flags : Nat) (rest : Bytes) (data : Bytes) : Keeps z s → Keeps z (State.pduOut s c ty flags rest data) := by
  intro h0
  unfold State.pduOut
  conv => zeta
  with_reducible repeat' (first | assumption | intro _ | apply State.bump_keeps | apply State.setConn_keeps | simp only [Keeps.update] | apply Keeps.ite | apply Keeps.foldl | split)

theorem State.sendIcReq_keeps {z : State} (s : State) (c : Nat) (v : StoConn) : Keeps z s → Keeps z (State.sendIcReq s c v) := by
  intro h0
  unfold State.sendIcReq
  with_reducible repeat' (first | assumption | intro _ | apply State.pduOut_keeps | simp only [Keeps.update] | apply Keeps.ite | apply Keeps.foldl | split)

theorem State.protoFail_keeps {z : State} (s : State) (c : Nat) (reason : Nat) (fes : Nat) (hdr : Bytes) : Keeps z s → Keeps z (State.protoFail s c reason fes hdr) := by
  intro h0
  unfold State.protoFail
  conv => zeta
  with_reducible repeat' (first | assumption | intro _ | apply State.pduOut_keeps | apply State.connFail_keeps | simp only [Keeps.update] | apply Keeps.ite | apply Keeps.foldl | split)

theorem State.stoSource_keeps {z : State} (s : State) (h : Nat) (c : Nat) (arg : Nat) (b : Bytes) (off : Nat) (n : Nat) (host : Bytes) : Keeps z s → KeepsFst z (State.stoSource s h c arg b off n host) := by
  intro h0
  unfold State.stoSource
  conv => zeta
  with_reducible repeat' (first | assumption | intro _ | apply State.endRead_keeps | apply State.poisonUse_keeps | simp only [KeepsFst.pair] | apply KeepsFst.ite | apply KeepsFst.foldl | simp only [Keeps.update] | apply Keeps.ite | apply Keeps.foldl | (refine Keeps.fst (by assumption) ?_) | apply KeepsFst.first | split)

theorem State.stoReady_keeps {z : State} (s : State) (h : Nat) (c : Nat) (arg : Nat) (v : StoConn) (b : Bytes) (off : Nat) (n : Nat) : Keeps z s → KeepsFst z (State.stoReady s h c arg v b off n) := by
  intro h0
  unfold State.stoReady
  with_reducible repeat' (first | assumption | intro _ | simp only [KeepsFst.pair] | apply KeepsFst.ite | apply KeepsFst.foldl | simp only [Keeps.update] | apply Keeps.ite | apply Keeps.foldl | (refine Keeps.fst (by assumption) ?_) | apply KeepsFst.first | split)

theorem State.stoPlace_keeps {z : State} (s : State) (v : StoConn) (d : Desc) (off : Nat) (x : Bytes) : Keeps z s → Keeps z (State.stoPlace s v d off x) := by
  intro h0
  unfold State.stoPlace
  conv => zeta
  with_reducible repeat' (first | assumption | intro _ | apply State.hallWrite_keeps | apply State.putAlcove_keeps | apply State.atriumWrite_keeps | simp only [Keeps.update] | apply Keeps.ite | apply Keeps.foldl | split)

theorem State.stoJobFails_keeps {z : State} (s : State) (c : Nat) (m : StoCmd) (st : Nat) : Keeps z s → Keeps z (State.stoJobFails s c m st) := by
  intro h0
  unfold State.stoJobFails
  with_reducible repeat' (first | assumption | intro _ | apply State.cmdEnd_keeps | apply State.cmdSettle_keeps | apply State.setCmd_keeps | simp only [Keeps.update] | apply Keeps.ite | apply Keeps.foldl | split)

theorem State.stoDecrypt_keeps {z : State} (s : State) (c : Nat) (cid : Nat) : Keeps z s → Keeps z (State.stoDecrypt s c cid) := by
  intro h0
  unfold State.stoDecrypt
  conv => zeta
  with_reducible repeat' (first | assumption | intro _ | apply State.stoJobFails_keeps | apply State.setCmd_keeps | apply State.pushJob_keeps | simp only [Keeps.update] | apply Keeps.ite | apply Keeps.foldl | split)

theorem State.stoXtsOne_keeps {z : State} (s : State) (r : StoXts) : Keeps z s → Keeps z (State.stoXtsOne s r) := by
  intro h0
  unfold State.stoXtsOne
  conv => zeta
  with_reducible repeat' (first | assumption | intro _ | apply State.stoJobFails_keeps | apply State.setCmd_keeps | apply State.stoPlace_keeps | apply State.setConn_keeps | apply State.cmdSettle_keeps | simp only [Keeps.update] | apply Keeps.ite | apply Keeps.foldl | split)

theorem State.stoXtsDone_keeps {z : State} (s : State) : Keeps z s → Keeps z (State.stoXtsDone s) := by
  intro h0
  unfold State.stoXtsDone
  conv => zeta
  with_reducible repeat' (first | assumption | intro _ | apply State.stoXtsOne_keeps | apply State.stoDecrypt_keeps | simp only [Keeps.update] | apply Keeps.ite | apply Keeps.foldl | split)

theorem execCipherWindow_keeps {z : State} (h : Nat) (at_ : Nat) (s : State) : Keeps z s → KeepsNext z (execCipherWindow h at_ s) := by
  intro h0
  unfold execCipherWindow
  with_reducible repeat' (first | assumption | intro _ | apply State.stoXtsDone_keeps | apply State.cipherWindow_keeps | apply KeepsNext.next | apply KeepsNext.ite | simp only [Keeps.update] | apply Keeps.ite | apply Keeps.foldl | split)

theorem execCipherOpRelease_keeps {z : State} (h : Nat) (src : Bytes) (aad : Bytes) (tag : Bytes) (at_ : Nat) (s : State) : Keeps z s → KeepsNext z (execCipherOpRelease h src aad tag at_ s) := by
  intro h0
  unfold execCipherOpRelease
  with_reducible repeat' (first | assumption | intro _ | apply State.stoXtsDone_keeps | apply State.cipherRelease_keeps | apply State.atTime_keeps | apply KeepsNext.next | apply KeepsNext.ite | simp only [Keeps.update] | apply Keeps.ite | apply Keeps.foldl | split)

theorem State.c2hData_keeps {z : State} (s : State) (c : Nat) (d : StoData) (x : Bytes) : Keeps z s → Keeps z (State.c2hData s c d x) := by
  intro h0
  unfold State.c2hData
  conv => zeta
  with_reducible repeat' (first | assumption | intro _ | apply State.setCmd_keeps | apply State.stoPlace_keeps | simp only [Keeps.update] | apply Keeps.ite | apply Keeps.foldl | split)

theorem State.c2hEnd_keeps {z : State} (s : State) (c : Nat) (d : StoData) : Keeps z s → Keeps z (State.c2hEnd s c d) := by
  intro h0
  unfold State.c2hEnd
  conv => zeta
  with_reducible repeat' (first | assumption | intro _ | apply State.setCmd_keeps | apply State.cmdSettle_keeps | apply State.stoDecrypt_keeps | simp only [Keeps.update] | apply Keeps.ite | apply Keeps.foldl | split)

theorem State.pduIn_keeps {z : State} (s : State) (c : Nat) (b : Bytes) : Keeps z s → Keeps z (State.pduIn s c b) := by
  intro h0
  unfold State.pduIn
  conv => zeta
  with_reducible repeat' (first | assumption | intro _ | apply State.bump_keeps | apply State.protoFail_keeps | apply State.connFail_keeps | apply State.connMove_keeps | apply State.cmdSettle_keeps | apply State.setCmd_keeps | apply State.setConn_keeps | simp only [Keeps.update] | apply Keeps.ite | apply Keeps.foldl | split)

theorem State.pduLoop_keeps {z : State} (s : State) (c : Nat) (v2 : Nat) : Keeps z s → Keeps z (State.pduLoop s c v2) := by
  induction v2 generalizing s c with
  | zero =>
    intro h0
    unfold State.pduLoop
    conv => zeta
    with_reducible repeat' (first | assumption | intro _ | apply State.setConn_keeps | apply State.c2hData_keeps | apply State.raise_keeps | apply State.bump_keeps | apply State.setCmd_keeps | apply State.c2hEnd_keeps | apply State.pduIn_keeps | apply State.protoFail_keeps | simp only [Keeps.update] | apply Keeps.ite | apply Keeps.foldl | split)
  | succ n ih =>
    intro h0
    unfold State.pduLoop
    conv => zeta
    with_reducible repeat' (first | assumption | intro _ | apply ih | apply State.setConn_keeps | apply State.c2hData_keeps | apply State.raise_keeps | apply State.bump_keeps | apply State.setCmd_keeps | apply State.c2hEnd_keeps | apply State.pduIn_keeps | apply State.protoFail_keeps | simp only [Keeps.update] | apply Keeps.ite | apply Keeps.foldl | split)

theorem State.connFinish_keeps {z : State} (s : State) (c : Nat) : Keeps z s → Keeps z (State.connFinish s c) := by
  intro h0
  unfold State.connFinish
  with_reducible repeat' (first | assumption | intro _ | apply State.setConn_keeps | simp only [Keeps.update] | apply Keeps.ite | apply Keeps.foldl | split)

theorem State.synSent_keeps {z : State} (s : State) (c : Nat) (v : StoConn) (b : Bytes) : Keeps z s → Keeps z (State.synSent s c v b) := by
  intro h0
  unfold State.synSent
  conv => zeta
  with_reducible repeat' (first | assumption | intro _ | apply State.setConn_keeps | apply State.connFail_keeps | apply State.sendIcReq_keeps | simp only [Keeps.update] | apply Keeps.ite | apply Keeps.foldl | split)

theorem State.ackIn_keeps {z : State} (s : State) (c : Nat) (v : StoConn) (ack : Nat) (wnd : Nat) (pay : Nat) : Keeps z s → KeepsFst z (State.ackIn s c v ack wnd pay) := by
  intro h0
  unfold State.ackIn
  conv => zeta
  with_reducible repeat' (first | assumption | intro _ | apply State.setConn_keeps | simp only [KeepsFst.pair] | apply KeepsFst.ite | apply KeepsFst.foldl | simp only [Keeps.update] | apply Keeps.ite | apply Keeps.foldl | (refine Keeps.fst (by assumption) ?_) | apply KeepsFst.first | split)

theorem State.payIn_keeps {z : State} (s : State) (c : Nat) (pay : Bytes) : Keeps z s → Keeps z (State.payIn s c pay) := by
  intro h0
  unfold State.payIn
  conv => zeta
  with_reducible repeat' (first | assumption | intro _ | apply State.pduLoop_keeps | apply State.setConn_keeps | simp only [Keeps.update] | apply Keeps.ite | apply Keeps.foldl | split)

theorem State.segIn_keeps {z : State} (s : State) (c : Nat) (v : StoConn) (b : Bytes) : Keeps z s → Keeps z (State.segIn s c v b) := by
  intro h0
  unfold State.segIn
  conv => zeta
  with_reducible repeat' (first | assumption | intro _ | apply State.setConn_keeps | apply State.connFail_keeps | apply State.bump_keeps | apply State.ackIn_keeps | apply State.payIn_keeps | apply State.connFinish_keeps | simp only [KeepsFst.pair] | apply KeepsFst.ite | apply KeepsFst.foldl | simp only [Keeps.update] | apply Keeps.ite | apply Keeps.foldl | (refine Keeps.fst (by assumption) ?_) | apply KeepsFst.first | split)

theorem State.connClosing_keeps {z : State} (s : State) (c : Nat) : Keeps z s → Keeps z (State.connClosing s c) := by
  intro h0
  unfold State.connClosing
  with_reducible repeat' (first | assumption | intro _ | apply State.connClose_keeps | simp only [Keeps.update] | apply Keeps.ite | apply Keeps.foldl | split)

theorem execStoSegmentRx_keeps {z : State} (c : Nat) (at_ : Nat) (s : State) : Keeps z s → KeepsNext z (execStoSegmentRx c at_ s) := by
  intro h0
  unfold execStoSegmentRx
  conv => zeta
  with_reducible repeat' (first | assumption | intro _ | apply State.atTime_keeps | apply State.synSent_keeps | apply State.segIn_keeps | apply KeepsNext.next | apply KeepsNext.ite | simp only [Keeps.update] | apply Keeps.ite | apply Keeps.foldl | split)

theorem execRtoExpiry_keeps {z : State} (c : Nat) (at_ : Nat) (s : State) : Keeps z s → KeepsNext z (execRtoExpiry c at_ s) := by
  intro h0
  unfold execRtoExpiry
  conv => zeta
  with_reducible repeat' (first | assumption | intro _ | apply State.atTime_keeps | apply State.connFail_keeps | apply State.setConn_keeps | apply KeepsNext.next | apply KeepsNext.ite | simp only [Keeps.update] | apply Keeps.ite | apply Keeps.foldl | split)

theorem execDelayedAck_keeps {z : State} (c : Nat) (at_ : Nat) (s : State) : Keeps z s → KeepsNext z (execDelayedAck c at_ s) := by
  intro h0
  unfold execDelayedAck
  conv => zeta
  with_reducible repeat' (first | assumption | intro _ | apply State.atTime_keeps | apply State.setConn_keeps | apply KeepsNext.next | apply KeepsNext.ite | simp only [Keeps.update] | apply Keeps.ite | apply Keeps.foldl | split)

theorem State.h2cData_keeps {z : State} (s : State) (c : Nat) (v : StoConn) (m : StoCmd) (tag : Nat) (off : Nat) (len : Nat) (n : Nat) (posted : Bool) (rest : Bytes) (t : List (Nat × Nat × Nat × Bool × Bytes)) (x : Bytes) : Keeps z s → Keeps z (State.h2cData s c v m tag off len n posted rest t x) := by
  intro h0
  unfold State.h2cData
  conv => zeta
  with_reducible repeat' (first | assumption | intro _ | apply State.setConn_keeps | apply State.pduOut_keeps | apply State.setCmd_keeps | simp only [Keeps.update] | apply Keeps.ite | apply Keeps.foldl | split)

theorem State.answerR2t_keeps {z : State} (s : State) (c : Nat) (v : StoConn) (host : Bytes) : Keeps z s → Keeps z (State.answerR2t s c v host) := by
  intro h0
  unfold State.answerR2t
  conv => zeta
  with_reducible repeat' (first | assumption | intro _ | apply State.h2cData_keeps | apply State.stoReady_keeps | apply State.stoJobFails_keeps | apply State.stoSource_keeps | apply State.setCmd_keeps | apply State.pushJob_keeps | simp only [KeepsFst.pair] | apply KeepsFst.ite | apply KeepsFst.foldl | simp only [Keeps.update] | apply Keeps.ite | apply Keeps.foldl | (refine Keeps.fst (by assumption) ?_) | apply KeepsFst.first | split)

theorem execSegmentEnqueue_keeps {z : State} (c : Nat) (host : Bytes) (at_ : Nat) (s : State) : Keeps z s → KeepsNext z (execSegmentEnqueue c host at_ s) := by
  intro h0
  unfold execSegmentEnqueue
  conv => zeta
  with_reducible repeat' (first | assumption | intro _ | apply State.atTime_keeps | apply State.answerR2t_keeps | apply State.flowAppend_keeps | apply State.connClosing_keeps | apply State.bumpBy_keeps | apply State.setConn_keeps | apply State.drawn_keeps | apply KeepsNext.next | apply KeepsNext.ite | simp only [KeepsFst.pair] | apply KeepsFst.ite | apply KeepsFst.foldl | simp only [Keeps.update] | apply Keeps.ite | apply Keeps.foldl | (refine Keeps.fst (by assumption) ?_) | apply KeepsFst.first | split)

theorem execStoCommandFetch_keeps {z : State} (k : Nat) (at_ : Nat) (s : State) : Keeps z s → KeepsNext z (execStoCommandFetch k at_ s) := by
  intro h0
  unfold execStoCommandFetch
  conv => zeta
  with_reducible repeat' (first | assumption | intro _ | apply State.atTime_keeps | apply State.openTurn_keeps | apply State.setQueue_keeps | apply State.descDone_keeps | apply State.setConn_keeps | apply KeepsNext.next | apply KeepsNext.ite | simp only [Keeps.update] | apply Keeps.ite | apply Keeps.foldl | (refine KeepsSome.of_eq (by assumption) ?_) | apply KeepsSome.ite | exact KeepsSome.none | apply KeepsSome.some | split)

theorem State.stoStart_keeps {z : State} (s : State) (h : Nat) (c : Nat) (v : StoConn) (d : Desc) (t : List Desc) (cid : Nat) (host : Bytes) : Keeps z s → Keeps z (State.stoStart s h c v d t cid host) := by
  intro h0
  unfold State.stoStart
  conv => zeta
  with_reducible repeat' (first | assumption | intro _ | apply State.setConn_keeps | apply State.addRefs_keeps | apply State.stoDone_keeps | apply State.stoSource_keeps | apply State.pduOut_keeps | simp only [KeepsFst.pair] | apply KeepsFst.ite | apply KeepsFst.foldl | simp only [Keeps.update] | apply Keeps.ite | apply Keeps.foldl | (refine Keeps.fst (by assumption) ?_) | apply KeepsFst.first | split)

theorem execStoCommandStart_keeps {z : State} (c : Nat) (host : Bytes) (at_ : Nat) (s : State) : Keeps z s → KeepsNext z (execStoCommandStart c host at_ s) := by
  intro h0
  unfold execStoCommandStart
  conv => zeta
  with_reducible repeat' (first | assumption | intro _ | apply State.atTime_keeps | apply State.stoReady_keeps | apply State.stoStart_keeps | apply KeepsNext.next | apply KeepsNext.ite | simp only [KeepsFst.pair] | apply KeepsFst.ite | apply KeepsFst.foldl | simp only [Keeps.update] | apply Keeps.ite | apply Keeps.foldl | (refine Keeps.fst (by assumption) ?_) | apply KeepsFst.first | split)

theorem execStoConnCreate_keeps {z : State} (d : AdminCmd) (buf : Bytes) (s : State) : Keeps z s → KeepsNext z (execStoConnCreate d buf s) := by
  intro h0
  unfold execStoConnCreate
  conv => zeta
  with_reducible repeat' (first | assumption | intro _ | apply State.admin_keeps | apply State.adminFail_keeps | apply State.setFld_keeps | apply State.setConn_keeps | apply State.drawn_keeps | apply KeepsNext.next | apply KeepsNext.ite | simp only [Keeps.update] | apply Keeps.ite | apply Keeps.foldl | split)

theorem execStoConnClose_keeps {z : State} (d : AdminCmd) (s : State) : Keeps z s → KeepsNext z (execStoConnClose d s) := by
  intro h0
  unfold execStoConnClose
  conv => zeta
  with_reducible repeat' (first | assumption | intro _ | apply State.admin_keeps | apply State.adminFail_keeps | apply State.setConn_keeps | apply State.connClose_keeps | apply State.flowAppend_keeps | apply State.drawn_keeps | apply State.connFail_keeps | apply State.connFinish_keeps | apply KeepsNext.next | apply KeepsNext.ite | simp only [KeepsFst.pair] | apply KeepsFst.ite | apply KeepsFst.foldl | simp only [Keeps.update] | apply Keeps.ite | apply Keeps.foldl | (refine Keeps.fst (by assumption) ?_) | apply KeepsFst.first | split)

theorem execStoConnQuery_keeps {z : State} (d : AdminCmd) (s : State) : Keeps z s → KeepsNext z (execStoConnQuery d s) := by
  intro h0
  unfold execStoConnQuery
  with_reducible repeat' (first | assumption | intro _ | apply State.admin_keeps | apply State.adminFail_keeps | apply State.adminOk_keeps | apply State.adminOut_keeps | apply KeepsNext.next | apply KeepsNext.ite | simp only [Keeps.update] | apply Keeps.ite | apply Keeps.foldl | split)

theorem State.stoHallFail_keeps {z : State} (s : State) (l : Nat) : Keeps z s → Keeps z (State.stoHallFail s l) := by
  intro h0
  unfold State.stoHallFail
  with_reducible repeat' (first | assumption | intro _ | apply State.connFail_keeps | simp only [Keeps.update] | apply Keeps.ite | apply Keeps.foldl | split)

end Sys2Proof.Machine
end

