-- ==== Sys2Proof/Laws/KeepsPlans.lean ====
section
/-! SUPPORT. The operations of reflex kernels, tables, faults, grades, plans, roles, swaps and landings keep the queue and both memories' form: one lemma each. -/

namespace Sys2Proof.Machine

theorem State.setCore_keeps {z : State} (s : State) (h : Nat) (c : Nat) (m : RCore) : Keeps z s → Keeps z (State.setCore s h c m) := by
  intro h0
  unfold State.setCore
  with_reducible repeat' (first | assumption | intro _ | simp only [Keeps.update] | apply Keeps.ite | apply Keeps.foldl | split)

theorem State.kernelAbort_keeps {z : State} (s : State) (h : Nat) (c : Nat) (reason : Nat) (at_ : Nat) : Keeps z s → Keeps z (State.kernelAbort s h c reason at_) := by
  intro h0
  unfold State.kernelAbort
  conv => zeta
  with_reducible repeat' (first | assumption | intro _ | apply State.setFld_keeps | apply State.bump_keeps | apply State.setCore_keeps | apply State.alm_keeps | simp only [Keeps.update] | apply Keeps.ite | apply Keeps.foldl | split)

theorem State.endBudget_keeps {z : State} (s : State) (h : Nat) (c : Nat) (t : Nat) : Keeps z s → Keeps z (State.endBudget s h c t) := by
  intro h0
  unfold State.endBudget
  conv => zeta
  with_reducible repeat' (first | assumption | intro _ | apply State.kernelAbort_keeps | apply State.setFld_keeps | simp only [Keeps.update] | apply Keeps.ite | apply Keeps.foldl | split)

theorem execKernelBudgetEnd_keeps {z : State} (h : Nat) (c : Nat) (at_ : Nat) (s : State) : Keeps z s → KeepsNext z (execKernelBudgetEnd h c at_ s) := by
  intro h0
  unfold execKernelBudgetEnd
  conv => zeta
  with_reducible repeat' (first | assumption | intro _ | apply State.atTime_keeps | apply State.endBudget_keeps | apply KeepsNext.next | apply KeepsNext.ite | simp only [Keeps.update] | apply Keeps.ite | apply Keeps.foldl | split)

theorem execRfx_keeps {z : State} (h : Nat) (s : State) : Keeps z s → KeepsNext z (execRfx h s) := by
  intro h0
  unfold execRfx
  conv => zeta
  with_reducible repeat' (first | assumption | intro _ | (refine State.takeOp_keeps _ _ _ _ ?_ _ _ (by assumption)) | apply State.endBudget_keeps | apply State.bump_keeps | apply State.occupy_keeps | apply State.setCore_keeps | apply State.setFld_keeps | apply KeepsNext.next | apply KeepsNext.ite | simp only [Keeps.update] | apply Keeps.ite | apply Keeps.foldl | split)

theorem State.rfx_keeps {z : State} (s : State) (h : Nat) (c : Nat) (w : Nat) (ecc : Nat) (k : State → RCore → State) : Keeps z s → (∀ (x0 : State) (x1 : RCore), Keeps z x0 → Keeps z (k x0 x1)) → Keeps z (State.rfx s h c w ecc k) := by
  intro h0 h1
  unfold State.rfx
  conv => zeta
  with_reducible repeat' (first | assumption | intro _ | apply h1 | apply State.endBudget_keeps | apply State.atTime_keeps | apply State.setFld_keeps | apply State.kernelAbort_keeps | apply State.bump_keeps | simp only [Keeps.update] | apply Keeps.ite | apply Keeps.foldl | split)

theorem State.rfxTo_keeps {z : State} (s : State) (h : Nat) (c : Nat) (m : RCore) (clocks : Nat) (next : Nat) : Keeps z s → Keeps z (State.rfxTo s h c m clocks next) := by
  intro h0
  unfold State.rfxTo
  conv => zeta
  with_reducible repeat' (first | assumption | intro _ | apply State.setCore_keeps | simp only [Keeps.update] | apply Keeps.ite | apply Keeps.foldl | split)

theorem State.rfxCore_keeps {z : State} (s : State) (h : Nat) (c : Nat) (w : Nat) (ecc : Nat) (clocks : Nat) (f : RCore → RCore) : Keeps z s → Keeps z (State.rfxCore s h c w ecc clocks f) := by
  intro h0
  unfold State.rfxCore
  with_reducible repeat' (first | assumption | intro _ | apply State.rfx_keeps | apply State.rfxTo_keeps | simp only [Keeps.update] | apply Keeps.ite | apply Keeps.foldl | split)

theorem State.rfxR_keeps {z : State} (s : State) (h : Nat) (c : Nat) (ecc : Nat) (fn : Nat) (clocks : Nat) (rd : Nat) (ra : Nat) (rb : Nat) (f : Word → Word → Word) : Keeps z s → Keeps z (State.rfxR s h c ecc fn clocks rd ra rb f) := by
  intro h0
  unfold State.rfxR
  with_reducible repeat' (first | assumption | intro _ | apply State.rfxCore_keeps | simp only [Keeps.update] | apply Keeps.ite | apply Keeps.foldl | split)

theorem State.rfxI_keeps {z : State} (s : State) (h : Nat) (c : Nat) (ecc : Nat) (op : Nat) (rd : Nat) (ra : Nat) (imm : Nat) (f : Word → Word) : Keeps z s → Keeps z (State.rfxI s h c ecc op rd ra imm f) := by
  intro h0
  unfold State.rfxI
  with_reducible repeat' (first | assumption | intro _ | apply State.rfxCore_keeps | simp only [Keeps.update] | apply Keeps.ite | apply Keeps.foldl | split)

theorem State.rfxDiv_keeps {z : State} (s : State) (h : Nat) (c : Nat) (ecc : Nat) (fn : Nat) (clocks : Nat) (rd : Nat) (ra : Nat) (rb : Nat) (f : Word → Word → Word) : Keeps z s → Keeps z (State.rfxDiv s h c ecc fn clocks rd ra rb f) := by
  intro h0
  unfold State.rfxDiv
  conv => zeta
  with_reducible repeat' (first | assumption | intro _ | apply State.rfx_keeps | apply State.bump_keeps | apply State.rfxTo_keeps | simp only [Keeps.update] | apply Keeps.ite | apply Keeps.foldl | split)

theorem execAddOp_keeps {z : State} (h : Nat) (c : Nat) (ecc : Nat) (rd : Nat) (ra : Nat) (rb : Nat) (s : State) : Keeps z s → KeepsNext z (execAddOp h c ecc rd ra rb s) := by
  intro h0
  unfold execAddOp
  with_reducible repeat' (first | assumption | intro _ | apply State.rfxR_keeps | apply KeepsNext.next | apply KeepsNext.ite | simp only [Keeps.update] | apply Keeps.ite | apply Keeps.foldl | split)

theorem execSubOp_keeps {z : State} (h : Nat) (c : Nat) (ecc : Nat) (rd : Nat) (ra : Nat) (rb : Nat) (s : State) : Keeps z s → KeepsNext z (execSubOp h c ecc rd ra rb s) := by
  intro h0
  unfold execSubOp
  with_reducible repeat' (first | assumption | intro _ | apply State.rfxR_keeps | apply KeepsNext.next | apply KeepsNext.ite | simp only [Keeps.update] | apply Keeps.ite | apply Keeps.foldl | split)

theorem execAndOp_keeps {z : State} (h : Nat) (c : Nat) (ecc : Nat) (rd : Nat) (ra : Nat) (rb : Nat) (s : State) : Keeps z s → KeepsNext z (execAndOp h c ecc rd ra rb s) := by
  intro h0
  unfold execAndOp
  with_reducible repeat' (first | assumption | intro _ | apply State.rfxR_keeps | apply KeepsNext.next | apply KeepsNext.ite | simp only [Keeps.update] | apply Keeps.ite | apply Keeps.foldl | split)

theorem execOrOp_keeps {z : State} (h : Nat) (c : Nat) (ecc : Nat) (rd : Nat) (ra : Nat) (rb : Nat) (s : State) : Keeps z s → KeepsNext z (execOrOp h c ecc rd ra rb s) := by
  intro h0
  unfold execOrOp
  with_reducible repeat' (first | assumption | intro _ | apply State.rfxR_keeps | apply KeepsNext.next | apply KeepsNext.ite | simp only [Keeps.update] | apply Keeps.ite | apply Keeps.foldl | split)

theorem execXorOp_keeps {z : State} (h : Nat) (c : Nat) (ecc : Nat) (rd : Nat) (ra : Nat) (rb : Nat) (s : State) : Keeps z s → KeepsNext z (execXorOp h c ecc rd ra rb s) := by
  intro h0
  unfold execXorOp
  with_reducible repeat' (first | assumption | intro _ | apply State.rfxR_keeps | apply KeepsNext.next | apply KeepsNext.ite | simp only [Keeps.update] | apply Keeps.ite | apply Keeps.foldl | split)

theorem execShl_keeps {z : State} (h : Nat) (c : Nat) (ecc : Nat) (rd : Nat) (ra : Nat) (rb : Nat) (s : State) : Keeps z s → KeepsNext z (execShl h c ecc rd ra rb s) := by
  intro h0
  unfold execShl
  with_reducible repeat' (first | assumption | intro _ | apply State.rfxR_keeps | apply KeepsNext.next | apply KeepsNext.ite | simp only [Keeps.update] | apply Keeps.ite | apply Keeps.foldl | split)

theorem execShr_keeps {z : State} (h : Nat) (c : Nat) (ecc : Nat) (rd : Nat) (ra : Nat) (rb : Nat) (s : State) : Keeps z s → KeepsNext z (execShr h c ecc rd ra rb s) := by
  intro h0
  unfold execShr
  with_reducible repeat' (first | assumption | intro _ | apply State.rfxR_keeps | apply KeepsNext.next | apply KeepsNext.ite | simp only [Keeps.update] | apply Keeps.ite | apply Keeps.foldl | split)

theorem execSar_keeps {z : State} (h : Nat) (c : Nat) (ecc : Nat) (rd : Nat) (ra : Nat) (rb : Nat) (s : State) : Keeps z s → KeepsNext z (execSar h c ecc rd ra rb s) := by
  intro h0
  unfold execSar
  with_reducible repeat' (first | assumption | intro _ | apply State.rfxR_keeps | apply KeepsNext.next | apply KeepsNext.ite | simp only [Keeps.update] | apply Keeps.ite | apply Keeps.foldl | split)

theorem execSlt_keeps {z : State} (h : Nat) (c : Nat) (ecc : Nat) (rd : Nat) (ra : Nat) (rb : Nat) (s : State) : Keeps z s → KeepsNext z (execSlt h c ecc rd ra rb s) := by
  intro h0
  unfold execSlt
  with_reducible repeat' (first | assumption | intro _ | apply State.rfxR_keeps | apply KeepsNext.next | apply KeepsNext.ite | simp only [Keeps.update] | apply Keeps.ite | apply Keeps.foldl | split)

theorem execSltu_keeps {z : State} (h : Nat) (c : Nat) (ecc : Nat) (rd : Nat) (ra : Nat) (rb : Nat) (s : State) : Keeps z s → KeepsNext z (execSltu h c ecc rd ra rb s) := by
  intro h0
  unfold execSltu
  with_reducible repeat' (first | assumption | intro _ | apply State.rfxR_keeps | apply KeepsNext.next | apply KeepsNext.ite | simp only [Keeps.update] | apply Keeps.ite | apply Keeps.foldl | split)

theorem execMinOp_keeps {z : State} (h : Nat) (c : Nat) (ecc : Nat) (rd : Nat) (ra : Nat) (rb : Nat) (s : State) : Keeps z s → KeepsNext z (execMinOp h c ecc rd ra rb s) := by
  intro h0
  unfold execMinOp
  with_reducible repeat' (first | assumption | intro _ | apply State.rfxR_keeps | apply KeepsNext.next | apply KeepsNext.ite | simp only [Keeps.update] | apply Keeps.ite | apply Keeps.foldl | split)

theorem execMaxOp_keeps {z : State} (h : Nat) (c : Nat) (ecc : Nat) (rd : Nat) (ra : Nat) (rb : Nat) (s : State) : Keeps z s → KeepsNext z (execMaxOp h c ecc rd ra rb s) := by
  intro h0
  unfold execMaxOp
  with_reducible repeat' (first | assumption | intro _ | apply State.rfxR_keeps | apply KeepsNext.next | apply KeepsNext.ite | simp only [Keeps.update] | apply Keeps.ite | apply Keeps.foldl | split)

theorem execMinu_keeps {z : State} (h : Nat) (c : Nat) (ecc : Nat) (rd : Nat) (ra : Nat) (rb : Nat) (s : State) : Keeps z s → KeepsNext z (execMinu h c ecc rd ra rb s) := by
  intro h0
  unfold execMinu
  with_reducible repeat' (first | assumption | intro _ | apply State.rfxR_keeps | apply KeepsNext.next | apply KeepsNext.ite | simp only [Keeps.update] | apply Keeps.ite | apply Keeps.foldl | split)

theorem execMaxu_keeps {z : State} (h : Nat) (c : Nat) (ecc : Nat) (rd : Nat) (ra : Nat) (rb : Nat) (s : State) : Keeps z s → KeepsNext z (execMaxu h c ecc rd ra rb s) := by
  intro h0
  unfold execMaxu
  with_reducible repeat' (first | assumption | intro _ | apply State.rfxR_keeps | apply KeepsNext.next | apply KeepsNext.ite | simp only [Keeps.update] | apply Keeps.ite | apply Keeps.foldl | split)

theorem execMulOp_keeps {z : State} (h : Nat) (c : Nat) (ecc : Nat) (rd : Nat) (ra : Nat) (rb : Nat) (s : State) : Keeps z s → KeepsNext z (execMulOp h c ecc rd ra rb s) := by
  intro h0
  unfold execMulOp
  with_reducible repeat' (first | assumption | intro _ | apply State.rfxR_keeps | apply KeepsNext.next | apply KeepsNext.ite | simp only [Keeps.update] | apply Keeps.ite | apply Keeps.foldl | split)

theorem execMulh_keeps {z : State} (h : Nat) (c : Nat) (ecc : Nat) (rd : Nat) (ra : Nat) (rb : Nat) (s : State) : Keeps z s → KeepsNext z (execMulh h c ecc rd ra rb s) := by
  intro h0
  unfold execMulh
  with_reducible repeat' (first | assumption | intro _ | apply State.rfxR_keeps | apply KeepsNext.next | apply KeepsNext.ite | simp only [Keeps.update] | apply Keeps.ite | apply Keeps.foldl | split)

theorem execMulhu_keeps {z : State} (h : Nat) (c : Nat) (ecc : Nat) (rd : Nat) (ra : Nat) (rb : Nat) (s : State) : Keeps z s → KeepsNext z (execMulhu h c ecc rd ra rb s) := by
  intro h0
  unfold execMulhu
  with_reducible repeat' (first | assumption | intro _ | apply State.rfxR_keeps | apply KeepsNext.next | apply KeepsNext.ite | simp only [Keeps.update] | apply Keeps.ite | apply Keeps.foldl | split)

theorem execQadd_keeps {z : State} (h : Nat) (c : Nat) (ecc : Nat) (rd : Nat) (ra : Nat) (rb : Nat) (s : State) : Keeps z s → KeepsNext z (execQadd h c ecc rd ra rb s) := by
  intro h0
  unfold execQadd
  with_reducible repeat' (first | assumption | intro _ | apply State.rfxR_keeps | apply KeepsNext.next | apply KeepsNext.ite | simp only [Keeps.update] | apply Keeps.ite | apply Keeps.foldl | split)

theorem execQsub_keeps {z : State} (h : Nat) (c : Nat) (ecc : Nat) (rd : Nat) (ra : Nat) (rb : Nat) (s : State) : Keeps z s → KeepsNext z (execQsub h c ecc rd ra rb s) := by
  intro h0
  unfold execQsub
  with_reducible repeat' (first | assumption | intro _ | apply State.rfxR_keeps | apply KeepsNext.next | apply KeepsNext.ite | simp only [Keeps.update] | apply Keeps.ite | apply Keeps.foldl | split)

theorem execQmul_keeps {z : State} (h : Nat) (c : Nat) (ecc : Nat) (rd : Nat) (ra : Nat) (rb : Nat) (s : State) : Keeps z s → KeepsNext z (execQmul h c ecc rd ra rb s) := by
  intro h0
  unfold execQmul
  with_reducible repeat' (first | assumption | intro _ | apply State.rfxR_keeps | apply KeepsNext.next | apply KeepsNext.ite | simp only [Keeps.update] | apply Keeps.ite | apply Keeps.foldl | split)

theorem execDivu_keeps {z : State} (h : Nat) (c : Nat) (ecc : Nat) (rd : Nat) (ra : Nat) (rb : Nat) (s : State) : Keeps z s → KeepsNext z (execDivu h c ecc rd ra rb s) := by
  intro h0
  unfold execDivu
  with_reducible repeat' (first | assumption | intro _ | apply State.rfxDiv_keeps | apply KeepsNext.next | apply KeepsNext.ite | simp only [Keeps.update] | apply Keeps.ite | apply Keeps.foldl | split)

theorem execRemu_keeps {z : State} (h : Nat) (c : Nat) (ecc : Nat) (rd : Nat) (ra : Nat) (rb : Nat) (s : State) : Keeps z s → KeepsNext z (execRemu h c ecc rd ra rb s) := by
  intro h0
  unfold execRemu
  with_reducible repeat' (first | assumption | intro _ | apply State.rfxDiv_keeps | apply KeepsNext.next | apply KeepsNext.ite | simp only [Keeps.update] | apply Keeps.ite | apply Keeps.foldl | split)

theorem execQdiv_keeps {z : State} (h : Nat) (c : Nat) (ecc : Nat) (rd : Nat) (ra : Nat) (rb : Nat) (s : State) : Keeps z s → KeepsNext z (execQdiv h c ecc rd ra rb s) := by
  intro h0
  unfold execQdiv
  with_reducible repeat' (first | assumption | intro _ | apply State.rfxDiv_keeps | apply KeepsNext.next | apply KeepsNext.ite | simp only [Keeps.update] | apply Keeps.ite | apply Keeps.foldl | split)

theorem execQabs_keeps {z : State} (h : Nat) (c : Nat) (ecc : Nat) (rd : Nat) (ra : Nat) (s : State) : Keeps z s → KeepsNext z (execQabs h c ecc rd ra s) := by
  intro h0
  unfold execQabs
  with_reducible repeat' (first | assumption | intro _ | apply State.rfxR_keeps | apply KeepsNext.next | apply KeepsNext.ite | simp only [Keeps.update] | apply Keeps.ite | apply Keeps.foldl | split)

theorem execQneg_keeps {z : State} (h : Nat) (c : Nat) (ecc : Nat) (rd : Nat) (ra : Nat) (s : State) : Keeps z s → KeepsNext z (execQneg h c ecc rd ra s) := by
  intro h0
  unfold execQneg
  with_reducible repeat' (first | assumption | intro _ | apply State.rfxR_keeps | apply KeepsNext.next | apply KeepsNext.ite | simp only [Keeps.update] | apply Keeps.ite | apply Keeps.foldl | split)

theorem execAddi_keeps {z : State} (h : Nat) (c : Nat) (ecc : Nat) (rd : Nat) (ra : Nat) (imm : Nat) (s : State) : Keeps z s → KeepsNext z (execAddi h c ecc rd ra imm s) := by
  intro h0
  unfold execAddi
  with_reducible repeat' (first | assumption | intro _ | apply State.rfxI_keeps | apply KeepsNext.next | apply KeepsNext.ite | simp only [Keeps.update] | apply Keeps.ite | apply Keeps.foldl | split)

theorem execAndi_keeps {z : State} (h : Nat) (c : Nat) (ecc : Nat) (rd : Nat) (ra : Nat) (imm : Nat) (s : State) : Keeps z s → KeepsNext z (execAndi h c ecc rd ra imm s) := by
  intro h0
  unfold execAndi
  with_reducible repeat' (first | assumption | intro _ | apply State.rfxI_keeps | apply KeepsNext.next | apply KeepsNext.ite | simp only [Keeps.update] | apply Keeps.ite | apply Keeps.foldl | split)

theorem execOri_keeps {z : State} (h : Nat) (c : Nat) (ecc : Nat) (rd : Nat) (ra : Nat) (imm : Nat) (s : State) : Keeps z s → KeepsNext z (execOri h c ecc rd ra imm s) := by
  intro h0
  unfold execOri
  with_reducible repeat' (first | assumption | intro _ | apply State.rfxI_keeps | apply KeepsNext.next | apply KeepsNext.ite | simp only [Keeps.update] | apply Keeps.ite | apply Keeps.foldl | split)

theorem execXori_keeps {z : State} (h : Nat) (c : Nat) (ecc : Nat) (rd : Nat) (ra : Nat) (imm : Nat) (s : State) : Keeps z s → KeepsNext z (execXori h c ecc rd ra imm s) := by
  intro h0
  unfold execXori
  with_reducible repeat' (first | assumption | intro _ | apply State.rfxI_keeps | apply KeepsNext.next | apply KeepsNext.ite | simp only [Keeps.update] | apply Keeps.ite | apply Keeps.foldl | split)

theorem execSlti_keeps {z : State} (h : Nat) (c : Nat) (ecc : Nat) (rd : Nat) (ra : Nat) (imm : Nat) (s : State) : Keeps z s → KeepsNext z (execSlti h c ecc rd ra imm s) := by
  intro h0
  unfold execSlti
  with_reducible repeat' (first | assumption | intro _ | apply State.rfxI_keeps | apply KeepsNext.next | apply KeepsNext.ite | simp only [Keeps.update] | apply Keeps.ite | apply Keeps.foldl | split)

theorem execSltiu_keeps {z : State} (h : Nat) (c : Nat) (ecc : Nat) (rd : Nat) (ra : Nat) (imm : Nat) (s : State) : Keeps z s → KeepsNext z (execSltiu h c ecc rd ra imm s) := by
  intro h0
  unfold execSltiu
  with_reducible repeat' (first | assumption | intro _ | apply State.rfxI_keeps | apply KeepsNext.next | apply KeepsNext.ite | simp only [Keeps.update] | apply Keeps.ite | apply Keeps.foldl | split)

theorem execShli_keeps {z : State} (h : Nat) (c : Nat) (ecc : Nat) (rd : Nat) (ra : Nat) (imm : Nat) (s : State) : Keeps z s → KeepsNext z (execShli h c ecc rd ra imm s) := by
  intro h0
  unfold execShli
  with_reducible repeat' (first | assumption | intro _ | apply State.rfxI_keeps | apply KeepsNext.next | apply KeepsNext.ite | simp only [Keeps.update] | apply Keeps.ite | apply Keeps.foldl | split)

theorem execShri_keeps {z : State} (h : Nat) (c : Nat) (ecc : Nat) (rd : Nat) (ra : Nat) (imm : Nat) (s : State) : Keeps z s → KeepsNext z (execShri h c ecc rd ra imm s) := by
  intro h0
  unfold execShri
  with_reducible repeat' (first | assumption | intro _ | apply State.rfxI_keeps | apply KeepsNext.next | apply KeepsNext.ite | simp only [Keeps.update] | apply Keeps.ite | apply Keeps.foldl | split)

theorem execSari_keeps {z : State} (h : Nat) (c : Nat) (ecc : Nat) (rd : Nat) (ra : Nat) (imm : Nat) (s : State) : Keeps z s → KeepsNext z (execSari h c ecc rd ra imm s) := by
  intro h0
  unfold execSari
  with_reducible repeat' (first | assumption | intro _ | apply State.rfxI_keeps | apply KeepsNext.next | apply KeepsNext.ite | simp only [Keeps.update] | apply Keeps.ite | apply Keeps.foldl | split)

theorem execLui_keeps {z : State} (h : Nat) (c : Nat) (ecc : Nat) (rd : Nat) (imm : Nat) (s : State) : Keeps z s → KeepsNext z (execLui h c ecc rd imm s) := by
  intro h0
  unfold execLui
  with_reducible repeat' (first | assumption | intro _ | apply State.rfxCore_keeps | apply KeepsNext.next | apply KeepsNext.ite | simp only [Keeps.update] | apply Keeps.ite | apply Keeps.foldl | split)

theorem execMac_keeps {z : State} (h : Nat) (c : Nat) (ecc : Nat) (ra : Nat) (rb : Nat) (s : State) : Keeps z s → KeepsNext z (execMac h c ecc ra rb s) := by
  intro h0
  unfold execMac
  with_reducible repeat' (first | assumption | intro _ | apply State.rfxCore_keeps | apply KeepsNext.next | apply KeepsNext.ite | simp only [Keeps.update] | apply Keeps.ite | apply Keeps.foldl | split)

theorem execMsu_keeps {z : State} (h : Nat) (c : Nat) (ecc : Nat) (ra : Nat) (rb : Nat) (s : State) : Keeps z s → KeepsNext z (execMsu h c ecc ra rb s) := by
  intro h0
  unfold execMsu
  with_reducible repeat' (first | assumption | intro _ | apply State.rfxCore_keeps | apply KeepsNext.next | apply KeepsNext.ite | simp only [Keeps.update] | apply Keeps.ite | apply Keeps.foldl | split)

theorem execAcclr_keeps {z : State} (h : Nat) (c : Nat) (ecc : Nat) (s : State) : Keeps z s → KeepsNext z (execAcclr h c ecc s) := by
  intro h0
  unfold execAcclr
  with_reducible repeat' (first | assumption | intro _ | apply State.rfxCore_keeps | apply KeepsNext.next | apply KeepsNext.ite | simp only [Keeps.update] | apply Keeps.ite | apply Keeps.foldl | split)

theorem execAcrd_keeps {z : State} (h : Nat) (c : Nat) (ecc : Nat) (rd : Nat) (imm : Nat) (s : State) : Keeps z s → KeepsNext z (execAcrd h c ecc rd imm s) := by
  intro h0
  unfold execAcrd
  with_reducible repeat' (first | assumption | intro _ | apply State.rfxCore_keeps | apply KeepsNext.next | apply KeepsNext.ite | simp only [Keeps.update] | apply Keeps.ite | apply Keeps.foldl | split)

theorem execAcset_keeps {z : State} (h : Nat) (c : Nat) (ecc : Nat) (ra : Nat) (rb : Nat) (s : State) : Keeps z s → KeepsNext z (execAcset h c ecc ra rb s) := by
  intro h0
  unfold execAcset
  with_reducible repeat' (first | assumption | intro _ | apply State.rfxCore_keeps | apply KeepsNext.next | apply KeepsNext.ite | simp only [Keeps.update] | apply Keeps.ite | apply Keeps.foldl | split)

theorem execAcget_keeps {z : State} (h : Nat) (c : Nat) (ecc : Nat) (rd : Nat) (s : State) : Keeps z s → KeepsNext z (execAcget h c ecc rd s) := by
  intro h0
  unfold execAcget
  with_reducible repeat' (first | assumption | intro _ | apply State.rfxCore_keeps | apply KeepsNext.next | apply KeepsNext.ite | simp only [Keeps.update] | apply Keeps.ite | apply Keeps.foldl | split)

theorem State.rfxMem_keeps {z : State} (s : State) (h : Nat) (c : Nat) (ecc : Nat) (op : Nat) (rd : Nat) (ra : Nat) (imm : Nat) (n : Nat) (limit : Nat) (k : State → RCore → Nat → State) : Keeps z s → (∀ (x0 : State) (x1 : RCore) (x2 : Nat), Keeps z x0 → Keeps z (k x0 x1 x2)) → Keeps z (State.rfxMem s h c ecc op rd ra imm n limit k) := by
  intro h0 h1
  unfold State.rfxMem
  with_reducible repeat' (first | assumption | intro _ | apply h1 | apply State.rfx_keeps | apply State.kernelAbort_keeps | simp only [Keeps.update] | apply Keeps.ite | apply Keeps.foldl | split)

theorem State.rfxLoad_keeps {z : State} (s : State) (h : Nat) (c : Nat) (ecc : Nat) (op : Nat) (rd : Nat) (ra : Nat) (imm : Nat) (n : Nat) : Keeps z s → Keeps z (State.rfxLoad s h c ecc op rd ra imm n) := by
  intro h0
  unfold State.rfxLoad
  with_reducible repeat' (first | assumption | intro _ | apply State.rfxMem_keeps | apply State.rfxTo_keeps | apply State.poisonUse_keeps | simp only [Keeps.update] | apply Keeps.ite | apply Keeps.foldl | split)

theorem State.rfxStore_keeps {z : State} (s : State) (h : Nat) (c : Nat) (ecc : Nat) (op : Nat) (rs : Nat) (ra : Nat) (imm : Nat) (n : Nat) : Keeps z s → Keeps z (State.rfxStore s h c ecc op rs ra imm n) := by
  intro h0
  unfold State.rfxStore
  with_reducible repeat' (first | assumption | intro _ | apply State.rfxMem_keeps | apply State.rfxTo_keeps | simp only [Keeps.update] | apply Keeps.ite | apply Keeps.foldl | split)

theorem execLdw_keeps {z : State} (h : Nat) (c : Nat) (ecc : Nat) (rd : Nat) (ra : Nat) (imm : Nat) (s : State) : Keeps z s → KeepsNext z (execLdw h c ecc rd ra imm s) := by
  intro h0
  unfold execLdw
  with_reducible repeat' (first | assumption | intro _ | apply State.rfxLoad_keeps | apply KeepsNext.next | apply KeepsNext.ite | simp only [Keeps.update] | apply Keeps.ite | apply Keeps.foldl | split)

theorem execLdhu_keeps {z : State} (h : Nat) (c : Nat) (ecc : Nat) (rd : Nat) (ra : Nat) (imm : Nat) (s : State) : Keeps z s → KeepsNext z (execLdhu h c ecc rd ra imm s) := by
  intro h0
  unfold execLdhu
  with_reducible repeat' (first | assumption | intro _ | apply State.rfxLoad_keeps | apply KeepsNext.next | apply KeepsNext.ite | simp only [Keeps.update] | apply Keeps.ite | apply Keeps.foldl | split)

theorem execStw_keeps {z : State} (h : Nat) (c : Nat) (ecc : Nat) (rs : Nat) (ra : Nat) (imm : Nat) (s : State) : Keeps z s → KeepsNext z (execStw h c ecc rs ra imm s) := by
  intro h0
  unfold execStw
  with_reducible repeat' (first | assumption | intro _ | apply State.rfxStore_keeps | apply KeepsNext.next | apply KeepsNext.ite | simp only [Keeps.update] | apply Keeps.ite | apply Keeps.foldl | split)

theorem execSth_keeps {z : State} (h : Nat) (c : Nat) (ecc : Nat) (rs : Nat) (ra : Nat) (imm : Nat) (s : State) : Keeps z s → KeepsNext z (execSth h c ecc rs ra imm s) := by
  intro h0
  unfold execSth
  with_reducible repeat' (first | assumption | intro _ | apply State.rfxStore_keeps | apply KeepsNext.next | apply KeepsNext.ite | simp only [Keeps.update] | apply Keeps.ite | apply Keeps.foldl | split)

theorem execLds_keeps {z : State} (h : Nat) (c : Nat) (ecc : Nat) (rd : Nat) (ra : Nat) (imm : Nat) (s : State) : Keeps z s → KeepsNext z (execLds h c ecc rd ra imm s) := by
  intro h0
  unfold execLds
  with_reducible repeat' (first | assumption | intro _ | apply State.rfxMem_keeps | apply State.rfxTo_keeps | apply KeepsNext.next | apply KeepsNext.ite | simp only [Keeps.update] | apply Keeps.ite | apply Keeps.foldl | split)

theorem execSts_keeps {z : State} (h : Nat) (c : Nat) (ecc : Nat) (rs : Nat) (ra : Nat) (imm : Nat) (s : State) : Keeps z s → KeepsNext z (execSts h c ecc rs ra imm s) := by
  intro h0
  unfold execSts
  with_reducible repeat' (first | assumption | intro _ | apply State.rfxMem_keeps | apply State.rfxTo_keeps | apply KeepsNext.next | apply KeepsNext.ite | simp only [Keeps.update] | apply Keeps.ite | apply Keeps.foldl | split)

theorem State.rfxBranch_keeps {z : State} (s : State) (h : Nat) (c : Nat) (ecc : Nat) (op : Nat) (ra : Nat) (rb : Nat) (off : Nat) (taken : RCore → Bool) : Keeps z s → Keeps z (State.rfxBranch s h c ecc op ra rb off taken) := by
  intro h0
  unfold State.rfxBranch
  with_reducible repeat' (first | assumption | intro _ | apply State.rfx_keeps | apply State.rfxTo_keeps | simp only [Keeps.update] | apply Keeps.ite | apply Keeps.foldl | split)

theorem execBeq_keeps {z : State} (h : Nat) (c : Nat) (ecc : Nat) (ra : Nat) (rb : Nat) (off : Nat) (s : State) : Keeps z s → KeepsNext z (execBeq h c ecc ra rb off s) := by
  intro h0
  unfold execBeq
  with_reducible repeat' (first | assumption | intro _ | apply State.rfxBranch_keeps | apply KeepsNext.next | apply KeepsNext.ite | simp only [Keeps.update] | apply Keeps.ite | apply Keeps.foldl | split)

theorem execBne_keeps {z : State} (h : Nat) (c : Nat) (ecc : Nat) (ra : Nat) (rb : Nat) (off : Nat) (s : State) : Keeps z s → KeepsNext z (execBne h c ecc ra rb off s) := by
  intro h0
  unfold execBne
  with_reducible repeat' (first | assumption | intro _ | apply State.rfxBranch_keeps | apply KeepsNext.next | apply KeepsNext.ite | simp only [Keeps.update] | apply Keeps.ite | apply Keeps.foldl | split)

theorem execBlt_keeps {z : State} (h : Nat) (c : Nat) (ecc : Nat) (ra : Nat) (rb : Nat) (off : Nat) (s : State) : Keeps z s → KeepsNext z (execBlt h c ecc ra rb off s) := by
  intro h0
  unfold execBlt
  with_reducible repeat' (first | assumption | intro _ | apply State.rfxBranch_keeps | apply KeepsNext.next | apply KeepsNext.ite | simp only [Keeps.update] | apply Keeps.ite | apply Keeps.foldl | split)

theorem execBge_keeps {z : State} (h : Nat) (c : Nat) (ecc : Nat) (ra : Nat) (rb : Nat) (off : Nat) (s : State) : Keeps z s → KeepsNext z (execBge h c ecc ra rb off s) := by
  intro h0
  unfold execBge
  with_reducible repeat' (first | assumption | intro _ | apply State.rfxBranch_keeps | apply KeepsNext.next | apply KeepsNext.ite | simp only [Keeps.update] | apply Keeps.ite | apply Keeps.foldl | split)

theorem execBltu_keeps {z : State} (h : Nat) (c : Nat) (ecc : Nat) (ra : Nat) (rb : Nat) (off : Nat) (s : State) : Keeps z s → KeepsNext z (execBltu h c ecc ra rb off s) := by
  intro h0
  unfold execBltu
  with_reducible repeat' (first | assumption | intro _ | apply State.rfxBranch_keeps | apply KeepsNext.next | apply KeepsNext.ite | simp only [Keeps.update] | apply Keeps.ite | apply Keeps.foldl | split)

theorem execBgeu_keeps {z : State} (h : Nat) (c : Nat) (ecc : Nat) (ra : Nat) (rb : Nat) (off : Nat) (s : State) : Keeps z s → KeepsNext z (execBgeu h c ecc ra rb off s) := by
  intro h0
  unfold execBgeu
  with_reducible repeat' (first | assumption | intro _ | apply State.rfxBranch_keeps | apply KeepsNext.next | apply KeepsNext.ite | simp only [Keeps.update] | apply Keeps.ite | apply Keeps.foldl | split)

theorem execJmp_keeps {z : State} (h : Nat) (c : Nat) (ecc : Nat) (off : Nat) (s : State) : Keeps z s → KeepsNext z (execJmp h c ecc off s) := by
  intro h0
  unfold execJmp
  with_reducible repeat' (first | assumption | intro _ | apply State.rfxBranch_keeps | apply KeepsNext.next | apply KeepsNext.ite | simp only [Keeps.update] | apply Keeps.ite | apply Keeps.foldl | split)

theorem execLoopOp_keeps {z : State} (h : Nat) (c : Nat) (ecc : Nat) (count : Nat) (body : Nat) (s : State) : Keeps z s → KeepsNext z (execLoopOp h c ecc count body s) := by
  intro h0
  unfold execLoopOp
  with_reducible repeat' (first | assumption | intro _ | apply State.rfx_keeps | apply State.setCore_keeps | apply KeepsNext.next | apply KeepsNext.ite | simp only [Keeps.update] | apply Keeps.ite | apply Keeps.foldl | split)

theorem execRfxNop_keeps {z : State} (h : Nat) (c : Nat) (ecc : Nat) (s : State) : Keeps z s → KeepsNext z (execRfxNop h c ecc s) := by
  intro h0
  unfold execRfxNop
  with_reducible repeat' (first | assumption | intro _ | apply State.rfxCore_keeps | apply KeepsNext.next | apply KeepsNext.ite | simp only [Keeps.update] | apply Keeps.ite | apply Keeps.foldl | split)

theorem execTimeOp_keeps {z : State} (h : Nat) (c : Nat) (ecc : Nat) (rd : Nat) (s : State) : Keeps z s → KeepsNext z (execTimeOp h c ecc rd s) := by
  intro h0
  unfold execTimeOp
  conv => zeta
  with_reducible repeat' (first | assumption | intro _ | apply State.rfx_keeps | apply State.rfxTo_keeps | apply KeepsNext.next | apply KeepsNext.ite | simp only [Keeps.update] | apply Keeps.ite | apply Keeps.foldl | split)

theorem execEcap_keeps {z : State} (h : Nat) (c : Nat) (ecc : Nat) (rd : Nat) (land : Nat) (s : State) : Keeps z s → KeepsNext z (execEcap h c ecc rd land s) := by
  intro h0
  unfold execEcap
  conv => zeta
  with_reducible repeat' (first | assumption | intro _ | apply State.rfx_keeps | apply State.rfxTo_keeps | apply KeepsNext.next | apply KeepsNext.ite | simp only [Keeps.update] | apply Keeps.ite | apply Keeps.foldl | split)

theorem execElvl_keeps {z : State} (h : Nat) (c : Nat) (ecc : Nat) (rd : Nat) (land : Nat) (s : State) : Keeps z s → KeepsNext z (execElvl h c ecc rd land s) := by
  intro h0
  unfold execElvl
  with_reducible repeat' (first | assumption | intro _ | apply State.rfx_keeps | apply State.rfxTo_keeps | apply KeepsNext.next | apply KeepsNext.ite | simp only [Keeps.update] | apply Keeps.ite | apply Keeps.foldl | split)

theorem execEsch_keeps {z : State} (h : Nat) (c : Nat) (ecc : Nat) (ra : Nat) (rb : Nat) (act : Nat) (span : Nat) (base : Nat) (s : State) : Keeps z s → KeepsNext z (execEsch h c ecc ra rb act span base s) := by
  intro h0
  unfold execEsch
  with_reducible repeat' (first | assumption | intro _ | apply State.rfxCore_keeps | apply KeepsNext.next | apply KeepsNext.ite | simp only [Keeps.update] | apply Keeps.ite | apply Keeps.foldl | split)

theorem execEcan_keeps {z : State} (h : Nat) (c : Nat) (ecc : Nat) (rb : Nat) (span : Nat) (base : Nat) (s : State) : Keeps z s → KeepsNext z (execEcan h c ecc rb span base s) := by
  intro h0
  unfold execEcan
  with_reducible repeat' (first | assumption | intro _ | apply State.rfxCore_keeps | apply KeepsNext.next | apply KeepsNext.ite | simp only [Keeps.update] | apply Keeps.ite | apply Keeps.foldl | split)

theorem State.applyEntry_keeps {z : State} (s : State) (h : Nat) (m : RCore) (v3 : CommitEntry) : Keeps z s → Keeps z (State.applyEntry s h m v3) := by
  intro h0
  unfold State.applyEntry
  conv => zeta
  with_reducible repeat' (first | assumption | intro _ | apply State.putAlcove_keeps | apply State.bump_keeps | apply State.setLand_keeps | simp only [Keeps.update] | apply Keeps.ite | apply Keeps.foldl | split)

theorem execEndOp_keeps {z : State} (h : Nat) (c : Nat) (ecc : Nat) (s : State) : Keeps z s → KeepsNext z (execEndOp h c ecc s) := by
  intro h0
  unfold execEndOp
  conv => zeta
  with_reducible repeat' (first | assumption | intro _ | apply State.rfx_keeps | apply State.setCore_keeps | apply State.atTime_keeps | apply State.applyEntry_keeps | apply State.bump_keeps | apply State.setFld_keeps | apply KeepsNext.next | apply KeepsNext.ite | simp only [Keeps.update] | apply Keeps.ite | apply Keeps.foldl | split)

theorem execClsWrite_keeps {z : State} (d : AdminCmd) (buf : Bytes) (s : State) : Keeps z s → KeepsNext z (execClsWrite d buf s) := by
  intro h0
  unfold execClsWrite
  conv => zeta
  with_reducible repeat' (first | assumption | intro _ | apply State.admin_keeps | apply State.adminFail_keeps | apply State.tableSubmit_keeps | apply KeepsNext.next | apply KeepsNext.ite | simp only [Keeps.update] | apply Keeps.ite | apply Keeps.foldl | split)

theorem execClsInvalidate_keeps {z : State} (d : AdminCmd) (s : State) : Keeps z s → KeepsNext z (execClsInvalidate d s) := by
  intro h0
  unfold execClsInvalidate
  with_reducible repeat' (first | assumption | intro _ | apply State.admin_keeps | apply State.tableSubmit_keeps | apply KeepsNext.next | apply KeepsNext.ite | simp only [Keeps.update] | apply Keeps.ite | apply Keeps.foldl | split)

theorem execClsRead_keeps {z : State} (d : AdminCmd) (s : State) : Keeps z s → KeepsNext z (execClsRead d s) := by
  intro h0
  unfold execClsRead
  with_reducible repeat' (first | assumption | intro _ | apply State.admin_keeps | apply State.tableSubmit_keeps | apply KeepsNext.next | apply KeepsNext.ite | simp only [Keeps.update] | apply Keeps.ite | apply Keeps.foldl | split)

theorem execClsCounterRead_keeps {z : State} (d : AdminCmd) (s : State) : Keeps z s → KeepsNext z (execClsCounterRead d s) := by
  intro h0
  unfold execClsCounterRead
  with_reducible repeat' (first | assumption | intro _ | apply State.admin_keeps | apply State.tableSubmit_keeps | apply KeepsNext.next | apply KeepsNext.ite | simp only [Keeps.update] | apply Keeps.ite | apply Keeps.foldl | split)

theorem execFrgFlush_keeps {z : State} (d : AdminCmd) (s : State) : Keeps z s → KeepsNext z (execFrgFlush d s) := by
  intro h0
  unfold execFrgFlush
  with_reducible repeat' (first | assumption | intro _ | apply State.admin_keeps | apply State.tableSubmit_keeps | apply KeepsNext.next | apply KeepsNext.ite | simp only [Keeps.update] | apply Keeps.ite | apply Keeps.foldl | split)

theorem execFwdWrite_keeps {z : State} (d : AdminCmd) (buf : Bytes) (s : State) : Keeps z s → KeepsNext z (execFwdWrite d buf s) := by
  intro h0
  unfold execFwdWrite
  with_reducible repeat' (first | assumption | intro _ | apply State.admin_keeps | apply State.tableSubmit_keeps | apply KeepsNext.next | apply KeepsNext.ite | simp only [Keeps.update] | apply Keeps.ite | apply Keeps.foldl | split)

theorem execFwdDelete_keeps {z : State} (d : AdminCmd) (s : State) : Keeps z s → KeepsNext z (execFwdDelete d s) := by
  intro h0
  unfold execFwdDelete
  with_reducible repeat' (first | assumption | intro _ | apply State.admin_keeps | apply State.tableSubmit_keeps | apply KeepsNext.next | apply KeepsNext.ite | simp only [Keeps.update] | apply Keeps.ite | apply Keeps.foldl | split)

theorem execFwdFlush_keeps {z : State} (d : AdminCmd) (s : State) : Keeps z s → KeepsNext z (execFwdFlush d s) := by
  intro h0
  unfold execFwdFlush
  with_reducible repeat' (first | assumption | intro _ | apply State.admin_keeps | apply State.tableSubmit_keeps | apply KeepsNext.next | apply KeepsNext.ite | simp only [Keeps.update] | apply Keeps.ite | apply Keeps.foldl | split)

theorem execFwdRead_keeps {z : State} (d : AdminCmd) (s : State) : Keeps z s → KeepsNext z (execFwdRead d s) := by
  intro h0
  unfold execFwdRead
  with_reducible repeat' (first | assumption | intro _ | apply State.admin_keeps | apply State.tableSubmit_keeps | apply KeepsNext.next | apply KeepsNext.ite | simp only [Keeps.update] | apply Keeps.ite | apply Keeps.foldl | split)

theorem execVportWrite_keeps {z : State} (d : AdminCmd) (buf : Bytes) (s : State) : Keeps z s → KeepsNext z (execVportWrite d buf s) := by
  intro h0
  unfold execVportWrite
  with_reducible repeat' (first | assumption | intro _ | apply State.admin_keeps | apply State.tableSubmit_keeps | apply KeepsNext.next | apply KeepsNext.ite | simp only [Keeps.update] | apply Keeps.ite | apply Keeps.foldl | split)

theorem execVportRead_keeps {z : State} (d : AdminCmd) (s : State) : Keeps z s → KeepsNext z (execVportRead d s) := by
  intro h0
  unfold execVportRead
  with_reducible repeat' (first | assumption | intro _ | apply State.admin_keeps | apply State.tableSubmit_keeps | apply KeepsNext.next | apply KeepsNext.ite | simp only [Keeps.update] | apply Keeps.ite | apply Keeps.foldl | split)

theorem execTunWrite_keeps {z : State} (d : AdminCmd) (buf : Bytes) (s : State) : Keeps z s → KeepsNext z (execTunWrite d buf s) := by
  intro h0
  unfold execTunWrite
  with_reducible repeat' (first | assumption | intro _ | apply State.admin_keeps | apply State.tableSubmit_keeps | apply KeepsNext.next | apply KeepsNext.ite | simp only [Keeps.update] | apply Keeps.ite | apply Keeps.foldl | split)

theorem execTunRead_keeps {z : State} (d : AdminCmd) (s : State) : Keeps z s → KeepsNext z (execTunRead d s) := by
  intro h0
  unfold execTunRead
  with_reducible repeat' (first | assumption | intro _ | apply State.admin_keeps | apply State.tableSubmit_keeps | apply KeepsNext.next | apply KeepsNext.ite | simp only [Keeps.update] | apply Keeps.ite | apply Keeps.foldl | split)

theorem execBdWrite_keeps {z : State} (d : AdminCmd) (buf : Bytes) (s : State) : Keeps z s → KeepsNext z (execBdWrite d buf s) := by
  intro h0
  unfold execBdWrite
  conv => zeta
  with_reducible repeat' (first | assumption | intro _ | apply State.admin_keeps | apply State.adminFail_keeps | apply KeepsNext.next | apply KeepsNext.ite | simp only [Keeps.update] | apply Keeps.ite | apply Keeps.foldl | split)

theorem execFloodWrite_keeps {z : State} (d : AdminCmd) (buf : Bytes) (s : State) : Keeps z s → KeepsNext z (execFloodWrite d buf s) := by
  intro h0
  unfold execFloodWrite
  conv => zeta
  with_reducible repeat' (first | assumption | intro _ | apply State.admin_keeps | apply State.adminFail_keeps | apply KeepsNext.next | apply KeepsNext.ite | simp only [Keeps.update] | apply Keeps.ite | apply Keeps.foldl | split)

theorem State.setAudit_keeps {z : State} (s : State) (h : Nat) (a : AuditSt) : Keeps z s → Keeps z (State.setAudit s h a) := by
  intro h0
  unfold State.setAudit
  with_reducible repeat' (first | assumption | intro _ | simp only [Keeps.update] | apply Keeps.ite | apply Keeps.foldl | split)

theorem State.setBlockValid_keeps {z : State} (s : State) (h : Nat) (b : Nat) (v : Nat) : Keeps z s → Keeps z (State.setBlockValid s h b v) := by
  intro h0
  unfold State.setBlockValid
  with_reducible repeat' (first | assumption | intro _ | apply State.setFld_keeps | simp only [Keeps.update] | apply Keeps.ite | apply Keeps.foldl | split)

theorem State.touchBlock_keeps {z : State} (s : State) (h : Nat) (b : Nat) (first : Bool) : Keeps z s → Keeps z (State.touchBlock s h b first) := by
  intro h0
  unfold State.touchBlock
  conv => zeta
  with_reducible repeat' (first | assumption | intro _ | apply State.setBlockValid_keeps | apply State.setAudit_keeps | simp only [Keeps.update] | apply Keeps.ite | apply Keeps.foldl | split)

theorem execAuditShadowWrite_keeps {z : State} (who : Who) (h : Nat) (b : Nat) (value : Nat) (clash : Bool) (s : State) : Keeps z s → KeepsNext z (execAuditShadowWrite who h b value clash s) := by
  intro h0
  unfold execAuditShadowWrite
  with_reducible repeat' (first | assumption | intro _ | apply State.setBlockValid_keeps | apply State.setFld_keeps | apply KeepsNext.next | apply KeepsNext.ite | simp only [Keeps.update] | apply Keeps.ite | apply Keeps.foldl | split)

theorem execFwdAuditFailRead_keeps {z : State} (who : Who) (h : Nat) (s : State) : Keeps z s → KeepsNext z (execFwdAuditFailRead who h s) := by
  intro h0
  unfold execFwdAuditFailRead
  conv => zeta
  with_reducible repeat' (first | assumption | intro _ | apply State.answer_keeps | apply State.latch_keeps | apply State.setAudit_keeps | apply KeepsNext.next | apply KeepsNext.ite | simp only [Keeps.update] | apply Keeps.ite | apply Keeps.foldl | split)

theorem State.setTcam_keeps {z : State} (s : State) (h : Nat) (i : Nat) (e : Bytes) : Keeps z s → Keeps z (State.setTcam s h i e) := by
  intro h0
  unfold State.setTcam
  conv => zeta
  with_reducible repeat' (first | assumption | intro _ | apply State.setFld_keeps | simp only [Keeps.update] | apply Keeps.ite | apply Keeps.foldl | split)

theorem State.setTemplate_keeps {z : State} (s : State) (h : Nat) (i : Nat) (t : Bytes) : Keeps z s → Keeps z (State.setTemplate s h i t) := by
  intro h0
  unfold State.setTemplate
  with_reducible repeat' (first | assumption | intro _ | simp only [Keeps.update] | apply Keeps.ite | apply Keeps.foldl | split)

theorem State.bridgeWrite_keeps {z : State} (s : State) (h : Nat) (b : Bytes) : Keeps z s → KeepsFst z (State.bridgeWrite s h b) := by
  intro h0
  unfold State.bridgeWrite
  conv => zeta
  with_reducible repeat' (first | assumption | intro _ | apply State.setBridge_keeps | apply State.freeBridge_keeps | simp only [KeepsFst.pair] | apply KeepsFst.ite | apply KeepsFst.foldl | simp only [Keeps.update] | apply Keeps.ite | apply Keeps.foldl | (refine Keeps.fst (by assumption) ?_) | apply KeepsFst.first | split)

theorem State.stationWrite_keeps {z : State} (s : State) (h : Nat) (sid : Nat) (e : Bytes) : Keeps z s → Keeps z (State.stationWrite s h sid e) := by
  intro h0
  unfold State.stationWrite
  conv => zeta
  with_reducible repeat' (first | assumption | intro _ | apply State.setStation_keeps | apply State.entryNew_keeps | simp only [Keeps.update] | apply Keeps.ite | apply Keeps.foldl | split)

theorem State.tableStep_keeps {z : State} (s : State) (h : Nat) (j : TblJob) : Keeps z s → KeepsFst z (State.tableStep s h j) := by
  intro h0
  unfold State.tableStep
  conv => zeta
  with_reducible repeat' (first | assumption | intro _ | apply State.stationWrite_keeps | apply State.setTcam_keeps | apply State.touchBlock_keeps | apply State.showFrags_keeps | apply State.bridgeWrite_keeps | apply State.freeBridge_keeps | apply State.setTemplate_keeps | simp only [KeepsFst.pair] | apply KeepsFst.ite | apply KeepsFst.foldl | simp only [Keeps.update] | apply Keeps.ite | apply Keeps.foldl | (refine Keeps.fst (by assumption) ?_) | apply KeepsFst.first | split)

theorem State.tableDone_keeps {z : State} (s : State) (h : Nat) (j : TblJob) : Keeps z s → Keeps z (State.tableDone s h j) := by
  intro h0
  unfold State.tableDone
  conv => zeta
  with_reducible repeat' (first | assumption | intro _ | apply State.adminFail_keeps | apply State.adminOk_keeps | apply State.adminOut_keeps | simp only [Keeps.update] | apply Keeps.ite | apply Keeps.foldl | split)

theorem State.auditEnd_keeps {z : State} (s : State) (h : Nat) (a : AuditSt) (digest : Nat) : Keeps z s → Keeps z (State.auditEnd s h a digest) := by
  intro h0
  unfold State.auditEnd
  conv => zeta
  with_reducible repeat' (first | assumption | intro _ | apply State.setFld_keeps | apply State.setAudit_keeps | apply State.raise_keeps | apply State.almHall_keeps | apply State.setBlockValid_keeps | simp only [Keeps.update] | apply Keeps.ite | apply Keeps.foldl | split)

theorem State.auditEntry_keeps {z : State} (s : State) (h : Nat) (a : AuditSt) : Keeps z s → Keeps z (State.auditEntry s h a) := by
  intro h0
  unfold State.auditEntry
  conv => zeta
  with_reducible repeat' (first | assumption | intro _ | apply State.auditEnd_keeps | apply State.setAudit_keeps | simp only [Keeps.update] | apply Keeps.ite | apply Keeps.foldl | split)

theorem State.auditStep_keeps {z : State} (s : State) (h : Nat) : Keeps z s → Keeps z (State.auditStep s h) := by
  intro h0
  unfold State.auditStep
  conv => zeta
  with_reducible repeat' (first | assumption | intro _ | apply State.auditEntry_keeps | apply State.setFld_keeps | apply State.setAudit_keeps | simp only [Keeps.update] | apply Keeps.ite | apply Keeps.foldl | split)

theorem State.tableClock_keeps {z : State} (s : State) (h : Nat) (kind : Nat) (left : Nat) (t0 : Nat) : Keeps z s → Keeps z (State.tableClock s h kind left t0) := by
  intro h0
  unfold State.tableClock
  conv => zeta
  with_reducible repeat' (first | assumption | intro _ | apply State.learnsBefore_keeps | apply State.auditStep_keeps | apply State.tableStep_keeps | apply State.tableDone_keeps | simp only [KeepsFst.pair] | apply KeepsFst.ite | apply KeepsFst.foldl | simp only [Keeps.update] | apply Keeps.ite | apply Keeps.foldl | (refine Keeps.fst (by assumption) ?_) | apply KeepsFst.first | split)

theorem State.tableClocks_keeps {z : State} (s : State) (h : Nat) (kind : Nat) (start : Nat) (len : Nat) (v5 : Nat) (v6 : Nat) : Keeps z s → Keeps z (State.tableClocks s h kind start len v5 v6) := by
  induction v5 generalizing s h kind start len v6 with
  | zero =>
    intro h0
    unfold State.tableClocks
    with_reducible repeat' (first | assumption | intro _ | apply State.tableClock_keeps | simp only [Keeps.update] | apply Keeps.ite | apply Keeps.foldl | split)
  | succ n ih =>
    intro h0
    unfold State.tableClocks
    with_reducible repeat' (first | assumption | intro _ | apply ih | apply State.tableClock_keeps | simp only [Keeps.update] | apply Keeps.ite | apply Keeps.foldl | split)

theorem State.tableServe_keeps {z : State} (s : State) (h : Nat) : Keeps z s → Keeps z (State.tableServe s h) := by
  intro h0
  unfold State.tableServe
  conv => zeta
  with_reducible repeat' (first | assumption | intro _ | apply State.tableClocks_keeps | apply State.setSeq_keeps | simp only [Keeps.update] | apply Keeps.ite | apply Keeps.foldl | split)

theorem execTableWindow_keeps {z : State} (h : Nat) (at_ : Nat) (s : State) : Keeps z s → KeepsNext z (execTableWindow h at_ s) := by
  intro h0
  unfold execTableWindow
  conv => zeta
  with_reducible repeat' (first | assumption | intro _ | (refine State.takeOp_keeps _ _ _ _ ?_ _ _ (by assumption)) | apply State.occupy_keeps | apply State.tableServe_keeps | apply State.setSeq_keeps | apply State.atTime_keeps | apply KeepsNext.next | apply KeepsNext.ite | simp only [Keeps.update] | apply Keeps.ite | apply Keeps.foldl | split)

theorem State.bridgeLand_keeps {z : State} (s : State) : Keeps z s → Keeps z (State.bridgeLand s) := by
  intro h0
  unfold State.bridgeLand
  conv => zeta
  with_reducible repeat' (first | assumption | intro _ | apply State.touchBlock_keeps | apply State.adminOk_keeps | simp only [Keeps.update] | apply Keeps.ite | apply Keeps.foldl | split)

theorem State.dropFrames_keeps {z : State} (s : State) (l : List TxFrame) : Keeps z s → Keeps z (State.dropFrames s l) := by
  intro h0
  unfold State.dropFrames
  with_reducible repeat' (first | assumption | intro _ | apply State.dropFrame_keeps | simp only [Keeps.update] | apply Keeps.ite | apply Keeps.foldl | split)

theorem State.voidDelivery_keeps {z : State} (s : State) (d : Delivery) : Keeps z s → Keeps z (State.voidDelivery s d) := by
  intro h0
  unfold State.voidDelivery
  with_reducible repeat' (first | assumption | intro _ | apply State.drop_keeps | simp only [Keeps.update] | apply Keeps.ite | apply Keeps.foldl | split)

theorem State.voidCommands_keeps {z : State} (s : State) (l : List AdminCmd) : Keeps z s → Keeps z (State.voidCommands s l) := by
  intro h0
  unfold State.voidCommands
  conv => zeta
  with_reducible repeat' (first | assumption | intro _ | simp only [Keeps.update] | apply Keeps.ite | apply Keeps.foldl | split)

theorem State.scrubSends_keeps {z : State} (s : State) : Keeps z s → Keeps z (State.scrubSends s) := by
  intro h0
  unfold State.scrubSends
  conv => zeta
  with_reducible repeat' (first | assumption | intro _ | simp only [Keeps.update] | apply Keeps.ite | apply Keeps.foldl | split)

theorem State.dropKernels_keeps {z : State} (s : State) (h : Nat) : Keeps z s → Keeps z (State.dropKernels s h) := by
  intro h0
  unfold State.dropKernels
  with_reducible repeat' (first | assumption | intro _ | apply State.kernelAbort_keeps | simp only [Keeps.update] | apply Keeps.ite | apply Keeps.foldl | split)

theorem State.dropBuffers_keeps {z : State} (s : State) (h : Nat) : Keeps z s → Keeps z (State.dropBuffers s h) := by
  intro h0
  unfold State.dropBuffers
  conv => zeta
  with_reducible repeat' (first | assumption | intro _ | apply State.voidPtr_keeps | apply State.orphan_keeps | apply State.drop_keeps | apply State.bump_keeps | simp only [Keeps.update] | apply Keeps.ite | apply Keeps.foldl | split)

theorem State.dropMoves_keeps {z : State} (s : State) (h : Nat) : Keeps z s → Keeps z (State.dropMoves s h) := by
  intro h0
  unfold State.dropMoves
  conv => zeta
  with_reducible repeat' (first | assumption | intro _ | apply State.dropFrames_keeps | simp only [Keeps.update] | apply Keeps.ite | apply Keeps.foldl | split)

theorem State.dropPort_keeps {z : State} (s : State) (l : Nat) : Keeps z s → Keeps z (State.dropPort s l) := by
  intro h0
  unfold State.dropPort
  conv => zeta
  with_reducible repeat' (first | assumption | intro _ | apply State.dropFrames_keeps | apply State.setPort_keeps | simp only [Keeps.update] | apply Keeps.ite | apply Keeps.foldl | split)

theorem State.dropHallFrames_keeps {z : State} (s : State) (h : Nat) : Keeps z s → Keeps z (State.dropHallFrames s h) := by
  intro h0
  unfold State.dropHallFrames
  conv => zeta
  with_reducible repeat' (first | assumption | intro _ | apply State.voidDelivery_keeps | apply State.dropFrames_keeps | simp only [Keeps.update] | apply Keeps.ite | apply Keeps.foldl | split)

theorem State.dropTables_keeps {z : State} (s : State) (h : Nat) : Keeps z s → Keeps z (State.dropTables s h) := by
  intro h0
  unfold State.dropTables
  conv => zeta
  with_reducible repeat' (first | assumption | intro _ | apply State.voidCommands_keeps | simp only [Keeps.update] | apply Keeps.ite | apply Keeps.foldl | split)

theorem State.dropDma_keeps {z : State} (s : State) (h : Nat) : Keeps z s → Keeps z (State.dropDma s h) := by
  intro h0
  unfold State.dropDma
  conv => zeta
  with_reducible repeat' (first | assumption | intro _ | apply State.forgetPosts_keeps | simp only [Keeps.update] | apply Keeps.ite | apply Keeps.foldl | split)

theorem State.dropCyclic_keeps {z : State} (s : State) (h : Nat) : Keeps z s → Keeps z (State.dropCyclic s h) := by
  intro h0
  unfold State.dropCyclic
  with_reducible repeat' (first | assumption | intro _ | simp only [Keeps.update] | apply Keeps.ite | apply Keeps.foldl | split)

theorem State.hallDrop_keeps {z : State} (s : State) (h : Nat) : Keeps z s → Keeps z (State.hallDrop s h) := by
  intro h0
  unfold State.hallDrop
  conv => zeta
  with_reducible repeat' (first | assumption | intro _ | apply State.dropHallFrames_keeps | apply State.dropMoves_keeps | apply State.dropBuffers_keeps | apply State.dropKernels_keeps | apply State.dropPort_keeps | apply State.dropCyclic_keeps | apply State.dropDma_keeps | apply State.dropTables_keeps | apply State.stoHallFail_keeps | apply State.scrubSends_keeps | simp only [Keeps.update] | apply Keeps.ite | apply Keeps.foldl | split)

theorem State.lastFault_keeps {z : State} (s : State) (scope : Nat) (cause : Nat) (hall : Nat) : Keeps z s → Keeps z (State.lastFault s scope cause hall) := by
  intro h0
  unfold State.lastFault
  conv => zeta
  with_reducible repeat' (first | assumption | intro _ | apply State.setFld_keeps | simp only [Keeps.update] | apply Keeps.ite | apply Keeps.foldl | split)

theorem State.dropCommands_keeps {z : State} (s : State) (p : StoConn → Bool) : Keeps z s → Keeps z (State.dropCommands s p) := by
  intro h0
  unfold State.dropCommands
  with_reducible repeat' (first | assumption | intro _ | apply State.cmdsFail_keeps | simp only [Keeps.update] | apply Keeps.ite | apply Keeps.foldl | split)

theorem State.dropFunction_keeps {z : State} (s : State) (fn : Nat) : Keeps z s → Keeps z (State.dropFunction s fn) := by
  intro h0
  unfold State.dropFunction
  conv => zeta
  with_reducible repeat' (first | assumption | intro _ | apply State.dropCommands_keeps | apply State.forgetPosts_keeps | apply State.scrubSends_keeps | apply State.voidCommands_keeps | apply State.voidDelivery_keeps | apply State.dropFrames_keeps | simp only [Keeps.update] | apply Keeps.ite | apply Keeps.foldl | split)

theorem State.dropQueue_keeps {z : State} (s : State) (k : Nat) : Keeps z s → Keeps z (State.dropQueue s k) := by
  intro h0
  unfold State.dropQueue
  conv => zeta
  with_reducible repeat' (first | assumption | intro _ | apply State.scrubSends_keeps | apply State.dropCommands_keeps | simp only [Keeps.update] | apply Keeps.ite | apply Keeps.foldl | split)

theorem execQueueReset_keeps {z : State} (d : AdminCmd) (s : State) : Keeps z s → KeepsNext z (execQueueReset d s) := by
  intro h0
  unfold execQueueReset
  conv => zeta
  with_reducible repeat' (first | assumption | intro _ | apply State.admin_keeps | apply State.queueFor_keeps | apply State.unreserve_keeps | apply State.setQueue_keeps | apply State.adminOk_keeps | apply State.finishDestroy_keeps | apply State.dropQueue_keeps | apply State.unstage_keeps | apply KeepsNext.next | apply KeepsNext.ite | simp only [Keeps.update] | apply Keeps.ite | apply Keeps.foldl | split)

theorem State.finishDestroys_keeps {z : State} (s : State) (fn : Nat) : Keeps z s → Keeps z (State.finishDestroys s fn) := by
  intro h0
  unfold State.finishDestroys
  with_reducible repeat' (first | assumption | intro _ | apply State.finishDestroy_keeps | simp only [Keeps.update] | apply Keeps.ite | apply Keeps.foldl | split)

theorem State.functionFault_keeps {z : State} (s : State) (fn : Nat) (cause : Nat) (discarded : Nat) : Keeps z s → Keeps z (State.functionFault s fn cause discarded) := by
  intro h0
  unfold State.functionFault
  conv => zeta
  with_reducible repeat' (first | assumption | intro _ | apply State.alm_keeps | apply State.lastFault_keeps | apply State.bump_keeps | apply State.raise_keeps | apply State.finishDestroys_keeps | apply State.dropFunction_keeps | apply State.affect_keeps | simp only [Keeps.update] | apply Keeps.ite | apply Keeps.foldl | split)

theorem execD3DrainDeadline_keeps {z : State} (f : Nat) (at_ : Nat) (s : State) : Keeps z s → KeepsNext z (execD3DrainDeadline f at_ s) := by
  intro h0
  unfold execD3DrainDeadline
  conv => zeta
  with_reducible repeat' (first | assumption | intro _ | apply State.atTime_keeps | apply State.setFld_keeps | apply State.setFn_keeps | apply State.functionFault_keeps | apply KeepsNext.next | apply KeepsNext.ite | simp only [Keeps.update] | apply Keeps.ite | apply Keeps.foldl | split)

theorem execQuiesceDeadline_keeps {z : State} (f : Nat) (at_ : Nat) (s : State) : Keeps z s → KeepsNext z (execQuiesceDeadline f at_ s) := by
  intro h0
  unfold execQuiesceDeadline
  conv => zeta
  with_reducible repeat' (first | assumption | intro _ | apply State.atTime_keeps | apply State.quiesced_keeps | apply State.setFn_keeps | apply State.functionFault_keeps | apply KeepsNext.next | apply KeepsNext.ite | simp only [Keeps.update] | apply Keeps.ite | apply Keeps.foldl | split)

theorem State.setRecov_keeps {z : State} (s : State) (h : Nat) (r : Option Recovery) : Keeps z s → Keeps z (State.setRecov s h r) := by
  intro h0
  unfold State.setRecov
  with_reducible repeat' (first | assumption | intro _ | simp only [Keeps.update] | apply Keeps.ite | apply Keeps.foldl | split)

theorem State.countFault_keeps {z : State} (s : State) (h : Nat) (cause : Nat) : Keeps z s → Keeps z (State.countFault s h cause) := by
  intro h0
  unfold State.countFault
  conv => zeta
  with_reducible repeat' (first | assumption | intro _ | apply State.setFld_keeps | apply State.bump_keeps | simp only [Keeps.update] | apply Keeps.ite | apply Keeps.foldl | split)

theorem State.beginRecovery_keeps {z : State} (s : State) (h : Nat) (cause : Nat) (route : Nat) (minTreads : Nat) : Keeps z s → Keeps z (State.beginRecovery s h cause route minTreads) := by
  intro h0
  unfold State.beginRecovery
  conv => zeta
  with_reducible repeat' (first | assumption | intro _ | apply State.setRecov_keeps | apply State.setFld_keeps | apply State.raise_keeps | apply State.adminFail_keeps | simp only [Keeps.update] | apply Keeps.ite | apply Keeps.foldl | split)

theorem State.hallFault_keeps {z : State} (s : State) (h : Nat) (cause : Nat) : Keeps z s → Keeps z (State.hallFault s h cause) := by
  intro h0
  unfold State.hallFault
  conv => zeta
  with_reducible repeat' (first | assumption | intro _ | apply State.countFault_keeps | apply State.beginRecovery_keeps | apply State.alm_keeps | apply State.lastFault_keeps | apply State.bump_keeps | apply State.raise_keeps | apply State.affect_keeps | apply State.finishDestroys_keeps | apply State.hallDrop_keeps | simp only [Keeps.update] | apply Keeps.ite | apply Keeps.foldl | split)

theorem execHallFault_keeps {z : State} (h : Nat) (cause : Nat) (at_ : Nat) (s : State) : Keeps z s → KeepsNext z (execHallFault h cause at_ s) := by
  intro h0
  unfold execHallFault
  conv => zeta
  with_reducible repeat' (first | assumption | intro _ | apply State.atTime_keeps | apply State.hallFault_keeps | apply KeepsNext.next | apply KeepsNext.ite | simp only [Keeps.update] | apply Keeps.ite | apply Keeps.foldl | split)

theorem State.hallReturns_keeps {z : State} (s : State) (h : Nat) : Keeps z s → Keeps z (State.hallReturns s h) := by
  intro h0
  unfold State.hallReturns
  conv => zeta
  with_reducible repeat' (first | assumption | intro _ | apply State.setFld_keeps | apply State.setRecov_keeps | apply State.setChState_keeps | apply State.adminOk_keeps | simp only [Keeps.update] | apply Keeps.ite | apply Keeps.foldl | split)

theorem execHallResetComplete_keeps {z : State} (h : Nat) (at_ : Nat) (s : State) : Keeps z s → KeepsNext z (execHallResetComplete h at_ s) := by
  intro h0
  unfold execHallResetComplete
  conv => zeta
  with_reducible repeat' (first | assumption | intro _ | apply State.atTime_keeps | apply State.setRecov_keeps | apply State.setFld_keeps | apply State.hallReturns_keeps | apply KeepsNext.next | apply KeepsNext.ite | simp only [Keeps.update] | apply Keeps.ite | apply Keeps.foldl | split)

theorem execDmaEngineStop_keeps {z : State} (h : Nat) (at_ : Nat) (s : State) : Keeps z s → KeepsNext z (execDmaEngineStop h at_ s) := by
  intro h0
  unfold execDmaEngineStop
  conv => zeta
  with_reducible repeat' (first | assumption | intro _ | apply State.atTime_keeps | apply State.raise_keeps | apply State.setFld_keeps | apply State.almHall_keeps | apply State.hallFault_keeps | apply State.setChState_keeps | apply KeepsNext.next | apply KeepsNext.ite | simp only [Keeps.update] | apply Keeps.ite | apply Keeps.foldl | split)

theorem execRailFault_keeps {z : State} (h : Nat) (at_ : Nat) (s : State) : Keeps z s → KeepsNext z (execRailFault h at_ s) := by
  intro h0
  unfold execRailFault
  conv => zeta
  with_reducible repeat' (first | assumption | intro _ | apply State.atTime_keeps | apply State.hallFault_keeps | apply KeepsNext.next | apply KeepsNext.ite | simp only [Keeps.update] | apply Keeps.ite | apply Keeps.foldl | split)

theorem State.laneFault_keeps {z : State} (s : State) (l : Nat) (cause : Nat) : Keeps z s → Keeps z (State.laneFault s l cause) := by
  intro h0
  unfold State.laneFault
  conv => zeta
  with_reducible repeat' (first | assumption | intro _ | apply State.alm_keeps | apply State.lastFault_keeps | apply State.bump_keeps | apply State.raise_keeps | apply State.setFld_keeps | apply State.dropPort_keeps | apply State.portDown_keeps | simp only [Keeps.update] | apply Keeps.ite | apply Keeps.foldl | split)

theorem execLaneFault_keeps {z : State} (l : Nat) (cause : Nat) (at_ : Nat) (s : State) : Keeps z s → KeepsNext z (execLaneFault l cause at_ s) := by
  intro h0
  unfold execLaneFault
  conv => zeta
  with_reducible repeat' (first | assumption | intro _ | apply State.atTime_keeps | apply State.laneFault_keeps | apply KeepsNext.next | apply KeepsNext.ite | simp only [Keeps.update] | apply Keeps.ite | apply Keeps.foldl | split)

theorem execLaneResetComplete_keeps {z : State} (l : Nat) (at_ : Nat) (s : State) : Keeps z s → KeepsNext z (execLaneResetComplete l at_ s) := by
  intro h0
  unfold execLaneResetComplete
  conv => zeta
  with_reducible repeat' (first | assumption | intro _ | apply State.atTime_keeps | apply State.train_keeps | apply KeepsNext.next | apply KeepsNext.ite | simp only [Keeps.update] | apply Keeps.ite | apply Keeps.foldl | split)

theorem State.deviceFaults_keeps {z : State} (s : State) (cause : Nat) : Keeps z s → Keeps z (State.deviceFaults s cause) := by
  intro h0
  unfold State.deviceFaults
  conv => zeta
  with_reducible repeat' (first | assumption | intro _ | apply State.almDev_keeps | apply State.lastFault_keeps | apply State.bump_keeps | apply State.aer_keeps | apply State.affect_keeps | apply State.hallDrop_keeps | apply State.setFld_keeps | apply State.voidCommands_keeps | simp only [Keeps.update] | apply Keeps.ite | apply Keeps.foldl | split)

theorem execDeviceFault_keeps {z : State} (cause : Nat) (at_ : Nat) (s : State) : Keeps z s → KeepsNext z (execDeviceFault cause at_ s) := by
  intro h0
  unfold execDeviceFault
  conv => zeta
  with_reducible repeat' (first | assumption | intro _ | apply State.atTime_keeps | apply State.deviceFaults_keeps | apply KeepsNext.next | apply KeepsNext.ite | simp only [Keeps.update] | apply Keeps.ite | apply Keeps.foldl | split)

theorem State.darkenHalf_keeps {z : State} (s : State) (e : Nat) : Keeps z s → Keeps z (State.darkenHalf s e) := by
  intro h0
  unfold State.darkenHalf
  conv => zeta
  with_reducible repeat' (first | assumption | intro _ | apply State.portDown_keeps | apply State.setFld_keeps | simp only [Keeps.update] | apply Keeps.ite | apply Keeps.foldl | split)

theorem State.halfFault_keeps {z : State} (s : State) (e : Nat) (cause : Nat) : Keeps z s → Keeps z (State.halfFault s e cause) := by
  intro h0
  unfold State.halfFault
  conv => zeta
  with_reducible repeat' (first | assumption | intro _ | apply State.deviceFaults_keeps | apply State.alm_keeps | apply State.lastFault_keeps | apply State.bump_keeps | apply State.raise_keeps | apply State.setFld_keeps | apply State.beginRecovery_keeps | apply State.countFault_keeps | apply State.affect_keeps | apply State.finishDestroys_keeps | apply State.hallDrop_keeps | apply State.darkenHalf_keeps | simp only [Keeps.update] | apply Keeps.ite | apply Keeps.foldl | split)

theorem execHalfFault_keeps {z : State} (e : Nat) (cause : Nat) (at_ : Nat) (s : State) : Keeps z s → KeepsNext z (execHalfFault e cause at_ s) := by
  intro h0
  unfold execHalfFault
  conv => zeta
  with_reducible repeat' (first | assumption | intro _ | apply State.atTime_keeps | apply State.halfFault_keeps | apply KeepsNext.next | apply KeepsNext.ite | simp only [Keeps.update] | apply Keeps.ite | apply Keeps.foldl | split)

theorem execFltInject_keeps {z : State} (d : AdminCmd) (at_ : Nat) (s : State) : Keeps z s → KeepsNext z (execFltInject d at_ s) := by
  intro h0
  unfold execFltInject
  conv => zeta
  with_reducible repeat' (first | assumption | intro _ | apply State.atTime_keeps | apply State.admin_keeps | apply State.adminFail_keeps | apply State.adminOk_keeps | apply State.functionFault_keeps | apply State.laneFault_keeps | apply State.hallFault_keeps | apply State.halfFault_keeps | apply State.deviceFaults_keeps | apply KeepsNext.next | apply KeepsNext.ite | simp only [Keeps.update] | apply Keeps.ite | apply Keeps.foldl | split)

theorem execFltHallRestore_keeps {z : State} (d : AdminCmd) (at_ : Nat) (s : State) : Keeps z s → KeepsNext z (execFltHallRestore d at_ s) := by
  intro h0
  unfold execFltHallRestore
  conv => zeta
  with_reducible repeat' (first | assumption | intro _ | apply State.atTime_keeps | apply State.admin_keeps | apply State.adminFail_keeps | apply State.setRecov_keeps | apply State.setFld_keeps | apply KeepsNext.next | apply KeepsNext.ite | simp only [Keeps.update] | apply Keeps.ite | apply Keeps.foldl | split)

theorem State.setAge_keeps {z : State} (s : State) (h : Nat) (a : HallAge) : Keeps z s → Keeps z (State.setAge s h a) := by
  intro h0
  unfold State.setAge
  with_reducible repeat' (first | assumption | intro _ | simp only [Keeps.update] | apply Keeps.ite | apply Keeps.foldl | split)

theorem State.passMeasured_keeps {z : State} (s : State) (m : HallMeas) (w : Nat) (tMeas : Nat) : Keeps z s → Keeps z (State.passMeasured s m w tMeas) := by
  intro h0
  unfold State.passMeasured
  conv => zeta
  with_reducible repeat' (first | assumption | intro _ | apply State.almHall_keeps | apply State.raise_keeps | apply State.setAge_keeps | apply State.setFld_keeps | simp only [Keeps.update] | apply Keeps.ite | apply Keeps.foldl | split)

theorem State.passHall_keeps {z : State} (s : State) (m : HallMeas) : Keeps z s → Keeps z (State.passHall s m) := by
  intro h0
  unfold State.passHall
  conv => zeta
  with_reducible repeat' (first | assumption | intro _ | apply State.raise_keeps | apply State.passMeasured_keeps | apply State.drawn_keeps | simp only [KeepsFst.pair] | apply KeepsFst.ite | apply KeepsFst.foldl | simp only [Keeps.update] | apply Keeps.ite | apply Keeps.foldl | (refine Keeps.fst (by assumption) ?_) | apply KeepsFst.first | split)

theorem State.useReserve_keeps {z : State} (s : State) (h : Nat) (n : Nat) : Keeps z s → Keeps z (State.useReserve s h n) := by
  intro h0
  unfold State.useReserve
  conv => zeta
  with_reducible repeat' (first | assumption | intro _ | apply State.setAge_keeps | apply State.setFld_keeps | apply State.raise_keeps | apply State.almHall_keeps | simp only [Keeps.update] | apply Keeps.ite | apply Keeps.foldl | split)

theorem State.belowPlan_keeps {z : State} (s : State) (h : Nat) (tw : Int) : Keeps z s → Keeps z (State.belowPlan s h tw) := by
  intro h0
  unfold State.belowPlan
  conv => zeta
  with_reducible repeat' (first | assumption | intro _ | apply State.useReserve_keeps | apply State.setRecov_keeps | apply State.hallFault_keeps | simp only [Keeps.update] | apply Keeps.ite | apply Keeps.foldl | split)

theorem execBaroPass_keeps {z : State} (ms : List HallMeas) (ret : List Nat) (wear : Nat) (at_ : Nat) (s : State) : Keeps z s → KeepsNext z (execBaroPass ms ret wear at_ s) := by
  intro h0
  unfold execBaroPass
  conv => zeta
  with_reducible repeat' (first | assumption | intro _ | apply State.atTime_keeps | apply State.passHall_keeps | apply State.setFld_keeps | apply State.raise_keeps | apply State.bump_keeps | apply State.belowPlan_keeps | apply KeepsNext.next | apply KeepsNext.ite | simp only [Keeps.update] | apply Keeps.ite | apply Keeps.foldl | split)

theorem execBaroStale_keeps {z : State} (at_ : Nat) (s : State) : Keeps z s → KeepsNext z (execBaroStale at_ s) := by
  intro h0
  unfold execBaroStale
  conv => zeta
  with_reducible repeat' (first | assumption | intro _ | apply State.atTime_keeps | apply State.raise_keeps | apply KeepsNext.next | apply KeepsNext.ite | simp only [Keeps.update] | apply Keeps.ite | apply Keeps.foldl | split)

theorem State.setStandby_keeps {z : State} (s : State) (v : Nat) : Keeps z s → Keeps z (State.setStandby s v) := by
  intro h0
  unfold State.setStandby
  with_reducible repeat' (first | assumption | intro _ | apply State.setFld_keeps | simp only [Keeps.update] | apply Keeps.ite | apply Keeps.foldl | split)

theorem State.setReason_keeps {z : State} (s : State) (v : Nat) : Keeps z s → Keeps z (State.setReason s v) := by
  intro h0
  unfold State.setReason
  with_reducible repeat' (first | assumption | intro _ | apply State.setFld_keeps | simp only [Keeps.update] | apply Keeps.ite | apply Keeps.foldl | split)

theorem State.showSlots_keeps {z : State} (s : State) : Keeps z s → Keeps z (State.showSlots s) := by
  intro h0
  unfold State.showSlots
  conv => zeta
  with_reducible repeat' (first | assumption | intro _ | apply State.setFld_keeps | simp only [Keeps.update] | apply Keeps.ite | apply Keeps.foldl | split)

theorem State.planFail_keeps {z : State} (s : State) (d : AdminCmd) (reason : Nat) : Keeps z s → Keeps z (State.planFail s d reason) := by
  intro h0
  unfold State.planFail
  with_reducible repeat' (first | assumption | intro _ | apply State.adminFail_keeps | apply State.setReason_keeps | simp only [Keeps.update] | apply Keeps.ite | apply Keeps.foldl | split)

theorem State.planDone_keeps {z : State} (s : State) (c : Option AdminCmd) (status : Nat) (detail : Nat) (opspec : Nat) : Keeps z s → Keeps z (State.planDone s c status detail opspec) := by
  intro h0
  unfold State.planDone
  with_reducible repeat' (first | assumption | intro _ | apply State.adminDone_keeps | simp only [Keeps.update] | apply Keeps.ite | apply Keeps.foldl | split)

theorem State.startVerify_keeps {z : State} (s : State) : Keeps z s → Keeps z (State.startVerify s) := by
  intro h0
  unfold State.startVerify
  conv => zeta
  with_reducible repeat' (first | assumption | intro _ | apply State.showSlots_keeps | apply State.setStandby_keeps | simp only [Keeps.update] | apply Keeps.ite | apply Keeps.foldl | split)

theorem execPlanLoad_keeps {z : State} (d : AdminCmd) (buf : Bytes) (s : State) : Keeps z s → KeepsNext z (execPlanLoad d buf s) := by
  intro h0
  unfold execPlanLoad
  conv => zeta
  with_reducible repeat' (first | assumption | intro _ | apply State.admin_keeps | apply State.planFail_keeps | apply State.startVerify_keeps | apply State.setFld_keeps | apply KeepsNext.next | apply KeepsNext.ite | simp only [Keeps.update] | apply Keeps.ite | apply Keeps.foldl | split)

theorem State.beginCopyIn_keeps {z : State} (s : State) (kind : Nat) (idx : Nat) (boot : Nat) (cmd : Option AdminCmd) : Keeps z s → Keeps z (State.beginCopyIn s kind idx boot cmd) := by
  intro h0
  unfold State.beginCopyIn
  conv => zeta
  with_reducible repeat' (first | assumption | intro _ | apply State.showSlots_keeps | apply State.setFld_keeps | apply State.setStandby_keeps | simp only [Keeps.update] | apply Keeps.ite | apply Keeps.foldl | split)

theorem execPlanLoadStored_keeps {z : State} (d : AdminCmd) (s : State) : Keeps z s → KeepsNext z (execPlanLoadStored d s) := by
  intro h0
  unfold execPlanLoadStored
  with_reducible repeat' (first | assumption | intro _ | apply State.admin_keeps | apply State.planFail_keeps | apply State.beginCopyIn_keeps | apply KeepsNext.next | apply KeepsNext.ite | simp only [Keeps.update] | apply Keeps.ite | apply Keeps.foldl | split)

theorem execPlanStore_keeps {z : State} (d : AdminCmd) (s : State) : Keeps z s → KeepsNext z (execPlanStore d s) := by
  intro h0
  unfold execPlanStore
  with_reducible repeat' (first | assumption | intro _ | apply State.admin_keeps | apply State.planFail_keeps | apply KeepsNext.next | apply KeepsNext.ite | simp only [Keeps.update] | apply Keeps.ite | apply Keeps.foldl | split)

theorem execPlanDiscard_keeps {z : State} (d : AdminCmd) (s : State) : Keeps z s → KeepsNext z (execPlanDiscard d s) := by
  intro h0
  unfold execPlanDiscard
  conv => zeta
  with_reducible repeat' (first | assumption | intro _ | apply State.admin_keeps | apply State.planFail_keeps | apply State.adminOk_keeps | apply State.planDone_keeps | apply State.showSlots_keeps | apply State.setStandby_keeps | apply KeepsNext.next | apply KeepsNext.ite | simp only [Keeps.update] | apply Keeps.ite | apply Keeps.foldl | split)

theorem State.requestSwap_keeps {z : State} (s : State) (named : Option Nat) (cmd : Option AdminCmd) (standalone : Bool) : Keeps z s → Keeps z (State.requestSwap s named cmd standalone) := by
  intro h0
  unfold State.requestSwap
  conv => zeta
  with_reducible repeat' (first | assumption | intro _ | apply State.setFld_keeps | apply State.setStandby_keeps | simp only [Keeps.update] | apply Keeps.ite | apply Keeps.foldl | split)

theorem State.abandonSwap_keeps {z : State} (s : State) (reason : Nat) : Keeps z s → Keeps z (State.abandonSwap s reason) := by
  intro h0
  unfold State.abandonSwap
  conv => zeta
  with_reducible repeat' (first | assumption | intro _ | apply State.bump_keeps | apply State.setReason_keeps | apply State.setStandby_keeps | apply State.setFld_keeps | apply State.almDev_keeps | apply State.planDone_keeps | simp only [Keeps.update] | apply Keeps.ite | apply Keeps.foldl | split)

theorem execPlanSwap_keeps {z : State} (d : AdminCmd) (s : State) : Keeps z s → KeepsNext z (execPlanSwap d s) := by
  intro h0
  unfold execPlanSwap
  conv => zeta
  with_reducible repeat' (first | assumption | intro _ | apply State.admin_keeps | apply State.planFail_keeps | apply State.requestSwap_keeps | apply State.abandonSwap_keeps | apply KeepsNext.next | apply KeepsNext.ite | simp only [Keeps.update] | apply Keeps.ite | apply Keeps.foldl | split)

theorem execHallReady_keeps {z : State} (h : Nat) (at_ : Nat) (s : State) : Keeps z s → KeepsNext z (execHallReady h at_ s) := by
  intro h0
  unfold execHallReady
  conv => zeta
  with_reducible repeat' (first | assumption | intro _ | apply State.atTime_keeps | apply State.setFld_keeps | apply KeepsNext.next | apply KeepsNext.ite | simp only [Keeps.update] | apply Keeps.ite | apply Keeps.foldl | split)

theorem execSwapTimeout_keeps {z : State} (at_ : Nat) (s : State) : Keeps z s → KeepsNext z (execSwapTimeout at_ s) := by
  intro h0
  unfold execSwapTimeout
  conv => zeta
  with_reducible repeat' (first | assumption | intro _ | apply State.atTime_keeps | apply State.abandonSwap_keeps | apply KeepsNext.next | apply KeepsNext.ite | simp only [Keeps.update] | apply Keeps.ite | apply Keeps.foldl | split)

theorem execPlanStop_keeps {z : State} (d : AdminCmd) (s : State) : Keeps z s → KeepsNext z (execPlanStop d s) := by
  intro h0
  unfold execPlanStop
  with_reducible repeat' (first | assumption | intro _ | apply State.admin_keeps | apply State.setFld_keeps | apply KeepsNext.next | apply KeepsNext.ite | simp only [Keeps.update] | apply Keeps.ite | apply Keeps.foldl | split)

theorem State.startStandalone_keeps {z : State} (s : State) : Keeps z s → Keeps z (State.startStandalone s) := by
  intro h0
  unfold State.startStandalone
  with_reducible repeat' (first | assumption | intro _ | apply State.beginCopyIn_keeps | apply State.setFld_keeps | simp only [Keeps.update] | apply Keeps.ite | apply Keeps.foldl | split)

theorem State.startFails_keeps {z : State} (s : State) (reason : Nat) : Keeps z s → Keeps z (State.startFails s reason) := by
  intro h0
  unfold State.startFails
  conv => zeta
  with_reducible repeat' (first | assumption | intro _ | apply State.setFld_keeps | apply State.startStandalone_keeps | apply State.almDev_keeps | apply State.raise_keeps | simp only [Keeps.update] | apply Keeps.ite | apply Keeps.foldl | split)

theorem State.restartPlan_keeps {z : State} (s : State) : Keeps z s → Keeps z (State.restartPlan s) := by
  intro h0
  unfold State.restartPlan
  conv => zeta
  with_reducible repeat' (first | assumption | intro _ | apply State.setFld_keeps | apply State.requestSwap_keeps | simp only [Keeps.update] | apply Keeps.ite | apply Keeps.foldl | split)

theorem execStartSelect_keeps {z : State} (at_ : Nat) (s : State) : Keeps z s → KeepsNext z (execStartSelect at_ s) := by
  intro h0
  unfold execStartSelect
  conv => zeta
  with_reducible repeat' (first | assumption | intro _ | apply State.atTime_keeps | apply State.restartPlan_keeps | apply State.beginCopyIn_keeps | apply State.setFld_keeps | apply State.startStandalone_keeps | apply KeepsNext.next | apply KeepsNext.ite | simp only [Keeps.update] | apply Keeps.ite | apply Keeps.foldl | split)

theorem State.copyFails_keeps {z : State} (s : State) : Keeps z s → Keeps z (State.copyFails s) := by
  intro h0
  unfold State.copyFails
  conv => zeta
  with_reducible repeat' (first | assumption | intro _ | apply State.bump_keeps | apply State.setReason_keeps | apply State.setStandby_keeps | apply State.planDone_keeps | apply State.startFails_keeps | simp only [Keeps.update] | apply Keeps.ite | apply Keeps.foldl | split)

theorem execLibraryCopyComplete_keeps {z : State} (ok : Bool) (s : State) : Keeps z s → KeepsNext z (execLibraryCopyComplete ok s) := by
  intro h0
  unfold execLibraryCopyComplete
  conv => zeta
  with_reducible repeat' (first | assumption | intro _ | apply State.planDone_keeps | apply State.copyFails_keeps | apply State.startVerify_keeps | apply KeepsNext.next | apply KeepsNext.ite | simp only [Keeps.update] | apply Keeps.ite | apply Keeps.foldl | split)

theorem execVerifyComplete_keeps {z : State} (at_ : Nat) (s : State) : Keeps z s → KeepsNext z (execVerifyComplete at_ s) := by
  intro h0
  unfold execVerifyComplete
  conv => zeta
  with_reducible repeat' (first | assumption | intro _ | apply State.atTime_keeps | apply State.setWord_keeps | apply State.setReason_keeps | apply State.setStandby_keeps | apply State.planDone_keeps | apply State.requestSwap_keeps | apply State.startFails_keeps | apply State.bump_keeps | apply KeepsNext.next | apply KeepsNext.ite | simp only [Keeps.update] | apply Keeps.ite | apply Keeps.foldl | split)

theorem State.hallInit_keeps {z : State} (s : State) (h : Nat) : Keeps z s → Keeps z (State.hallInit s h) := by
  intro h0
  unfold State.hallInit
  with_reducible repeat' (first | assumption | intro _ | simp only [Keeps.update] | apply Keeps.ite | apply Keeps.foldl | split)

theorem State.zeroCounters_keeps {z : State} (s : State) (h : Nat) : Keeps z s → Keeps z (State.zeroCounters s h) := by
  intro h0
  unfold State.zeroCounters
  with_reducible repeat' (first | assumption | intro _ | simp only [Keeps.update] | apply Keeps.ite | apply Keeps.foldl | split)

theorem State.saveDma_keeps {z : State} (s : State) (h : Nat) (l : Nat) : Keeps z s → Keeps z (State.saveDma s h l) := by
  intro h0
  unfold State.saveDma
  conv => zeta
  with_reducible repeat' (first | assumption | intro _ | simp only [Keeps.update] | apply Keeps.ite | apply Keeps.foldl | split)

theorem State.loadDma_keeps {z : State} (s : State) (h : Nat) (l : Nat) : Keeps z s → Keeps z (State.loadDma s h l) := by
  intro h0
  unfold State.loadDma
  conv => zeta
  with_reducible repeat' (first | assumption | intro _ | apply State.setChState_keeps | simp only [Keeps.update] | apply Keeps.ite | apply Keeps.foldl | split)

theorem State.dropAll_keeps {z : State} (s : State) (h : Nat) : Keeps z s → Keeps z (State.dropAll s h) := by
  intro h0
  unfold State.dropAll
  conv => zeta
  with_reducible repeat' (first | assumption | intro _ | apply State.setFld_keeps | simp only [Keeps.update] | apply Keeps.ite | apply Keeps.foldl | split)

theorem State.loseAll_keeps {z : State} (s : State) (h : Nat) : Keeps z s → Keeps z (s.loseAll h) := by
  intro h0
  unfold State.loseAll
  conv => zeta
  refine State.hallInit_keeps _ _ (State.dropAll_keeps _ _ ?_)
  exact ⟨h0.queue, fun c => ⟨Memory.wf_clear (h0.memories c).1 _ _, (h0.memories c).2⟩⟩

theorem State.preloadEntry_keeps {z : State} (s : State) (h : Nat) (target : Nat) (i : Nat) (e : Bytes) : Keeps z s → Keeps z (State.preloadEntry s h target i e) := by
  intro h0
  unfold State.preloadEntry
  with_reducible repeat' (first | assumption | intro _ | apply State.setTcam_keeps | apply State.setBridge_keeps | apply State.freeBridge_keeps | apply State.setStation_keeps | apply State.setTemplate_keeps | simp only [Keeps.update] | apply Keeps.ite | apply Keeps.foldl | split)

theorem State.preloadBlock_keeps {z : State} (s : State) (h : Nat) (b : Plan.Block) : Keeps z s → Keeps z (State.preloadBlock s h b) := by
  intro h0
  unfold State.preloadBlock
  with_reducible repeat' (first | assumption | intro _ | apply State.alcoveWrite_keeps | apply State.preloadEntry_keeps | simp only [Keeps.update] | apply Keeps.ite | apply Keeps.foldl | split)

theorem State.keepTables_keeps {z : State} (s : State) (h : Nat) (l : Nat) : Keeps z s → Keeps z (State.keepTables s h l) := by
  intro h0
  unfold State.keepTables
  with_reducible repeat' (first | assumption | intro _ | simp only [Keeps.update] | apply Keeps.ite | apply Keeps.foldl | split)

theorem State.preload_keeps {z : State} (s : State) (h : Nat) (l : Nat) : Keeps z s → Keeps z (State.preload s h l) := by
  intro h0
  unfold State.preload
  conv => zeta
  with_reducible repeat' (first | assumption | intro _ | apply State.dropAll_keeps | apply State.preloadBlock_keeps | simp only [Keeps.update] | apply Keeps.ite | apply Keeps.foldl | split)

theorem State.preambleOp_keeps {z : State} (s : State) (h : Nat) (o : Nat) : Keeps z s → Keeps z (State.preambleOp s h o) := by
  intro h0
  unfold State.preambleOp
  conv => zeta
  with_reducible repeat' (first | assumption | intro _ | apply State.setPtr_keeps | apply State.alcoveWrite_keeps | simp only [Keeps.update] | apply Keeps.ite | apply Keeps.foldl | split)

theorem State.applyPreamble_keeps {z : State} (s : State) (h : Nat) (l : Nat) : Keeps z s → Keeps z (State.applyPreamble s h l) := by
  intro h0
  unfold State.applyPreamble
  conv => zeta
  with_reducible repeat' (first | assumption | intro _ | apply State.dropBuffers_keeps | apply State.voidPtr_keeps | apply State.preambleOp_keeps | apply State.setFld_keeps | simp only [Keeps.update] | apply Keeps.ite | apply Keeps.foldl | split)

theorem State.darken_keeps {z : State} (s : State) (l : Nat) : Keeps z s → Keeps z (State.darken s l) := by
  intro h0
  unfold State.darken
  conv => zeta
  with_reducible repeat' (first | assumption | intro _ | apply State.dropPort_keeps | apply State.portDown_keeps | apply State.setFld_keeps | simp only [Keeps.update] | apply Keeps.ite | apply Keeps.foldl | split)

theorem State.lightLane_keeps {z : State} (s : State) (l : Nat) (mode : Nat) : Keeps z s → Keeps z (State.lightLane s l mode) := by
  intro h0
  unfold State.lightLane
  conv => zeta
  with_reducible repeat' (first | assumption | intro _ | apply State.train_keeps | apply State.setFld_keeps | simp only [Keeps.update] | apply Keeps.ite | apply Keeps.foldl | split)

theorem State.darkenHall_keeps {z : State} (s : State) (h : Nat) : Keeps z s → Keeps z (State.darkenHall s h) := by
  intro h0
  unfold State.darkenHall
  with_reducible repeat' (first | assumption | intro _ | apply State.darken_keeps | simp only [Keeps.update] | apply Keeps.ite | apply Keeps.foldl | split)

theorem State.lightHall_keeps {z : State} (s : State) (h : Nat) : Keeps z s → Keeps z (State.lightHall s h) := by
  intro h0
  unfold State.lightHall
  with_reducible repeat' (first | assumption | intro _ | apply State.lightLane_keeps | simp only [Keeps.update] | apply Keeps.ite | apply Keeps.foldl | split)

theorem State.laneCfgLand_keeps {z : State} (s : State) (l : Nat) : Keeps z s → Keeps z (State.laneCfgLand s l) := by
  intro h0
  unfold State.laneCfgLand
  conv => zeta
  with_reducible repeat' (first | assumption | intro _ | apply State.lightLane_keeps | apply State.portDown_keeps | simp only [Keeps.update] | apply Keeps.ite | apply Keeps.foldl | split)

theorem State.wideLand_keeps {z : State} (s : State) : Keeps z s → Keeps z (State.wideLand s) := by
  intro h0
  unfold State.wideLand
  conv => zeta
  with_reducible repeat' (first | assumption | intro _ | apply State.laneCfgLand_keeps | apply State.setFld_keeps | simp only [Keeps.update] | apply Keeps.ite | apply Keeps.foldl | split)

theorem State.forceDrain_keeps {z : State} (s : State) (h : Nat) : Keeps z s → Keeps z (State.forceDrain s h) := by
  intro h0
  unfold State.forceDrain
  with_reducible repeat' (first | assumption | intro _ | apply State.functionFault_keeps | simp only [Keeps.update] | apply Keeps.ite | apply Keeps.foldl | split)

theorem State.hallClear_keeps {z : State} (s : State) (h : Nat) : Keeps z s → Keeps z (State.hallClear s h) := by
  intro h0
  unfold State.hallClear
  conv => zeta
  with_reducible repeat' (first | assumption | intro _ | apply State.dropHallFrames_keeps | apply State.dropMoves_keeps | apply State.dropBuffers_keeps | apply State.dropKernels_keeps | apply State.forceDrain_keeps | apply State.scrubSends_keeps | apply State.dropCyclic_keeps | apply State.dropDma_keeps | apply State.setFld_keeps | simp only [Keeps.update] | apply Keeps.ite | apply Keeps.foldl | split)

theorem State.hallSleep_keeps {z : State} (s : State) (h : Nat) : Keeps z s → Keeps z (State.hallSleep s h) := by
  intro h0
  unfold State.hallSleep
  with_reducible repeat' (first | assumption | intro _ | apply State.hallClear_keeps | apply State.dropPort_keeps | simp only [Keeps.update] | apply Keeps.ite | apply Keeps.foldl | split)

theorem State.enterLevel_keeps {z : State} (s : State) (h : Nat) (level : Nat) : Keeps z s → Keeps z (State.enterLevel s h level) := by
  intro h0
  unfold State.enterLevel
  conv => zeta
  with_reducible repeat' (first | assumption | intro _ | apply State.setFld_keeps | apply State.hallSleep_keeps | apply State.darkenHall_keeps | apply State.loseAll_keeps | apply State.bump_keeps | apply State.setFrost_keeps | simp only [Keeps.update] | apply Keeps.ite | apply Keeps.foldl | split)

theorem State.drainInto_keeps {z : State} (s : State) (h : Nat) (level : Nat) : Keeps z s → Keeps z (State.drainInto s h level) := by
  intro h0
  unfold State.drainInto
  conv => zeta
  with_reducible repeat' (first | assumption | intro _ | apply State.enterLevel_keeps | apply State.setFld_keeps | apply State.raise_keeps | apply State.almHall_keeps | simp only [Keeps.update] | apply Keeps.ite | apply Keeps.foldl | split)

theorem State.endRole_keeps {z : State} (s : State) (h : Nat) : Keeps z s → Keeps z (State.endRole s h) := by
  intro h0
  unfold State.endRole
  conv => zeta
  with_reducible repeat' (first | assumption | intro _ | apply State.setFld_keeps | apply State.saveDma_keeps | apply State.dropTables_keeps | apply State.hallClear_keeps | simp only [Keeps.update] | apply Keeps.ite | apply Keeps.foldl | split)

theorem State.mapHall_keeps {z : State} (s : State) (l : Nat) (h : Option Nat) : Keeps z s → Keeps z (State.mapHall s l h) := by
  intro h0
  unfold State.mapHall
  with_reducible repeat' (first | assumption | intro _ | apply State.setFld_keeps | simp only [Keeps.update] | apply Keeps.ite | apply Keeps.foldl | split)

theorem State.showLands_keeps {z : State} (s : State) (h : Nat) (l : Nat) : Keeps z s → Keeps z (State.showLands s h l) := by
  intro h0
  unfold State.showLands
  with_reducible repeat' (first | assumption | intro _ | apply State.setFld_keeps | simp only [Keeps.update] | apply Keeps.ite | apply Keeps.foldl | split)

theorem State.showCipherMax_keeps {z : State} (s : State) (h : Nat) (l : Nat) : Keeps z s → Keeps z (State.showCipherMax s h l) := by
  intro h0
  unfold State.showCipherMax
  conv => zeta
  with_reducible repeat' (first | assumption | intro _ | apply State.setFld_keeps | simp only [Keeps.update] | apply Keeps.ite | apply Keeps.foldl | split)

theorem State.takeRole_keeps {z : State} (s : State) (h : Nat) (l : Nat) (fresh : Bool) : Keeps z s → Keeps z (State.takeRole s h l fresh) := by
  intro h0
  unfold State.takeRole
  conv => zeta
  with_reducible repeat' (first | assumption | intro _ | apply State.zeroCounters_keeps | apply State.setFld_keeps | apply State.loadDma_keeps | apply State.keepTables_keeps | apply State.zeroWords_keeps | apply State.showCipherMax_keeps | apply State.showLands_keeps | apply State.applyPreamble_keeps | apply State.preload_keeps | simp only [Keeps.update] | apply Keeps.ite | apply Keeps.foldl | split)

theorem execEvtHostWrite_keeps {z : State} (who : Who) (k : Nat) (value : Nat) (at_ : Nat) (s : State) : Keeps z s → KeepsNext z (execEvtHostWrite who k value at_ s) := by
  intro h0
  unfold execEvtHostWrite
  conv => zeta
  with_reducible repeat' (first | assumption | intro _ | apply State.atTime_keeps | apply State.raise_keeps | apply State.actSoon_keeps | apply KeepsNext.next | apply KeepsNext.ite | simp only [Keeps.update] | apply Keeps.ite | apply Keeps.foldl | split)

theorem State.clearCaptures_keeps {z : State} (s : State) : Keeps z s → Keeps z (State.clearCaptures s) := by
  intro h0
  unfold State.clearCaptures
  conv => zeta
  with_reducible repeat' (first | assumption | intro _ | apply State.setLand_keeps | apply State.setFld_keeps | simp only [Keeps.update] | apply Keeps.ite | apply Keeps.foldl | split)

theorem State.swapChannels_keeps {z : State} (s : State) : Keeps z s → Keeps z (State.swapChannels s) := by
  intro h0
  unfold State.swapChannels
  with_reducible repeat' (first | assumption | intro _ | apply State.unbindNow_keeps | simp only [Keeps.update] | apply Keeps.ite | apply Keeps.foldl | split)

theorem State.showMaps_keeps {z : State} (s : State) : Keeps z s → Keeps z (State.showMaps s) := by
  intro h0
  unfold State.showMaps
  conv => zeta
  with_reducible repeat' (first | assumption | intro _ | apply State.setFld_keeps | apply State.mapHall_keeps | apply State.raise_keeps | simp only [Keeps.update] | apply Keeps.ite | apply Keeps.foldl | split)

theorem State.beginPlan_keeps {z : State} (s : State) : Keeps z s → Keeps z (State.beginPlan s) := by
  intro h0
  unfold State.beginPlan
  conv => zeta
  with_reducible repeat' (first | assumption | intro _ | apply State.setFld_keeps | apply State.clearCaptures_keeps | simp only [Keeps.update] | apply Keeps.ite | apply Keeps.foldl | split)

theorem State.placeHall_keeps {z : State} (s : State) (held : Bool) (h : Nat) : Keeps z s → Keeps z (State.placeHall s held h) := by
  intro h0
  unfold State.placeHall
  conv => zeta
  with_reducible repeat' (first | assumption | intro _ | apply State.setFrost_keeps | apply State.hallReturns_keeps | apply State.takeRole_keeps | apply State.setFld_keeps | simp only [Keeps.update] | apply Keeps.ite | apply Keeps.foldl | split)

theorem State.releaseReserve_keeps {z : State} (s : State) (h : Nat) : Keeps z s → Keeps z (State.releaseReserve s h) := by
  intro h0
  unfold State.releaseReserve
  with_reducible repeat' (first | assumption | intro _ | apply State.setFld_keeps | apply State.setAge_keeps | simp only [Keeps.update] | apply Keeps.ite | apply Keeps.foldl | split)

theorem State.landSwap_keeps {z : State} (s : State) (w : Swap) : Keeps z s → Keeps z (State.landSwap s w) := by
  intro h0
  unfold State.landSwap
  conv => zeta
  with_reducible repeat' (first | assumption | intro _ | apply State.stoHallFail_keeps | apply State.swapChannels_keeps | apply State.endRole_keeps | apply State.releaseLand_keeps | apply State.setFld_keeps | apply State.beginPlan_keeps | apply State.setStandby_keeps | apply State.showSlots_keeps | apply State.bump_keeps | apply State.showMaps_keeps | apply State.setRecov_keeps | apply State.placeHall_keeps | apply State.darken_keeps | apply State.lightLane_keeps | apply State.releaseReserve_keeps | apply State.almDev_keeps | apply State.planDone_keeps | simp only [Keeps.update] | apply Keeps.ite | apply Keeps.foldl | split)

theorem State.swapStep_keeps {z : State} (s : State) (k : Nat) : Keeps z s → Keeps z (State.swapStep s k) := by
  intro h0
  unfold State.swapStep
  conv => zeta
  with_reducible repeat' (first | assumption | intro _ | apply State.abandonSwap_keeps | apply State.forceDrain_keeps | apply State.landSwap_keeps | simp only [Keeps.update] | apply Keeps.ite | apply Keeps.foldl | split)

theorem State.endHall_keeps {z : State} (force : Bool) (s : State) (h : Nat) : Keeps z s → Keeps z (State.endHall force s h) := by
  intro h0
  unfold State.endHall
  with_reducible repeat' (first | assumption | intro _ | apply State.drainInto_keeps | apply State.setFld_keeps | apply State.enterLevel_keeps | apply State.endRole_keeps | apply State.darkenHall_keeps | simp only [Keeps.update] | apply Keeps.ite | apply Keeps.foldl | split)

theorem State.endWork_keeps {z : State} (s : State) : Keeps z s → Keeps z (State.endWork s) := by
  intro h0
  unfold State.endWork
  conv => zeta
  with_reducible repeat' (first | assumption | intro _ | apply State.unbindNow_keeps | apply State.stoHallFail_keeps | apply State.setFld_keeps | simp only [Keeps.update] | apply Keeps.ite | apply Keeps.foldl | split)

theorem State.planGone_keeps {z : State} (s : State) : Keeps z s → Keeps z (State.planGone s) := by
  intro h0
  unfold State.planGone
  conv => zeta
  with_reducible repeat' (first | assumption | intro _ | apply State.reportEnergy_keeps | apply State.releaseLand_keeps | apply State.setRecov_keeps | apply State.hallReturns_keeps | apply State.setFld_keeps | apply State.showSlots_keeps | apply State.showMaps_keeps | apply State.adminOk_keeps | simp only [Keeps.update] | apply Keeps.ite | apply Keeps.foldl | split)

theorem State.endPlan_keeps {z : State} (s : State) (force : Bool) : Keeps z s → Keeps z (State.endPlan s force) := by
  intro h0
  unfold State.endPlan
  conv => zeta
  with_reducible repeat' (first | assumption | intro _ | apply State.endHall_keeps | apply State.endWork_keeps | apply State.planGone_keeps | simp only [Keeps.update] | apply Keeps.ite | apply Keeps.foldl | split)

theorem State.clearTrust_keeps {z : State} (s : State) : Keeps z s → Keeps z (State.clearTrust s) := by
  intro h0
  unfold State.clearTrust
  conv => zeta
  with_reducible repeat' (first | assumption | intro _ | apply State.abandonSwap_keeps | apply State.planDone_keeps | apply State.showSlots_keeps | apply State.setStandby_keeps | apply State.zeroize_keeps | apply State.setFld_keeps | apply State.showPlanKeys_keeps | apply State.setWord_keeps | simp only [Keeps.update] | apply Keeps.ite | apply Keeps.foldl | split)

theorem State.flightEnergy_keeps {z : State} (s : State) (uj : Nat) : Keeps z s → Keeps z (State.flightEnergy s uj) := by
  intro h0
  unfold State.flightEnergy
  conv => zeta
  with_reducible repeat' (first | assumption | intro _ | apply State.setFld_keeps | apply State.almDev_keeps | apply State.raise_keeps | simp only [Keeps.update] | apply Keeps.ite | apply Keeps.foldl | split)

theorem State.fence_keeps {z : State} (s : State) (e : Nat) (r0 : Nat × Bytes) (r1 : Nat × Bytes) : Keeps z s → Keeps z (State.fence s e r0 r1) := by
  intro h0
  unfold State.fence
  conv => zeta
  with_reducible repeat' (first | assumption | intro _ | apply State.raise_keeps | apply State.bump_keeps | apply State.alm_keeps | apply State.halfFault_keeps | simp only [Keeps.update] | apply Keeps.ite | apply Keeps.foldl | split)

theorem State.compareHalves_keeps {z : State} (s : State) (bad : Option (Nat × Nat × Bytes)) : Keeps z s → Keeps z (State.compareHalves s bad) := by
  intro h0
  unfold State.compareHalves
  conv => zeta
  with_reducible repeat' (first | assumption | intro _ | apply State.setFld_keeps | apply State.fence_keeps | simp only [Keeps.update] | apply Keeps.ite | apply Keeps.foldl | split)

theorem State.recovered_keeps {z : State} (s : State) (scope : Nat) (hall : Nat) (route : Nat) (since : Nat) : Keeps z s → Keeps z (State.recovered s scope hall route since) := by
  intro h0
  unfold State.recovered
  with_reducible repeat' (first | assumption | intro _ | apply State.alm_keeps | simp only [Keeps.update] | apply Keeps.ite | apply Keeps.foldl | split)

theorem State.halfReturn_keeps {z : State} (s : State) (e : Nat) : Keeps z s → Keeps z (State.halfReturn s e) := by
  intro h0
  unfold State.halfReturn
  conv => zeta
  with_reducible repeat' (first | assumption | intro _ | apply State.setFld_keeps | apply State.recovered_keeps | simp only [Keeps.update] | apply Keeps.ite | apply Keeps.foldl | split)

theorem State.remapHall_keeps {z : State} (s : State) (h : Nat) (x : Nat) (l : Nat) (cause : Nat) : Keeps z s → Keeps z (State.remapHall s h x l cause) := by
  intro h0
  unfold State.remapHall
  conv => zeta
  with_reducible repeat' (first | assumption | intro _ | apply State.endRole_keeps | apply State.stoHallFail_keeps | apply State.dropAll_keeps | apply State.mapHall_keeps | apply State.takeRole_keeps | apply State.setFrost_keeps | apply State.channelsRestart_keeps | apply State.setFld_keeps | apply State.setRecov_keeps | apply State.enterLevel_keeps | apply State.almHall_keeps | apply State.raise_keeps | simp only [Keeps.update] | apply Keeps.ite | apply Keeps.foldl | split)

theorem State.gradeRemap_keeps {z : State} (s : State) (h : Nat) : Keeps z s → Keeps z (State.gradeRemap s h) := by
  intro h0
  unfold State.gradeRemap
  with_reducible repeat' (first | assumption | intro _ | apply State.remapHall_keeps | apply State.functionFault_keeps | simp only [Keeps.update] | apply Keeps.ite | apply Keeps.foldl | split)

theorem State.hallRecovers_keeps {z : State} (s : State) (h : Nat) : Keeps z s → Keeps z (State.hallRecovers s h) := by
  intro h0
  unfold State.hallRecovers
  conv => zeta
  with_reducible repeat' (first | assumption | intro _ | apply State.recovered_keeps | apply State.hallReturns_keeps | apply State.setFld_keeps | apply State.lightHall_keeps | apply State.channelsRestart_keeps | apply State.applyPreamble_keeps | apply State.remapHall_keeps | simp only [Keeps.update] | apply Keeps.ite | apply Keeps.foldl | split)

theorem State.wakeHall_keeps {z : State} (s : State) (h : Nat) : Keeps z s → Keeps z (State.wakeHall s h) := by
  intro h0
  unfold State.wakeHall
  conv => zeta
  with_reducible repeat' (first | assumption | intro _ | apply State.setFrost_keeps | apply State.setFld_keeps | apply State.lightHall_keeps | apply State.showCipherMax_keeps | apply State.showLands_keeps | apply State.applyPreamble_keeps | apply State.preload_keeps | simp only [Keeps.update] | apply Keeps.ite | apply Keeps.foldl | split)

theorem State.upFor_keeps {z : State} (s : State) (k : Nat) (h : Nat) (l : Nat) (all : Bool) (reload : List Nat) : Keeps z s → Keeps z (State.upFor s k h l all reload) := by
  intro h0
  unfold State.upFor
  conv => zeta
  with_reducible repeat' (first | assumption | intro _ | apply State.setFld_keeps | apply State.hallFault_keeps | apply State.raise_keeps | apply State.wakeHall_keeps | simp only [Keeps.update] | apply Keeps.ite | apply Keeps.foldl | split)

theorem State.frostStep_keeps {z : State} (s : State) (k : Nat) (all : Bool) (reload : List Nat) (h : Nat) : Keeps z s → Keeps z (State.frostStep s k all reload h) := by
  intro h0
  unfold State.frostStep
  conv => zeta
  with_reducible repeat' (first | assumption | intro _ | apply State.upFor_keeps | apply State.hallFault_keeps | apply State.raise_keeps | apply State.wakeHall_keeps | apply State.setFld_keeps | apply State.drainInto_keeps | apply State.setFrost_keeps | simp only [Keeps.update] | apply Keeps.ite | apply Keeps.foldl | split)

theorem State.showNext_keeps {z : State} (s : State) (k : Nat) (h : Nat) : Keeps z s → Keeps z (State.showNext s k h) := by
  intro h0
  unfold State.showNext
  conv => zeta
  with_reducible repeat' (first | assumption | intro _ | apply State.setFld_keeps | simp only [Keeps.update] | apply Keeps.ite | apply Keeps.foldl | split)

theorem State.gradesLand_keeps {z : State} (s : State) : Keeps z s → Keeps z (State.gradesLand s) := by
  intro h0
  unfold State.gradesLand
  with_reducible repeat' (first | assumption | intro _ | apply State.setFld_keeps | simp only [Keeps.update] | apply Keeps.ite | apply Keeps.foldl | split)

theorem State.newFlight_keeps {z : State} (s : State) : Keeps z s → Keeps z (State.newFlight s) := by
  intro h0
  unfold State.newFlight
  conv => zeta
  with_reducible repeat' (first | assumption | intro _ | apply State.setFld_keeps | apply State.setSeq_keeps | simp only [Keeps.update] | apply Keeps.ite | apply Keeps.foldl | split)

theorem State.drainsLand_keeps {z : State} (s : State) : Keeps z s → Keeps z (State.drainsLand s) := by
  intro h0
  unfold State.drainsLand
  with_reducible repeat' (first | assumption | intro _ | simp only [Keeps.update] | apply Keeps.ite | apply Keeps.foldl | split)

theorem State.stagedLand_keeps {z : State} (s : State) (k : Nat) : Keeps z s → Keeps z (State.stagedLand s k) := by
  intro h0
  unfold State.stagedLand
  conv => zeta
  with_reducible repeat' (first | assumption | intro _ | apply State.ageLand_keeps | apply State.ceilingsLand_keeps | apply State.bridgeLand_keeps | apply State.channelsLand_keeps | apply State.wideLand_keeps | apply State.handoffLand_keeps | apply State.drainsLand_keeps | apply State.cfgLand_keeps | simp only [Keeps.update] | apply Keeps.ite | apply Keeps.foldl | split)

theorem State.land43_keeps {z : State} (s : State) (uj : Nat) (reload : List Nat) (bad : Option (Nat × Nat × Bytes)) (k : Nat) : Keeps z s → Keeps z (State.land43 s uj reload bad k) := by
  intro h0
  unfold State.land43
  conv => zeta
  with_reducible repeat' (first | assumption | intro _ | apply State.cycFlight_keeps | apply State.compareHalves_keeps | apply State.applyOwnerChange_keeps | apply State.flightEnergy_keeps | apply State.endPlan_keeps | apply State.adminOk_keeps | apply State.clearTrust_keeps | apply State.stagedLand_keeps | apply State.newFlight_keeps | apply State.sharesLand_keeps | apply State.swapStep_keeps | apply State.gradesLand_keeps | apply State.gradeRemap_keeps | apply State.halfReturn_keeps | apply State.hallRecovers_keeps | apply State.frostStep_keeps | apply State.showNext_keeps | simp only [Keeps.update] | apply Keeps.ite | apply Keeps.foldl | split)

theorem State.gate_keeps {z : State} (s : State) (h : Nat) (issuing : Bool) : Keeps z s → Keeps z (State.gate s h issuing) := by
  intro h0
  unfold State.gate
  with_reducible repeat' (first | assumption | intro _ | apply State.setFrost_keeps | simp only [Keeps.update] | apply Keeps.ite | apply Keeps.foldl | split)

theorem State.treadHall_keeps {z : State} (s : State) (n : Nat) (err : Nat) (h : Nat) : Keeps z s → Keeps z (State.treadHall s n err h) := by
  intro h0
  unfold State.treadHall
  conv => zeta
  with_reducible repeat' (first | assumption | intro _ | apply State.learnsBefore_keeps | apply State.gate_keeps | apply State.hallFault_keeps | apply State.bump_keeps | apply State.setSeq_keeps | apply State.setFld_keeps | simp only [Keeps.update] | apply Keeps.ite | apply Keeps.foldl | split)

theorem State.snapLands_keeps {z : State} (s : State) : Keeps z s → Keeps z (State.snapLands s) := by
  intro h0
  unfold State.snapLands
  conv => zeta
  with_reducible repeat' (first | assumption | intro _ | apply State.setLand_keeps | simp only [Keeps.update] | apply Keeps.ite | apply Keeps.foldl | split)

theorem State.resumeFails_keeps {z : State} (s : State) (r : Nat) : Keeps z s → Keeps z (State.resumeFails s r) := by
  intro h0
  unfold State.resumeFails
  conv => zeta
  with_reducible repeat' (first | assumption | intro _ | apply State.endPlan_keeps | apply State.almDev_keeps | apply State.setFld_keeps | apply State.raise_keeps | apply State.eventOwner_keeps | simp only [Keeps.update] | apply Keeps.ite | apply Keeps.foldl | split)

theorem State.leaveF4_keeps {z : State} (s : State) (reason : Nat) : Keeps z s → Keeps z (State.leaveF4 s reason) := by
  intro h0
  unfold State.leaveF4
  conv => zeta
  with_reducible repeat' (first | assumption | intro _ | apply State.setFld_keeps | apply State.almDev_keeps | apply State.raise_keeps | apply State.setFrost_keeps | simp only [Keeps.update] | apply Keeps.ite | apply Keeps.foldl | split)

theorem execStandbyWake_keeps {z : State} (reason : Nat) (fail : Option Nat) (at_ : Nat) (s : State) : Keeps z s → KeepsNext z (execStandbyWake reason fail at_ s) := by
  intro h0
  unfold execStandbyWake
  conv => zeta
  with_reducible repeat' (first | assumption | intro _ | apply State.atTime_keeps | apply State.resumeFails_keeps | apply State.leaveF4_keeps | apply KeepsNext.next | apply KeepsNext.ite | simp only [Keeps.update] | apply Keeps.ite | apply Keeps.foldl | split)

end Sys2Proof.Machine
end

