-- ==== Sys2Proof/Laws/KeepsPorts.lean ====
section
/-! SUPPORT. The operations of host ports, bring-up, the package, register accesses and packets keep the queue and both memories' form: one lemma each. -/

namespace Sys2Proof.Machine

theorem State.dropRings_keeps {z : State} (s : State) (f : Nat) : Keeps z s → Keeps z (State.dropRings s f) := by
  intro h0
  unfold State.dropRings
  conv => zeta
  with_reducible repeat' (first | assumption | intro _ | apply State.nextGen_keeps | apply State.setQueue_keeps | apply State.setCq_keeps | apply State.showStage_keeps | apply State.setFld_keeps | simp only [Keeps.update] | apply Keeps.ite | apply Keeps.foldl | split)

theorem State.eraseKeysOf_keeps {z : State} (s : State) (f : Nat) : Keeps z s → Keeps z (State.eraseKeysOf s f) := by
  intro h0
  unfold State.eraseKeysOf
  conv => zeta
  with_reducible repeat' (first | assumption | intro _ | apply State.setSlot_keeps | simp only [Keeps.update] | apply Keeps.ite | apply Keeps.foldl | split)

theorem State.initPage_keeps {z : State} (s : State) (f : Nat) : Keeps z s → Keeps z (State.initPage s f) := by
  intro h0
  unfold State.initPage
  conv => zeta
  with_reducible repeat' (first | assumption | intro _ | apply State.initRange_keeps | simp only [Keeps.update] | apply Keeps.ite | apply Keeps.foldl | split)

theorem State.resetFn_keeps {z : State} (s : State) (f : Nat) : Keeps z s → Keeps z (State.resetFn s f) := by
  intro h0
  unfold State.resetFn
  conv => zeta
  with_reducible repeat' (first | assumption | intro _ | apply State.stopLog_keeps | apply State.functionFault_keeps | apply State.resetAdminRings_keeps | apply State.dropRings_keeps | apply State.initPage_keeps | apply State.eraseKeysOf_keeps | apply State.setFn_keeps | apply State.quiesced_keeps | simp only [Keeps.update] | apply Keeps.ite | apply Keeps.foldl | split)

theorem State.endVfs_keeps {z : State} (s : State) (vs : List Nat) : Keeps z s → Keeps z (State.endVfs s vs) := by
  intro h0
  unfold State.endVfs
  conv => zeta
  with_reducible repeat' (first | assumption | intro _ | apply State.resetFn_keeps | apply State.setFn_keeps | simp only [Keeps.update] | apply Keeps.ite | apply Keeps.foldl | split)

theorem State.setVfs_keeps {z : State} (s : State) (p : Nat) (en : Bool) (n : Nat) : Keeps z s → Keeps z (State.setVfs s p en n) := by
  intro h0
  unfold State.setVfs
  conv => zeta
  with_reducible repeat' (first | assumption | intro _ | apply State.endVfs_keeps | apply State.showLogs_keeps | apply State.setFld_keeps | simp only [Keeps.update] | apply Keeps.ite | apply Keeps.foldl | split)

theorem execVfEnableWrite_keeps {z : State} (p : Nat) (en : Bool) (n : Nat) (at_ : Nat) (s : State) : Keeps z s → KeepsNext z (execVfEnableWrite p en n at_ s) := by
  intro h0
  unfold execVfEnableWrite
  conv => zeta
  with_reducible repeat' (first | assumption | intro _ | apply State.atTime_keeps | apply State.setVfs_keeps | apply KeepsNext.next | apply KeepsNext.ite | simp only [Keeps.update] | apply Keeps.ite | apply Keeps.foldl | split)

theorem State.initPort_keeps {z : State} (s : State) (p : Nat) : Keeps z s → Keeps z (State.initPort s p) := by
  intro h0
  unfold State.initPort
  conv => zeta
  with_reducible repeat' (first | assumption | intro _ | apply State.setHp_keeps | apply State.setFld_keeps | simp only [Keeps.update] | apply Keeps.ite | apply Keeps.foldl | split)

theorem State.showRates_keeps {z : State} (s : State) (p : Nat) : Keeps z s → Keeps z (State.showRates s p) := by
  intro h0
  unfold State.showRates
  conv => zeta
  with_reducible repeat' (first | assumption | intro _ | apply State.setFld_keeps | apply State.raise_keeps | simp only [Keeps.update] | apply Keeps.ite | apply Keeps.foldl | split)

theorem execFlr_keeps {z : State} (f : Nat) (at_ : Nat) (s : State) : Keeps z s → KeepsNext z (execFlr f at_ s) := by
  intro h0
  unfold execFlr
  conv => zeta
  with_reducible repeat' (first | assumption | intro _ | apply State.atTime_keeps | apply State.bump_keeps | apply State.initPort_keeps | apply State.resetFn_keeps | apply State.setVfs_keeps | apply State.raise_keeps | apply State.showRates_keeps | apply State.showBlocked_keeps | apply KeepsNext.next | apply KeepsNext.ite | simp only [Keeps.update] | apply Keeps.ite | apply Keeps.foldl | split)

theorem execFlrComplete_keeps {z : State} (f : Nat) (at_ : Nat) (s : State) : Keeps z s → KeepsNext z (execFlrComplete f at_ s) := by
  intro h0
  unfold execFlrComplete
  conv => zeta
  with_reducible repeat' (first | assumption | intro _ | apply State.atTime_keeps | apply State.setFld_keeps | apply KeepsNext.next | apply KeepsNext.ite | simp only [Keeps.update] | apply Keeps.ite | apply Keeps.foldl | split)

theorem State.portReset_keeps {z : State} (s : State) (p : Nat) (cold : List Nat) : Keeps z s → Keeps z (State.portReset s p cold) := by
  intro h0
  unfold State.portReset
  conv => zeta
  with_reducible repeat' (first | assumption | intro _ | apply State.setVfs_keeps | apply State.resetFn_keeps | apply State.initPort_keeps | apply State.failLog_keeps | apply State.setHp_keeps | apply State.showTags_keeps | simp only [Keeps.update] | apply Keeps.ite | apply Keeps.foldl | split)

theorem State.linkLost_keeps {z : State} (s : State) (p : Nat) : Keeps z s → Keeps z (State.linkLost s p) := by
  intro h0
  unfold State.linkLost
  conv => zeta
  with_reducible repeat' (first | assumption | intro _ | apply State.setFld_keeps | apply State.showBlocked_keeps | simp only [Keeps.update] | apply Keeps.ite | apply Keeps.foldl | split)

theorem execPerstEdge_keeps {z : State} (p : Nat) (asserted : Bool) (at_ : Nat) (s : State) : Keeps z s → KeepsNext z (execPerstEdge p asserted at_ s) := by
  intro h0
  unfold execPerstEdge
  conv => zeta
  with_reducible repeat' (first | assumption | intro _ | apply State.atTime_keeps | apply State.setHp_keeps | apply State.setFld_keeps | apply State.portReset_keeps | apply State.linkLost_keeps | apply KeepsNext.next | apply KeepsNext.ite | simp only [Keeps.update] | apply Keeps.ite | apply Keeps.foldl | split)

theorem execHostLinkUp_keeps {z : State} (p : Nat) (gen : Nat) (width : Nat) (flit : Bool) (at_ : Nat) (s : State) : Keeps z s → KeepsNext z (execHostLinkUp p gen width flit at_ s) := by
  intro h0
  unfold execHostLinkUp
  conv => zeta
  with_reducible repeat' (first | assumption | intro _ | apply State.atTime_keeps | apply State.portReset_keeps | apply State.setFld_keeps | apply State.raise_keeps | apply State.emit_keeps | apply State.setHp_keeps | apply State.showRates_keeps | apply State.showBlocked_keeps | apply State.eventOwner_keeps | apply KeepsNext.next | apply KeepsNext.ite | simp only [Keeps.update] | apply Keeps.ite | apply Keeps.foldl | split)

theorem execHostLinkDown_keeps {z : State} (p : Nat) (at_ : Nat) (s : State) : Keeps z s → KeepsNext z (execHostLinkDown p at_ s) := by
  intro h0
  unfold execHostLinkDown
  conv => zeta
  with_reducible repeat' (first | assumption | intro _ | apply State.atTime_keeps | apply State.raise_keeps | apply State.linkLost_keeps | apply State.portReset_keeps | apply KeepsNext.next | apply KeepsNext.ite | simp only [Keeps.update] | apply Keeps.ite | apply Keeps.foldl | split)

theorem execHotReset_keeps {z : State} (p : Nat) (at_ : Nat) (s : State) : Keeps z s → KeepsNext z (execHotReset p at_ s) := by
  intro h0
  unfold execHotReset
  conv => zeta
  with_reducible repeat' (first | assumption | intro _ | apply State.atTime_keeps | apply State.linkLost_keeps | apply State.portReset_keeps | apply KeepsNext.next | apply KeepsNext.ite | simp only [Keeps.update] | apply Keeps.ite | apply Keeps.foldl | split)

theorem State.copyWins_keeps {z : State} (s : State) (f : Nat) (toLive : Bool) : Keeps z s → Keeps z (State.copyWins s f toLive) := by
  intro h0
  unfold State.copyWins
  with_reducible repeat' (first | assumption | intro _ | apply State.setWord_keeps | simp only [Keeps.update] | apply Keeps.ite | apply Keeps.foldl | split)

theorem execWinCommit_keeps {z : State} (who : Who) (f : Nat) (s : State) : Keeps z s → KeepsNext z (execWinCommit who f s) := by
  intro h0
  unfold execWinCommit
  with_reducible repeat' (first | assumption | intro _ | apply State.setFld_keeps | apply State.raise_keeps | apply State.copyWins_keeps | apply KeepsNext.next | apply KeepsNext.ite | simp only [Keeps.update] | apply Keeps.ite | apply Keeps.foldl | split)

theorem execWinLoad_keeps {z : State} (who : Who) (f : Nat) (s : State) : Keeps z s → KeepsNext z (execWinLoad who f s) := by
  intro h0
  unfold execWinLoad
  with_reducible repeat' (first | assumption | intro _ | apply State.copyWins_keeps | apply KeepsNext.next | apply KeepsNext.ite | simp only [Keeps.update] | apply Keeps.ite | apply Keeps.foldl | split)

theorem State.answerUr_keeps {z : State} (s : State) (f : Nat) (posted : Bool) : Keeps z s → Keeps z (State.answerUr s f posted) := by
  intro h0
  unfold State.answerUr
  conv => zeta
  with_reducible repeat' (first | assumption | intro _ | apply State.aer_keeps | apply State.bump_keeps | apply State.emit_keeps | simp only [Keeps.update] | apply Keeps.ite | apply Keeps.foldl | split)

theorem State.winWrite_keeps {z : State} (s : State) (k : Nat) (i : Nat) (a : Nat) (b : Bytes) : Keeps z s → Keeps z (State.winWrite s k i a b) := by
  intro h0
  unfold State.winWrite
  with_reducible repeat' (first | assumption | intro _ | apply State.putAtrium_keeps | apply State.putAlcove_keeps | simp only [Keeps.update] | apply Keeps.ite | apply Keeps.foldl | split)

theorem execBar4Request_keeps {z : State} (f : Nat) (write : Bool) (off : Nat) (len : Nat) (data : Bytes) (poisoned : Bool) (s : State) : Keeps z s → KeepsNext z (execBar4Request f write off len data poisoned s) := by
  intro h0
  unfold execBar4Request
  conv => zeta
  with_reducible repeat' (first | assumption | intro _ | apply State.answerUr_keeps | apply State.aer_keeps | apply State.bump_keeps | apply State.winWrite_keeps | apply State.emit_keeps | apply State.poisonUse_keeps | apply KeepsNext.next | apply KeepsNext.ite | simp only [Keeps.update] | apply Keeps.ite | apply Keeps.foldl | split)

theorem State.requestFailed_keeps {z : State} (s : State) (p : Nat) (what : Nat) (kind : Nat) (fn : Nat) (arg : Nat) (addr : Nat) : Keeps z s → Keeps z (State.requestFailed s p what kind fn arg addr) := by
  intro h0
  unfold State.requestFailed
  with_reducible repeat' (first | assumption | intro _ | apply State.adminFail_keeps | apply State.alm_keeps | apply State.resetAdminRings_keeps | apply State.failLog_keeps | apply State.raise_keeps | apply State.bump_keeps | apply State.dmaError_keeps | simp only [Keeps.update] | apply Keeps.ite | apply Keeps.foldl | split)

theorem State.takeReq_keeps {z : State} (s : State) (p : Nat) (tag : Nat) : Keeps z s → Keeps z (State.takeReq s p tag) := by
  intro h0
  unfold State.takeReq
  conv => zeta
  with_reducible repeat' (first | assumption | intro _ | apply State.showTags_keeps | apply State.setHp_keeps | simp only [Keeps.update] | apply Keeps.ite | apply Keeps.foldl | split)

theorem execCompletionTimeout_keeps {z : State} (p : Nat) (what : Nat) (tag : Nat) (fn : Nat) (arg : Nat) (addr : Nat) (at_ : Nat) (s : State) : Keeps z s → KeepsNext z (execCompletionTimeout p what tag fn arg addr at_ s) := by
  intro h0
  unfold execCompletionTimeout
  conv => zeta
  with_reducible repeat' (first | assumption | intro _ | apply State.atTime_keeps | apply State.takeReq_keeps | apply State.setHp_keeps | apply State.aer_keeps | apply State.bump_keeps | apply State.requestFailed_keeps | apply KeepsNext.next | apply KeepsNext.ite | simp only [Keeps.update] | apply Keeps.ite | apply Keeps.foldl | split)

theorem State.readArrived_keeps {z : State} (s : State) (r : HostReq) (data : Bytes) : Keeps z s → Keeps z (State.readArrived s r data) := by
  intro h0
  unfold State.readArrived
  conv => zeta
  with_reducible repeat' (first | assumption | intro _ | apply State.setDesc_keeps | simp only [Keeps.update] | apply Keeps.ite | apply Keeps.foldl | split)

theorem execReadCompletionRx_keeps {z : State} (p : Nat) (what : Nat) (tag : Nat) (status : Nat) (data : Bytes) (fn : Nat) (arg : Nat) (addr : Nat) (at_ : Nat) (s : State) : Keeps z s → KeepsNext z (execReadCompletionRx p what tag status data fn arg addr at_ s) := by
  intro h0
  unfold execReadCompletionRx
  conv => zeta
  with_reducible repeat' (first | assumption | intro _ | apply State.atTime_keeps | apply State.aer_keeps | apply State.requestFailed_keeps | apply State.takeReq_keeps | apply State.readArrived_keeps | apply State.setHp_keeps | apply State.bump_keeps | apply KeepsNext.next | apply KeepsNext.ite | simp only [Keeps.update] | apply Keeps.ite | apply Keeps.foldl | split)

theorem State.showMapPending_keeps {z : State} (s : State) : Keeps z s → Keeps z (State.showMapPending s) := by
  intro h0
  unfold State.showMapPending
  with_reducible repeat' (first | assumption | intro _ | apply State.setFld_keeps | simp only [Keeps.update] | apply Keeps.ite | apply Keeps.foldl | split)

theorem State.takeMap_keeps {z : State} (s : State) : Keeps z s → Keeps z (State.takeMap s) := by
  intro h0
  unfold State.takeMap
  conv => zeta
  with_reducible repeat' (first | assumption | intro _ | apply State.showMapPending_keeps | apply State.setFld_keeps | apply State.setWord_keeps | apply State.almDev_keeps | apply State.raise_keeps | simp only [Keeps.update] | apply Keeps.ite | apply Keeps.foldl | split)

theorem State.portsAfter_keeps {z : State} (s : State) (old : State) : Keeps z s → Keeps z (State.portsAfter s old) := by
  intro h0
  unfold State.portsAfter
  conv => zeta
  with_reducible repeat' (first | assumption | intro _ | apply State.setFld_keeps | apply State.linkLost_keeps | apply State.takeMap_keeps | simp only [Keeps.update] | apply Keeps.ite | apply Keeps.foldl | split)

theorem State.trustAfter_keeps {z : State} (s : State) (old : State) : Keeps z s → Keeps z (State.trustAfter s old) := by
  intro h0
  unfold State.trustAfter
  conv => zeta
  with_reducible repeat' (first | assumption | intro _ | apply State.setFld_keeps | apply State.showPlanKeys_keeps | simp only [Keeps.update] | apply Keeps.ite | apply Keeps.foldl | split)

theorem State.powerReset_keeps {z : State} (s : State) : Keeps z s → Keeps z (State.powerReset s) := by
  intro h0
  unfold State.powerReset
  conv => zeta
  with_reducible repeat' (first | assumption | intro _ | apply State.trustAfter_keeps | apply State.portsAfter_keeps | apply Keeps.powerDown | apply Keeps.fresh | simp only [Keeps.update] | apply Keeps.ite | apply Keeps.foldl | split)

theorem execPowerGood_keeps {z : State} (s : State) : Keeps z s → KeepsNext z (execPowerGood s) := by
  intro h0
  unfold execPowerGood
  conv => zeta
  with_reducible repeat' (first | assumption | intro _ | apply State.powerReset_keeps | apply State.newNonce_keeps | apply State.almDev_keeps | apply State.raise_keeps | apply KeepsNext.next | apply KeepsNext.ite | simp only [Keeps.update] | apply Keeps.ite | apply Keeps.foldl | split)

theorem State.powerOff_keeps {z : State} (s : State) : Keeps z s → Keeps z (State.powerOff s) := by
  intro h0
  unfold State.powerOff
  with_reducible repeat' (first | assumption | intro _ | apply State.powerReset_keeps | simp only [Keeps.update] | apply Keeps.ite | apply Keeps.foldl | split)

theorem State.arbiterAfter_keeps {z : State} (s : State) : Keeps z s → Keeps z (State.arbiterAfter s) := by
  intro h0
  unfold State.arbiterAfter
  conv => zeta
  with_reducible repeat' (first | assumption | intro _ | apply State.applyOwnerChange_keeps | simp only [Keeps.update] | apply Keeps.ite | apply Keeps.foldl | split)

theorem State.hallsAfter_keeps {z : State} (s : State) : Keeps z s → Keeps z (State.hallsAfter s) := by
  intro h0
  unfold State.hallsAfter
  conv => zeta
  with_reducible repeat' (first | assumption | intro _ | apply State.bump_keeps | apply State.setFrost_keeps | apply State.setFld_keeps | apply State.setWord_keeps | simp only [Keeps.update] | apply Keeps.ite | apply Keeps.foldl | split)

theorem State.deviceReset_keeps {z : State} (s : State) : Keeps z s → Keeps z (State.deviceReset s) := by
  intro h0
  unfold State.deviceReset
  conv => zeta
  with_reducible repeat' (first | assumption | intro _ | apply State.arbiterAfter_keeps | apply State.hallsAfter_keeps | apply State.setFld_keeps | apply State.portsAfter_keeps | apply State.almDev_keeps | apply State.raise_keeps | apply State.emit_keeps | apply Keeps.powerDown | apply Keeps.fresh | simp only [Keeps.update] | apply Keeps.ite | apply Keeps.foldl | split)

theorem State.warmReset_keeps {z : State} (s : State) : Keeps z s → Keeps z (State.warmReset s) := by
  intro h0
  unfold State.warmReset
  conv => zeta
  with_reducible repeat' (first | assumption | intro _ | apply State.initRange_keeps | apply State.setFld_keeps | apply State.almDev_keeps | apply State.enterHoldover_keeps | simp only [Keeps.update] | apply Keeps.ite | apply Keeps.foldl | split)

theorem execDeviceReset_keeps {z : State} (at_ : Nat) (s : State) : Keeps z s → KeepsNext z (execDeviceReset at_ s) := by
  intro h0
  unfold execDeviceReset
  with_reducible repeat' (first | assumption | intro _ | apply State.deviceReset_keeps | apply State.atTime_keeps | apply KeepsNext.next | apply KeepsNext.ite | simp only [Keeps.update] | apply Keeps.ite | apply Keeps.foldl | split)

theorem execWarmReset_keeps {z : State} (at_ : Nat) (s : State) : Keeps z s → KeepsNext z (execWarmReset at_ s) := by
  intro h0
  unfold execWarmReset
  with_reducible repeat' (first | assumption | intro _ | apply State.warmReset_keeps | apply State.atTime_keeps | apply KeepsNext.next | apply KeepsNext.ite | simp only [Keeps.update] | apply Keeps.ite | apply Keeps.foldl | split)

theorem execOwnDeviceReset_keeps {z : State} (d : AdminCmd) (at_ : Nat) (s : State) : Keeps z s → KeepsNext z (execOwnDeviceReset d at_ s) := by
  intro h0
  unfold execOwnDeviceReset
  conv => zeta
  with_reducible repeat' (first | assumption | intro _ | apply State.atTime_keeps | apply State.admin_keeps | apply State.warmReset_keeps | apply State.adminOk_keeps | apply State.deviceReset_keeps | apply KeepsNext.next | apply KeepsNext.ite | simp only [Keeps.update] | apply Keeps.ite | apply Keeps.foldl | split)

theorem execFirmwareWatchdog_keeps {z : State} (at_ : Nat) (s : State) : Keeps z s → KeepsNext z (execFirmwareWatchdog at_ s) := by
  intro h0
  unfold execFirmwareWatchdog
  conv => zeta
  with_reducible repeat' (first | assumption | intro _ | apply State.atTime_keeps | apply State.warmReset_keeps | apply State.almDev_keeps | apply State.raise_keeps | apply KeepsNext.next | apply KeepsNext.ite | simp only [Keeps.update] | apply Keeps.ite | apply Keeps.foldl | split)

theorem execDeviceFaultReset_keeps {z : State} (at_ : Nat) (s : State) : Keeps z s → KeepsNext z (execDeviceFaultReset at_ s) := by
  intro h0
  unfold execDeviceFaultReset
  conv => zeta
  with_reducible repeat' (first | assumption | intro _ | apply State.atTime_keeps | apply State.deviceReset_keeps | apply KeepsNext.next | apply KeepsNext.ite | simp only [Keeps.update] | apply Keeps.ite | apply Keeps.foldl | split)

theorem execCommissionClear_keeps {z : State} (d : AdminCmd) (b : Bytes) (s : State) : Keeps z s → KeepsNext z (execCommissionClear d b s) := by
  intro h0
  unfold execCommissionClear
  with_reducible repeat' (first | assumption | intro _ | apply State.signed_keeps | apply State.refused_keeps | apply State.newNonce_keeps | apply State.adminOk_keeps | apply State.clearTrust_keeps | apply KeepsNext.next | apply KeepsNext.ite | simp only [Keeps.update] | apply Keeps.ite | apply Keeps.foldl | split)

theorem State.alertOn_keeps {z : State} (s : State) : Keeps z s → Keeps z (State.alertOn s) := by
  intro h0
  unfold State.alertOn
  with_reducible repeat' (first | assumption | intro _ | apply State.emit_keeps | simp only [Keeps.update] | apply Keeps.ite | apply Keeps.foldl | split)

theorem State.thermLatch_keeps {z : State} (s : State) (bit : Nat) : Keeps z s → Keeps z (State.thermLatch s bit) := by
  intro h0
  unfold State.thermLatch
  with_reducible repeat' (first | assumption | intro _ | apply State.alertOn_keeps | apply State.almDev_keeps | apply State.setFld_keeps | simp only [Keeps.update] | apply Keeps.ite | apply Keeps.foldl | split)

theorem execInputUv_keeps {z : State} (at_ : Nat) (s : State) : Keeps z s → KeepsNext z (execInputUv at_ s) := by
  intro h0
  unfold execInputUv
  conv => zeta
  with_reducible repeat' (first | assumption | intro _ | apply State.atTime_keeps | apply State.thermLatch_keeps | apply KeepsNext.next | apply KeepsNext.ite | simp only [Keeps.update] | apply Keeps.ite | apply Keeps.foldl | split)

theorem execInputUvRearm_keeps {z : State} (at_ : Nat) (s : State) : Keeps z s → KeepsNext z (execInputUvRearm at_ s) := by
  intro h0
  unfold execInputUvRearm
  conv => zeta
  with_reducible repeat' (first | assumption | intro _ | apply State.atTime_keeps | apply KeepsNext.next | apply KeepsNext.ite | simp only [Keeps.update] | apply Keeps.ite | apply Keeps.foldl | split)

theorem execSupplyShutdown_keeps {z : State} (at_ : Nat) (s : State) : Keeps z s → KeepsNext z (execSupplyShutdown at_ s) := by
  intro h0
  unfold execSupplyShutdown
  with_reducible repeat' (first | assumption | intro _ | apply State.powerOff_keeps | apply State.atTime_keeps | apply KeepsNext.next | apply KeepsNext.ite | simp only [Keeps.update] | apply Keeps.ite | apply Keeps.foldl | split)

theorem execOvervoltage_keeps {z : State} (at_ : Nat) (s : State) : Keeps z s → KeepsNext z (execOvervoltage at_ s) := by
  intro h0
  unfold execOvervoltage
  with_reducible repeat' (first | assumption | intro _ | apply State.powerOff_keeps | apply State.atTime_keeps | apply KeepsNext.next | apply KeepsNext.ite | simp only [Keeps.update] | apply Keeps.ite | apply Keeps.foldl | split)

theorem execModuleOvercurrent_keeps {z : State} (b : Nat) (at_ : Nat) (s : State) : Keeps z s → KeepsNext z (execModuleOvercurrent b at_ s) := by
  intro h0
  unfold execModuleOvercurrent
  conv => zeta
  with_reducible repeat' (first | assumption | intro _ | apply State.atTime_keeps | apply State.setFld_keeps | apply State.portDown_keeps | apply KeepsNext.next | apply KeepsNext.ite | simp only [Keeps.update] | apply Keeps.ite | apply Keeps.foldl | split)

theorem execModuleSupplyRetry_keeps {z : State} (b : Nat) (at_ : Nat) (s : State) : Keeps z s → KeepsNext z (execModuleSupplyRetry b at_ s) := by
  intro h0
  unfold execModuleSupplyRetry
  conv => zeta
  with_reducible repeat' (first | assumption | intro _ | apply State.atTime_keeps | apply State.train_keeps | apply KeepsNext.next | apply KeepsNext.ite | simp only [Keeps.update] | apply Keeps.ite | apply Keeps.foldl | split)

theorem State.lidSample_keeps {z : State} (s : State) (t : Int) : Keeps z s → Keeps z (State.lidSample s t) := by
  intro h0
  unfold State.lidSample
  conv => zeta
  with_reducible repeat' (first | assumption | intro _ | apply State.thermLatch_keeps | simp only [Keeps.update] | apply Keeps.ite | apply Keeps.foldl | split)

theorem State.junctionSample_keeps {z : State} (s : State) (t : Int) : Keeps z s → Keeps z (State.junctionSample s t) := by
  intro h0
  unfold State.junctionSample
  conv => zeta
  with_reducible repeat' (first | assumption | intro _ | apply State.thermLatch_keeps | simp only [Keeps.update] | apply Keeps.ite | apply Keeps.foldl | split)

theorem execThermalSample_keeps {z : State} (lid : Bool) (t : Int) (at_ : Nat) (s : State) : Keeps z s → KeepsNext z (execThermalSample lid t at_ s) := by
  intro h0
  unfold execThermalSample
  conv => zeta
  with_reducible repeat' (first | assumption | intro _ | apply State.atTime_keeps | apply State.lidSample_keeps | apply State.junctionSample_keeps | apply KeepsNext.next | apply KeepsNext.ite | simp only [Keeps.update] | apply Keeps.ite | apply Keeps.foldl | split)

theorem execThermalTrip_keeps {z : State} (at_ : Nat) (s : State) : Keeps z s → KeepsNext z (execThermalTrip at_ s) := by
  intro h0
  unfold execThermalTrip
  conv => zeta
  with_reducible repeat' (first | assumption | intro _ | apply State.atTime_keeps | apply State.emit_keeps | apply State.deviceFaults_keeps | apply KeepsNext.next | apply KeepsNext.ite | simp only [Keeps.update] | apply Keeps.ite | apply Keeps.foldl | split)

theorem execThermalHoldEnd_keeps {z : State} (at_ : Nat) (s : State) : Keeps z s → KeepsNext z (execThermalHoldEnd at_ s) := by
  intro h0
  unfold execThermalHoldEnd
  conv => zeta
  with_reducible repeat' (first | assumption | intro _ | apply State.atTime_keeps | apply State.emit_keeps | apply KeepsNext.next | apply KeepsNext.ite | simp only [Keeps.update] | apply Keeps.ite | apply Keeps.foldl | split)

theorem State.smbRead_keeps {z : State} (s : State) (pec : Bool) (code : Nat) (n : Nat) (v : Nat) : Keeps z s → Keeps z (State.smbRead s pec code n v) := by
  intro h0
  unfold State.smbRead
  with_reducible repeat' (first | assumption | intro _ | apply State.emit_keeps | simp only [Keeps.update] | apply Keeps.ite | apply Keeps.foldl | split)

theorem execSmbStatus_keeps {z : State} (pec : Bool) (s : State) : Keeps z s → KeepsNext z (execSmbStatus pec s) := by
  intro h0
  unfold execSmbStatus
  conv => zeta
  with_reducible repeat' (first | assumption | intro _ | apply State.smbRead_keeps | apply State.emit_keeps | apply KeepsNext.next | apply KeepsNext.ite | simp only [Keeps.update] | apply Keeps.ite | apply Keeps.foldl | split)

theorem execSmbLidTemp_keeps {z : State} (pec : Bool) (s : State) : Keeps z s → KeepsNext z (execSmbLidTemp pec s) := by
  intro h0
  unfold execSmbLidTemp
  with_reducible repeat' (first | assumption | intro _ | apply State.smbRead_keeps | apply KeepsNext.next | apply KeepsNext.ite | simp only [Keeps.update] | apply Keeps.ite | apply Keeps.foldl | split)

theorem execSmbTjMax_keeps {z : State} (pec : Bool) (s : State) : Keeps z s → KeepsNext z (execSmbTjMax pec s) := by
  intro h0
  unfold execSmbTjMax
  with_reducible repeat' (first | assumption | intro _ | apply State.smbRead_keeps | apply KeepsNext.next | apply KeepsNext.ite | simp only [Keeps.update] | apply Keeps.ite | apply Keeps.foldl | split)

theorem execSmbVin_keeps {z : State} (pec : Bool) (mv : Nat) (s : State) : Keeps z s → KeepsNext z (execSmbVin pec mv s) := by
  intro h0
  unfold execSmbVin
  with_reducible repeat' (first | assumption | intro _ | apply State.smbRead_keeps | apply KeepsNext.next | apply KeepsNext.ite | simp only [Keeps.update] | apply Keeps.ite | apply Keeps.foldl | split)

theorem execSmbIin_keeps {z : State} (pec : Bool) (ma : Nat) (s : State) : Keeps z s → KeepsNext z (execSmbIin pec ma s) := by
  intro h0
  unfold execSmbIin
  with_reducible repeat' (first | assumption | intro _ | apply State.smbRead_keeps | apply KeepsNext.next | apply KeepsNext.ite | simp only [Keeps.update] | apply Keeps.ite | apply Keeps.foldl | split)

theorem execSmbPin_keeps {z : State} (pec : Bool) (units : Nat) (s : State) : Keeps z s → KeepsNext z (execSmbPin pec units s) := by
  intro h0
  unfold execSmbPin
  with_reducible repeat' (first | assumption | intro _ | apply State.smbRead_keeps | apply KeepsNext.next | apply KeepsNext.ite | simp only [Keeps.update] | apply Keeps.ite | apply Keeps.foldl | split)

theorem execSmbPdev_keeps {z : State} (pec : Bool) (units : Nat) (s : State) : Keeps z s → KeepsNext z (execSmbPdev pec units s) := by
  intro h0
  unfold execSmbPdev
  with_reducible repeat' (first | assumption | intro _ | apply State.smbRead_keeps | apply KeepsNext.next | apply KeepsNext.ite | simp only [Keeps.update] | apply Keeps.ite | apply Keeps.foldl | split)

theorem execSmbPmod_keeps {z : State} (pec : Bool) (units : Nat) (s : State) : Keeps z s → KeepsNext z (execSmbPmod pec units s) := by
  intro h0
  unfold execSmbPmod
  with_reducible repeat' (first | assumption | intro _ | apply State.smbRead_keeps | apply KeepsNext.next | apply KeepsNext.ite | simp only [Keeps.update] | apply Keeps.ite | apply Keeps.foldl | split)

theorem execSmbBoot_keeps {z : State} (pec : Bool) (s : State) : Keeps z s → KeepsNext z (execSmbBoot pec s) := by
  intro h0
  unfold execSmbBoot
  with_reducible repeat' (first | assumption | intro _ | apply State.smbRead_keeps | apply KeepsNext.next | apply KeepsNext.ite | simp only [Keeps.update] | apply Keeps.ite | apply Keeps.foldl | split)

theorem execSmbSerial_keeps {z : State} (pec : Bool) (s : State) : Keeps z s → KeepsNext z (execSmbSerial pec s) := by
  intro h0
  unfold execSmbSerial
  with_reducible repeat' (first | assumption | intro _ | apply State.smbRead_keeps | apply KeepsNext.next | apply KeepsNext.ite | simp only [Keeps.update] | apply Keeps.ite | apply Keeps.foldl | split)

theorem execSmbIdcode_keeps {z : State} (pec : Bool) (s : State) : Keeps z s → KeepsNext z (execSmbIdcode pec s) := by
  intro h0
  unfold execSmbIdcode
  with_reducible repeat' (first | assumption | intro _ | apply State.smbRead_keeps | apply KeepsNext.next | apply KeepsNext.ite | simp only [Keeps.update] | apply Keeps.ite | apply Keeps.foldl | split)

theorem execSmbDeviceReset_keeps {z : State} (pec : Bool) (value : Nat) (at_ : Nat) (s : State) : Keeps z s → KeepsNext z (execSmbDeviceReset pec value at_ s) := by
  intro h0
  unfold execSmbDeviceReset
  conv => zeta
  with_reducible repeat' (first | assumption | intro _ | apply State.atTime_keeps | apply State.deviceReset_keeps | apply KeepsNext.next | apply KeepsNext.ite | simp only [Keeps.update] | apply Keeps.ite | apply Keeps.foldl | split)

theorem State.tap_keeps {z : State} (s : State) (i : Nat) : Keeps z s → Keeps z (State.tap s i) := by
  intro h0
  unfold State.tap
  with_reducible repeat' (first | assumption | intro _ | simp only [Keeps.update] | apply Keeps.ite | apply Keeps.foldl | split)

theorem execJtagExtest_keeps {z : State} (drive : Nat) (sample : Nat) (s : State) : Keeps z s → KeepsNext z (execJtagExtest drive sample s) := by
  intro h0
  unfold execJtagExtest
  conv => zeta
  with_reducible repeat' (first | assumption | intro _ | apply State.tap_keeps | apply State.emit_keeps | apply KeepsNext.next | apply KeepsNext.ite | simp only [Keeps.update] | apply Keeps.ite | apply Keeps.foldl | split)

theorem execJtagSamplePreload_keeps {z : State} (preload : Nat) (sample : Nat) (s : State) : Keeps z s → KeepsNext z (execJtagSamplePreload preload sample s) := by
  intro h0
  unfold execJtagSamplePreload
  conv => zeta
  with_reducible repeat' (first | assumption | intro _ | apply State.tap_keeps | apply State.emit_keeps | apply KeepsNext.next | apply KeepsNext.ite | simp only [Keeps.update] | apply Keeps.ite | apply Keeps.foldl | split)

theorem execJtagIdcode_keeps {z : State} (s : State) : Keeps z s → KeepsNext z (execJtagIdcode s) := by
  intro h0
  unfold execJtagIdcode
  with_reducible repeat' (first | assumption | intro _ | apply State.emit_keeps | apply State.tap_keeps | apply KeepsNext.next | apply KeepsNext.ite | simp only [Keeps.update] | apply Keeps.ite | apply Keeps.foldl | split)

theorem execJtagClamp_keeps {z : State} (s : State) : Keeps z s → KeepsNext z (execJtagClamp s) := by
  intro h0
  unfold execJtagClamp
  conv => zeta
  with_reducible repeat' (first | assumption | intro _ | apply State.tap_keeps | apply State.emit_keeps | apply KeepsNext.next | apply KeepsNext.ite | simp only [Keeps.update] | apply Keeps.ite | apply Keeps.foldl | split)

theorem execJtagHighz_keeps {z : State} (s : State) : Keeps z s → KeepsNext z (execJtagHighz s) := by
  intro h0
  unfold execJtagHighz
  conv => zeta
  with_reducible repeat' (first | assumption | intro _ | apply State.tap_keeps | apply State.emit_keeps | apply KeepsNext.next | apply KeepsNext.ite | simp only [Keeps.update] | apply Keeps.ite | apply Keeps.foldl | split)

theorem execJtagBypass_keeps {z : State} (s : State) : Keeps z s → KeepsNext z (execJtagBypass s) := by
  intro h0
  unfold execJtagBypass
  with_reducible repeat' (first | assumption | intro _ | apply State.emit_keeps | apply State.tap_keeps | apply KeepsNext.next | apply KeepsNext.ite | simp only [Keeps.update] | apply Keeps.ite | apply Keeps.foldl | split)

theorem execJtagTestLogicReset_keeps {z : State} (at_ : Nat) (s : State) : Keeps z s → KeepsNext z (execJtagTestLogicReset at_ s) := by
  intro h0
  unfold execJtagTestLogicReset
  conv => zeta
  with_reducible repeat' (first | assumption | intro _ | apply State.atTime_keeps | apply State.deviceReset_keeps | apply KeepsNext.next | apply KeepsNext.ite | simp only [Keeps.update] | apply Keeps.ite | apply Keeps.foldl | split)

theorem answered_keeps {z : State} (s : State) (o : Answer) : Keeps z s → KeepsNext z o → KeepsFst z (answered s o) := by
  intro h0 h1
  unfold answered
  split
  · split
    · exact Keeps.update.2 h1
    · exact h1
  · exact h0

theorem State.touch_keeps {z : State} (s : State) (h : Nat) : Keeps z s → Keeps z (State.touch s h) := by
  intro h0
  unfold State.touch
  conv => zeta
  with_reducible repeat' (first | assumption | intro _ | apply State.setSeq_keeps | apply State.setFrost_keeps | simp only [Keeps.update] | apply Keeps.ite | apply Keeps.foldl | split)

theorem State.await_keeps {z : State} (s : State) (h : Nat) (who : Who) (a : Nat) (act : HallAct) : Keeps z s → Keeps z (State.await s h who a act) := by
  intro h0
  unfold State.await
  with_reducible repeat' (first | assumption | intro _ | simp only [Keeps.update] | apply Keeps.ite | apply Keeps.foldl | split)

theorem State.readReg_keeps {z : State} (s : State) (who : Who) (r : Reg) (o : Nat) (i : Nat) (at_ : Nat) : Keeps z s → KeepsFst z (State.readReg s who r o i at_) := by
  intro h0
  unfold State.readReg
  with_reducible repeat' (first | assumption | intro _ | apply answered_keeps | apply execTbNowRead_keeps | apply execLnTxtsInfoRead_keeps | apply execEvtCapInfoRead_keeps | apply execBpmAlarmNextRead_keeps | apply execFwdAuditFailRead_keeps | apply State.latch_keeps | simp only [KeepsFst.pair] | apply KeepsFst.ite | apply KeepsFst.foldl | simp only [Keeps.update] | apply Keeps.ite | apply Keeps.foldl | (refine Keeps.fst (by assumption) ?_) | apply KeepsFst.first | split)

theorem State.readSeen_keeps {z : State} (s : State) (who : Who) (a : Nat) (at_ : Nat) : Keeps z s → KeepsFst z (State.readSeen s who a at_) := by
  intro h0
  unfold State.readSeen
  conv => zeta
  with_reducible repeat' (first | assumption | intro _ | apply State.readReg_keeps | simp only [KeepsFst.pair] | apply KeepsFst.ite | apply KeepsFst.foldl | simp only [Keeps.update] | apply Keeps.ite | apply Keeps.foldl | (refine Keeps.fst (by assumption) ?_) | apply KeepsFst.first | split)

theorem State.readWord_keeps {z : State} (s : State) (who : Who) (a : Nat) (at_ : Nat) : Keeps z s → KeepsFst z (State.readWord s who a at_) := by
  intro h0
  unfold State.readWord
  conv => zeta
  with_reducible repeat' (first | assumption | intro _ | apply State.atTime_keeps | apply State.readSeen_keeps | simp only [KeepsFst.pair] | apply KeepsFst.ite | apply KeepsFst.foldl | simp only [Keeps.update] | apply Keeps.ite | apply Keeps.foldl | (refine Keeps.fst (by assumption) ?_) | apply KeepsFst.first | split)

theorem State.readRun_keeps {z : State} (s : State) (who : Who) (a : Nat) (at_ : Nat) (v4 : Nat) : Keeps z s → KeepsFst z (State.readRun s who a at_ v4) := by
  induction v4 generalizing s who a at_ with
  | zero =>
    intro h0
    unfold State.readRun
    conv => zeta
    with_reducible repeat' (first | assumption | intro _ | apply State.readSeen_keeps | simp only [KeepsFst.pair] | apply KeepsFst.ite | apply KeepsFst.foldl | simp only [Keeps.update] | apply Keeps.ite | apply Keeps.foldl | (refine Keeps.fst (by assumption) ?_) | apply KeepsFst.first | split)
  | succ n ih =>
    intro h0
    unfold State.readRun
    conv => zeta
    with_reducible repeat' (first | assumption | intro _ | apply ih | apply State.readSeen_keeps | simp only [KeepsFst.pair] | apply KeepsFst.ite | apply KeepsFst.foldl | simp only [Keeps.update] | apply Keeps.ite | apply Keeps.foldl | (refine Keeps.fst (by assumption) ?_) | apply KeepsFst.first | split)

theorem State.finishLoad_keeps {z : State} (s : State) (who : Who) (a : Nat) (len : Nat) : Keeps z s → Keeps z (State.finishLoad s who a len) := by
  intro h0
  unfold State.finishLoad
  conv => zeta
  with_reducible repeat' (first | assumption | intro _ | apply State.readRun_keeps | apply State.emit_keeps | simp only [KeepsFst.pair] | apply KeepsFst.ite | apply KeepsFst.foldl | simp only [Keeps.update] | apply Keeps.ite | apply Keeps.foldl | (refine Keeps.fst (by assumption) ?_) | apply KeepsFst.first | split)

theorem State.putReg_keeps {z : State} (s : State) (who : Who) (r : Reg) (o : Nat) (i : Nat) (v : Nat) : Keeps z s → Keeps z (State.putReg s who r o i v) := by
  intro h0
  unfold State.putReg
  conv => zeta
  with_reducible repeat' (first | assumption | intro _ | apply State.setWord_keeps | simp only [Keeps.update] | apply Keeps.ite | apply Keeps.foldl | split)

theorem State.staged_keeps {z : State} (s : State) : Keeps z s → Keeps z (State.staged s) := by
  intro h0
  unfold State.staged
  with_reducible repeat' (first | assumption | intro _ | apply State.raise_keeps | apply State.wideLand_keeps | simp only [Keeps.update] | apply Keeps.ite | apply Keeps.foldl | split)

theorem State.commitPair_keeps {z : State} (s : State) (who : Who) (lo : Reg) (hi : Reg) (o : Nat) (i : Nat) (v : Nat) : Keeps z s → Keeps z (State.commitPair s who lo hi o i v) := by
  intro h0
  unfold State.commitPair
  conv => zeta
  with_reducible repeat' (first | assumption | intro _ | apply State.putReg_keeps | simp only [Keeps.update] | apply Keeps.ite | apply Keeps.foldl | split)

theorem stateOf_keeps {z : State} (s : State) (o : Answer) : Keeps z s → KeepsNext z o → Keeps z (stateOf s o) := by
  intro h0 h1
  unfold stateOf
  split
  · exact h1
  · exact h0

theorem State.writeReg_keeps {z : State} (s : State) (who : Who) (r : Reg) (o : Nat) (i : Nat) (v : Nat) (at_ : Nat) : Keeps z s → Keeps z (State.writeReg s who r o i v at_) := by
  intro h0
  unfold State.writeReg
  conv => zeta
  with_reducible repeat' (first | assumption | intro _ | apply stateOf_keeps | apply execStandbyRequest_keeps | apply execTbCtrlWrite_keeps | apply execTbRateWrite_keeps | apply execTbStepWrite_keeps | apply State.latch_keeps | apply execTbSetCommit_keeps | apply execTbOriginWrite_keeps | apply execOwnRenew_keeps | apply execEvtHostWrite_keeps | apply execSicSgi_keeps | apply execSicCoreComplete_keeps | apply execSicCoreFlush_keeps | apply execSicSrcPendClear_keeps | apply State.putReg_keeps | apply execAlmUnfreeze_keeps | apply execWdogKick_keeps | apply execAqCfgWrite_keeps | apply execAcqCfgWrite_keeps | apply execAuditShadowWrite_keeps | apply execDmaChCfgWrite_keeps | apply execDmaChStart_keeps | apply execDmaChKick_keeps | apply execWinCommit_keeps | apply execWinLoad_keeps | apply State.showMapPending_keeps | apply execEyeNow_keeps | apply State.wideLand_keeps | apply State.setFld_keeps | apply State.ageLand_keeps | apply State.commitPair_keeps | apply State.staged_keeps | simp only [Keeps.update] | apply Keeps.ite | apply Keeps.foldl | split)

theorem State.msixWrite_keeps {z : State} (s : State) (f : Nat) (off : Nat) (v : Nat) : Keeps z s → Keeps z (State.msixWrite s f off v) := by
  intro h0
  unfold State.msixWrite
  conv => zeta
  with_reducible repeat' (first | assumption | intro _ | apply State.sendPending_keeps | apply State.setFn_keeps | simp only [Keeps.update] | apply Keeps.ite | apply Keeps.foldl | split)

theorem State.writeSeen_keeps {z : State} (s : State) (who : Who) (a : Nat) (v : Nat) (at_ : Nat) : Keeps z s → Keeps z (State.writeSeen s who a v at_) := by
  intro h0
  unfold State.writeSeen
  conv => zeta
  with_reducible repeat' (first | assumption | intro _ | apply State.msixWrite_keeps | apply State.writeReg_keeps | simp only [Keeps.update] | apply Keeps.ite | apply Keeps.foldl | split)

theorem State.writeWord_keeps {z : State} (s : State) (who : Who) (a : Nat) (v : Nat) (at_ : Nat) : Keeps z s → Keeps z (State.writeWord s who a v at_) := by
  intro h0
  unfold State.writeWord
  conv => zeta
  with_reducible repeat' (first | assumption | intro _ | apply State.atTime_keeps | apply State.await_keeps | apply State.writeSeen_keeps | simp only [Keeps.update] | apply Keeps.ite | apply Keeps.foldl | split)

theorem execLowWordRead_keeps {z : State} (who : Who) (addr : Nat) (at_ : Nat) (s : State) : Keeps z s → KeepsNext z (execLowWordRead who addr at_ s) := by
  intro h0
  unfold execLowWordRead
  conv => zeta
  with_reducible repeat' (first | assumption | intro _ | apply State.atTime_keeps | apply State.await_keeps | apply State.readWord_keeps | apply State.answer_keeps | apply KeepsNext.next | apply KeepsNext.ite | simp only [KeepsFst.pair] | apply KeepsFst.ite | apply KeepsFst.foldl | simp only [Keeps.update] | apply Keeps.ite | apply Keeps.foldl | (refine Keeps.fst (by assumption) ?_) | apply KeepsFst.first | split)

theorem execHighWordCommit_keeps {z : State} (who : Who) (addr : Nat) (value : Nat) (at_ : Nat) (s : State) : Keeps z s → KeepsNext z (execHighWordCommit who addr value at_ s) := by
  intro h0
  unfold execHighWordCommit
  with_reducible repeat' (first | assumption | intro _ | apply State.writeWord_keeps | apply State.atTime_keeps | apply KeepsNext.next | apply KeepsNext.ite | simp only [Keeps.update] | apply Keeps.ite | apply Keeps.foldl | split)

theorem execRegisterWrite_keeps {z : State} (who : Who) (addr : Nat) (value : Nat) (at_ : Nat) (s : State) : Keeps z s → KeepsNext z (execRegisterWrite who addr value at_ s) := by
  intro h0
  unfold execRegisterWrite
  with_reducible repeat' (first | assumption | intro _ | apply State.writeWord_keeps | apply KeepsNext.next | apply KeepsNext.ite | simp only [Keeps.update] | apply Keeps.ite | apply Keeps.foldl | split)

theorem State.readWords_keeps {z : State} (s : State) (f : Nat) (off : Nat) (at_ : Nat) (v4 : Nat) : Keeps z s → KeepsFst z (State.readWords s f off at_ v4) := by
  induction v4 generalizing s f off at_ with
  | zero =>
    intro h0
    unfold State.readWords
    conv => zeta
    with_reducible repeat' (first | assumption | intro _ | apply State.readWord_keeps | simp only [KeepsFst.pair] | apply KeepsFst.ite | apply KeepsFst.foldl | simp only [Keeps.update] | apply Keeps.ite | apply Keeps.foldl | (refine Keeps.fst (by assumption) ?_) | apply KeepsFst.first | split)
  | succ n ih =>
    intro h0
    unfold State.readWords
    conv => zeta
    with_reducible repeat' (first | assumption | intro _ | apply ih | apply State.readWord_keeps | simp only [KeepsFst.pair] | apply KeepsFst.ite | apply KeepsFst.foldl | simp only [Keeps.update] | apply Keeps.ite | apply Keeps.foldl | (refine Keeps.fst (by assumption) ?_) | apply KeepsFst.first | split)

theorem State.writeBar0_keeps {z : State} (s : State) (f : Nat) (off : Nat) (v : Nat) (at_ : Nat) : Keeps z s → Keeps z (State.writeBar0 s f off v at_) := by
  intro h0
  unfold State.writeBar0
  with_reducible repeat' (first | assumption | intro _ | apply State.writeWord_keeps | simp only [Keeps.update] | apply Keeps.ite | apply Keeps.foldl | split)

theorem State.bar0Write_keeps {z : State} (s : State) (f : Nat) (off : Nat) (b : Bytes) (at_ : Nat) : Keeps z s → Keeps z (State.bar0Write s f off b at_) := by
  intro h0
  unfold State.bar0Write
  with_reducible repeat' (first | assumption | intro _ | apply State.writeBar0_keeps | apply State.bump_keeps | simp only [Keeps.update] | apply Keeps.ite | apply Keeps.foldl | split)

theorem State.bellWrite_keeps {z : State} (s : State) (f : Nat) (off : Nat) (b : Bytes) : Keeps z s → Keeps z (State.bellWrite s f off b) := by
  intro h0
  unfold State.bellWrite
  conv => zeta
  with_reducible repeat' (first | assumption | intro _ | apply State.bellIgnored_keeps | apply stateOf_keeps | apply execDoorbellProducer_keeps | apply execDoorbellRearm_keeps | apply execDoorbellConsumer_keeps | apply execCqModerationWrite_keeps | simp only [Keeps.update] | apply Keeps.ite | apply Keeps.foldl | split)

theorem State.writePm_keeps {z : State} (s : State) (f : Nat) (v : Nat) (at_ : Nat) : Keeps z s → Keeps z (State.writePm s f v at_) := by
  intro h0
  unfold State.writePm
  conv => zeta
  with_reducible repeat' (first | assumption | intro _ | apply State.setFn_keeps | apply stateOf_keeps | apply execPowerstateD0_keeps | apply execPowerstateD3hot_keeps | simp only [Keeps.update] | apply Keeps.ite | apply Keeps.foldl | split)

theorem State.cfgPut_keeps {z : State} (s : State) (f : Nat) (off : Nat) (v : Nat) (at_ : Nat) : Keeps z s → Keeps z (State.cfgPut s f off v at_) := by
  intro h0
  unfold State.cfgPut
  conv => zeta
  with_reducible repeat' (first | assumption | intro _ | apply stateOf_keeps | apply execBusMasterEnableWrite_keeps | apply State.writePm_keeps | apply State.setFn_keeps | apply State.showRates_keeps | apply State.setHp_keeps | apply execFlr_keeps | apply State.setFld_keeps | apply State.sendPending_keeps | apply execVfEnableWrite_keeps | simp only [Keeps.update] | apply Keeps.ite | apply Keeps.foldl | split)

theorem State.cfgWrite_keeps {z : State} (s : State) (f : Nat) (off : Nat) (b : Bytes) (at_ : Nat) : Keeps z s → Keeps z (State.cfgWrite s f off b at_) := by
  intro h0
  unfold State.cfgWrite
  conv => zeta
  with_reducible repeat' (first | assumption | intro _ | apply State.cfgPut_keeps | simp only [Keeps.update] | apply Keeps.ite | apply Keeps.foldl | split)

theorem State.hostLoad_keeps {z : State} (s : State) (f : Nat) (bar : Nat) (off : Nat) (len : Nat) (at_ : Nat) : Keeps z s → Keeps z (State.hostLoad s f bar off len at_) := by
  intro h0
  unfold State.hostLoad
  conv => zeta
  with_reducible repeat' (first | assumption | intro _ | apply State.answerUr_keeps | apply State.await_keeps | apply State.readWords_keeps | apply State.emit_keeps | apply State.bellIgnored_keeps | apply stateOf_keeps | apply execBar4Request_keeps | simp only [KeepsFst.pair] | apply KeepsFst.ite | apply KeepsFst.foldl | simp only [Keeps.update] | apply Keeps.ite | apply Keeps.foldl | (refine Keeps.fst (by assumption) ?_) | apply KeepsFst.first | split)

theorem State.hostStore_keeps {z : State} (s : State) (f : Nat) (bar : Nat) (off : Nat) (b : Bytes) (at_ : Nat) : Keeps z s → Keeps z (State.hostStore s f bar off b at_) := by
  intro h0
  unfold State.hostStore
  with_reducible repeat' (first | assumption | intro _ | apply State.answerUr_keeps | apply State.bar0Write_keeps | apply State.bellWrite_keeps | apply stateOf_keeps | apply execBar4Request_keeps | simp only [Keeps.update] | apply Keeps.ite | apply Keeps.foldl | split)

theorem execHostRequest_keeps {z : State} (f : Nat) (op : HostOp) (at_ : Nat) (s : State) : Keeps z s → KeepsNext z (execHostRequest f op at_ s) := by
  intro h0
  unfold execHostRequest
  conv => zeta
  with_reducible repeat' (first | assumption | intro _ | apply State.atTime_keeps | apply State.hostLoad_keeps | apply State.hostStore_keeps | apply State.emit_keeps | apply State.answerUr_keeps | apply State.cfgWrite_keeps | apply KeepsNext.next | apply KeepsNext.ite | simp only [Keeps.update] | apply Keeps.ite | apply Keeps.foldl | split)

theorem State.serveAccess_keeps {z : State} (s : State) (x : HallAccess) : Keeps z s → Keeps z (State.serveAccess s x) := by
  intro h0
  unfold State.serveAccess
  conv => zeta
  with_reducible repeat' (first | assumption | intro _ | apply State.touch_keeps | apply State.answer_keeps | apply State.readSeen_keeps | apply State.writeSeen_keeps | apply State.finishLoad_keeps | simp only [KeepsFst.pair] | apply KeepsFst.ite | apply KeepsFst.foldl | simp only [Keeps.update] | apply Keeps.ite | apply Keeps.foldl | (refine Keeps.fst (by assumption) ?_) | apply KeepsFst.first | split)

theorem State.serveAccesses_keeps {z : State} (s : State) : Keeps z s → Keeps z (State.serveAccesses s) := by
  intro h0
  unfold State.serveAccesses
  conv => zeta
  with_reducible repeat' (first | assumption | intro _ | apply State.serveAccess_keeps | simp only [Keeps.update] | apply Keeps.ite | apply Keeps.foldl | split)

theorem execLanding_keeps {z : State} (uj : Nat) (reload : List Nat) (bad : Option (Nat × Nat × Bytes)) (at_ : Nat) (s : State) : Keeps z s → KeepsNext z (execLanding uj reload bad at_ s) := by
  intro h0
  unfold execLanding
  conv => zeta
  with_reducible repeat' (first | assumption | intro _ | apply State.atTime_keeps | apply State.land43_keeps | apply State.serveAccesses_keeps | apply State.swapStep_keeps | apply State.sharesLand_keeps | apply State.gradesLand_keeps | apply State.frostStep_keeps | apply State.showNext_keeps | apply State.stagedLand_keeps | apply State.newFlight_keeps | apply KeepsNext.next | apply KeepsNext.ite | simp only [Keeps.update] | apply Keeps.ite | apply Keeps.foldl | split)

theorem execTreadStart_keeps {z : State} (errs : List (Nat × Nat)) (at_ : Nat) (s : State) : Keeps z s → KeepsNext z (execTreadStart errs at_ s) := by
  intro h0
  unfold execTreadStart
  conv => zeta
  with_reducible repeat' (first | assumption | intro _ | apply State.atTime_keeps | apply State.serveAccesses_keeps | apply State.treadHall_keeps | apply State.snapLands_keeps | apply KeepsNext.next | apply KeepsNext.ite | simp only [Keeps.update] | apply Keeps.ite | apply Keeps.foldl | split)

theorem execStandbyEnter_keeps {z : State} (at_ : Nat) (s : State) : Keeps z s → KeepsNext z (execStandbyEnter at_ s) := by
  intro h0
  unfold execStandbyEnter
  conv => zeta
  with_reducible repeat' (first | assumption | intro _ | apply State.atTime_keeps | apply State.resetRegions_keeps | apply State.serveAccesses_keeps | apply State.setFrost_keeps | apply State.loseAll_keeps | apply State.hallSleep_keeps | apply State.darkenHall_keeps | apply State.setFld_keeps | apply State.bump_keeps | apply State.almDev_keeps | apply State.raise_keeps | apply Keeps.powerDown | apply KeepsNext.next | apply KeepsNext.ite | simp only [Keeps.update] | apply Keeps.ite | apply Keeps.foldl | split)

theorem execBestEffortTlpSend_keeps {z : State} (p : Nat) (crossed : Nat) (at_ : Nat) (s : State) : Keeps z s → KeepsNext z (execBestEffortTlpSend p crossed at_ s) := by
  intro h0
  unfold execBestEffortTlpSend
  conv => zeta
  with_reducible repeat' (first | assumption | intro _ | apply State.atTime_keeps | apply State.afterPacket_keeps | apply State.leave_keeps | apply State.setHp_keeps | apply KeepsNext.next | apply KeepsNext.ite | simp only [Keeps.update] | apply Keeps.ite | apply Keeps.foldl | split)

end Sys2Proof.Machine
end

