-- ==== Sys2Proof/Laws/State.lean ====
section
/-! SUPPORT. What each of the updates that every family shares leaves as it was: one lemma per field and update, each true by computation. -/

namespace Sys2Proof.Machine

variable (s : State)

/-! ### setWord -/

@[simp] theorem setWord_latched (r : Reg) (w : Word) (o i : Nat) : (s.setWord r w o i).latched = s.latched := rfl
@[simp] theorem setWord_wide (r : Reg) (w : Word) (o i : Nat) : (s.setWord r w o i).wide = s.wide := rfl
@[simp] theorem setWord_now (r : Reg) (w : Word) (o i : Nat) : (s.setWord r w o i).now = s.now := rfl
@[simp] theorem setWord_freeCtr (r : Reg) (w : Word) (o i : Nat) : (s.setWord r w o i).freeCtr = s.freeCtr := rfl
@[simp] theorem setWord_tb (r : Reg) (w : Word) (o i : Nat) : (s.setWord r w o i).tb = s.tb := rfl
@[simp] theorem setWord_wq (r : Reg) (w : Word) (o i : Nat) : (s.setWord r w o i).wq = s.wq := rfl
@[simp] theorem setWord_sic (r : Reg) (w : Word) (o i : Nat) : (s.setWord r w o i).sic = s.sic := rfl
@[simp] theorem setWord_own (r : Reg) (w : Word) (o i : Nat) : (s.setWord r w o i).own = s.own := rfl
@[simp] theorem setWord_flt (r : Reg) (w : Word) (o i : Nat) : (s.setWord r w o i).flt = s.flt := rfl
@[simp] theorem setWord_ep (r : Reg) (w : Word) (o i : Nat) : (s.setWord r w o i).ep = s.ep := rfl
@[simp] theorem setWord_vfn (r : Reg) (w : Word) (o i : Nat) : (s.setWord r w o i).vfn = s.vfn := rfl
@[simp] theorem setWord_pln (r : Reg) (w : Word) (o i : Nat) : (s.setWord r w o i).pln = s.pln := rfl
@[simp] theorem setWord_seqs (r : Reg) (w : Word) (o i : Nat) : (s.setWord r w o i).seqs = s.seqs := rfl
@[simp] theorem setWord_gal (r : Reg) (w : Word) (o i : Nat) : (s.setWord r w o i).gal = s.gal := rfl
@[simp] theorem setWord_stageq (r : Reg) (w : Word) (o i : Nat) : (s.setWord r w o i).stageq = s.stageq := rfl
@[simp] theorem setWord_flows (r : Reg) (w : Word) (o i : Nat) : (s.setWord r w o i).flows = s.flows := rfl
@[simp] theorem setWord_alcove (r : Reg) (w : Word) (o i : Nat) : (s.setWord r w o i).alcove = s.alcove := rfl
@[simp] theorem setWord_atrium (r : Reg) (w : Word) (o i : Nat) : (s.setWord r w o i).atrium = s.atrium := rfl
@[simp] theorem setWord_bpm (r : Reg) (w : Word) (o i : Nat) : (s.setWord r w o i).bpm = s.bpm := rfl
@[simp] theorem setWord_planBursts (r : Reg) (w : Word) (o i : Nat) : (s.setWord r w o i).planBursts = s.planBursts := rfl
@[simp] theorem setWord_ln (r : Reg) (w : Word) (o i : Nat) : (s.setWord r w o i).ln = s.ln := rfl
@[simp] theorem setWord_lands (r : Reg) (w : Word) (o i : Nat) : (s.setWord r w o i).lands = s.lands := rfl
@[simp] theorem setWord_cores (r : Reg) (w : Word) (o i : Nat) : (s.setWord r w o i).cores = s.cores := rfl
@[simp] theorem setWord_handoffs (r : Reg) (w : Word) (o i : Nat) : (s.setWord r w o i).handoffs = s.handoffs := rfl
@[simp] theorem setWord_handoffPending (r : Reg) (w : Word) (o i : Nat) : (s.setWord r w o i).handoffPending = s.handoffPending := rfl
@[simp] theorem setWord_dma (r : Reg) (w : Word) (o i : Nat) : (s.setWord r w o i).dma = s.dma := rfl
@[simp] theorem setWord_tblq (r : Reg) (w : Word) (o i : Nat) : (s.setWord r w o i).tblq = s.tblq := rfl
@[simp] theorem setWord_cyc (r : Reg) (w : Word) (o i : Nat) : (s.setWord r w o i).cyc = s.cyc := rfl
@[simp] theorem setWord_keys (r : Reg) (w : Word) (o i : Nat) : (s.setWord r w o i).keys = s.keys := rfl
@[simp] theorem setWord_cph (r : Reg) (w : Word) (o i : Nat) : (s.setWord r w o i).cph = s.cph := rfl
@[simp] theorem setWord_fw (r : Reg) (w : Word) (o i : Nat) : (s.setWord r w o i).fw = s.fw := rfl
@[simp] theorem setWord_sto (r : Reg) (w : Word) (o i : Nat) : (s.setWord r w o i).sto = s.sto := rfl
@[simp] theorem setWord_baro (r : Reg) (w : Word) (o i : Nat) : (s.setWord r w o i).baro = s.baro := rfl
@[simp] theorem setWord_pkg (r : Reg) (w : Word) (o i : Nat) : (s.setWord r w o i).pkg = s.pkg := rfl
@[simp] theorem setWord_hallq (r : Reg) (w : Word) (o i : Nat) : (s.setWord r w o i).hallq = s.hallq := rfl
@[simp] theorem setWord_out (r : Reg) (w : Word) (o i : Nat) : (s.setWord r w o i).out = s.out := rfl
@[simp] theorem setWord_pending (r : Reg) (w : Word) (o i : Nat) : (s.setWord r w o i).pending = s.pending := rfl

/-! ### setFld -/

@[simp] theorem setFld_latched (f : Fld) (v o i : Nat) : (s.setFld f v o i).latched = s.latched := rfl
@[simp] theorem setFld_wide (f : Fld) (v o i : Nat) : (s.setFld f v o i).wide = s.wide := rfl
@[simp] theorem setFld_now (f : Fld) (v o i : Nat) : (s.setFld f v o i).now = s.now := rfl
@[simp] theorem setFld_freeCtr (f : Fld) (v o i : Nat) : (s.setFld f v o i).freeCtr = s.freeCtr := rfl
@[simp] theorem setFld_tb (f : Fld) (v o i : Nat) : (s.setFld f v o i).tb = s.tb := rfl
@[simp] theorem setFld_wq (f : Fld) (v o i : Nat) : (s.setFld f v o i).wq = s.wq := rfl
@[simp] theorem setFld_sic (f : Fld) (v o i : Nat) : (s.setFld f v o i).sic = s.sic := rfl
@[simp] theorem setFld_own (f : Fld) (v o i : Nat) : (s.setFld f v o i).own = s.own := rfl
@[simp] theorem setFld_flt (f : Fld) (v o i : Nat) : (s.setFld f v o i).flt = s.flt := rfl
@[simp] theorem setFld_ep (f : Fld) (v o i : Nat) : (s.setFld f v o i).ep = s.ep := rfl
@[simp] theorem setFld_vfn (f : Fld) (v o i : Nat) : (s.setFld f v o i).vfn = s.vfn := rfl
@[simp] theorem setFld_pln (f : Fld) (v o i : Nat) : (s.setFld f v o i).pln = s.pln := rfl
@[simp] theorem setFld_seqs (f : Fld) (v o i : Nat) : (s.setFld f v o i).seqs = s.seqs := rfl
@[simp] theorem setFld_gal (f : Fld) (v o i : Nat) : (s.setFld f v o i).gal = s.gal := rfl
@[simp] theorem setFld_stageq (f : Fld) (v o i : Nat) : (s.setFld f v o i).stageq = s.stageq := rfl
@[simp] theorem setFld_flows (f : Fld) (v o i : Nat) : (s.setFld f v o i).flows = s.flows := rfl
@[simp] theorem setFld_alcove (f : Fld) (v o i : Nat) : (s.setFld f v o i).alcove = s.alcove := rfl
@[simp] theorem setFld_atrium (f : Fld) (v o i : Nat) : (s.setFld f v o i).atrium = s.atrium := rfl
@[simp] theorem setFld_bpm (f : Fld) (v o i : Nat) : (s.setFld f v o i).bpm = s.bpm := rfl
@[simp] theorem setFld_planBursts (f : Fld) (v o i : Nat) : (s.setFld f v o i).planBursts = s.planBursts := rfl
@[simp] theorem setFld_ln (f : Fld) (v o i : Nat) : (s.setFld f v o i).ln = s.ln := rfl
@[simp] theorem setFld_lands (f : Fld) (v o i : Nat) : (s.setFld f v o i).lands = s.lands := rfl
@[simp] theorem setFld_cores (f : Fld) (v o i : Nat) : (s.setFld f v o i).cores = s.cores := rfl
@[simp] theorem setFld_handoffs (f : Fld) (v o i : Nat) : (s.setFld f v o i).handoffs = s.handoffs := rfl
@[simp] theorem setFld_handoffPending (f : Fld) (v o i : Nat) : (s.setFld f v o i).handoffPending = s.handoffPending := rfl
@[simp] theorem setFld_dma (f : Fld) (v o i : Nat) : (s.setFld f v o i).dma = s.dma := rfl
@[simp] theorem setFld_tblq (f : Fld) (v o i : Nat) : (s.setFld f v o i).tblq = s.tblq := rfl
@[simp] theorem setFld_cyc (f : Fld) (v o i : Nat) : (s.setFld f v o i).cyc = s.cyc := rfl
@[simp] theorem setFld_keys (f : Fld) (v o i : Nat) : (s.setFld f v o i).keys = s.keys := rfl
@[simp] theorem setFld_cph (f : Fld) (v o i : Nat) : (s.setFld f v o i).cph = s.cph := rfl
@[simp] theorem setFld_fw (f : Fld) (v o i : Nat) : (s.setFld f v o i).fw = s.fw := rfl
@[simp] theorem setFld_sto (f : Fld) (v o i : Nat) : (s.setFld f v o i).sto = s.sto := rfl
@[simp] theorem setFld_baro (f : Fld) (v o i : Nat) : (s.setFld f v o i).baro = s.baro := rfl
@[simp] theorem setFld_pkg (f : Fld) (v o i : Nat) : (s.setFld f v o i).pkg = s.pkg := rfl
@[simp] theorem setFld_hallq (f : Fld) (v o i : Nat) : (s.setFld f v o i).hallq = s.hallq := rfl
@[simp] theorem setFld_out (f : Fld) (v o i : Nat) : (s.setFld f v o i).out = s.out := rfl
@[simp] theorem setFld_pending (f : Fld) (v o i : Nat) : (s.setFld f v o i).pending = s.pending := rfl

/-! ### raise -/

@[simp] theorem raise_latched (f : Fld) (o i : Nat) : (s.raise f o i).latched = s.latched := rfl
@[simp] theorem raise_wide (f : Fld) (o i : Nat) : (s.raise f o i).wide = s.wide := rfl
@[simp] theorem raise_now (f : Fld) (o i : Nat) : (s.raise f o i).now = s.now := rfl
@[simp] theorem raise_freeCtr (f : Fld) (o i : Nat) : (s.raise f o i).freeCtr = s.freeCtr := rfl
@[simp] theorem raise_tb (f : Fld) (o i : Nat) : (s.raise f o i).tb = s.tb := rfl
@[simp] theorem raise_wq (f : Fld) (o i : Nat) : (s.raise f o i).wq = s.wq := rfl
@[simp] theorem raise_sic (f : Fld) (o i : Nat) : (s.raise f o i).sic = s.sic := rfl
@[simp] theorem raise_own (f : Fld) (o i : Nat) : (s.raise f o i).own = s.own := rfl
@[simp] theorem raise_flt (f : Fld) (o i : Nat) : (s.raise f o i).flt = s.flt := rfl
@[simp] theorem raise_ep (f : Fld) (o i : Nat) : (s.raise f o i).ep = s.ep := rfl
@[simp] theorem raise_vfn (f : Fld) (o i : Nat) : (s.raise f o i).vfn = s.vfn := rfl
@[simp] theorem raise_pln (f : Fld) (o i : Nat) : (s.raise f o i).pln = s.pln := rfl
@[simp] theorem raise_seqs (f : Fld) (o i : Nat) : (s.raise f o i).seqs = s.seqs := rfl
@[simp] theorem raise_gal (f : Fld) (o i : Nat) : (s.raise f o i).gal = s.gal := rfl
@[simp] theorem raise_stageq (f : Fld) (o i : Nat) : (s.raise f o i).stageq = s.stageq := rfl
@[simp] theorem raise_flows (f : Fld) (o i : Nat) : (s.raise f o i).flows = s.flows := rfl
@[simp] theorem raise_alcove (f : Fld) (o i : Nat) : (s.raise f o i).alcove = s.alcove := rfl
@[simp] theorem raise_atrium (f : Fld) (o i : Nat) : (s.raise f o i).atrium = s.atrium := rfl
@[simp] theorem raise_bpm (f : Fld) (o i : Nat) : (s.raise f o i).bpm = s.bpm := rfl
@[simp] theorem raise_planBursts (f : Fld) (o i : Nat) : (s.raise f o i).planBursts = s.planBursts := rfl
@[simp] theorem raise_ln (f : Fld) (o i : Nat) : (s.raise f o i).ln = s.ln := rfl
@[simp] theorem raise_lands (f : Fld) (o i : Nat) : (s.raise f o i).lands = s.lands := rfl
@[simp] theorem raise_cores (f : Fld) (o i : Nat) : (s.raise f o i).cores = s.cores := rfl
@[simp] theorem raise_handoffs (f : Fld) (o i : Nat) : (s.raise f o i).handoffs = s.handoffs := rfl
@[simp] theorem raise_handoffPending (f : Fld) (o i : Nat) : (s.raise f o i).handoffPending = s.handoffPending := rfl
@[simp] theorem raise_dma (f : Fld) (o i : Nat) : (s.raise f o i).dma = s.dma := rfl
@[simp] theorem raise_tblq (f : Fld) (o i : Nat) : (s.raise f o i).tblq = s.tblq := rfl
@[simp] theorem raise_cyc (f : Fld) (o i : Nat) : (s.raise f o i).cyc = s.cyc := rfl
@[simp] theorem raise_keys (f : Fld) (o i : Nat) : (s.raise f o i).keys = s.keys := rfl
@[simp] theorem raise_cph (f : Fld) (o i : Nat) : (s.raise f o i).cph = s.cph := rfl
@[simp] theorem raise_fw (f : Fld) (o i : Nat) : (s.raise f o i).fw = s.fw := rfl
@[simp] theorem raise_sto (f : Fld) (o i : Nat) : (s.raise f o i).sto = s.sto := rfl
@[simp] theorem raise_baro (f : Fld) (o i : Nat) : (s.raise f o i).baro = s.baro := rfl
@[simp] theorem raise_pkg (f : Fld) (o i : Nat) : (s.raise f o i).pkg = s.pkg := rfl
@[simp] theorem raise_hallq (f : Fld) (o i : Nat) : (s.raise f o i).hallq = s.hallq := rfl
@[simp] theorem raise_out (f : Fld) (o i : Nat) : (s.raise f o i).out = s.out := rfl
@[simp] theorem raise_pending (f : Fld) (o i : Nat) : (s.raise f o i).pending = s.pending := rfl

/-! ### bumpBy -/

@[simp] theorem bumpBy_latched (f : Fld) (n o i : Nat) : (s.bumpBy f n o i).latched = s.latched := rfl
@[simp] theorem bumpBy_wide (f : Fld) (n o i : Nat) : (s.bumpBy f n o i).wide = s.wide := rfl
@[simp] theorem bumpBy_now (f : Fld) (n o i : Nat) : (s.bumpBy f n o i).now = s.now := rfl
@[simp] theorem bumpBy_freeCtr (f : Fld) (n o i : Nat) : (s.bumpBy f n o i).freeCtr = s.freeCtr := rfl
@[simp] theorem bumpBy_tb (f : Fld) (n o i : Nat) : (s.bumpBy f n o i).tb = s.tb := rfl
@[simp] theorem bumpBy_wq (f : Fld) (n o i : Nat) : (s.bumpBy f n o i).wq = s.wq := rfl
@[simp] theorem bumpBy_sic (f : Fld) (n o i : Nat) : (s.bumpBy f n o i).sic = s.sic := rfl
@[simp] theorem bumpBy_own (f : Fld) (n o i : Nat) : (s.bumpBy f n o i).own = s.own := rfl
@[simp] theorem bumpBy_flt (f : Fld) (n o i : Nat) : (s.bumpBy f n o i).flt = s.flt := rfl
@[simp] theorem bumpBy_ep (f : Fld) (n o i : Nat) : (s.bumpBy f n o i).ep = s.ep := rfl
@[simp] theorem bumpBy_vfn (f : Fld) (n o i : Nat) : (s.bumpBy f n o i).vfn = s.vfn := rfl
@[simp] theorem bumpBy_pln (f : Fld) (n o i : Nat) : (s.bumpBy f n o i).pln = s.pln := rfl
@[simp] theorem bumpBy_seqs (f : Fld) (n o i : Nat) : (s.bumpBy f n o i).seqs = s.seqs := rfl
@[simp] theorem bumpBy_gal (f : Fld) (n o i : Nat) : (s.bumpBy f n o i).gal = s.gal := rfl
@[simp] theorem bumpBy_stageq (f : Fld) (n o i : Nat) : (s.bumpBy f n o i).stageq = s.stageq := rfl
@[simp] theorem bumpBy_flows (f : Fld) (n o i : Nat) : (s.bumpBy f n o i).flows = s.flows := rfl
@[simp] theorem bumpBy_alcove (f : Fld) (n o i : Nat) : (s.bumpBy f n o i).alcove = s.alcove := rfl
@[simp] theorem bumpBy_atrium (f : Fld) (n o i : Nat) : (s.bumpBy f n o i).atrium = s.atrium := rfl
@[simp] theorem bumpBy_bpm (f : Fld) (n o i : Nat) : (s.bumpBy f n o i).bpm = s.bpm := rfl
@[simp] theorem bumpBy_planBursts (f : Fld) (n o i : Nat) : (s.bumpBy f n o i).planBursts = s.planBursts := rfl
@[simp] theorem bumpBy_ln (f : Fld) (n o i : Nat) : (s.bumpBy f n o i).ln = s.ln := rfl
@[simp] theorem bumpBy_lands (f : Fld) (n o i : Nat) : (s.bumpBy f n o i).lands = s.lands := rfl
@[simp] theorem bumpBy_cores (f : Fld) (n o i : Nat) : (s.bumpBy f n o i).cores = s.cores := rfl
@[simp] theorem bumpBy_handoffs (f : Fld) (n o i : Nat) : (s.bumpBy f n o i).handoffs = s.handoffs := rfl
@[simp] theorem bumpBy_handoffPending (f : Fld) (n o i : Nat) : (s.bumpBy f n o i).handoffPending = s.handoffPending := rfl
@[simp] theorem bumpBy_dma (f : Fld) (n o i : Nat) : (s.bumpBy f n o i).dma = s.dma := rfl
@[simp] theorem bumpBy_tblq (f : Fld) (n o i : Nat) : (s.bumpBy f n o i).tblq = s.tblq := rfl
@[simp] theorem bumpBy_cyc (f : Fld) (n o i : Nat) : (s.bumpBy f n o i).cyc = s.cyc := rfl
@[simp] theorem bumpBy_keys (f : Fld) (n o i : Nat) : (s.bumpBy f n o i).keys = s.keys := rfl
@[simp] theorem bumpBy_cph (f : Fld) (n o i : Nat) : (s.bumpBy f n o i).cph = s.cph := rfl
@[simp] theorem bumpBy_fw (f : Fld) (n o i : Nat) : (s.bumpBy f n o i).fw = s.fw := rfl
@[simp] theorem bumpBy_sto (f : Fld) (n o i : Nat) : (s.bumpBy f n o i).sto = s.sto := rfl
@[simp] theorem bumpBy_baro (f : Fld) (n o i : Nat) : (s.bumpBy f n o i).baro = s.baro := rfl
@[simp] theorem bumpBy_pkg (f : Fld) (n o i : Nat) : (s.bumpBy f n o i).pkg = s.pkg := rfl
@[simp] theorem bumpBy_hallq (f : Fld) (n o i : Nat) : (s.bumpBy f n o i).hallq = s.hallq := rfl
@[simp] theorem bumpBy_out (f : Fld) (n o i : Nat) : (s.bumpBy f n o i).out = s.out := rfl
@[simp] theorem bumpBy_pending (f : Fld) (n o i : Nat) : (s.bumpBy f n o i).pending = s.pending := rfl

/-! ### bump -/

@[simp] theorem bump_latched (f : Fld) (o i : Nat) : (s.bump f o i).latched = s.latched := rfl
@[simp] theorem bump_wide (f : Fld) (o i : Nat) : (s.bump f o i).wide = s.wide := rfl
@[simp] theorem bump_now (f : Fld) (o i : Nat) : (s.bump f o i).now = s.now := rfl
@[simp] theorem bump_freeCtr (f : Fld) (o i : Nat) : (s.bump f o i).freeCtr = s.freeCtr := rfl
@[simp] theorem bump_tb (f : Fld) (o i : Nat) : (s.bump f o i).tb = s.tb := rfl
@[simp] theorem bump_wq (f : Fld) (o i : Nat) : (s.bump f o i).wq = s.wq := rfl
@[simp] theorem bump_sic (f : Fld) (o i : Nat) : (s.bump f o i).sic = s.sic := rfl
@[simp] theorem bump_own (f : Fld) (o i : Nat) : (s.bump f o i).own = s.own := rfl
@[simp] theorem bump_flt (f : Fld) (o i : Nat) : (s.bump f o i).flt = s.flt := rfl
@[simp] theorem bump_ep (f : Fld) (o i : Nat) : (s.bump f o i).ep = s.ep := rfl
@[simp] theorem bump_vfn (f : Fld) (o i : Nat) : (s.bump f o i).vfn = s.vfn := rfl
@[simp] theorem bump_pln (f : Fld) (o i : Nat) : (s.bump f o i).pln = s.pln := rfl
@[simp] theorem bump_seqs (f : Fld) (o i : Nat) : (s.bump f o i).seqs = s.seqs := rfl
@[simp] theorem bump_gal (f : Fld) (o i : Nat) : (s.bump f o i).gal = s.gal := rfl
@[simp] theorem bump_stageq (f : Fld) (o i : Nat) : (s.bump f o i).stageq = s.stageq := rfl
@[simp] theorem bump_flows (f : Fld) (o i : Nat) : (s.bump f o i).flows = s.flows := rfl
@[simp] theorem bump_alcove (f : Fld) (o i : Nat) : (s.bump f o i).alcove = s.alcove := rfl
@[simp] theorem bump_atrium (f : Fld) (o i : Nat) : (s.bump f o i).atrium = s.atrium := rfl
@[simp] theorem bump_bpm (f : Fld) (o i : Nat) : (s.bump f o i).bpm = s.bpm := rfl
@[simp] theorem bump_planBursts (f : Fld) (o i : Nat) : (s.bump f o i).planBursts = s.planBursts := rfl
@[simp] theorem bump_ln (f : Fld) (o i : Nat) : (s.bump f o i).ln = s.ln := rfl
@[simp] theorem bump_lands (f : Fld) (o i : Nat) : (s.bump f o i).lands = s.lands := rfl
@[simp] theorem bump_cores (f : Fld) (o i : Nat) : (s.bump f o i).cores = s.cores := rfl
@[simp] theorem bump_handoffs (f : Fld) (o i : Nat) : (s.bump f o i).handoffs = s.handoffs := rfl
@[simp] theorem bump_handoffPending (f : Fld) (o i : Nat) : (s.bump f o i).handoffPending = s.handoffPending := rfl
@[simp] theorem bump_dma (f : Fld) (o i : Nat) : (s.bump f o i).dma = s.dma := rfl
@[simp] theorem bump_tblq (f : Fld) (o i : Nat) : (s.bump f o i).tblq = s.tblq := rfl
@[simp] theorem bump_cyc (f : Fld) (o i : Nat) : (s.bump f o i).cyc = s.cyc := rfl
@[simp] theorem bump_keys (f : Fld) (o i : Nat) : (s.bump f o i).keys = s.keys := rfl
@[simp] theorem bump_cph (f : Fld) (o i : Nat) : (s.bump f o i).cph = s.cph := rfl
@[simp] theorem bump_fw (f : Fld) (o i : Nat) : (s.bump f o i).fw = s.fw := rfl
@[simp] theorem bump_sto (f : Fld) (o i : Nat) : (s.bump f o i).sto = s.sto := rfl
@[simp] theorem bump_baro (f : Fld) (o i : Nat) : (s.bump f o i).baro = s.baro := rfl
@[simp] theorem bump_pkg (f : Fld) (o i : Nat) : (s.bump f o i).pkg = s.pkg := rfl
@[simp] theorem bump_hallq (f : Fld) (o i : Nat) : (s.bump f o i).hallq = s.hallq := rfl
@[simp] theorem bump_out (f : Fld) (o i : Nat) : (s.bump f o i).out = s.out := rfl
@[simp] theorem bump_pending (f : Fld) (o i : Nat) : (s.bump f o i).pending = s.pending := rfl

/-! ### bump64 -/

@[simp] theorem bump64_latched (f g : Fld) (n o i : Nat) : (s.bump64 f g n o i).latched = s.latched := rfl
@[simp] theorem bump64_wide (f g : Fld) (n o i : Nat) : (s.bump64 f g n o i).wide = s.wide := rfl
@[simp] theorem bump64_now (f g : Fld) (n o i : Nat) : (s.bump64 f g n o i).now = s.now := rfl
@[simp] theorem bump64_freeCtr (f g : Fld) (n o i : Nat) : (s.bump64 f g n o i).freeCtr = s.freeCtr := rfl
@[simp] theorem bump64_tb (f g : Fld) (n o i : Nat) : (s.bump64 f g n o i).tb = s.tb := rfl
@[simp] theorem bump64_wq (f g : Fld) (n o i : Nat) : (s.bump64 f g n o i).wq = s.wq := rfl
@[simp] theorem bump64_sic (f g : Fld) (n o i : Nat) : (s.bump64 f g n o i).sic = s.sic := rfl
@[simp] theorem bump64_own (f g : Fld) (n o i : Nat) : (s.bump64 f g n o i).own = s.own := rfl
@[simp] theorem bump64_flt (f g : Fld) (n o i : Nat) : (s.bump64 f g n o i).flt = s.flt := rfl
@[simp] theorem bump64_ep (f g : Fld) (n o i : Nat) : (s.bump64 f g n o i).ep = s.ep := rfl
@[simp] theorem bump64_vfn (f g : Fld) (n o i : Nat) : (s.bump64 f g n o i).vfn = s.vfn := rfl
@[simp] theorem bump64_pln (f g : Fld) (n o i : Nat) : (s.bump64 f g n o i).pln = s.pln := rfl
@[simp] theorem bump64_seqs (f g : Fld) (n o i : Nat) : (s.bump64 f g n o i).seqs = s.seqs := rfl
@[simp] theorem bump64_gal (f g : Fld) (n o i : Nat) : (s.bump64 f g n o i).gal = s.gal := rfl
@[simp] theorem bump64_stageq (f g : Fld) (n o i : Nat) : (s.bump64 f g n o i).stageq = s.stageq := rfl
@[simp] theorem bump64_flows (f g : Fld) (n o i : Nat) : (s.bump64 f g n o i).flows = s.flows := rfl
@[simp] theorem bump64_alcove (f g : Fld) (n o i : Nat) : (s.bump64 f g n o i).alcove = s.alcove := rfl
@[simp] theorem bump64_atrium (f g : Fld) (n o i : Nat) : (s.bump64 f g n o i).atrium = s.atrium := rfl
@[simp] theorem bump64_bpm (f g : Fld) (n o i : Nat) : (s.bump64 f g n o i).bpm = s.bpm := rfl
@[simp] theorem bump64_planBursts (f g : Fld) (n o i : Nat) : (s.bump64 f g n o i).planBursts = s.planBursts := rfl
@[simp] theorem bump64_ln (f g : Fld) (n o i : Nat) : (s.bump64 f g n o i).ln = s.ln := rfl
@[simp] theorem bump64_lands (f g : Fld) (n o i : Nat) : (s.bump64 f g n o i).lands = s.lands := rfl
@[simp] theorem bump64_cores (f g : Fld) (n o i : Nat) : (s.bump64 f g n o i).cores = s.cores := rfl
@[simp] theorem bump64_handoffs (f g : Fld) (n o i : Nat) : (s.bump64 f g n o i).handoffs = s.handoffs := rfl
@[simp] theorem bump64_handoffPending (f g : Fld) (n o i : Nat) : (s.bump64 f g n o i).handoffPending = s.handoffPending := rfl
@[simp] theorem bump64_dma (f g : Fld) (n o i : Nat) : (s.bump64 f g n o i).dma = s.dma := rfl
@[simp] theorem bump64_tblq (f g : Fld) (n o i : Nat) : (s.bump64 f g n o i).tblq = s.tblq := rfl
@[simp] theorem bump64_cyc (f g : Fld) (n o i : Nat) : (s.bump64 f g n o i).cyc = s.cyc := rfl
@[simp] theorem bump64_keys (f g : Fld) (n o i : Nat) : (s.bump64 f g n o i).keys = s.keys := rfl
@[simp] theorem bump64_cph (f g : Fld) (n o i : Nat) : (s.bump64 f g n o i).cph = s.cph := rfl
@[simp] theorem bump64_fw (f g : Fld) (n o i : Nat) : (s.bump64 f g n o i).fw = s.fw := rfl
@[simp] theorem bump64_sto (f g : Fld) (n o i : Nat) : (s.bump64 f g n o i).sto = s.sto := rfl
@[simp] theorem bump64_baro (f g : Fld) (n o i : Nat) : (s.bump64 f g n o i).baro = s.baro := rfl
@[simp] theorem bump64_pkg (f g : Fld) (n o i : Nat) : (s.bump64 f g n o i).pkg = s.pkg := rfl
@[simp] theorem bump64_hallq (f g : Fld) (n o i : Nat) : (s.bump64 f g n o i).hallq = s.hallq := rfl
@[simp] theorem bump64_out (f g : Fld) (n o i : Nat) : (s.bump64 f g n o i).out = s.out := rfl
@[simp] theorem bump64_pending (f g : Fld) (n o i : Nat) : (s.bump64 f g n o i).pending = s.pending := rfl

/-! ### initRange -/

@[simp] theorem initRange_latched (a b : Nat) : (s.initRange a b).latched = s.latched := rfl
@[simp] theorem initRange_wide (a b : Nat) : (s.initRange a b).wide = s.wide := rfl
@[simp] theorem initRange_now (a b : Nat) : (s.initRange a b).now = s.now := rfl
@[simp] theorem initRange_freeCtr (a b : Nat) : (s.initRange a b).freeCtr = s.freeCtr := rfl
@[simp] theorem initRange_tb (a b : Nat) : (s.initRange a b).tb = s.tb := rfl
@[simp] theorem initRange_wq (a b : Nat) : (s.initRange a b).wq = s.wq := rfl
@[simp] theorem initRange_sic (a b : Nat) : (s.initRange a b).sic = s.sic := rfl
@[simp] theorem initRange_own (a b : Nat) : (s.initRange a b).own = s.own := rfl
@[simp] theorem initRange_flt (a b : Nat) : (s.initRange a b).flt = s.flt := rfl
@[simp] theorem initRange_ep (a b : Nat) : (s.initRange a b).ep = s.ep := rfl
@[simp] theorem initRange_vfn (a b : Nat) : (s.initRange a b).vfn = s.vfn := rfl
@[simp] theorem initRange_pln (a b : Nat) : (s.initRange a b).pln = s.pln := rfl
@[simp] theorem initRange_seqs (a b : Nat) : (s.initRange a b).seqs = s.seqs := rfl
@[simp] theorem initRange_gal (a b : Nat) : (s.initRange a b).gal = s.gal := rfl
@[simp] theorem initRange_stageq (a b : Nat) : (s.initRange a b).stageq = s.stageq := rfl
@[simp] theorem initRange_flows (a b : Nat) : (s.initRange a b).flows = s.flows := rfl
@[simp] theorem initRange_alcove (a b : Nat) : (s.initRange a b).alcove = s.alcove := rfl
@[simp] theorem initRange_atrium (a b : Nat) : (s.initRange a b).atrium = s.atrium := rfl
@[simp] theorem initRange_bpm (a b : Nat) : (s.initRange a b).bpm = s.bpm := rfl
@[simp] theorem initRange_planBursts (a b : Nat) : (s.initRange a b).planBursts = s.planBursts := rfl
@[simp] theorem initRange_ln (a b : Nat) : (s.initRange a b).ln = s.ln := rfl
@[simp] theorem initRange_lands (a b : Nat) : (s.initRange a b).lands = s.lands := rfl
@[simp] theorem initRange_cores (a b : Nat) : (s.initRange a b).cores = s.cores := rfl
@[simp] theorem initRange_handoffs (a b : Nat) : (s.initRange a b).handoffs = s.handoffs := rfl
@[simp] theorem initRange_handoffPending (a b : Nat) : (s.initRange a b).handoffPending = s.handoffPending := rfl
@[simp] theorem initRange_dma (a b : Nat) : (s.initRange a b).dma = s.dma := rfl
@[simp] theorem initRange_tblq (a b : Nat) : (s.initRange a b).tblq = s.tblq := rfl
@[simp] theorem initRange_cyc (a b : Nat) : (s.initRange a b).cyc = s.cyc := rfl
@[simp] theorem initRange_keys (a b : Nat) : (s.initRange a b).keys = s.keys := rfl
@[simp] theorem initRange_cph (a b : Nat) : (s.initRange a b).cph = s.cph := rfl
@[simp] theorem initRange_fw (a b : Nat) : (s.initRange a b).fw = s.fw := rfl
@[simp] theorem initRange_sto (a b : Nat) : (s.initRange a b).sto = s.sto := rfl
@[simp] theorem initRange_baro (a b : Nat) : (s.initRange a b).baro = s.baro := rfl
@[simp] theorem initRange_pkg (a b : Nat) : (s.initRange a b).pkg = s.pkg := rfl
@[simp] theorem initRange_hallq (a b : Nat) : (s.initRange a b).hallq = s.hallq := rfl
@[simp] theorem initRange_out (a b : Nat) : (s.initRange a b).out = s.out := rfl
@[simp] theorem initRange_pending (a b : Nat) : (s.initRange a b).pending = s.pending := rfl

/-! ### atTime -/

@[simp] theorem atTime_regs (t : Nat) : (s.atTime t).regs = s.regs := rfl
@[simp] theorem atTime_latched (t : Nat) : (s.atTime t).latched = s.latched := rfl
@[simp] theorem atTime_wide (t : Nat) : (s.atTime t).wide = s.wide := rfl
@[simp] theorem atTime_freeCtr (t : Nat) : (s.atTime t).freeCtr = s.freeCtr := rfl
@[simp] theorem atTime_tb (t : Nat) : (s.atTime t).tb = s.tb := rfl
@[simp] theorem atTime_wq (t : Nat) : (s.atTime t).wq = s.wq := rfl
@[simp] theorem atTime_sic (t : Nat) : (s.atTime t).sic = s.sic := rfl
@[simp] theorem atTime_own (t : Nat) : (s.atTime t).own = s.own := rfl
@[simp] theorem atTime_flt (t : Nat) : (s.atTime t).flt = s.flt := rfl
@[simp] theorem atTime_ep (t : Nat) : (s.atTime t).ep = s.ep := rfl
@[simp] theorem atTime_vfn (t : Nat) : (s.atTime t).vfn = s.vfn := rfl
@[simp] theorem atTime_pln (t : Nat) : (s.atTime t).pln = s.pln := rfl
@[simp] theorem atTime_seqs (t : Nat) : (s.atTime t).seqs = s.seqs := rfl
@[simp] theorem atTime_gal (t : Nat) : (s.atTime t).gal = s.gal := rfl
@[simp] theorem atTime_stageq (t : Nat) : (s.atTime t).stageq = s.stageq := rfl
@[simp] theorem atTime_flows (t : Nat) : (s.atTime t).flows = s.flows := rfl
@[simp] theorem atTime_alcove (t : Nat) : (s.atTime t).alcove = s.alcove := rfl
@[simp] theorem atTime_atrium (t : Nat) : (s.atTime t).atrium = s.atrium := rfl
@[simp] theorem atTime_bpm (t : Nat) : (s.atTime t).bpm = s.bpm := rfl
@[simp] theorem atTime_planBursts (t : Nat) : (s.atTime t).planBursts = s.planBursts := rfl
@[simp] theorem atTime_ln (t : Nat) : (s.atTime t).ln = s.ln := rfl
@[simp] theorem atTime_lands (t : Nat) : (s.atTime t).lands = s.lands := rfl
@[simp] theorem atTime_cores (t : Nat) : (s.atTime t).cores = s.cores := rfl
@[simp] theorem atTime_handoffs (t : Nat) : (s.atTime t).handoffs = s.handoffs := rfl
@[simp] theorem atTime_handoffPending (t : Nat) : (s.atTime t).handoffPending = s.handoffPending := rfl
@[simp] theorem atTime_dma (t : Nat) : (s.atTime t).dma = s.dma := rfl
@[simp] theorem atTime_tblq (t : Nat) : (s.atTime t).tblq = s.tblq := rfl
@[simp] theorem atTime_cyc (t : Nat) : (s.atTime t).cyc = s.cyc := rfl
@[simp] theorem atTime_keys (t : Nat) : (s.atTime t).keys = s.keys := rfl
@[simp] theorem atTime_cph (t : Nat) : (s.atTime t).cph = s.cph := rfl
@[simp] theorem atTime_fw (t : Nat) : (s.atTime t).fw = s.fw := rfl
@[simp] theorem atTime_sto (t : Nat) : (s.atTime t).sto = s.sto := rfl
@[simp] theorem atTime_baro (t : Nat) : (s.atTime t).baro = s.baro := rfl
@[simp] theorem atTime_pkg (t : Nat) : (s.atTime t).pkg = s.pkg := rfl
@[simp] theorem atTime_hallq (t : Nat) : (s.atTime t).hallq = s.hallq := rfl
@[simp] theorem atTime_out (t : Nat) : (s.atTime t).out = s.out := rfl
@[simp] theorem atTime_pending (t : Nat) : (s.atTime t).pending = s.pending := rfl

/-! ### drawn -/

@[simp] theorem drawn_regs : (s.drawn).regs = s.regs := rfl
@[simp] theorem drawn_latched : (s.drawn).latched = s.latched := rfl
@[simp] theorem drawn_wide : (s.drawn).wide = s.wide := rfl
@[simp] theorem drawn_now : (s.drawn).now = s.now := rfl
@[simp] theorem drawn_tb : (s.drawn).tb = s.tb := rfl
@[simp] theorem drawn_wq : (s.drawn).wq = s.wq := rfl
@[simp] theorem drawn_sic : (s.drawn).sic = s.sic := rfl
@[simp] theorem drawn_own : (s.drawn).own = s.own := rfl
@[simp] theorem drawn_flt : (s.drawn).flt = s.flt := rfl
@[simp] theorem drawn_ep : (s.drawn).ep = s.ep := rfl
@[simp] theorem drawn_vfn : (s.drawn).vfn = s.vfn := rfl
@[simp] theorem drawn_pln : (s.drawn).pln = s.pln := rfl
@[simp] theorem drawn_seqs : (s.drawn).seqs = s.seqs := rfl
@[simp] theorem drawn_gal : (s.drawn).gal = s.gal := rfl
@[simp] theorem drawn_stageq : (s.drawn).stageq = s.stageq := rfl
@[simp] theorem drawn_flows : (s.drawn).flows = s.flows := rfl
@[simp] theorem drawn_alcove : (s.drawn).alcove = s.alcove := rfl
@[simp] theorem drawn_atrium : (s.drawn).atrium = s.atrium := rfl
@[simp] theorem drawn_bpm : (s.drawn).bpm = s.bpm := rfl
@[simp] theorem drawn_planBursts : (s.drawn).planBursts = s.planBursts := rfl
@[simp] theorem drawn_ln : (s.drawn).ln = s.ln := rfl
@[simp] theorem drawn_lands : (s.drawn).lands = s.lands := rfl
@[simp] theorem drawn_cores : (s.drawn).cores = s.cores := rfl
@[simp] theorem drawn_handoffs : (s.drawn).handoffs = s.handoffs := rfl
@[simp] theorem drawn_handoffPending : (s.drawn).handoffPending = s.handoffPending := rfl
@[simp] theorem drawn_dma : (s.drawn).dma = s.dma := rfl
@[simp] theorem drawn_tblq : (s.drawn).tblq = s.tblq := rfl
@[simp] theorem drawn_cyc : (s.drawn).cyc = s.cyc := rfl
@[simp] theorem drawn_keys : (s.drawn).keys = s.keys := rfl
@[simp] theorem drawn_cph : (s.drawn).cph = s.cph := rfl
@[simp] theorem drawn_fw : (s.drawn).fw = s.fw := rfl
@[simp] theorem drawn_sto : (s.drawn).sto = s.sto := rfl
@[simp] theorem drawn_baro : (s.drawn).baro = s.baro := rfl
@[simp] theorem drawn_pkg : (s.drawn).pkg = s.pkg := rfl
@[simp] theorem drawn_hallq : (s.drawn).hallq = s.hallq := rfl
@[simp] theorem drawn_out : (s.drawn).out = s.out := rfl
@[simp] theorem drawn_pending : (s.drawn).pending = s.pending := rfl

/-! ### leave -/

@[simp] theorem leave_regs (y : Out) : (s.leave y).regs = s.regs := rfl
@[simp] theorem leave_latched (y : Out) : (s.leave y).latched = s.latched := rfl
@[simp] theorem leave_wide (y : Out) : (s.leave y).wide = s.wide := rfl
@[simp] theorem leave_now (y : Out) : (s.leave y).now = s.now := rfl
@[simp] theorem leave_freeCtr (y : Out) : (s.leave y).freeCtr = s.freeCtr := rfl
@[simp] theorem leave_tb (y : Out) : (s.leave y).tb = s.tb := rfl
@[simp] theorem leave_wq (y : Out) : (s.leave y).wq = s.wq := rfl
@[simp] theorem leave_sic (y : Out) : (s.leave y).sic = s.sic := rfl
@[simp] theorem leave_own (y : Out) : (s.leave y).own = s.own := rfl
@[simp] theorem leave_flt (y : Out) : (s.leave y).flt = s.flt := rfl
@[simp] theorem leave_ep (y : Out) : (s.leave y).ep = s.ep := rfl
@[simp] theorem leave_vfn (y : Out) : (s.leave y).vfn = s.vfn := rfl
@[simp] theorem leave_pln (y : Out) : (s.leave y).pln = s.pln := rfl
@[simp] theorem leave_seqs (y : Out) : (s.leave y).seqs = s.seqs := rfl
@[simp] theorem leave_gal (y : Out) : (s.leave y).gal = s.gal := rfl
@[simp] theorem leave_stageq (y : Out) : (s.leave y).stageq = s.stageq := rfl
@[simp] theorem leave_flows (y : Out) : (s.leave y).flows = s.flows := rfl
@[simp] theorem leave_alcove (y : Out) : (s.leave y).alcove = s.alcove := rfl
@[simp] theorem leave_atrium (y : Out) : (s.leave y).atrium = s.atrium := rfl
@[simp] theorem leave_bpm (y : Out) : (s.leave y).bpm = s.bpm := rfl
@[simp] theorem leave_planBursts (y : Out) : (s.leave y).planBursts = s.planBursts := rfl
@[simp] theorem leave_ln (y : Out) : (s.leave y).ln = s.ln := rfl
@[simp] theorem leave_lands (y : Out) : (s.leave y).lands = s.lands := rfl
@[simp] theorem leave_cores (y : Out) : (s.leave y).cores = s.cores := rfl
@[simp] theorem leave_handoffs (y : Out) : (s.leave y).handoffs = s.handoffs := rfl
@[simp] theorem leave_handoffPending (y : Out) : (s.leave y).handoffPending = s.handoffPending := rfl
@[simp] theorem leave_dma (y : Out) : (s.leave y).dma = s.dma := rfl
@[simp] theorem leave_tblq (y : Out) : (s.leave y).tblq = s.tblq := rfl
@[simp] theorem leave_cyc (y : Out) : (s.leave y).cyc = s.cyc := rfl
@[simp] theorem leave_keys (y : Out) : (s.leave y).keys = s.keys := rfl
@[simp] theorem leave_cph (y : Out) : (s.leave y).cph = s.cph := rfl
@[simp] theorem leave_fw (y : Out) : (s.leave y).fw = s.fw := rfl
@[simp] theorem leave_sto (y : Out) : (s.leave y).sto = s.sto := rfl
@[simp] theorem leave_baro (y : Out) : (s.leave y).baro = s.baro := rfl
@[simp] theorem leave_pkg (y : Out) : (s.leave y).pkg = s.pkg := rfl
@[simp] theorem leave_hallq (y : Out) : (s.leave y).hallq = s.hallq := rfl
@[simp] theorem leave_pending (y : Out) : (s.leave y).pending = s.pending := rfl

/-! ### nextGen -/

@[simp] theorem nextGen_regs (a b : Nat) : (s.nextGen a b).regs = s.regs := rfl
@[simp] theorem nextGen_latched (a b : Nat) : (s.nextGen a b).latched = s.latched := rfl
@[simp] theorem nextGen_wide (a b : Nat) : (s.nextGen a b).wide = s.wide := rfl
@[simp] theorem nextGen_now (a b : Nat) : (s.nextGen a b).now = s.now := rfl
@[simp] theorem nextGen_freeCtr (a b : Nat) : (s.nextGen a b).freeCtr = s.freeCtr := rfl
@[simp] theorem nextGen_tb (a b : Nat) : (s.nextGen a b).tb = s.tb := rfl
@[simp] theorem nextGen_sic (a b : Nat) : (s.nextGen a b).sic = s.sic := rfl
@[simp] theorem nextGen_own (a b : Nat) : (s.nextGen a b).own = s.own := rfl
@[simp] theorem nextGen_flt (a b : Nat) : (s.nextGen a b).flt = s.flt := rfl
@[simp] theorem nextGen_ep (a b : Nat) : (s.nextGen a b).ep = s.ep := rfl
@[simp] theorem nextGen_vfn (a b : Nat) : (s.nextGen a b).vfn = s.vfn := rfl
@[simp] theorem nextGen_pln (a b : Nat) : (s.nextGen a b).pln = s.pln := rfl
@[simp] theorem nextGen_seqs (a b : Nat) : (s.nextGen a b).seqs = s.seqs := rfl
@[simp] theorem nextGen_gal (a b : Nat) : (s.nextGen a b).gal = s.gal := rfl
@[simp] theorem nextGen_stageq (a b : Nat) : (s.nextGen a b).stageq = s.stageq := rfl
@[simp] theorem nextGen_flows (a b : Nat) : (s.nextGen a b).flows = s.flows := rfl
@[simp] theorem nextGen_alcove (a b : Nat) : (s.nextGen a b).alcove = s.alcove := rfl
@[simp] theorem nextGen_atrium (a b : Nat) : (s.nextGen a b).atrium = s.atrium := rfl
@[simp] theorem nextGen_bpm (a b : Nat) : (s.nextGen a b).bpm = s.bpm := rfl
@[simp] theorem nextGen_planBursts (a b : Nat) : (s.nextGen a b).planBursts = s.planBursts := rfl
@[simp] theorem nextGen_ln (a b : Nat) : (s.nextGen a b).ln = s.ln := rfl
@[simp] theorem nextGen_lands (a b : Nat) : (s.nextGen a b).lands = s.lands := rfl
@[simp] theorem nextGen_cores (a b : Nat) : (s.nextGen a b).cores = s.cores := rfl
@[simp] theorem nextGen_handoffs (a b : Nat) : (s.nextGen a b).handoffs = s.handoffs := rfl
@[simp] theorem nextGen_handoffPending (a b : Nat) : (s.nextGen a b).handoffPending = s.handoffPending := rfl
@[simp] theorem nextGen_dma (a b : Nat) : (s.nextGen a b).dma = s.dma := rfl
@[simp] theorem nextGen_tblq (a b : Nat) : (s.nextGen a b).tblq = s.tblq := rfl
@[simp] theorem nextGen_cyc (a b : Nat) : (s.nextGen a b).cyc = s.cyc := rfl
@[simp] theorem nextGen_keys (a b : Nat) : (s.nextGen a b).keys = s.keys := rfl
@[simp] theorem nextGen_cph (a b : Nat) : (s.nextGen a b).cph = s.cph := rfl
@[simp] theorem nextGen_fw (a b : Nat) : (s.nextGen a b).fw = s.fw := rfl
@[simp] theorem nextGen_sto (a b : Nat) : (s.nextGen a b).sto = s.sto := rfl
@[simp] theorem nextGen_baro (a b : Nat) : (s.nextGen a b).baro = s.baro := rfl
@[simp] theorem nextGen_pkg (a b : Nat) : (s.nextGen a b).pkg = s.pkg := rfl
@[simp] theorem nextGen_hallq (a b : Nat) : (s.nextGen a b).hallq = s.hallq := rfl
@[simp] theorem nextGen_out (a b : Nat) : (s.nextGen a b).out = s.out := rfl
@[simp] theorem nextGen_pending (a b : Nat) : (s.nextGen a b).pending = s.pending := rfl

/-! ### event -/

@[simp] theorem event_regs (f n : Nat) (b : Bytes) (h : Option Nat) : (s.event f n b h).regs = s.regs := rfl
@[simp] theorem event_latched (f n : Nat) (b : Bytes) (h : Option Nat) : (s.event f n b h).latched = s.latched := rfl
@[simp] theorem event_wide (f n : Nat) (b : Bytes) (h : Option Nat) : (s.event f n b h).wide = s.wide := rfl
@[simp] theorem event_now (f n : Nat) (b : Bytes) (h : Option Nat) : (s.event f n b h).now = s.now := rfl
@[simp] theorem event_freeCtr (f n : Nat) (b : Bytes) (h : Option Nat) : (s.event f n b h).freeCtr = s.freeCtr := rfl
@[simp] theorem event_tb (f n : Nat) (b : Bytes) (h : Option Nat) : (s.event f n b h).tb = s.tb := rfl
@[simp] theorem event_sic (f n : Nat) (b : Bytes) (h : Option Nat) : (s.event f n b h).sic = s.sic := rfl
@[simp] theorem event_own (f n : Nat) (b : Bytes) (h : Option Nat) : (s.event f n b h).own = s.own := rfl
@[simp] theorem event_flt (f n : Nat) (b : Bytes) (h : Option Nat) : (s.event f n b h).flt = s.flt := rfl
@[simp] theorem event_ep (f n : Nat) (b : Bytes) (h : Option Nat) : (s.event f n b h).ep = s.ep := rfl
@[simp] theorem event_vfn (f n : Nat) (b : Bytes) (h : Option Nat) : (s.event f n b h).vfn = s.vfn := rfl
@[simp] theorem event_pln (f n : Nat) (b : Bytes) (h : Option Nat) : (s.event f n b h).pln = s.pln := rfl
@[simp] theorem event_seqs (f n : Nat) (b : Bytes) (h : Option Nat) : (s.event f n b h).seqs = s.seqs := rfl
@[simp] theorem event_gal (f n : Nat) (b : Bytes) (h : Option Nat) : (s.event f n b h).gal = s.gal := rfl
@[simp] theorem event_stageq (f n : Nat) (b : Bytes) (h : Option Nat) : (s.event f n b h).stageq = s.stageq := rfl
@[simp] theorem event_flows (f n : Nat) (b : Bytes) (h : Option Nat) : (s.event f n b h).flows = s.flows := rfl
@[simp] theorem event_alcove (f n : Nat) (b : Bytes) (h : Option Nat) : (s.event f n b h).alcove = s.alcove := rfl
@[simp] theorem event_atrium (f n : Nat) (b : Bytes) (h : Option Nat) : (s.event f n b h).atrium = s.atrium := rfl
@[simp] theorem event_bpm (f n : Nat) (b : Bytes) (h : Option Nat) : (s.event f n b h).bpm = s.bpm := rfl
@[simp] theorem event_planBursts (f n : Nat) (b : Bytes) (h : Option Nat) : (s.event f n b h).planBursts = s.planBursts := rfl
@[simp] theorem event_ln (f n : Nat) (b : Bytes) (h : Option Nat) : (s.event f n b h).ln = s.ln := rfl
@[simp] theorem event_lands (f n : Nat) (b : Bytes) (h : Option Nat) : (s.event f n b h).lands = s.lands := rfl
@[simp] theorem event_cores (f n : Nat) (b : Bytes) (h : Option Nat) : (s.event f n b h).cores = s.cores := rfl
@[simp] theorem event_handoffs (f n : Nat) (b : Bytes) (h : Option Nat) : (s.event f n b h).handoffs = s.handoffs := rfl
@[simp] theorem event_handoffPending (f n : Nat) (b : Bytes) (h : Option Nat) : (s.event f n b h).handoffPending = s.handoffPending := rfl
@[simp] theorem event_dma (f n : Nat) (b : Bytes) (h : Option Nat) : (s.event f n b h).dma = s.dma := rfl
@[simp] theorem event_tblq (f n : Nat) (b : Bytes) (h : Option Nat) : (s.event f n b h).tblq = s.tblq := rfl
@[simp] theorem event_cyc (f n : Nat) (b : Bytes) (h : Option Nat) : (s.event f n b h).cyc = s.cyc := rfl
@[simp] theorem event_keys (f n : Nat) (b : Bytes) (h : Option Nat) : (s.event f n b h).keys = s.keys := rfl
@[simp] theorem event_cph (f n : Nat) (b : Bytes) (h : Option Nat) : (s.event f n b h).cph = s.cph := rfl
@[simp] theorem event_fw (f n : Nat) (b : Bytes) (h : Option Nat) : (s.event f n b h).fw = s.fw := rfl
@[simp] theorem event_sto (f n : Nat) (b : Bytes) (h : Option Nat) : (s.event f n b h).sto = s.sto := rfl
@[simp] theorem event_baro (f n : Nat) (b : Bytes) (h : Option Nat) : (s.event f n b h).baro = s.baro := rfl
@[simp] theorem event_pkg (f n : Nat) (b : Bytes) (h : Option Nat) : (s.event f n b h).pkg = s.pkg := rfl
@[simp] theorem event_hallq (f n : Nat) (b : Bytes) (h : Option Nat) : (s.event f n b h).hallq = s.hallq := rfl
@[simp] theorem event_out (f n : Nat) (b : Bytes) (h : Option Nat) : (s.event f n b h).out = s.out := rfl
@[simp] theorem event_pending (f n : Nat) (b : Bytes) (h : Option Nat) : (s.event f n b h).pending = s.pending := rfl

/-! ### irqDue -/

@[simp] theorem irqDue_regs (f v : Nat) : (s.irqDue f v).regs = s.regs := rfl
@[simp] theorem irqDue_latched (f v : Nat) : (s.irqDue f v).latched = s.latched := rfl
@[simp] theorem irqDue_wide (f v : Nat) : (s.irqDue f v).wide = s.wide := rfl
@[simp] theorem irqDue_now (f v : Nat) : (s.irqDue f v).now = s.now := rfl
@[simp] theorem irqDue_freeCtr (f v : Nat) : (s.irqDue f v).freeCtr = s.freeCtr := rfl
@[simp] theorem irqDue_tb (f v : Nat) : (s.irqDue f v).tb = s.tb := rfl
@[simp] theorem irqDue_sic (f v : Nat) : (s.irqDue f v).sic = s.sic := rfl
@[simp] theorem irqDue_own (f v : Nat) : (s.irqDue f v).own = s.own := rfl
@[simp] theorem irqDue_flt (f v : Nat) : (s.irqDue f v).flt = s.flt := rfl
@[simp] theorem irqDue_ep (f v : Nat) : (s.irqDue f v).ep = s.ep := rfl
@[simp] theorem irqDue_vfn (f v : Nat) : (s.irqDue f v).vfn = s.vfn := rfl
@[simp] theorem irqDue_pln (f v : Nat) : (s.irqDue f v).pln = s.pln := rfl
@[simp] theorem irqDue_seqs (f v : Nat) : (s.irqDue f v).seqs = s.seqs := rfl
@[simp] theorem irqDue_gal (f v : Nat) : (s.irqDue f v).gal = s.gal := rfl
@[simp] theorem irqDue_stageq (f v : Nat) : (s.irqDue f v).stageq = s.stageq := rfl
@[simp] theorem irqDue_flows (f v : Nat) : (s.irqDue f v).flows = s.flows := rfl
@[simp] theorem irqDue_alcove (f v : Nat) : (s.irqDue f v).alcove = s.alcove := rfl
@[simp] theorem irqDue_atrium (f v : Nat) : (s.irqDue f v).atrium = s.atrium := rfl
@[simp] theorem irqDue_bpm (f v : Nat) : (s.irqDue f v).bpm = s.bpm := rfl
@[simp] theorem irqDue_planBursts (f v : Nat) : (s.irqDue f v).planBursts = s.planBursts := rfl
@[simp] theorem irqDue_ln (f v : Nat) : (s.irqDue f v).ln = s.ln := rfl
@[simp] theorem irqDue_lands (f v : Nat) : (s.irqDue f v).lands = s.lands := rfl
@[simp] theorem irqDue_cores (f v : Nat) : (s.irqDue f v).cores = s.cores := rfl
@[simp] theorem irqDue_handoffs (f v : Nat) : (s.irqDue f v).handoffs = s.handoffs := rfl
@[simp] theorem irqDue_handoffPending (f v : Nat) : (s.irqDue f v).handoffPending = s.handoffPending := rfl
@[simp] theorem irqDue_dma (f v : Nat) : (s.irqDue f v).dma = s.dma := rfl
@[simp] theorem irqDue_tblq (f v : Nat) : (s.irqDue f v).tblq = s.tblq := rfl
@[simp] theorem irqDue_cyc (f v : Nat) : (s.irqDue f v).cyc = s.cyc := rfl
@[simp] theorem irqDue_keys (f v : Nat) : (s.irqDue f v).keys = s.keys := rfl
@[simp] theorem irqDue_cph (f v : Nat) : (s.irqDue f v).cph = s.cph := rfl
@[simp] theorem irqDue_fw (f v : Nat) : (s.irqDue f v).fw = s.fw := rfl
@[simp] theorem irqDue_sto (f v : Nat) : (s.irqDue f v).sto = s.sto := rfl
@[simp] theorem irqDue_baro (f v : Nat) : (s.irqDue f v).baro = s.baro := rfl
@[simp] theorem irqDue_pkg (f v : Nat) : (s.irqDue f v).pkg = s.pkg := rfl
@[simp] theorem irqDue_hallq (f v : Nat) : (s.irqDue f v).hallq = s.hallq := rfl
@[simp] theorem irqDue_out (f v : Nat) : (s.irqDue f v).out = s.out := rfl
@[simp] theorem irqDue_pending (f v : Nat) : (s.irqDue f v).pending = s.pending := rfl

/-! ### setFn -/

@[simp] theorem setFn_regs (f : Nat) (v : FnSt) : (s.setFn f v).regs = s.regs := rfl
@[simp] theorem setFn_latched (f : Nat) (v : FnSt) : (s.setFn f v).latched = s.latched := rfl
@[simp] theorem setFn_wide (f : Nat) (v : FnSt) : (s.setFn f v).wide = s.wide := rfl
@[simp] theorem setFn_now (f : Nat) (v : FnSt) : (s.setFn f v).now = s.now := rfl
@[simp] theorem setFn_freeCtr (f : Nat) (v : FnSt) : (s.setFn f v).freeCtr = s.freeCtr := rfl
@[simp] theorem setFn_tb (f : Nat) (v : FnSt) : (s.setFn f v).tb = s.tb := rfl
@[simp] theorem setFn_wq (f : Nat) (v : FnSt) : (s.setFn f v).wq = s.wq := rfl
@[simp] theorem setFn_sic (f : Nat) (v : FnSt) : (s.setFn f v).sic = s.sic := rfl
@[simp] theorem setFn_own (f : Nat) (v : FnSt) : (s.setFn f v).own = s.own := rfl
@[simp] theorem setFn_flt (f : Nat) (v : FnSt) : (s.setFn f v).flt = s.flt := rfl
@[simp] theorem setFn_vfn (f : Nat) (v : FnSt) : (s.setFn f v).vfn = s.vfn := rfl
@[simp] theorem setFn_pln (f : Nat) (v : FnSt) : (s.setFn f v).pln = s.pln := rfl
@[simp] theorem setFn_seqs (f : Nat) (v : FnSt) : (s.setFn f v).seqs = s.seqs := rfl
@[simp] theorem setFn_gal (f : Nat) (v : FnSt) : (s.setFn f v).gal = s.gal := rfl
@[simp] theorem setFn_stageq (f : Nat) (v : FnSt) : (s.setFn f v).stageq = s.stageq := rfl
@[simp] theorem setFn_flows (f : Nat) (v : FnSt) : (s.setFn f v).flows = s.flows := rfl
@[simp] theorem setFn_alcove (f : Nat) (v : FnSt) : (s.setFn f v).alcove = s.alcove := rfl
@[simp] theorem setFn_atrium (f : Nat) (v : FnSt) : (s.setFn f v).atrium = s.atrium := rfl
@[simp] theorem setFn_bpm (f : Nat) (v : FnSt) : (s.setFn f v).bpm = s.bpm := rfl
@[simp] theorem setFn_planBursts (f : Nat) (v : FnSt) : (s.setFn f v).planBursts = s.planBursts := rfl
@[simp] theorem setFn_ln (f : Nat) (v : FnSt) : (s.setFn f v).ln = s.ln := rfl
@[simp] theorem setFn_lands (f : Nat) (v : FnSt) : (s.setFn f v).lands = s.lands := rfl
@[simp] theorem setFn_cores (f : Nat) (v : FnSt) : (s.setFn f v).cores = s.cores := rfl
@[simp] theorem setFn_handoffs (f : Nat) (v : FnSt) : (s.setFn f v).handoffs = s.handoffs := rfl
@[simp] theorem setFn_handoffPending (f : Nat) (v : FnSt) : (s.setFn f v).handoffPending = s.handoffPending := rfl
@[simp] theorem setFn_dma (f : Nat) (v : FnSt) : (s.setFn f v).dma = s.dma := rfl
@[simp] theorem setFn_tblq (f : Nat) (v : FnSt) : (s.setFn f v).tblq = s.tblq := rfl
@[simp] theorem setFn_cyc (f : Nat) (v : FnSt) : (s.setFn f v).cyc = s.cyc := rfl
@[simp] theorem setFn_keys (f : Nat) (v : FnSt) : (s.setFn f v).keys = s.keys := rfl
@[simp] theorem setFn_cph (f : Nat) (v : FnSt) : (s.setFn f v).cph = s.cph := rfl
@[simp] theorem setFn_fw (f : Nat) (v : FnSt) : (s.setFn f v).fw = s.fw := rfl
@[simp] theorem setFn_sto (f : Nat) (v : FnSt) : (s.setFn f v).sto = s.sto := rfl
@[simp] theorem setFn_baro (f : Nat) (v : FnSt) : (s.setFn f v).baro = s.baro := rfl
@[simp] theorem setFn_pkg (f : Nat) (v : FnSt) : (s.setFn f v).pkg = s.pkg := rfl
@[simp] theorem setFn_hallq (f : Nat) (v : FnSt) : (s.setFn f v).hallq = s.hallq := rfl
@[simp] theorem setFn_out (f : Nat) (v : FnSt) : (s.setFn f v).out = s.out := rfl
@[simp] theorem setFn_pending (f : Nat) (v : FnSt) : (s.setFn f v).pending = s.pending := rfl

/-! ### setQueue -/

@[simp] theorem setQueue_regs (k : Nat) (q : Queue) : (s.setQueue k q).regs = s.regs := rfl
@[simp] theorem setQueue_latched (k : Nat) (q : Queue) : (s.setQueue k q).latched = s.latched := rfl
@[simp] theorem setQueue_wide (k : Nat) (q : Queue) : (s.setQueue k q).wide = s.wide := rfl
@[simp] theorem setQueue_now (k : Nat) (q : Queue) : (s.setQueue k q).now = s.now := rfl
@[simp] theorem setQueue_freeCtr (k : Nat) (q : Queue) : (s.setQueue k q).freeCtr = s.freeCtr := rfl
@[simp] theorem setQueue_tb (k : Nat) (q : Queue) : (s.setQueue k q).tb = s.tb := rfl
@[simp] theorem setQueue_sic (k : Nat) (q : Queue) : (s.setQueue k q).sic = s.sic := rfl
@[simp] theorem setQueue_own (k : Nat) (q : Queue) : (s.setQueue k q).own = s.own := rfl
@[simp] theorem setQueue_flt (k : Nat) (q : Queue) : (s.setQueue k q).flt = s.flt := rfl
@[simp] theorem setQueue_ep (k : Nat) (q : Queue) : (s.setQueue k q).ep = s.ep := rfl
@[simp] theorem setQueue_vfn (k : Nat) (q : Queue) : (s.setQueue k q).vfn = s.vfn := rfl
@[simp] theorem setQueue_pln (k : Nat) (q : Queue) : (s.setQueue k q).pln = s.pln := rfl
@[simp] theorem setQueue_seqs (k : Nat) (q : Queue) : (s.setQueue k q).seqs = s.seqs := rfl
@[simp] theorem setQueue_gal (k : Nat) (q : Queue) : (s.setQueue k q).gal = s.gal := rfl
@[simp] theorem setQueue_stageq (k : Nat) (q : Queue) : (s.setQueue k q).stageq = s.stageq := rfl
@[simp] theorem setQueue_flows (k : Nat) (q : Queue) : (s.setQueue k q).flows = s.flows := rfl
@[simp] theorem setQueue_alcove (k : Nat) (q : Queue) : (s.setQueue k q).alcove = s.alcove := rfl
@[simp] theorem setQueue_atrium (k : Nat) (q : Queue) : (s.setQueue k q).atrium = s.atrium := rfl
@[simp] theorem setQueue_bpm (k : Nat) (q : Queue) : (s.setQueue k q).bpm = s.bpm := rfl
@[simp] theorem setQueue_planBursts (k : Nat) (q : Queue) : (s.setQueue k q).planBursts = s.planBursts := rfl
@[simp] theorem setQueue_ln (k : Nat) (q : Queue) : (s.setQueue k q).ln = s.ln := rfl
@[simp] theorem setQueue_lands (k : Nat) (q : Queue) : (s.setQueue k q).lands = s.lands := rfl
@[simp] theorem setQueue_cores (k : Nat) (q : Queue) : (s.setQueue k q).cores = s.cores := rfl
@[simp] theorem setQueue_handoffs (k : Nat) (q : Queue) : (s.setQueue k q).handoffs = s.handoffs := rfl
@[simp] theorem setQueue_handoffPending (k : Nat) (q : Queue) : (s.setQueue k q).handoffPending = s.handoffPending := rfl
@[simp] theorem setQueue_dma (k : Nat) (q : Queue) : (s.setQueue k q).dma = s.dma := rfl
@[simp] theorem setQueue_tblq (k : Nat) (q : Queue) : (s.setQueue k q).tblq = s.tblq := rfl
@[simp] theorem setQueue_cyc (k : Nat) (q : Queue) : (s.setQueue k q).cyc = s.cyc := rfl
@[simp] theorem setQueue_keys (k : Nat) (q : Queue) : (s.setQueue k q).keys = s.keys := rfl
@[simp] theorem setQueue_cph (k : Nat) (q : Queue) : (s.setQueue k q).cph = s.cph := rfl
@[simp] theorem setQueue_fw (k : Nat) (q : Queue) : (s.setQueue k q).fw = s.fw := rfl
@[simp] theorem setQueue_sto (k : Nat) (q : Queue) : (s.setQueue k q).sto = s.sto := rfl
@[simp] theorem setQueue_baro (k : Nat) (q : Queue) : (s.setQueue k q).baro = s.baro := rfl
@[simp] theorem setQueue_pkg (k : Nat) (q : Queue) : (s.setQueue k q).pkg = s.pkg := rfl
@[simp] theorem setQueue_hallq (k : Nat) (q : Queue) : (s.setQueue k q).hallq = s.hallq := rfl
@[simp] theorem setQueue_out (k : Nat) (q : Queue) : (s.setQueue k q).out = s.out := rfl
@[simp] theorem setQueue_pending (k : Nat) (q : Queue) : (s.setQueue k q).pending = s.pending := rfl

/-! ### setCq -/

@[simp] theorem setCq_regs (k : Nat) (c : Cq) : (s.setCq k c).regs = s.regs := rfl
@[simp] theorem setCq_latched (k : Nat) (c : Cq) : (s.setCq k c).latched = s.latched := rfl
@[simp] theorem setCq_wide (k : Nat) (c : Cq) : (s.setCq k c).wide = s.wide := rfl
@[simp] theorem setCq_now (k : Nat) (c : Cq) : (s.setCq k c).now = s.now := rfl
@[simp] theorem setCq_freeCtr (k : Nat) (c : Cq) : (s.setCq k c).freeCtr = s.freeCtr := rfl
@[simp] theorem setCq_tb (k : Nat) (c : Cq) : (s.setCq k c).tb = s.tb := rfl
@[simp] theorem setCq_sic (k : Nat) (c : Cq) : (s.setCq k c).sic = s.sic := rfl
@[simp] theorem setCq_own (k : Nat) (c : Cq) : (s.setCq k c).own = s.own := rfl
@[simp] theorem setCq_flt (k : Nat) (c : Cq) : (s.setCq k c).flt = s.flt := rfl
@[simp] theorem setCq_ep (k : Nat) (c : Cq) : (s.setCq k c).ep = s.ep := rfl
@[simp] theorem setCq_vfn (k : Nat) (c : Cq) : (s.setCq k c).vfn = s.vfn := rfl
@[simp] theorem setCq_pln (k : Nat) (c : Cq) : (s.setCq k c).pln = s.pln := rfl
@[simp] theorem setCq_seqs (k : Nat) (c : Cq) : (s.setCq k c).seqs = s.seqs := rfl
@[simp] theorem setCq_gal (k : Nat) (c : Cq) : (s.setCq k c).gal = s.gal := rfl
@[simp] theorem setCq_stageq (k : Nat) (c : Cq) : (s.setCq k c).stageq = s.stageq := rfl
@[simp] theorem setCq_flows (k : Nat) (c : Cq) : (s.setCq k c).flows = s.flows := rfl
@[simp] theorem setCq_alcove (k : Nat) (c : Cq) : (s.setCq k c).alcove = s.alcove := rfl
@[simp] theorem setCq_atrium (k : Nat) (c : Cq) : (s.setCq k c).atrium = s.atrium := rfl
@[simp] theorem setCq_bpm (k : Nat) (c : Cq) : (s.setCq k c).bpm = s.bpm := rfl
@[simp] theorem setCq_planBursts (k : Nat) (c : Cq) : (s.setCq k c).planBursts = s.planBursts := rfl
@[simp] theorem setCq_ln (k : Nat) (c : Cq) : (s.setCq k c).ln = s.ln := rfl
@[simp] theorem setCq_lands (k : Nat) (c : Cq) : (s.setCq k c).lands = s.lands := rfl
@[simp] theorem setCq_cores (k : Nat) (c : Cq) : (s.setCq k c).cores = s.cores := rfl
@[simp] theorem setCq_handoffs (k : Nat) (c : Cq) : (s.setCq k c).handoffs = s.handoffs := rfl
@[simp] theorem setCq_handoffPending (k : Nat) (c : Cq) : (s.setCq k c).handoffPending = s.handoffPending := rfl
@[simp] theorem setCq_dma (k : Nat) (c : Cq) : (s.setCq k c).dma = s.dma := rfl
@[simp] theorem setCq_tblq (k : Nat) (c : Cq) : (s.setCq k c).tblq = s.tblq := rfl
@[simp] theorem setCq_cyc (k : Nat) (c : Cq) : (s.setCq k c).cyc = s.cyc := rfl
@[simp] theorem setCq_keys (k : Nat) (c : Cq) : (s.setCq k c).keys = s.keys := rfl
@[simp] theorem setCq_cph (k : Nat) (c : Cq) : (s.setCq k c).cph = s.cph := rfl
@[simp] theorem setCq_fw (k : Nat) (c : Cq) : (s.setCq k c).fw = s.fw := rfl
@[simp] theorem setCq_sto (k : Nat) (c : Cq) : (s.setCq k c).sto = s.sto := rfl
@[simp] theorem setCq_baro (k : Nat) (c : Cq) : (s.setCq k c).baro = s.baro := rfl
@[simp] theorem setCq_pkg (k : Nat) (c : Cq) : (s.setCq k c).pkg = s.pkg := rfl
@[simp] theorem setCq_hallq (k : Nat) (c : Cq) : (s.setCq k c).hallq = s.hallq := rfl
@[simp] theorem setCq_out (k : Nat) (c : Cq) : (s.setCq k c).out = s.out := rfl
@[simp] theorem setCq_pending (k : Nat) (c : Cq) : (s.setCq k c).pending = s.pending := rfl

/-! ### setLand -/

@[simp] theorem setLand_regs (k : Nat) (l : LandSt) : (s.setLand k l).regs = s.regs := rfl
@[simp] theorem setLand_latched (k : Nat) (l : LandSt) : (s.setLand k l).latched = s.latched := rfl
@[simp] theorem setLand_wide (k : Nat) (l : LandSt) : (s.setLand k l).wide = s.wide := rfl
@[simp] theorem setLand_now (k : Nat) (l : LandSt) : (s.setLand k l).now = s.now := rfl
@[simp] theorem setLand_freeCtr (k : Nat) (l : LandSt) : (s.setLand k l).freeCtr = s.freeCtr := rfl
@[simp] theorem setLand_tb (k : Nat) (l : LandSt) : (s.setLand k l).tb = s.tb := rfl
@[simp] theorem setLand_wq (k : Nat) (l : LandSt) : (s.setLand k l).wq = s.wq := rfl
@[simp] theorem setLand_sic (k : Nat) (l : LandSt) : (s.setLand k l).sic = s.sic := rfl
@[simp] theorem setLand_own (k : Nat) (l : LandSt) : (s.setLand k l).own = s.own := rfl
@[simp] theorem setLand_flt (k : Nat) (l : LandSt) : (s.setLand k l).flt = s.flt := rfl
@[simp] theorem setLand_ep (k : Nat) (l : LandSt) : (s.setLand k l).ep = s.ep := rfl
@[simp] theorem setLand_vfn (k : Nat) (l : LandSt) : (s.setLand k l).vfn = s.vfn := rfl
@[simp] theorem setLand_pln (k : Nat) (l : LandSt) : (s.setLand k l).pln = s.pln := rfl
@[simp] theorem setLand_seqs (k : Nat) (l : LandSt) : (s.setLand k l).seqs = s.seqs := rfl
@[simp] theorem setLand_gal (k : Nat) (l : LandSt) : (s.setLand k l).gal = s.gal := rfl
@[simp] theorem setLand_stageq (k : Nat) (l : LandSt) : (s.setLand k l).stageq = s.stageq := rfl
@[simp] theorem setLand_flows (k : Nat) (l : LandSt) : (s.setLand k l).flows = s.flows := rfl
@[simp] theorem setLand_alcove (k : Nat) (l : LandSt) : (s.setLand k l).alcove = s.alcove := rfl
@[simp] theorem setLand_atrium (k : Nat) (l : LandSt) : (s.setLand k l).atrium = s.atrium := rfl
@[simp] theorem setLand_bpm (k : Nat) (l : LandSt) : (s.setLand k l).bpm = s.bpm := rfl
@[simp] theorem setLand_planBursts (k : Nat) (l : LandSt) : (s.setLand k l).planBursts = s.planBursts := rfl
@[simp] theorem setLand_ln (k : Nat) (l : LandSt) : (s.setLand k l).ln = s.ln := rfl
@[simp] theorem setLand_cores (k : Nat) (l : LandSt) : (s.setLand k l).cores = s.cores := rfl
@[simp] theorem setLand_handoffs (k : Nat) (l : LandSt) : (s.setLand k l).handoffs = s.handoffs := rfl
@[simp] theorem setLand_handoffPending (k : Nat) (l : LandSt) : (s.setLand k l).handoffPending = s.handoffPending := rfl
@[simp] theorem setLand_dma (k : Nat) (l : LandSt) : (s.setLand k l).dma = s.dma := rfl
@[simp] theorem setLand_tblq (k : Nat) (l : LandSt) : (s.setLand k l).tblq = s.tblq := rfl
@[simp] theorem setLand_cyc (k : Nat) (l : LandSt) : (s.setLand k l).cyc = s.cyc := rfl
@[simp] theorem setLand_keys (k : Nat) (l : LandSt) : (s.setLand k l).keys = s.keys := rfl
@[simp] theorem setLand_cph (k : Nat) (l : LandSt) : (s.setLand k l).cph = s.cph := rfl
@[simp] theorem setLand_fw (k : Nat) (l : LandSt) : (s.setLand k l).fw = s.fw := rfl
@[simp] theorem setLand_sto (k : Nat) (l : LandSt) : (s.setLand k l).sto = s.sto := rfl
@[simp] theorem setLand_baro (k : Nat) (l : LandSt) : (s.setLand k l).baro = s.baro := rfl
@[simp] theorem setLand_pkg (k : Nat) (l : LandSt) : (s.setLand k l).pkg = s.pkg := rfl
@[simp] theorem setLand_hallq (k : Nat) (l : LandSt) : (s.setLand k l).hallq = s.hallq := rfl
@[simp] theorem setLand_out (k : Nat) (l : LandSt) : (s.setLand k l).out = s.out := rfl
@[simp] theorem setLand_pending (k : Nat) (l : LandSt) : (s.setLand k l).pending = s.pending := rfl

/-! ### setSeq -/

@[simp] theorem setSeq_regs (h : Nat) (q : SeqSt) : (s.setSeq h q).regs = s.regs := rfl
@[simp] theorem setSeq_latched (h : Nat) (q : SeqSt) : (s.setSeq h q).latched = s.latched := rfl
@[simp] theorem setSeq_wide (h : Nat) (q : SeqSt) : (s.setSeq h q).wide = s.wide := rfl
@[simp] theorem setSeq_now (h : Nat) (q : SeqSt) : (s.setSeq h q).now = s.now := rfl
@[simp] theorem setSeq_freeCtr (h : Nat) (q : SeqSt) : (s.setSeq h q).freeCtr = s.freeCtr := rfl
@[simp] theorem setSeq_tb (h : Nat) (q : SeqSt) : (s.setSeq h q).tb = s.tb := rfl
@[simp] theorem setSeq_wq (h : Nat) (q : SeqSt) : (s.setSeq h q).wq = s.wq := rfl
@[simp] theorem setSeq_sic (h : Nat) (q : SeqSt) : (s.setSeq h q).sic = s.sic := rfl
@[simp] theorem setSeq_own (h : Nat) (q : SeqSt) : (s.setSeq h q).own = s.own := rfl
@[simp] theorem setSeq_flt (h : Nat) (q : SeqSt) : (s.setSeq h q).flt = s.flt := rfl
@[simp] theorem setSeq_ep (h : Nat) (q : SeqSt) : (s.setSeq h q).ep = s.ep := rfl
@[simp] theorem setSeq_vfn (h : Nat) (q : SeqSt) : (s.setSeq h q).vfn = s.vfn := rfl
@[simp] theorem setSeq_pln (h : Nat) (q : SeqSt) : (s.setSeq h q).pln = s.pln := rfl
@[simp] theorem setSeq_gal (h : Nat) (q : SeqSt) : (s.setSeq h q).gal = s.gal := rfl
@[simp] theorem setSeq_stageq (h : Nat) (q : SeqSt) : (s.setSeq h q).stageq = s.stageq := rfl
@[simp] theorem setSeq_flows (h : Nat) (q : SeqSt) : (s.setSeq h q).flows = s.flows := rfl
@[simp] theorem setSeq_alcove (h : Nat) (q : SeqSt) : (s.setSeq h q).alcove = s.alcove := rfl
@[simp] theorem setSeq_atrium (h : Nat) (q : SeqSt) : (s.setSeq h q).atrium = s.atrium := rfl
@[simp] theorem setSeq_bpm (h : Nat) (q : SeqSt) : (s.setSeq h q).bpm = s.bpm := rfl
@[simp] theorem setSeq_planBursts (h : Nat) (q : SeqSt) : (s.setSeq h q).planBursts = s.planBursts := rfl
@[simp] theorem setSeq_ln (h : Nat) (q : SeqSt) : (s.setSeq h q).ln = s.ln := rfl
@[simp] theorem setSeq_lands (h : Nat) (q : SeqSt) : (s.setSeq h q).lands = s.lands := rfl
@[simp] theorem setSeq_cores (h : Nat) (q : SeqSt) : (s.setSeq h q).cores = s.cores := rfl
@[simp] theorem setSeq_handoffs (h : Nat) (q : SeqSt) : (s.setSeq h q).handoffs = s.handoffs := rfl
@[simp] theorem setSeq_handoffPending (h : Nat) (q : SeqSt) : (s.setSeq h q).handoffPending = s.handoffPending := rfl
@[simp] theorem setSeq_dma (h : Nat) (q : SeqSt) : (s.setSeq h q).dma = s.dma := rfl
@[simp] theorem setSeq_tblq (h : Nat) (q : SeqSt) : (s.setSeq h q).tblq = s.tblq := rfl
@[simp] theorem setSeq_cyc (h : Nat) (q : SeqSt) : (s.setSeq h q).cyc = s.cyc := rfl
@[simp] theorem setSeq_keys (h : Nat) (q : SeqSt) : (s.setSeq h q).keys = s.keys := rfl
@[simp] theorem setSeq_cph (h : Nat) (q : SeqSt) : (s.setSeq h q).cph = s.cph := rfl
@[simp] theorem setSeq_fw (h : Nat) (q : SeqSt) : (s.setSeq h q).fw = s.fw := rfl
@[simp] theorem setSeq_sto (h : Nat) (q : SeqSt) : (s.setSeq h q).sto = s.sto := rfl
@[simp] theorem setSeq_baro (h : Nat) (q : SeqSt) : (s.setSeq h q).baro = s.baro := rfl
@[simp] theorem setSeq_pkg (h : Nat) (q : SeqSt) : (s.setSeq h q).pkg = s.pkg := rfl
@[simp] theorem setSeq_hallq (h : Nat) (q : SeqSt) : (s.setSeq h q).hallq = s.hallq := rfl
@[simp] theorem setSeq_out (h : Nat) (q : SeqSt) : (s.setSeq h q).out = s.out := rfl
@[simp] theorem setSeq_pending (h : Nat) (q : SeqSt) : (s.setSeq h q).pending = s.pending := rfl

/-! ### setCore -/

@[simp] theorem setCore_regs (h c : Nat) (m : RCore) : (s.setCore h c m).regs = s.regs := rfl
@[simp] theorem setCore_latched (h c : Nat) (m : RCore) : (s.setCore h c m).latched = s.latched := rfl
@[simp] theorem setCore_wide (h c : Nat) (m : RCore) : (s.setCore h c m).wide = s.wide := rfl
@[simp] theorem setCore_now (h c : Nat) (m : RCore) : (s.setCore h c m).now = s.now := rfl
@[simp] theorem setCore_freeCtr (h c : Nat) (m : RCore) : (s.setCore h c m).freeCtr = s.freeCtr := rfl
@[simp] theorem setCore_tb (h c : Nat) (m : RCore) : (s.setCore h c m).tb = s.tb := rfl
@[simp] theorem setCore_wq (h c : Nat) (m : RCore) : (s.setCore h c m).wq = s.wq := rfl
@[simp] theorem setCore_sic (h c : Nat) (m : RCore) : (s.setCore h c m).sic = s.sic := rfl
@[simp] theorem setCore_own (h c : Nat) (m : RCore) : (s.setCore h c m).own = s.own := rfl
@[simp] theorem setCore_flt (h c : Nat) (m : RCore) : (s.setCore h c m).flt = s.flt := rfl
@[simp] theorem setCore_ep (h c : Nat) (m : RCore) : (s.setCore h c m).ep = s.ep := rfl
@[simp] theorem setCore_vfn (h c : Nat) (m : RCore) : (s.setCore h c m).vfn = s.vfn := rfl
@[simp] theorem setCore_pln (h c : Nat) (m : RCore) : (s.setCore h c m).pln = s.pln := rfl
@[simp] theorem setCore_seqs (h c : Nat) (m : RCore) : (s.setCore h c m).seqs = s.seqs := rfl
@[simp] theorem setCore_gal (h c : Nat) (m : RCore) : (s.setCore h c m).gal = s.gal := rfl
@[simp] theorem setCore_stageq (h c : Nat) (m : RCore) : (s.setCore h c m).stageq = s.stageq := rfl
@[simp] theorem setCore_flows (h c : Nat) (m : RCore) : (s.setCore h c m).flows = s.flows := rfl
@[simp] theorem setCore_alcove (h c : Nat) (m : RCore) : (s.setCore h c m).alcove = s.alcove := rfl
@[simp] theorem setCore_atrium (h c : Nat) (m : RCore) : (s.setCore h c m).atrium = s.atrium := rfl
@[simp] theorem setCore_bpm (h c : Nat) (m : RCore) : (s.setCore h c m).bpm = s.bpm := rfl
@[simp] theorem setCore_planBursts (h c : Nat) (m : RCore) : (s.setCore h c m).planBursts = s.planBursts := rfl
@[simp] theorem setCore_ln (h c : Nat) (m : RCore) : (s.setCore h c m).ln = s.ln := rfl
@[simp] theorem setCore_lands (h c : Nat) (m : RCore) : (s.setCore h c m).lands = s.lands := rfl
@[simp] theorem setCore_handoffs (h c : Nat) (m : RCore) : (s.setCore h c m).handoffs = s.handoffs := rfl
@[simp] theorem setCore_handoffPending (h c : Nat) (m : RCore) : (s.setCore h c m).handoffPending = s.handoffPending := rfl
@[simp] theorem setCore_dma (h c : Nat) (m : RCore) : (s.setCore h c m).dma = s.dma := rfl
@[simp] theorem setCore_tblq (h c : Nat) (m : RCore) : (s.setCore h c m).tblq = s.tblq := rfl
@[simp] theorem setCore_cyc (h c : Nat) (m : RCore) : (s.setCore h c m).cyc = s.cyc := rfl
@[simp] theorem setCore_keys (h c : Nat) (m : RCore) : (s.setCore h c m).keys = s.keys := rfl
@[simp] theorem setCore_cph (h c : Nat) (m : RCore) : (s.setCore h c m).cph = s.cph := rfl
@[simp] theorem setCore_fw (h c : Nat) (m : RCore) : (s.setCore h c m).fw = s.fw := rfl
@[simp] theorem setCore_sto (h c : Nat) (m : RCore) : (s.setCore h c m).sto = s.sto := rfl
@[simp] theorem setCore_baro (h c : Nat) (m : RCore) : (s.setCore h c m).baro = s.baro := rfl
@[simp] theorem setCore_pkg (h c : Nat) (m : RCore) : (s.setCore h c m).pkg = s.pkg := rfl
@[simp] theorem setCore_hallq (h c : Nat) (m : RCore) : (s.setCore h c m).hallq = s.hallq := rfl
@[simp] theorem setCore_out (h c : Nat) (m : RCore) : (s.setCore h c m).out = s.out := rfl
@[simp] theorem setCore_pending (h c : Nat) (m : RCore) : (s.setCore h c m).pending = s.pending := rfl

/-! ### Register fields -/

@[simp] theorem fld_atTime (t : Nat) (x : Fld) (j k : Nat) : (s.atTime t).fld x j k = s.fld x j k := rfl
@[simp] theorem flag_atTime (t : Nat) (x : Fld) (j k : Nat) : (s.atTime t).flag x j k = s.flag x j k := rfl
@[simp] theorem fld_drawn (x : Fld) (j k : Nat) : (s.drawn).fld x j k = s.fld x j k := rfl
@[simp] theorem flag_drawn (x : Fld) (j k : Nat) : (s.drawn).flag x j k = s.flag x j k := rfl
@[simp] theorem fld_leave (y : Out) (x : Fld) (j k : Nat) : (s.leave y).fld x j k = s.fld x j k := rfl
@[simp] theorem flag_leave (y : Out) (x : Fld) (j k : Nat) : (s.leave y).flag x j k = s.flag x j k := rfl
@[simp] theorem fld_nextGen (a b : Nat) (x : Fld) (j k : Nat) : (s.nextGen a b).fld x j k = s.fld x j k := rfl
@[simp] theorem flag_nextGen (a b : Nat) (x : Fld) (j k : Nat) : (s.nextGen a b).flag x j k = s.flag x j k := rfl
@[simp] theorem fld_event (f n : Nat) (b : Bytes) (h : Option Nat) (x : Fld) (j k : Nat) : (s.event f n b h).fld x j k = s.fld x j k := rfl
@[simp] theorem flag_event (f n : Nat) (b : Bytes) (h : Option Nat) (x : Fld) (j k : Nat) : (s.event f n b h).flag x j k = s.flag x j k := rfl
@[simp] theorem fld_irqDue (f v : Nat) (x : Fld) (j k : Nat) : (s.irqDue f v).fld x j k = s.fld x j k := rfl
@[simp] theorem flag_irqDue (f v : Nat) (x : Fld) (j k : Nat) : (s.irqDue f v).flag x j k = s.flag x j k := rfl
@[simp] theorem fld_setFn (f : Nat) (v : FnSt) (x : Fld) (j k : Nat) : (s.setFn f v).fld x j k = s.fld x j k := rfl
@[simp] theorem flag_setFn (f : Nat) (v : FnSt) (x : Fld) (j k : Nat) : (s.setFn f v).flag x j k = s.flag x j k := rfl
@[simp] theorem fld_setQueue (k : Nat) (q : Queue) (x : Fld) (j k : Nat) : (s.setQueue k q).fld x j k = s.fld x j k := rfl
@[simp] theorem flag_setQueue (k : Nat) (q : Queue) (x : Fld) (j k : Nat) : (s.setQueue k q).flag x j k = s.flag x j k := rfl
@[simp] theorem fld_setCq (k : Nat) (c : Cq) (x : Fld) (j k : Nat) : (s.setCq k c).fld x j k = s.fld x j k := rfl
@[simp] theorem flag_setCq (k : Nat) (c : Cq) (x : Fld) (j k : Nat) : (s.setCq k c).flag x j k = s.flag x j k := rfl
@[simp] theorem fld_setLand (k : Nat) (l : LandSt) (x : Fld) (j k : Nat) : (s.setLand k l).fld x j k = s.fld x j k := rfl
@[simp] theorem flag_setLand (k : Nat) (l : LandSt) (x : Fld) (j k : Nat) : (s.setLand k l).flag x j k = s.flag x j k := rfl
@[simp] theorem fld_setSeq (h : Nat) (q : SeqSt) (x : Fld) (j k : Nat) : (s.setSeq h q).fld x j k = s.fld x j k := rfl
@[simp] theorem flag_setSeq (h : Nat) (q : SeqSt) (x : Fld) (j k : Nat) : (s.setSeq h q).flag x j k = s.flag x j k := rfl
@[simp] theorem fld_setCore (h c : Nat) (m : RCore) (x : Fld) (j k : Nat) : (s.setCore h c m).fld x j k = s.fld x j k := rfl
@[simp] theorem flag_setCore (h c : Nat) (m : RCore) (x : Fld) (j k : Nat) : (s.setCore h c m).flag x j k = s.flag x j k := rfl

end Sys2Proof.Machine
end

