-- ==== Sys2Proof/Tests/Slice0.lean ====
section
/-! SUPPORT. Tests: an ill-formed command for each check of wellFormed, worked examples of the spec, and for each statement with
hypotheses a state and operands that meet them, clause by clause where the clauses differ. -/

open Sys2Proof Sys2Proof.Machine Sys2Proof.Spec

set_option Elab.async false

namespace Sys2Proof.Tests

/-- The admin command with everything 0 but its function, its opcode, its buffer's length and its parameters. -/
def cmd (fn op len : Nat) (ps : List Nat) : AdminCmd := { fn := fn, idx := 0, cookie := 0, opcode := op, buf := 0, bufLen := len, reserved := 0, params := ps }

/-! ### Ill-formed commands -/

/-- Each check of wellFormed refuses an operand one past its last legal value (R9, R17, R23, R24, R166, R386, R425, R464). -/
theorem test_wellFormed_refuses :
    ([.queueEntryFetch 73728 0 [] 0, .doorbellProducer 8192 0 0, .doorbellProducer 0 65536 0, .doorbellProducer 0 0 (2 ^ 32), .aqCfgWrite (.fn 8192) 0 0,
      .aqCfgWrite (.core 8) 0 0, .adminNop { cmd 0 0 0 [] with fn := 8192 }, .adminNop { cmd 0 0 0 [] with idx := 2 ^ 32 }, .adminNop { cmd 0 0 0 [] with cookie := 2 ^ 32 },
      .adminNop { cmd 0 0 0 [] with opcode := 256 }, .adminNop { cmd 0 0 0 [] with buf := 2 ^ 64 }, .adminNop { cmd 0 0 0 [] with bufLen := 2 ^ 32 },
      .adminNop (cmd 0 0 0 [2 ^ 32]), .sicCoreComplete (.core 0) 8 0, .sicSrcPendClear (.core 0) 64 0, .lullExpiry 64 0 0 [], .vectorGapEnd 0 2048 0,
      .pmeTurnOff 8, .laneEnergyDetect 256, .stockRefill 8 0 0, .evtAction 32 0, .rqDelivery 18, .opNop 0 4, .atriumBeat 0 3, .emergRefresh 4 0 0,
      .halfFault 2 0 0, .stoCommandStart 4096 [] 0, .emergRefresh 0 16 0, .bridgeSweepVisit 0 32768 0, .fragEntryExpiry 0 1024 0, .hallFault 0 256 0, .smbDeviceReset true 256 0, .addOp 0 0 3 0 0 0, .addOp 0 0 0 32 0 0, .addOp 0 0 0 0 32 0, .addOp 0 0 0 0 0 32, .addi 0 0 0 0 0 (2 ^ 16), .loopOp 0 0 0 (2 ^ 14) 0,
      .loopOp 0 0 0 0 (2 ^ 12), .esch 0 0 0 0 0 8 0 0, .esch 0 0 0 0 0 0 32 0, .esch 0 0 0 0 0 0 0 32, .ctxEmission 0 65536 false 0, .moduleOvercurrent 32 0,
      .auditShadowWrite (.core 0) 0 512 0 false, .registerWrite (.core 0) 0x50000000 0 0, .keyCommit 65552 0] : List Instr).map Instr.wellFormed =
    List.replicate 47 false := by decide

/-- At the last legal values they pass. -/
theorem test_wellFormed_accepts :
    ([.queueEntryFetch 73727 0 [] 0, .doorbellProducer 8191 65535 (2 ^ 32 - 1), .aqCfgWrite (.fn 8191) 0 0, .aqCfgWrite (.core 7) 0 0, .rqDelivery 17,
      .addOp 17 3 2 31 31 31, .esch 0 0 0 31 31 7 31 31, .registerWrite (.core 7) 0x4FFFFFFF (2 ^ 32 - 1) 0] : List Instr).all Instr.wellFormed = true := by decide

/-- The table gives no row any bits: no word spells a command (98_reader.md). -/
theorem test_no_word_spells_a_command : decodeTableWord 32 0 = none := rfl

/-! ### Small states for the witnesses -/

/-- A state with fields of registers set: field, value, outer and inner index. -/
def set (s : State) (l : List (Fld × Nat × Nat × Nat)) : State := l.foldl (fun s e => s.setFld e.1 e.2.1 e.2.2.1 e.2.2.2) s

/-- An entry of a section directory. -/
def entry (ty hall off len count : Nat) : Bytes := leBytes 2 ty ++ leBytes 1 hall ++ leBytes 5 0 ++ leBytes 8 off ++ leBytes 8 len ++ leBytes 4 count ++ leBytes 4 0

/-- A plan image with one hall that owns bay 0, two bundles (the preamble's and one tread's), one word of code, one kernel, one pool, one class and one wake schedule. -/
def image (w : Nat) : Bytes :=
  List.replicate 12 0 ++ leBytes 4 7 ++ List.replicate 16 0 ++ leBytes 4 64 ++ List.replicate 28 0 ++ leBytes 4 (2 ^ 31) ++ List.replicate 444 0 ++
  entry 1 0 0x2E0 64 2 ++ entry 4 0xFF 0x320 256 32 ++ entry 6 0 0x420 4 1 ++ entry 7 0 0x424 16 1 ++ entry 9 0xFF 0x434 32 1 ++ entry 0xA 0 0x454 16 1 ++ entry 0xB 0xFF 0x464 16 1 ++
  (List.replicate 24 0 ++ leBytes 8 (0x57 * 2 ^ 56)) ++ (List.replicate 16 0 ++ leBytes 8 (0x33 * 2 ^ 56 + 2 ^ 31) ++ List.replicate 8 0) ++
  (leBytes 1 0x80 ++ List.replicate 3 0 ++ leBytes 4 1 ++ List.replicate 248 0) ++ leBytes 4 w ++ (leBytes 4 0 ++ leBytes 4 0 ++ leBytes 4 4 ++ leBytes 4 100) ++
  (leBytes 2 5 ++ leBytes 2 0 ++ leBytes 2 4 ++ leBytes 2 1 ++ leBytes 2 32 ++ leBytes 2 32 ++ List.replicate 16 0 ++ leBytes 4 1) ++
  (leBytes 1 0 ++ leBytes 1 1 ++ leBytes 2 4 ++ leBytes 4 8 ++ List.replicate 8 0) ++ (leBytes 4 0x200 ++ leBytes 4 4 ++ leBytes 4 0 ++ leBytes 4 1)

/-- Hall 0 runs logical hall 0 of that plan. -/
def plan (w : Nat) : State :=
  set { State.reset with pln := { active := image w } }
    [(Fld.PLN_ACTIVE_STATUS_STATE, 2, 0, 0), (Fld.TSQ_STATE_STATE, 2, 0, 0), (Fld.TSQ_STATE_ROLE, 1, 0, 0), (Fld.TSQ_MAP_VALID, 1, 0, 0), (Fld.CALM_HALL_STATE_FROST, 0, 0, 0)]

/-- A kernel runs there on core 0 whose next word is this one, within a budget. -/
def kern (w budget : Nat) : State :=
  set { plan w with cores := [(0, { budget := budget, w := [(1, 0x01BFFFFC), (2, 1020)], clock := 4 })] } [(Fld.RFX_CORE_RUNNING, 1, 0, 0), (Fld.RFX_STATUS_BUSY, 1, 0, 0)]

/-- Its current tread holds this op in a slot. -/
def tread (slot o : Nat) : State := (plan 0).setSeq 0 { ops := [0, 0, 0, 0].set slot o }

/-! ### For each statement with hypotheses, a state and operands that meet them -/

/-- Kernel instructions (KernelIntegerOps to KernelAccumulator, KernelControlFlow, KernelTimeLandsCommit): a word of each format at its operands' last values is the next word of a kernel. -/
theorem met_kernel_words :
    ∀ w ∈ [wordR 0 0x25 31 31 0, wordI 10 31 31 31, wordI 0x13 31 0 63, wordI 0x25 31 31 65535, wordL 0x27 16383 4095, wordT 0x31 31 31, wordE 0x33 31 31 7 32 31], Runs (kern w 100) 0 0 1 w := by
  unfold Runs; decide +kernel

/-- KernelMemoryOps: an access at the last word of the alcove, of the scratch, one that runs beyond each, and one that is misaligned. -/
theorem met_kernel_memory :
    Runs (kern (wordI 0x18 31 1 0) 100) 0 0 0 (wordI 0x18 31 1 0) ∧
    (let m := (kern 0 100).rcore 0 0
     m.addr 1 0 + 4 = 0x01C00000 ∧ m.addr 1 0 % 4 = 0 ∧ m.addr 2 0 + 4 = 1024 ∧ m.addr 2 0 % 4 = 0 ∧ 0x01C00000 < m.addr 1 4 + 4 ∧ 1024 < m.addr 2 4 + 4 ∧ m.addr 1 1 % 2 ≠ 0) := by
  unfold Runs; decide +kernel

/-- KernelTimeLandsCommit: a snapshot with and without an edge, and END with its four clocks left and no more. -/
theorem met_kernel_commit :
    ((kern 0 100).setLand 0 { snap := (true, some ⟨5, true⟩, 1) }).land 0 = { snap := (true, some ⟨5, true⟩, 1) } ∧ ((kern 0 100).land 0).snap = (false, none, 0) ∧
    Runs (kern (wordR 0x28 0 0 0 0) 8) 0 0 0 (wordR 0x28 0 0 0 0) ∧ ((kern 0 8).rcore 0 0).clock + 4 = ((kern 0 8).rcore 0 0).budget := by
  unfold Runs; decide +kernel

/-- KernelAborts and KernelFrameAndRegisters: no kernel; another word; the budget just used up with the core occupied; an uncorrectable word; an ADD that runs. -/
theorem met_kernel_aborts :
    (Instr.addOp 0 0 0 31 31 31).wellFormed = true ∧ kernelWord (.addOp 0 0 2 31 31 31) = some (0, 0, 2, wordR 0 0 31 31 31) ∧ State.reset.kernelRuns 0 0 = false ∧
    (kern 0 100).kernelRuns 0 0 = true ∧ ((kern 0 100).rcore 0 0).clock < ((kern 0 100).rcore 0 0).budget ∧ (kern 0 100).codeWord 0 0 0 ≠ some (wordR 0 0 31 31 31) ∧
    (kern 0 4).kernelRuns 0 0 = true ∧ ((kern 0 4).rcore 0 0).budget ≤ ((kern 0 4).rcore 0 0).clock ∧ (kern 0 4).coreBusy 0 0 = true ∧ (∃ t, Gives (.addOp 0 0 0 31 31 31) (kern 0 100) t) := by
  refine ⟨?_, ?_, ?_, ?_, ?_, ?_, ?_, ?_, ?_, _, rfl⟩ <;> decide +kernel

/-- Ops of tread programs (OpRowNeedsItsOp to MovesStartAndArrive, RefreshStarts, CipherEngineEvents, PlannedTraffic, TableWindowsAndWalkers): an op of every opcode stands in its slot; without it no op issues. -/
theorem met_ops :
    (∀ x ∈ [(0, 0), (0, 0x10), (0, 0x11), (0, 0x12), (1, 0x20), (2, 0x31), (2, 0x33), (3, 0x50), (3, 0x51), (3, 0x52), (3, 0x53), (3, 0x54), (3, 0x55), (3, 0x56)],
      Issues (tread x.1 (x.2 * 2 ^ 56 + 2 ^ 49)) 0 x.1 x.2 (x.2 * 2 ^ 56 + 2 ^ 49)) ∧
    opRow (.move 0) = some (0, 0, 0x10) ∧ (∀ o, ¬ Issues State.reset 0 0 0x10 o) ∧ (pointersAt (tread 0 (2 ^ 49)) 0 0 (2 ^ 49)).ptrBuf 0 0 = none ∧
    Plan.wakeOf (image 0) 0 = some (0, 2, 4, 0, 1) ∧ Plan.kernel (image 0) 0 0 = some (0, 0, 4, 100) := by
  refine ⟨?_, rfl, fun o h => absurd h.1 (by decide), ?_, ?_, ?_⟩
  · unfold Issues; decide +kernel
  all_goals decide +kernel

/-- A push of one flit to an endpoint. -/
def push (endp : Nat) (data : Bytes) : Move :=
  { id := 1, base := 0, clock := 0, rate := 128, ring := 0, hall := 0, pull := false, endp := endp, far := 0, addr := 0, laddr := 0, flits := 1, ptr := 0, data := data, sent := 0, beats := 0, used := 0, dead := false, bad := [], opened := false, frames := [] }

/-- MovesStartAndArrive: a MOVE through a pointer to the running hall's alcove, static and open, and through one to nothing; a flit of a push to an alcove, a stack, a lane and a flow ring; of a pull from an alcove and a stack. -/
theorem met_moves :
    let to_ := fun o : Nat => (tread 0 o).setPtr 0 0 0 0 none
    let far := fun (s : State) (o : Nat) => let p := (pointersAt s 0 0 o).ptrFor 0 0 o; (p.buf, s.farEnd p.endp p.addr (128 * moveFlits o), bitOf o 14)
    let a := 0x10 * 2 ^ 56
    let b := 0x10 * 2 ^ 56 + 2 ^ 14
    let under := fun m : Move => { plan 0 with gal := { moves := [m] }, flows := [(0, (0x1000, 4096))] }
    let r := frameRecord (List.replicate 120 0) false
    Issues (to_ a) 0 0 0x10 a ∧ Issues (to_ b) 0 0 0x10 b ∧ far (to_ a) a = (none, some 0, false) ∧ far (to_ b) b = (none, some 0, true) ∧ far (tread 0 a) a = (none, none, false) ∧
    (∀ m ∈ [push 0 [], push 0x20 [], { push 0 [] with pull := true }, { push 0x20 [] with pull := true, beats := 1 }], (under m).moveOf 1 = some m ∧ m.flitDue = true) ∧
    isAtrium 0x20 = true ∧ isAtrium 0 = false ∧ r.length = 128 ∧ leAt r 0 2 = 120 ∧
    ((plan 0).setFld Fld.LN_LANE_STATUS_LINK_UP 1 0 0).portUp 0 = true ∧ ((under (push 0x24 r)).flowAppend 0 0 (sliceB r 0 128)).2 = true := by
  unfold Issues; decide +kernel

/-- RefreshStarts: an emergency refresh due to the clock, a self-refresh of a powered stack due at its clock and one a clock before. -/
theorem met_refresh :
    let p := { set State.reset [(Fld.ATR_STATUS_POWERED, 15, 0, 0)] with gal := { refreshed := [(0, 0)] } }
    (plan 0).planActive = true ∧ p.planActive = false ∧ bitOf (p.fld Fld.ATR_STATUS_POWERED) 0 = true ∧ look p.gal.refreshed 0 = some 0 ∧
    (∃ t, galClocks t = 8192) ∧ (∃ t, galClocks t = 4096) ∧ galClocks 0 < 4096 := by
  refine ⟨by decide +kernel, by decide +kernel, by decide +kernel, by decide +kernel, ⟨8192 * 51200, ?_⟩, ⟨4096 * 51200, ?_⟩, by decide +kernel⟩ <;> decide +kernel

/-- A region of four buffers of class 0 in the alcove of hall 0. -/
def region : Region := { cls := 0, loc := 0, inst := 0, base := 0x100000, count := 4, first := 0, next := 1, used := 1, allocated := 0 }

/-- Function 0 owns the part, in a state. -/
def owned (s : State) : State := set s [(Fld.OWN_STATE_OWNER_VALID, 1, 0, 0)]

/-- BufferOpsOfPrograms: an ALLOC whose hand-off is not bound, and one that gets a buffer; results that are due, one failed; HAND and RELEASE of a pointer's buffer; a HAND whose moves are over;
a delivery whose queue has a descriptor, and one whose queue is gone. -/
theorem met_buffer_ops :
    let alloc := 0x32 * 2 ^ 56
    let hand := alloc + 2 ^ 46
    let rel := alloc + 2 ^ 47
    let u := fun (s : State) (o : Nat) => ((issued s 0 2 o).occupy 0 o 1).allocsLand 0
    let a : State := { owned (tread 2 alloc) with handoffs := [(0, (0x50010000, 7))], bpm := { regions := [(0, { region with loc := 1 })] } }
    let held := fun o : Nat => (tread 2 o).setPtr 0 0 0x20 0 (some 5)
    let due := (plan 0).setSeq 0 { allocs := [{ ptr := 15, due := 0, stack := 3, result := none }, { ptr := 0, due := 0, stack := 3, result := some (1, 64, 128) }] }
    let q : Queue := { present := true, isRq := true, kind := 1, hall := 0, cq := 3, ready := [{ idx := 0, cookie := 0, opcode := 1, batchEnd := false, bytes := leBytes 64 1 }] }
    let dl : Delivery := { queue := 7, buffer := some 5, data := [], len := 0, mark := 0, low := 0, stamp := 0 }
    let h := (((plan 0).setPtr 0 0 0x20 0 (some 5)).setSeq 0 { hands := [⟨[1], 0, 5, 0⟩] })
    Issues (tread 2 alloc) 0 2 0x32 alloc ∧ (u (tread 2 alloc) alloc).ptrBuf 0 0 = none ∧ (u (tread 2 alloc) alloc).handoff 0 0 = none ∧
    Issues a 0 2 0x32 alloc ∧ (u a alloc).ptrBuf 0 0 = none ∧ (u a alloc).handoff 0 0 = some (0x50010000, 7) ∧
      (match (((u a alloc).notePtr 0 0 alloc).allocFor 0x50010000 0 1 0) with | (v, .inl id) => (v.regionOf id).isSome | _ => false) = true ∧
    (due.seq 0).allocs.all (fun x => decide (x.due ≤ due.now) && decide (x.ptr < 16) && decide (x.stack < 4)) = true ∧
    Issues (held hand) 0 2 0x32 hand ∧ bitsOf hand 48 46 = 1 ∧ ((u (held hand) hand).ptrFor 0 0 hand).buf = some 5 ∧
    Issues (held rel) 0 2 0x32 rel ∧ bitsOf rel 48 46 = 2 ∧ ((u (held rel) rel).ptrFor 0 0 rel).buf = some 5 ∧
    (h.seq 0).hands.find? h.handDue = some ⟨[1], 0, 5, 0⟩ ∧ h.ptrBuf 0 0 = some 5 ∧ ({ h with handoffs := [(0, (0, 7))] }).handoff 0 0 = some (0, 7) ∧
    (let s := { (plan 0).setQueue 7 q with wq := { ((plan 0).setQueue 7 q).wq with delivery := [(0, [dl])], cqs := [(3, { present := true })] } }
     let v := (s.waiting 0).foldl (fun (s : State) (d : Delivery) => s.rqSkim d.queue 16) s
     (v.waiting 0).find? (fun d => v.rqReady d.queue || !v.rqThere d.queue) = some dl ∧ v.rqThere 7 = true ∧ (s.queue 7).kind = 1 ∧ (s.queue 7).ready.length = 1) ∧
    (let s := { plan 0 with wq := { delivery := [(0, [dl])] } }
     (s.waiting 0).find? (fun d => s.rqReady d.queue || !s.rqThere d.queue) = some dl ∧ s.rqThere 7 = false) := by
  unfold Issues; decide +kernel

/-- The running hall in a tread whose windows are open: a frame waits on port 0, a record of 60 octets in flow 0, and a frame for the OPEN window. -/
def windows (w : Win) : State :=
  let s := set (plan 0) [(Fld.LN_LANE_STATUS_MODE, 1, 0, 0)]
  let x : OpenWork := { octets := List.replicate 60 0, srcKind := 2, srcIdx := 0, orig := 2, cls := 0, fn := none, rxKey := none, send := none, drops := [] }
  ({ s with now := 6553600, flows := [(0, (0x1000, 4096))], fw := { opened := [(0, [x])] }, ln := { ports := [(0, { rx := [⟨List.replicate 64 0, 0, 0⟩] })] } }.putAlcove 0 0x1000 (leBytes 4 128)).putAlcove 0 0x1040 (leBytes 2 60)
    |>.setSeq 0 { start := 6553600, win := w }

/-- FramesEnterPipeline: the first clock of an arrival, a flow and an OPEN window, each with its work; a send descriptor of host memory that passes its checks and has been read, one that does not pass; a replication of two, and of one. -/
theorem met_frames :
    let q : Queue := { present := true, hall := 0, ready := [{ idx := 0, cookie := 0, opcode := 1, batchEnd := false, bytes := leBytes 16 1 ++ leBytes 4 60 ++ leBytes 44 0 }] }
    let s := owned (windows { rx := 1, fl := 1, op := 1 })
    let e := { s.setQueue 7 q with dma := { reads := [{ id := 1, hall := 0, kind := 3, key := 7, arg := 0, fn := 0, pieces := [] }] } }
    s.winClock 0 Win.rxPlace = some 0 ∧ (firstArrival ((s.useClock 0 0).arrivals 0 (clockAt (s.seq 0).start 0 (s.clocks 0)))).isSome = true ∧
    (windows { fl := 1 }).winClock 0 Win.flowPlace = some 0 ∧ ((((windows { fl := 1 }).readProducer 0).useClock 0 0).seq 0).win.seen = some 128 ∧
    0 < sub32 128 (s.consumer 0 0x1000) ∧ leNat (s.alcoveRead 0 (0x1000 + 64 + s.consumer 0 0x1000 % 4096) 2) = 60 ∧ s.alcoveBad 0 0x1040 (recordSize 60) = false ∧
    (windows { op := 1 }).winClock 0 Win.openPlace = some 0 ∧
      (match ((windows { op := 1 }).serveThaw 0).openNext 0 with | some (c, _, _) => (((windows { op := 1 }).serveThaw 0).openWork 0 c).isSome | none => false) = true ∧
    e.servingHall (e.queue 7) = 0 ∧ e.ethCheck 0 (q.ready.map (·.bytes)).flatten = none ∧ e.readDone 0 3 7 0 = true ∧ s.ethCheck 0 (leBytes 64 0) = some St.lengthLimit := by
  decide +kernel

/-- CipherEngineEvents: an op that opens a window; operations that are due, of a frame and of a job; a descriptor of a cipher queue whose job fails its checks, in an OPEN clock; a slot at its hard limit. -/
theorem met_cipher :
    let o := 0x30 * 2 ^ 56 + 128 * 2 ^ 31
    let f : InlineFrame := { octets := [], srcKind := 0, srcIdx := 0, orig := 0, cls := 0, mark := 0, target := 0, stamp := 0, joined := 0, send := none, drops := [] }
    let op : CphOp := { slot := 1, key := [], attr := [], load := 0, value := 0, start := 0, due := 0, job := none, frame := some f }
    let s := (plan 0).setCph 0 { ops := [op] }
    let q : Queue := { present := true, kind := 1, hall := 0, ready := [{ idx := 0, cookie := 0, opcode := 1, batchEnd := false, bytes := leBytes 64 1 }] }
    let w := (owned (windows { op := 1 })).setQueue 7 q
    Issues (tread 2 o) 0 2 0x30 o ∧ firstDue ((s.cipherTo s.now).cphOf 0).ops = some op ∧ op.due ≤ s.now ∧ s.revokedBy op = false ∧ (s.setSlot 1 { eraseAt := some 0, state := 2 }).revokedBy op = true ∧
    w.servingHall (w.queue 7) = 0 ∧ w.jobRoom 0 = true ∧ (match w.openTurn 0 (w.jobClass 0) 0 with | some u => ((u.setQueue 7 { q with ready := [] }).jobCheck 0 (parseJob 0 7 0 (q.ready.getD 0 ⟨0, 0, 0, false, []⟩))).isSome | none => false) = true ∧
    (let k := State.reset.setSlot 1 { state := 2, exhaustAt := some 0, users := [17] }; (k.slot 1).exhaustAt = some 0 ∧ (k.slot 1).state = 2) := by
  unfold Issues; decide +kernel

/-- A DMA descriptor of so many octets, toward the far end or from it, that is ready since the start. -/
def dmaDesc (from_ : Bool) (len moved : Nat) : DmaDesc :=
  { id := 1, idx := 0, addr := 0, bytes := leBytes 8 1 ++ leBytes 1 (b2n from_ * 4) ++ leBytes 3 0 ++ leBytes 4 len ++ leBytes 48 0, fn := 0, since := 0, moved := moved, readyAt := some 0 }

/-- Hall 0's channel c with a service, its descriptor, and function 0 in D0 with Bus Master Enable on a link in L0. -/
def dmaState (s : State) (c service : Nat) (d : DmaDesc) : State :=
  { set s [(Fld.DMA_CH_CFG_SERVICE, service, 0, c), (Fld.EP_PORT_STATUS_LSTATE, 1, 0, 0), (Fld.EP_PORT_STATUS_LINK_UP, 1, 0, 0)] with dma := { chans := [(c, { descs := [d] })] }, ep := { fns := [(0, { bme := true })] } }

/-- PlannedTraffic: an op of a stopped engine; one whose channel has a unit ready, at the last clock of COUNT; a carrier; a burst to another end that has got there; a flit at its departure; the port's asking ahead; a packet that may go. -/
theorem met_planned :
    let o := fun c : Nat => 0x31 * 2 ^ 56 + c * 2 ^ 43 + 65535 * 2 ^ 27
    let stopped := set (tread 2 (o 63)) [(Fld.DMA_STATUS_STOPPED, 1, 0, 0)]
    let ready := fun c : Nat => dmaState (tread 2 (o c)) c 1 (dmaDesc false 64 0)
    let carrier := dmaState (tread 2 (o 0)) 0 2 (dmaDesc false 64 0)
    let x : DmaUnit := { kind := 0, ch := 0, desc := 1, off := 0, len := 64, data := [], bad := false }
    let b : Burst := { id := 1, hall := 0, ch := 32, port := none, toward := true, units := [x], flits := 1, first := 0, arrived := 0, sent := 0, drop := [], last := 0 }
    let f : Burst := { b with ch := 0, port := some 0, arrived := 1 }
    let ahead := dmaState (plan 0) 2 1 (dmaDesc true 64 0)
    Issues stopped 0 2 0x31 (o 63) ∧ (dmaIssued stopped 0 (o 63)).flag Fld.DMA_STATUS_STOPPED 0 = true ∧
    Issues (ready 32) 0 2 0x31 (o 32) ∧ (let u := dmaIssued (ready 32) 0 (o 32); u.flag Fld.DMA_STATUS_STOPPED 0 = false ∧ u.dmaService 0 32 = 1 ∧ (u.fillPlanned 0 32 4).2 ≠ []) ∧
    (let u := dmaIssued (ready 0) 0 (o 0); u.plannedBlocked 0 = false ∧ u.chBme 0 0 = true ∧ u.dmaService 0 0 = 1) ∧
    Issues carrier 0 2 0x31 (o 0) ∧ (dmaIssued carrier 0 (o 0)).plannedBlocked 0 = false ∧ (dmaIssued carrier 0 (o 0)).dmaService 0 0 = 2 ∧
    (let s := { plan 0 with dma := { bursts := [b] } }; s.dma.bursts.find? (fun b => b.hall == 0 && b.ch == 32) = some b ∧ s.burstEnd b ≤ 880 * s.now) ∧
    (let s := { set (plan 0) [(Fld.EP_PORT_STATUS_LSTATE, 1, 0, 0)] with dma := { bursts := [f] } }; s.nextFlit 0 true = some f ∧ s.fld Fld.EP_PORT_STATUS_LSTATE 0 0 = 1 ∧ (∃ t, s.departure 0 true f ≤ 880 * t)) ∧
    ahead.dmaService 0 2 = 1 ∧ ahead.plannedBlocked 0 = false ∧ (∃ a n, ahead.nextRead 0 (dmaDesc true 64 0) = some (a, n)) ∧ (ahead.hp 0).reqs.length < (ahead.hp 0).tagLimit - 64 ∧ (ahead.dch 0 2).descs = [dmaDesc true 64 0] ∧
    ({ plan 0 with ep := { fns := [(0, { bme := true })] } }).nextPacket [] [.hostWrite 0 0 []] = some (.hostWrite 0 0 [], []) := by
  unfold Issues
  refine ⟨?_, ?_, ?_, ?_, ?_, ?_, ?_, ?_, ?_, ⟨?_, ?_, 410000, ?_⟩, ?_, ?_, ⟨0, 64, ?_⟩, ?_, ?_, ?_⟩ <;> decide +kernel

/-- DescriptorsRun: a chain in the alcove at the last place of a descriptor, in an OPEN clock; a descriptor that has moved all its data; an error of the engine; a chain channel that is idle and one that parks; a configuration. -/
theorem met_descriptors :
    let s := set (owned (windows { op := 1 })) [(Fld.DMA_CH_CFG_SERVICE, 3, 0, 63), (Fld.DMA_CH_CFG_SOURCE, 1, 0, 63), (Fld.DMA_CH_CHAIN_FN_ALCOVE, 1, 0, 63)]
    let t := { set s [(Fld.DMA_CH_STATUS_STATE, 2, 0, 63)] with dma := { chans := [(63, { next := alcoveTop - 64 })] } }
    let e := dmaDesc false 64 64
    t.dmaFetches 0 63 = true ∧ t.descAtHand 0 63 = true ∧ (t.openTurn 0 (t.fld Fld.DMA_CH_CFG_CLASS 0 63) (t.chFn 0 63)).isSome = true ∧ t.isChain 0 63 = true ∧ t.inAlcove 0 63 = true ∧ (t.dch 0 63).next + 64 = alcoveTop ∧
    (let v := { s with dma := { chans := [(63, { descs := [e] })] } }; (v.dch 0 63).descs = [e] ∧ v.descFinished 0 63 e = true) ∧
    look ({ s with dma := { errs := [(0, ⟨0, 0, 0, 0, 0⟩)] } }).dma.errs 0 = some ⟨0, 0, 0, 0, 0⟩ ∧
    (∀ i, i ∈ [1, 3, 5] → (set s [(Fld.DMA_CH_STATUS_STATE, i, 0, 63)]).chainChannel (.fn 0) 0 63 = true ∧ (set s [(Fld.DMA_CH_STATUS_STATE, i, 0, 63)]).chState 0 63 = i) ∧
    s.mayWrite (.fn 0) = true ∧ s.logicalOf 0 = some 0 ∧ t.chState 0 63 = 2 := by
  decide +kernel

/-- EventLandCommands: a kernel's budget end at its instant; a write to a land of no set, and to one of the set; an edge powered down and powered; a candidate at its time; a capture to read. -/
theorem met_event_lands :
    let s := owned (set State.reset [(Fld.EVT_STATUS_POWERED, 1, 0, 0)])
    let k := kern 0 4
    k.coreBusy 0 0 = true ∧ k.kernelRuns 0 0 = true ∧ (k.rcore 0 0).budgetEnd ≤ max k.now ((k.rcore 0 0).budgetEnd) ∧
    s.flag Fld.EVT_STATUS_POWERED = true ∧ s.mayWrite (.fn 0) = true ∧ s.inLandSet 31 = false ∧ State.reset.flag Fld.EVT_STATUS_POWERED = false ∧ (s.land 31).driven = false ∧ (s.land 31).pin = false ∧
    ((s.setLand 31 { candidate := some ⟨0, true⟩ }).land 31).candidate = some ⟨0, true⟩ ∧ (0 : Nat) + s.fld Fld.EVT_LAND_CFG_FILTER 0 31 * 65536 ≤ max s.now 0 ∧
    ((s.setLand 31 { armRise := true, armFall := true }).land 31).queue.length < 16 ∧ ((s.setLand 31 { queue := [⟨0, true⟩] }).land 31).queue = [⟨0, true⟩] := by
  decide +kernel

/-- A port that is lit and up, on lane 0 of the running hall's bay. -/
def portState : State := set (plan 0) [(Fld.LN_LANE_STATUS_MODE, 1, 0, 0), (Fld.LN_LANE_STATUS_LINK_UP, 1, 0, 0), (Fld.TB_FLIGHT_LEN_L, 64, 0, 0)]

/-- PortFrames: the shortest good frame, one of MAC control, and one of 63 octets, with and without room; a frame that may start; a stamp to read. -/
theorem met_port_frames :
    let s := portState
    let full := fun (s : State) (n : Nat) => decide (modeLanes ((arrived s 0 0 0 0).laneMode 0) * 65536 < ((arrived s 0 0 0 0).port 0).rxUsed ((arrived s 0 0 0 0).now - octetTicks (s.laneMode 0) n) + 9216)
    let good := withFcs (List.replicate 60 0)
    let ctl := withFcs (List.replicate 12 0 ++ beBytes 2 0x8808 ++ List.replicate 46 0)
    let big : RxFrame := ⟨List.replicate 9216 0, 0, 0⟩
    s.isPort 0 = true ∧ s.portUp 0 = true ∧ full s 64 = false ∧ full (s.setPort 0 { rx := [big, big, big, big, big, big, big] }) 64 = true ∧
    good.length = 64 ∧ fcsOk good = true ∧ beAt good 12 2 ≠ 0x8808 ∧ ctl.length = 64 ∧ fcsOk ctl = true ∧ beAt ctl 12 2 = 0x8808 ∧
    s.bayOwner 0 = some 0 ∧ s.mayStart 0 0 (octetTicks 1 84) true = true ∧ ({ s with ln := { stamps := [(0, 0, 0)] } }).ln.stamps = [(0, 0, 0)] := by
  decide +kernel

/-- LaneLinks: a port that is down, whose lane has all it needs and has not; a lit lane; a dark one with and without a duty hall of the owner; a reset to end. -/
theorem met_lanes :
    let s := set (plan 0) [(Fld.LN_LANE_STATUS_MODE, 1, 0, 0)]
    let d := owned (set State.reset [(Fld.CALM_DUTY_PORT_VALID, 1, 0, 0)])
    s.isPort 0 = true ∧ s.portUp 0 = false ∧ s.flt.laneReset.get none 0 = none ∧ look s.pkg.ocOff 0 = none ∧ (s.showLanes 0 [7] true).linkReady 0 [7] true = true ∧ (s.showLanes 0 [] true).linkReady 0 [] true = false ∧
    s.laneDark 0 = false ∧ State.reset.laneDark 255 = true ∧ State.reset.tb.energy.get false 255 = false ∧ State.reset.ownerDuty = none ∧ d.ownerDuty = some 0 ∧
    ({ s with flt := { laneReset := [(0, some 5)] } }).flt.laneReset.get none 0 = some 5 := by
  decide +kernel

/-- CyclicTraffic: the head frame of a running hall's port; a window whose emission is due, with a slot without a channel, with one that may not send, and with one that may; a deadline at its instant; an overflow of an earlier flight. -/
theorem met_cyclic :
    let s := portState
    let f : RxFrame := ⟨List.replicate 12 0 ++ beBytes 2 0x88B5 ++ List.replicate 50 0, 0, 0⟩
    let w : CtxWin := { hall := 0, pool := 5, first := 0, count := 4, pace := 0, base := 0, flight := 0, next := 3 }
    let c : Chan := { sid := 9, pool := 5, slot := 3, hold := false, lost := 0, pcp := 0, keyA := 0, keyB := 0, txKey := 0, newKeys := none, phase := 2 }
    let u := { s with cyc := { wins := [w] } }
    let v := { s with cyc := { wins := [w], chans := [(1, c)], halls := [(chKey 0 1, { state := 2, port := none })] } }
    (cyclicAt f.octets).isSome = true ∧ (s.setPort 0 { rx := [f] }).bayOwner 0 = some 0 ∧ s.running 0 = true ∧ ((s.setPort 0 { rx := [f] }).port 0).cyclicFrame = some f ∧
    (∀ x ∈ (s.setPort 0 { rx := [f] }).hallPorts 0, x = 0) ∧
    ctxNext u 0 5 = some w ∧ w.due ≤ u.now ∧ (u.poolRec 5).any (fun p => (ctxDone u p w).slotChan 5 3 == none && (ctxDone v p w).slotChan 5 3 == some (1, c) && (ctxDone v p w).chHall 0 1 == some { state := 2, port := none } &&
      !(ctxDone v p w).maySend 0 c { state := 2, port := none }) = true ∧
    (let d : CrxWin := { flight := 0, start := 0, deadline := 5, done := false }; look ({ s with cyc := { crx := [(5, d)] } }).cyc.crx 5 = some d ∧ d.deadline ≤ max s.now 5) ∧
    (let o := { set s [(Fld.CYC_CFG_NOTIFY_LIMIT, 1, 0, 0)] with now := 64 * 6553600, cyc := { overflow := [(0, 0)] } }; look o.cyc.overflow 0 = some 0 ∧ 0 < o.flightNow ∧ o.cyc.sent.get 0 0 < o.fld Fld.CYC_CFG_NOTIFY_LIMIT 0) := by
  decide +kernel

/-- TimeBaseAndReferences: the owner under each kind of source, with and without a plan; edges 50 ns and 501 ns off the second; the timeouts one tick late; a second's start for the pulse. -/
theorem met_time_base :
    let s := owned State.reset
    let hw := set s [(Fld.TB_CTRL_SRC, 3, 0, 0)]
    s.mayWrite (.fn 0) = true ∧ s.hwServo = false ∧ s.planActive = false ∧ s.mayWrite (.fn 1) = false ∧ hw.mayWrite (.fn 0) = true ∧ hw.hwServo = true ∧ (owned (plan 0)).planActive = true ∧
    s.latchOf (.fn 0) (Reg.addr .TB_SET_NS 0 0) ≤ 999999999 ∧ 999999999 < (s.latch (.fn 0) (Reg.addr .TB_SET_NS 0 0) 1000000000).latchOf (.fn 0) (Reg.addr .TB_SET_NS 0 0) ∧
    s.tb.slew.natAbs ≤ slewDone s.slewRate (max s.now 0 - s.tb.slewAt) ∧ hw.flag Fld.TB_CTRL_PPS_EDGE = false ∧
    (secondOffset (((50 * 65536 : Nat) : Int) - (hw.fld Fld.TB_CTRL_PPS_DELAY * 65536 : Nat))).natAbs ≤ 50 ∧ 500 < (secondOffset (((501 * 65536 : Nat) : Int) - (hw.fld Fld.TB_CTRL_PPS_DELAY * 65536 : Nat))).natAbs ∧
    ({ hw with tb := { edgeAt := some 0 } }).tb.edge + 2 * 65536000000000 < 2 * 65536000000000 + 1 ∧ (set s [(Fld.TB_CTRL_SRC, 2, 0, 0)]).fld Fld.TB_CTRL_SRC = 2 ∧ (set s [(Fld.TB_CTRL_SRC, 4, 0, 0)]).fld Fld.TB_CTRL_SRC = 4 ∧
    (set s [(Fld.LN_PPS_OUT_EN, 1, 0, 0)]).flag Fld.LN_PPS_OUT_EN = true ∧ max s.now 65536000000000 % 65536000000000 = 0 ∧ ({ s with tb := { ppsEnd := some 0 } }).tb.ppsEnd = some 0 := by
  decide +kernel

/-- LandingsAndTreads: a boundary of a flight that has landed; an instant that is none; a landing of a running plan, and one after a wake; a landing that starts a plan; a held start; a hall that takes a bundle. -/
theorem met_landings :
    let s := portState
    let l := { s with pln := { s.pln with lastFlight := some 0 } }
    let n := { State.reset with pln := { standby := List.replicate 0x20 0 ++ leBytes 4 64, swap := some { named := some 0, epoch := 0, since := 0, cmd := none, woken := [(0, 0)], standalone := false } } }
    l.planActive = true ∧ l.origin ≤ 0 ∧ (0 - l.origin) % 6553600 = 0 ∧ ((l.atTime 0).serveAccesses).pln.lastFlight = some ((l.atTime 0).serveAccesses).flightNow ∧ ((l.atTime 0).serveAccesses).flt.deviceFault = none ∧ l.atF4 = false ∧
    (1 - l.origin) % 6553600 ≠ 0 ∧ (s.atTime 0).landingAt 0 = some 0 ∧ s.tb.wakeAt = none ∧ s.pln.lastFlight ≠ some 0 ∧ ({ s with tb := { wakeAt := some 0 } }).tb.wakeAt = some 0 ∧
    n.planActive = false ∧ n.startHeld = false ∧ ((n.atTime 0).swapStep 0).planActive = true ∧ ({ n with pkg := { hold := true } }).startHeld = true ∧ (s.atTime 1).landingAt 1 = none ∧
    (s.learnsBefore 0 s.now).running 0 = true ∧ (s.learnsBefore 0 s.now).logicalOf 0 = some 0 ∧ Plan.treadPlace (Plan.program (s.learnsBefore 0 s.now).pln.active 0) 0 = some (1, false, 0) := by
  decide +kernel

/-- StandbyEntersAndWakes: a requested standby with every function asleep, with and without a plan; a device at F4 whose wake has fired. -/
theorem met_standby :
    let s := set (owned State.reset) [(Fld.CALM_STANDBY_REQ, 1, 0, 0)]
    let p := set portState [(Fld.CALM_STANDBY_REQ, 1, 0, 0)]
    let f := set State.reset [(Fld.CALM_STATE_STANDBY, 1, 0, 0), (Fld.CALM_STANDBY_WAKE_PERST, 1, 0, 0), (Fld.CALM_PERST_EDGE, 1, 0, 0)]
    s.mayWrite (.fn 0) = true ∧ s.atF4 = false ∧ s.flag Fld.CALM_STANDBY_REQ = true ∧ s.allAsleep = true ∧ s.planActive = false ∧ s.flt.deviceFault = none ∧
    p.planActive = true ∧ p.allAsleep = true ∧ ((p.atTime 0).landingAt (max p.now 0)).isSome = true ∧ f.atF4 = true ∧ f.wakes 2 = true ∧ ({ f with tb := { hadPlan := true } }).wakes 2 = true := by
  decide +kernel

/-- Every statement about admin commands: with every parameter 0 and a buffer of the largest length, each command of the owner is accepted while a plan is active. -/
theorem met_accepted :
    ∀ op ∈ List.range 10 ++ (List.range 6).map (0x10 + ·) ++ (List.range 7).map (0x18 + ·) ++ (List.range 5).map (0x20 + ·) ++ (List.range 10).map (0x28 + ·) ++ (List.range 5).map (0x38 + ·) ++
      (List.range 10).map (0x40 + ·) ++ (List.range 9).map (0x50 + ·) ++ (List.range 3).map (0x60 + ·) ++ (List.range 11).map (0x70 + ·) ++ (List.range 6).map (0x80 + ·),
      Accepted (owned (set State.reset [(Fld.FLT_CFG_INJECT_EN, 1, 0, 0), (Fld.PLN_ACTIVE_STATUS_STATE, 2, 0, 0)])) (cmd 0 op 268435456 []) op := by
  unfold Accepted; decide +kernel

/-- PlanCommands and PlanSlotEvents: the slot's states; a landing that is past; a verdict; a hall of the swap that is ready; a timeout one tick late; a start to choose with a certified grade and without an image; a copy in and a copy out. -/
theorem met_plan_slots :
    let ready := set (owned State.reset) [(Fld.PLN_STANDBY_STATUS_STATE, 3, 0, 0)]
    let d := { cmd 0 0x13 0 [1] with idx := 1 }
    let late := { set (owned (plan 0)) [(Fld.PLN_STANDBY_STATUS_STATE, 3, 0, 0), (Fld.TB_FLIGHT_LEN_L, 64, 0, 0)] with now := 1 }
    let w : Swap := { named := none, epoch := 0, since := 0, cmd := none, woken := [(0, 0)], standalone := false }
    let swap := { State.reset with pln := { standby := image 0, swap := some w } }
    let boot := { set State.reset [(Fld.OWN_BOOT_STATUS_STAGE, 2, 0, 0)] with baro := { passes := 1 } }
    State.reset.slotBusy = false ∧ (set State.reset [(Fld.PLN_STANDBY_STATUS_STATE, 1, 0, 0)]).slotBusy = true ∧ ready.standbyState = 3 ∧ bitOf (d.p 0) 0 = true ∧
    (ready.requestSwap (some (d.p64 1)) (some d) false).flightGone (d.p64 1) = false ∧ (late.requestSwap (some (d.p64 1)) (some d) false).flightGone (d.p64 1) = true ∧
    swap.swapHalls.contains 0 = true ∧ swap.bankReady w 0 = true ∧ swap.roleChanges 0 = false ∧ w.since + swap.fld Fld.PLN_SWAP_TIMEOUT_MS * 1000000 * 65536 < swap.fld Fld.PLN_SWAP_TIMEOUT_MS * 1000000 * 65536 + 1 ∧
    boot.pln.selected = false ∧ boot.fld Fld.OWN_BOOT_STATUS_STAGE = 2 ∧ boot.planActive = false ∧ boot.slotBusy = false ∧ boot.startHeld = false ∧ boot.restarts = false ∧ boot.pln.active = [] ∧
    Plan.standaloneOk (image 0) = false ∧ Plan.standaloneOk (List.replicate 0x24 0 ++ leBytes 4 1) = true ∧ (PlanCopy.mk 1 0 [] none).kind = 1 ∧ (PlanCopy.mk 0 0 [] none).kind = 0 := by
  decide +kernel

/-- Function 0 with a send queue and a CQ on pages 2 and 3, one entry of the ring written and brought in, and its admin rings enabled. -/
def rings (q : Queue) : State :=
  let s := set (owned (plan 0)) [(Fld.WQ_FN_AQ_CFG_EN, 1, 0, 0), (Fld.WQ_FN_ACQ_CFG_EN, 1, 0, 0), (Fld.OWN_BOOT_STATUS_STAGE, 2, 0, 0), (Fld.EP_PORT_STATUS_LINK_UP, 1, 0, 0)]
  { s with wq := { queues := [(7, q)], cqs := [(9, { present := true })], pages := [(2, (7, false)), (3, (9, true))], gens := [] },
           dma := { reads := [{ id := 1, hall := 0, kind := 0, key := 7, arg := 0, fn := 0, pieces := [] }] } }

/-- DoorbellRules and QueueWork: pages of a queue and a CQ, and none; a P that fills the ring and one beyond it; an entry at hand that is next, of the right phase and of the wrong one; a stale phase and a stall one tick late; an admin command to start; an event queue with room. -/
theorem met_rings :
    let q : Queue := { present := true, kind := 3, hall := 0, cq := 9, p := 1 }
    let s := rings q
    s.bell 0 2 false = some 7 ∧ s.bell 0 3 true = some 9 ∧ s.bell 0 4 false = none ∧ s.bell 0 4 true = none ∧ s.queue 7 = q ∧ sub32 16 q.p + sub32 q.p q.c ≤ 2 ^ q.sizeLog2 ∧ 2 ^ q.sizeLog2 < sub32 17 q.p + sub32 q.p q.c ∧
    (s.cq 2).present = false ∧ (rings { q with state := .haltedEpoch }).bell 0 2 false = some 7 ∧
    (let u := s.atTime 0; EntryAtHand u 7 0 ∧ sub32 0 q.c < sub32 q.p q.c ∧ sub32 0 q.c < 2 ^ q.sizeLog2) ∧ s.admits q = true ∧ phaseOf 0 q.sizeLog2 = 1 ∧ leAt (leBytes 64 1) 0 1 % 2 = 1 ∧ headerOk (leBytes 64 1) = true ∧
    (let r : Staged := ⟨18, { body := [], event := false, low := 0 }⟩; let c : Cq := { present := true, staged := [r, r] }; (c.staged = [r, r] ∧ 0 < c.space ∧ r.crec.mark = none)) ∧
    s.aqFetches 0 = true ∧ ({ s with wq := { s.wq with cqs := [(adminKey 0, { present := true })] } }).cqRoom (s.evqKey 0) = true := by
  unfold EntryAtHand; decide +kernel

/-- AdminRingWrites and RingCommands: the owner's rings, enabled and not; handles that name a queue and a CQ of the function; a free index and page; the attributes of a create at their last values; a hand-off's operands. -/
theorem met_ring_commands :
    let q : Queue := { present := true, isRq := true, kind := 1, hall := 0, cq := 9 }
    let s := rings q
    let h := cmd 0 5 32 [s.handle 1 7]
    let c := cmd 0 4 0 [s.handle 2 9]
    s.mayWriteFn (.fn 0) 0 = true ∧ State.reset.mayWriteFn (.fn 5) 5 = true ∧ s.flag Fld.WQ_FN_AQ_CFG_EN 0 = true ∧ State.reset.flag Fld.WQ_FN_AQ_CFG_EN 5 = false ∧
    NamesQueue s h 7 ∧ s.queueBound 7 = false ∧ h.p 0 / 2 ^ 28 ≠ 2 ∧ NamesCq s c 9 ∧ NamesQueue (set s []) (cmd 0 2 0 [s.handle 1 7]) 7 ∧ s.fld Fld.WQ_FN_EVQ_HANDLE 0 ≠ s.handle 2 9 ∧ c.p 0 / 2 ^ 28 = 2 ∧
    s.freeIndex false 1 65535 = some 1 ∧ s.freeIndex true 1 65535 = some 1 ∧ s.freePage 0 2 (pageLimit 0) = some 4 ∧ s.isOwner 0 = true ∧ s.ringKey 2 (s.handle 2 9) 0 = some 9 ∧ s.ownerIdx 0x50010000 = some 0 ∧
    s.flag Fld.TSQ_MAP_VALID 0 0 = true ∧ s.ringKey 1 (s.handle 1 7) 0 = some 7 := by
  unfold NamesQueue NamesCq; decide +kernel

/-- InterruptCommands: a due interrupt; a hold and a gap one tick late, pending and not; a vector that is open; an active source and another; a lull one tick late; a part at F4. -/
theorem met_interrupts :
    let s := owned State.reset
    let f : FnSt := { gaps := [(5, 0)], pba := [5], msixEn := true, bme := true, msix := [(5, { ctrl := 0 })] }
    let g := s.setFn 0 f
    let e := { s with sic := { cores := [(7, { stack := [(96, 3)] })], lulls := [(63, { expiry := some 0 })] } }
    (∃ c : Cq, c.holding = true ∧ c.holdStart + c.holdUs * 1000 * 65536 < max s.now 1) ∧ look (g.fn 0).gaps 5 = some 0 ∧ (g.fn 0).pba.contains 5 = true ∧ g.inD0 0 = true ∧ (g.fn 0).vstate = 0 ∧ g.msixOpen 0 5 = true ∧
    ((s.setFn 0 { gaps := [(5, 0)] }).fn 0).pba.contains 5 = false ∧ s.flag Fld.CALM_STATE_STANDBY = false ∧ (set s [(Fld.CALM_STATE_STANDBY, 1, 0, 0)]).flag Fld.CALM_STATE_STANDBY = true ∧
    s.mayWrite (.core 7) = true ∧ (e.mcore 7).stack.any (fun t => t.1 == 96 % 2048) = true ∧ (e.mcore 7).stack.any (fun t => t.1 == 97 % 2048) = false ∧ s.sic.edge.contains 96 = false ∧ (e.lull 63).expiry = some 0 ∧
    (let x := set s [(Fld.SIC_SRC_CFG_TARGETS, 128, 0, 96), (Fld.SIC_SRC_CFG_PRIORITY, 7, 0, 96), (Fld.SIC_CORE_CFG_THRESHOLD, 0, 0, 7)]; x.lulled 96 = false ∧ ((List.range 8).filter (fun j => x.eligible 255 96 j)).foldl (betterCore x) none = some 7) := by
  refine ⟨⟨{ holding := true }, ?_⟩, ?_, ?_, ?_, ?_, ?_, ?_, ?_, ?_, ?_, ?_, ?_, ?_, ?_, ?_⟩ <;> decide +kernel

/-- KeyCommands: attributes of AES-128-GCM with the buffer's length; a free slot and one of each state that a rewrite takes; an unwrap that failed, one padded, one of a slot and one of a KEK; an erase that has been done, one past; an exhausted slot at its instant. -/
theorem met_keys :
    let a : Bytes := leBytes 1 1 ++ List.replicate 47 0
    let s := { owned State.reset with own := { kek0 := some [] }, keys := { slots := [(1, { state := 2, attr := a }), (2, { state := 3 }), (3, { state := 2, eraseAt := some 0, eraseCmd := some (cmd 0 0x39 0 []) }), (4, { state := 2, exhaustAt := some 0 }), (5, { state := 2, eraseAt := some 0 })] } }
    let l : KeyLoad := { target := 1, cmd := cmd 0 0x38 0 [], attr := a, fresh := true, padded := false, material := some (List.replicate 32 0) }
    keyAttrOk a = true ∧ wrappedLen (keyType a) = 32 ∧ s.isOwner 0 = true ∧ s.kek (leAt a 2 1) = some [] ∧ s.emptySlot 0 = some 0 ∧ s.resolve 4 (s.handle 4 1) = some 1 ∧ s.keyRange 0 1 = true ∧ s.slotState 1 = 2 ∧ s.slotState 2 = 3 ∧ (s.slot 1).eraseAt = none ∧
    [{ l with padded := true }, { l with material := none }, l, { l with target := 65536 + 15 }].map (fun l => ({ s with keys := { loads := [l] } }).keys.loads.find? (fun x => x.target == l.target)) = [some { l with padded := true }, some { l with material := none }, some l, some { l with target := 65536 + 15 }] ∧
    (keySizes (keyType l.attr)).isSome = true ∧ xtsHalvesEqual (keyType l.attr) (List.replicate 32 0) = false ∧ xtsHalvesEqual 3 (List.replicate 64 0) = true ∧ ({ s with now := 1 }).resolve 4 (s.handle 4 3) = some 3 ∧ (0 : Nat) < ({ s with now := 1 }).now ∧
    s.slotState 3 = 4 ∧ s.slotOps 3 = 0 ∧ s.slotState 5 = 4 ∧ (s.slot 5).eraseCmd = none ∧ (s.slot 4).exhaustAt = some 0 ∧ (s.slot 4).state = 2 := by
  decide +kernel

/-- FunctionPowerStates: a function in D0, one in D3hot; a drain that is over with work left and without; links up, idle for their time, and in L1; a quiesce that is over. -/
theorem met_power_states :
    let s := set State.reset [(Fld.EP_PORT_STATUS_LINK_UP, 1, 0, 0), (Fld.EP_PORT_STATUS_LSTATE, 1, 0, 0), (Fld.EP_PORT_CFG_L1_IDLE_US, 1, 0, 0)]
    let d : Drain := { landings := 0, deadline := 0 }
    let f := s.setFn 0 { drain := some d, quiesce := some (cmd 0 0x52 0 [], d) }
    let q : Queue := { present := true, inProg := [0] }
    s.inD0 0 = true ∧ s.fnExists 0 = true ∧ (set s [(Fld.EP_FN_STATE_DSTATE, 3, 0, 0)]).inD0 0 = false ∧ s.flag Fld.EP_FN_STATE_D3COLD 0 = false ∧ f.drainOver d = true ∧ f.inProgress 0 = 0 ∧ 0 < (f.setQueue 7 q).inProgress 0 ∧
    (f.fn 0).drain = some d ∧ (f.fn 0).quiesce = some (cmd 0 0x52 0 [], d) ∧ s.flag Fld.EP_PORT_STATUS_LINK_UP 0 0 = true ∧ bitOf ((s.setHp 0 { aspm := 2 }).hp 0).aspm 1 = true ∧ (s.hp 0).idleSince + s.fld Fld.EP_PORT_CFG_L1_IDLE_US 0 0 * 1000 * 65536 ≤ max s.now 65536000 ∧
    s.planBursts.contains 0 = false ∧ (set s [(Fld.EP_PORT_STATUS_LSTATE, 2, 0, 0)]).fld Fld.EP_PORT_STATUS_LSTATE 0 0 = 2 := by
  decide +kernel

/-- VirtualFunctionCommands: a VF that exists, and one beyond NumVFs; a share of nothing; a staged share; the states of a quiesce and of a log; one saved CQ and one saved queue of the ACQ. -/
theorem met_virtual_functions :
    let s := set (owned State.reset) [(Fld.VFN_PORT_VF_EN, 1, 0, 0), (Fld.VFN_PORT_NUM_VFS, 512, 0, 0)]
    let b : Bytes := leBytes 2 1 ++ List.replicate 126 0
    let t := { s with vfn := { staged := [(1, (b, []))] } }
    let l : VfLog := { issuer := 0, base := 0, pages := 2 ^ 28, map := 0, failed := false, bits := [], count := 0, waiting := [] }
    let v := (s.setFn 1 { vstate := 2, log := some l })
    let w := { s with vfn := { shares := [(1, List.replicate 4 0 ++ leBytes 2 1 ++ leBytes 2 1 ++ List.replicate 120 0)] } }
    let cq : Bytes := leBytes 4 0 ++ leBytes 4 (2 + 4 * 256) ++ List.replicate 24 0
    let sq : Bytes := leBytes 4 0 ++ leBytes 4 (4 * 256) ++ List.replicate 20 0 ++ leBytes 4 0x20010000
    s.fnExists 512 = true ∧ s.fnExists 513 = false ∧ isPf 512 = false ∧ s.isOwner 0 = true ∧ s.shareCheck b = none ∧ s.planActive = false ∧ (owned (plan 0)).planActive = true ∧ look s.vfn.staged 1 = none ∧ look t.vfn.staged 1 = some (b, []) ∧
    (s.fn 1).vstate ≠ 1 ∧ (v.fn 1).vstate = 2 ∧ (s.fn 1).log = none ∧ (v.fn 1).log = some l ∧ s.wq.queues = [] ∧ v.queuesOf 1 = 0 ∧ v.cqsOf 1 = 0 ∧ leAt (sliceB cq 0 32) 4 4 % 4 = 2 ∧ saveOk (sliceB cq 0 32) = true ∧ leAt (sliceB sq 0 32) 4 4 % 4 = 0 ∧
    saveOk (sliceB sq 0 32) = true ∧ leAt (sliceB sq 0 32) 28 4 = 0x20010000 ∧ 1 ≤ w.shareAt 1 4 2 ∧ 1 ≤ w.shareAt 1 6 2 ∧ s.fld Fld.WQ_QUEUES_CQS < 65535 ∧ s.fld Fld.WQ_QUEUES_QUEUES < 65535 := by
  decide +kernel

/-- HostPortEvents and CompletionsOfReads: a port that may train, to the last generation and width of its configuration; one that is up; PERST of an enabled and of a disabled port; an FLR's end; a request one tick late, and a tag of no request. -/
theorem met_host_ports :
    let s := { State.reset with own := { powered := true } }.setHp 0 { perst := false }
    let u := linkUp s 0 (s.fld Fld.EP_PORT_CFG_GEN 0 0) (s.fld Fld.EP_PORT_MAP_WIDTH 0 0 + 2) false
    let r : HostReq := { tag := 5, fn := 0, addr := 0, len := 64, purpose := 1, arg := 0, arg2 := 0, sent := 0 }
    let h := s.setHp 0 { reqs := [r] }
    s.flag Fld.EP_PORT_MAP_EN 0 0 = true ∧ (s.hp 0).perst = false ∧ s.flag Fld.EP_PORT_STATUS_LINK_UP 0 0 = false ∧ u.own.restoreEvent = none ∧ u.flag Fld.EP_PORT_STATUS_LINK_UP 0 0 = true ∧
    (let v := owned { u with own := { u.own with restoreEvent := some 1 } }; v.own.restoreEvent = some 1 ∧ v.ownerValid = true ∧ portOf v.ownerFn = 0) ∧ State.reset.flag Fld.EP_PORT_MAP_EN 0 7 = false ∧ (State.reset.hp 7).perst = true ∧
    s.fnExists 0 = true ∧ (set s [(Fld.EP_FN_STATE_FLR_BUSY, 1, 0, 0)]).flag Fld.EP_FN_STATE_FLR_BUSY 0 = true ∧ (h.hp 0).reqs.find? (fun r => r.tag == 5) = some r ∧ r.sent + ctoUs (h.hp 0).ctoValue * 1000 * 65536 < ctoUs 0 * 1000 * 65536 + 1 ∧
    (h.hp 0).reqs.find? (fun r => r.tag == 6) = none ∧ (h.hp 0).late.contains 6 = false ∧ ((h.setHp 0 { late := [6] }).hp 0).late.contains 6 = true := by
  decide +kernel

/-- WindowsAndHostRequests: windows to commit, and one that fails; a live window of the whole BAR's first 4 KiB, hit at its last octet and missed at the next; a function that takes memory requests and one that exists and does not. -/
theorem met_windows :
    let s := owned State.reset
    let live := ((owned (plan 0)).setWord .EP_WIN_LIVE_W0 (BitVec.ofNat 32 (7 * 2 ^ 29 + 2 * 2 ^ 24)) 0 63).setWord .EP_WIN_LIVE_W1 (BitVec.ofNat 32 (12 * 2 ^ 26)) 0 63
    let hit := fun off : Nat => ((List.range 64).map (fun w => live.liveWin 0 w)).find? (fun e => e.valid && decide (e.bar ≤ off) && decide (off < e.bar + e.size))
    let d := set s [(Fld.EP_FN_STATE_DSTATE, 3, 0, 0)]
    s.mayPage (.fn 0) 0 = true ∧ s.fnExists 0 = true ∧ s.winFail 0 = none ∧ s.takesMem 0 = true ∧ d.takesMem 0 = false ∧ d.fnExists 0 = true ∧ s.fnExists 2048 = false ∧ s.flag Fld.EP_PORT_MAP_EN 0 (portOf 2) = true ∧ s.fnExists 2 = false ∧
    (s.setWord .EP_WIN_SHADOW_W0 (BitVec.ofNat 32 (2 ^ 31)) 0 63).winFail 0 = some (63, 2) ∧ live.takesMem 0 = true ∧ hit 4096 = none ∧
    (hit 4095).any (fun e => live.winRange e && live.winKnown e && live.winGranted 0 e && live.winPlace e == some (2, 0, 0) && e.rd && e.wr && decide (4095 + 1 ≤ e.bar + e.size) && !(live.winRead 2 0 4095 1).2) = true := by
  decide +kernel

/-- RegisterFieldsTakeWritesByType and RegisterAccesses: a field of a register; a write in view at the last word of a page and of the map; one of the running hall's window, which waits; a hall that sleeps; an offset of no register; a pair. -/
theorem met_registers :
    let s := owned (plan 0)
    let u := owned State.reset
    let low := Reg.addr .DMA_CNT_CARRIER_IDLE_LO 0 0
    (∃ f ∈ Reg.fields .TB_CTRL, f.acc = .rw) ∧ (∃ f ∈ Reg.fields .TB_STATUS, f.acc = .w1c) ∧ HoldsFields .TB_CTRL 0 ∧ u.asleep (Reg.addr .TB_CTRL 0 0) 3 = false ∧ u.computed .TB_CTRL 0 0 = none ∧
    u.writes (.fn 0) (Reg.addr .TB_CTRL 0 0) = true ∧ Reg.addr .TB_CTRL 0 0 % 4 = 0 ∧ u.boundaryHall (Reg.addr .TB_CTRL 0 0) = none ∧ Machine.place (canonical (Reg.addr .TB_CTRL 0 0)) = some (.TB_CTRL, 0, 0) ∧ u.asleep (Reg.addr .TB_CTRL 0 0) 2 = false ∧
    s.boundaryHall low = some 0 ∧ s.sees (.fn 0) (canonical (low / 4 * 4)) = true ∧ (∃ r o i, Machine.place (canonical low) = some (r, o, i) ∧ (pairHigh r).isSome = true) ∧ u.boundaryHall low = none ∧
    u.writes (.fn 1) (Reg.addr .TB_CTRL 0 0) = false ∧ Machine.place 0x4FFFFFFC = none ∧ (∃ a, inPage a = true ∧ a % 0x10000 < 0x9000 ∧ u.writes (.fn 0) a = true) := by
  refine ⟨?_, ?_, ⟨by decide, fun k hk hb => absurd hb (by revert k; decide)⟩, ?_, ?_, ?_, ?_, ?_, ?_, ?_, ?_, ?_, ⟨.DMA_CNT_CARRIER_IDLE_LO, 0, 0, ?_⟩, ?_, ?_, ?_, ⟨0x30008FFC, ?_⟩⟩ <;> decide +kernel

/-- OwnershipCommands: a claim with the current epoch of no owner's part, of the owner, with another epoch, beside a pending change, and of an owner whose lease holds; a renewal of the owner and of another; a lease one tick late. A signed seizure rests on the signature check that Config leaves free. -/
theorem met_ownership :
    let s := State.reset
    let o := owned s
    let c := cmd 0 0x70 0 [s.epoch]
    Accepted s c 0x70 ∧ c.p 0 = s.epoch ∧ s.isOwner 0 = false ∧ s.flag Fld.OWN_STATE_PENDING = false ∧ s.epoch < 0xFFFFFFFF ∧ s.ownerValid = false ∧ Accepted o c 0x70 ∧ o.isOwner 0 = true ∧ Accepted s (cmd 0 0x70 0 [5]) 0x70 ∧
    (cmd 0 0x70 0 [5]).p 0 ≠ s.epoch ∧ (set s [(Fld.OWN_STATE_PENDING, 1, 0, 0)]).flag Fld.OWN_STATE_PENDING = true ∧ o.isOwner 1024 = false ∧ Accepted o (cmd 1024 0x70 0 [o.epoch]) 0x70 ∧ o.flag Fld.OWN_STATE_LAPSED = false ∧
    (set o [(Fld.OWN_STATE_LAPSED, 1, 0, 0)]).flag Fld.OWN_STATE_LAPSED = true ∧ o.own.leaseStart + o.fld Fld.OWN_LEASE_TERM_MS * 1000000 * 65536 < max o.now (3000 * 1000000 * 65536 + 1) := by
  unfold Accepted; decide +kernel

/-- TrustAndFirmware: the first enrolment, which needs no signature, whatever the serial number is; a part whose boot ROM runs, with images it refuses. The other signed commands and an image that verifies rest on what Config leaves free. -/
theorem met_trust :
    (State.reset.own.planKeys = [] ∧ look State.reset.own.planKeys 3 = none) ∧
    (let s := { State.reset with own := { powered := true } }
     s.fld Fld.OWN_BOOT_STATUS_STAGE < 2 ∧ s.own.powered = true ∧ s.fld Fld.OWN_BOOT_STATUS_PREFER = 0 ∧ s.fld Fld.OWN_BOOT_STATUS_LAST_RESET ≠ 2 ∧ s.imageOk s.own.imageA = false ∧ s.imageOk s.own.imageB = false) := by
  decide +kernel

/-- An enrolment block of plan key 3 for a part whose plan-key slots are empty, made from a serial number. -/
def enrolment (n : BitVec 64) : Bytes :=
  (leBytes 4 0x43455253 ++ leBytes 1 0x74 ++ leBytes 1 0xFF ++ leBytes 2 0 ++ leBytes 8 n.toNat ++ leBytes 8 0 ++ leBytes 1 3 ++ leBytes 1 4) ++ List.replicate 262 0

/-- TrustAndFirmware: made from the part's own serial number, whatever it is, it passes the check of its signature block. -/
theorem met_enrolment : leAt (enrolment Config.serial) 0x18 1 = 3 ∧ leAt (enrolment Config.serial) 0x19 1 = 4 ∧ (owned State.reset).signedCheck 0x74 98 true (enrolment Config.serial) = none := by
  have zero : ∀ (h : Bytes) (k off n : Nat), h.length ≤ off → allZero (sliceB (h ++ List.replicate k 0) off n) = true := by
    intro h k off n hl
    simp [allZero, sliceB, List.drop_append, List.drop_eq_nil_of_le hl]
  have key : ∀ n : BitVec 64, leAt (enrolment n) 8 8 = n.toNat := by
    intro n
    have := n.isLt
    show leNat (leBytes 8 n.toNat ++ List.replicate 0 0) = n.toNat
    simp [leBytes, leNat]
    omega
  refine ⟨rfl, rfl, ?_⟩
  have h1 : leAt (enrolment Config.serial) 0 4 = 0x43455253 := rfl
  have h2 : leAt (enrolment Config.serial) 4 1 = 0x74 := rfl
  have h3 : leAt (enrolment Config.serial) 5 1 = 0xFF := rfl
  have h4 : leAt (enrolment Config.serial) 6 2 = 0 := rfl
  have h5 : leAt (enrolment Config.serial) 16 8 = (owned State.reset).fld Fld.OWN_NONCE_LO_NONCE + 2 ^ 32 * (owned State.reset).fld Fld.OWN_NONCE_HI_NONCE := rfl
  have h6 : allZero (payloadAt (enrolment Config.serial) 98 (168 - 98)) = true := zero _ _ _ _ (Nat.le_of_ble_eq_true rfl)
  have h7 : allZero (sliceB (enrolment Config.serial) 0xC0 96) = true := zero _ _ _ _ (Nat.le_of_ble_eq_true rfl)
  have h8 : (owned State.reset).own.planKeys = [] := rfl
  simp [State.signedCheck, key, h1, h2, h3, h4, h5, h6, h7, h8]

/-- ResetCommands and FaultCommands: a part without power and with it; a device fault 1 ms old; running firmware one tick late; a hall in its reset, with and without a plan; each injection; a HALTED hall. -/
theorem met_resets_and_faults :
    let s := State.reset
    let p := { s with own := { powered := true } }
    let r : Recovery := { route := 0, cause := 1, since := 0, logical := some 0, spare := none, resetDone := false, minTreads := 0, cmd := none }
    let i := { owned (set portState [(Fld.FLT_CFG_INJECT_EN, 1, 0, 0)]) with now := 0 }
    s.own.powered = false ∧ p.own.powered = true ∧ ({ s with flt := { deviceFault := some 0 } }).flt.deviceFault = some 0 ∧ (0 : Nat) + 1000000 * 65536 ≤ max s.now 65536000000 ∧ (set s [(Fld.OWN_BOOT_STATUS_STAGE, 2, 0, 0)]).fld Fld.OWN_BOOT_STATUS_STAGE = 2 ∧
    s.flt.wdogKick + s.fld Fld.FLT_WDOG_LIMIT_MS * 1000000 * 65536 < s.fld Fld.FLT_WDOG_LIMIT_MS * 1000000 * 65536 + 1 ∧ s.flt.deviceFault = none ∧ (s.setRecov 17 (some r)).recov 17 = some r ∧ s.planActive = false ∧ (portState.setRecov 0 (some r)).planActive = true ∧
    i.adminCheck (cmd 0 0x82 0 [1, 0]) 0x82 = none ∧ i.injectOk 1 0 = true ∧ i.injectOk 2 0 = true ∧ i.injectOk 3 0 = true ∧ i.injectOk 4 1 = true ∧ i.injectOk 5 0 = true ∧ i.injectOk 6 0 = false ∧
    (set i [(Fld.FLT_HALL_STATE, 3, 0, 17)]).fld Fld.FLT_HALL_STATE 0 17 = 3 := by
  decide +kernel

/-- AlmanacAndPageCommands: an entry in a frozen Almanac, one of a code that is never suppressed, one within its rate and one beyond it; the last count of entries to read; an aligned page. -/
theorem met_almanac :
    let e : AlmEntry := { code := 0x0601, scope := 2, hall := 0, srcKind := 0, srcIdx := 0, time := 0, flight := 0, payload := [] }
    let s := { State.reset with flt := { almQueue := [e] } }
    let full := { s with flt := { almQueue := [e], almCounts := [(0x0601, s.fld Fld.ALM_CFG_CODE_RATE)] } }
    s.flt.almQueue = [e] ∧ (set s [(Fld.ALM_STATUS_FROZEN, 1, 0, 0)]).flag Fld.ALM_STATUS_FROZEN = true ∧ s.flag Fld.ALM_STATUS_FROZEN = false ∧ neverSuppressed 0x0D08 = true ∧ neverSuppressed 0x0601 = false ∧
    s.flt.almCounts.get 0 e.code < s.fld Fld.ALM_CFG_CODE_RATE ∧ s.fld Fld.ALM_CFG_CODE_RATE ≤ full.flt.almCounts.get 0 e.code ∧ (cmd 0 0x84 0 [0, 32768]).p 1 ≤ 32768 ∧ (cmd 0 0x80 0 [64, 0]).p64 0 % 64 = 0 := by
  decide +kernel

/-- BarometerPasses: running firmware awake; a used hall at its plan, and below it with the reserve off, with a spare and without one; a pass 1,800 s old. -/
theorem met_barometer :
    let s := set portState [(Fld.OWN_BOOT_STATUS_STAGE, 2, 0, 0), (Fld.BARO_CFG_RESERVE_EN, 0, 0, 0)]
    let req := Plan.reqGrade s.pln.active ((Plan.phys s.pln.active 0).getD 0)
    s.fld Fld.OWN_BOOT_STATUS_STAGE = 2 ∧ s.atF4 = false ∧ s.flt.deviceFault = none ∧ (17 ∉ s.usedPhys) ∧ s.logicalOf 0 = some 0 ∧ (set s [(Fld.BARO_MT_W0_CERT_G, req, 0, 0)]).fld Fld.BARO_MT_W0_CERT_G 0 0 ≤ req ∧
    req < (set s [(Fld.BARO_MT_W0_CERT_G, 4, 0, 0)]).fld Fld.BARO_MT_W0_CERT_G 0 0 ∧ s.fld Fld.FLT_HALL_STATE 0 0 = 0 ∧ s.flag Fld.BARO_CFG_RESERVE_EN = false ∧ s.recov 0 = none ∧ s.chooseSpare 0 0 = none ∧
    s.baro.passAt + 1800 * 65536000000000 ≤ max s.now (1800 * 65536000000000) ∧ max s.now (1800 * 65536000000000 - 1) < s.baro.passAt + 1800 * 65536000000000 := by
  decide +kernel

/-- SupplyAndThermalEvents and SidePorts: an armed undervoltage; a bay whose supply is asked for, off for its second; a trip held for its time; a cool lid held for its time; an alert; a scan to end. -/
theorem met_package :
    let s := portState
    let t := { s with pkg := { s.pkg with ocOff := [(0, 0)], tripSince := some 0, coolSince := some 0, hold := true, alert := true, jtag := 4 } }
    s.pkg.uvArmed = true ∧ s.supplyAsked 0 = true ∧ look s.pkg.ocOff 0 = none ∧ s.isPort 0 = true ∧ (∀ i, i < 8 → s.isPort (8 * 31 + i) = false) ∧ (set s [(Fld.CALM_STANDBY_WAKE_LANE, 1, 0, 0)]).supplyAsked 31 = true ∧ look t.pkg.ocOff 0 = some 0 ∧
    t.supplyAsked 0 = false ∧ t.pkg.tripSince = some 0 ∧ t.pkg.tripped = false ∧ t.pkg.coolSince = some 0 ∧ t.pkg.hold = true ∧ s.pkg.alert = false ∧ s.pkg.scanned = false ∧ s.pkg.jtag = 0 ∧ State.reset.planActive = false ∧ s.planActive = true := by
  decide +kernel

/-- TableCommands: the running hall, named alone and with all, has a table window; entries of zeros obey every table's rules, and one that does not; counts at their last values; a hall that runs no plan. -/
theorem met_tables :
    let s := owned (plan 0)
    let z : Bytes := List.replicate 160 0
    let y : Bytes := leBytes 8 0 ++ leBytes 4 (2 ^ 28) ++ List.replicate 116 0
    HallsServe s (cmd 0 0x1C 0 [0, 61440, 4096]) false ∧ HallsServe s (cmd 0 0x24 0 [0xFF]) true ∧ (cmd 0 0x1C 0 [0, 61440, 4096]).p 1 + 4096 = 65536 ∧ s.planActive = true ∧ s.isOwner 0 = true ∧ s.isOwner 1 = false ∧
    stnOk 65535 (sliceB z 0 16) = true ∧ actionOk (tcamAction z) = true ∧ tcamOk z = true ∧ bridgeOk (sliceB y 0 16) = true ∧ bridgeOk (List.replicate 16 0xFF) = false ∧ vportOk (sliceB z 0 32) = true ∧ tunOk (altTpid s) (sliceB y 0 128) = true ∧ domainOk (sliceB z 0 32) = true ∧
    dstOk (2 ^ 28) .flood = true ∧ s.tenantAction 1 (tcamAction z) = false ∧
    (let v := { s with vfn := { shares := [(1, List.replicate 0x1E 0 ++ leBytes 2 1 ++ List.replicate 96 0)] } }; v.tenantAction 1 (tcamAction z) = true ∧ v.isOwner 1 = false) := by
  have h : ∀ d all, (owned (plan 0)).namedHalls (d.p 0 % 256) all = [0] → HallsServe (owned (plan 0)) d all := fun d all e =>
    ⟨by rw [e]; decide, fun x hx => ⟨0, by rw [e] at hx; rw [List.mem_singleton.mp hx]; decide +kernel, by decide +kernel⟩⟩
  refine ⟨h _ _ ?_, h _ _ ?_, ?_⟩ <;> decide +kernel

/-- TableWindowsAndWalkers: an op that opens a window of the most clocks; an open window; a command whose last hall is done; failures to read, and none; an entry whose time is over; a hall whose sweeps run; a dynamic entry at its age and a static one. -/
theorem met_windows_and_walkers :
    let o := 0x33 * 2 ^ 56 + 65535 * 2 ^ 31
    let j : TblJob := { cmd := cmd 0 0x24 0 [0xFF], buf := [], pos := 0, acc := [] }
    let s := owned (plan 0)
    let q := { s with tblq := [(0, [j])] }
    let e : FragEntry := { key := [], action := 0, end_ := none, sum := 0, expiry := 0 }
    let b := fun st : Nat => ({ bd := 0, mac := [], dest := 0, state := st } : Bridge)
    Issues (tread 2 o) 0 2 0x33 o ∧ ((s.setSeq 0 { table := some (0, 0, 65535, 0) }).seq 0).table = some (0, 0, 65535, 0) ∧ q.tblq.get [] 0 = [j] ∧ j.st = 0 ∧ (q.tblq.put 0 []).all (fun e => e.2.all (fun k => (k.cmd.fn, k.cmd.idx) != (j.cmd.fn, j.cmd.idx))) = true ∧
    s.mayWrite (.fn 0) = true ∧ (s.auditSt 17).fails = [] ∧ ({ s with fw := { audit := [(17, { fails := [(511, 0)] })] } }.auditSt 17).fails = [(511, 0)] ∧ e.live 1 = false ∧ ({ s with fw := { frags := [(17 * 4096 + 1023 * 4 + 3, e)] } }).fragAt (17 * 4096 + 1023 * 4 + 3) = some e ∧
    (s.atTime 0).sweeps 0 = true ∧ s.cfg Fld.FWD_CFG_AGE_S ≠ 0 ∧ s.cfg Fld.FWD_CFG_AGE_S ≤ since12 (s.cfg Fld.FWD_CFG_AGE_S) 0 ∧ (b 0).static = false ∧ (b (2 ^ 30)).static = true := by
  unfold Issues; decide +kernel

/-- ChannelCommands: a bind that fails its checks and one of the pool's last slot; a pending channel, a bound one, and a handle of none; keys. -/
theorem met_channels :
    let s := owned { portState with cyc := { dirs := [(dirKey 0 9, leBytes 6 1 ++ leBytes 1 0 ++ leBytes 1 1 ++ leBytes 8 0)] } }
    let c : Chan := { sid := 9, pool := 5, slot := 3, hold := false, lost := 1, pcp := 0, keyA := 0, keyB := 0, txKey := 0, newKeys := none, phase := 2 }
    let b := { s with cyc := { s.cyc with chans := [(1, c), (2, { c with phase := 1 })], halls := [(chKey 0 1, {})] } }
    s.bindCheck (cmd 0 0x18 0 [0, 2 ^ 24, 0, 0]) = .inl (2, St.badDescriptor) ∧ s.bindCheck (cmd 0 0x18 0 [9 + 5 * 65536, 3 + 2 ^ 24, 0, 0]) = .inr 3 ∧ b.resolve 3 (b.handle 3 1) = some 1 ∧ look b.cyc.chans 1 = some c ∧ b.resolve 3 (b.handle 3 2) = some 2 ∧ look b.cyc.chans 2 = some { c with phase := 1 } ∧
    s.resolve 3 0 = none ∧ c.newKeys.getD (c.txKey, c.keyA, c.keyB) = (0, 0, 0) ∧ s.keyHandleOk 0 = true ∧ (b.poolRec c.pool).any (fun p => b.poolHalls p == [0]) = true ∧ (b.chHall 0 1).isSome = true := by
  decide +kernel

/-- PoolCommands: a region of the last octets of a hall's alcove, and one beyond them; a region that is free, the pair's last and not; the device owner and another; a stock below its mark and at it; the last owners to audit; an alarm. -/
theorem met_pools :
    let s := owned State.reset
    let o : BufOwner := { noOwner with fn := 5, ceil := List.replicate 8 0, counts := List.replicate 8 0 }
    let r := { s with bpm := { s.bpm with regions := [(0, region), (1, { region with base := 0x200000, first := 4, next := 4, used := 4 })], owners := (8191, o) :: s.bpm.owners, alarms := [5], pairs := [(pairKey 1 0 0, { stock := List.range 32 })] } }
    let n := slotStride 0 0
    s.regionOk 0 0 17 (alcoveTop - 64 * n) 64 = true ∧ s.regionOk 0 0 17 (alcoveTop - 64 * n) 65 = false ∧ s.freeRegion = some 0 ∧ s.freeRun 0 64 = 0 ∧ look r.bpm.regions 0 = some region ∧ region.allocated = 0 ∧ (r.bpm.regions.del 0).any (fun e => e.2.key == region.key) = true ∧
    r.freeList (r.pair region.key).listed (r.pair region.key).head = [] ∧ ({ region with allocated := 1 }).allocated ≠ 0 ∧ s.fnExists 0 = true ∧ s.isOwner 0 = true ∧ s.freeOwner = some 1 ∧ r.ownerIdx (r.ownerHandle 8191) = some 8191 ∧ r.bpm.owners.any (fun e => e.1 == 8191) = true ∧
    (r.bufOwner 8191).closing = none ∧ r.ownerIdx (r.ownerHandle 0) = some 0 ∧ s.planActive = false ∧ 32 ≤ (r.pair (pairKey 1 0 0)).stock.length ∧ (s.pair (pairKey 1 0 0)).stock.length < 32 ∧ (cmd 0 0x49 0 [8191, 1]).p 0 + 1 = 8192 ∧ r.bpm.alarms = [5] ∧ s.bpm.alarms = [] := by
  decide +kernel

/-- BufferCommands: an allocation that its owner's ceiling refuses, one with no region, and one from the stock; a length of the largest buffer; a buffer to add to and to free, and one that is not allocated. -/
theorem met_buffers :
    let s := owned State.reset
    let full := { s with bpm := { s.bpm with owners := [(0, { noOwner with fn := 0, ceil := List.replicate 8 1, counts := List.replicate 8 1 })] } }
    let r := { s with bpm := { s.bpm with regions := [(0, { region with allocated := 1, held := [(0, 1)] })], pairs := [(region.key, { stock := [bufId 0 1] })] } }
    let a := r.putHeader region (bufId 0 0) { next := 0, owner := 0x50010000, refs := 1, state := 1, tag := 0, flight := 0 }
    s.ownerIdx 0x50010000 = some 0 ∧ s.bpm.owners.any (fun e => e.1 == 0) = true ∧ s.isOwner 0 = true ∧ full.quotaFull 0 7 = true ∧ s.quotaFull 0 7 = false ∧ s.bpm.regions = [] ∧ (match r.allocBuffer 0 0 0 0 with | (_, .inl id) => id == bufId 0 1 | _ => false) = true ∧
    s.classFor 1048576 0 17 = none ∧ (r.pair (pairKey 0 0 0)).stock = [bufId 0 1] ∧ (r.regionOf (bufId 0 1)).isSome = true ∧ region.key = pairKey 0 0 0 ∧ a.refFault (bufId 0 0) (some 0) = none ∧ (a.header region (bufId 0 0)).refs ≤ 1 ∧ (a.header region (bufId 0 0)).refs < 65535 ∧
    s.refFault 0 (some 0) = some St.badRelease := by
  decide +kernel

/-- StorageCommands: the record of a connection in the running hall's flow; a connection in each state that a close, a timer and a segment tell apart; a queue's descriptor in an OPEN clock; a command to start; a SYN to send. -/
theorem met_storage :
    let b : Bytes := leBytes 4 0x10010007 ++ List.replicate 56 0 ++ leBytes 2 536 ++ leBytes 1 1 ++ leBytes 1 0 ++ leBytes 2 1 ++ leBytes 2 4 ++ List.replicate 60 0
    let d : Desc := { idx := 0, cookie := 0, opcode := 1, batchEnd := false, bytes := leBytes 64 1 }
    let q : Queue := { present := true, hall := 0, kind := 3, ready := [d] }
    let s := { (owned (windows { op := 1 })).setQueue 7 q with sto := {} }
    let v : StoConn := { record := b, needSyn := true, rtoAt := some 0, ackAt := some 0 }
    let at_ := fun v : StoConn => { s with sto := { conns := [(4095, v)], rx := [(4095, [List.replicate 20 0])] } }
    stoRecordOk b = true ∧ s.physOf 0 = some 0 ∧ (s.flow 0 0).isSome = true ∧ s.ringKey 1 (leAt b 0 4) 0 = some 7 ∧ s.sto.conns.length < 4096 ∧ bitOf (leAt b 5 1) 4 = false ∧
    (at_ v).resolve 6 (s.handle 6 4095) = some 4095 ∧ (at_ v).conn 4095 = some v ∧ v.state ≠ 3 ∧ v.tcp = 0 ∧ ({ v with state := 3 }).state = 3 ∧ ({ v with tcp := 1 }).tcp ≠ 0 ∧ s.resolve 6 0 = none ∧ (0 : Nat) < max s.now 1 ∧
    v.retries + 1 < s.fld Fld.STO_CFG_RETRIES ∧ s.fld Fld.STO_CFG_RETRIES ≤ 255 + 1 ∧ (at_ v).sto.rx.get [] 4095 = [List.replicate 20 0] ∧ segHdr (List.replicate 20 0) < 20 ∧ segHdr (List.replicate 12 0 ++ [0x50] ++ List.replicate 7 0) = 20 ∧
    (s.openTurn (s.servingHall q) (s.stoClass (s.servingHall q)) 0).isSome = true ∧ (s.stoCheck 7 0 d.bytes).isSome = true ∧ (at_ v).running 0 = true ∧ ((at_ v).nextSegment v).isSome = true ∧
    (List.range v.depth).find? (fun i => !v.cmds.any (fun m => m.cid == i)) = some 0 := by
  decide +kernel

/-- StepsServeTheQueue, StepsKeepQueueAndMemories: a state with a command waiting, whose memories are canonical and hold something, and a step of it. -/
theorem met_steps :
    let s := { (plan 0).putAlcove 17 0 [1] with pending := [.rfxNop 0 0 0] }
    s.pending = .rfxNop 0 0 0 :: [] ∧ MemoriesCanonical s ∧ State.reset.pending = [] ∧ ∃ t, Machine.step s = .next t := by
  refine ⟨rfl, ?_, rfl, _, rfl⟩
  unfold MemoriesCanonical; decide +kernel

end Sys2Proof.Tests
end

section
/-! PROOFS. What a write leaves of a register's fields under their access types (R4), what the register network does with an access (R6, R20, R576, R577),
and the registers after reset (R7). -/

open Sys2Proof.Spec

namespace Sys2Proof

/-! ### Bit fields and field tables -/

/-- The bit test of the statements is the library's. -/
theorem bitOf_eq_testBit (w i : Nat) : bitOf w i = w.testBit i := by
  rw [Nat.testBit_eq_decide_div_mod_eq]; rfl

/-- A field's value fits its width. -/
theorem bitsOf_lt (w hi lo : Nat) : bitsOf w hi lo < 2 ^ (hi + 1 - lo) := Nat.mod_lt _ (Nat.two_pow_pos _)

/-- A field that was written with a value of its width reads back as written. -/
theorem bitsOf_putBits_of_lt {w hi lo v : Nat} (h : v < 2 ^ (hi + 1 - lo)) : bitsOf (putBits w hi lo v) hi lo = v := by
  rw [bitsOf_putBits_same, Nat.mod_eq_of_lt h]

/-- Two fields share no bit. -/
def FieldInfo.Apart (f g : FieldInfo) : Prop := f.hi < g.lo ∨ g.hi < f.lo

theorem FieldInfo.Apart.symm {f g : FieldInfo} (h : f.Apart g) : g.Apart f := Or.symm h

/-- A field table that R4 and R7 can be read from: each field lies in the 32 bits of the word, its reset value fits it and is 0 where the field is
write-only, and no two fields share a bit. -/
def FieldsOk (fs : List FieldInfo) : Prop :=
  (∀ f ∈ fs, f.lo ≤ f.hi ∧ f.hi < 32 ∧ f.reset < 2 ^ (f.hi + 1 - f.lo) ∧ (f.acc = .wo → f.reset = 0)) ∧ fs.Pairwise FieldInfo.Apart

/-- There are 426 registers. -/
theorem Reg.ctorIdx_lt (r : Reg) : r.ctorIdx < 426 := by cases r <;> decide

/-- The field table of every register is in order. -/
theorem Reg.fieldsOk (r : Reg) : FieldsOk r.fields := by
  have table : ∀ n < 426, FieldsOk (Reg.ofNat n).fields := by
    unfold FieldsOk FieldInfo.Apart; decide +kernel
  exact r.ofNat_ctorIdx ▸ table _ r.ctorIdx_lt

namespace Machine

/-! ### What a write leaves (R4) -/

/-- What a write of v leaves of a field that holds old. -/
def fieldLeft (r : Reg) (firmware : Bool) (v : Nat) (f : FieldInfo) (old : Nat) : Nat :=
  let n := bitsOf v f.hi f.lo
  match f.acc with
  | .rw => if fieldTakes r f.hi n then n else old
  | .ro => if firmware then n else old
  | .w1c => old - (old &&& n)
  | .w1s => old ||| n
  | .wo => old

section
variable (r : Reg) (fw : Bool) (v w : Nat)

/-- The write of a field either leaves the word, or replaces the bits of that field, which is then not write-only. -/
theorem writeField_cases (f : FieldInfo) :
    writeField r fw v w f = w ∨ f.acc ≠ .wo ∧ ∃ n, writeField r fw v w f = putBits w f.hi f.lo n := by
  unfold writeField
  cases hacc : f.acc with
  | rw => dsimp only; split; exacts [.inr ⟨nofun, _, rfl⟩, .inl rfl]
  | ro => dsimp only; split; exacts [.inr ⟨nofun, _, rfl⟩, .inl rfl]
  | wo => exact .inl rfl
  | w1c => exact .inr ⟨nofun, _, rfl⟩
  | w1s => exact .inr ⟨nofun, _, rfl⟩

/-- The field written holds what its access type leaves. -/
theorem bitsOf_writeField_same (f : FieldInfo) :
    bitsOf (writeField r fw v w f) f.hi f.lo = fieldLeft r fw v f (bitsOf w f.hi f.lo) := by
  have hold := bitsOf_lt w f.hi f.lo
  have hnew := bitsOf_lt v f.hi f.lo
  unfold writeField fieldLeft
  cases f.acc with
  | rw => dsimp only; split; exacts [bitsOf_putBits_of_lt hnew, rfl]
  | ro => dsimp only; split; exacts [bitsOf_putBits_of_lt hnew, rfl]
  | wo => rfl
  | w1c => exact bitsOf_putBits_of_lt ((Nat.sub_le _ _).trans_lt hold)
  | w1s => exact bitsOf_putBits_of_lt (Nat.or_lt_two_pow hold hnew)

/-- A field that shares no bit with the one written keeps its value. -/
theorem bitsOf_writeField_apart {f g : FieldInfo} (hf : f.lo ≤ f.hi) (h : f.Apart g) :
    bitsOf (writeField r fw v w f) g.hi g.lo = bitsOf w g.hi g.lo := by
  obtain e | ⟨-, n, e⟩ := writeField_cases r fw v w f <;> rw [e]
  exact bitsOf_putBits_other _ _ _ _ _ _ hf h

/-- Writing fields that share no bit with another one keeps that one's value. -/
theorem bitsOf_writeFields_apart {fs : List FieldInfo} {g : FieldInfo} (hin : ∀ f ∈ fs, f.lo ≤ f.hi) (h : ∀ f ∈ fs, f.Apart g) :
    bitsOf (fs.foldl (writeField r fw v) w) g.hi g.lo = bitsOf w g.hi g.lo := by
  refine List.foldlRecOn (motive := fun x => bitsOf x g.hi g.lo = bitsOf w g.hi g.lo) fs _ rfl ?_
  intro x hx f hf
  rw [bitsOf_writeField_apart r fw v x (hin f hf) (h f hf), hx]

/-- Writing fields that share no bit leaves of each what its access type says. -/
theorem bitsOf_writeFields {fs : List FieldInfo} (hin : ∀ f ∈ fs, f.lo ≤ f.hi) (hap : fs.Pairwise FieldInfo.Apart) {g : FieldInfo} (hg : g ∈ fs) :
    bitsOf (fs.foldl (writeField r fw v) w) g.hi g.lo = fieldLeft r fw v g (bitsOf w g.hi g.lo) := by
  induction fs generalizing w with
  | nil => cases hg
  | cons f fs ih =>
    obtain ⟨hf, hrest⟩ := List.pairwise_cons.mp hap
    obtain ⟨hlo, hlos⟩ := List.forall_mem_cons.mp hin
    rw [List.foldl_cons]
    obtain rfl | hg := List.mem_cons.mp hg
    · rw [bitsOf_writeFields_apart r fw v _ hlos fun f h => (hf f h).symm, bitsOf_writeField_same]
    · rw [ih _ hlos hrest hg, bitsOf_writeField_apart r fw v w hlo (hf g hg)]

/-- A write of a register leaves of each of its fields what the field's access type says. -/
theorem bitsOf_writtenWord {g : FieldInfo} (hg : g ∈ r.fields) :
    bitsOf (writtenWord r fw w v) g.hi g.lo = fieldLeft r fw v g (bitsOf w g.hi g.lo) :=
  bitsOf_writeFields r fw v w (fun f hf => (r.fieldsOk.1 f hf).1) r.fieldsOk.2 hg

variable {r w}

/-- Replacing the bits of a field that is not write-only keeps reserved bits and write-only fields 0. -/
theorem holdsFields_putBits {f : FieldInfo} (n : Nat) (hf : f ∈ r.fields) (hacc : f.acc ≠ .wo) (h : HoldsFields r w) :
    HoldsFields r (putBits w f.hi f.lo n) := by
  obtain ⟨hlt, hbits⟩ := h
  obtain ⟨hlo, hhi, -⟩ := r.fieldsOk.1 f hf
  refine ⟨putBits_lt w f.hi f.lo n hlo hlt hhi, fun k hk hset => ?_⟩
  rw [bitOf_eq_testBit, testBit_putBits w f.hi f.lo n k hlo] at hset
  split at hset
  next hin => exact ⟨f, hf, hin.1, hin.2, hacc⟩
  next => exact hbits k hk ((bitOf_eq_testBit w k).trans hset)

/-- A write of a register keeps reserved bits and write-only fields 0. -/
theorem holdsFields_writtenWord (h : HoldsFields r w) : HoldsFields r (writtenWord r fw w v) := by
  refine List.foldlRecOn (motive := HoldsFields r) r.fields _ h fun x hx f hf => ?_
  obtain e | ⟨hacc, n, e⟩ := writeField_cases r fw v x f <;> rw [e]
  exacts [hx, holdsFields_putBits n hf hacc hx]

end

/-! ### Reset values (R7) -/

/-- Adding the value of a field that is blank is writing it. -/
theorem putBits_of_blank {w hi lo v : Nat} (hw : bitsOf w hi lo = 0) (hv : v < 2 ^ (hi + 1 - lo)) : putBits w hi lo v = w + v * 2 ^ lo := by
  rw [putBits, hw, Nat.mod_eq_of_lt hv, Nat.zero_mul, Nat.sub_zero]

/-- Adding the reset values of fields that are still blank keeps reserved bits and write-only fields 0. -/
theorem holdsFields_addResets {r : Reg} {fs : List FieldInfo} (hsub : fs ⊆ r.fields) (hok : FieldsOk fs) {w : Nat} (hw : HoldsFields r w)
    (hblank : ∀ f ∈ fs, bitsOf w f.hi f.lo = 0) : HoldsFields r (fs.foldl (fun m f => m + f.reset * 2 ^ f.lo) w) := by
  induction fs generalizing w with
  | nil => exact hw
  | cons f fs ih =>
    obtain ⟨hf, hsub⟩ := List.cons_subset.mp hsub
    obtain ⟨hin, hap⟩ := hok
    obtain ⟨⟨hlo, -, hfit, hwo⟩, hin⟩ := List.forall_mem_cons.mp hin
    obtain ⟨hapf, hap⟩ := List.pairwise_cons.mp hap
    obtain ⟨hb, hblank⟩ := List.forall_mem_cons.mp hblank
    have hput := putBits_of_blank hb hfit
    rw [List.foldl_cons]
    refine ih hsub ⟨hin, hap⟩ ?_ fun g hg => ?_
    · by_cases hacc : f.acc = .wo
      · rwa [hwo hacc, Nat.zero_mul, Nat.add_zero]
      · exact hput ▸ holdsFields_putBits f.reset hf hacc hw
    · rw [← hput, bitsOf_putBits_other _ _ _ _ _ _ hlo (hapf g hg), hblank g hg]

/-- The reset values that the field tables give keep reserved bits and write-only fields 0. -/
theorem holdsFields_resetOf (r : Reg) : HoldsFields r (resetOf r.fields) := by
  have zero : HoldsFields r 0 := ⟨by decide, fun k _ hk => by simp [bitOf_eq_testBit] at hk⟩
  exact holdsFields_addResets (List.Subset.refl _) r.fieldsOk zero fun f _ => by simp [bitsOf]

/-- So do the reset values that single ports and sources have of their own. -/
theorem holdsFields_reset (r : Reg) (o i : Nat) : HoldsFields r (r.reset o i).toNat := by
  have table (q : Reg) : HoldsFields q (BitVec.ofNat 32 (resetOf q.fields)).toNat := by
    rw [BitVec.toNat_ofNat, Nat.mod_eq_of_lt (holdsFields_resetOf q).1]; exact holdsFields_resetOf q
  have port0 : HoldsFields .EP_PORT_MAP 0x120 := by unfold HoldsFields; decide
  have port1 : HoldsFields .EP_PORT_MAP 0x124 := by unfold HoldsFields; decide
  have edge : HoldsFields .SIC_SRC_CFG 0x01000000 := by unfold HoldsFields; decide
  have level : HoldsFields .SIC_SRC_CFG 0 := by unfold HoldsFields; decide
  have miss : HoldsFields .CLS_MISS_W3 0x10000000 := by unfold HoldsFields; decide
  unfold Reg.reset
  split
  next =>
    split
    · exact port0
    split
    · exact port1
    · exact table .EP_PORT_MAP
  next => split; exacts [edge, level]
  next => exact miss
  next => exact table r

/-! ### Accesses of the register network (R6, R20, R576, R577) -/

section
variable (s : State) (who : Who) (a v t h : Nat)

/-- Moving to an instant twice is moving there once. -/
@[simp] theorem atTime_atTime : (s.atTime t).atTime t = s.atTime t := by simp [State.atTime]

/-- A read moves the time itself. -/
@[simp] theorem readWord_atTime : (s.atTime t).readWord who a t = s.readWord who a t := by simp [State.readWord]

/-- Addressing a hall takes no time. -/
@[simp] theorem touch_now : (s.touch h).now = s.now := by
  unfold State.touch; dsimp only; split <;> rfl

theorem exec_registerWrite : exec (.registerWrite who a v t) s = .next (s.writeWord who a v t) := rfl
theorem exec_lowWordRead : exec (.lowWordRead who a t) s = execLowWordRead who a t s := rfl
theorem exec_highWordCommit : exec (.highWordCommit who a v t) s = execHighWordCommit who a v t s := rfl

variable {s who a v t}

/-- A write outside the sender's view only moves the time. -/
theorem writeWord_unseen (hw : (s.atTime t).writes who (canonical a) = false) : s.writeWord who a v t = s.atTime t := by
  simp [State.writeWord, hw]

section
variable (hw : (s.atTime t).writes who (canonical a) = true) (ha : canonical a % 4 = 0) (hv : v < 2 ^ 32)
include hw ha hv

/-- A write of an aligned word in the sender's view is not ignored. -/
theorem write_heeded : ¬ ((!(s.atTime t).writes who (canonical a)) = true ∨ canonical a % 4 ≠ 0 ∨ 2 ^ 32 ≤ v) := by
  simp only [hw, ha, Nat.not_le.mpr hv, Bool.not_true, Bool.false_eq_true, ne_eq, not_true_eq_false, or_self, not_false_eq_true]

/-- A write to the window of a hall that is awake under a plan waits for the tread boundary. -/
theorem writeWord_boundary {h : Nat} (hb : (s.atTime t).boundaryHall a = some h) :
    s.writeWord who a v t = (s.atTime t).await h who a (.write v) := by
  unfold State.writeWord
  dsimp only
  rw [if_neg (write_heeded hw ha hv), hb]

/-- Any other write acts at once. -/
theorem writeWord_now (hb : (s.atTime t).boundaryHall a = none) : s.writeWord who a v t = (s.atTime t).writeSeen who a v t := by
  unfold State.writeWord
  dsimp only
  rw [if_neg (write_heeded hw ha hv), hb]

end

/-- A write into the MSI-X structures of a function page goes there. -/
theorem writeSeen_page (hp : inPage (canonical a) = true ∧ canonical a % 0x10000 < 0x9000) :
    s.writeSeen who a v t = s.msixWrite (pageFn (canonical a)) (canonical a % 0x10000) v := if_pos hp

section
variable (hp : ¬ (inPage (canonical a) = true ∧ canonical a % 0x10000 < 0x9000))
include hp

/-- A write that meets no register is ignored. -/
theorem writeSeen_none (hr : Machine.place (canonical a) = none) : s.writeSeen who a v t = s := by
  simp only [State.writeSeen, if_neg hp, hr]

variable {r : Reg} {o i : Nat} (hr : Machine.place (canonical a) = some (r, o, i))
include hr

/-- A write that meets an awake register acts on it. -/
theorem writeSeen_awake (hz : s.asleep (canonical a) 2 = false) : s.writeSeen who a v t = s.writeReg who r o i v t := by
  simp [State.writeSeen, if_neg hp, hr, hz]

/-- A write that meets a register of a hall asleep is ignored. -/
theorem writeSeen_asleep (hz : s.asleep (canonical a) 2 = true) : s.writeSeen who a v t = s := by
  simp [State.writeSeen, if_neg hp, hr, hz]

end

section
variable {r : Reg} {o i : Nat} (hr : Machine.place (canonical a) = some (r, o, i))
include hr

/-- A read of a low word in the window of a hall that is awake under a plan waits for the tread boundary. -/
theorem execLowWordRead_boundary {h : Nat} (hp : (pairHigh r).isSome = true) (hs : (s.atTime t).sees who (canonical (a / 4 * 4)) = true)
    (hb : (s.atTime t).boundaryHall a = some h) : execLowWordRead who a t s = .next ((s.atTime t).await h who a .read) := by
  have hp : (pairHigh r).isNone = false := Option.isNone_eq_false_iff.mpr hp
  unfold execLowWordRead
  rw [hr]
  dsimp only
  rw [if_neg (by simp [hp]), if_pos hs, hb]

/-- Any other read of a low word is answered at once. -/
theorem execLowWordRead_now (hp : (pairHigh r).isSome = true)
    (hb : (s.atTime t).sees who (canonical (a / 4 * 4)) = false ∨ (s.atTime t).boundaryHall a = none) :
    execLowWordRead who a t s = .next ((s.readWord who a t).1.answer who a (s.readWord who a t).2) := by
  have hnow : (if (s.atTime t).sees who (canonical (a / 4 * 4)) then (s.atTime t).boundaryHall a else none) = none := by
    obtain hb | hb := hb <;> simp [hb]
  have hp : (pairHigh r).isNone = false := Option.isNone_eq_false_iff.mpr hp
  unfold execLowWordRead
  rw [hr]
  dsimp only
  rw [if_neg (by simp [hp]), hnow]
  dsimp only
  rw [readWord_atTime]

/-- A write of the high word of a staged pair is a write of its register. -/
theorem execHighWordCommit_pair (hp : (pairLow r).isSome = true ∨ r = .TB_SET_SEC_HI) :
    execHighWordCommit who a v t s = .next (s.writeWord who a v t) := by
  unfold execHighWordCommit
  rw [hr]
  exact congrArg _ (if_pos hp)

end

/-- A read of the low word of a pair answers it and latches the high word. -/
theorem readReg_low {r hi : Reg} (o i : Nat) (hp : pairHigh r = some hi) (hl : latchedReg r = false) :
    s.readReg who r o i t = (s.latch who (hi.addr o i) (s.shown hi o i), s.shown r o i) := by
  unfold State.readReg
  split
  case h_6 => simp [hp, hl]
  all_goals exact absurd hp nofun

/-- Of two accesses that wait, a write received before a read, the read is served first. -/
theorem serveAccesses_write_read {x y : HallAccess} (hq : s.hallq = [x, y]) (hx : x.reads = false) (hy : y.reads = true) :
    s.serveAccesses = (({ s with hallq := [] }).serveAccess y).serveAccess x := by
  simp [State.serveAccesses, hq, hx, hy, insertAccess]

end

/-! ### The statements -/

/-- Settles O42, from the fold of the fields' writes over the word. -/
theorem registerFieldsTakeWritesByType : Obligations.RegisterFieldsTakeWritesByType := by
  unfold Obligations.RegisterFieldsTakeWritesByType
  refine ⟨fun r f w v hf _ _ => ?_, fun r fw w v => holdsFields_writtenWord fw v, holdsFields_reset, fun r o i s hz hc => ?_⟩
  · rw [bitsOf_writtenWord r false v w hf]
    unfold fieldLeft
    cases f.acc <;> rfl
  · simp [State.shown, hz, hc]

/-- Settles O43, from what a write and a read do in each case of the sender's view, the hall and the register. -/
theorem registerAccesses : Obligations.RegisterAccesses := by
  unfold Obligations.RegisterAccesses Gives
  intro who addr value at_ s
  refine ⟨⟨fun hw ha hv => ⟨fun h hb => ?_, fun r o i hb hp hr hz => ?_, fun hb hp => ?_, fun r o i hb hp hr hz => ?_, fun hb hp hr => ?_⟩, fun hw => ?_,
    fun r o i h hr hp hs hb => ?_, fun r o i hr hp hb => ?_, fun r o i hr hp => ?_⟩, fun r hi o i => readReg_low o i, fun h a => ?_, fun x y hq hx hy => ?_⟩
  · rw [exec_registerWrite, writeWord_boundary hw ha hv hb]
  · rw [exec_registerWrite, writeWord_now hw ha hv hb, writeSeen_awake hp hr hz]
  · rw [exec_registerWrite, writeWord_now hw ha hv hb, writeSeen_page hp]
  · rw [exec_registerWrite, writeWord_now hw ha hv hb, writeSeen_asleep hp hr hz]
  · rw [exec_registerWrite, writeWord_now hw ha hv hb, writeSeen_none hp hr]
  · rw [exec_registerWrite, writeWord_unseen hw]
  · rw [exec_lowWordRead, execLowWordRead_boundary hr hp hs hb]
  · rw [exec_lowWordRead, execLowWordRead_now hr hp hb]
  · rw [exec_highWordCommit, execHighWordCommit_pair hr hp]
  · simp only [State.serveAccess, touch_now, and_self]
  · obtain ⟨v, hx⟩ := hx
    exact serveAccesses_write_read hq (by simp [HallAccess.reads, hx]) (by simp [HallAccess.reads, hy])

/-- With nothing stored, a register holds its reset value. -/
@[simp] theorem word_reset (r : Reg) (o i : Nat) : State.reset.word r o i = r.reset o i := rfl

/-- Settles O2: no register is stored at reset, and the fields named are bits of the tables' reset values. -/
theorem resetLeavesResetColumns : Obligations.ResetLeavesResetColumns := by
  unfold Obligations.ResetLeavesResetColumns
  refine ⟨word_reset, ?_⟩
  decide

end Machine

end Sys2Proof
end

section
/-! PROOFS. What every step keeps (R16, R148): each command keeps the queue and the form of both memories, so a step takes one command from the queue and
nothing else of it. The order in which the queue is served (log entry 1), and what holds of queue and memories at reset. -/

open Sys2Proof.Spec

namespace Sys2Proof.Machine

/-! ### What a step does with the queue -/

theorem step_idle {s : State} (h : s.pending = []) : step s = .next s := by simp only [step, h]

theorem step_serve {s : State} {c : Instr} {rest : List Instr} (h : s.pending = c :: rest) : step s = exec c { s with pending := rest } := by
  simp only [step, h]

/-! ### What every command keeps -/

/-- Every command keeps the queue and both memories canonical: the dispatch, with the lemma of each meaning. -/
theorem exec_keeps {z s : State} (hs : Keeps z s) (i : Instr) : KeepsNext z (exec i s) :=
  match i with
  | .treadStart errs at_ => execTreadStart_keeps errs at_ s hs
  | .landing uj reload bad at_ => execLanding_keeps uj reload bad at_ s hs
  | .opNop h slot => execOpNop_keeps h slot s hs
  | .move h => execMove_keeps h s hs
  | .moveFlitDeliver mv bad => execMoveFlitDeliver_keeps mv bad s hs
  | .atriumBeat mv ecc => execAtriumBeat_keeps mv ecc s hs
  | .refresh h => execRefresh_keeps h s hs
  | .emergRefresh stack ch at_ => execEmergRefresh_keeps stack ch at_ s hs
  | .selfRefresh stack ch at_ => execSelfRefresh_keeps stack ch at_ s hs
  | .setptr h => execSetptr_keeps h s hs
  | .win h => execWin_keeps h s hs
  | .arrivalIssue h ptp ecc at_ => execArrivalIssue_keeps h ptp ecc at_ s hs
  | .flowIssue h ecc at_ => execFlowIssue_keeps h ecc at_ s hs
  | .openIssue h ptp ecc at_ => execOpenIssue_keeps h ptp ecc at_ s hs
  | .replicateCopy h => execReplicateCopy_keeps h s hs
  | .rqDelivery h => execRqDelivery_keeps h s hs
  | .cipherWindow h at_ => execCipherWindow_keeps h at_ s hs
  | .cipherOpRelease h src aad tag at_ => execCipherOpRelease_keeps h src aad tag at_ s hs
  | .cipherJobFetch k at_ => execCipherJobFetch_keeps k at_ s hs
  | .entropyHealthFail h test at_ => execEntropyHealthFail_keeps h test at_ s hs
  | .keyExhaust k at_ => execKeyExhaust_keeps k at_ s hs
  | .dmaOp h => execDmaOp_keeps h s hs
  | .dmaBurstComplete h c bad at_ => execDmaBurstComplete_keeps h c bad at_ s hs
  | .hostFlitRelease p toward bad at_ => execHostFlitRelease_keeps p toward bad at_ s hs
  | .readAheadRequest h c at_ => execReadAheadRequest_keeps h c at_ s hs
  | .bestEffortTlpSend p crossed at_ => execBestEffortTlpSend_keeps p crossed at_ s hs
  | .descriptorFetch h c more host list at_ => execDescriptorFetch_keeps h c more host list at_ s hs
  | .descriptorComplete h c => execDescriptorComplete_keeps h c s hs
  | .dmaEngineStop h at_ => execDmaEngineStop_keeps h at_ s hs
  | .dmaChKick who h c => execDmaChKick_keeps who h c s hs
  | .dmaChStart who h c => execDmaChStart_keeps who h c s hs
  | .dmaChCfgWrite who h c value => execDmaChCfgWrite_keeps who h c value s hs
  | .bufOpAlloc h => execBufOpAlloc_keeps h s hs
  | .bufAllocResult h at_ => execBufAllocResult_keeps h at_ s hs
  | .bufOpHand h => execBufOpHand_keeps h s hs
  | .handPost h => execHandPost_keeps h s hs
  | .bufOpRelease h => execBufOpRelease_keeps h s hs
  | .tableWindow h at_ => execTableWindow_keeps h at_ s hs
  | .rfx h => execRfx_keeps h s hs
  | .kernelBudgetEnd h c at_ => execKernelBudgetEnd_keeps h c at_ s hs
  | .wake h => execWake_keeps h s hs
  | .ctx h => execCtx_keeps h s hs
  | .ctxEmission h pool cut at_ => execCtxEmission_keeps h pool cut at_ s hs
  | .crx h => execCrx_keeps h s hs
  | .poolDeadline h pool at_ => execPoolDeadline_keeps h pool at_ s hs
  | .evtOp h => execEvtOp_keeps h s hs
  | .skipOp h => execSkipOp_keeps h s hs
  | .land h => execLand_keeps h s hs
  | .addOp h c ecc rd ra rb => execAddOp_keeps h c ecc rd ra rb s hs
  | .subOp h c ecc rd ra rb => execSubOp_keeps h c ecc rd ra rb s hs
  | .andOp h c ecc rd ra rb => execAndOp_keeps h c ecc rd ra rb s hs
  | .orOp h c ecc rd ra rb => execOrOp_keeps h c ecc rd ra rb s hs
  | .xorOp h c ecc rd ra rb => execXorOp_keeps h c ecc rd ra rb s hs
  | .shl h c ecc rd ra rb => execShl_keeps h c ecc rd ra rb s hs
  | .shr h c ecc rd ra rb => execShr_keeps h c ecc rd ra rb s hs
  | .sar h c ecc rd ra rb => execSar_keeps h c ecc rd ra rb s hs
  | .slt h c ecc rd ra rb => execSlt_keeps h c ecc rd ra rb s hs
  | .sltu h c ecc rd ra rb => execSltu_keeps h c ecc rd ra rb s hs
  | .minOp h c ecc rd ra rb => execMinOp_keeps h c ecc rd ra rb s hs
  | .maxOp h c ecc rd ra rb => execMaxOp_keeps h c ecc rd ra rb s hs
  | .minu h c ecc rd ra rb => execMinu_keeps h c ecc rd ra rb s hs
  | .maxu h c ecc rd ra rb => execMaxu_keeps h c ecc rd ra rb s hs
  | .mulOp h c ecc rd ra rb => execMulOp_keeps h c ecc rd ra rb s hs
  | .mulh h c ecc rd ra rb => execMulh_keeps h c ecc rd ra rb s hs
  | .mulhu h c ecc rd ra rb => execMulhu_keeps h c ecc rd ra rb s hs
  | .divu h c ecc rd ra rb => execDivu_keeps h c ecc rd ra rb s hs
  | .remu h c ecc rd ra rb => execRemu_keeps h c ecc rd ra rb s hs
  | .qadd h c ecc rd ra rb => execQadd_keeps h c ecc rd ra rb s hs
  | .qsub h c ecc rd ra rb => execQsub_keeps h c ecc rd ra rb s hs
  | .qmul h c ecc rd ra rb => execQmul_keeps h c ecc rd ra rb s hs
  | .qdiv h c ecc rd ra rb => execQdiv_keeps h c ecc rd ra rb s hs
  | .qabs h c ecc rd ra => execQabs_keeps h c ecc rd ra s hs
  | .qneg h c ecc rd ra => execQneg_keeps h c ecc rd ra s hs
  | .addi h c ecc rd ra imm => execAddi_keeps h c ecc rd ra imm s hs
  | .andi h c ecc rd ra imm => execAndi_keeps h c ecc rd ra imm s hs
  | .ori h c ecc rd ra imm => execOri_keeps h c ecc rd ra imm s hs
  | .xori h c ecc rd ra imm => execXori_keeps h c ecc rd ra imm s hs
  | .slti h c ecc rd ra imm => execSlti_keeps h c ecc rd ra imm s hs
  | .sltiu h c ecc rd ra imm => execSltiu_keeps h c ecc rd ra imm s hs
  | .lui h c ecc rd imm => execLui_keeps h c ecc rd imm s hs
  | .shli h c ecc rd ra imm => execShli_keeps h c ecc rd ra imm s hs
  | .shri h c ecc rd ra imm => execShri_keeps h c ecc rd ra imm s hs
  | .sari h c ecc rd ra imm => execSari_keeps h c ecc rd ra imm s hs
  | .mac h c ecc ra rb => execMac_keeps h c ecc ra rb s hs
  | .msu h c ecc ra rb => execMsu_keeps h c ecc ra rb s hs
  | .acclr h c ecc => execAcclr_keeps h c ecc s hs
  | .acrd h c ecc rd imm => execAcrd_keeps h c ecc rd imm s hs
  | .acset h c ecc ra rb => execAcset_keeps h c ecc ra rb s hs
  | .acget h c ecc rd => execAcget_keeps h c ecc rd s hs
  | .ldw h c ecc rd ra imm => execLdw_keeps h c ecc rd ra imm s hs
  | .ldhu h c ecc rd ra imm => execLdhu_keeps h c ecc rd ra imm s hs
  | .stw h c ecc rs ra imm => execStw_keeps h c ecc rs ra imm s hs
  | .sth h c ecc rs ra imm => execSth_keeps h c ecc rs ra imm s hs
  | .lds h c ecc rd ra imm => execLds_keeps h c ecc rd ra imm s hs
  | .sts h c ecc rs ra imm => execSts_keeps h c ecc rs ra imm s hs
  | .beq h c ecc ra rb off => execBeq_keeps h c ecc ra rb off s hs
  | .bne h c ecc ra rb off => execBne_keeps h c ecc ra rb off s hs
  | .blt h c ecc ra rb off => execBlt_keeps h c ecc ra rb off s hs
  | .bge h c ecc ra rb off => execBge_keeps h c ecc ra rb off s hs
  | .bltu h c ecc ra rb off => execBltu_keeps h c ecc ra rb off s hs
  | .bgeu h c ecc ra rb off => execBgeu_keeps h c ecc ra rb off s hs
  | .jmp h c ecc off => execJmp_keeps h c ecc off s hs
  | .loopOp h c ecc count body => execLoopOp_keeps h c ecc count body s hs
  | .endOp h c ecc => execEndOp_keeps h c ecc s hs
  | .rfxNop h c ecc => execRfxNop_keeps h c ecc s hs
  | .timeOp h c ecc rd => execTimeOp_keeps h c ecc rd s hs
  | .ecap h c ecc rd land => execEcap_keeps h c ecc rd land s hs
  | .elvl h c ecc rd land => execElvl_keeps h c ecc rd land s hs
  | .esch h c ecc ra rb act span base => execEsch_keeps h c ecc ra rb act span base s hs
  | .ecan h c ecc rb span base => execEcan_keeps h c ecc rb span base s hs
  | .evtAction k at_ => execEvtAction_keeps k at_ s hs
  | .evtHostWrite who k value at_ => execEvtHostWrite_keeps who k value at_ s hs
  | .evtEdge k rising at_ => execEvtEdge_keeps k rising at_ s hs
  | .evtEdgeConfirm k at_ => execEvtEdgeConfirm_keeps k at_ s hs
  | .evtCapInfoRead who k => execEvtCapInfoRead_keeps who k s hs
  | .cyclicFrameRx l cut => execCyclicFrameRx_keeps l cut s hs
  | .notifyOverflowSend h => execNotifyOverflowSend_keeps h s hs
  | .laneFrameRx l octets ce ue stamp at_ => execLaneFrameRx_keeps l octets ce ue stamp at_ s hs
  | .portFrameTx l opened corr stamp at_ => execPortFrameTx_keeps l opened corr stamp at_ s hs
  | .lnTxtsInfoRead who => execLnTxtsInfoRead_keeps who s hs
  | .portLinkUp l got aligned at_ => execPortLinkUp_keeps l got aligned at_ s hs
  | .portLinkDown l lost at_ => execPortLinkDown_keeps l lost at_ s hs
  | .eyeNow who l at_ => execEyeNow_keeps who l at_ s hs
  | .eyeMeasureDone l height width at_ => execEyeMeasureDone_keeps l height width at_ s hs
  | .ppsOutPulse at_ => execPpsOutPulse_keeps at_ s hs
  | .ppsEdge rising at_ => execPpsEdge_keeps rising at_ s hs
  | .ppsTimeout at_ => execPpsTimeout_keeps at_ s hs
  | .servoHoldoverTimeout at_ => execServoHoldoverTimeout_keeps at_ s hs
  | .ref10Loss at_ => execRef10Loss_keeps at_ s hs
  | .ref10Restore since at_ => execRef10Restore_keeps since at_ s hs
  | .tbNowRead who at_ => execTbNowRead_keeps who at_ s hs
  | .tbCtrlWrite who value at_ => execTbCtrlWrite_keeps who value at_ s hs
  | .tbRateWrite who value at_ => execTbRateWrite_keeps who value at_ s hs
  | .tbStepWrite who value at_ => execTbStepWrite_keeps who value at_ s hs
  | .slewComplete at_ => execSlewComplete_keeps at_ s hs
  | .tbSetCommit who value at_ => execTbSetCommit_keeps who value at_ s hs
  | .tbOriginWrite who value => execTbOriginWrite_keeps who value s hs
  | .lowWordRead who addr at_ => execLowWordRead_keeps who addr at_ s hs
  | .highWordCommit who addr value at_ => execHighWordCommit_keeps who addr value at_ s hs
  | .registerWrite who addr value at_ => execRegisterWrite_keeps who addr value at_ s hs
  | .laneEnergyDetect l => execLaneEnergyDetect_keeps l s hs
  | .perstEdge p asserted at_ => execPerstEdge_keeps p asserted at_ s hs
  | .hostLinkUp p gen width flit at_ => execHostLinkUp_keeps p gen width flit at_ s hs
  | .standbyRequest who value => execStandbyRequest_keeps who value s hs
  | .standbyEnter at_ => execStandbyEnter_keeps at_ s hs
  | .standbyWake reason fail at_ => execStandbyWake_keeps reason fail at_ s hs
  | .powerGood => execPowerGood_keeps s hs
  | .inputUv at_ => execInputUv_keeps at_ s hs
  | .supplyShutdown at_ => execSupplyShutdown_keeps at_ s hs
  | .overvoltage at_ => execOvervoltage_keeps at_ s hs
  | .moduleOvercurrent b at_ => execModuleOvercurrent_keeps b at_ s hs
  | .moduleSupplyRetry b at_ => execModuleSupplyRetry_keeps b at_ s hs
  | .thermalSample lid t at_ => execThermalSample_keeps lid t at_ s hs
  | .thermalTrip at_ => execThermalTrip_keeps at_ s hs
  | .thermalHoldEnd at_ => execThermalHoldEnd_keeps at_ s hs
  | .firmwareVerify at_ => execFirmwareVerify_keeps at_ s hs
  | .baroPass ms ret wear at_ => execBaroPass_keeps ms ret wear at_ s hs
  | .baroStale at_ => execBaroStale_keeps at_ s hs
  | .railFault h at_ => execRailFault_keeps h at_ s hs
  | .startSelect at_ => execStartSelect_keeps at_ s hs
  | .verifyComplete at_ => execVerifyComplete_keeps at_ s hs
  | .hallReady h at_ => execHallReady_keeps h at_ s hs
  | .swapTimeout at_ => execSwapTimeout_keeps at_ s hs
  | .planLoad d buf => execPlanLoad_keeps d buf s hs
  | .planLoadStored d => execPlanLoadStored_keeps d s hs
  | .planStore d => execPlanStore_keeps d s hs
  | .planSwap d => execPlanSwap_keeps d s hs
  | .planStop d => execPlanStop_keeps d s hs
  | .planDiscard d => execPlanDiscard_keeps d s hs
  | .channelBind d => execChannelBind_keeps d s hs
  | .channelUnbind d => execChannelUnbind_keeps d s hs
  | .channelSetKey d => execChannelSetKey_keeps d s hs
  | .channelQuery d => execChannelQuery_keeps d s hs
  | .stationRead d => execStationRead_keeps d s hs
  | .stationWrite d buf => execStationWrite_keeps d buf s hs
  | .stationClear d => execStationClear_keeps d s hs
  | .clsWrite d buf => execClsWrite_keeps d buf s hs
  | .clsInvalidate d => execClsInvalidate_keeps d s hs
  | .clsRead d => execClsRead_keeps d s hs
  | .clsCounterRead d => execClsCounterRead_keeps d s hs
  | .frgFlush d => execFrgFlush_keeps d s hs
  | .fragEntryExpiry h set at_ => execFragEntryExpiry_keeps h set at_ s hs
  | .fwdWrite d buf => execFwdWrite_keeps d buf s hs
  | .fwdDelete d => execFwdDelete_keeps d s hs
  | .fwdFlush d => execFwdFlush_keeps d s hs
  | .fwdRead d => execFwdRead_keeps d s hs
  | .vportWrite d buf => execVportWrite_keeps d buf s hs
  | .vportRead d => execVportRead_keeps d s hs
  | .tunWrite d buf => execTunWrite_keeps d buf s hs
  | .tunRead d => execTunRead_keeps d s hs
  | .bdWrite d buf => execBdWrite_keeps d buf s hs
  | .floodWrite d buf => execFloodWrite_keeps d buf s hs
  | .bridgeSweepVisit h set at_ => execBridgeSweepVisit_keeps h set at_ s hs
  | .auditShadowWrite who h b value clash => execAuditShadowWrite_keeps who h b value clash s hs
  | .fwdAuditFailRead who h => execFwdAuditFailRead_keeps who h s hs
  | .keyLoad d buf => execKeyLoad_keeps d buf s hs
  | .keyCommit target at_ => execKeyCommit_keeps target at_ s hs
  | .keyErase d => execKeyErase_keeps d s hs
  | .keyZeroize k at_ => execKeyZeroize_keeps k at_ s hs
  | .keyQuery d => execKeyQuery_keeps d s hs
  | .kekLoad d buf => execKekLoad_keeps d buf s hs
  | .kekErase d => execKekErase_keeps d s hs
  | .bpmRegionAdd d => execBpmRegionAdd_keeps d s hs
  | .bpmRegionRemove d => execBpmRegionRemove_keeps d s hs
  | .bpmRegionQuery d => execBpmRegionQuery_keeps d s hs
  | .bpmOwnerCreate d => execBpmOwnerCreate_keeps d s hs
  | .bpmOwnerSet d buf => execBpmOwnerSet_keeps d buf s hs
  | .bpmOwnerDestroy d => execBpmOwnerDestroy_keeps d s hs
  | .bufAlloc d => execBufAlloc_keeps d s hs
  | .bufRef d => execBufRef_keeps d s hs
  | .bufRelease d buf => execBufRelease_keeps d buf s hs
  | .bpmAudit d => execBpmAudit_keeps d s hs
  | .stockRefill c loc inst => execStockRefill_keeps c loc inst s hs
  | .bpmAlarmNextRead who => execBpmAlarmNextRead_keeps who s hs
  | .queueEntryFetch k idx entry at_ => execQueueEntryFetch_keeps k idx entry at_ s hs
  | .stalePhaseTimeout k at_ => execStalePhaseTimeout_keeps k at_ s hs
  | .ethSend k host at_ => execEthSend_keeps k host at_ s hs
  | .stagedRecordWrite k => execStagedRecordWrite_keeps k s hs
  | .cqStallTimeout k at_ => execCqStallTimeout_keeps k at_ s hs
  | .doorbellProducer fn page value => execDoorbellProducer_keeps fn page value s hs
  | .doorbellConsumer fn page value => execDoorbellConsumer_keeps fn page value s hs
  | .doorbellRearm fn page value => execDoorbellRearm_keeps fn page value s hs
  | .cqModerationWrite fn page value => execCqModerationWrite_keeps fn page value s hs
  | .aqCfgWrite who fn value => execAqCfgWrite_keeps who fn value s hs
  | .acqCfgWrite who fn value => execAcqCfgWrite_keeps who fn value s hs
  | .adminCommandStart fn => execAdminCommandStart_keeps fn s hs
  | .asyncEventPost => execAsyncEventPost_keeps s hs
  | .eventQueueDrain fn => execEventQueueDrain_keeps fn s hs
  | .adminNop d => execAdminNop_keeps d s hs
  | .queueCreate d => execQueueCreate_keeps d s hs
  | .queueDestroy d => execQueueDestroy_keeps d s hs
  | .cqCreate d => execCqCreate_keeps d s hs
  | .cqDestroy d => execCqDestroy_keeps d s hs
  | .queueQuery d => execQueueQuery_keeps d s hs
  | .queueReset d => execQueueReset_keeps d s hs
  | .evqSet d => execEvqSet_keeps d s hs
  | .handoffBind d => execHandoffBind_keeps d s hs
  | .handoffUnbind d => execHandoffUnbind_keeps d s hs
  | .bar4Request f write off len data poisoned => execBar4Request_keeps f write off len data poisoned s hs
  | .hostRequest f op at_ => execHostRequest_keeps f op at_ s hs
  | .winCommit who f => execWinCommit_keeps who f s hs
  | .winLoad who f => execWinLoad_keeps who f s hs
  | .interruptDue => execInterruptDue_keeps s hs
  | .cqHoldExpiry k at_ => execCqHoldExpiry_keeps k at_ s hs
  | .vectorGapEnd f v at_ => execVectorGapEnd_keeps f v at_ s hs
  | .powerstateD3hot f at_ => execPowerstateD3hot_keeps f at_ s hs
  | .powerstateD0 f => execPowerstateD0_keeps f s hs
  | .d3DrainDeadline f at_ => execD3DrainDeadline_keeps f at_ s hs
  | .pmeTurnOff p => execPmeTurnOff_keeps p s hs
  | .aspmL1Entry p at_ => execAspmL1Entry_keeps p at_ s hs
  | .flr f at_ => execFlr_keeps f at_ s hs
  | .flrComplete f at_ => execFlrComplete_keeps f at_ s hs
  | .completionTimeout p what tag fn arg addr at_ => execCompletionTimeout_keeps p what tag fn arg addr at_ s hs
  | .readCompletionRx p what tag status data fn arg addr at_ => execReadCompletionRx_keeps p what tag status data fn arg addr at_ s hs
  | .vfnShareSet d buf => execVfnShareSet_keeps d buf s hs
  | .vfnShareQuery d => execVfnShareQuery_keeps d s hs
  | .vfnQuiesce d => execVfnQuiesce_keeps d s hs
  | .quiesceDeadline f at_ => execQuiesceDeadline_keeps f at_ s hs
  | .vfnResume d => execVfnResume_keeps d s hs
  | .vfnLogStart d => execVfnLogStart_keeps d s hs
  | .vfnLogSwap d => execVfnLogSwap_keeps d s hs
  | .vfnLogStop d => execVfnLogStop_keeps d s hs
  | .vfnStateSave d => execVfnStateSave_keeps d s hs
  | .vfnStateRestore d buf => execVfnStateRestore_keeps d buf s hs
  | .stoConnCreate d buf => execStoConnCreate_keeps d buf s hs
  | .stoConnClose d => execStoConnClose_keeps d s hs
  | .stoConnQuery d => execStoConnQuery_keeps d s hs
  | .stoSegmentRx c at_ => execStoSegmentRx_keeps c at_ s hs
  | .rtoExpiry c at_ => execRtoExpiry_keeps c at_ s hs
  | .delayedAck c at_ => execDelayedAck_keeps c at_ s hs
  | .stoCommandFetch k at_ => execStoCommandFetch_keeps k at_ s hs
  | .stoCommandStart c host at_ => execStoCommandStart_keeps c host at_ s hs
  | .segmentEnqueue c host at_ => execSegmentEnqueue_keeps c host at_ s hs
  | .sicDeliver accepts pcs => execSicDeliver_keeps accepts pcs s hs
  | .sicCoreComplete who core value => execSicCoreComplete_keeps who core value s hs
  | .sicSgi who value => execSicSgi_keeps who value s hs
  | .sicCoreFlush who core => execSicCoreFlush_keeps who core s hs
  | .sicSrcPendClear who w value => execSicSrcPendClear_keeps who w value s hs
  | .lullExpiry g at_ accepts pcs => execLullExpiry_keeps g at_ accepts pcs s hs
  | .ownClaim d => execOwnClaim_keeps d s hs
  | .ownRelease d => execOwnRelease_keeps d s hs
  | .ownSeize d buf => execOwnSeize_keeps d buf s hs
  | .ownDeviceReset d at_ => execOwnDeviceReset_keeps d at_ s hs
  | .plankeyEnroll d buf => execPlankeyEnroll_keeps d buf s hs
  | .plankeyRevoke d buf => execPlankeyRevoke_keeps d buf s hs
  | .kek0Install d buf => execKek0Install_keeps d buf s hs
  | .commissionClear d buf => execCommissionClear_keeps d buf s hs
  | .fwUpdate d buf => execFwUpdate_keeps d buf s hs
  | .fwSvnRaise d => execFwSvnRaise_keeps d s hs
  | .ownIdentityGet d => execOwnIdentityGet_keeps d s hs
  | .ownRenew who value at_ => execOwnRenew_keeps who value at_ s hs
  | .leaseLapse at_ => execLeaseLapse_keeps at_ s hs
  | .deviceReset at_ => execDeviceReset_keeps at_ s hs
  | .warmReset at_ => execWarmReset_keeps at_ s hs
  | .wdogKick who value at_ => execWdogKick_keeps who value at_ s hs
  | .firmwareWatchdog at_ => execFirmwareWatchdog_keeps at_ s hs
  | .hallFault h cause at_ => execHallFault_keeps h cause at_ s hs
  | .hallResetComplete h at_ => execHallResetComplete_keeps h at_ s hs
  | .halfFault e cause at_ => execHalfFault_keeps e cause at_ s hs
  | .deviceFault cause at_ => execDeviceFault_keeps cause at_ s hs
  | .deviceFaultReset at_ => execDeviceFaultReset_keeps at_ s hs
  | .laneFault l cause at_ => execLaneFault_keeps l cause at_ s hs
  | .laneResetComplete l at_ => execLaneResetComplete_keeps l at_ s hs
  | .fltStatusPageSet d => execFltStatusPageSet_keeps d s hs
  | .fltQuery d => execFltQuery_keeps d s hs
  | .fltInject d at_ => execFltInject_keeps d at_ s hs
  | .fltHallRestore d at_ => execFltHallRestore_keeps d at_ s hs
  | .almRead d => execAlmRead_keeps d s hs
  | .almClear d => execAlmClear_keeps d s hs
  | .almanacWrite => execAlmanacWrite_keeps s hs
  | .almUnfreeze who value => execAlmUnfreeze_keeps who value s hs
  | .smbStatus pec => execSmbStatus_keeps pec s hs
  | .smbLidTemp pec => execSmbLidTemp_keeps pec s hs
  | .smbTjMax pec => execSmbTjMax_keeps pec s hs
  | .smbVin pec mv => execSmbVin_keeps pec mv s hs
  | .smbIin pec ma => execSmbIin_keeps pec ma s hs
  | .smbPin pec units => execSmbPin_keeps pec units s hs
  | .smbPdev pec units => execSmbPdev_keeps pec units s hs
  | .smbPmod pec units => execSmbPmod_keeps pec units s hs
  | .smbBoot pec => execSmbBoot_keeps pec s hs
  | .smbSerial pec => execSmbSerial_keeps pec s hs
  | .smbIdcode pec => execSmbIdcode_keeps pec s hs
  | .smbDeviceReset pec value at_ => execSmbDeviceReset_keeps pec value at_ s hs
  | .jtagExtest drive sample => execJtagExtest_keeps drive sample s hs
  | .jtagSamplePreload preload sample => execJtagSamplePreload_keeps preload sample s hs
  | .jtagIdcode => execJtagIdcode_keeps s hs
  | .jtagClamp => execJtagClamp_keeps s hs
  | .jtagHighz => execJtagHighz_keeps s hs
  | .jtagBypass => execJtagBypass_keeps s hs
  | .jtagTestLogicReset at_ => execJtagTestLogicReset_keeps at_ s hs
  | .hostLinkDown p at_ => execHostLinkDown_keeps p at_ s hs
  | .hotReset p at_ => execHotReset_keeps p at_ s hs
  | .l1Exit p at_ => execL1Exit_keeps p at_ s hs
  | .laneEnergyGone l => execLaneEnergyGone_keeps l s hs
  | .inputUvRearm at_ => execInputUvRearm_keeps at_ s hs
  | .ppsOutPulseEnd at_ => execPpsOutPulseEnd_keeps at_ s hs
  | .vfEnableWrite p en n at_ => execVfEnableWrite_keeps p en n at_ s hs
  | .busMasterEnableWrite f v => execBusMasterEnableWrite_keeps f v s hs
  | .libraryCopyComplete ok => execLibraryCopyComplete_keeps ok s hs

/-- An answer that is a state is one that keeps. -/
theorem KeepsNext.of_eq {z t : State} {o : Answer} (e : o = .next t) (h : KeepsNext z o) : Keeps z t := by subst e; exact h

/-! ### The statements -/

/-- Settles O58: an idle step changes nothing, and every other one is a command run on the queue's rest, which keeps that rest and both memories canonical. -/
theorem stepsKeepQueueAndMemories : Obligations.StepsKeepQueueAndMemories := by
  unfold Obligations.StepsKeepQueueAndMemories
  intro s t ht
  cases hq : s.pending with
  | nil =>
    rw [step_idle hq] at ht
    obtain rfl : s = t := by injection ht
    exact ⟨hq, id⟩
  | cons c rest =>
    rw [step_serve hq] at ht
    have kept : Keeps { s with pending := rest } t := (exec_keeps (Keeps.refl _) c).of_eq ht
    exact ⟨kept.queue, kept.memories⟩

/-- Settles O1, from the two cases of a step. -/
theorem stepsServeTheQueue : Obligations.StepsServeTheQueue := by
  unfold Obligations.StepsServeTheQueue
  exact ⟨fun c rest s => step_serve (s := { s with pending := c :: rest }) rfl, fun s => step_idle⟩

/-- Settles O59: nothing is stored in either memory at reset. -/
theorem resetIsCanonical : Obligations.ResetIsCanonical := by
  unfold Obligations.ResetIsCanonical
  have alcove : State.reset.alcove = [] := rfl
  have atrium : State.reset.atrium = [] := rfl
  refine ⟨?_, rfl⟩
  rw [MemoriesCanonical, alcove, atrium]
  exact ⟨Memory.wf_nil, Memory.wf_nil⟩

end Sys2Proof.Machine
end

section
/-! PROOFS. The flight's clock (R25, R40 to R44, R98): what a tread boundary and a landing do, and what a hall that runs takes from its program. -/

open Sys2Proof.Spec

namespace Sys2Proof.Machine

section
variable {s : State} {t : Nat}

/-- Device Time comes to an instant that is not past. -/
theorem atTime_now_of_le (h : s.now ≤ t) : (s.atTime t).now = t := Nat.max_eq_right h

/-! ### Tread boundaries (R25, R40) -/

/-- With a plan active and the part not at F4, a tread begins at the instants that are whole treads from the origin. -/
theorem treadEdge_iff (hp : s.planActive = true) (hn : s.now = t) (h4 : s.atF4 = false) :
    s.treadEdge t = true ↔ s.origin ≤ t ∧ (t - s.origin) % treadTicks = 0 := by
  simp [State.treadEdge, hp, hn, h4]

/-- The error that the fetch of a hall meets, of those that are named; 0 is none. -/
def fetchError (errs : List (Nat × Nat)) (h : Nat) : Nat := match errs.find? (fun e => e.1 == h) with | some e => e.2 | none => 0

/-- At an instant at which no tread begins only the time moves. -/
theorem exec_treadStart_off (errs : List (Nat × Nat)) (h : (s.atTime t).treadEdge t = false) : exec (.treadStart errs t) s = .next (s.atTime t) := by
  show execTreadStart errs t s = _
  simp only [execTreadStart, h, Bool.not_false, if_true]

/-- At a tread boundary of a flight that has landed, with no device fault, every hall begins the tread, in the order of the halls. -/
theorem exec_treadStart_edge (errs : List (Nat × Nat)) {u : State} (hu : (s.atTime t).serveAccesses = u) (h : (s.atTime t).treadEdge t = true)
    (hl : u.pln.lastFlight = some u.flightNow) (hf : u.flt.deviceFault = none) :
    exec (.treadStart errs t) s = .next ((List.range 18).foldl (fun s h => s.treadHall u.treadAt (fetchError errs h) h) u.snapLands) := by
  have sound : ¬ (u.pln.lastFlight ≠ some u.flightNow ∨ u.flt.deviceFault.isSome = true) := by simp [hl, hf]
  show execTreadStart errs t s = _
  unfold execTreadStart
  dsimp only
  rw [h, hu, if_neg sound]
  rfl

end

/-! ### Landings (R42 to R44) -/

/-- The steps of the landing at which a plan starts, once the swap has made it the active one. -/
def State.startLands (v : State) (reload : List Nat) (k : Nat) : State :=
  let s := (List.range 18).foldl (fun (s : State) h => s.frostStep k true reload h) v.gradesLand.sharesLand
  let s := (List.range 18).foldl (fun (s : State) h => s.showNext k h) s
  ({ s with pln := { s.pln with lastFlight := some k } }).newFlight.stagedLand k

/-- The halls still have wake time left (R58). -/
def State.waking (u : State) : Bool := match u.tb.wakeAt with | some w => decide (u.now < w) | none => false

/-- The landing of flight k at an instant that Device Time has come to. -/
def State.landFlight (u : State) (uj : Nat) (reload : List Nat) (bad : Option (Nat × Nat × Bytes)) (t k : Nat) : Answer :=
  if u.now ≠ t ∨ u.atF4 ∨ u.waking ∨ u.flt.deviceFault.isSome then .next u
  else if u.planActive then .next (if u.pln.lastFlight = some k then u else u.serveAccesses.land43 uj reload bad k)
  else
    let v := if u.startHeld then u else u.swapStep k
    if !v.planActive then .next v else .next (v.startLands reload k)

section
variable {s u : State} {uj t k : Nat} {reload : List Nat} {bad : Option (Nat × Nat × Bytes)}

/-- LANDING moves the time, and lands the flight whose landing the instant is, if it is one. -/
theorem exec_landing : exec (.landing uj reload bad t) s =
    match (s.atTime t).landingAt t with
    | none => .next (s.atTime t)
    | some k => (s.atTime t).landFlight uj reload bad t k := by
  show execLanding uj reload bad t s = _
  unfold execLanding
  extract_lets u
  cases u.landingAt t <;> rfl

theorem exec_landing_none (h : (s.atTime t).landingAt t = none) : exec (.landing uj reload bad t) s = .next (s.atTime t) := by
  rw [exec_landing, h]

theorem exec_landing_some (h : (s.atTime t).landingAt t = some k) :
    exec (.landing uj reload bad t) s = (s.atTime t).landFlight uj reload bad t k := by
  rw [exec_landing, h]

/-- With no plan active a start that is held does not land. -/
theorem landFlight_held (hp : u.planActive = false) (h : u.startHeld = true) : u.landFlight uj reload bad t k = .next u := by
  simp only [State.landFlight, hp, h, Bool.false_eq_true, Bool.not_false, if_true, if_false, ite_self]

/-- A flight that has landed does not land again. -/
theorem landFlight_again (hp : u.planActive = true) (h : u.pln.lastFlight = some k) : u.landFlight uj reload bad t k = .next u := by
  simp only [State.landFlight, hp, h, if_true, ite_self]

/-- Nothing bars a landing now: the part is not at F4, its halls have had their wake time, and it has no device fault. -/
structure LandsNow (u : State) (t : Nat) : Prop where
  now : u.now = t
  up : u.atF4 = false
  awake : ∀ w, u.tb.wakeAt = some w → w ≤ t
  sound : u.flt.deviceFault = none

theorem LandsNow.not_barred (h : LandsNow u t) :
    ¬ (u.now ≠ t ∨ u.atF4 ∨ u.waking ∨ u.flt.deviceFault.isSome) := by
  obtain ⟨rfl, up, awake, sound⟩ := h
  have notWaking : u.waking = false := by
    unfold State.waking
    split
    · next w hw => exact decide_eq_false (Nat.not_lt.mpr (awake w hw))
    · rfl
  simp [up, sound, notWaking]

/-- A flight of the active plan lands by the steps of R43, after the accesses that wait. -/
theorem landFlight_running (h : LandsNow u t) (hp : u.planActive = true) (hl : u.pln.lastFlight ≠ some k) :
    u.landFlight uj reload bad t k = .next (u.serveAccesses.land43 uj reload bad k) := by
  rw [State.landFlight, if_neg h.not_barred, if_pos hp, if_neg hl]

/-- With no plan active, the landing at which the swap makes one active starts it. -/
theorem landFlight_start (h : LandsNow u t) (hp : u.planActive = false) (hh : u.startHeld = false) (ha : (u.swapStep k).planActive = true) :
    u.landFlight uj reload bad t k = .next ((u.swapStep k).startLands reload k) := by
  rw [State.landFlight, if_neg h.not_barred]
  simp [hp, hh, ha]

end

/-! ### A hall at the start of a tread (R98) -/

/-- The ops that a hall takes of a bundle: all of them, or the one in its slot 1 alone while a SKIP covers the tread. -/
def opsTaken (covered : Bool) (bd : List Nat) : List Nat := if covered then [0, Plan.slot bd 1, 0, 0] else bd

/-- A hall takes bundle bd, at place i of its program, for tread n; a SKIP that covers the tread lasts for so many treads more. The gating follows. -/
def State.takeBundle (s : State) (n h i : Nat) (covered : Bool) (left : Nat) (bd : List Nat) : State :=
  ((((s.setSeq h { s.seq h with ops := opsTaken covered bd, tread := n, start := s.now, win := {}, former := [] }).setFld Fld.TSQ_BUNDLE_INDEX i h).setFld
    Fld.TSQ_BUNDLE_SKIPPING (b2n covered) h).setFld Fld.TSQ_SKIP_LEFT_LEFT left h).gate h ((opsTaken covered bd).any issues)

section
variable (s : State) (n h l i left : Nat) (covered : Bool) (bd : List Nat)

/-- A running hall has one of the 18 numbers. -/
theorem lt_of_running {s : State} {h : Nat} (hr : s.running h = true) : h < 18 := by
  simp only [State.running, Bool.and_eq_true, decide_eq_true_eq] at hr
  exact hr.1

/-- A running hall without a fetch error takes the bundle of its program that stands at the tread. -/
theorem treadHall_takes {v : State} (hv : s.learnsBefore h s.now = v) (hr : v.running h = true) (hl : v.logicalOf h = some l)
    (hp : Plan.treadPlace (Plan.program v.pln.active l) n = some (i, covered, left)) :
    s.treadHall n 0 h = v.takeBundle n h i covered left ((Plan.program v.pln.active l).getD i []) := by
  simp only [State.treadHall, hv, hr, hl, hp, Bool.not_true, Bool.false_eq_true, if_false, OfNat.zero_ne_ofNat, zero_ne_one]
  rfl

/-- The sequencer that was set is read. -/
@[simp] theorem seq_setSeq (q : SeqSt) : (s.setSeq h q).seq h = q := Tbl.get_put_same ..

/-- The sequencer of a hall that has taken a bundle; showing it and the gating write registers alone. -/
theorem seq_takeBundle : (s.takeBundle n h i covered left bd).seq h =
    { s.seq h with ops := opsTaken covered bd, tread := n, start := s.now, win := {}, former := [] } := seq_setSeq s h _

/-! Where the registers of a hall stand. -/

theorem addr_bundle : Reg.addr .TSQ_BUNDLE h 0 = 0x10000004 + 0x1000000 * h := rfl
theorem addr_skipLeft : Reg.addr .TSQ_SKIP_LEFT h 0 = 0x10000008 + 0x1000000 * h := rfl
theorem addr_hallState : Reg.addr .CALM_HALL_STATE 0 h = 0x200 + 4 * h := rfl

variable {h}

/-- Neither the gating nor TSQ_SKIP_LEFT writes TSQ_BUNDLE of a hall. -/
theorem fld_bundle_skipLeft_gate (hh : h < 18) (f : Fld) (hf : f.reg = .TSQ_BUNDLE) (issuing : Bool) :
    ((s.setFld Fld.TSQ_SKIP_LEFT_LEFT left h).gate h issuing).fld f h = s.fld f h := by
  have frost : f.reg.addr h 0 ≠ Reg.addr .CALM_HALL_STATE 0 h := by rw [hf, addr_bundle, addr_hallState]; omega
  have skip : f.reg.addr h 0 ≠ Reg.addr .TSQ_SKIP_LEFT h 0 := by rw [hf, addr_bundle, addr_skipLeft]; omega
  exact (fld_setFld_ne _ _ _ _ _ _ _ _ frost).trans (fld_setFld_ne _ _ _ _ _ _ _ _ skip)

/-- TSQ_BUNDLE shows the place of the bundle taken. -/
theorem takeBundle_index (hh : h < 18) : (s.takeBundle n h i covered left bd).fld Fld.TSQ_BUNDLE_INDEX h = i % 65536 := by
  rw [State.takeBundle, fld_bundle_skipLeft_gate _ _ hh _ rfl, fld_setFld_word _ Fld.TSQ_BUNDLE_SKIPPING Fld.TSQ_BUNDLE_INDEX _ _ _ rfl (by decide) (by decide) (by decide),
    fld_setFld _ _ _ _ _ (by decide) (by decide)]
  rfl

/-- TSQ_BUNDLE shows whether a SKIP covers the tread. -/
theorem takeBundle_skipping (hh : h < 18) : (s.takeBundle n h i covered left bd).flag Fld.TSQ_BUNDLE_SKIPPING h = covered := by
  rw [State.takeBundle, State.flag, fld_bundle_skipLeft_gate _ _ hh _ rfl, fld_setFld _ _ _ _ _ (by decide) (by decide)]
  cases covered <;> rfl

end

/-! ### The statement -/

/-- Settles O27, from what a boundary and a landing do in each case, and from the bundle that a running hall takes. -/
theorem landingsAndTreads : Obligations.LandingsAndTreads := by
  unfold Obligations.LandingsAndTreads Gives
  refine ⟨fun k uj t errs reload bad s hn h4 hf => ?_, fun n h l i left covered s hr hl hp => ?_⟩
  · have edge_iff : s.planActive = true → ((s.atTime t).treadEdge t = true ↔ s.origin ≤ t ∧ (t - s.origin) % treadTicks = 0) :=
      fun hp => treadEdge_iff (s := s.atTime t) hp (atTime_now_of_le hn) h4
    have lands (hw : ∀ w, s.tb.wakeAt = some w → w ≤ t) : LandsNow (s.atTime t) t := ⟨atTime_now_of_le hn, h4, hw, hf⟩
    have landsAwake (hw : s.tb.wakeAt = none) : LandsNow (s.atTime t) t := lands fun w h => nomatch hw.symm.trans h
    refine ⟨fun hp ho hm hl hd => ?_, fun hp hx => ?_, fun hp hk hw hl => ?_, fun w hp hk hw hle hl => ?_, fun hp hl hk => ?_, fun hp hk hh hw ha => ?_,
      fun hp hh _ => ?_, exec_landing_none⟩
    · exact exec_treadStart_edge errs rfl ((edge_iff hp).mpr ⟨ho, hm⟩) hl hd
    · refine exec_treadStart_off errs (Bool.eq_false_iff.mpr fun edge => ?_)
      obtain ⟨ho, hm⟩ := (edge_iff hp).mp edge
      exact hx.elim (Nat.not_lt.mpr ho) (· hm)
    · exact (exec_landing_some hk).trans (landFlight_running (landsAwake hw) hp hl)
    · have awake : ∀ v, s.tb.wakeAt = some v → v ≤ t := fun v h => by rwa [← Option.some.inj (hw.symm.trans h)]
      exact (exec_landing_some hk).trans (landFlight_running (lands awake) hp hl)
    · exact (exec_landing_some hk).trans (landFlight_again hp hl)
    · exact (exec_landing_some hk).trans (landFlight_start (landsAwake hw) hp hh ha)
    · cases hk : (s.atTime t).landingAt t with
      | none => exact exec_landing_none hk
      | some j => exact (exec_landing_some hk).trans (landFlight_held hp hh)
  · rw [treadHall_takes s n h l i left covered rfl hr hl hp]
    have hh := lt_of_running hr
    refine ⟨_, rfl, ?_, ?_, ?_, takeBundle_index _ _ _ _ _ _ hh, takeBundle_skipping _ _ _ _ _ _ hh⟩ <;> rw [seq_takeBundle]
    rfl

end Sys2Proof.Machine
end

section
/-! PROOFS. Register fields that stand beside the one written, and the entries of the Almanac: what the families' proofs read after several writes. -/

namespace Sys2Proof

/-- The bits of a field lie in its word. -/
abbrev Fld.InWord (f : Fld) : Prop := f.lo ≤ f.hi ∧ f.hi < 32

/-- A write of f, of a register that stands once, leaves g: g stands in another word, or in other bits of the word. -/
abbrev Fld.Spares (f g : Fld) : Prop :=
  g.reg.addr 0 0 ≠ f.reg.addr 0 0 ∨ g.reg = f.reg ∧ f.InWord ∧ (f.hi < g.lo ∨ g.hi < f.lo)

namespace Machine

variable {s : State} {f g : Fld} {v : Nat}

/-- A field that was stored with a value of its width reads back as stored. -/
theorem fld_setFld_of_lt (hf : f.InWord) (hv : v < 2 ^ (f.hi + 1 - f.lo)) : (s.setFld f v).fld f = v := by
  rw [fld_setFld s f v 0 0 hf.1 hf.2, Nat.mod_eq_of_lt hv]

/-- A field that a write spares keeps its value. -/
theorem fld_setFld_spares (h : f.Spares g) : (s.setFld f v).fld g = s.fld g := by
  obtain h | ⟨hr, ⟨hlo, hhi⟩, hd⟩ := h
  · exact fld_setFld_ne s f g v 0 0 0 0 h
  · exact fld_setFld_word s f g v 0 0 hr hlo hhi hd

theorem flag_setFld_spares (h : f.Spares g) : (s.setFld f v).flag g = s.flag g := by rw [State.flag, fld_setFld_spares h, State.flag]

theorem fld_raise_spares (h : f.Spares g) : (s.raise f).fld g = s.fld g := fld_setFld_spares h

theorem flag_raise_spares (h : f.Spares g) : (s.raise f).flag g = s.flag g := flag_setFld_spares h

/-- A flag that was stored as 0 is clear. -/
theorem flag_setFld_zero (hf : f.InWord) : (s.setFld f 0).flag f = false := by
  rw [State.flag, fld_setFld_of_lt hf (Nat.two_pow_pos _)]; rfl

/-- A flag that was raised is set. -/
theorem flag_raise (hf : f.InWord) : (s.raise f).flag f = true := by
  have one : 1 < 2 ^ (f.hi + 1 - f.lo) := Nat.one_lt_two_pow (by have := hf.1; omega)
  rw [State.flag, State.raise, fld_setFld_of_lt hf one]; rfl

/-- An entry of the Almanac, lost or queued, leaves every field but the count and the flag of those lost. -/
theorem fld_almDev (code : Nat) (b : Bytes) (hc : Fld.ALM_CNT_LOST_COUNT.Spares g) (hf : Fld.ALM_STATUS_LOST.Spares g) :
    (s.almDev code b).fld g = s.fld g := by
  unfold State.almDev State.alm
  split
  · exact (fld_raise_spares hf).trans (fld_setFld_spares hc)
  · rfl

theorem flag_almDev (code : Nat) (b : Bytes) (hc : Fld.ALM_CNT_LOST_COUNT.Spares g) (hf : Fld.ALM_STATUS_LOST.Spares g) :
    (s.almDev code b).flag g = s.flag g := by rw [State.flag, fld_almDev code b hc hf, State.flag]

section
variable (s : State) (code : Nat) (b : Bytes)

@[simp] theorem almDev_now : (s.almDev code b).now = s.now := by unfold State.almDev State.alm; split <;> rfl
@[simp] theorem almDev_tb : (s.almDev code b).tb = s.tb := by unfold State.almDev State.alm; split <;> rfl
@[simp] theorem almDev_atrium : (s.almDev code b).atrium = s.atrium := by unfold State.almDev State.alm; split <;> rfl

/-- Who may write is read from the registers alone. -/
@[simp] theorem mayWrite_atTime (who : Who) (t : Nat) : (s.atTime t).mayWrite who = s.mayWrite who := by cases who <;> rfl

end

end Machine

end Sys2Proof
end

section
/-! PROOFS. Device standby (R57, R58): the request, what is powered down on the way to F4, and what a wake brings back. -/

open Sys2Proof.Spec

namespace Sys2Proof.Machine

section
variable {s : State} {t : Nat}

/-! ### The request and the entry (R57) -/

/-- A sender who may write stores the request, and it is pending while the device is not at F4. -/
theorem exec_standbyRequest {who : Who} (v : Nat) (hw : s.mayWrite who = true) : exec (.standbyRequest who v) s =
    .next ((s.setWord .CALM_STANDBY (BitVec.ofNat 32 (v % 32))).setFld Fld.CALM_STATE_STANDBY_PENDING (if s.atF4 then 0 else v % 2)) := by
  have f4 : (s.setWord .CALM_STANDBY (BitVec.ofNat 32 (v % 32))).atF4 = s.atF4 := by
    rw [State.atF4, State.flag, State.fld, word_setWord_ne s .CALM_STANDBY _ 0 0 0 0 _ (by decide)]; rfl
  show execStandbyRequest who v s = _
  simp only [execStandbyRequest, hw, f4, Bool.not_true, Bool.false_eq_true, if_false]

/-- A hall that is not at F3 yet goes dark and to sleep, and loses what it holds. -/
def State.hallToF3 (s : State) (h : Nat) : State :=
  if s.frost h = 3 then s
  else
    let s := (((s.darkenHall h).hallSleep h).loseAll h).setFrost h 3
    ((s.bump Fld.CALM_HALL_STATE_TRANSITIONS 0 h).setFld Fld.CALM_HALL_STATE_TARGET 3 0 h).setFld Fld.TSQ_STATE_STATE 0 h

/-- The halls of state v are at F3: the Atrium loses its contents, its stacks and the event unit their power, and the device shows F4. -/
def State.powerDown (v : State) (hadPlan : Bool) : State :=
  let s := { v with atrium := [], flt := { v.flt with poisonAtrium := [] }, tb := { v.tb with hadPlan := hadPlan } }
  let s := ((s.setFld Fld.ATR_STATUS_POWERED 0).setFld Fld.EVT_STATUS_POWERED 0).setFld Fld.CALM_STATE_STANDBY_PENDING 0
  (s.raise Fld.CALM_STATE_STANDBY).almDev 0x0102 []

/-- A standby that is requested is entered with every function asleep, at a landing or with no plan active, where no fault bars it. -/
theorem exec_standbyEnter (h4 : s.atF4 = false) (hr : s.flag Fld.CALM_STANDBY_REQ = true) (ha : s.allAsleep = true)
    (hl : s.planActive = true → ((s.atTime t).landingAt (max s.now t)).isSome = true) (hf : s.flt.deviceFault = none) : exec (.standbyEnter t) s =
      .next (((List.range 18).foldl State.hallToF3 (s.atTime t).serveAccesses.resetRegions).powerDown s.planActive) := by
  have up : (s.atTime t).atF4 = false := h4
  have asleep : (s.atTime t).allAsleep = true := ha
  have sound : (s.atTime t).flt.deviceFault.isSome = false := by simp [hf]
  have lands : ¬ ((s.atTime t).planActive = true ∧ ((s.atTime t).landingAt (s.atTime t).now).isNone = true) :=
    fun ⟨active, off⟩ => by
      have on := hl active
      rw [Option.isSome_iff_ne_none] at on
      exact on (Option.isNone_iff_eq_none.mp off)
  show execStandbyEnter t s = _
  unfold execStandbyEnter
  dsimp only
  rw [if_neg (by simp only [up, asleep, sound, lands, flag_atTime, hr, Bool.false_eq_true, Bool.not_true, or_self, not_false_eq_true])]
  rfl

variable (v : State) (had : Bool)

/-- The Atrium's contents are gone, and it is kept whether a plan was active. -/
theorem powerDown_lost : (v.powerDown had).atrium = [] ∧ (v.powerDown had).tb.hadPlan = had := by simp [State.powerDown]

/-- The stacks and the event unit have no power, and the device shows F4 with no request pending. -/
theorem powerDown_shown : (v.powerDown had).atF4 = true ∧ (v.powerDown had).fld Fld.ATR_STATUS_POWERED = 0 ∧
    (v.powerDown had).flag Fld.EVT_STATUS_POWERED = false ∧ (v.powerDown had).flag Fld.CALM_STATE_STANDBY_PENDING = false := by
  refine ⟨?_, ?_, ?_, ?_⟩ <;>
    simp (disch := decide) only [State.powerDown, State.atF4, fld_almDev, flag_almDev, fld_raise_spares, flag_raise_spares, flag_raise, fld_setFld_spares,
      flag_setFld_spares, fld_setFld_of_lt, flag_setFld_zero]

end

/-! ### The wake (R58) -/

section
variable {s : State} {t reason : Nat} {g : Fld}

/-- The registers show that F4 is over and why, and the stacks and the event unit have power. -/
def State.showWake (s : State) (reason : Nat) : State :=
  (((((s.setFld Fld.CALM_STATE_STANDBY 0).setFld Fld.CALM_STATE_WAKE_REASON reason).setFld Fld.CALM_STANDBY_REQ 0).setFld Fld.ATR_STATUS_POWERED 15).raise
    Fld.EVT_STATUS_POWERED).almDev 0x0103 (leBytes 1 reason)

/-- A hall that holds a region comes to F2. -/
def State.hallToF2 (s : State) (h : Nat) : State := (s.setFrost h 2).setFld Fld.CALM_HALL_STATE_TARGET 2 0 h

theorem fld_hallToF2 (h : Nat) (hg : g.reg.addr 0 0 ≠ Reg.addr .CALM_HALL_STATE 0 h) : (s.hallToF2 h).fld g = s.fld g :=
  (fld_setFld_ne (s.setFrost h 2) Fld.CALM_HALL_STATE_TARGET g 2 0 h 0 0 hg).trans (fld_setFld_ne s Fld.CALM_HALL_STATE_FROST g 2 0 h 0 0 hg)

/-- Bringing halls to F2 writes their frost states alone. -/
theorem fld_hallsToF2 (hs : List Nat) (hg : ∀ h ∈ hs, g.reg.addr 0 0 ≠ Reg.addr .CALM_HALL_STATE 0 h) : (hs.foldl State.hallToF2 s).fld g = s.fld g :=
  List.foldlRecOn (motive := fun u : State => u.fld g = s.fld g) hs _ rfl fun _ hu h hh =>
    (fld_hallToF2 h (hg h hh)).trans hu

theorem hallsToF2_keep_time (hs : List Nat) : (hs.foldl State.hallToF2 s).now = s.now ∧ (hs.foldl State.hallToF2 s).tb = s.tb :=
  List.foldlRecOn (motive := fun u : State => u.now = s.now ∧ u.tb = s.tb) hs _ ⟨rfl, rfl⟩ fun _ hu _ _ => hu

/-- The halls that hold a region come to F2 once the wake is shown; what follows writes no register. -/
theorem leaveF4_regs : (s.leaveF4 reason).regs = (((List.range 18).filter (s.showWake reason).holdsRegion).foldl State.hallToF2 (s.showWake reason)).regs := by
  unfold State.leaveF4
  dsimp only
  split <;> rfl

/-- Leaving F4 shows the wake in every register but the halls' frost states. -/
theorem fld_leaveF4 (hg : ∀ h < 18, g.reg.addr 0 0 ≠ Reg.addr .CALM_HALL_STATE 0 h) : (s.leaveF4 reason).fld g = (s.showWake reason).fld g := by
  rw [fld_congr _ g 0 0 leaveF4_regs, fld_hallsToF2 _ fun h hh => hg h (List.mem_range.mp (List.mem_of_mem_filter hh))]

theorem flag_leaveF4 (hg : ∀ h < 18, g.reg.addr 0 0 ≠ Reg.addr .CALM_HALL_STATE 0 h) : (s.leaveF4 reason).flag g = (s.showWake reason).flag g := by
  rw [State.flag, fld_leaveF4 hg, State.flag]

/-- What the registers show after a wake. -/
theorem leaveF4_shown (hr : reason ≤ 4) : (s.leaveF4 reason).atF4 = false ∧ (s.leaveF4 reason).fld Fld.CALM_STATE_WAKE_REASON = reason ∧
    (s.leaveF4 reason).fld Fld.ATR_STATUS_POWERED = 15 ∧ (s.leaveF4 reason).flag Fld.EVT_STATUS_POWERED = true ∧
    (s.leaveF4 reason).flag Fld.CALM_STANDBY_REQ = false := by
  have why : (s.setFld Fld.CALM_STATE_STANDBY 0 |>.setFld Fld.CALM_STATE_WAKE_REASON reason).fld Fld.CALM_STATE_WAKE_REASON = reason :=
    fld_setFld_of_lt (by decide) (Nat.lt_of_le_of_lt hr (by decide))
  refine ⟨?_, ?_, ?_, ?_, ?_⟩ <;>
    simp (disch := decide) only [State.atF4, fld_leaveF4, flag_leaveF4, State.showWake, fld_almDev, flag_almDev, fld_raise_spares, flag_raise_spares, flag_raise,
      fld_setFld_spares, flag_setFld_spares, fld_setFld_of_lt, flag_setFld_zero, why]

/-- With a plan to take up again, its landings wait until the halls have had their wake time. -/
theorem leaveF4_wakeAt (hp : s.tb.hadPlan = true) : (s.leaveF4 reason).tb.wakeAt = some (s.now + 15000 * treadTicks) := by
  obtain ⟨now, tb⟩ := hallsToF2_keep_time (s := s.showWake reason) ((List.range 18).filter (s.showWake reason).holdsRegion)
  have shownNow : (s.showWake reason).now = s.now := by simp [State.showWake]
  have shownTb : (s.showWake reason).tb = s.tb := by simp [State.showWake]
  have had := (congrArg TimeSt.hadPlan (tb.trans shownTb)).trans hp
  unfold State.leaveF4
  dsimp only
  exact (congrArg (fun u : State => u.tb.wakeAt) (if_pos had)).trans (by rw [← shownNow, ← now]; rfl)

/-- An enabled wake source ends F4. -/
theorem exec_standbyWake (h4 : s.atF4 = true) (hw : s.wakes reason = true) : exec (.standbyWake reason none t) s = .next ((s.atTime t).leaveF4 reason) := by
  have f4 : (s.atTime t).atF4 = true := h4
  have fired : (s.atTime t).wakes reason = true := hw
  show execStandbyWake reason none t s = _
  simp [execStandbyWake, f4, fired]

/-- Where the plan's reload fails, the resume fails with its reason. -/
theorem exec_standbyWake_fails (r : Nat) (h4 : s.atF4 = true) (hw : s.wakes reason = true) (hp : s.tb.hadPlan = true) :
    exec (.standbyWake reason (some r) t) s = .next ((s.atTime t).resumeFails r) := by
  have f4 : (s.atTime t).atF4 = true := h4
  have fired : (s.atTime t).wakes reason = true := hw
  show execStandbyWake reason (some r) t s = _
  simp [execStandbyWake, f4, fired, hp]

end

/-! ### The statement -/

/-- Settles O28, from the registers that the request, the entry and the wake leave. -/
theorem standbyEntersAndWakes : Obligations.StandbyEntersAndWakes := by
  unfold Obligations.StandbyEntersAndWakes Gives
  refine fun value reason t who s => ⟨fun hw => ⟨_, exec_standbyRequest value hw, ?_, ?_⟩, fun h4 hr ha hl hf => ?_, fun h4 hw hr => ?_,
    fun r => exec_standbyWake_fails r⟩
  · rw [fld_setFld_spares (by decide)]
    show bitsOf ((s.setWord .CALM_STANDBY (BitVec.ofNat 32 (value % 32))).word .CALM_STANDBY).toNat 0 0 = value % 2
    rw [word_setWord, bitsOf, BitVec.toNat_ofNat]
    omega
  · refine fld_setFld_of_lt (by decide) ?_
    split
    exacts [Nat.two_pow_pos _, Nat.mod_lt _ Nat.two_pos]
  · obtain ⟨lost, had⟩ := powerDown_lost ((List.range 18).foldl State.hallToF3 (s.atTime t).serveAccesses.resetRegions) s.planActive
    obtain ⟨f4, atr, evt, pend⟩ := powerDown_shown ((List.range 18).foldl State.hallToF3 (s.atTime t).serveAccesses.resetRegions) s.planActive
    exact ⟨_, exec_standbyEnter h4 hr ha hl hf, f4, lost, atr, evt, pend, had⟩
  · obtain ⟨f4, why, atr, evt, req⟩ := leaveF4_shown (s := s.atTime t) hr
    exact ⟨_, exec_standbyWake h4 hw, f4, why, atr, evt, req, fun hp => leaveF4_wakeAt (s := s.atTime t) hp⟩

end Sys2Proof.Machine
end

section
/-! PROOFS. Device Time and its references (R32 to R39, R41, R60, R232): what the writes of the time base, the 1PPS edges, the timeouts and the 10 MHz input do. -/

open Sys2Proof.Spec

namespace Sys2Proof

/-- A signed number of w + 1 bits reads back from its bits. -/
theorem toSigned_ofSigned {w : Nat} {i : Int} (hl : -(2 ^ w : Nat) ≤ i) (hu : i < (2 ^ w : Nat)) : toSigned (w + 1) (ofSigned (w + 1) i) = i := by
  have hp : 2 ^ (w + 1) = 2 * 2 ^ w := by rw [pow_succ]; omega
  unfold toSigned ofSigned
  rw [Nat.add_sub_cancel, hp]
  generalize 2 ^ w = n at *
  dsimp only
  have hm : (i % ((2 * n : Nat) : Int)).toNat = if 0 ≤ i then i.toNat else (i + 2 * n).toNat := by
    split
    · rw [Int.emod_eq_of_lt ‹_› (by omega)]
    · rw [← Int.add_emod_right, Int.emod_eq_of_lt (by omega) (by omega)]; omega
  rw [hm]
  split <;> (rw [Nat.mod_eq_of_lt (by omega)]; split <;> omega)

/-- The bits of a signed number fit its width. -/
theorem ofSigned_lt (w : Nat) (i : Int) : ofSigned w i < 2 ^ w := by
  have := Int.emod_lt_of_pos i (Int.natCast_pos.mpr (Nat.two_pow_pos w))
  have := Int.emod_nonneg i (Int.natCast_pos.mpr (Nat.two_pow_pos w)).ne'
  unfold ofSigned
  omega

namespace Machine

section
variable (s : State) (b : TimeSt) (g : Fld) (o i : Nat)

/-- The time base's own state is replaced. -/
def State.setTb (s : State) (b : TimeSt) : State := { s with tb := b }

@[simp] theorem setTb_tb : (s.setTb b).tb = b := rfl
@[simp] theorem fld_setTb : (s.setTb b).fld g o i = s.fld g o i := fld_congr s g o i rfl
@[simp] theorem flag_setTb : (s.setTb b).flag g o i = s.flag g o i := flag_congr s g o i rfl

end

/-! ### The slew, the servos and the rate (R34 to R39) -/

section
variable {s : State} {g : Fld}

@[simp] theorem runSlew_now : s.runSlew.now = s.now := rfl

/-- Accounting for the slew shows whether it is over, and writes no other field. -/
theorem fld_runSlew (h : Fld.TB_STATUS_SLEWING.Spares g) : s.runSlew.fld g = s.fld g := by
  unfold State.runSlew
  dsimp only
  exact fld_setFld_spares h

/-- Once the time since the last account is long enough for what remains of a slew, the slew is over. -/
theorem runSlew_done (h : s.tb.slew.natAbs ≤ slewDone s.slewRate (s.now - s.tb.slewAt)) :
    s.runSlew.tb.slew = 0 ∧ s.runSlew.flag Fld.TB_STATUS_SLEWING = false := by
  have rest : s.runSlew.tb.slew = 0 := by
    show (if s.tb.slew ≥ 0 then s.tb.slew - (min (slewDone s.slewRate (s.now - s.tb.slewAt)) s.tb.slew.natAbs : Nat)
      else s.tb.slew + (min (slewDone s.slewRate (s.now - s.tb.slewAt)) s.tb.slew.natAbs : Nat)) = 0
    rw [Nat.min_eq_right h]
    split <;> omega
  refine ⟨rest, ?_⟩
  have shown : s.runSlew = (s.setTb s.runSlew.tb).setFld Fld.TB_STATUS_SLEWING (if s.runSlew.tb.slew = 0 then 0 else 1) := rfl
  rw [shown, rest, if_pos rfl, flag_setFld_zero (by decide)]

@[simp] theorem servoWrite_now : s.servoWrite.now = s.now := by unfold State.servoWrite; split <;> rfl

/-- A rate that is stored is held within the bound of R39. -/
theorem fld_putRate (r : Int) : (s.putRate r).fld Fld.TB_RATE_RATE = ofSigned 32 (max (-rateBound) (min rateBound r)) := by
  have stored : (s.setFld Fld.TB_RATE_RATE (ofSigned 32 (max (-rateBound) (min rateBound r)))).fld Fld.TB_RATE_RATE =
      ofSigned 32 (max (-rateBound) (min rateBound r)) := fld_setFld_of_lt (by decide) (ofSigned_lt 32 _)
  unfold State.putRate
  dsimp only
  split
  · exact stored
  · rw [fld_raise_spares (by decide), stored]

/-- Storing a rate writes TB_RATE, and of TB_STATUS the flag of the clamp. -/
theorem fld_putRate_spares (r : Int) (hr : Fld.TB_RATE_RATE.Spares g) (hc : Fld.TB_STATUS_RATE_CLAMP.Spares g) : (s.putRate r).fld g = s.fld g := by
  unfold State.putRate
  dsimp only
  split
  · exact fld_setFld_spares hr
  · rw [fld_raise_spares hc, fld_setFld_spares hr]

theorem flag_putRate_spares (r : Int) (hr : Fld.TB_RATE_RATE.Spares g) (hc : Fld.TB_STATUS_RATE_CLAMP.Spares g) : (s.putRate r).flag g = s.flag g := by
  rw [State.flag, fld_putRate_spares r hr hc, State.flag]

@[simp] theorem putRate_tb (r : Int) : (s.putRate r).tb = s.tb := by unfold State.putRate; dsimp only; split <;> rfl

/-- The rate that is stored lies within the bound of R39. -/
theorem putRate_bounded (r : Int) : -rateBound ≤ toSigned 32 ((s.putRate r).fld Fld.TB_RATE_RATE) ∧ toSigned 32 ((s.putRate r).fld Fld.TB_RATE_RATE) ≤ rateBound := by
  rw [fld_putRate, rateBound, toSigned_ofSigned (w := 31) (by norm_num) (by norm_num)]
  omega

/-- Entering holdover shows it, also where it is shown already. -/
theorem flag_enterHoldover : s.enterHoldover.flag Fld.TB_STATUS_HOLDOVER = true := by
  unfold State.enterHoldover
  split
  · assumption
  · simp (disch := decide) only [flag_almDev, flag_setFld_spares, flag_raise]

/-- With it LOCKED goes and an entry of the Almanac is made; the presence of the input stays as shown. -/
theorem enterHoldover_present : s.enterHoldover.flag Fld.TB_STATUS_PPS_PRESENT = s.flag Fld.TB_STATUS_PPS_PRESENT := by
  unfold State.enterHoldover
  split
  · rfl
  · simp (disch := decide) only [flag_almDev, flag_setFld_spares, flag_raise_spares]

end

/-! ### Reading and setting Device Time (R6, R34, R60) -/

section
variable (s : State) (who : Who) (a c v : Nat)

/-- A word that was latched for a reader is what the reader reads next. -/
@[simp] theorem latchOf_latch : (s.latch who a v).latchOf who a = v % 2 ^ 32 := by
  simp only [State.latchOf, State.latch, Tbl.get_put_same, BitVec.toNat_ofNat]

/-- Latching one word leaves the reader's others. -/
theorem latchOf_latch_ne (h : a ≠ c) : (s.latch who c v).latchOf who a = s.latchOf who a := by
  have key : whoKey who * 2 ^ 30 + a ≠ whoKey who * 2 ^ 30 + c := by omega
  simp only [State.latchOf, State.latch, Tbl.get_put_ne _ _ _ _ _ key]

/-- What leaves the part is no latched word. -/
@[simp] theorem latchOf_leave (o : Out) : (s.leave o).latchOf who a = s.latchOf who a := rfl

/-- The three words of an instant that a read of its fraction latches for the reader. -/
def State.latchInstant (s : State) (who : Who) (t : Nat) : State :=
  ((s.latch who (Reg.addr .TB_NOW_NS 0 0) (nsOf t)).latch who (Reg.addr .TB_NOW_SEC_LO 0 0) (secsOf t)).latch who (Reg.addr .TB_NOW_SEC_HI 0 0) (secsOf t / 2 ^ 32 % 65536)

/-- What the reader reads next. -/
theorem latchOf_latchInstant (t : Nat) : (s.latchInstant who t).latchOf who (Reg.addr .TB_NOW_NS 0 0) = nsOf t % 2 ^ 32 ∧
    (s.latchInstant who t).latchOf who (Reg.addr .TB_NOW_SEC_LO 0 0) = secsOf t % 2 ^ 32 ∧
    (s.latchInstant who t).latchOf who (Reg.addr .TB_NOW_SEC_HI 0 0) = secsOf t / 2 ^ 32 % 65536 := by
  have high : secsOf t / 2 ^ 32 % 65536 < 2 ^ 32 := (Nat.mod_lt _ (by decide)).trans (by decide)
  refine ⟨?_, ?_, ?_⟩ <;> unfold State.latchInstant
  · rw [latchOf_latch_ne _ _ _ _ _ (by decide), latchOf_latch_ne _ _ _ _ _ (by decide), latchOf_latch]
  · rw [latchOf_latch_ne _ _ _ _ _ (by decide), latchOf_latch]
  · rw [latchOf_latch, Nat.mod_eq_of_lt high]

/-- An instant without a fraction, in ticks. -/
theorem instantOf_zero (sec ns : Nat) : instantOf sec ns 0 = sec * 65536000000000 + ns * 65536 := by simp only [instantOf, secTicks, nsTicks, Nat.add_zero]

/-- Device Time that is moved by what an instant is ahead of it comes to the instant. -/
theorem shift_to (x : Nat) : (s.shift ((x : Int) - s.now)).now = x := by
  show ((s.now : Int) + ((x : Int) - s.now)).toNat = x
  omega

end

section
variable {s : State} {who : Who} {t v : Nat}

/-- A read of TB_NOW answers the fraction and latches the other words. -/
theorem exec_tbNowRead : exec (.tbNowRead who t) s = .next
    (((s.atTime t).latchInstant who (max s.now t)).leave (.readValue who (Reg.addr .TB_NOW_FRAC 0 0) (fracOf (max s.now t)))) := rfl

section
variable (hw : s.mayWrite who = true)
include hw

/-- A sender who may write is not turned away. -/
theorem write_not_barred : ¬ (!(s.atTime t).mayWrite who) = true := by simp [hw]

/-- Under the hardware servo a write of TB_RATE or TB_STEP is ignored and flagged. -/
theorem exec_tbRateWrite_ignored (hs : s.hwServo = true) : exec (.tbRateWrite who v t) s = .next ((s.atTime t).raise Fld.TB_STATUS_SRC_WRITE_IGNORED) :=
  (if_neg (write_not_barred hw)).trans (if_pos hs)

theorem exec_tbStepWrite_ignored (hs : s.hwServo = true) : exec (.tbStepWrite who v t) s = .next ((s.atTime t).raise Fld.TB_STATUS_SRC_WRITE_IGNORED) :=
  (if_neg (write_not_barred hw)).trans (if_pos hs)

/-- Otherwise a write of TB_RATE stores the rate. -/
theorem exec_tbRateWrite (hs : s.hwServo = false) : exec (.tbRateWrite who v t) s = .next ((s.atTime t).runSlew.servoWrite.putRate (toSigned 32 v)) :=
  (if_neg (write_not_barred hw)).trans (if_neg (Bool.eq_false_iff.mp hs))

/-- With no plan active a write of TB_STEP moves Device Time. -/
theorem exec_tbStepWrite (hs : s.hwServo = false) (hp : s.planActive = false) : exec (.tbStepWrite who v t) s =
    .next ((s.atTime t).runSlew.shift (max (-2147483647) (toSigned 32 v) * nsTicks)).servoWrite :=
  (if_neg (write_not_barred hw)).trans ((if_neg (Bool.eq_false_iff.mp hs)).trans (if_neg (Bool.eq_false_iff.mp hp)))

/-- A step that is added to the slew. -/
def State.addSlew (s : State) (d : Int) : State :=
  (s.setTb { s.tb with slew := s.tb.slew + d }).setFld Fld.TB_STATUS_SLEWING (if s.tb.slew + d = 0 then 0 else 1)

/-- With a plan active a write of TB_STEP adds to the slew. -/
theorem exec_tbStepWrite_slews (hs : s.hwServo = false) (hp : s.planActive = true) : exec (.tbStepWrite who v t) s =
    .next ((s.atTime t).servoWrite.runSlew.addSlew (max (-2147483647) (toSigned 32 v) * nsTicks)) :=
  (if_neg (write_not_barred hw)).trans ((if_neg (Bool.eq_false_iff.mp hs)).trans (if_pos hp))

/-- The staged words do not set the time while a plan is active, nor where the nanoseconds are none. -/
theorem exec_tbSetCommit_refused (h : s.planActive = true ∨ 999999999 < s.latchOf who (Reg.addr .TB_SET_NS 0 0)) :
    exec (.tbSetCommit who v t) s = .next ((s.atTime t).raise Fld.TB_STATUS_SET_REFUSED) :=
  (if_neg (write_not_barred hw)).trans (if_pos h)

/-- The staged words and the high seconds set the time. -/
theorem exec_tbSetCommit (hp : s.planActive = false) (hn : s.latchOf who (Reg.addr .TB_SET_NS 0 0) ≤ 999999999) : exec (.tbSetCommit who v t) s =
    .next ((s.atTime t).runSlew.shift ((instantOf (s.latchOf who (Reg.addr .TB_SET_SEC_LO 0 0) + 2 ^ 32 * (v % 65536)) (s.latchOf who (Reg.addr .TB_SET_NS 0 0)) 0 : Int) -
      (s.atTime t).now)) :=
  (if_neg (write_not_barred hw)).trans (if_neg (not_or.mpr ⟨Bool.eq_false_iff.mp hp, Nat.not_lt.mpr hn⟩))

/-- TB_ORIGIN_NS holds whole 100 ns. -/
theorem exec_tbOriginWrite (hv : v ≤ 999999999) : exec (.tbOriginWrite who v) s = .next (s.setFld Fld.TB_ORIGIN_NS_NS (v / 100 * 100)) :=
  if_neg (by simp [hw, hv])

end

/-- Others do not write TB_ORIGIN_NS. -/
theorem exec_tbOriginWrite_barred (hw : s.mayWrite who = false) : exec (.tbOriginWrite who v) s = .next s := if_pos (.inl (by simp [hw]))

end

/-! ### Selecting a source (R35, R37) -/

section
variable {s : State} {who : Who} {t v : Nat} {g : Fld}

/-- The fields of TB_CTRL after a write: a SLEW out of range and a reserved SRC keep their values. -/
def State.putCtrl (s : State) (v : Nat) : State :=
  let s := (s.setFld Fld.TB_CTRL_PPS_DELAY (bitsOf v 31 16)).setFld Fld.TB_CTRL_PPS_EDGE (bitsOf v 3 3)
  let s := if 1 ≤ bitsOf v 15 8 ∧ bitsOf v 15 8 ≤ 30 then s.setFld Fld.TB_CTRL_SLEW (bitsOf v 15 8) else s
  if bitsOf v 2 0 ≤ 4 then s.setFld Fld.TB_CTRL_SRC (bitsOf v 2 0) else s

/-- A new source starts afresh. -/
def State.startSource (s : State) : State :=
  let s := (s.setFld Fld.TB_STATUS_LOCKED 0).setFld Fld.TB_STATUS_HOLDOVER 0
  let s := s.setTb { s.tb with good := 0, edge := s.now, servo := s.now }
  s.setFld Fld.TB_STATUS_REF10_PRESENT (b2n (s.tbSrc == 4 && s.tb.ref10In && decide (s.tb.ref10Since + secTicks ≤ s.now)))

/-- A write of TB_CTRL stores its fields; another source than before starts afresh. -/
theorem exec_tbCtrlWrite (hw : s.mayWrite who = true) : exec (.tbCtrlWrite who v t) s = .next
    (if ((s.atTime t).runSlew.putCtrl v).tbSrc = (s.atTime t).runSlew.tbSrc then (s.atTime t).runSlew.putCtrl v else ((s.atTime t).runSlew.putCtrl v).startSource) :=
  (if_neg (write_not_barred hw)).trans (apply_ite Host.Outcome.next _ _ _).symm

/-- The fields of TB_CTRL that a write leaves. -/
theorem putCtrl_fields (v : Nat) : (s.putCtrl v).fld Fld.TB_CTRL_PPS_DELAY = bitsOf v 31 16 ∧ (s.putCtrl v).fld Fld.TB_CTRL_PPS_EDGE = bitsOf v 3 3 ∧
    (s.putCtrl v).fld Fld.TB_CTRL_SRC = (if bitsOf v 2 0 ≤ 4 then bitsOf v 2 0 else s.fld Fld.TB_CTRL_SRC) ∧
    (s.putCtrl v).fld Fld.TB_CTRL_SLEW = (if 1 ≤ bitsOf v 15 8 ∧ bitsOf v 15 8 ≤ 30 then bitsOf v 15 8 else s.fld Fld.TB_CTRL_SLEW) := by
  have delay (u : State) : (u.setFld Fld.TB_CTRL_PPS_DELAY (bitsOf v 31 16)).fld Fld.TB_CTRL_PPS_DELAY = _ := fld_setFld_of_lt (by decide) (bitsOf_lt ..)
  have edge (u : State) : (u.setFld Fld.TB_CTRL_PPS_EDGE (bitsOf v 3 3)).fld Fld.TB_CTRL_PPS_EDGE = _ := fld_setFld_of_lt (by decide) (bitsOf_lt ..)
  have src (u : State) : (u.setFld Fld.TB_CTRL_SRC (bitsOf v 2 0)).fld Fld.TB_CTRL_SRC = _ := fld_setFld_of_lt (by decide) (bitsOf_lt ..)
  have slew (u : State) : (u.setFld Fld.TB_CTRL_SLEW (bitsOf v 15 8)).fld Fld.TB_CTRL_SLEW = _ := fld_setFld_of_lt (by decide) (bitsOf_lt ..)
  unfold State.putCtrl
  dsimp only
  by_cases hsrc : bitsOf v 2 0 ≤ 4 <;> by_cases hslew : 1 ≤ bitsOf v 15 8 ∧ bitsOf v 15 8 ≤ 30 <;>
    simp (disch := decide) only [hsrc, hslew, if_true, if_false, delay, edge, src, slew, fld_setFld_spares, and_self]

/-- Starting a source writes TB_STATUS alone. -/
theorem fld_startSource (hl : Fld.TB_STATUS_LOCKED.Spares g) (hh : Fld.TB_STATUS_HOLDOVER.Spares g) (hr : Fld.TB_STATUS_REF10_PRESENT.Spares g) :
    s.startSource.fld g = s.fld g := by
  unfold State.startSource
  dsimp only
  rw [fld_setFld_spares hr, fld_setTb, fld_setFld_spares hh, fld_setFld_spares hl]

end

/-! ### Edges and timeouts (R36, R37) -/

section
variable {s : State} {t : Nat} {rising : Bool} {g : Fld}

/-- The offset of an edge at an instant from the whole second, with TB_CTRL.PPS_DELAY taken off. -/
def State.edgeOffset (s : State) (t : Nat) : Int := secondOffset ((t : Int) - (s.fld Fld.TB_CTRL_PPS_DELAY * nsTicks : Nat))

/-- An edge of the selected sense is shown and recorded. -/
def State.recordEdge (s : State) : State :=
  let u := (s.setFld Fld.TB_STATUS_PPS_OFFSET (ofSigned 16 (max (-32767) (min 32767 (s.edgeOffset s.now))))).raise Fld.TB_STATUS_PPS_PRESENT
  u.setTb { s.tb with edge := s.now, edgeAt := some s.now }

/-- The count of edges starts again, in holdover. -/
def State.loseEdges (s : State) : State := s.enterHoldover.setTb { s.enterHoldover.tb with good := 0 }

/-- The hardware servo follows an edge, the n-th in a row that counts toward the lock. -/
def State.followEdge (s : State) (n : Nat) : State :=
  let u := (s.runSlew.setFld Fld.TB_STATUS_HOLDOVER 0).setTb { s.runSlew.tb with good := n }
  let v := (u.putRate (toSigned 32 u.free)).drawn
  if n ≥ 8 then v.raise Fld.TB_STATUS_LOCKED else v

/-- Recording an edge writes its offset and the presence of the input, and no other field. -/
theorem fld_recordEdge (ho : Fld.TB_STATUS_PPS_OFFSET.Spares g) (hp : Fld.TB_STATUS_PPS_PRESENT.Spares g) : s.recordEdge.fld g = s.fld g :=
  (fld_setTb ..).trans ((fld_raise_spares hp).trans (fld_setFld_spares ho))

/-- Recording an edge does not change the source. -/
theorem recordEdge_hwServo : s.recordEdge.hwServo = s.hwServo := by
  simp (disch := decide) only [State.hwServo, State.tbSrc, fld_recordEdge]

/-- Under the hardware servo an edge is not left unfollowed. -/
theorem edge_followed (hs : s.hwServo = true) : ¬ (!(s.atTime t).recordEdge.hwServo) = true := by
  rw [recordEdge_hwServo, show (s.atTime t).hwServo = true from hs]; decide

section
variable (he : rising ≠ s.flag Fld.TB_CTRL_PPS_EDGE)
include he

/-- An edge of the selected sense is not passed over. -/
theorem edge_not_passed : ¬ (rising == (s.atTime t).flag Fld.TB_CTRL_PPS_EDGE) = true := by simpa using he

/-- Without the hardware servo an edge is recorded, and no more. -/
theorem exec_ppsEdge_recorded (hs : s.hwServo = false) : exec (.ppsEdge rising t) s = .next (s.atTime t).recordEdge := by
  have unfollowed : (!(s.atTime t).recordEdge.hwServo) = true := by rw [recordEdge_hwServo]; exact congrArg not hs
  exact (if_neg (edge_not_passed he)).trans (if_pos unfollowed)

/-- An edge more than 500 ns off means that the edges are lost. -/
theorem exec_ppsEdge_far (hs : s.hwServo = true) (hf : 500 < (s.edgeOffset (max s.now t)).natAbs) : exec (.ppsEdge rising t) s = .next (s.atTime t).recordEdge.loseEdges :=
  (if_neg (edge_not_passed he)).trans ((if_neg (edge_followed hs)).trans (if_pos hf))

/-- An edge within 50 ns is followed, and counts. -/
theorem exec_ppsEdge_near (hs : s.hwServo = true) (hn : (s.edgeOffset (max s.now t)).natAbs ≤ 50) : exec (.ppsEdge rising t) s =
    .next ((s.atTime t).recordEdge.followEdge (s.tb.good + 1)) := by
  have near : ¬ 500 < (s.edgeOffset (max s.now t)).natAbs := by omega
  have counts : (if (s.edgeOffset (max s.now t)).natAbs ≤ 50 then s.tb.good + 1 else 0) = s.tb.good + 1 := if_pos hn
  rw [← counts]
  exact (if_neg (edge_not_passed he)).trans ((if_neg (edge_followed hs)).trans (if_neg near))

end

/-- An edge that is recorded shows the input present, and leaves TB_RATE. -/
theorem recordEdge_kept : s.recordEdge.flag Fld.TB_STATUS_PPS_PRESENT = true ∧ s.recordEdge.tb.edge = s.now ∧
    s.recordEdge.fld Fld.TB_RATE_RATE = s.fld Fld.TB_RATE_RATE :=
  ⟨(flag_setTb ..).trans (flag_raise (by decide)), rfl, fld_recordEdge (by decide) (by decide)⟩

/-- Losing the edges means holdover and a count of 0; the presence of the input stays as shown. -/
theorem loseEdges_shown : s.loseEdges.flag Fld.TB_STATUS_HOLDOVER = true ∧ s.loseEdges.tb.good = 0 ∧
    s.loseEdges.flag Fld.TB_STATUS_PPS_PRESENT = s.flag Fld.TB_STATUS_PPS_PRESENT :=
  ⟨(flag_setTb ..).trans flag_enterHoldover, rfl, (flag_setTb ..).trans enterHoldover_present⟩

/-- An edge that is followed ends holdover and counts; from the eighth on LOCKED is set. The rate stays within the bound. -/
theorem followEdge_shown (n : Nat) : (s.followEdge n).flag Fld.TB_STATUS_HOLDOVER = false ∧ (s.followEdge n).tb.good = n ∧
    (8 ≤ n → (s.followEdge n).flag Fld.TB_STATUS_LOCKED = true) ∧
    -rateBound ≤ toSigned 32 ((s.followEdge n).fld Fld.TB_RATE_RATE) ∧ toSigned 32 ((s.followEdge n).fld Fld.TB_RATE_RATE) ≤ rateBound := by
  unfold State.followEdge
  dsimp only
  split
  · simp (disch := decide) only [flag_raise_spares, flag_raise, fld_raise_spares, raise_tb, flag_drawn, fld_drawn, drawn_tb, flag_putRate_spares, putRate_tb, setTb_tb, flag_setTb,
      flag_setFld_zero, putRate_bounded, implies_true, and_self]
  · next few =>
    simp (disch := decide) only [few, flag_drawn, fld_drawn, drawn_tb, flag_putRate_spares, putRate_tb, setTb_tb, flag_setTb, flag_setFld_zero, putRate_bounded,
      false_implies, and_self]

/-- More than 2 s after the last edge the input is shown as gone; where the hardware servo has waited as long, its edges are lost. -/
theorem exec_ppsTimeout {e : Nat} (he : s.tb.edgeAt = some e) (hl : e + 2 * secTicks < max s.now t) (hg : s.tb.edge + 2 * secTicks < max s.now t)
    (hs : s.hwServo = true) : exec (.ppsTimeout t) s = .next ((s.atTime t).setFld Fld.TB_STATUS_PPS_PRESENT 0).loseEdges := by
  have gone : (s.atTime t).expired (e + 2 * secTicks) = true := decide_eq_true hl
  have waited : ((s.atTime t).setFld Fld.TB_STATUS_PPS_PRESENT 0).expired (s.tb.edge + 2 * secTicks) = true := decide_eq_true hg
  have servo : ((s.atTime t).setFld Fld.TB_STATUS_PPS_PRESENT 0).hwServo = true := by
    unfold State.hwServo State.tbSrc at *
    rwa [fld_setFld_spares (by decide)]
  show execPpsTimeout t s = _
  simp only [execPpsTimeout, atTime_tb, he, gone, if_true]
  exact if_pos ⟨servo, waited⟩

/-- Under the servo sources more than 4 s without a servo write mean holdover. -/
theorem exec_servoHoldoverTimeout (hs : s.fld Fld.TB_CTRL_SRC = 1 ∨ s.fld Fld.TB_CTRL_SRC = 2) (hl : s.tb.servo + 4 * secTicks < max s.now t) :
    exec (.servoHoldoverTimeout t) s = .next (s.atTime t).enterHoldover := if_pos ⟨hs, decide_eq_true hl⟩

/-! ### The 10 MHz input and PPS_OUT (R38, R232) -/

/-- The loss of the 10 MHz input is shown. -/
theorem exec_ref10Loss : exec (.ref10Loss t) s = .next (((s.atTime t).setTb { s.tb with ref10In := false }).setFld Fld.TB_STATUS_REF10_PRESENT 0) := rfl

/-- Under SRC 4 the 10 MHz input is shown again after 1 s of presence. -/
theorem exec_ref10Restore {since : Nat} (hs : s.fld Fld.TB_CTRL_SRC = 4) (hp : since + secTicks ≤ max s.now t) : exec (.ref10Restore since t) s =
    .next (((s.atTime t).setTb { s.tb with ref10In := true, ref10Since := since }).raise Fld.TB_STATUS_REF10_PRESENT) := if_pos ⟨hp, hs⟩

/-- PPS_OUT rises at a whole second, for its width. -/
theorem exec_ppsOutPulse (he : s.flag Fld.LN_PPS_OUT_EN = true) (ht : max s.now t % secTicks = 0) : exec (.ppsOutPulse t) s = .next
    (((s.atTime t).setTb { s.tb with ppsEnd := some (max s.now t + s.fld Fld.LN_PPS_OUT_WIDTH_US * 1000 * nsTicks) }).leave (.pin 2 0 true)) := if_pos ⟨he, ht⟩

/-- It falls once the width has passed. -/
theorem exec_ppsOutPulseEnd {e : Nat} (he : s.tb.ppsEnd = some e) (ht : e ≤ max s.now t) : exec (.ppsOutPulseEnd t) s = .next
    (((s.atTime t).setTb { s.tb with ppsEnd := none }).leave (.pin 2 0 false)) := by
  show execPpsOutPulseEnd t s = _
  simp only [execPpsOutPulseEnd, atTime_tb, he]
  exact if_pos ht

end

/-! ### The statement -/

/-- Settles O26, from what each command leaves of the time base. -/
theorem timeBaseAndReferences : Obligations.TimeBaseAndReferences := by
  unfold Obligations.TimeBaseAndReferences Gives
  refine ⟨fun value t who s => ⟨?_, fun hw => ?_, fun hw hs => ?_, fun hw hs => ?_, fun hw hs hp => ?_, fun hw hs hp => ?_, rfl, fun h => ?_, fun hw h => ?_,
    fun hw hp hn => ?_, fun hw hv => ?_, exec_tbOriginWrite_barred⟩, fun t since rising s => ⟨fun he hs => ?_, fun he hs => ⟨fun far => ?_, fun near => ?_⟩,
    fun e he hl hg hs => ?_, fun hs hl => ?_, ?_, fun hs hp => ?_, fun he ht => ?_, fun e he ht => ?_⟩⟩
  · obtain ⟨ns, lo, hi⟩ := latchOf_latchInstant (s.atTime t) who (max s.now t)
    exact ⟨_, exec_tbNowRead, rfl, rfl, (latchOf_leave ..).trans ns, (latchOf_leave ..).trans lo, (latchOf_leave ..).trans hi, rfl⟩
  · refine ⟨_, exec_tbCtrlWrite hw, ?_⟩
    obtain ⟨delay, edge, src, slew⟩ := putCtrl_fields (s := (s.atTime t).runSlew) value
    rw [fld_runSlew (by decide), fld_atTime] at src slew
    split
    · exact ⟨delay, edge, src, slew⟩
    · simp (disch := decide) only [fld_startSource, delay, edge, src, slew, and_self]
  · exact ⟨_, _, exec_tbRateWrite_ignored hw hs, exec_tbStepWrite_ignored hw hs, flag_raise (by decide), flag_raise (by decide), fld_raise_spares (by decide), rfl⟩
  · exact ⟨_, exec_tbRateWrite hw hs, fld_putRate _⟩
  · exact ⟨_, exec_tbStepWrite hw hs hp, servoWrite_now⟩
  · exact ⟨_, exec_tbStepWrite_slews hw hs hp, servoWrite_now, rfl⟩
  · obtain ⟨rest, shown⟩ := runSlew_done (s := s.atTime t) h
    exact ⟨_, rfl, rest, shown, rfl⟩
  · exact ⟨_, exec_tbSetCommit_refused hw h, flag_raise (by decide), rfl⟩
  · exact ⟨_, exec_tbSetCommit hw hp hn, (shift_to (s.atTime t).runSlew _).trans (instantOf_zero ..), rfl⟩
  · exact ⟨_, exec_tbOriginWrite hw hv, fld_setFld_of_lt (by decide) (((Nat.div_mul_le_self _ _).trans hv).trans_lt (by decide))⟩
  · obtain ⟨present, edge, rate⟩ := recordEdge_kept (s := s.atTime t)
    exact ⟨_, exec_ppsEdge_recorded he hs, present, edge, rate⟩
  · obtain ⟨present, -⟩ := recordEdge_kept (s := s.atTime t)
    obtain ⟨holdover, good, stays⟩ := loseEdges_shown (s := (s.atTime t).recordEdge)
    exact ⟨_, exec_ppsEdge_far he hs far, holdover, good, stays.trans present⟩
  · obtain ⟨holdover, good, locked, bounds⟩ := followEdge_shown (s := (s.atTime t).recordEdge) (s.tb.good + 1)
    exact ⟨_, exec_ppsEdge_near he hs near, holdover, good, fun h => locked (Nat.succ_le_succ h), bounds⟩
  · obtain ⟨holdover, good, stays⟩ := loseEdges_shown (s := (s.atTime t).setFld Fld.TB_STATUS_PPS_PRESENT 0)
    exact ⟨_, exec_ppsTimeout he hl hg hs, stays.trans (flag_setFld_zero (by decide)), holdover, good⟩
  · exact ⟨_, exec_servoHoldoverTimeout hs hl, flag_enterHoldover⟩
  · exact ⟨_, exec_ref10Loss, flag_setFld_zero (by decide), rfl⟩
  · exact ⟨_, exec_ref10Restore hs hp, flag_raise (by decide), rfl⟩
  · exact ⟨_, exec_ppsOutPulse he ht, rfl, rfl⟩
  · exact ⟨_, exec_ppsOutPulseEnd he ht, rfl, rfl⟩

end Machine

end Sys2Proof
end

section
/-! PROOFS. The plan slots (R81 to R92, R481): what the plan commands ask for and when they are refused, and how the slots move by themselves. -/

open Sys2Proof.Spec

namespace Sys2Proof.Machine

/-! ### The slots' registers (R93) -/

section
variable {s : State} {g : Fld}

/-- Showing the slots writes their serials and hashes alone. -/
theorem fld_showSlots (hs : ∀ f ∈ [Fld.PLN_ACTIVE_SERIAL_LO_SERIAL, Fld.PLN_ACTIVE_SERIAL_HI_SERIAL, Fld.PLN_STANDBY_SERIAL_LO_SERIAL, Fld.PLN_STANDBY_SERIAL_HI_SERIAL], f.Spares g)
    (hh : ∀ i < 12, g.reg.addr 0 0 ≠ Reg.addr .PLN_ACTIVE_HASH 0 i ∧ g.reg.addr 0 0 ≠ Reg.addr .PLN_STANDBY_HASH 0 i) : s.showSlots.fld g = s.fld g := by
  simp only [List.forall_mem_cons] at hs
  obtain ⟨activeLo, activeHi, standbyLo, standbyHi, -⟩ := hs
  refine List.foldlRecOn (motive := fun u : State => u.fld g = s.fld g) _ _ ?_ fun u hu i hi => ?_
  · rw [fld_setFld_spares standbyHi, fld_setFld_spares standbyLo, fld_setFld_spares activeHi, fld_setFld_spares activeLo]
  · obtain ⟨active, standby⟩ := hh i (List.mem_range.mp hi)
    rw [fld_setFld_ne _ _ _ _ _ _ _ _ standby, fld_setFld_ne _ _ _ _ _ _ _ _ active, hu]

@[simp] theorem showSlots_pln : s.showSlots.pln = s.pln :=
  List.foldlRecOn (motive := fun u : State => u.pln = s.pln) _ _ rfl fun _ hu _ _ => hu

/-- A copy into the standby slot leaves the slot empty and LOADING, with the copy behind those that wait. -/
theorem beginCopyIn_shown (kind idx boot : Nat) (cmd : Option AdminCmd) : (s.beginCopyIn kind idx boot cmd).standbyState = 1 ∧
    (s.beginCopyIn kind idx boot cmd).pln = { s.pln with standby := [], load := cmd, bootCase := boot, copies := s.pln.copies ++ [PlanCopy.mk kind idx [] none] } := by
  unfold State.standbyState State.beginCopyIn State.setStandby
  refine ⟨?_, by rw [showSlots_pln]; rfl⟩
  rw [fld_showSlots (by decide) (by decide), fld_setFld_spares (by decide), fld_setFld_of_lt (by decide) (by decide)]

end

/-! ### Commands (R84 to R87, R91) -/

section
variable {s t : State} {d : AdminCmd} {op : Nat} {k : State → State}

/-- A command that is accepted answers what its own checks and effect leave. -/
theorem next_admin (h : Accepted s d op) (hk : k s = t) : (.next (s.admin d op k) : Answer) = .next t := by
  obtain ⟨kept, passed⟩ := h
  rw [State.admin, kept, passed, ← hk]
  rfl

/-- A swap of a READY slot that names no flight is requested for the first ready landing. -/
theorem exec_planSwap_first (h : Accepted s d 0x13) (h3 : s.standbyState = 3) (hn : bitOf (d.p 0) 0 = false) :
    exec (.planSwap d) s = .next (s.requestSwap none (some d) false) :=
  next_admin h (by simp [h3, hn])

/-- One that names a flight is requested for it, and abandoned at once where its landing is past. -/
theorem exec_planSwap_named {u : State} (h : Accepted s d 0x13) (h3 : s.standbyState = 3) (hn : bitOf (d.p 0) 0 = true)
    (hu : s.requestSwap (some (d.p64 1)) (some d) false = u) :
    exec (.planSwap d) s = .next (if u.flightGone (d.p64 1) then u.abandonSwap 0x43 else u) :=
  next_admin h (by simp [h3, hn, hu])

end

/-- Settles O29: each command is its own check of the slot, and its effect where the slot is in the right state. -/
theorem planCommands : Obligations.PlanCommands := by
  unfold Obligations.PlanCommands Gives
  refine fun d buf s => ⟨fun h free => ?_, fun h free => ?_, fun h held => next_admin h (if_neg held), exec_planSwap_first, fun h h3 hn ahead => ?_,
    fun h h3 hn gone => ?_, fun h => ?_, fun h idle => next_admin h (if_neg idle), fun h busy => next_admin h (if_pos busy), fun h empty => next_admin h (if_pos empty),
    fun h other => next_admin h (if_pos other), fun h swapping => next_admin h (if_pos swapping)⟩
  · exact next_admin h (if_neg (Bool.eq_false_iff.mp free))
  · obtain ⟨loading, pln⟩ := beginCopyIn_shown (s := s) 1 (d.p 0) 0 (some d)
    exact ⟨_, next_admin h (if_neg (Bool.eq_false_iff.mp free)), by rw [pln], by rw [pln], loading, by rw [pln]⟩
  · rw [exec_planSwap_named h h3 hn rfl, if_neg (Bool.eq_false_iff.mp ahead)]
  · rw [exec_planSwap_named h h3 hn rfl, if_pos gone]
  · exact ⟨_, next_admin h rfl, fld_setFld_of_lt (by decide) (by decide), rfl⟩

/-! ### Verdicts (R81, R82, R92) -/

section
variable {s : State} {t code wh item : Nat} {oks : List Nat}

/-- The registers show the verifier's answer, which nothing waits for any more. -/
def State.showVerdict (s : State) (code wh item : Nat) (oks : List Nat) : State :=
  (({ s with pln := { s.pln with verdict := none, load := none, remaps := oks } }.setWord .PLN_VERIFY_WHERE (BitVec.ofNat 32 wh)).setWord .PLN_VERIFY_ITEM
    (BitVec.ofNat 32 item)).setReason code

/-- An image is accepted: the load completes, or the start whose case it serves goes on, where the image may start without an owner. -/
def State.acceptImage (u : State) (cmd : Option AdminCmd) (place : Nat) : Answer :=
  let s := u.setStandby 3
  if s.pln.bootCase = 0 then .next (s.planDone cmd St.success 0 place)
  else if Plan.standaloneOk s.pln.standby then .next ({ s with pln := { s.pln with bootCase := 0 } }.requestSwap none none (s.pln.bootCase == 2))
  else .next (s.startFails 0)

/-- An image is rejected and counted: the load completes with the reason, or the start fails with it. -/
def State.rejectImage (u : State) (cmd : Option AdminCmd) (code place : Nat) : Answer :=
  let s := (u.setStandby 4).bump Fld.PLN_COUNTS_REJECTS
  if s.pln.bootCase = 0 then .next (s.planDone cmd St.planRejected code place) else .next (s.startFails code)

/-- VERIFY_COMPLETE shows the verdict, and accepts or rejects the image. -/
theorem exec_verifyComplete (hv : s.pln.verdict = some (code, wh, item, oks)) : exec (.verifyComplete t) s =
    if code = 0 then ((s.atTime t).showVerdict code wh item oks).acceptImage s.pln.load (wh + item * 2 ^ 32)
    else ((s.atTime t).showVerdict code wh item oks).rejectImage s.pln.load code (wh + item * 2 ^ 32) := by
  show execVerifyComplete t s = _
  unfold execVerifyComplete
  extract_lets u
  rw [show u.pln.verdict = _ from hv]
  rfl

end

/-! ### The halls of a swap, and its timeout (R86, R87) -/

section
variable {s : State} {h t v : Nat} {w : Swap}

/-- The bit of a hall that was set is set in the field that keeps the word. -/
theorem bitOf_setFld_withBit {f : Fld} (hf : f.InWord) (hh : h < f.hi + 1 - f.lo) : bitOf ((s.setFld f (withBit v h true)).fld f) h = true := by
  rw [fld_setFld s f _ 0 0 hf.1 hf.2, bitOf_eq_testBit, Nat.testBit_mod_two_pow, withBit, testBit_putBits _ _ _ _ _ le_rfl]
  simp [hh, b2n]

/-- The idle bank of a hall that the image in standby uses is written. -/
def State.fillBank (u : State) (h : Nat) : State :=
  let s := if Plan.used u.pln.standby h then
      { u with pln := { u.pln with bankCrc := u.pln.bankCrc.put h (crc32c (residentOf u.pln.standby (Plan.logical u.pln.standby h))) } } else u
  if Plan.used s.pln.standby h then s.setFld Fld.TSQ_STATE_PRE_DONE 1 h else s

theorem fillBank_swap : (s.fillBank h).pln.swap = s.pln.swap := by
  by_cases used : Plan.used s.pln.standby h = true <;> simp [State.fillBank, used]

/-- A hall whose bank is written, that is up and has drained where its role changes, becomes ready. -/
theorem exec_hallReady (hw : s.pln.swap = some w) (hm : (s.atTime t).swapHalls.contains h = true) (hb : (s.atTime t).bankReady w h = true)
    (hd : (s.atTime t).roleChanges h = false ∨ (s.atTime t).drained h = true) : exec (.hallReady h t) s =
      .next (((s.atTime t).fillBank h).setFld Fld.PLN_HALL_READY_READY (withBit (((s.atTime t).fillBank h).fld Fld.PLN_HALL_READY_READY) h true)) := by
  have ready : ¬ ((!(s.atTime t).swapHalls.contains h) = true ∨ (!(s.atTime t).bankReady w h) = true ∨
      (s.atTime t).roleChanges h = true ∧ (!(s.atTime t).drained h) = true) := by
    rcases hd with hd | hd <;> simp only [hm, hb, hd, Bool.not_true, Bool.false_eq_true, false_and, and_false, or_self, not_false_eq_true]
  show execHallReady h t s = _
  unfold execHallReady
  extract_lets u
  rw [show u.pln.swap = _ from hw]
  exact if_neg ready

/-- A swap for the first ready landing is abandoned past its time. -/
theorem exec_swapTimeout (hw : s.pln.swap = some w) (hn : w.named = none) (ht : w.since + s.fld Fld.PLN_SWAP_TIMEOUT_MS * 1000000 * nsTicks < max s.now t) :
    exec (.swapTimeout t) s = .next ((s.atTime t).abandonSwap 0x42) := by
  have late : (s.atTime t).expired (w.since + s.fld Fld.PLN_SWAP_TIMEOUT_MS * 1000000 * nsTicks) = true := decide_eq_true ht
  show execSwapTimeout t s = _
  simp [execSwapTimeout, hw, hn, late]

end

/-! ### Starts and copies (R84, R85, R92, R481, R493) -/

section
variable {s : State} {t : Nat}

/-- A start is still to be selected, and nothing bars it. -/
structure StartDue (s : State) : Prop where
  unselected : s.pln.selected = false
  booted : s.fld Fld.OWN_BOOT_STATUS_STAGE = 2
  noPlan : s.planActive = false
  free : s.slotBusy = false
  notHeld : s.startHeld = false

theorem StartDue.atTime (h : StartDue s) (t : Nat) : StartDue (s.atTime t) := ⟨h.unselected, h.booted, h.noPlan, h.free, h.notHeld⟩

theorem StartDue.not_barred (h : StartDue s) :
    ¬ (s.pln.selected = true ∨ s.fld Fld.OWN_BOOT_STATUS_STAGE ≠ 2 ∨ s.planActive = true ∨ s.slotBusy = true ∨ s.startHeld = true) := by
  obtain ⟨unselected, booted, noPlan, free, notHeld⟩ := h
  simp [unselected, booted, noPlan, free, notHeld]

/-- The plan that was RUNNING restarts. -/
theorem exec_startSelect_restarts (h : StartDue s) (hr : (s.atTime t).restarts = true) :
    exec (.startSelect t) s = .next { s.atTime t with pln := { s.pln with selected := true } }.restartPlan :=
  (if_neg (h.atTime t).not_barred).trans (if_pos hr)

/-- The selection is made, and no restart is left. -/
def State.selectStart (s : State) : State := { s with pln := { s.pln with selected := true }, own := { s.own with planWasRunning := false } }

/-- With certified grades and no restart the active image is resumed, where that is asked for and there is one; else the standalone case is taken. -/
theorem exec_startSelect_graded (h : StartDue s) (hr : (s.atTime t).restarts = false) (hg : s.baro.passes ≠ 0) : exec (.startSelect t) s =
    if s.flag Fld.OWN_CFG_RESUME = true ∧ s.pln.active ≠ [] then .next (((s.atTime t).selectStart.setFld Fld.OWN_BOOT_STATUS_START 1).beginCopyIn 2 0 1 none)
    else .next (s.atTime t).selectStart.startStandalone :=
  (if_neg (h.atTime t).not_barred).trans ((if_neg (Bool.eq_false_iff.mp hr)).trans (if_neg hg))

/-- The oldest copy is over. -/
def State.endCopy (s : State) (rest : List PlanCopy) : State := { s with pln := { s.pln with copies := rest } }

/-- The oldest copy ends in the library, or as the image in standby, which is verified; or it fails. -/
theorem exec_libraryCopyComplete {c : PlanCopy} {rest : List PlanCopy} {b : Bytes} (ok : Bool) (hc : s.pln.copies = c :: rest)
    (hb : b = if c.kind = 1 then s.pln.library.get [] (c.idx % 16) else s.pln.active) : exec (.libraryCopyComplete ok) s =
    let u := s.endCopy rest
    if c.kind = 0 then .next ({ u with pln := { u.pln with library := s.pln.library.put (c.idx % 16) c.image } }.planDone c.cmd St.success 0 0)
    else if (!ok) = true ∨ b = [] then .next u.copyFails
    else .next { u with pln := { u.pln with standby := b } }.startVerify := by
  show execLibraryCopyComplete ok s = _
  simp only [execLibraryCopyComplete, hc, hb]
  rfl

end

/-- Settles O30, from what each event leaves in each case. -/
theorem planSlotEvents : Obligations.PlanSlotEvents := by
  unfold Obligations.PlanSlotEvents Gives
  refine fun h t s => ⟨fun wh item oks d hv hb hl => ?_, fun code wh item oks d hv hc hb hl => ?_,
    fun code wh item oks hv hb => ⟨fun hc ok => ?_, fun hc no => ?_, fun hc => ?_⟩,
    fun w hw hm hr hd hh => ?_, fun w => exec_swapTimeout, fun unselected booted noPlan free notHeld => ?_,
    fun c rest ok hc => ⟨fun out => ?_, fun b inward hb => ⟨fun supplied held => ?_, fun lost => ?_⟩⟩⟩
  · exact (exec_verifyComplete hv).trans ((if_pos rfl).trans ((if_pos hb).trans (by rw [hl]; rfl)))
  · exact (exec_verifyComplete hv).trans ((if_neg hc).trans ((if_pos hb).trans (by rw [hl]; rfl)))
  · subst hc
    exact (exec_verifyComplete hv).trans ((if_pos rfl).trans ((if_neg hb).trans (if_pos ok)))
  · subst hc
    exact (exec_verifyComplete hv).trans ((if_pos rfl).trans ((if_neg hb).trans (if_neg (Bool.eq_false_iff.mp no))))
  · exact (exec_verifyComplete hv).trans ((if_neg hc).trans (if_neg hb))
  · exact ⟨_, exec_hallReady hw hm hr hd, bitOf_setFld_withBit (by decide) hh, fillBank_swap.trans hw⟩
  · have due : StartDue s := ⟨unselected, booted, noPlan, free, notHeld⟩
    refine ⟨exec_startSelect_restarts due, fun cold graded => ⟨fun resume held => ?_, fun bars => ?_⟩⟩
    · exact (exec_startSelect_graded due cold graded).trans (if_pos ⟨resume, held⟩)
    · refine (exec_startSelect_graded due cold graded).trans (if_neg fun ⟨resume, held⟩ => ?_)
      exact bars.elim (Bool.eq_false_iff.mp · resume) held
  · exact (exec_libraryCopyComplete ok hc rfl).trans (if_pos out)
  · exact (exec_libraryCopyComplete ok hc hb).trans ((if_neg inward).trans (if_neg (by simp only [supplied, held, Bool.not_true, Bool.false_eq_true, or_self, not_false_eq_true])))
  · exact (exec_libraryCopyComplete ok hc hb).trans ((if_neg inward).trans (if_pos (lost.imp_left fun failed => congrArg not failed)))

end Sys2Proof.Machine
end

section
/-! PROOFS. Registers that an operation leaves as they were: host writes and what follows a completion write none of a hall's window, and
a buffer that a device block drops changes nothing in one. -/

namespace Sys2Proof.Machine

/-! ### Registers at addresses of a kind -/

/-- From one state to another the registers at these addresses stand as they were. -/
structure SameAt (P : Nat → Prop) (s t : State) : Prop where
  look_eq : ∀ a, P a → look t.regs a = look s.regs a

section
variable {P : Nat → Prop} {s t u : State}

/-- An update of something else leaves the registers. -/
theorem SameAt.of_regs (h : t.regs = s.regs) : SameAt P s t := ⟨fun _ _ => by rw [h]⟩

theorem SameAt.refl (s : State) : SameAt P s s := .of_regs rfl

theorem SameAt.trans (h : SameAt P s t) (k : SameAt P t u) : SameAt P s u := ⟨fun a ha => (k.look_eq a ha).trans (h.look_eq a ha)⟩

theorem SameAt.ite {c : Prop} [Decidable c] (h : SameAt P s t) (k : SameAt P s u) : SameAt P s (if c then t else u) := by split <;> assumption

/-- A write elsewhere leaves the registers of the kind. -/
theorem SameAt.setFld (h : SameAt P s t) (f : Fld) (v o i : Nat) (hf : ¬ P (f.reg.addr o i)) : SameAt P s (t.setFld f v o i) :=
  ⟨fun a ha => (look_put_ne _ _ _ _ fun e : a = f.reg.addr o i => hf (e ▸ ha)).trans (h.look_eq a ha)⟩

/-- A fold whose steps leave them leaves them. -/
theorem SameAt.foldl {α : Type} {f : State → α → State} {l : List α} (hf : ∀ u, ∀ x ∈ l, SameAt P u (f u x)) : SameAt P s (l.foldl f s) :=
  List.foldlRecOn (motive := SameAt P s) l f (.refl s) fun u hu x hx => hu.trans (hf u x hx)

/-- A field of such a register reads as before. -/
theorem SameAt.fld (h : SameAt P s t) (g : Fld) (o i : Nat) (hg : P (g.reg.addr o i)) : t.fld g o i = s.fld g o i := by
  simp only [State.fld, State.word, h.look_eq _ hg]

theorem SameAt.flag (h : SameAt P s t) (g : Fld) (o i : Nat) (hg : P (g.reg.addr o i)) : t.flag g o i = s.flag g o i := by
  rw [State.flag, h.fld g o i hg, State.flag]

end

/-! ### Writes into host memory and completions -/

section
variable (s : State)

@[simp] theorem emit_regs (x : Out) : (s.emit x).regs = s.regs := by unfold State.emit; split <;> rfl

@[simp] theorem setLogBit_regs (f k : Nat) : (s.setLogBit f k).regs = s.regs := by
  unfold State.setLogBit
  split
  · rfl
  · dsimp only
    split
    · rfl
    · rw [emit_regs]; rfl

@[simp] theorem hostWrite_regs (f a : Nat) (b : Bytes) : (s.hostWrite f a b).regs = s.regs := by
  unfold State.hostWrite
  split
  · exact emit_regs _ _
  · dsimp only
    split
    · exact emit_regs _ _
    split
    · rfl
    · rw [emit_regs]
      exact List.foldlRecOn (motive := fun u : State => u.regs = s.regs) _ _ rfl fun u hu k _ => (setLogBit_regs u f k).trans hu

@[simp] theorem markDone_regs (r : CRec) : (s.markDone r).regs = s.regs := by
  unfold State.markDone
  split
  · split <;> rfl
  · rfl

@[simp] theorem moderate_regs (k : Nat) : (s.moderate k).regs = s.regs := by
  simp only [State.moderate, apply_ite State.regs, irqDue_regs, setCq_regs, ite_self]

@[simp] theorem cqWrite_hostWrite_regs (k : Nat) (r : CRec) : (s.cqWrite State.hostWrite k r).regs = s.regs := by
  unfold State.cqWrite
  rw [moderate_regs, markDone_regs]
  exact (hostWrite_regs _ _ _ _).trans (hostWrite_regs _ _ _ _)

end

/-- The address lies in the window of a hall or of a function. -/
abbrev InWindow (a : Nat) : Prop := 0x10000000 ≤ a

section
variable {s t : State}

/-- A write outside the windows leaves them. -/
theorem SameAt.low (h : SameAt InWindow s t) {f : Fld} {v o i : Nat} (hf : f.reg.addr o i < 0x10000000) : SameAt InWindow s (t.setFld f v o i) :=
  h.setFld f v o i (Nat.not_le.mpr hf)

theorem SameAt.raise (h : SameAt InWindow s t) {f : Fld} {o i : Nat} (hf : f.reg.addr o i < 0x10000000) : SameAt InWindow s (t.raise f o i) := h.low hf
theorem SameAt.bump (h : SameAt InWindow s t) {f : Fld} {o i : Nat} (hf : f.reg.addr o i < 0x10000000) : SameAt InWindow s (t.bump f o i) := h.low hf

/-- So does an update of something else. -/
theorem SameAt.regs {u : State} (h : SameAt InWindow s t) (e : u.regs = t.regs) : SameAt InWindow s u := h.trans (.of_regs e)

/-- Staging a record that no hall makes writes no window. -/
theorem SameAt.stage (h : SameAt InWindow s t) (k : Nat) (r : CRec) : SameAt InWindow s (t.stage k 18 r) := by
  unfold State.stage
  extract_lets c s1 c1 t1 t2 s2
  have kept : SameAt InWindow s s1 := h.regs rfl
  have unshown : s2.showStage 18 = s2 := if_pos (Nat.le_refl 18)
  rw [unshown]
  refine .ite ?_ kept
  have full : SameAt InWindow s t1 := by
    refine .raise (.bump ?_ (by decide)) (by decide)
    exact kept.regs rfl
  exact .ite (full.regs rfl) (full.regs rfl)

/-- A record that no hall makes is posted without a write to a window. -/
theorem SameAt.cqPost (h : SameAt InWindow s t) (k : Nat) (r : CRec) (rsv : Bool) : SameAt InWindow s (t.cqPost k 18 r rsv) := by
  unfold State.cqPost
  extract_lets c c1 s1
  have kept : SameAt InWindow s s1 := h.regs rfl
  exact .ite h (.ite (.ite (kept.regs rfl) (kept.regs (cqWrite_hostWrite_regs ..))) (kept.stage k r))

theorem SameAt.adminDone (h : SameAt InWindow s t) (d : AdminCmd) (status detail opspec info : Nat) :
    SameAt InWindow s (t.adminDone d status detail opspec info) := by
  unfold State.adminDone
  extract_lets _ s1 _ k q q1 s2
  have kept : SameAt InWindow s s2 := h.regs rfl
  exact .ite (h.regs rfl) (.ite (h.regs rfl) (kept.cqPost ..))

theorem SameAt.alm (h : SameAt InWindow s t) (code scope hall kind idx : Nat) (b : Bytes) : SameAt InWindow s (t.alm code scope hall kind idx b) :=
  .ite (.raise (.bump h (by decide)) (by decide)) (h.regs rfl)

theorem SameAt.almDev (h : SameAt InWindow s t) (code : Nat) (b : Bytes) : SameAt InWindow s (t.almDev code b) := h.alm code 5 0xFF 0 0 b

/-! ### A device block drops a buffer (R331) -/

theorem headerWrite_regs (s : State) (r : Region) (a : Nat) (b : Bytes) : (s.headerWrite r a b).regs = s.regs := by
  unfold State.headerWrite
  split
  · rfl
  · rfl
  · exact hostWrite_regs ..

theorem SameAt.showPools (h : SameAt InWindow s t) : SameAt InWindow s t.showPools := by
  unfold State.showPools
  extract_lets total used s1 bytes
  have classes : SameAt InWindow t s1 := .foldl fun u c hc => by
    have := List.mem_range.mp hc
    refine .low (.low (.refl u) ?_) ?_
    · show 0x5000100 + 0 * 0 + 8 * c < _; omega
    · show 0x5000104 + 0 * 0 + 8 * c < _; omega
  exact .low (.low (.low (h.trans classes) (by decide)) (by decide)) (by decide)

theorem SameAt.finishOwner (h : SameAt InWindow s t) (o : Nat) : SameAt InWindow s (t.finishOwner o) := by
  unfold State.finishOwner
  extract_lets w
  split
  · refine .ite (.adminDone ?_ ..) h
    exact h.regs rfl
  · exact h

/-- A buffer becomes free without a write to a window. -/
theorem SameAt.freeBuffer (h : SameAt InWindow s t) (n : Nat) (r : Region) (id : Nat) (x : Header) : SameAt InWindow s (t.freeBuffer n r id x) := by
  unfold State.freeBuffer
  extract_lets k p toStock s1 s2 o s3 w q live w1 w2 s4
  have put : s1.regs = t.regs := headerWrite_regs t r (r.headerAt id) _
  clear_value s1
  have kept : SameAt InWindow s s4 := h.regs put
  exact .finishOwner (.showPools (.bump kept (by decide))) _

theorem SameAt.badRelease (h : SameAt InWindow s t) (id status fn o : Nat) : SameAt InWindow s (t.badRelease id status fn o) := by
  unfold State.badRelease
  extract_lets s1
  have counted : SameAt InWindow s s1 := .ite (.bump h (by decide)) (.bump h (by decide))
  refine .ite counted (.almDev ?_ ..)
  exact counted.regs rfl

theorem SameAt.noteRefFault (h : SameAt InWindow s t) (id status : Nat) (f : Option Nat) : SameAt InWindow s (t.noteRefFault id status f) := by
  unfold State.noteRefFault
  extract_lets s1
  have corrupt : SameAt InWindow s s1 := .ite (.bump (.raise h (by decide)) (by decide)) h
  refine .ite corrupt ?_
  split
  · exact corrupt.badRelease ..
  · refine .badRelease ?_ ..
    exact corrupt.regs rfl

/-- Dropping a buffer writes no window. -/
theorem SameAt.drop (h : SameAt InWindow s t) (id : Nat) : SameAt InWindow s (t.drop id) := by
  unfold State.drop State.release
  split
  next st _ _ => exact h.noteRefFault id _ none
  · exact h
  · extract_lets x
    rw [apply_ite Prod.fst]
    exact .ite (h.freeBuffer ..) (h.regs (headerWrite_regs ..))

end

end Sys2Proof.Machine
end

section
/-! PROOFS. The ops of tread programs (R95, R98, R99): when an op of a slot issues, what its issue leaves of the hall's sequencer, and the hall's pointers
(R103, R111, R119). -/

open Sys2Proof.Spec

namespace Sys2Proof.Machine

/-! ### The issue of an op -/

section
variable {s : State} {h j slot opc o n : Nat} {q : SeqSt}

/-- An op that its slot holds and that has not issued is taken. -/
theorem takeOp_of_issues (hi : Issues s h slot opc o) : s.takeOp h slot opc = some (o, issued s h slot o) := by
  obtain ⟨running, rfl, there, code⟩ := hi
  exact if_pos ⟨running, there, code⟩

/-- Without such an op none is taken. -/
theorem takeOp_of_none (hn : ∀ o, ¬ Issues s h slot opc o) : s.takeOp h slot opc = none :=
  if_neg fun ⟨running, there, code⟩ => hn _ ⟨running, rfl, there, code⟩

/-- A hall at which an op issues has one of the 18 numbers. -/
theorem lt_of_issues (hi : Issues s h slot opc o) : h < 18 := lt_of_running hi.1

/-- The sequencers of other halls are left. -/
theorem seq_setSeq_ne (hj : j ≠ h) : (s.setSeq h q).seq j = s.seq j := Tbl.get_put_ne _ _ _ _ _ hj

theorem seq_issued : (issued s h slot o).seq h = { s.seq h with ops := (s.seq h).ops.set slot 0 } := seq_setSeq s h _

theorem seq_issued_ne (hj : j ≠ h) : (issued s h slot o).seq j = s.seq j := seq_setSeq_ne hj

@[simp] theorem fld_issued (g : Fld) (a b : Nat) : (issued s h slot o).fld g a b = s.fld g a b := rfl

/-- Occupying a block changes only until when the hall is busy. -/
theorem seq_occupy : (s.occupy h o n).seq h =
    { s.seq h with busy := max (s.seq h).busy (clockAt (s.seq h).start (Plan.offset o + n) (s.clocks h)) } := seq_setSeq s h _

theorem seq_occupy_ne (hj : j ≠ h) : (s.occupy h o n).seq j = s.seq j := seq_setSeq_ne hj

end

/-- Settles O12: each row of an op starts by taking its op. -/
theorem opRowNeedsItsOp : Obligations.OpRowNeedsItsOp := by
  unfold Obligations.OpRowNeedsItsOp Gives
  intro c h slot opc s row none_
  have none_ := takeOp_of_none none_
  unfold opRow at row
  split at row <;> cases row <;> delta exec <;>
    simp only [execOpNop, execMove, execRefresh, execSetptr, execWin, execDmaOp, execBufOpAlloc, execBufOpHand, execBufOpRelease, execRfx, execWake, execCtx,
      execCrx, execEvtOp, execSkipOp, execLand, none_]

/-! ### Pointer registers (R103, R111) -/

/-- The address lies below the pointer registers of the hall. -/
def BelowPtrs (h a : Nat) : Prop := a < 0x10000100 + 0x1000000 * h

section
variable {s t : State} {f g : Fld} {h k e a v i j : Nat} {b : Option Nat}

/-- A field beside g in the same word. -/
abbrev Beside (f g : Fld) : Prop := g.reg = f.reg ∧ f.InWord ∧ (f.hi < g.lo ∨ g.hi < f.lo)

theorem fld_setFld_beside (h : Beside f g) : (s.setFld f v j i).fld g j i = s.fld g j i :=
  fld_setFld_word s f g v j i h.1 h.2.1.1 h.2.1.2 h.2.2

/-- A field that was stored reads back, cut to its width. -/
theorem fld_setFld_same (hf : f.InWord) : (s.setFld f v j i).fld f j i = v % 2 ^ (f.hi + 1 - f.lo) := fld_setFld s f v j i hf.1 hf.2

theorem addr_ptrLo : Reg.addr .TSQ_PTR_LO h k = 0x10000100 + 0x1000000 * h + 8 * k := rfl
theorem addr_ptrHi : Reg.addr .TSQ_PTR_HI h k = 0x10000104 + 0x1000000 * h + 8 * k := rfl
theorem addr_ptrBuf : Reg.addr .TSQ_PTRBUF h k = 0x10000180 + 0x1000000 * h + 4 * k := rfl

/-- A pointer of a hall is written without a write below the hall's pointers. -/
theorem SameAt.setPtr (hs : SameAt (BelowPtrs h) s t) (k e a : Nat) (b : Option Nat) : SameAt (BelowPtrs h) s (t.setPtr h k e a b) := by
  have lo : ¬ BelowPtrs h (Reg.addr .TSQ_PTR_LO h k) := by rw [BelowPtrs, addr_ptrLo]; omega
  have hi : ¬ BelowPtrs h (Reg.addr .TSQ_PTR_HI h k) := by rw [BelowPtrs, addr_ptrHi]; omega
  have buf : ¬ BelowPtrs h (Reg.addr .TSQ_PTRBUF h k) := by rw [BelowPtrs, addr_ptrBuf]; omega
  unfold State.setPtr
  refine .setFld (.setFld (.setFld (.setFld (.setFld (.setFld hs _ _ h k ?_) _ _ h k ?_) _ _ h k ?_) _ _ h k ?_) _ _ h k ?_) _ _ h k ?_
  exacts [lo, hi, hi, hi, hi, buf]

section
variable (hk : k < 16)
include hk

/-- The words of a pointer of a hall stand at different addresses. -/
theorem ptr_words_apart : Reg.addr .TSQ_PTR_LO h k ≠ Reg.addr .TSQ_PTR_HI h k ∧ Reg.addr .TSQ_PTR_LO h k ≠ Reg.addr .TSQ_PTRBUF h k ∧
    Reg.addr .TSQ_PTR_HI h k ≠ Reg.addr .TSQ_PTRBUF h k := by
  rw [addr_ptrLo, addr_ptrHi, addr_ptrBuf]; omega

theorem ptrEndp_setPtr : (s.setPtr h k e a b).ptrEndp h k = e % 64 := by
  obtain ⟨-, -, apart⟩ := ptr_words_apart (h := h) hk
  rw [State.ptrEndp, State.setPtr, fld_setFld_ne _ Fld.TSQ_PTRBUF_BUFFER_ID Fld.TSQ_PTR_HI_ENDPOINT _ _ _ _ _ apart]
  simp (disch := decide) only [fld_setFld_beside, fld_setFld_same]
  rfl

theorem ptrValid_setPtr : (s.setPtr h k e a b).flag Fld.TSQ_PTR_HI_VALID h k = decide (e ≠ 0x3F) := by
  obtain ⟨-, -, apart⟩ := ptr_words_apart (h := h) hk
  rw [State.flag, State.setPtr, fld_setFld_ne _ Fld.TSQ_PTRBUF_BUFFER_ID Fld.TSQ_PTR_HI_VALID _ _ _ _ _ apart]
  simp (disch := decide) only [fld_setFld_beside, fld_setFld_same]
  by_cases he : e = 0x3F <;> simp [he, Fld.TSQ_PTR_HI_VALID]

theorem ptrBuf_setPtr : (s.setPtr h k e a b).ptrBuf h k = b.map (· % 2 ^ 32) := by
  obtain ⟨-, -, apart⟩ := ptr_words_apart (h := h) hk
  have held : (s.setPtr h k e a b).flag Fld.TSQ_PTR_HI_BUFFER h k = b.isSome := by
    rw [State.flag, State.setPtr, fld_setFld_ne _ Fld.TSQ_PTRBUF_BUFFER_ID Fld.TSQ_PTR_HI_BUFFER _ _ _ _ _ apart]
    simp (disch := decide) only [fld_setFld_same]
    cases b <;> rfl
  have num : (s.setPtr h k e a b).fld Fld.TSQ_PTRBUF_BUFFER_ID h k = b.getD 0 % 2 ^ 32 := fld_setFld _ _ _ _ _ (by decide) (by decide)
  rw [State.ptrBuf, held, num]
  cases b <;> rfl

theorem ptrAddr_setPtr : (s.setPtr h k e a b).ptrAddr h k = a % 2 ^ 39 := by
  obtain ⟨low, lowBuf, apart⟩ := ptr_words_apart (h := h) hk
  have lo : (s.setPtr h k e a b).fld Fld.TSQ_PTR_LO_ADDRESS h k = a % 2 ^ 32 := by
    have later : SameAt (· = Reg.addr .TSQ_PTR_LO h k) (s.setFld Fld.TSQ_PTR_LO_ADDRESS a h k) (s.setPtr h k e a b) :=
      .setFld (.setFld (.setFld (.setFld (.setFld (.refl _) _ _ h k low.symm) _ _ h k low.symm) _ _ h k low.symm) _ _ h k low.symm) _ _ h k lowBuf.symm
    rw [later.fld _ _ _ rfl]
    exact fld_setFld _ _ _ _ _ (by decide) (by decide)
  have hi : (s.setPtr h k e a b).fld Fld.TSQ_PTR_HI_ADDRESS h k = a / 2 ^ 32 % 2 ^ 7 := by
    rw [State.setPtr, fld_setFld_ne _ Fld.TSQ_PTRBUF_BUFFER_ID Fld.TSQ_PTR_HI_ADDRESS _ _ _ _ _ apart]
    simp (disch := decide) only [fld_setFld_beside, fld_setFld_same]
    rfl
  rw [State.ptrAddr, lo, hi]
  omega

end

/-! ### Results of ALLOCs (R101, R119) -/

theorem SameAt.allocLand (hs : SameAt (BelowPtrs h) s t) (x : Alloc) : SameAt (BelowPtrs h) s (t.allocLand h x) := by
  unfold State.allocLand
  split
  · exact hs.setPtr ..
  · refine .setPtr (hs.trans (.of_regs ?_)) ..
    rfl

/-- Results of ALLOCs are written without a write below the hall's pointers. -/
theorem sameAt_allocsLand : SameAt (BelowPtrs h) s (s.allocsLand h) := by
  unfold State.allocsLand
  refine .trans (.of_regs ?_) (.foldl fun u x _ => (SameAt.refl u).allocLand x)
  rfl

end
end Sys2Proof.Machine
end

section
/-! PROOFS. The ops of tread programs that move no data (R96, R111, R112, R121 to R128), and the start of a kernel (R121, R163, R182). -/

open Sys2Proof.Spec

namespace Sys2Proof.Machine

section
variable {s : State} {f : Fld} {h k o i j slot : Nat}

/-- A counter that was counted up. -/
theorem fld_bump_same (hf : f.InWord) : (s.bump f j i).fld f j i = (s.fld f j i + 1) % 2 ^ (f.hi + 1 - f.lo) := fld_setFld_same hf

/-! ### NOP, SKIP and LAND (R96, R98, R128) -/

theorem exec_opNop (hi : Issues s h slot 0 o) : exec (.opNop h slot) s = .next (issued s h slot o) := by
  show execOpNop h slot s = _
  rw [execOpNop, takeOp_of_issues hi]

theorem exec_skipOp (hi : Issues s h 3 0x55 o) : exec (.skipOp h) s = .next (issued s h 3 o) := by
  show execSkipOp h s = _
  rw [execSkipOp, takeOp_of_issues hi]

theorem exec_land (hi : Issues s h 3 0x56 o) : exec (.land h) s = .next (issued s h 3 o) := by
  show execLand h s = _
  rw [execLand, takeOp_of_issues hi]

/-! ### SETPTR (R111) -/

theorem exec_setptr (hi : Issues s h 0 0x12 o) : exec (.setptr h) s = .next
    ((((pointersAt s h 0 o).notePtr h (bitsOf o 48 45) o).orphan h (bitsOf o 48 45)).setPtr h (bitsOf o 48 45) (bitsOf o 44 39) (bitsOf o 38 0) none) := by
  show execSetptr h s = _
  rw [execSetptr, takeOp_of_issues hi]
  rfl

/-- A pointer that holds no buffer leaves none behind. -/
theorem orphan_of_none (hb : s.ptrBuf h k = none) : s.orphan h k = s := by rw [State.orphan, hb]

/-- A buffer that a pointer still holds is counted. -/
theorem orphan_count : (s.orphan h k).fld Fld.TSQ_CNT_ORPHAN_COUNT h =
    if (s.ptrBuf h k).isSome then (s.fld Fld.TSQ_CNT_ORPHAN_COUNT h + 1) % 2 ^ 32 else s.fld Fld.TSQ_CNT_ORPHAN_COUNT h := by
  unfold State.orphan
  cases s.ptrBuf h k with
  | none => rfl
  | some id =>
    have window : InWindow (Fld.TSQ_CNT_ORPHAN_COUNT.reg.addr h 0) := by show _ ≤ 0x1000002c + 0x1000000 * h + 0 * 0; omega
    exact (((SameAt.refl _).drop id).fld _ _ _ window).trans (fld_bump_same (by decide))

/-- A field fits its word. -/
theorem fld_lt (g : Fld) : s.fld g j i < 2 ^ (g.hi + 1 - g.lo) := bitsOf_lt ..

theorem belowPtrs_orphan : BelowPtrs h (Fld.TSQ_CNT_ORPHAN_COUNT.reg.addr h 0) := by
  show 0x1000002c + 0x1000000 * h + 0 * 0 < _
  omega

/-- SETPTR counts the buffer that its pointer still held. -/
theorem setptr_orphans (e a : Nat) : let u := pointersAt s h 0 o
    (((u.notePtr h k o).orphan h k).setPtr h k e a none).fld Fld.TSQ_CNT_ORPHAN_COUNT h =
      (s.fld Fld.TSQ_CNT_ORPHAN_COUNT h + b2n (u.ptrBuf h k).isSome) % 2 ^ 32 := by
  intro u
  have before : u.fld Fld.TSQ_CNT_ORPHAN_COUNT h = s.fld Fld.TSQ_CNT_ORPHAN_COUNT h := sameAt_allocsLand.fld _ _ _ belowPtrs_orphan
  have small : s.fld Fld.TSQ_CNT_ORPHAN_COUNT h < 2 ^ 32 := fld_lt _
  have noted : (u.notePtr h k o).fld Fld.TSQ_CNT_ORPHAN_COUNT h = u.fld Fld.TSQ_CNT_ORPHAN_COUNT h := rfl
  have held : (u.notePtr h k o).ptrBuf h k = u.ptrBuf h k := rfl
  rw [((SameAt.refl _).setPtr k e a none).fld _ _ _ belowPtrs_orphan, orphan_count, noted, held, before]
  cases u.ptrBuf h k with
  | none => exact (Nat.mod_eq_of_lt small).symm
  | some id => rfl

/-! ### WIN, WAKE and EVT (R112, R122, R126) -/

/-- The windows that a WIN gives the tread. -/
def winOf (o : Nat) : Win :=
  { start := Plan.offset o, rx := bitsOf o 48 41, flow := bitsOf o 40 29, fl := bitsOf o 28 21, op := bitsOf o 20 13, next := Plan.offset o, rank := 0, turn := 0, seen := none }

theorem exec_win (hi : Issues s h 1 0x20 o) : ∃ n, exec (.win h) s = .next
    (((issued s h 1 o).occupy h o n).setSeq h { ((issued s h 1 o).occupy h o n).seq h with win := winOf o }) := by
  refine ⟨bitsOf o 48 41 + bitsOf o 28 21 + bitsOf o 20 13, ?_⟩
  show execWin h s = _
  rw [execWin, takeOp_of_issues hi]
  rfl

/-- A wake is scheduled for the landing l of flight f. -/
def State.wakeAt (s : State) (l f : Nat) : State := { s with pln := { s.pln with wakes := s.pln.wakes.put l (f :: s.pln.wakes.get [] l) } }

theorem exec_wake {a b period phase e : Nat} (hi : Issues s h 3 0x51 o) (hw : Plan.wakeOf s.pln.active (bitsOf o 48 45) = some (a, b, period, phase, e)) :
    let f := (issued s h 3 o).flightNow + bitsOf o 44 29
    exec (.wake h) s = .next (if Plan.phaseAt f phase period = 0 then (issued s h 3 o).wakeAt (bitsOf o 48 45) f else issued s h 3 o) := by
  have there : Plan.wakeOf (issued s h 3 o).pln.active (bitsOf o 48 45) = some (a, b, period, phase, e) := hw
  show execWake h s = _
  simp only [execWake, takeOp_of_issues hi, there, apply_ite Host.Outcome.next]
  rfl

theorem exec_evtOp (hi : Issues s h 3 0x54 o) : exec (.evtOp h) s = .next
    ((issued s h 3 o).setLand (bitsOf o 48 44) { s.land (bitsOf o 48 44) with acts := (s.land (bitsOf o 48 44)).acts ++
      [{ time := (s.seq h).start + 6553600 + bitsOf o 40 34 * 65536, act := bitsOf o 43 41, width := bitsOf o 33 18, kernel := false, hall := h }] }) := by
  show execEvtOp h s = _
  simp only [execEvtOp, takeOp_of_issues hi, seq_issued]
  rfl

@[simp] theorem land_setLand (l : LandSt) : (s.setLand k l).land k = l := Tbl.get_put_same ..
theorem land_setLand_ne (l : LandSt) (hj : j ≠ k) : (s.setLand k l).land j = s.land j := Tbl.get_put_ne _ _ _ _ _ hj

/-! ### CTX and CRX (R123, R125) -/

/-- The window that a CTX opens. -/
def ctxWindow (s : State) (h o : Nat) : CtxWin :=
  { hall := h, pool := bitsOf o 48 33, first := bitsOf o 32 17, count := ctxCount o, pace := bitsOf o 8 0,
    base := clockAt (s.seq h).start (Plan.offset o) (s.clocks h), flight := (issued s h 3 o).flightNow, next := 0 }

/-- The clocks for which a CTX occupies its block, to the last emission. -/
def ctxSpan (s : State) (h o : Nat) : Nat :=
  let segs := match s.poolRec (bitsOf o 48 33) with | some p => p.segs | none => 1
  (ctxCount o * segs - 1) * bitsOf o 8 0 * 25 * s.clocks h / 100 + 1

theorem start_issued : ((issued s h slot o).seq h).start = (s.seq h).start := by rw [seq_issued]

theorem exec_ctx (hi : Issues s h 3 0x52 o) : let u := (issued s h 3 o).occupy h o (ctxSpan (issued s h 3 o) h o)
    exec (.ctx h) s = .next { u with cyc := { u.cyc with wins := s.cyc.wins ++ [ctxWindow s h o] } } := by
  show execCtx h s = _
  rw [execCtx, takeOp_of_issues hi, ctxWindow, ← start_issued (o := o) (slot := 3)]
  rfl

/-- The window that a CRX opens. -/
def crxWindow (s : State) (h o : Nat) : CrxWin :=
  { flight := (issued s h 3 o).flightNow, start := clockAt (s.seq h).start (Plan.offset o) (s.clocks h),
    deadline := (s.seq h).start + bitsOf o 32 13 * 6553600, done := false }

theorem exec_crx (hi : Issues s h 3 0x53 o) : let u := issued s h 3 o
    exec (.crx h) s = .next { u with cyc := { u.cyc with crx := s.cyc.crx.put (h * 65536 + bitsOf o 48 33) (crxWindow s h o) } } := by
  show execCrx h s = _
  rw [execCrx, takeOp_of_issues hi, crxWindow, ← start_issued (o := o) (slot := 3)]
  rfl

end

/-- Settles O13: each op's row is the op's own effect on the state in which it has issued. -/
theorem treadProgramOps : Obligations.TreadProgramOps := by
  unfold Obligations.TreadProgramOps Gives
  refine fun h o s => ⟨fun slot => exec_opNop, exec_skipOp, exec_land, fun hi => ⟨fun free => ?_, _, exec_setptr hi, ?_, ?_, ?_, ?_, setptr_orphans _ _⟩, fun hi => ?_,
    fun a b period phase e hi hw => ?_, fun hi => ?_, fun hi => ?_, fun hi => ?_⟩
  · rw [exec_setptr hi, orphan_of_none (s := State.notePtr ..) free]
  · exact (ptrEndp_setPtr (bitsOf_lt ..)).trans (Nat.mod_eq_of_lt (bitsOf_lt ..))
  · exact (ptrAddr_setPtr (bitsOf_lt ..)).trans (Nat.mod_eq_of_lt (bitsOf_lt ..))
  · exact ptrValid_setPtr (bitsOf_lt ..)
  · exact ptrBuf_setPtr (bitsOf_lt ..)
  · obtain ⟨n, run⟩ := exec_win hi
    exact ⟨_, run, by rw [seq_setSeq]; rfl, fun j hj => (seq_setSeq_ne hj).trans ((seq_occupy_ne hj).trans (seq_issued_ne hj)), rfl⟩
  · refine ⟨_, exec_wake hi hw, ?_, fun j hj => ?_⟩ <;> split
    · exact Tbl.get_put_same ..
    · rfl
    · exact Tbl.get_put_ne _ _ _ _ _ hj
    · rfl
  · exact ⟨_, exec_evtOp hi, by rw [land_setLand], fun k hk => land_setLand_ne _ hk, rfl⟩
  · exact ⟨_, exec_ctx hi, rfl⟩
  · exact ⟨_, exec_crx hi, look_put_same ..⟩

end Sys2Proof.Machine
end

section
/-! PROOFS. The start of a kernel on a core (R121, R163, R182), the end of its budget (R183), and refreshes (R110, R153 to R155). -/

open Sys2Proof.Spec

namespace Sys2Proof.Machine

/-- The address lies below the registers of faults and of the Almanac. -/
abbrev BelowFaults (a : Nat) : Prop := a < 0x7000000

section
variable {s t : State} {f : Fld} {h c k l o i j r x budget : Nat}

/-! ### What an Almanac entry leaves -/

/-- π shows neither the registers nor the cores nor the Almanac's queue. -/
structure Aside {α : Type} (π : State → α) : Prop where
  regs : ∀ s r, π { s with regs := r } = π s
  flt : ∀ s f, π { s with flt := f } = π s
  cores : ∀ s c, π { s with cores := c } = π s

/-- An Almanac entry changes registers and the Almanac's queue. -/
theorem alm_unseen {α : Type} {π : State → α} (hr : ∀ s r, π { s with regs := r } = π s) (hf : ∀ s f, π { s with flt := f } = π s)
    (code scope hall kind idx : Nat) (b : Bytes) : π (s.alm code scope hall kind idx b) = π s := by
  unfold State.alm; split
  · exact (hr _ _).trans (hr _ _)
  · exact hf _ _

theorem SameAt.almAside {P : Nat → Prop} (hc : ¬ P (Reg.addr .ALM_CNT_LOST 0 0)) (hf : ¬ P (Reg.addr .ALM_STATUS 0 0)) (hs : SameAt P s t)
    (code scope hall kind idx : Nat) (b : Bytes) : SameAt P s (t.alm code scope hall kind idx b) :=
  .ite (.setFld (.setFld hs _ _ _ _ hc) _ _ _ _ hf) (hs.trans (.of_regs rfl))

theorem SameAt.almBelow (hs : SameAt BelowFaults s t) (code scope hall kind idx : Nat) (b : Bytes) : SameAt BelowFaults s (t.alm code scope hall kind idx b) :=
  hs.almAside (by decide) (by decide) ..

/-! ### The end of a budget (R182 to R184) -/

theorem addr_rfxStatus : Reg.addr .RFX_STATUS h i = 0x10000400 + 0x1000000 * h + 0 * i := rfl
theorem addr_rfxCore : Reg.addr .RFX_CORE h c = 0x10000410 + 0x1000000 * h + 4 * c := rfl
theorem addr_rfxAbortInfo : Reg.addr .RFX_ABORT_INFO h i = 0x10000420 + 0x1000000 * h + 0 * i := rfl
theorem addr_rfxAbortTread : Reg.addr .RFX_ABORT_TREAD h i = 0x10000424 + 0x1000000 * h + 0 * i := rfl
theorem addr_rfxAborts : Reg.addr .RFX_CNT_ABORT h c = 0x10000440 + 0x1000000 * h + 4 * c := rfl

/-- A kernel's abort writes the registers of its hall's cores and the Almanac's. -/
theorem SameAt.kernelAbort (hs : SameAt BelowFaults s t) (h c r at_ : Nat) : SameAt BelowFaults s (t.kernelAbort h c r at_) := by
  have core (g : Fld) (hg : g.reg = .RFX_CORE) : ¬ BelowFaults (g.reg.addr h c) := by rw [hg, addr_rfxCore, BelowFaults]; omega
  have info (g : Fld) (hg : g.reg = .RFX_ABORT_INFO) : ¬ BelowFaults (g.reg.addr h 0) := by rw [hg, addr_rfxAbortInfo, BelowFaults]; omega
  have count : ¬ BelowFaults (Reg.addr .RFX_CNT_ABORT h c) := by rw [addr_rfxAborts, BelowFaults]; omega
  have status : ¬ BelowFaults (Reg.addr .RFX_STATUS h 0) := by rw [addr_rfxStatus, BelowFaults]; omega
  have tread : ¬ BelowFaults (Reg.addr .RFX_ABORT_TREAD h 0) := by rw [addr_rfxAbortTread, BelowFaults]; omega
  unfold State.kernelAbort
  extract_lets m k i at_ s1 s2 s3 s4 s5
  have counted : SameAt BelowFaults s s2 := by
    refine .setFld (.setFld (.setFld (.setFld (.setFld hs _ _ _ _ ?_) _ _ _ _ ?_) _ _ _ _ ?_) _ _ _ _ ?_) _ _ _ _ ?_
    exacts [core _ rfl, core _ rfl, core _ rfl, count, status]
  have dated : SameAt BelowFaults s s4 := by
    refine .setFld (.setFld (.setFld (.setFld (.setFld counted _ _ _ _ ?_) _ _ _ _ ?_) _ _ _ _ ?_) _ _ _ _ ?_) _ _ _ _ ?_
    exacts [info _ rfl, info _ rfl, info _ rfl, info _ rfl, tread]
  have emptied : SameAt BelowFaults s s5 := by
    clear_value s4
    exact dated.trans (.of_regs rfl)
  exact .ite emptied (emptied.almBelow ..)

/-- So does the end of a budget. -/
theorem SameAt.endBudget (hs : SameAt BelowFaults s t) (h c x : Nat) : SameAt BelowFaults s (t.endBudget h c x) := by
  have status : ¬ BelowFaults (Reg.addr .RFX_STATUS h 0) := by rw [addr_rfxStatus, BelowFaults]; omega
  exact .ite (.setFld (.ite (hs.kernelAbort ..) hs) _ _ _ _ status) hs

section
variable {α : Type} {π : State → α} (hπ : Aside π)
include hπ

/-- An abort changes registers, its core and the Almanac's queue. -/
theorem Aside.kernelAbort (r x : Nat) : π (s.kernelAbort h c r x) = π s := by
  unfold State.kernelAbort
  extract_lets m k i at_ s1 s2 s3 s4 s5
  have h1 : π s1 = π s := (hπ.regs _ _).trans ((hπ.regs _ _).trans (hπ.regs _ _))
  have h2 : π s2 = π s1 := (hπ.regs _ _).trans (hπ.regs _ _)
  have h3 : π s3 = π s2 := (hπ.regs _ _).trans ((hπ.regs _ _).trans (hπ.regs _ _))
  have h4 : π s4 = π s3 := (hπ.regs _ _).trans (hπ.regs _ _)
  have h5 : π s5 = π s := (hπ.cores _ _).trans (h4.trans (h3.trans (h2.trans h1)))
  split
  · exact h5
  · exact (alm_unseen hπ.regs hπ.flt ..).trans h5

/-- So does the end of a budget. -/
theorem Aside.endBudget (x : Nat) : π (s.endBudget h c x) = π s := by
  unfold State.endBudget
  extract_lets s1
  have h1 : π s1 = π s := by
    show π (if _ then _ else _) = _
    split
    · exact hπ.kernelAbort ..
    · rfl
  split
  · exact (hπ.regs _ _).trans h1
  · rfl

end

/-- The flight stands as it did. -/
theorem flightNow_endBudget (x : Nat) : (s.endBudget h c x).flightNow = s.flightNow := by
  have kept : SameAt BelowFaults s (s.endBudget h c x) := (SameAt.refl s).endBudget h c x
  have active : (s.endBudget h c x).fld Fld.PLN_ACTIVE_STATUS_STATE = s.fld Fld.PLN_ACTIVE_STATUS_STATE := kept.fld _ _ _ (by decide)
  have length : (s.endBudget h c x).fld Fld.TB_FLIGHT_LEN_L = s.fld Fld.TB_FLIGHT_LEN_L := kept.fld _ _ _ (by decide)
  have now : (s.endBudget h c x).now = s.now := Aside.endBudget ⟨fun _ _ => rfl, fun _ _ => rfl, fun _ _ => rfl⟩ x
  have plan : (s.endBudget h c x).pln = s.pln := Aside.endBudget ⟨fun _ _ => rfl, fun _ _ => rfl, fun _ _ => rfl⟩ x
  rw [State.flightNow, State.planActive, State.flightLen, State.treadsSince, State.origin, active, length, now, plan]
  rfl

/-! ### The start of a kernel (R121, R163) -/

/-- A core as a kernel starts on it. -/
def startedCore (u : State) (q : SeqSt) (h c k l o budget : Nat) : RCore :=
  { w := [(1, BitVec.ofNat 32 u.flightNow), (2, BitVec.ofNat 32 q.tread), (3, BitVec.ofNat 32 (k * 65536 + l * 256 + c))],
    start := q.start, issue := Plan.offset o, tread := q.tread, budget := budget, rate := u.clocks h, logged := (u.rcore h c).logged }

/-- The registers of a hall show that a kernel runs on a core. -/
def State.showStart (s : State) (h c k : Nat) : State :=
  (((s.setFld Fld.RFX_STATUS_BUSY (withBit (s.fld Fld.RFX_STATUS_BUSY h) c true) h).setFld Fld.RFX_CORE_KERNEL k h c).setFld Fld.RFX_CORE_RUNNING 1 h c).setFld
    Fld.RFX_CORE_INDEX 0 h c

theorem rfx_words_apart : Reg.addr .RFX_CORE h c ≠ Reg.addr .RFX_STATUS h 0 := by rw [addr_rfxCore, addr_rfxStatus]; omega

theorem running_showStart : (s.showStart h c k).flag Fld.RFX_CORE_RUNNING h c = true := by
  rw [State.flag, State.showStart]
  simp (disch := decide) only [fld_setFld_beside, fld_setFld_same]
  rfl

theorem kernel_showStart : (s.showStart h c k).fld Fld.RFX_CORE_KERNEL h c = k % 256 := by
  rw [State.showStart]
  simp (disch := decide) only [fld_setFld_beside, fld_setFld_same]
  rfl

theorem index_showStart : (s.showStart h c k).fld Fld.RFX_CORE_INDEX h c = 0 := by
  rw [State.showStart]
  simp (disch := decide) only [fld_setFld_same]
  rfl

/-- A bit that was written in a field reads as it was written. -/
theorem bitOf_fld_withBit {v : Nat} {b : Bool} (hf : f.InWord) (hc : c < f.hi + 1 - f.lo) : bitOf ((s.setFld f (withBit v c b) j i).fld f j i) c = b := by
  rw [fld_setFld_same hf, bitOf_eq_testBit, Nat.testBit_mod_two_pow, withBit, testBit_putBits _ _ _ _ _ le_rfl]
  cases b <;> simp [hc, b2n]

theorem busy_showStart (hc : c < 4) : (s.showStart h c k).coreBusy h c = true := by
  have beside (u : State) (g : Fld) (v : Nat) (hg : g.reg = .RFX_CORE) : (u.setFld g v h c).fld Fld.RFX_STATUS_BUSY h = u.fld Fld.RFX_STATUS_BUSY h :=
    fld_setFld_ne u g Fld.RFX_STATUS_BUSY v h c h 0 (by rw [hg]; exact rfx_words_apart.symm)
  rw [State.coreBusy, State.showStart, beside _ _ _ rfl, beside _ _ _ rfl, beside _ _ _ rfl]
  exact bitOf_fld_withBit (by decide) hc

theorem rcore_setCore {m : RCore} : (s.setCore h c m).rcore h c = m := Tbl.get_put_same ..

/-- The state as the kernel of an RFX has started. -/
def State.startKernel (v : State) (h o budget : Nat) : State :=
  let c := bitsOf o 48 47
  let k := bitsOf o 46 39
  let u := v.endBudget h c v.now
  (((u.setCore h c (startedCore u (v.seq h) h c k (v.fld Fld.TSQ_STATE_LOGICAL h) o budget)).occupy h o budget).bump Fld.RFX_CNT_DISPATCH_COUNT h c).showStart h c k

theorem exec_rfx {a b n : Nat} (hi : Issues s h 3 0x50 o)
    (hk : Plan.kernel s.pln.active (s.fld Fld.TSQ_STATE_LOGICAL h) (bitsOf o 46 39) = some (a, b, n, budget)) :
    exec (.rfx h) s = .next ((issued s h 3 o).startKernel h o budget) := by
  have there : Plan.kernel (issued s h 3 o).pln.active ((issued s h 3 o).fld Fld.TSQ_STATE_LOGICAL h) (bitsOf o 46 39) = some (a, b, n, budget) := hk
  show execRfx h s = _
  simp only [execRfx, takeOp_of_issues hi, there]
  unfold State.startKernel startedCore State.showStart
  rfl

end

/-- Settles O14: what the registers and the core hold once the kernel has started. -/
theorem rfxDispatchesKernel : Obligations.RfxDispatchesKernel := by
  unfold Obligations.RfxDispatchesKernel Gives
  intro h o s a b n budget hi hk c k
  have hc : c < 4 := bitsOf_lt o 48 47
  refine ⟨_, exec_rfx hi hk, ?_⟩
  unfold State.startKernel
  extract_lets u
  have flight : u.flightNow = (issued s h 3 o).flightNow := flightNow_endBudget ..
  have start : (issued s h 3 o).seq h = _ := seq_issued
  generalize (issued s h 3 o).seq h = q at start ⊢
  clear_value u
  have core : ((((u.setCore h c (startedCore u q h c k (s.fld Fld.TSQ_STATE_LOGICAL h) o budget)).occupy h o budget).bump
      Fld.RFX_CNT_DISPATCH_COUNT h c).showStart h c k).rcore h c = startedCore u q h c k (s.fld Fld.TSQ_STATE_LOGICAL h) o budget := rcore_setCore
  refine ⟨?_, busy_showStart hc, kernel_showStart.trans (Nat.mod_eq_of_lt (bitsOf_lt o 46 39)), index_showStart, ?_⟩
  · rw [State.kernelRuns, running_showStart, decide_eq_true (lt_of_issues hi), decide_eq_true hc]
    rfl
  rw [fld_issued, core, start]
  refine ⟨rfl, rfl, rfl, rfl, rfl, rfl, rfl, rfl, rfl, ?_, ?_, rfl, fun i low high => ?_⟩
  · rw [← flight]; rfl
  · rfl
  · rw [startedCore, RCore.r, Nat.mod_eq_of_lt high]
    simp only [Tbl.get]
    rw [if_neg (by omega), if_neg (by omega), if_neg (by omega), if_neg (by omega), if_neg (by omega), if_neg (by omega), if_neg (by omega)]
    rfl

/-! ### Refreshes (R110, R153 to R155) -/

section
variable {s : State} {h o stack ch t : Nat}

theorem refresh_gal : (s.refresh stack ch t).gal = { s.gal with refreshed := s.gal.refreshed.put (stack * 16 + ch) t } := rfl

theorem exec_refresh (hi : Issues s h 0 0x11 o) :
    exec (.refresh h) s = .next (((issued s h 0 o).occupy h o 1).refresh (bitsOf o 48 47) (bitsOf o 46 43) ((issued s h 0 o).galleryAt h o 8)) := by
  show execRefresh h s = _
  rw [execRefresh, takeOp_of_issues hi]

/-- The Gallery's clock of an op is that of its tread. -/
theorem galleryAt_issued {slot later : Nat} : (issued s h slot o).galleryAt h o later = s.galleryAt h o later := by
  rw [State.galleryAt, start_issued]
  rfl

theorem exec_emergRefresh (hs : stack < 4) (hc : ch < 16) (ha : s.planActive = true) (ht : 8192 ≤ galClocks (max s.now t - (look s.gal.refreshed (stack * 16 + ch)).getD 0)) :
    let u := (s.atTime t).refresh stack ch (max s.now t)
    exec (.emergRefresh stack ch t) s = .next (((u.setFld Fld.ATR_STATUS_EMERG (u.fld Fld.ATR_STATUS_EMERG ||| 2 ^ stack)).bump Fld.ATR_CNT_EMERG_COUNT 0 stack).alm
      0x0301 5 0xFF 5 stack (leBytes 1 stack ++ leBytes 1 ch)) := by
  have due : ¬ (4 ≤ stack ∨ 16 ≤ ch ∨ (!(s.atTime t).planActive) = true ∨ galClocks ((s.atTime t).now - (look (s.atTime t).gal.refreshed (stack * 16 + ch)).getD 0) < 8192) := by
    rintro (c | c | c | c)
    · omega
    · omega
    · rw [show (s.atTime t).planActive = true from ha] at c; cases c
    · exact absurd c (Nat.not_lt.mpr ht)
  exact if_neg due

theorem addr_atrEmergs : Reg.addr .ATR_CNT_EMERG 0 stack = 0x4000108 + 0 * 0 + 0x10 * stack := rfl

/-- A refresh by the stack controller flags its stack and counts. -/
theorem emerg_flagged (u : State) (b : Bytes) (hs : stack < 4) :
    let v := u.setFld Fld.ATR_STATUS_EMERG (u.fld Fld.ATR_STATUS_EMERG ||| 2 ^ stack)
    let t := (v.bump Fld.ATR_CNT_EMERG_COUNT 0 stack).alm 0x0301 5 0xFF 5 stack b
    t.gal = u.gal ∧ bitOf (t.fld Fld.ATR_STATUS_EMERG) stack = true ∧
      t.fld Fld.ATR_CNT_EMERG_COUNT 0 stack = (u.fld Fld.ATR_CNT_EMERG_COUNT 0 stack + 1) % 2 ^ 32 ∧ t.atrium = u.atrium := by
  intro v t
  have apart : Reg.addr .ATR_CNT_EMERG 0 stack ≠ Reg.addr .ATR_STATUS 0 0 := by
    rw [addr_atrEmergs]; show _ ≠ 0x4000000; omega
  have logged : SameAt BelowFaults (v.bump Fld.ATR_CNT_EMERG_COUNT 0 stack) t := (SameAt.refl _).almBelow ..
  have flagged : v.fld Fld.ATR_STATUS_EMERG = (u.fld Fld.ATR_STATUS_EMERG ||| 2 ^ stack) % 2 ^ 4 := fld_setFld_same (by decide)
  have count : v.fld Fld.ATR_CNT_EMERG_COUNT 0 stack = u.fld Fld.ATR_CNT_EMERG_COUNT 0 stack :=
    fld_setFld_ne u Fld.ATR_STATUS_EMERG Fld.ATR_CNT_EMERG_COUNT _ 0 0 0 stack apart
  have gal : t.gal = u.gal := alm_unseen (π := State.gal) (fun _ _ => rfl) (fun _ _ => rfl) ..
  have atrium : t.atrium = u.atrium := alm_unseen (π := State.atrium) (fun _ _ => rfl) (fun _ _ => rfl) ..
  refine ⟨gal, ?_, ?_, atrium⟩
  · rw [logged.fld _ _ _ (by decide), State.bump, State.bumpBy, fld_setFld_ne v Fld.ATR_CNT_EMERG_COUNT Fld.ATR_STATUS_EMERG _ 0 stack 0 0 apart.symm, flagged, bitOf_eq_testBit,
      Nat.testBit_mod_two_pow, Nat.testBit_or, Nat.testBit_two_pow_self]
    simp [hs]
  · rw [logged.fld _ _ _ (by rw [BelowFaults]; exact addr_atrEmergs ▸ by omega), fld_bump_same (by decide), count]
    rfl

theorem exec_selfRefresh_fresh {x : Nat} (hx : look s.gal.refreshed (stack * 16 + ch) = some x) (ht : galClocks (max s.now t - x) < 4096) :
    exec (.selfRefresh stack ch t) s = .next (s.atTime t) := by
  have fresh : (s.atTime t).freshChannel (stack * 16 + ch) = true := by
    rw [State.freshChannel, atTime_gal, hx]
    exact decide_eq_true ht
  exact if_pos (.inr (.inr (.inr (.inr fresh))))

theorem exec_selfRefresh (hs : stack < 4) (hc : ch < 16) (ha : s.planActive = false) (hp : bitOf (s.fld Fld.ATR_STATUS_POWERED) stack = true)
    (ht : ∀ x, look s.gal.refreshed (stack * 16 + ch) = some x → 4096 ≤ galClocks (max s.now t - x)) :
    exec (.selfRefresh stack ch t) s = .next { s.atTime t with gal := { s.gal with refreshed := s.gal.refreshed.put (stack * 16 + ch) (max s.now t) } } := by
  have stale : (s.atTime t).freshChannel (stack * 16 + ch) = false := by
    unfold State.freshChannel
    split
    next x hx => exact decide_eq_false (Nat.not_lt.mpr (ht x hx))
    · rfl
  have due : ¬ (4 ≤ stack ∨ 16 ≤ ch ∨ (s.atTime t).planActive = true ∨ (!bitOf ((s.atTime t).fld Fld.ATR_STATUS_POWERED) stack) = true ∨
      (s.atTime t).freshChannel (stack * 16 + ch) = true) := by
    rintro (c | c | c | c | c)
    · omega
    · omega
    · rw [show (s.atTime t).planActive = false from ha] at c; cases c
    · rw [fld_atTime, hp] at c; cases c
    · rw [stale] at c; cases c
  exact if_neg due

end

/-- Settles O16: a refresh is noted at its instant, and the Atrium's data are not among what it changes. -/
theorem refreshStarts : Obligations.RefreshStarts := by
  unfold Obligations.RefreshStarts Gives
  refine fun h o stack ch t s => ⟨fun hi => ?_, fun hs hc ha ht => ?_, exec_selfRefresh, fun x _ _ => exec_selfRefresh_fresh⟩
  · refine ⟨_, exec_refresh hi, ?_, fun j hj => ?_, rfl, rfl⟩ <;> rw [refresh_gal]
    · rw [Tbl.get_put_same, galleryAt_issued]
    · exact Tbl.get_put_ne _ _ _ _ _ hj
  · refine ⟨_, exec_emergRefresh hs hc ha ht, ?_⟩
    generalize hu : (s.atTime t).refresh stack ch (max s.now t) = u
    have count : u.fld Fld.ATR_CNT_EMERG_COUNT 0 stack = s.fld Fld.ATR_CNT_EMERG_COUNT 0 stack := by
      rw [← hu]
      refine fld_setFld_ne _ Fld.ATR_REFRESH_GAP_CLOCKS Fld.ATR_CNT_EMERG_COUNT _ _ _ _ _ ?_
      show 0x4000108 + 0 * 0 + 0x10 * stack ≠ 0x400010c + 0 * 0 + 0x10 * stack
      omega
    obtain ⟨at_, emerg, counted, atrium⟩ := emerg_flagged u (leBytes 1 stack ++ leBytes 1 ch) hs
    exact ⟨(congrArg (fun g : GalSt => g.refreshed.get 0 (stack * 16 + ch)) at_).trans (by rw [← hu]; exact Tbl.get_put_same ..), emerg, by rw [counted, count], atrium.trans (by rw [← hu]; rfl)⟩

end Sys2Proof.Machine
end

section
/-! PROOFS. Event lands: the end of a kernel's budget, edges, captures and actions (R126, R175 to R177, R183, R232 to R235). -/

open Sys2Proof.Spec

namespace Sys2Proof.Machine

section
variable {s : State} {h c k t r x : Nat} {who : Who} {rising : Bool}

/-! ### The end of a budget (R182, R183) -/

/-- What an abort leaves in the registers of its core. -/
theorem kernelAbort_shows (hc : c < 4) : let u := s.kernelAbort h c r x
    u.flag Fld.RFX_CORE_RUNNING h c = false ∧ u.fld Fld.RFX_CORE_OUTCOME h c = 2 ∧ u.fld Fld.RFX_CORE_REASON h c = r % 16 ∧ (u.rcore h c).commit = [] ∧
      u.fld Fld.RFX_CNT_ABORT_COUNT h c = (s.fld Fld.RFX_CNT_ABORT_COUNT h c + 1) % 2 ^ 32 := by
  have info : Reg.addr .RFX_ABORT_INFO h 0 = 0x10000420 + 0x1000000 * h := addr_rfxAbortInfo
  have tread : Reg.addr .RFX_ABORT_TREAD h 0 = 0x10000424 + 0x1000000 * h := addr_rfxAbortTread
  have status : Reg.addr .RFX_STATUS h 0 = 0x10000400 + 0x1000000 * h := addr_rfxStatus
  have core : Reg.addr .RFX_CORE h c = 0x10000410 + 0x1000000 * h + 4 * c := addr_rfxCore
  have count : Reg.addr .RFX_CNT_ABORT h c = 0x10000440 + 0x1000000 * h + 4 * c := addr_rfxAborts
  have lost : Reg.addr .ALM_CNT_LOST 0 0 = 0x7001018 := rfl
  have full : Reg.addr .ALM_STATUS 0 0 = 0x7001004 := rfl
  unfold State.kernelAbort
  extract_lets m k i at_ s1 s2 s3 s4 s5 u
  have later (P : Nat → Prop) (hi : ¬ P (Reg.addr .RFX_ABORT_INFO h 0)) (ht : ¬ P (Reg.addr .RFX_ABORT_TREAD h 0)) (hl : ¬ P (Reg.addr .ALM_CNT_LOST 0 0))
      (hf : ¬ P (Reg.addr .ALM_STATUS 0 0)) : SameAt P s2 u := by
    have dated : SameAt P s2 s4 := by
      refine .setFld (.setFld (.setFld (.setFld (.setFld (.refl s2) _ _ _ _ ?_) _ _ _ _ ?_) _ _ _ _ ?_) _ _ _ _ ?_) _ _ _ _ ?_
      exacts [hi, hi, hi, hi, ht]
    have emptied : SameAt P s2 s5 := by
      clear_value s4
      exact dated.trans (.of_regs rfl)
    exact .ite emptied (emptied.almAside hl hf ..)
  have countCore : Reg.addr .RFX_CNT_ABORT h c ≠ Reg.addr .RFX_CORE h c := by omega
  have statusCore : Reg.addr .RFX_STATUS h 0 ≠ Reg.addr .RFX_CORE h c := by omega
  have countStatus : Reg.addr .RFX_STATUS h 0 ≠ Reg.addr .RFX_CNT_ABORT h c := by omega
  have shown (g : Fld) (hg : g.reg = .RFX_CORE) : u.fld g h c = s1.fld g h c := by
    have kept : SameAt (· = Reg.addr .RFX_CORE h c) s1 s2 := by
      refine .setFld (.setFld (.refl s1) _ _ _ _ ?_) _ _ _ _ ?_
      exacts [countCore, statusCore]
    exact (kept.trans (later _ (by omega) (by omega) (by omega) (by omega))).fld _ _ _ (by rw [hg])
  have before : SameAt (· = Reg.addr .RFX_CNT_ABORT h c) s s1 := by
    refine .setFld (.setFld (.setFld (.refl s) _ _ _ _ ?_) _ _ _ _ ?_) _ _ _ _ ?_
    all_goals exact countCore.symm
  have empty : (s5.rcore h c).commit = [] := by
    clear_value s4
    exact congrArg RCore.commit rcore_setCore
  refine ⟨?_, ?_, ?_, ?_, ?_⟩
  · rw [State.flag, shown _ rfl]
    simp (disch := decide) only [s1, fld_setFld_beside, fld_setFld_same]
    rfl
  · rw [shown _ rfl]
    simp (disch := decide) only [s1, fld_setFld_beside, fld_setFld_same]
    rfl
  · rw [shown _ rfl]
    exact fld_setFld_same (by decide)
  · show ((if _ then _ else _ : State).rcore h c).commit = []
    split
    · exact empty
    · exact (alm_unseen (π := fun s => (s.rcore h c).commit) (fun _ _ => rfl) (fun _ _ => rfl) ..).trans empty
  · have counted : s2.fld Fld.RFX_CNT_ABORT_COUNT h c = (s1.fld Fld.RFX_CNT_ABORT_COUNT h c + 1) % 2 ^ 32 :=
      (fld_setFld_ne _ Fld.RFX_STATUS_ABORTED Fld.RFX_CNT_ABORT_COUNT _ h 0 h c countStatus.symm).trans (fld_bump_same (by decide))
    rw [(later _ (by omega) (by omega) (by omega) (by omega)).fld _ _ _ (rfl : Reg.addr .RFX_CNT_ABORT h c = _), counted, before.fld _ _ _ rfl]

/-- What the end of a budget does to a core that is busy until then. -/
theorem endBudget_due (hb : s.coreBusy h c = true) (hd : (s.rcore h c).budgetEnd ≤ t) : let u := if s.kernelRuns h c then s.kernelAbort h c 1 ((s.rcore h c).budgetEnd - 1) else s
    s.endBudget h c t = u.setFld Fld.RFX_STATUS_BUSY (withBit (u.fld Fld.RFX_STATUS_BUSY h) c false) h := if_pos ⟨hb, hd⟩

/-- The write of a hall's busy bits leaves the registers of its cores. -/
theorem fld_setBusy {g : Fld} {v : Nat} (hg : g.reg = .RFX_CORE ∨ g.reg = .RFX_CNT_ABORT) : (s.setFld Fld.RFX_STATUS_BUSY v h).fld g h c = s.fld g h c := by
  refine fld_setFld_ne s Fld.RFX_STATUS_BUSY g v h 0 h c ?_
  show g.reg.addr h c ≠ Reg.addr .RFX_STATUS h 0
  rw [addr_rfxStatus]
  rcases hg with hg | hg <;> rw [hg]
  · rw [addr_rfxCore]; omega
  · rw [addr_rfxAborts]; omega

/-- After the end of its budget a core is free and runs no kernel. -/
theorem endBudget_frees (hc : c < 4) (hb : s.coreBusy h c = true) (hd : (s.rcore h c).budgetEnd ≤ t) :
    (s.endBudget h c t).coreBusy h c = false ∧ (s.endBudget h c t).kernelRuns h c = false := by
  rw [endBudget_due hb hd]
  refine ⟨bitOf_fld_withBit (by decide) hc, ?_⟩
  rw [State.kernelRuns, State.flag, fld_setBusy (.inl rfl)]
  split
  · have stopped : (s.kernelAbort h c 1 ((s.rcore h c).budgetEnd - 1)).flag Fld.RFX_CORE_RUNNING h c = false := (kernelAbort_shows hc).1
    exact (congrArg _ stopped).trans (Bool.and_false _)
  next idle => exact (Bool.not_eq_true _).mp idle

/-- A kernel that has not ended by the end of its budget aborts as OVERRUN. -/
theorem endBudget_overrun (hc : c < 4) (hr : s.kernelRuns h c = true) (hb : s.coreBusy h c = true) (hd : (s.rcore h c).budgetEnd ≤ t) : let u := s.endBudget h c t
    u.fld Fld.RFX_CORE_OUTCOME h c = 2 ∧ u.fld Fld.RFX_CORE_REASON h c = 1 ∧ (u.rcore h c).commit = [] ∧
      u.fld Fld.RFX_CNT_ABORT_COUNT h c = (s.fld Fld.RFX_CNT_ABORT_COUNT h c + 1) % 2 ^ 32 := by
  obtain ⟨-, outcome, reason, empty, counted⟩ := kernelAbort_shows (s := s) (h := h) (r := 1) (x := (s.rcore h c).budgetEnd - 1) hc
  rw [endBudget_due hb hd, if_pos hr]
  exact ⟨(fld_setBusy (.inl rfl)).trans outcome, (fld_setBusy (.inl rfl)).trans reason, empty, (fld_setBusy (.inr rfl)).trans counted⟩

theorem exec_kernelBudgetEnd (hh : h < 18) (hc : c < 4) : exec (.kernelBudgetEnd h c t) s = .next ((s.atTime t).endBudget h c (max s.now t)) :=
  congrArg Host.Outcome.next (if_pos ⟨hh, hc⟩)

/-! ### Actions (R126, R177, R235) -/

theorem exec_evtAction (hk : k < 32) (hp : s.flag Fld.EVT_STATUS_POWERED = true) :
    exec (.evtAction k t) s = .next ((s.atTime t).actsDue k (max s.now t) (2 * (s.land k).acts.length + 1)) :=
  congrArg Host.Outcome.next (if_pos ⟨hk, hp⟩)

/-- The actions of an instant that take place are the one that is due, whoever gave it. -/
theorem actsAt_single {a : LandAct} (ha : (s.land k).acts = [a]) (at_ : a.time = t) (end_ : a.act ≠ 8) :
    s.actsAt k t = (s.setLand k (LandSt.act { s.land k with acts := [] } a)).settle k t ((s.land k).driven, (s.land k).level) := by
  have notEnd : (a.act == 8) = false := beq_false_of_ne end_
  unfold State.actsAt
  cases kernel : a.kernel with
  | true => simp [ha, at_, notEnd, end_, kernel]
  | false =>
    by_cases host : a.hall = 18
    · simp [ha, at_, notEnd, end_, kernel, host]
    · simp [ha, at_, notEnd, end_, kernel, host]

/-- A land that is not driven and shows what it showed leaves the state. -/
theorem settle_undriven {b : Bool × Bool} (hd : (s.land k).driven = false) (hb : ((s.land k).driven, (s.land k).level) = b) : s.settle k t b = s := by
  unfold State.settle
  extract_lets l u
  have shown : u = s := if_pos (beq_iff_eq.mpr hb)
  rw [shown]
  exact if_neg (ne_true_of_eq_false hd)

/-- An action that arms a land for rising edges drives nothing. -/
theorem actsAt_armRise {a : LandAct} (ha : (s.land k).acts = [a]) (at_ : a.time = t) (arm : a.act = 4) (hd : (s.land k).driven = false) :
    s.actsAt k t = s.setLand k { s.land k with acts := [], armRise := true, armFall := false } := by
  have armed : LandSt.act { s.land k with acts := [] } a = { s.land k with acts := [], armRise := true, armFall := false } := by simp only [LandSt.act, arm]
  rw [actsAt_single ha at_ (by omega), armed]
  exact settle_undriven (by rw [land_setLand]; exact hd) (by rw [land_setLand])

theorem evtHostWrite_heeded (hk : k < 32) (hw : s.mayWrite who = true) (hp : s.flag Fld.EVT_STATUS_POWERED = true) :
    ¬ (32 ≤ k ∨ (!(s.atTime t).mayWrite who) = true ∨ (!(s.atTime t).flag Fld.EVT_STATUS_POWERED) = true) := by
  rw [mayWrite_atTime, flag_atTime, hw, hp]
  simpa using hk

theorem exec_evtHostWrite_refused (hk : k < 32) (hw : s.mayWrite who = true) (hp : s.flag Fld.EVT_STATUS_POWERED = true) (hl : s.inLandSet k = true) :
    exec (.evtHostWrite who k x t) s = .next ((s.atTime t).raise Fld.EVT_STATUS_HOST_REFUSED) :=
  (if_neg (evtHostWrite_heeded hk hw hp)).trans (if_pos hl)

theorem exec_evtHostWrite (hk : k < 32) (hw : s.mayWrite who = true) (hp : s.flag Fld.EVT_STATUS_POWERED = true) (hl : s.inLandSet k = false)
    (hv : ¬ (x % 8 = 2 ∧ bitsOf x 18 3 = 0)) : exec (.evtHostWrite who k x t) s = .next ((s.atTime t).actSoon k (x % 8) (bitsOf x 18 3)) :=
  (if_neg (evtHostWrite_heeded hk hw hp)).trans ((if_neg (ne_true_of_eq_false hl)).trans (if_neg hv))

/-! ### Edges and captures (R48, R232 to R234) -/

section
variable (hk : k < 32) (hd : (s.land k).driven = false) (he : (s.land k).pin ≠ rising)
include hk hd he

theorem edge_seen : ¬ (32 ≤ k ∨ ((s.atTime t).land k).driven = true ∨ (((s.atTime t).land k).pin == rising) = true) := by
  rintro (low | driven | same)
  · omega
  · exact ne_true_of_eq_false hd driven
  · exact he (eq_of_beq same)

theorem exec_evtEdge (hp : s.flag Fld.EVT_STATUS_POWERED = true) : exec (.evtEdge k rising t) s = .next ((s.atTime t).pinTo k rising (max s.now t)) :=
  (if_neg (edge_seen hk hd he)).trans (if_pos hp)

theorem exec_evtEdge_unpowered (hp : s.flag Fld.EVT_STATUS_POWERED = false) : let u := (s.atTime t).setLand k ((s.land k).pinSet rising (max s.now t))
    exec (.evtEdge k rising t) s = .next (if (if rising then (s.land k).armRise else (s.land k).armFall) then
      u.setFld Fld.CALM_EVT_IN_EDGE (u.fld Fld.CALM_EVT_IN_EDGE ||| 2 ^ k) else u) :=
  (if_neg (edge_seen hk hd he)).trans (if_neg (ne_true_of_eq_false hp))

end

/-- A bit that was raised in a field is set. -/
theorem bitOf_fld_or {f : Fld} (hf : f.InWord) (hb : k < f.hi + 1 - f.lo) (i : Nat) : bitOf ((s.setFld f (x ||| 2 ^ k) i).fld f i) k = true := by
  rw [fld_setFld_same hf, bitOf_eq_testBit, Nat.testBit_mod_two_pow, Nat.testBit_or, Nat.testBit_two_pow_self, decide_eq_true hb, Bool.or_true, Bool.and_true]

/-- A confirmed edge of an armed land joins a queue with room. -/
theorem capture_armed {e : Capture} (ha : (if e.rising then (s.land k).armRise else (s.land k).armFall) = true) (hq : (s.land k).queue.length < 16) :
    s.capture k e = (s.bump Fld.EVT_CAP_INFO_COUNT 0 k).setLand k { s.land k with latest := some e, queue := (s.land k).queue ++ [e] } := by
  have armed : ¬ (!(if e.rising then (s.land k).armRise else (s.land k).armFall)) = true := by rw [ha]; exact Bool.false_ne_true
  exact (if_neg armed).trans (if_pos hq)

/-- A changed pin of a land without a filter is a capture at once. -/
theorem pinTo_unfiltered (he : (s.land k).pin ≠ rising) (hc : (s.land k).candidate = none) (ha : (s.land k).armed = true) (hf : s.fld Fld.EVT_LAND_CFG_FILTER 0 k = 0) :
    s.pinTo k rising t = (s.setLand k ((s.land k).pinSet rising t)).capture k { time := t, rising := rising } := by
  have changed : ¬ ((s.land k).pin == rising) = true := by simpa using he
  have unheld : s.confirm k t = s := by rw [State.confirm, hc]
  have armed : ¬ (!(s.land k).armed) = true := by rw [ha]; exact Bool.false_ne_true
  have unfiltered : (s.setLand k ((s.land k).pinSet rising t)).filterTicks k = 0 := by
    simp only [State.filterTicks, fld_setLand, hf, Nat.zero_mul]
  simp only [State.pinTo, if_neg changed, unheld, if_neg armed, hc, if_pos unfiltered]

theorem confirm_due {e : Capture} (hc : (s.land k).candidate = some e) (hd : e.time + s.fld Fld.EVT_LAND_CFG_FILTER 0 k * 65536 ≤ t) :
    s.confirm k t = (s.setLand k { s.land k with candidate := none }).capture k e := by
  rw [State.confirm, hc]
  exact if_pos hd

theorem exec_evtEdgeConfirm (hk : k < 32) (hp : s.flag Fld.EVT_STATUS_POWERED = true) : exec (.evtEdgeConfirm k t) s = .next ((s.atTime t).confirm k (max s.now t)) :=
  congrArg Host.Outcome.next (if_pos ⟨hk, hp⟩)

/-- The word that shows a capture and what the queue holds behind it. -/
def capWord (s : State) (k : Nat) (e : Capture) (rest : List Capture) : Nat :=
  2 ^ 31 + b2n e.rising * 2 ^ 30 + rest.length * 2 ^ 24 +
    (s.fld Fld.EVT_CAP_INFO_OVF 0 k * 2 ^ 29 + s.fld Fld.EVT_CAP_INFO_GLITCH 0 k * 65536 + s.fld Fld.EVT_CAP_INFO_COUNT 0 k)

theorem capWord_top {e : Capture} {rest : List Capture} (hl : rest.length < 32) : capWord s k e rest / 2 ^ 30 = 2 + b2n e.rising := by
  have ovf : s.fld Fld.EVT_CAP_INFO_OVF 0 k < 2 := fld_lt _
  have glitch : s.fld Fld.EVT_CAP_INFO_GLITCH 0 k < 256 := fld_lt _
  have count : s.fld Fld.EVT_CAP_INFO_COUNT 0 k < 65536 := fld_lt _
  unfold capWord
  omega

theorem capWords_apart : Reg.addr .EVT_CAP_LO 0 k ≠ Reg.addr .EVT_CAP_HI 0 k := by
  show 0x9004204 + 0 * 0 + 0x10 * k ≠ 0x9004208 + 0 * 0 + 0x10 * k
  omega

theorem exec_evtCapInfoRead {e : Capture} {rest : List Capture} (hk : k < 32) (hq : (s.land k).queue = e :: rest) :
    exec (.evtCapInfoRead who k) s = .next ((((s.setLand k { s.land k with queue := rest }).latch who (Reg.addr .EVT_CAP_LO 0 k) (s.nsSince e.time)).latch who
      (Reg.addr .EVT_CAP_HI 0 k) (s.nsSince e.time / 2 ^ 32)).leave (.readValue who (Reg.addr .EVT_CAP_INFO 0 k) (capWord s k e rest))) := by
  refine (if_neg (Nat.not_le.mpr hk)).trans ?_
  simp only [hq]
  rfl

end

/-- Settles O22: the end of a budget by what an abort shows, the land commands by their own equations. -/
theorem eventLandCommands : Obligations.EventLandCommands := by
  unfold Obligations.EventLandCommands Gives
  refine fun h c k value t rising who s => ⟨fun hh hc hb hd => ?_, exec_evtAction, fun x u a ha at_ arm hd => actsAt_armRise ha at_ arm hd, fun hk hw hp hl => ?_,
    fun hk hw hp hl hv => ?_, fun hk hd he hp => ?_, exec_evtEdge, fun hk he hc hr hf filter hq hd hp => ?_, fun x hk hp hc hd => ?_, fun x rest hk hq hl => ?_⟩
  · refine ⟨⟨_, exec_kernelBudgetEnd hh hc, ?_⟩, fun hr => ⟨_, exec_kernelBudgetEnd hh hc, endBudget_overrun (s := s.atTime t) hc hr hb hd⟩⟩
    obtain ⟨free, idle⟩ := endBudget_frees (s := s.atTime t) hc hb hd
    exact ⟨free, idle, Aside.endBudget (π := State.alcove) ⟨fun _ _ => rfl, fun _ _ => rfl, fun _ _ => rfl⟩ _,
      Aside.endBudget (π := State.lands) ⟨fun _ _ => rfl, fun _ _ => rfl, fun _ _ => rfl⟩ _⟩
  · exact ⟨_, exec_evtHostWrite_refused hk hw hp hl, flag_raise (by decide), rfl, rfl⟩
  · refine ⟨_, exec_evtHostWrite hk hw hp hl hv, ?_, fun j hj => ?_, rfl, rfl⟩
    · rw [State.actSoon, land_setLand]; rfl
    · exact land_setLand_ne _ hj
  · refine ⟨_, exec_evtEdge_unpowered hk hd he hp, ?_⟩
    by_cases armed : (if rising then (s.land k).armRise else (s.land k).armFall) = true
    · rw [if_pos armed, armed, Bool.or_true]
      exact ⟨congrArg LandSt.pin (land_setLand _), bitOf_fld_or (by decide) hk 0, (congrArg LandSt.queue (land_setLand _)).trans rfl⟩
    · rw [if_neg armed, (Bool.not_eq_true _).mp armed, Bool.or_false]
      exact ⟨congrArg LandSt.pin (land_setLand _), rfl, (congrArg LandSt.queue (land_setLand _)).trans rfl⟩
  · have armed : ((s.atTime t).land k).armed = true := (congrArg (· || _) hr).trans (Bool.true_or _)
    refine ⟨_, exec_evtEdge hk hd he hp, ?_⟩
    rw [pinTo_unfiltered (s := s.atTime t) he hc armed filter, capture_armed]
    · rw [land_setLand, land_setLand]
      exact ⟨rfl, rfl, rfl⟩
    · rw [land_setLand]
      cases rising
      · exact hf
      · exact hr
    · rw [land_setLand]
      exact hq
  · rw [exec_evtEdgeConfirm hk hp, confirm_due (s := s.atTime t) hc hd]
    rfl
  · refine ⟨_, _, exec_evtCapInfoRead hk hq, congrArg LandSt.queue (land_setLand _), rfl, capWord_top hl, ?_, ?_⟩
    · rw [latchOf_leave, latchOf_latch_ne _ _ _ _ _ capWords_apart, latchOf_latch]
    · rw [latchOf_leave, latchOf_latch]

end Sys2Proof.Machine
end

section
/-! PROOFS. Moves (R103 to R109, R140, R141, R149, R150): how a MOVE starts, and what its flits and beats write. -/

open Sys2Proof.Spec

namespace Sys2Proof.Machine

/-! ### What the issue of an op leaves -/

/-- The address lies below the windows of halls and functions. -/
abbrev Low (a : Nat) : Prop := a < 0x10000000

/-- π shows neither the registers nor the sequencers nor the time. -/
structure Offstage {α : Type} (π : State → α) : Prop where
  regs : ∀ s r, π { s with regs := r } = π s
  seqs : ∀ s q, π { s with seqs := q } = π s
  now : ∀ s t, π { s with now := t } = π s

section
variable {s t : State} {P Q : Nat → Prop} {h k o e a n : Nat}

theorem SameAt.mono (hs : SameAt P s t) (hq : ∀ a, Q a → P a) : SameAt Q s t := ⟨fun a ha => hs.look_eq a (hq a ha)⟩

theorem SameAt.of_belowPtrs (hs : SameAt (BelowPtrs h) s t) : SameAt Low s t := hs.mono fun a (ha : a < 0x10000000) => by unfold BelowPtrs; omega

section
variable {α : Type} {π : State → α} (hπ : Offstage π)
include hπ

theorem Offstage.setPtr (e a : Nat) (b : Option Nat) : π (s.setPtr h k e a b) = π s :=
  (hπ.regs _ _).trans ((hπ.regs _ _).trans ((hπ.regs _ _).trans ((hπ.regs _ _).trans ((hπ.regs _ _).trans (hπ.regs _ _)))))

theorem Offstage.allocLand (x : Alloc) : π (s.allocLand h x) = π s := by
  unfold State.allocLand
  split
  · exact hπ.setPtr ..
  · exact (hπ.setPtr ..).trans (hπ.seqs _ _)

/-- Results of ALLOCs change the hall's pointers and its sequencer. -/
theorem Offstage.allocsLand : π (s.allocsLand h) = π s :=
  List.foldlRecOn (motive := fun u => π u = π s) _ _ (hπ.seqs _ _) fun _ hu x _ => (hπ.allocLand x).trans hu

/-- So does the issue of an op that occupies a block. -/
theorem Offstage.taken (slot n : Nat) : π ((pointersAt s h slot o).occupy h o n) = π s :=
  (hπ.seqs _ _).trans (hπ.allocsLand.trans ((hπ.now _ _).trans (hπ.seqs _ _)))

end

theorem sameAt_taken (slot n : Nat) : SameAt (BelowPtrs h) s ((pointersAt s h slot o).occupy h o n) :=
  (SameAt.of_regs rfl : SameAt _ s (issued s h slot o)).trans (sameAt_allocsLand.trans (.of_regs rfl))

/-! ### Where an endpoint leads (R104, R106) -/

theorem physOf_same (hs : SameAt Low s t) (l : Nat) : t.physOf l = s.physOf l := by
  unfold State.physOf
  by_cases hl : l < 16
  · have low : Low (Reg.addr .TSQ_MAP 0 l) := by show 0x2001100 + 0 * 0 + 4 * l < _; omega
    rw [hs.flag Fld.TSQ_MAP_VALID 0 l low, hs.fld Fld.TSQ_MAP_PHYS 0 l low]
  · rw [if_neg fun c => hl c.1, if_neg fun c => hl c.1]

theorem planActive_same (hs : SameAt Low s t) : t.planActive = s.planActive := by
  rw [State.planActive, hs.fld _ _ _ (by decide), State.planActive]

theorem bayHall_lt {b : Bytes} {l : Nat} (hl : Plan.bayHall b k = some l) : l < 16 := by
  unfold Plan.bayHall at hl
  extract_lets v at hl
  split at hl <;> cases hl
  exact Nat.mod_lt _ (by decide)

theorem bayOwner_same (hs : SameAt Low s t) (hp : t.pln = s.pln) : t.bayOwner k = s.bayOwner k := by
  unfold State.bayOwner
  rw [planActive_same hs, hp]
  split
  · rfl
  · split
    next l hl =>
      have low : Low (Reg.addr .TSQ_MAP 0 l) := by
        have small : l < 16 := bayHall_lt hl
        show 0x2001100 + 0 * 0 + 4 * l < _; omega
      rw [hs.flag Fld.TSQ_MAP_VALID 0 l low, hs.fld Fld.TSQ_MAP_PHYS 0 l low]
    · rfl

theorem portOfHall_same (hs : SameAt Low s t) (hp : t.pln = s.pln) : t.portOfHall h a = s.portOfHall h a := by
  unfold State.portOfHall State.isPort State.laneMode
  by_cases ha : a < 256
  · have low : Low (Reg.addr .LN_LANE_STATUS 0 a) := by show 0x9000400 + 0 * 0 + 4 * a < _; omega
    rw [bayOwner_same hs hp, hs.fld Fld.LN_LANE_STATUS_MODE 0 a low]
  · rw [decide_eq_false ha]; rfl

/-- Where an endpoint leads depends on low registers, the plan and the flows. -/
theorem farEnd_same (hs : SameAt Low s t) (hp : t.pln = s.pln) (hf : t.flows = s.flows) : t.farEnd e a n = s.farEnd e a n := by
  unfold State.farEnd
  simp only [physOf_same hs, portOfHall_same hs hp, hf]

theorem ranked_same (hs : SameAt (BelowPtrs h) s t) (hp : t.pln = s.pln) : t.ranked h = s.ranked h := by
  have state : BelowPtrs h (Reg.addr .TSQ_STATE h 0) := by show 0x10000000 + 0x1000000 * h + 0 * 0 < _; omega
  unfold State.ranked State.logicalOf
  rw [hs.fld Fld.TSQ_STATE_ROLE h 0 state, hs.fld Fld.TSQ_STATE_LOGICAL h 0 state, hp]

/-! ### The start of a move (R105 to R107) -/

/-- The clocks for which a MOVE occupies its block. -/
def moveSpan (s : State) (h o e : Nat) : Nat := if 0x10 ≤ e ∧ e < 0x20 then moveFlits o else (moveFlits o * s.clocks h + 127) / 128

/-- A move as it starts, with the timing that the hall's state gives it. -/
def newMove (v : State) (h o : Nat) (w : PtrWas) (far : Nat) : Move :=
  let m := v.moveTiming h o w.endp far w.addr (bitOf o 48)
  { id := 0, base := m.1, clock := m.2.1, rate := m.2.2, ring := bitsOf o 15 15, hall := h, pull := bitOf o 48, endp := w.endp, far := far, addr := w.addr, laddr := bitsOf o 42 24 * 64,
    flits := moveFlits o, ptr := bitsOf o 47 44, data := [], sent := 0, beats := 0, used := 0, dead := false, bad := [], opened := false, frames := [] }

/-- A MOVE advances its pointer where the op says so. -/
def State.advance (v : State) (h o : Nat) (w : PtrWas) : State :=
  if bitOf o 43 then (v.notePtr h (bitsOf o 47 44) o).setPtr h (bitsOf o 47 44) w.endp (w.addr + 128 * moveFlits o) w.buf else v

/-- What an open move takes of its hall's staging queue. -/
def State.filled (v : State) (h o : Nat) (w : PtrWas) : List TxFrame × List StageRec × Nat :=
  fillOpen w.endp w.addr ((v.ranked h).map (fun r => r.1)) (v.stageq.get [] h) (128 * moveFlits o)

/-- An open move is under way. -/
def State.startOpen (v : State) (h : Nat) (m : Move) (x : List TxFrame × List StageRec × Nat) : State :=
  (({ v with stageq := v.stageq.put h x.2.1 } : State).bump64 Fld.GAL_CNT_OPEN_IDLE_LO_COUNT Fld.GAL_CNT_OPEN_IDLE_HI_COUNT (x.2.2 / 128)).addMove
    { m with data := (x.1.map (fun f => frameRecord f.octets f.tstamp)).flatten, opened := true, frames := x.1 }

/-- A static move is under way: a push carries what the alcove holds. -/
def State.startStatic (v : State) (h o : Nat) (m : Move) : State :=
  if bitOf o 48 then v.addMove m
  else
    let bad := v.badFlits h (bitsOf o 42 24 * 64) (moveFlits o)
    (v.poisonUse (bad != [])).addMove { m with data := v.alcoveRead h (bitsOf o 42 24 * 64) (128 * moveFlits o), bad := bad }

/-- The move reaches past the span of the buffer that its pointer holds. -/
def overruns (w : PtrWas) (o : Nat) : Bool := w.buf.isSome && decide (w.span.2 < w.addr + 128 * moveFlits o)

section
variable {w : PtrWas} {v : State} {far : Nat} (hi : Issues s h 0 0x10 o) (hw : (pointersAt s h 0 o).ptrFor h (bitsOf o 47 44) o = w)
  (hv : (pointersAt s h 0 o).occupy h o (moveSpan (pointersAt s h 0 o) h o w.endp) = v)
include hi hw hv

theorem exec_move_suppressed (hn : overruns w o = true ∨ v.farEnd w.endp w.addr (128 * moveFlits o) = none) :
    exec (.move h) s = .next (v.bump Fld.TSQ_CNT_SUPPRESS_COUNT h) := by
  have nowhere : (if overruns w o then none else v.farEnd w.endp w.addr (128 * moveFlits o)) = none := by
    rcases hn with hn | hn
    · rw [if_pos hn]
    · rw [hn, ite_self]
  subst hw hv
  show execMove h s = _
  rw [execMove, takeOp_of_issues hi]
  dsimp -zeta only
  extract_lets _ _ _ _ _ bytes w e a v beyond
  have nowhere : (if beyond then none else v.farEnd e a bytes) = none := nowhere
  rw [nowhere]
  rfl

theorem exec_move (hb : overruns w o = false) (hf : v.farEnd w.endp w.addr (128 * moveFlits o) = some far) : exec (.move h) s = .next
    (if bitOf o 14 then (v.advance h o w).startOpen h (newMove v h o w far) ((v.advance h o w).filled h o w) else (v.advance h o w).startStatic h o (newMove v h o w far)) := by
  have there : (if overruns w o then none else v.farEnd w.endp w.addr (128 * moveFlits o)) = some far := by rw [hb, if_neg Bool.false_ne_true, hf]
  subst hw hv
  show execMove h s = _
  rw [execMove, takeOp_of_issues hi]
  dsimp -zeta only
  extract_lets _ _ _ _ _ bytes w e a v beyond
  have there : (if beyond then none else v.farEnd e a bytes) = some far := there
  rw [there]
  by_cases opened : bitOf o 14 = true
  · rw [if_pos opened]
    exact if_pos opened
  · rw [if_neg opened, State.startStatic]
    refine (if_neg opened).trans ?_
    by_cases pulled : bitOf o 48 = true
    · rw [if_pos pulled]
      exact congrArg Host.Outcome.next (if_pos pulled).symm
    · rw [if_neg pulled]
      exact congrArg Host.Outcome.next (if_neg pulled).symm

end

section
variable {v : State} {w : PtrWas} {m : Move}

theorem Offstage.advance {α : Type} {π : State → α} (hπ : Offstage π) (w : PtrWas) : π (v.advance h o w) = π v := by
  unfold State.advance
  split
  · exact (hπ.setPtr ..).trans (hπ.seqs _ _)
  · rfl

theorem SameAt.advance (hs : SameAt (BelowPtrs h) s v) (o : Nat) (w : PtrWas) : SameAt (BelowPtrs h) s (v.advance h o w) := by
  unfold State.advance
  refine .ite (.setPtr ?_ ..) hs
  exact hs.trans (.of_regs rfl)

theorem SameAt.poisonUse (hs : SameAt InWindow s t) (bad : Bool) : SameAt InWindow s (t.poisonUse bad) := .ite (.raise (.bump hs (by decide)) (by decide)) hs

theorem Offstage.poisonUse {α : Type} {π : State → α} (hπ : Offstage π) (bad : Bool) : π (v.poisonUse bad) = π v := by
  unfold State.poisonUse
  split
  · exact (hπ.regs _ _).trans (hπ.regs _ _)
  · rfl

theorem offstage_gal : Offstage State.gal := ⟨fun _ _ => rfl, fun _ _ => rfl, fun _ _ => rfl⟩
theorem offstage_alcove : Offstage State.alcove := ⟨fun _ _ => rfl, fun _ _ => rfl, fun _ _ => rfl⟩
theorem offstage_atrium : Offstage State.atrium := ⟨fun _ _ => rfl, fun _ _ => rfl, fun _ _ => rfl⟩
theorem offstage_pln : Offstage State.pln := ⟨fun _ _ => rfl, fun _ _ => rfl, fun _ _ => rfl⟩
theorem offstage_flows : Offstage State.flows := ⟨fun _ _ => rfl, fun _ _ => rfl, fun _ _ => rfl⟩
theorem offstage_ln : Offstage State.ln := ⟨fun _ _ => rfl, fun _ _ => rfl, fun _ _ => rfl⟩
theorem offstage_stageq : Offstage State.stageq := ⟨fun _ _ => rfl, fun _ _ => rfl, fun _ _ => rfl⟩

/-- The moves under way, with one more. -/
def GalSt.withMove (g : GalSt) (m : Move) : GalSt := { g with moves := g.moves ++ [{ m with id := g.nextMove }], nextMove := g.nextMove + 1 }

/-- A static push carries what the alcove holds at the issue, a pull nothing yet. -/
theorem startStatic_gal : ∃ bad, (v.startStatic h o m).gal =
    v.gal.withMove { m with data := if bitOf o 48 then m.data else v.alcoveRead h (bitsOf o 42 24 * 64) (128 * moveFlits o), bad := bad } := by
  unfold State.startStatic
  cases bitOf o 48
  · exact ⟨_, congrArg (GalSt.withMove · _) (offstage_gal.poisonUse _)⟩
  · exact ⟨m.bad, rfl⟩

theorem startStatic_memories : (v.startStatic h o m).alcove = v.alcove ∧ (v.startStatic h o m).atrium = v.atrium := by
  unfold State.startStatic
  cases bitOf o 48
  · exact ⟨offstage_alcove.poisonUse _, offstage_atrium.poisonUse _⟩
  · exact ⟨rfl, rfl⟩

theorem startStatic_pointers : SameAt InWindow v (v.startStatic h o m) := by
  unfold State.startStatic
  refine .ite (.of_regs rfl) ?_
  exact ((SameAt.refl v).poisonUse _).trans (.of_regs rfl)

theorem ptr_same (hs : SameAt InWindow s t) : t.ptrAddr h k = s.ptrAddr h k ∧ t.ptrEndp h k = s.ptrEndp h k := by
  have lo : InWindow (Reg.addr .TSQ_PTR_LO h k) := by rw [addr_ptrLo, InWindow]; omega
  have hi : InWindow (Reg.addr .TSQ_PTR_HI h k) := by rw [addr_ptrHi, InWindow]; omega
  rw [State.ptrAddr, State.ptrEndp, hs.fld Fld.TSQ_PTR_LO_ADDRESS h k lo, hs.fld Fld.TSQ_PTR_HI_ADDRESS h k hi, hs.fld Fld.TSQ_PTR_HI_ENDPOINT h k hi]
  exact ⟨rfl, rfl⟩

/-- The pointer that a MOVE advances. -/
theorem ptr_advance (ha : bitOf o 43 = true) : (v.advance h o w).ptrAddr h (bitsOf o 47 44) = (w.addr + 128 * moveFlits o) % 2 ^ 39 ∧
    (v.advance h o w).ptrEndp h (bitsOf o 47 44) = w.endp % 64 := by
  rw [State.advance, if_pos ha]
  exact ⟨ptrAddr_setPtr (bitsOf_lt ..), ptrEndp_setPtr (bitsOf_lt ..)⟩

end

end

/-- What the issue of an op of hall h, which occupies a block, leaves as it was. -/
structure Taken (s v : State) (h : Nat) : Prop where
  regs : SameAt (BelowPtrs h) s v
  gal : v.gal = s.gal
  alcove : v.alcove = s.alcove
  atrium : v.atrium = s.atrium
  pln : v.pln = s.pln
  flows : v.flows = s.flows
  stageq : v.stageq = s.stageq

theorem taken {s : State} {h o slot n : Nat} : Taken s ((pointersAt s h slot o).occupy h o n) h :=
  ⟨sameAt_taken .., offstage_gal.taken .., offstage_alcove.taken .., offstage_atrium.taken .., offstage_pln.taken .., offstage_flows.taken .., offstage_stageq.taken ..⟩

section
variable {s v : State} {h o far : Nat} {w : PtrWas} (hv : Taken s v h)
include hv

theorem Taken.farEnd (e a n : Nat) : v.farEnd e a n = s.farEnd e a n := farEnd_same hv.regs.of_belowPtrs hv.pln hv.flows

theorem Taken.suppressed : (v.bump Fld.TSQ_CNT_SUPPRESS_COUNT h).fld Fld.TSQ_CNT_SUPPRESS_COUNT h = (s.fld Fld.TSQ_CNT_SUPPRESS_COUNT h + 1) % 2 ^ 32 := by
  have below : BelowPtrs h (Reg.addr .TSQ_CNT_SUPPRESS h 0) := by show 0x10000020 + 0x1000000 * h + 0 * 0 < _; omega
  rw [fld_bump_same (by decide), hv.regs.fld Fld.TSQ_CNT_SUPPRESS_COUNT h 0 below]
  rfl

/-- What a static move has and leaves. -/
theorem Taken.static : let t := (v.advance h o w).startStatic h o (newMove v h o w far)
    ∃ m, t.gal.moves = s.gal.moves ++ [m] ∧ m.id = s.gal.nextMove ∧ m.hall = h ∧ m.pull = bitOf o 48 ∧ m.endp = w.endp ∧ m.far = far ∧ m.addr = w.addr ∧
      m.laddr = bitsOf o 42 24 * 64 ∧ m.flits = moveFlits o ∧ m.opened = false ∧ m.sent = 0 ∧ m.beats = 0 ∧
      m.data = (if bitOf o 48 then [] else s.alcoveRead h (bitsOf o 42 24 * 64) (128 * moveFlits o)) ∧ t.gal.nextMove = s.gal.nextMove + 1 ∧ t.alcove = s.alcove ∧
      t.atrium = s.atrium ∧
      (bitOf o 43 = true → t.ptrAddr h (bitsOf o 47 44) = (w.addr + 128 * moveFlits o) % 2 ^ 39 ∧ t.ptrEndp h (bitsOf o 47 44) = w.endp % 64) := by
  intro t
  obtain ⟨bad, gal⟩ := startStatic_gal (v := v.advance h o w) (h := h) (o := o) (m := newMove v h o w far)
  obtain ⟨alcove, atrium⟩ := startStatic_memories (v := v.advance h o w) (h := h) (o := o) (m := newMove v h o w far)
  obtain ⟨addr, endp⟩ := ptr_same (h := h) (k := bitsOf o 47 44) (startStatic_pointers (v := v.advance h o w) (h := h) (o := o) (m := newMove v h o w far))
  have read : (v.advance h o w).alcoveRead h (bitsOf o 42 24 * 64) (128 * moveFlits o) = s.alcoveRead h (bitsOf o 42 24 * 64) (128 * moveFlits o) := by
    rw [State.alcoveRead, offstage_alcove.advance, hv.alcove, State.alcoveRead]
  rw [offstage_gal.advance, hv.gal, read] at gal
  refine ⟨_, congrArg GalSt.moves gal, rfl, rfl, rfl, rfl, rfl, rfl, rfl, rfl, rfl, rfl, rfl, rfl, congrArg GalSt.nextMove gal,
    alcove.trans ((offstage_alcove.advance w).trans hv.alcove), atrium.trans ((offstage_atrium.advance w).trans hv.atrium), fun ha => ?_⟩
  obtain ⟨a, e⟩ := ptr_advance (v := v) (h := h) (w := w) ha
  exact ⟨addr.trans a, endp.trans e⟩

/-- What an open move takes is that of the staging queue at the issue. -/
theorem Taken.filled : (v.advance h o w).filled h o w = fillOpen w.endp w.addr ((s.ranked h).map (fun r => r.1)) (s.stageq.get [] h) (128 * moveFlits o) := by
  have ranks : (v.advance h o w).ranked h = s.ranked h := ranked_same (hv.regs.advance o w) ((offstage_pln.advance w).trans hv.pln)
  rw [State.filled, ranks, offstage_stageq.advance, hv.stageq]

/-- What an open move has and leaves. -/
theorem Taken.open (x : List TxFrame × List StageRec × Nat) : let t := (v.advance h o w).startOpen h (newMove v h o w far) x
    ∃ m, t.gal.moves = s.gal.moves ++ [m] ∧ m.opened = true ∧ m.pull = bitOf o 48 ∧ m.frames = x.1 ∧ t.stageq.get [] h = x.2.1 ∧ t.alcove = s.alcove ∧ t.atrium = s.atrium := by
  have gal : (v.advance h o w).gal = s.gal := (offstage_gal.advance w).trans hv.gal
  exact ⟨_, congrArg (fun g => (GalSt.withMove g _).moves) gal, rfl, rfl, rfl, Tbl.get_put_same .., (offstage_alcove.advance w).trans hv.alcove,
    (offstage_atrium.advance w).trans hv.atrium⟩

end

/-! ### The delivery of a flit (R108, R109, R140, R141) -/

/-- π shows no faults either. -/
structure Faultless {α : Type} (π : State → α) : Prop extends Offstage π where
  flt : ∀ s f, π { s with flt := f } = π s

/-- Nor the moves under way. -/
structure Unmoved {α : Type} (π : State → α) : Prop extends Faultless π where
  gal : ∀ s g, π { s with gal := g } = π s

/-- A flit's clock comes: it is counted where it crosses the Gallery. -/
def State.flitAt (s : State) (m : Move) : State :=
  let u := s.atTime (m.flitTime m.sent)
  if m.isLocal then u else u.bump64 Fld.GAL_CNT_FLITS_LO_COUNT Fld.GAL_CNT_FLITS_HI_COUNT 1

/-- A move has one more flit behind it. -/
def State.afterFlit (s : State) (m : Move) : State := if m.sent + 1 = m.flits then s.endMove m.id else s.setMove { m with sent := m.sent + 1 }

/-- A flit is written into an alcove, poisoned where it is bad. -/
def State.writeFlit (s : State) (h a : Nat) (b : Bytes) (bad : Bool) (m : Move) : State :=
  (if bad then (s.putAlcove h a b).poisonAlcove h a 128 0 else s.putAlcove h a b).afterFlit m

section
variable {s t : State} {i h a n f : Nat} {m : Move} {b : Bytes} {bad : Bool}

theorem putAlcove_alcove : (s.putAlcove h a b).alcove = Memory.writeN s.alcove (h * 2 ^ 25 + a) b := by
  have read : (s.readProducer h).alcove = s.alcove := by
    unfold State.readProducer
    extract_lets q
    split
    · rfl
    · split <;> rfl
  exact congrArg (Memory.writeN · _ b) read

section
variable {α : Type} {π : State → α}

theorem Offstage.flitAt (hπ : Offstage π) : π (s.flitAt m) = π s := by
  unfold State.flitAt
  extract_lets u
  split
  · exact hπ.now _ _
  · exact (hπ.regs _ _).trans ((hπ.regs _ _).trans (hπ.now _ _))

theorem Faultless.poisonAlcove (hπ : Faultless π) (k : Nat) : π (s.poisonAlcove h a n k) = π s :=
  (alm_unseen hπ.regs hπ.flt ..).trans ((hπ.regs _ _).trans (hπ.flt _ _))

theorem Faultless.poisonBeat (hπ : Faultless π) (k : Nat) : π (s.poisonBeat h a k) = π s :=
  (alm_unseen hπ.regs hπ.flt ..).trans ((hπ.regs _ _).trans (hπ.flt _ _))

theorem Faultless.putAlcove (hπ : Faultless π) (ha : ∀ s m, π { s with alcove := m } = π s) : π (s.putAlcove h a b) = π s := by
  have read : π (s.readProducer h) = π s := by
    unfold State.readProducer
    extract_lets q
    split
    · rfl
    · split
      · exact hπ.seqs _ _
      · rfl
  exact (hπ.flt _ _).trans ((ha _ _).trans read)

theorem Faultless.writeAlcove (hπ : Faultless π) (ha : ∀ s m, π { s with alcove := m } = π s) :
    π (if bad then (s.putAlcove h a b).poisonAlcove h a 128 0 else s.putAlcove h a b) = π s := by
  cases bad
  · exact hπ.putAlcove ha
  · exact (hπ.poisonAlcove 0).trans (hπ.putAlcove ha)

variable (hπ : Unmoved π)
include hπ

theorem Unmoved.setMove : π (s.setMove m) = π s := hπ.gal _ _
theorem Unmoved.endMove : π (s.endMove i) = π s := hπ.gal _ _

theorem Unmoved.afterFlit : π (s.afterFlit m) = π s := by
  unfold State.afterFlit
  split
  · exact hπ.endMove
  · exact hπ.setMove

theorem Unmoved.writeFlit (ha : ∀ s m, π { s with alcove := m } = π s) : π (s.writeFlit h a b bad m) = π s :=
  hπ.afterFlit.trans (hπ.writeAlcove ha)

end

theorem faultless_gal : Faultless State.gal := ⟨offstage_gal, fun _ _ => rfl⟩
theorem unmoved_alcove : Unmoved State.alcove := ⟨⟨offstage_alcove, fun _ _ => rfl⟩, fun _ _ => rfl⟩
theorem unmoved_atrium : Unmoved State.atrium := ⟨⟨offstage_atrium, fun _ _ => rfl⟩, fun _ _ => rfl⟩
theorem unmoved_out : Unmoved State.out := ⟨⟨⟨fun _ _ => rfl, fun _ _ => rfl, fun _ _ => rfl⟩, fun _ _ => rfl⟩, fun _ _ => rfl⟩

theorem writeFlit_alcove : (s.writeFlit h a b bad m).alcove = Memory.writeN s.alcove (h * 2 ^ 25 + a) b := by
  refine unmoved_alcove.afterFlit.trans ?_
  cases bad
  · exact putAlcove_alcove
  · exact (unmoved_alcove.poisonAlcove 0).trans putAlcove_alcove

/-- The last flit ends its move. -/
theorem writeFlit_last (hl : m.sent + 1 = m.flits) : (s.writeFlit h a b bad m).gal.moves = s.gal.moves.filter (fun x => x.id != m.id) := by
  unfold State.writeFlit State.afterFlit
  rw [if_pos hl]
  exact congrArg (fun g : GalSt => g.moves.filter (fun x => x.id != m.id)) (faultless_gal.writeAlcove fun _ _ => rfl)

theorem putAlcove_regs : (s.putAlcove h a b).regs = s.regs := by
  have read : (s.readProducer h).regs = s.regs := by
    unfold State.readProducer
    extract_lets q
    split
    · rfl
    · split <;> rfl
  exact read

/-- A flit that is written leaves the registers of the Gallery. -/
theorem SameAt.writeFlit : SameAt BelowFaults s (s.writeFlit h a b bad m) := by
  have put : SameAt BelowFaults s (s.putAlcove h a b) := .of_regs putAlcove_regs
  have written : SameAt BelowFaults s (if bad then (s.putAlcove h a b).poisonAlcove h a 128 0 else s.putAlcove h a b) := by
    refine .ite (.almBelow (.setFld ?_ _ _ _ _ ?_) ..) put
    · exact put.trans (.of_regs rfl)
    · decide
  exact .ite (written.trans (.of_regs rfl)) (written.trans (.of_regs rfl))

theorem moveOf_id (hm : s.moveOf i = some m) : m.id = i := by
  simpa using List.find?_some hm

theorem moveOf_gal (hg : t.gal = s.gal) : t.moveOf i = s.moveOf i := by rw [State.moveOf, hg, State.moveOf]

/-- A move that is replaced is found. -/
theorem moveOf_setMove {m' : Move} (hm : s.moveOf i = some m) (hi : m'.id = i) : (s.setMove m').moveOf i = some m' := by
  have found : ∀ l : List Move, l.find? (fun x => x.id == i) = some m → (l.map fun x => if x.id = m'.id then m' else x).find? (fun x => x.id == i) = some m' := by
    intro l
    induction l with
    | nil => exact fun h => nomatch h
    | cons x l ih =>
      intro hf
      by_cases hx : x.id = i
      · rw [List.map_cons, if_pos (hx.trans hi.symm), List.find?_cons_of_pos (by simpa using hi)]
      · rw [List.find?_cons_of_neg (by simpa using hx)] at hf
        rw [List.map_cons, if_neg fun e => hx (e.trans hi), List.find?_cons_of_neg (by simpa using hx)]
        exact ih hf
  exact found _ hm

end

/-! #### Which flits are written where -/

section
variable {s : State} {m : Move}

theorem deliverFlit_pushAlcove (hp : m.pull = false) (he : m.endp < 0x10) :
    s.deliverFlit m = s.writeFlit m.far (m.addr + 128 * m.sent) (sliceB m.data (128 * m.sent) 128) (m.bad.contains m.sent) m := by
  have stack : isAtrium m.endp = false := by rw [isAtrium, decide_eq_false (by omega)]; rfl
  exact (if_neg (ne_true_of_eq_false hp)).trans ((if_neg (ne_true_of_eq_false stack)).trans (if_pos he))

theorem deliverFlit_pullAlcove (hp : m.pull = true) (he : isAtrium m.endp = false) : s.deliverFlit m =
    (s.poisonUse (s.alcoveBad m.far (m.addr + 128 * m.sent) 128)).writeFlit m.hall (m.laddr + 128 * m.sent)
      ((s.poisonUse (s.alcoveBad m.far (m.addr + 128 * m.sent) 128)).alcoveRead m.far (m.addr + 128 * m.sent) 128)
      (m.bad.contains m.sent || s.alcoveBad m.far (m.addr + 128 * m.sent) 128) m :=
  (if_pos hp).trans (if_neg (ne_true_of_eq_false he))

theorem deliverFlit_pullAtrium (hp : m.pull = true) (he : isAtrium m.endp = true) :
    s.deliverFlit m = s.writeFlit m.hall (m.laddr + 128 * m.sent) (sliceB m.data (128 * m.sent) 128) (m.bad.contains m.sent) m :=
  (if_pos hp).trans (if_pos he)

theorem deliverFlit_pushAtrium (hp : m.pull = false) (he : isAtrium m.endp = true) : s.deliverFlit m = s.setMove { m with sent := m.sent + 1 } :=
  (if_neg (ne_true_of_eq_false hp)).trans (if_pos he)

end

/-! #### The command -/

/-- A flit that fails its link check is counted and flagged. -/
def State.flitErr (s : State) (bad : Bool) : State := if bad then (s.bump Fld.GAL_CNT_FLIT_ERR_COUNT).raise Fld.GAL_STATUS_FLIT_ERR else s

section
variable {s : State} {i : Nat} {m : Move} {bad : Bool} (hm : s.moveOf i = some m)
include hm

theorem exec_moveFlitDeliver (hd : m.flitDue = true) : exec (.moveFlitDeliver i false) s = .next ((s.flitAt m).deliverFlit m) := by
  show execMoveFlitDeliver i false s = _
  rw [execMoveFlitDeliver, hm]
  dsimp only
  rw [hd, if_neg (by decide), if_neg (by simp)]
  rfl

/-- A push into an alcove crosses the Gallery. -/
theorem exec_moveFlitDeliver_pushAlcove (hd : m.flitDue = true) (hp : m.pull = false) (he : m.endp < 0x10) : exec (.moveFlitDeliver i bad) s = .next
    (((s.flitAt m).flitErr bad).writeFlit m.far (m.addr + 128 * m.sent) (sliceB m.data (128 * m.sent) 128) (bad || m.bad.contains m.sent)
      { m with bad := if bad then m.sent :: m.bad else m.bad }) := by
  have outside : m.isLocal = false := by rw [Move.isLocal, decide_eq_false (by omega)]; rfl
  cases bad with
  | false => rw [exec_moveFlitDeliver hm hd, deliverFlit_pushAlcove hp he]; rfl
  | true =>
    show execMoveFlitDeliver i true s = _
    rw [execMoveFlitDeliver, hm]
    dsimp only
    rw [hd, if_neg (by decide), outside]
    have hurt : (m.sent :: m.bad).contains m.sent = true := by simp
    rw [if_pos ⟨rfl, rfl⟩, deliverFlit_pushAlcove (m := { m with bad := m.sent :: m.bad }) hp he, hurt]
    unfold State.flitAt
    rw [outside]
    rfl

end

section
variable {s : State} {m : Move} {bad : Bool} {α : Type} {π : State → α}

theorem Offstage.flitErr (hπ : Offstage π) : π ((s.flitAt m).flitErr bad) = π s := by
  unfold State.flitErr
  split
  · exact (hπ.regs _ _).trans ((hπ.regs _ _).trans hπ.flitAt)
  · exact hπ.flitAt

theorem SameAt.flitAt {P : Nat → Prop} (hl : ¬ P (Reg.addr .GAL_CNT_FLITS_LO 0 0)) (hh : ¬ P (Reg.addr .GAL_CNT_FLITS_HI 0 0)) : SameAt P s (s.flitAt m) := by
  unfold State.flitAt
  extract_lets u
  have same : SameAt P s u := .of_regs rfl
  refine .ite same (.setFld (.setFld same _ _ _ _ ?_) _ _ _ _ ?_)
  exacts [hl, hh]

theorem addr_flitsLo : Reg.addr .GAL_CNT_FLITS_LO 0 0 = 0x3000008 := rfl
theorem addr_flitsHi : Reg.addr .GAL_CNT_FLITS_HI 0 0 = 0x300000c := rfl
theorem addr_laneStatus {n : Nat} : Reg.addr .LN_LANE_STATUS 0 n = 0x9000400 + 0 * 0 + 4 * n := rfl

theorem flitErr_shown : let t := (s.flitAt m).flitErr true
    t.flag Fld.GAL_STATUS_FLIT_ERR = true ∧ t.fld Fld.GAL_CNT_FLIT_ERR_COUNT = (s.fld Fld.GAL_CNT_FLIT_ERR_COUNT + 1) % 2 ^ 32 := by
  have same : SameAt (· = Reg.addr .GAL_CNT_FLIT_ERR 0 0) s (s.flitAt m) := .flitAt (by decide) (by decide)
  have count : (s.flitAt m).fld Fld.GAL_CNT_FLIT_ERR_COUNT = s.fld Fld.GAL_CNT_FLIT_ERR_COUNT := same.fld _ _ _ rfl
  refine ⟨flag_raise (by decide), ?_⟩
  show (((s.flitAt m).bump Fld.GAL_CNT_FLIT_ERR_COUNT).raise Fld.GAL_STATUS_FLIT_ERR).fld Fld.GAL_CNT_FLIT_ERR_COUNT = _
  rw [fld_raise_spares (by decide), fld_bump_same (by decide), count]
  rfl

end

/-! #### Records of lane buffers and flow rings (R108, R109, R143) -/

theorem length_sliceB (b : Bytes) (off n : Nat) : (sliceB b off n).length = n := by
  rw [sliceB, List.length_append, List.length_replicate]
  have := List.length_take_le n (b.drop off)
  omega

/-- The records of 60 to 120 octets take 128. -/
theorem recordSize_small {n : Nat} (low : 0x3C ≤ n) (high : n ≤ 120) : recordSize n = 128 := by unfold recordSize; omega

theorem flitDue_first {m : Move} (hf : 0 < m.flits) (hs : m.sent = 0) (hp : m.pull = false) : m.flitDue = true := by
  rw [Move.flitDue, hs, hp, decide_eq_true hf]
  rfl

section
variable {s t x : State} {m : Move} {h src f n : Nat} {b r : Bytes} {ts : Bool}

/-- A record joins the queue of a port that is up and has room. -/
theorem planEnqueue_up (up : s.portUp n = true) (room : queued (s.port n).planned + b.length ≤ 65536) : s.planEnqueue h n b ts =
    s.setPort n { s.port n with planned := (s.port n).planned ++ [{ octets := b, tstamp := ts, drops := [], send := none }] } := by
  rw [State.planEnqueue, up, if_neg (by decide), if_neg (Nat.not_lt.mpr room)]

/-- A push without another record is done. -/
theorem laneRecords_ended (hl : m.data.length < m.used + 64) : s.laneRecords m n = (s, m) := by
  cases n with
  | zero => rfl
  | succ n => exact if_pos (.inr (.inr hl))

/-- A lane-buffer push of one flit brings one record. -/
theorem laneRecords_single (hs : m.sent = 1) (hu : m.used = 0) (hd : m.dead = false) (ho : m.opened = false) (hb : m.bad = []) (hl : m.data.length = 128)
    (low : 0x3C ≤ leAt m.data 0 2) (high : leAt m.data 0 2 ≤ 120) :
    s.laneRecords m (n + 2) = (s.planEnqueue m.far m.addr (sliceB m.data 8 (leAt m.data 0 2)) (bitOf (leAt m.data 0 8) 16), { m with used := 128 }) := by
  obtain ⟨⟩ := m
  dsimp only at hs hu hd ho hb hl low high
  subst hs hu hd ho hb
  rw [State.laneRecords]
  dsimp only
  rw [if_neg (by rw [hl]; decide), if_neg (by omega), recordSize_small low high, if_neg (by decide)]
  exact laneRecords_ended (hl.trans_lt (by decide : 128 < 0 + 128 + 64))

theorem deliverFlit_lane {u : State} {m' : Move} (hp : m.pull = false) (low : 0x10 ≤ m.endp) (high : m.endp < 0x20)
    (hr : s.laneRecords { m with sent := m.sent + 1 } (m.flits * 2 + 1) = (u, m')) (last : m.sent + 1 = m'.flits) : s.deliverFlit m = u.endMove m'.id := by
  have stack : isAtrium m.endp = false := by rw [isAtrium, decide_eq_false (by omega)]; rfl
  refine (if_neg (ne_true_of_eq_false hp)).trans ((if_neg (ne_true_of_eq_false stack)).trans ((if_neg (by omega)).trans ((if_pos high).trans ?_)))
  rw [hr]
  exact if_pos last

theorem deliverFlit_flow (hp : m.pull = false) (low : 0x24 ≤ m.endp) (last : m.sent + 1 = m.flits) :
    s.deliverFlit m = (s.flowPush m.far m.hall m.addr (m.flits * 2 + 1) m.data).endMove m.id := by
  have stack : isAtrium m.endp = false := by rw [isAtrium, decide_eq_false (p := m.endp < 0x24) (by omega), Bool.and_false]
  exact (if_neg (ne_true_of_eq_false hp)).trans ((if_neg (ne_true_of_eq_false stack)).trans ((if_neg (by omega)).trans ((if_neg (by omega)).trans (if_pos last))))

/-- A flow push of one flit brings one record. -/
theorem flowPush_single (hl : b.length = 128) (low : 0x3C ≤ leAt b 0 2) (high : leAt b 0 2 ≤ 120) (ha : s.flowAppend h f (sliceB b 0 128) = (x, true)) :
    s.flowPush h src f (n + 2) b = x := by
  have rest : x.flowPush h src f (n + 1) (b.drop 128) = x := by
    rw [State.flowPush, if_pos]
    rw [List.length_drop, hl]; decide
  rw [State.flowPush, if_neg (by omega), if_neg (by omega), if_neg (by omega), recordSize_small low high]
  dsimp only
  rw [ha]
  exact rest

/-- The octets of the pad record that keeps a record from crossing the end of a ring. -/
def padFor (size p n : Nat) : Nat := if size - p % size < n then size - p % size else 0

/-- A record joins a ring with room. -/
def State.append (s : State) (h base size : Nat) (r : Bytes) : State :=
  let p := s.producer h base
  let pad := padFor size p r.length
  let s := if pad = 0 then s else s.putAlcove h (base + 64 + p % size) (leBytes 8 0xFFFF)
  let s := s.putAlcove h (base + 64 + (p + pad) % size) r
  s.putAlcove h base (leBytes 4 (add32 p (pad + r.length)))

theorem flowAppend_some {base size : Nat} (hr : s.flow h f = some (base, size)) : s.flowAppend h f r =
    if s.flowRoom h base size < padFor size (s.producer h base) r.length + r.length then (s, false) else (s.append h base size r, true) := by
  rw [State.flowAppend, hr]
  rfl

/-- What a record does to a ring depends on the alcove and the rings. -/
theorem flowAppend_same (ha : t.alcove = s.alcove) (hf : t.flows = s.flows) :
    (t.flowAppend h f r).1.alcove = (s.flowAppend h f r).1.alcove ∧ (t.flowAppend h f r).2 = (s.flowAppend h f r).2 := by
  have flow : t.flow h f = s.flow h f := by rw [State.flow, hf, State.flow]
  cases hr : s.flow h f with
  | none => rw [State.flowAppend, State.flowAppend, flow, hr]; exact ⟨ha, rfl⟩
  | some ring =>
    have read (a n : Nat) : t.alcoveRead h a n = s.alcoveRead h a n := by rw [State.alcoveRead, ha, State.alcoveRead]
    have producer : t.producer h ring.1 = s.producer h ring.1 := congrArg leNat (read _ _)
    have room : t.flowRoom h ring.1 ring.2 = s.flowRoom h ring.1 ring.2 := by rw [State.flowRoom, producer, State.consumer, read]; rfl
    rw [flowAppend_some (flow.trans hr), flowAppend_some hr, room, producer]
    split
    · exact ⟨ha, rfl⟩
    · refine ⟨?_, rfl⟩
      simp only [State.append, producer, putAlcove_alcove, apply_ite State.alcove, ha]

theorem flowAppend_gal : (s.flowAppend h f r).1.gal = s.gal := by
  have put (u : State) (a : Nat) (b : Bytes) : (u.putAlcove h a b).gal = u.gal := faultless_gal.putAlcove fun _ _ => rfl
  cases hr : s.flow h f with
  | none => rw [State.flowAppend, hr]
  | some ring =>
    rw [flowAppend_some hr]
    split
    · rfl
    · simp only [State.append, put, apply_ite State.gal, ite_self]

end

/-! ### Beats of a stack (R149, R150) -/

/-- A stack reads a beat: what the code says of it is counted. -/
def State.readBeat (s : State) (m : Move) (ecc : Nat) : State :=
  let s := s.atTime (m.beatTime m.beats)
  let s := s.poisonUse (s.beatBad m.far m.beatAt)
  let s := if ecc = 1 then s.bump Fld.ATR_CNT_CE_COUNT 0 m.far else s
  if 2 ≤ ecc then (s.bump Fld.ATR_CNT_UE_COUNT 0 m.far).alm 0x0302 5 0xFF 5 m.far (leBytes 1 1 ++ leBytes 1 m.far ++ leBytes 8 m.beatAt) else s

/-- A stack writes a beat, poisoned where a flit of it is. -/
def State.writeBeat (s : State) (m : Move) : State :=
  let s := (s.atTime (m.beatTime m.beats)).putBeat m.far m.beatAt (sliceB m.data (512 * m.beats) 512)
  if m.beatHurt then s.poisonBeat m.far m.beatAt 0 else s

/-- The flits of a read beat that are poisoned. -/
def beatFlits (s : State) (m : Move) (ecc : Nat) : List Nat :=
  if (s.atTime (m.beatTime m.beats)).beatBad m.far m.beatAt = true ∨ 2 ≤ ecc then (List.range 4).map (· + 4 * m.beats) else []

section
variable {s : State} {i ecc : Nat} {m : Move} (hm : s.moveOf i = some m) (he : isAtrium m.endp = true) (hb : 4 * m.beats < m.flits)
include hm he hb

theorem exec_atriumBeat_write (hp : m.pull = false) (hs : 4 * (m.beats + 1) ≤ m.sent) : exec (.atriumBeat i ecc) s = .next
    (if m.flits ≤ 4 * (m.beats + 1) then (s.writeBeat m).endMove m.id else (s.writeBeat m).setMove { m with beats := m.beats + 1 }) := by
  have due : ¬ ((!isAtrium m.endp) = true ∨ m.flits ≤ 4 * m.beats) := by rw [he]; simpa using hb
  show execAtriumBeat i ecc s = _
  rw [execAtriumBeat, hm]
  exact (if_neg due).trans ((if_neg (ne_true_of_eq_false hp)).trans (if_neg (Nat.not_lt.mpr hs)))

theorem exec_atriumBeat_read (hp : m.pull = true) : exec (.atriumBeat i ecc) s = .next ((s.readBeat m ecc).setMove
    { m with data := m.data ++ (s.readBeat m ecc).atriumRead m.far m.beatAt 512, beats := m.beats + 1, bad := beatFlits s m ecc ++ m.bad }) := by
  have due : ¬ ((!isAtrium m.endp) = true ∨ m.flits ≤ 4 * m.beats) := by rw [he]; simpa using hb
  show execAtriumBeat i ecc s = _
  rw [execAtriumBeat, hm]
  exact (if_neg due).trans (if_pos hp)

end

section
variable {s : State} {m : Move} {ecc : Nat} {α : Type} {π : State → α}

theorem Faultless.readBeat (hπ : Faultless π) : π (s.readBeat m ecc) = π s := by
  unfold State.readBeat
  extract_lets u v w
  have timed : π v = π s := (hπ.poisonUse _).trans (hπ.now _ _)
  have counted : π w = π s := by
    refine Eq.trans ?_ timed
    show π (if _ then _ else _) = _
    split
    · exact hπ.regs _ _
    · rfl
  split
  · exact (alm_unseen hπ.regs hπ.flt ..).trans ((hπ.regs _ _).trans counted)
  · exact counted

theorem Faultless.writeBeat (hπ : Faultless π) : π (s.writeBeat m) = π (s.putBeat m.far m.beatAt (sliceB m.data (512 * m.beats) 512)) := by
  unfold State.writeBeat
  extract_lets u
  have put : π u = π (s.putBeat m.far m.beatAt (sliceB m.data (512 * m.beats) 512)) :=
    (hπ.now (s.putBeat m.far m.beatAt (sliceB m.data (512 * m.beats) 512)) u.now)
  split
  · exact (hπ.poisonBeat 0).trans put
  · exact put

end

section
variable {s x : State} {i : Nat} {m : Move}

/-- A flit of a push into an alcove writes its octets there and nothing else; the last ends the push; one that fails its link check is shown. -/
theorem flit_reaches_alcove (hm : s.moveOf i = some m) (bad : Bool) (hd : m.flitDue = true) (hp : m.pull = false) (he : m.endp < 0x10) :
    ∃ t, exec (.moveFlitDeliver i bad) s = .next t ∧ t.alcove = (s.putAlcove m.far (m.addr + 128 * m.sent) (sliceB m.data (128 * m.sent) 128)).alcove ∧
      t.atrium = s.atrium ∧ t.out = s.out ∧ (m.sent + 1 = m.flits → t.gal.moves = s.gal.moves.filter (fun x => x.id != i)) ∧
      (bad = true → t.flag Fld.GAL_STATUS_FLIT_ERR = true ∧ t.fld Fld.GAL_CNT_FLIT_ERR_COUNT = (s.fld Fld.GAL_CNT_FLIT_ERR_COUNT + 1) % 2 ^ 32) := by
  refine ⟨_, exec_moveFlitDeliver_pushAlcove hm hd hp he, ?_, ?_, ?_, ?_, ?_⟩
  · exact writeFlit_alcove.trans ((congrArg (Memory.writeN · _ _) unmoved_alcove.flitErr).trans putAlcove_alcove.symm)
  · exact (unmoved_atrium.writeFlit fun _ _ => rfl).trans unmoved_atrium.flitErr
  · exact (unmoved_out.writeFlit fun _ _ => rfl).trans unmoved_out.flitErr
  · intro last
    refine (writeFlit_last (m := { m with bad := if bad then m.sent :: m.bad else m.bad }) last).trans ?_
    show List.filter (fun x : Move => x.id != m.id) _ = _
    rw [moveOf_id hm]
    exact congrArg (fun g : GalSt => g.moves.filter (fun x => x.id != i)) faultless_gal.flitErr
  · rintro rfl
    rw [SameAt.writeFlit.flag Fld.GAL_STATUS_FLIT_ERR 0 0 (by decide), SameAt.writeFlit.fld Fld.GAL_CNT_FLIT_ERR_COUNT 0 0 (by decide)]
    exact flitErr_shown

/-- A push of one flit, all of it one record, brings that record into the lane's planned queue. -/
theorem record_reaches_lane (hm : s.moveOf i = some m) (hp : m.pull = false) (low : 0x10 ≤ m.endp) (high : m.endp < 0x20) (hf : m.flits = 1) (hs : m.sent = 0) (hu : m.used = 0)
    (hdead : m.dead = false) (ho : m.opened = false) (hbad : m.bad = []) (hl : m.data.length = 128) (short : 0x3C ≤ leAt m.data 0 2) (long : leAt m.data 0 2 ≤ 120)
    (up : s.portUp m.addr = true) (room : queued (s.port m.addr).planned + leAt m.data 0 2 ≤ 65536) :
    ∃ t, exec (.moveFlitDeliver i false) s = .next t ∧ t.alcove = s.alcove ∧ t.gal.moves = s.gal.moves.filter (fun x => x.id != i) ∧ (t.port m.addr).planned =
      (s.port m.addr).planned ++ [{ octets := sliceB m.data 8 (leAt m.data 0 2), tstamp := bitOf (leAt m.data 0 8) 16, drops := [], send := none }] := by
  have due : m.flitDue = true := flitDue_first (by omega) hs hp
  have port (n : Nat) : (s.flitAt m).port n = s.port n := by rw [State.port, offstage_ln.flitAt, State.port]
  have link : (s.flitAt m).portUp m.addr = true := by
    have same : SameAt (· = Reg.addr .LN_LANE_STATUS 0 m.addr) s (s.flitAt m) := .flitAt (by rw [addr_laneStatus, addr_flitsLo]; omega) (by rw [addr_laneStatus, addr_flitsHi]; omega)
    rw [State.portUp, same.flag Fld.LN_LANE_STATUS_LINK_UP 0 m.addr rfl]
    exact up
  have record := laneRecords_single (s := s.flitAt m) (m := { m with sent := m.sent + 1 }) (n := 1) (by simp [hs]) hu hdead ho hbad hl short long
  rw [planEnqueue_up link (by rw [port, length_sliceB]; exact room), port] at record
  have fuel : m.flits * 2 + 1 = 1 + 2 := by rw [hf]
  rw [← fuel] at record
  refine ⟨_, exec_moveFlitDeliver hm due, ?_⟩
  rw [deliverFlit_lane hp low high record (by rw [hs]; exact hf.symm)]
  refine ⟨unmoved_alcove.flitAt, ?_, congrArg PortSt.planned (Tbl.get_put_same ..)⟩
  show List.filter (fun x : Move => x.id != m.id) (s.flitAt m).gal.moves = _
  rw [moveOf_id hm, faultless_gal.flitAt]

/-- A push of one flit, all of it one record, appends that record to the flow ring. -/
theorem record_reaches_flow (hm : s.moveOf i = some m) (hp : m.pull = false) (low : 0x24 ≤ m.endp) (hf : m.flits = 1) (hs : m.sent = 0)
    (hl : m.data.length = 128) (short : 0x3C ≤ leAt m.data 0 2) (long : leAt m.data 0 2 ≤ 120)
    (append : s.flowAppend m.far m.addr (sliceB m.data 0 128) = (x, true)) :
    ∃ t, exec (.moveFlitDeliver i false) s = .next t ∧ t.alcove = x.alcove ∧ t.gal.moves = s.gal.moves.filter (fun x => x.id != i) := by
  have due : m.flitDue = true := flitDue_first (by omega) hs hp
  obtain ⟨alcove, done⟩ := flowAppend_same (h := m.far) (f := m.addr) (r := sliceB m.data 0 128) unmoved_alcove.flitAt (offstage_flows.flitAt (s := s) (m := m))
  have gal := flowAppend_gal (s := s.flitAt m) (h := m.far) (f := m.addr) (r := sliceB m.data 0 128)
  rw [append] at alcove done
  have pushed := flowPush_single (src := m.hall) (n := 1) hl short long (Prod.ext rfl done)
  refine ⟨_, exec_moveFlitDeliver hm due, ?_⟩
  rw [deliverFlit_flow hp low (by omega), hf, pushed]
  refine ⟨alcove, ?_⟩
  show List.filter (fun x : Move => x.id != m.id) ((s.flitAt m).flowAppend m.far m.addr (sliceB m.data 0 128)).1.gal.moves = _
  rw [moveOf_id hm, gal, faultless_gal.flitAt]

end

/-- Settles O15: a move by what its issue leaves, a flit and a beat by the equation of the place it goes to. -/
theorem movesStartAndArrive : Obligations.MovesStartAndArrive := by
  unfold Obligations.MovesStartAndArrive Gives
  refine ⟨fun h o s hi => ⟨fun hn => ?_, fun far hb hf ho => ?_, fun far hb hf ho => ?_⟩, ?_⟩
  · have hv := taken (s := s) (h := h) (o := o) (slot := 0) (n := moveSpan (pointersAt s h 0 o) h o ((pointersAt s h 0 o).ptrFor h (bitsOf o 47 44) o).endp)
    refine ⟨_, exec_move_suppressed hi rfl rfl (hn.imp_right fun hf => (hv.farEnd ..).trans hf), congrArg GalSt.moves hv.gal, hv.suppressed, hv.alcove, hv.atrium⟩
  · have hv := taken (s := s) (h := h) (o := o) (slot := 0) (n := moveSpan (pointersAt s h 0 o) h o ((pointersAt s h 0 o).ptrFor h (bitsOf o 47 44) o).endp)
    have run := exec_move hi rfl rfl hb ((hv.farEnd ..).trans hf)
    rw [if_neg (ne_true_of_eq_false ho)] at run
    obtain ⟨m, fields⟩ := hv.static (w := (pointersAt s h 0 o).ptrFor h (bitsOf o 47 44) o) (o := o) (far := far)
    exact ⟨_, m, run, fields⟩
  · have hv := taken (s := s) (h := h) (o := o) (slot := 0) (n := moveSpan (pointersAt s h 0 o) h o ((pointersAt s h 0 o).ptrFor h (bitsOf o 47 44) o).endp)
    have run := exec_move hi rfl rfl hb ((hv.farEnd ..).trans hf)
    rw [if_pos ho, hv.filled] at run
    obtain ⟨m, fields⟩ := hv.open (w := (pointersAt s h 0 o).ptrFor h (bitsOf o 47 44) o) (o := o) (far := far)
      (fillOpen ((pointersAt s h 0 o).ptrFor h (bitsOf o 47 44) o).endp ((pointersAt s h 0 o).ptrFor h (bitsOf o 47 44) o).addr ((s.ranked h).map (fun r => r.1))
        (s.stageq.get [] h) (128 * moveFlits o))
    exact ⟨_, m, run, fields⟩
  · refine fun i m s hm => ⟨fun bad hd hp he => ?_, fun hd hp he => ?_, fun hd hp he => ?_, fun hd hp he => ?_, ?_, ?_, ?_, ?_⟩
    · exact flit_reaches_alcove hm bad hd hp he
    · refine ⟨_, exec_moveFlitDeliver hm hd, ?_⟩
      rw [deliverFlit_pullAlcove hp he]
      refine ⟨?_, ?_, ?_⟩
      · rw [writeFlit_alcove, State.alcoveRead, unmoved_alcove.toOffstage.poisonUse, unmoved_alcove.flitAt, putAlcove_alcove]
        rfl
      · exact (unmoved_atrium.writeFlit fun _ _ => rfl).trans ((offstage_atrium.poisonUse _).trans unmoved_atrium.flitAt)
      · exact (unmoved_out.writeFlit fun _ _ => rfl).trans ((unmoved_out.toOffstage.poisonUse _).trans unmoved_out.flitAt)
    · refine ⟨_, exec_moveFlitDeliver hm hd, ?_⟩
      rw [deliverFlit_pullAtrium hp he]
      refine ⟨?_, ?_, ?_⟩
      · exact writeFlit_alcove.trans ((congrArg (Memory.writeN · _ _) unmoved_alcove.flitAt).trans putAlcove_alcove.symm)
      · exact (unmoved_atrium.writeFlit fun _ _ => rfl).trans unmoved_atrium.flitAt
      · exact (unmoved_out.writeFlit fun _ _ => rfl).trans unmoved_out.flitAt
    · refine ⟨_, exec_moveFlitDeliver hm hd, ?_⟩
      rw [deliverFlit_pushAtrium hp he]
      exact ⟨unmoved_alcove.flitAt, unmoved_atrium.flitAt, moveOf_setMove ((moveOf_gal faultless_gal.flitAt).trans hm) (moveOf_id hm :)⟩
    · exact record_reaches_lane hm
    · exact fun x hp low _ hf hs _ => record_reaches_flow hm hp low hf hs
    · intro he hb hp hs
      refine ⟨_, exec_atriumBeat_write hm he hb hp hs, ?_, ?_, fun last => ?_⟩
      · rw [apply_ite State.alcove]
        exact (ite_self _).trans unmoved_alcove.writeBeat
      · rw [apply_ite State.atrium]
        exact (ite_self _).trans unmoved_atrium.writeBeat
      · rw [if_pos last, moveOf_id hm]
        exact congrArg (fun g : GalSt => g.moves.filter (fun x => x.id != i)) faultless_gal.writeBeat
    · intro ecc he hb hp
      refine ⟨_, exec_atriumBeat_read hm he hb hp, ?_, ?_, _, moveOf_setMove ((moveOf_gal faultless_gal.readBeat).trans hm) (moveOf_id hm :), ?_, rfl, rfl⟩
      · exact unmoved_alcove.readBeat
      · exact unmoved_atrium.readBeat
      · rw [State.atriumRead, unmoved_atrium.readBeat]
        rfl

end Sys2Proof.Machine
end

section
/-! PROOFS. Buffer operations and hand-offs of tread programs (R118, R119, R326, R329, R331, R370). -/

open Sys2Proof.Spec

namespace Sys2Proof.Machine

section
variable {s t : State} {h k o slot n a i : Nat}

/-! ### The sequencer across the results of ALLOCs -/

theorem seq_setPtr (e a : Nat) (b : Option Nat) : (s.setPtr h k e a b).seq i = s.seq i := rfl

theorem seq_allocLand (x : Alloc) : ∃ sp, (s.allocLand h x).seq h = { s.seq h with spans := sp } := by
  unfold State.allocLand
  split
  · exact ⟨(s.seq h).spans, rfl⟩
  next id lo hi _ => exact ⟨(s.seq h).spans.put x.ptr (lo, hi), seq_setSeq s h _⟩

/-- Results of ALLOCs change a sequencer's spans and what it waits for. -/
theorem seq_allocsLand : ∃ sp al, (s.allocsLand h).seq h = { s.seq h with spans := sp, allocs := al } := by
  refine List.foldlRecOn (motive := fun u : State => ∃ sp al, u.seq h = { s.seq h with spans := sp, allocs := al }) _ _ ⟨_, _, seq_setSeq s h _⟩ ?_
  rintro u ⟨sp, al, hu⟩ x -
  obtain ⟨sp', hx⟩ := seq_allocLand (s := u) (h := h) x
  exact ⟨sp', al, by rw [hx, hu]⟩

/-- The state in which a BUF op of hall h acts. -/
def bufAt (s : State) (h o : Nat) : State := ((issued s h 2 o).occupy h o 1).allocsLand h

theorem start_bufAt : ((bufAt s h o).seq h).start = (s.seq h).start := by
  obtain ⟨sp, al, hu⟩ := seq_allocsLand (s := (issued s h 2 o).occupy h o 1) (h := h)
  rw [bufAt, hu, seq_occupy]
  exact start_issued

theorem hands_bufAt : ((bufAt s h o).seq h).hands = (s.seq h).hands := by
  obtain ⟨sp, al, hu⟩ := seq_allocsLand (s := (issued s h 2 o).occupy h o 1) (h := h)
  rw [bufAt, hu, seq_occupy, seq_issued]

theorem sameAt_bufAt : SameAt (BelowPtrs h) s (bufAt s h o) :=
  (SameAt.of_regs rfl : SameAt _ s ((issued s h 2 o).occupy h o 1)).trans sameAt_allocsLand

theorem Offstage.bufAt {α : Type} {π : State → α} (hπ : Offstage π) : π (bufAt s h o) = π s :=
  hπ.allocsLand.trans ((hπ.seqs _ _).trans ((hπ.now _ _).trans (hπ.seqs _ _)))

theorem clocks_bufAt (hh : h < 18) : (bufAt s h o).clocks h = s.clocks h := by
  have low : BelowPtrs h (Reg.addr .CALM_HALL_STATE 0 h) := by show 0x200 + 0 * 0 + 4 * h < _; omega
  rw [State.clocks, sameAt_bufAt.fld Fld.CALM_HALL_STATE_GRADE 0 h low, State.clocks]

theorem handoff_same (hs : SameAt (BelowPtrs h) s t) (hf : t.handoffs = s.handoffs) (x : Nat) : t.handoff h x = s.handoff h x := by
  have state : BelowPtrs h (Reg.addr .TSQ_STATE h 0) := by show 0x10000000 + 0x1000000 * h + 0 * 0 < _; omega
  unfold State.handoff State.logicalOf
  rw [hs.fld Fld.TSQ_STATE_ROLE h 0 state, hs.fld Fld.TSQ_STATE_LOGICAL h 0 state, hf]

/-! ### ALLOC and its result (R119) -/

/-- An ALLOC of a hall waits for its clock. -/
def State.addAlloc (s : State) (h : Nat) (x : Alloc) : State := s.setSeq h { s.seq h with allocs := (s.seq h).allocs ++ [x] }

/-- The clock at which an ALLOC is answered. -/
def allocDue (s : State) (h o : Nat) : Nat := clockAt (s.seq h).start (Plan.offset o + 32) (s.clocks h)

section
variable (hi : Issues s h 2 0x32 o)
include hi

theorem allocDue_bufAt : clockAt (((bufAt s h o).notePtr h (bitsOf o 45 42) o).seq h).start (Plan.offset o + 32) (((bufAt s h o).notePtr h (bitsOf o 45 42) o).clocks h) = allocDue s h o := by
  have start : (((bufAt s h o).notePtr h (bitsOf o 45 42) o).seq h).start = ((bufAt s h o).seq h).start := (congrArg SeqSt.start (seq_setSeq ..)).trans rfl
  have clocks : ((bufAt s h o).notePtr h (bitsOf o 45 42) o).clocks h = (bufAt s h o).clocks h := rfl
  rw [start, start_bufAt, clocks, clocks_bufAt (lt_of_issues hi), allocDue]

variable (ho : bitsOf o 48 46 = 0) (hb : (bufAt s h o).ptrBuf h (bitsOf o 45 42) = none)
include ho hb

theorem exec_bufOpAlloc_unbound (hn : (bufAt s h o).handoff h (bitsOf o 36 29) = none) : exec (.bufOpAlloc h) s = .next
    ((((bufAt s h o).notePtr h (bitsOf o 45 42) o).bump Fld.TSQ_CNT_ALLOC_FAIL_COUNT h).addAlloc h
      { ptr := bitsOf o 45 42, due := allocDue s h o, stack := bitsOf o 38 37, result := none }) := by
  have free : ((bufAt s h o).notePtr h (bitsOf o 45 42) o).ptrBuf h (bitsOf o 45 42) = none := hb
  have due := allocDue_bufAt hi
  have unbound : ((bufAt s h o).notePtr h (bitsOf o 45 42) o).handoff h (bitsOf o 36 29) = none := hn
  unfold bufAt at hb free due unbound ⊢
  show execBufOpAlloc h s = _
  rw [execBufOpAlloc, takeOp_of_issues hi]
  simp only [ho, hb, orphan_of_none free, ne_eq, not_true_eq_false, if_false, Option.isSome_none, Bool.false_eq_true, due, unbound]
  rfl

theorem exec_bufOpAlloc {own q id m : Nat} {v : State} {r : Region} (hn : (bufAt s h o).handoff h (bitsOf o 36 29) = some (own, q))
    (ha : ((bufAt s h o).notePtr h (bitsOf o 45 42) o).allocFor own (bitsOf o 41 39) 1 (bitsOf o 38 37) = (v, .inl id)) (hr : v.regionOf id = some (m, r)) :
    exec (.bufOpAlloc h) s = .next (v.addAlloc h
      { ptr := bitsOf o 45 42, due := allocDue s h o, stack := bitsOf o 38 37, result := some (id, r.dataAt id, r.dataAt id + classSize (bitsOf o 41 39)) }) := by
  have free : ((bufAt s h o).notePtr h (bitsOf o 45 42) o).ptrBuf h (bitsOf o 45 42) = none := hb
  have due := allocDue_bufAt hi
  have bound : ((bufAt s h o).notePtr h (bitsOf o 45 42) o).handoff h (bitsOf o 36 29) = some (own, q) := hn
  unfold bufAt at hb free due bound ha
  show execBufOpAlloc h s = _
  rw [execBufOpAlloc, takeOp_of_issues hi]
  simp only [ho, hb, orphan_of_none free, ne_eq, not_true_eq_false, if_false, Option.isSome_none, Bool.false_eq_true, due, bound, ha, hr]
  rfl

end

/-- The oldest ALLOC of a hall is answered. -/
theorem exec_bufAllocResult {x : Alloc} {rest : List Alloc} (hx : (s.seq h).allocs = x :: rest) (hd : x.due ≤ max s.now a) :
    exec (.bufAllocResult h a) s = .next (((s.atTime a).setSeq h { s.seq h with allocs := rest }).allocLand h x) := by
  have there : ((s.atTime a).seq h).allocs = x :: rest := hx
  show execBufAllocResult h a s = _
  simp only [execBufAllocResult, there]
  exact if_neg (Nat.not_lt.mpr hd)

/-- An ALLOC that failed leaves its pointer invalid. -/
theorem allocLand_failed {x : Alloc} (hr : x.result = none) (hp : x.ptr < 16) :
    ((s.allocLand h x).seq h).allocs = (s.seq h).allocs ∧ (s.allocLand h x).flag Fld.TSQ_PTR_HI_VALID h x.ptr = false ∧ (s.allocLand h x).ptrBuf h x.ptr = none := by
  rw [State.allocLand, hr]
  exact ⟨rfl, ptrValid_setPtr hp, ptrBuf_setPtr hp⟩

/-- One that succeeded sets its pointer to its buffer. -/
theorem allocLand_made {x : Alloc} {id lo hi : Nat} (hr : x.result = some (id, lo, hi)) (hp : x.ptr < 16) (hd : id < 2 ^ 32) (hs : x.stack < 4) : let t := s.allocLand h x
    (t.seq h).allocs = (s.seq h).allocs ∧ (t.seq h).spans.get (0, 0) x.ptr = (lo, hi) ∧ t.ptrBuf h x.ptr = some id ∧ t.ptrEndp h x.ptr = 0x20 + x.stack ∧
      t.ptrAddr h x.ptr = lo % 2 ^ 39 := by
  rw [State.allocLand, hr]
  refine ⟨(congrArg SeqSt.allocs (seq_setSeq s h _)).trans rfl, ?_, ?_, (ptrEndp_setPtr hp).trans (by omega), ptrAddr_setPtr hp⟩
  · exact (congrArg (fun q : SeqSt => q.spans.get (0, 0) x.ptr) (seq_setSeq s h _)).trans (Tbl.get_put_same ..)
  · exact (ptrBuf_setPtr hp).trans (congrArg some (Nat.mod_eq_of_lt hd))

/-! ### HAND and RELEASE (R119) -/

theorem exec_bufOpHand {id : Nat} (hi : Issues s h 2 0x32 o) (ho : bitsOf o 48 46 = 1) (hb : ((bufAt s h o).ptrFor h (bitsOf o 45 42) o).buf = some id) :
    exec (.bufOpHand h) s = .next ((bufAt s h o).setSeq h { (bufAt s h o).seq h with hands := ((bufAt s h o).seq h).hands ++
      [{ moves := ((bufAt s h o).gal.moves.filter (fun m => m.hall == h && m.ptr == bitsOf o 45 42)).map (fun m => m.id), ptr := bitsOf o 45 42, buffer := id, hx := bitsOf o 36 29 }] }) := by
  unfold bufAt at hb ⊢
  show execBufOpHand h s = _
  rw [execBufOpHand, takeOp_of_issues hi]
  simp only [ho, hb]
  rfl

theorem exec_bufOpRelease {id : Nat} (hi : Issues s h 2 0x32 o) (ho : bitsOf o 48 46 = 2) (hb : ((bufAt s h o).ptrFor h (bitsOf o 45 42) o).buf = some id) :
    exec (.bufOpRelease h) s = .next ((((bufAt s h o).notePtr h (bitsOf o 45 42) o).drop id).voidPtr h (bitsOf o 45 42)) := by
  unfold bufAt at hb ⊢
  show execBufOpRelease h s = _
  rw [execBufOpRelease, takeOp_of_issues hi]
  simp only [ho, hb]
  rfl

theorem exec_handPost {x : Hand} {own q : Nat} (hx : (s.seq h).hands.find? s.handDue = some x) (hb : s.ptrBuf h x.ptr = some x.buffer) (hq : s.handoff h x.hx = some (own, q)) :
    exec (.handPost h) s = .next (((s.setSeq h { s.seq h with hands := removeFirst (fun y => y == x) (s.seq h).hands }).voidPtr h x.ptr).offer h
      { queue := q, buffer := some x.buffer, data := [], len := s.ptrAddr h x.ptr - ((s.seq h).spans.get (0, 0) x.ptr).1, mark := 0, low := 0, stamp := s.now }) := by
  have bound : ((s.setSeq h { s.seq h with hands := removeFirst (fun y => y == x) (s.seq h).hands }).voidPtr h x.ptr).handoff h x.hx = some (own, q) :=
    (handoff_same (((SameAt.refl _).setPtr x.ptr 0x3F 0 none).trans (.refl _)) rfl _).trans hq
  show execHandPost h s = _
  simp only [execHandPost, hx, hb, beq_self_eq_true, Bool.not_true, Bool.false_eq_true, if_false, bound]
  rfl

/-! ### Deliveries (R369, R370) -/

/-- A hall's delivery queue, with the queues that its entries name fetched. -/
def skimmed (s : State) (h : Nat) : State := (s.waiting h).foldl (fun (s : State) (d : Delivery) => s.rqSkim d.queue 16) s

theorem exec_rqDelivery {d : Delivery} (hd : ((skimmed s h).waiting h).find? (fun d => (skimmed s h).rqReady d.queue || !(skimmed s h).rqThere d.queue) = some d) :
    let u := (skimmed s h).setWaiting h (removeFirst (fun e => e == d) ((skimmed s h).waiting h))
    exec (.rqDelivery h) s = .next (if (skimmed s h).rqThere d.queue then u.deliverNow d else u.dropDelivery d) := by
  unfold skimmed at hd
  show execRqDelivery h s = _
  simp only [execRqDelivery, hd]
  rfl

/-- A handed-off buffer is delivered with its descriptor. -/
theorem deliverNow_handed {d : Delivery} {e : Desc} {rest : List Desc} {id : Nat} (hr : (s.queue d.queue).ready = e :: rest) (hk : (s.queue d.queue).kind = 1)
    (hb : d.buffer = some id) : s.deliverNow d = s.rqDone d.queue St.success d.mark id d.len d := by
  have pool : ¬ (s.queue d.queue).kind = 0 := by omega
  simp only [State.deliverNow, hr, if_neg pool, hb]

end

/-- Settles O17: each op by its own effect on the state in which it acts. -/
theorem bufferOpsOfPrograms : Obligations.BufferOpsOfPrograms := by
  unfold Obligations.BufferOpsOfPrograms Gives
  refine fun h o t s => ⟨fun hi ho hb => ⟨fun hn => ?_, fun own q v id n r hn ha hr => ?_⟩, fun a rest hh hx hd hp => ⟨fun hr => ?_, fun id lo hi hr hid hst => ?_⟩,
    fun id hi ho hb => ?_, fun x own q => exec_handPost, fun id => exec_bufOpRelease, fun d hd => ⟨fun there => ?_, fun gone => ?_⟩, fun d e rest id => deliverNow_handed⟩
  · refine ⟨_, exec_bufOpAlloc_unbound hi ho hb hn, ?_, ?_⟩
    · rw [State.addAlloc, seq_setSeq]
      exact congrArg (· ++ _) ((congrArg SeqSt.allocs (seq_setSeq ..)).trans rfl)
    · have below : BelowPtrs h (Reg.addr .TSQ_CNT_ALLOC_FAIL h 0) := by show 0x10000028 + 0x1000000 * h + 0 * 0 < _; omega
      have before : ((bufAt s h o).notePtr h (bitsOf o 45 42) o).fld Fld.TSQ_CNT_ALLOC_FAIL_COUNT h = s.fld Fld.TSQ_CNT_ALLOC_FAIL_COUNT h :=
        sameAt_bufAt.fld Fld.TSQ_CNT_ALLOC_FAIL_COUNT h 0 below
      exact (fld_bump_same (by decide)).trans (by rw [before]; rfl)
  · exact exec_bufOpAlloc hi ho hb hn ha hr
  · refine ⟨_, exec_bufAllocResult hx hd, ?_⟩
    obtain ⟨allocs, invalid, free⟩ := allocLand_failed (s := (s.atTime t).setSeq h { s.seq h with allocs := rest }) (h := h) hr hp
    exact ⟨allocs.trans (congrArg SeqSt.allocs (seq_setSeq ..)), invalid, free⟩
  · refine ⟨_, exec_bufAllocResult hx hd, ?_⟩
    obtain ⟨allocs, made⟩ := allocLand_made (s := (s.atTime t).setSeq h { s.seq h with allocs := rest }) (h := h) hr hp hid hst
    exact ⟨allocs.trans (congrArg SeqSt.allocs (seq_setSeq ..)), made⟩
  · refine ⟨_, exec_bufOpHand hi ho hb, ?_, ?_, ?_⟩
    · rw [seq_setSeq, hands_bufAt, offstage_gal.bufAt]
    · exact unmoved_out.toOffstage.bufAt
    · exact Offstage.bufAt (π := State.wq) ⟨fun _ _ => rfl, fun _ _ => rfl, fun _ _ => rfl⟩
  · exact (exec_rqDelivery hd).trans (congrArg Host.Outcome.next (if_pos there))
  · exact (exec_rqDelivery hd).trans (congrArg Host.Outcome.next (if_neg (ne_true_of_eq_false gone)))

end Sys2Proof.Machine
end

section
/-! PROOFS. The issue of frames (R109, R112 to R115, R280, R368): one clock of a window, a send descriptor, one copy of a flooded frame. -/

open Sys2Proof.Spec

namespace Sys2Proof.Machine

section
variable {s : State} {h k t c : Nat} {ptp : Bool} {ecc : List Nat} {host : Bytes}

/-! ### Arrival and flow windows (R109, R113, R114) -/

theorem start_useClock : ((s.useClock h c).seq h).start = (s.seq h).start := (congrArg SeqSt.start (seq_setSeq s h _)).trans rfl

theorem exec_arrivalIssue {l : Nat} {f : RxFrame} (hc : (s.atTime t).winClock h Win.rxPlace = some c)
    (hf : firstArrival (((s.atTime t).useClock h c).arrivals h (clockAt (s.seq h).start c (s.clocks h))) = some (l, f)) :
    exec (.arrivalIssue h ptp ecc t) s = .next ((((s.atTime t).useClock h c).takeRx l f).issue h
      { octets := f.octets.take (f.octets.length - 4), srcKind := 0, srcIdx := l, orig := 0, rxKey := none, stamp := f.stamp, ptp := ptp, send := none, drops := [], ecc := ecc }) := by
  have start : (((s.atTime t).useClock h c).seq h).start = (s.seq h).start := start_useClock
  have first : firstArrival (((s.atTime t).useClock h c).arrivals h (clockAt (((s.atTime t).useClock h c).seq h).start c (((s.atTime t).useClock h c).clocks h))) = some (l, f) := by
    rw [start]
    exact hf
  show execArrivalIssue h ptp ecc t s = _
  simp only [execArrivalIssue, hc, first]

/-- Reading PRODUCER changes only what the window has seen. -/
theorem win_readProducer : ∃ x, ((s.readProducer h).seq h).win = { (s.seq h).win with seen := x } := by
  unfold State.readProducer
  extract_lets q
  split
  · exact ⟨(s.seq h).win.seen, rfl⟩
  · split
    · exact ⟨_, (congrArg SeqSt.win (seq_setSeq s h _)).trans rfl⟩
    · exact ⟨(s.seq h).win.seen, rfl⟩

theorem flow_readProducer (n : Nat) : (s.readProducer h).flow n k = s.flow n k := by
  have flows : (s.readProducer h).flows = s.flows := by
    unfold State.readProducer
    extract_lets q
    split
    · rfl
    · split <;> rfl
  rw [State.flow, flows, State.flow]

theorem exec_flowIssue {base size top : Nat} (hc : (s.atTime t).winClock h Win.flowPlace = some c) (hf : s.flow h (s.seq h).win.flow = some (base, size))
    (hs : ((((s.atTime t).readProducer h).useClock h c).seq h).win.seen = some top) : exec (.flowIssue h ecc t) s = .next
      (((((s.atTime t).readProducer h).useClock h c).passPad h base size top).flowRecord h (s.seq h).win.flow base size top ecc) := by
  have window : ((((s.atTime t).readProducer h).useClock h c).seq h).win.flow = (s.seq h).win.flow := by
    obtain ⟨x, hx⟩ := win_readProducer (s := s.atTime t) (h := h)
    refine (congrArg (fun q : SeqSt => q.win.flow) (seq_setSeq _ h _)).trans ?_
    rw [hx]
    rfl
  have ring : (((s.atTime t).readProducer h).useClock h c).flow h (s.seq h).win.flow = some (base, size) := (flow_readProducer h).trans hf
  show execFlowIssue h ecc t s = _
  simp only [execFlowIssue, hc, hs, window, ring]

theorem putAlcove_now {a : Nat} {b : Bytes} : (s.putAlcove h a b).now = s.now := by
  have read : (s.readProducer h).now = s.now := by
    unfold State.readProducer
    extract_lets q
    split
    · rfl
    · split <;> rfl
  exact read

/-- A record that is whole and clean is issued. -/
theorem flowRecord_clean {f base size top len : Nat} (hp : 0 < sub32 top (s.consumer h base)) (hl : leNat (s.alcoveRead h (base + 64 + s.consumer h base % size) 2) = len)
    (low : 0x3C ≤ len) (high : len ≤ 0x23FC) (hb : s.alcoveBad h (base + 64 + s.consumer h base % size) (recordSize len) = false) :
    s.flowRecord h f base size top ecc = (s.putAlcove h (base + 4) (leBytes 4 (add32 (s.consumer h base) (recordSize len)))).issue h
      { octets := s.alcoveRead h (base + 64 + s.consumer h base % size + 8) len, srcKind := 1, srcIdx := f, orig := 1, rxKey := none, stamp := s.now, ptp := false, send := none, drops := [], ecc := ecc } := by
  have whole : ¬ (sub32 top (s.consumer h base) = 0 ∨ len < 0x3C ∨ 0x23FC < len) := by omega
  subst hl
  simp only [State.flowRecord, if_neg whole, hb, State.poisonUse, Bool.false_eq_true, if_false, putAlcove_now]

/-! ### The OPEN window (R79, R115) -/

theorem exec_openIssue {clock x place turn : Nat} {w : OpenWork} (hc : (s.atTime t).winClock h Win.openPlace = some clock)
    (hn : ((s.atTime t).serveThaw h).openNext h = some (x, place, turn)) (hw : ((s.atTime t).serveThaw h).openWork h x = some w) :
    let v := ((s.atTime t).serveThaw h).spendOpen h clock x place turn w.fn
    exec (.openIssue h ptp ecc t) s = .next ({ v with fw := { v.fw with opened := v.fw.opened.put h (removeFirst (fun x => x == w) (v.fw.opened.get [] h)) } }.issue h
      { octets := w.octets, srcKind := w.srcKind, srcIdx := w.srcIdx, orig := w.orig, rxKey := w.rxKey, stamp := v.now, ptp := ptp, send := w.send, drops := w.drops, ecc := ecc }) := by
  show execOpenIssue h ptp ecc t s = _
  simp only [execOpenIssue, hc, hn, hw]

/-! ### Send descriptors (R368) -/

/-- A send descriptor's frame joins the OPEN work of its hall. -/
def State.openSend (s : State) (h : Nat) (w : OpenWork) : State := { s with fw := { s.fw with opened := s.fw.opened.put h (s.fw.opened.get [] h ++ [w]) } }

/-- The work that a send descriptor makes. -/
def sendWork (q : Queue) (k : Nat) (e : Desc) (octets : Bytes) (drops : List Nat) : OpenWork :=
  { octets := octets, srcKind := 2, srcIdx := leAt e.bytes 0x14 2, orig := 2, cls := leAt e.bytes 0x16 1, fn := some q.fn, rxKey := none,
    send := some { queue := k, idx := e.idx, cookie := e.cookie, len := leAt e.bytes 0x10 4, batchEnd := e.batchEnd, tstamp := bitOf (leAt e.bytes 0x17 1) 1 }, drops := drops }

section
variable {e : Desc} {rest : List Desc} (hr : (s.queue k).ready = e :: rest) (hp : (s.queue k).present = true) (hq : (s.queue k).isRq = false) (hk : (s.queue k).kind = 0)
  (small : k < 65536) (hs : s.servingHall (s.queue k) = h) (hh : h < 18)
include hp hq hk small hs hh

theorem ethSend_due (hd : bitOf (leAt e.bytes 0x17 1) 0 = false → s.ethCheck (s.queue k).fn e.bytes = none → s.readDone h 3 k e.idx = true) :
    ¬ ((!(s.queue k).present) = true ∨ (s.queue k).isRq = true ∨ (s.queue k).kind ≠ 0 ∨ k ≥ 65536 ∨ 18 ≤ s.servingHall (s.queue k) ∨
      ((!bitOf (leAt e.bytes 0x17 1) 0 && (s.ethCheck (s.queue k).fn e.bytes).isNone) = true ∧ (!s.readDone (s.servingHall (s.queue k)) 3 k e.idx) = true)) := by
  rw [hp, hq, hs]
  rintro (c | c | c | c | c | ⟨c, d⟩)
  · cases c
  · cases c
  · exact c hk
  · omega
  · omega
  · rw [Bool.and_eq_true, Bool.not_eq_true', Option.isNone_iff_eq_none] at c
    rw [hd c.1 c.2] at d
    cases d

include hr

theorem exec_ethSend_failed {st : Nat} (hc : s.ethCheck (s.queue k).fn e.bytes = some st) : exec (.ethSend k host t) s = .next
    ((((s.atTime t).setQueue k { s.queue k with ready := rest }).endRead h 3 k e.idx).descDone k e.idx ⟨e.cookie, e.batchEnd, st, 0, 0, 0, 0, 0⟩) := by
  have due := ethSend_due hp hq hk small hs hh fun _ none_ => absurd none_ (by rw [hc]; exact Option.some_ne_none st)
  have ready : ((s.atTime t).queue k).ready = e :: rest := hr
  subst hs
  show execEthSend k host t s = _
  simp only [execEthSend, ready]
  refine (if_neg due).trans ?_
  have check : (((s.atTime t).setQueue k { (s.atTime t).queue k with ready := rest }).endRead ((s.atTime t).servingHall ((s.atTime t).queue k)) 3 k e.idx).ethCheck
    ((s.atTime t).queue k).fn e.bytes = some st := hc
  rw [check]
  rfl

theorem exec_ethSend_host (hc : s.ethCheck (s.queue k).fn e.bytes = none) (hl : bitOf (leAt e.bytes 0x17 1) 0 = false) (hd : s.readDone h 3 k e.idx = true)
    (hb : ∀ r, s.readFor h 3 k e.idx = some r → r.bad = false) : exec (.ethSend k host t) s = .next
    ((((s.atTime t).setQueue k { s.queue k with ready := rest }).endRead h 3 k e.idx).openSend h (sendWork (s.queue k) k e (sliceB host 0 (leAt e.bytes 0x10 4)) [])) := by
  have due := ethSend_due hp hq hk small hs hh fun _ _ => hd
  have ready : ((s.atTime t).queue k).ready = e :: rest := hr
  subst hs
  have clean : (match (s.atTime t).readFor ((s.atTime t).servingHall ((s.atTime t).queue k)) 3 k e.idx with | some r => r.bad | none => false) = false := by
    split
    next r hr => exact hb r hr
    · rfl
  show execEthSend k host t s = _
  simp only [execEthSend, ready]
  refine (if_neg due).trans ?_
  have check : (((s.atTime t).setQueue k { (s.atTime t).queue k with ready := rest }).endRead ((s.atTime t).servingHall ((s.atTime t).queue k)) 3 k e.idx).ethCheck
    ((s.atTime t).queue k).fn e.bytes = none := hc
  rw [check]
  dsimp only
  rw [hl, if_neg Bool.false_ne_true]
  exact if_neg (ne_true_of_eq_false clean)

theorem exec_ethSend_pool {b : Bytes} (hc : s.ethCheck (s.queue k).fn e.bytes = none) (hl : bitOf (leAt e.bytes 0x17 1) 0 = true)
    (hb : s.bufferRead (leAt e.bytes 8 4) 0 (leAt e.bytes 0x10 4) = some (b, false)) : exec (.ethSend k host t) s = .next
    ((((s.atTime t).setQueue k { s.queue k with ready := rest }).endRead h 3 k e.idx).openSend h (sendWork (s.queue k) k e b [leAt e.bytes 8 4])) := by
  have due := ethSend_due hp hq hk small hs hh fun off _ => absurd hl (ne_true_of_eq_false off)
  have ready : ((s.atTime t).queue k).ready = e :: rest := hr
  subst hs
  show execEthSend k host t s = _
  simp only [execEthSend, ready]
  refine (if_neg due).trans ?_
  have check : (((s.atTime t).setQueue k { (s.atTime t).queue k with ready := rest }).endRead ((s.atTime t).servingHall ((s.atTime t).queue k)) 3 k e.idx).ethCheck
    ((s.atTime t).queue k).fn e.bytes = none := hc
  have read : (((s.atTime t).setQueue k { (s.atTime t).queue k with ready := rest }).endRead ((s.atTime t).servingHall ((s.atTime t).queue k)) 3 k e.idx).bufferRead
    (leAt e.bytes 8 4) 0 (leAt e.bytes 0x10 4) = some (b, false) := hb
  rw [check]
  dsimp only
  rw [hl, if_pos rfl, read]
  exact if_neg Bool.false_ne_true

end

/-! ### Copies (R280) -/

theorem exec_replicateCopy_more {j : ReplJob} {rest : List ReplJob} {d x : Nat} {ds : List Nat} (hj : s.fw.repl.get [] h = j :: rest) (hd : j.dests = d :: x :: ds) :
    exec (.replicateCopy h) s = .next
      ({ s with fw := { s.fw with repl := s.fw.repl.put h ({ j with dests := x :: ds } :: rest) } }.copyTo h d j.frame.cls { j.frame.plain with send := none, drops := j.shared }) := by
  show execReplicateCopy h s = _
  simp only [execReplicateCopy, hj, hd]
  rfl

theorem exec_replicateCopy_last {j : ReplJob} {rest : List ReplJob} {d : Nat} (hj : s.fw.repl.get [] h = j :: rest) (hd : j.dests = [d]) :
    exec (.replicateCopy h) s = .next ({ s with fw := { s.fw with repl := s.fw.repl.put h rest } }.copyTo h d j.frame.cls j.frame.plain) := by
  show execReplicateCopy h s = _
  simp only [execReplicateCopy, hj, hd]
  rfl

end

/-- Settles O18: each command by its own equation. -/
theorem framesEnterPipeline : Obligations.FramesEnterPipeline := by
  unfold Obligations.FramesEnterPipeline Gives
  refine fun h k t ptp ecc host s => ⟨fun c l f => exec_arrivalIssue, fun c base size top => exec_flowIssue, fun f base size top len => flowRecord_clean,
    fun clock c place turn w => exec_openIssue, fun e rest hr hp hq hk small hs hh hc => ⟨fun hl hd hb => ?_, fun b hl hb => ?_⟩,
    fun e rest st hr hp hq hk small hs hh => exec_ethSend_failed hr hp hq hk small hs hh, fun j rest d e ds => exec_replicateCopy_more, fun j rest d => exec_replicateCopy_last⟩
  · exact ⟨_, _, exec_ethSend_host hr hp hq hk small hs hh hc hl hd hb, Tbl.get_put_same .., rfl, rfl, rfl, rfl, rfl, congrArg Queue.ready (Tbl.get_put_same ..)⟩
  · exact ⟨_, _, exec_ethSend_pool hr hp hq hk small hs hh hc hl hb, Tbl.get_put_same .., rfl, rfl, rfl, congrArg Queue.ready (Tbl.get_put_same ..)⟩

end Sys2Proof.Machine
end

section
/-! PROOFS. The cipher engines (R116, R305 to R309, R314 to R317): windows, releases, job descriptors, health tests, spent slots. -/

open Sys2Proof.Spec

namespace Sys2Proof.Machine

section
variable {s : State} {h k t test o : Nat} {src aad tag : Bytes}

/-! ### Windows (R116, R305) -/

theorem exec_cipherWindow (hh : h < 18) (hi : Issues s h 2 0x30 o) : exec (.cipherWindow h t) s = .next
    ((((issued s h 2 o).openWindow h o).atTime t).cipherTo (max ((issued s h 2 o).openWindow h o).now t)).stoXtsDone := by
  refine congrArg Host.Outcome.next ((if_neg (Nat.not_le.mpr hh)).trans ?_)
  rw [State.cipherWindow, takeOp_of_issues hi]

theorem exec_cipherWindow_unopened (hh : h < 18) (hn : ∀ o, ¬ Issues s h 2 0x30 o) :
    exec (.cipherWindow h t) s = .next ((s.atTime t).cipherTo (max s.now t)).stoXtsDone := by
  refine congrArg Host.Outcome.next ((if_neg (Nat.not_le.mpr hh)).trans ?_)
  rw [State.cipherWindow, takeOp_of_none hn]

theorem cphOf_setCph (c : CphSt) : (s.setCph h c).cphOf h = c := Tbl.get_put_same ..

/-! ### Releases (R306, R313, R317) -/

/-- The engine at the instant of a release. -/
def releaseAt (s : State) (t : Nat) : State := (s.atTime t).cipherTo (s.atTime t).now

/-- An operation leaves its engine. -/
def State.dropOp (u : State) (h : Nat) (op : CphOp) : State := u.setCph h { u.cphOf h with ops := removeFirst (fun x => x == op) (u.cphOf h).ops }

/-- What an operation that has left its engine releases, or that its slot was revoked. -/
def State.released (v : State) (h : Nat) (op : CphOp) (src aad tag : Bytes) (revoked : Bool) : State :=
  let s := if revoked then v.bump Fld.CPH_CNT_REVOKED_COUNT h else v
  match op.frame, op.job with
  | some f, _ => if revoked then s.inlineEnd f else s.releaseFrame h op f
  | none, some (id, off, len) =>
    (match (s.cphOf h).jobs.find? (fun j => j.id == id) with
    | none => s
    | some j =>
      let s := if revoked then s.setJob h { j with failed := some St.keyRevoked }
        else if j.mode = 2 then s.releaseXts h op j off len src else s.releaseGcm h op j off len src aad tag
      s.settleJob h id)
  | none, none => s

section
variable {op : CphOp}

theorem released_frame {f : InlineFrame} (hp : op.frame = some f) (revoked : Bool) :
    s.released h op src aad tag revoked = if revoked then (s.bump Fld.CPH_CNT_REVOKED_COUNT h).inlineEnd f else s.releaseFrame h op f := by
  cases revoked
  · simp only [State.released, hp, Bool.false_eq_true, if_false]
  · simp only [State.released, hp, if_true]

theorem released_job {id off len : Nat} {j : CphJob} (hp : op.frame = none) (hj : op.job = some (id, off, len)) (hf : (s.cphOf h).jobs.find? (fun j => j.id == id) = some j) :
    s.released h op src aad tag false = (if j.mode = 2 then s.releaseXts h op j off len src else s.releaseGcm h op j off len src aad tag).settleJob h id := by
  simp only [State.released, hp, hj, Bool.false_eq_true, if_false, hf]

section
variable (hh : h < 18) (hf : firstDue ((releaseAt s t).cphOf h).ops = some op) (hd : op.due ≤ (releaseAt s t).now)
include hh hf hd

theorem exec_cipherOpRelease :
    let v := (releaseAt s t).dropOp h op
    exec (.cipherOpRelease h src aad tag t) s = .next (v.released h op src aad tag (v.revokedBy op)).stoXtsDone := by
  have due : ¬ (releaseAt s t).now < op.due := Nat.not_lt.mpr hd
  have run : (s.atTime t).cipherRelease h src aad tag = ((releaseAt s t).dropOp h op).released h op src aad tag (((releaseAt s t).dropOp h op).revokedBy op) := by
    unfold releaseAt at hf due ⊢
    rw [State.cipherRelease]
    simp only [hf, if_neg due]
    rfl
  show execCipherOpRelease h src aad tag t s = _
  rw [execCipherOpRelease, if_neg (Nat.not_le.mpr hh), run]

theorem exec_cipherOpRelease_frame {f : InlineFrame} {revoked : Bool} (hr : ((releaseAt s t).dropOp h op).revokedBy op = revoked) (hp : op.frame = some f) :
    let v := (releaseAt s t).dropOp h op
    exec (.cipherOpRelease h src aad tag t) s = .next (if revoked then (v.bump Fld.CPH_CNT_REVOKED_COUNT h).inlineEnd f else v.releaseFrame h op f).stoXtsDone := by
  intro v
  refine (exec_cipherOpRelease hh hf hd).trans (congrArg (fun x : State => Host.Outcome.next x.stoXtsDone) ?_)
  exact (congrArg (State.released _ h op src aad tag) hr).trans (released_frame hp revoked)

theorem exec_cipherOpRelease_job {id off len : Nat} {j : CphJob} (hr : ((releaseAt s t).dropOp h op).revokedBy op = false) (hp : op.frame = none)
    (hj : op.job = some (id, off, len)) (hfind : (((releaseAt s t).dropOp h op).cphOf h).jobs.find? (fun j => j.id == id) = some j) : let v := (releaseAt s t).dropOp h op
    exec (.cipherOpRelease h src aad tag t) s = .next
      ((if j.mode = 2 then v.releaseXts h op j off len src else v.releaseGcm h op j off len src aad tag).settleJob h id).stoXtsDone := by
  intro v
  refine (exec_cipherOpRelease hh hf hd).trans (congrArg (fun x : State => Host.Outcome.next x.stoXtsDone) ?_)
  exact (congrArg (State.released _ h op src aad tag) hr).trans (released_job hp hj hfind)

end

end

/-! ### Jobs (R314, R315) -/

/-- A descriptor's job joins the job queue, or ends with the status that its checks give. -/
def State.takeJob (v : State) (h k : Nat) (d : Desc) (j : CphJob) : Answer :=
  match v.jobCheck h j with
  | some st => .next (v.descDone k d.idx ⟨d.cookie, d.batchEnd, st, 0, 0, 0, 0, 0⟩)
  | none => .next (v.pushJob h j)

section
variable {d : Desc} {j : CphJob}

theorem takeJob_refused {st : Nat} (hc : s.jobCheck h j = some st) : s.takeJob h k d j = .next (s.descDone k d.idx ⟨d.cookie, d.batchEnd, st, 0, 0, 0, 0, 0⟩) := by
  rw [State.takeJob, hc]

theorem takeJob_joins (hc : s.jobCheck h j = none) : s.takeJob h k d j = .next (s.pushJob h j) := by
  rw [State.takeJob, hc]

end

section
variable {d : Desc} {rest : List Desc} {u : State} (hr : (s.queue k).ready = d :: rest) (hp : (s.queue k).present = true) (hq : (s.queue k).isRq = false) (hk : (s.queue k).kind = 1)
  (small : k < 65536) (hs : s.servingHall (s.queue k) = h) (hh : h < 18) (room : s.jobRoom h = true) (turn : (s.atTime t).openTurn h (s.jobClass h) (s.queue k).fn = some u)
include hr hp hq hk small hs hh room turn

theorem exec_cipherJobFetch : exec (.cipherJobFetch k t) s = (u.setQueue k { s.queue k with ready := rest }).takeJob h k d (parseJob 0 k (s.queue k).fn d) := by
  have due : ¬ ((!(s.queue k).present) = true ∨ (s.queue k).isRq = true ∨ (s.queue k).kind ≠ 1 ∨ k ≥ 65536 ∨ 18 ≤ s.servingHall (s.queue k) ∨
      (!s.jobRoom (s.servingHall (s.queue k))) = true) := by
    rw [hp, hq, hs, room]
    rintro (c | c | c | c | c | c)
    · cases c
    · cases c
    · exact c hk
    · omega
    · omega
    · cases c
  have ready : ((s.atTime t).queue k).ready = d :: rest := hr
  subst hs
  have turn : (s.atTime t).openTurn ((s.atTime t).servingHall ((s.atTime t).queue k)) ((s.atTime t).jobClass ((s.atTime t).servingHall ((s.atTime t).queue k))) ((s.atTime t).queue k).fn = some u := turn
  show execCipherJobFetch k t s = _
  simp only [execCipherJobFetch, ready]
  refine (if_neg due).trans ?_
  rw [turn]
  rfl

end

/-! ### Health tests and spent slots (R307, R309) -/

theorem exec_entropyHealthFail (hh : h < 18) : exec (.entropyHealthFail h test t) s = .next
    ((((s.atTime t).raise Fld.CPH_STATUS_ENTROPY_FAIL h).bump Fld.CPH_CNT_ENTROPY_COUNT h).almHall 0x0801 h (leBytes 1 (min test 1))) := if_neg (Nat.not_le.mpr hh)

theorem addr_cphStatus : Reg.addr .CPH_STATUS h 0 = 0x10002c00 + 0x1000000 * h + 0 * 0 := rfl
theorem addr_cphEntropy : Reg.addr .CPH_CNT_ENTROPY h 0 = 0x10002c68 + 0x1000000 * h + 0 * 0 := rfl

theorem entropyHealthFail_shown {b : Bytes} : let u := ((s.raise Fld.CPH_STATUS_ENTROPY_FAIL h).bump Fld.CPH_CNT_ENTROPY_COUNT h).almHall 0x0801 h b
    u.flag Fld.CPH_STATUS_ENTROPY_FAIL h = true ∧ u.fld Fld.CPH_CNT_ENTROPY_COUNT h = (s.fld Fld.CPH_CNT_ENTROPY_COUNT h + 1) % 2 ^ 32 ∧ u.cph = s.cph ∧ u.keys = s.keys := by
  intro u
  have logged : SameAt InWindow ((s.raise Fld.CPH_STATUS_ENTROPY_FAIL h).bump Fld.CPH_CNT_ENTROPY_COUNT h) u := (SameAt.refl _).alm ..
  have status : InWindow (Reg.addr .CPH_STATUS h 0) := by rw [addr_cphStatus, InWindow]; omega
  have entropy : InWindow (Reg.addr .CPH_CNT_ENTROPY h 0) := by rw [addr_cphEntropy, InWindow]; omega
  have apart : Reg.addr .CPH_STATUS h 0 ≠ Reg.addr .CPH_CNT_ENTROPY h 0 := by rw [addr_cphStatus, addr_cphEntropy]; omega
  refine ⟨?_, ?_, alm_unseen (π := State.cph) (fun _ _ => rfl) (fun _ _ => rfl) .., alm_unseen (π := State.keys) (fun _ _ => rfl) (fun _ _ => rfl) ..⟩
  · have kept : ((s.raise Fld.CPH_STATUS_ENTROPY_FAIL h).bump Fld.CPH_CNT_ENTROPY_COUNT h).fld Fld.CPH_STATUS_ENTROPY_FAIL h = 1 :=
      (fld_setFld_ne _ Fld.CPH_CNT_ENTROPY_COUNT Fld.CPH_STATUS_ENTROPY_FAIL _ h 0 h 0 apart).trans (fld_setFld_same (by decide))
    refine (logged.flag _ _ _ status).trans ?_
    rw [State.flag, kept]
    rfl
  · have before : (s.raise Fld.CPH_STATUS_ENTROPY_FAIL h).fld Fld.CPH_CNT_ENTROPY_COUNT h = s.fld Fld.CPH_CNT_ENTROPY_COUNT h :=
      fld_setFld_ne s Fld.CPH_STATUS_ENTROPY_FAIL Fld.CPH_CNT_ENTROPY_COUNT _ h 0 h 0 apart.symm
    refine (logged.fld _ _ _ entropy).trans ((fld_bump_same (by decide)).trans ?_)
    rw [before]
    rfl

/-- A flag that stands or is raised stands. -/
theorem flag_raise_stands {f : Fld} (hf : f.InWord) {i j : Nat} (hj : s.flag f j = true ∨ i = j) : (s.raise f i).flag f j = true := by
  by_cases same : f.reg.addr j 0 = f.reg.addr i 0
  · have word : (s.raise f i).fld f j = (s.raise f i).fld f i := by
      simp only [State.raise, State.setFld, State.setWord, State.fld, State.word, same, look_put_same, Option.getD_some]
    have one : 1 < 2 ^ (f.hi + 1 - f.lo) := Nat.one_lt_two_pow (by have := hf.1; omega)
    rw [State.flag, word, State.raise, fld_setFld_same hf, Nat.mod_eq_of_lt one]
    rfl
  · rw [State.flag, State.raise, fld_setFld_ne s f f 1 i 0 j 0 same]
    exact hj.resolve_right fun e => same (by rw [e])

/-- A hall's flag that was raised stays raised while others are. -/
theorem flag_raiseAll {f : Fld} (hf : f.InWord) (l : List Nat) {j : Nat} (hj : s.flag f j = true ∨ j ∈ l) : (l.foldl (fun (s : State) h => s.raise f h) s).flag f j = true := by
  induction l generalizing s with
  | nil => exact hj.resolve_right List.not_mem_nil
  | cons x l ih =>
    refine ih ?_
    rcases hj with hj | hj
    · exact .inl (flag_raise_stands hf (.inl hj))
    · rcases List.mem_cons.mp hj with rfl | hj
      · exact .inl (flag_raise_stands hf (.inr rfl))
      · exact .inr hj

theorem exec_keyExhaust {x : Nat} (hx : (s.slot k).exhaustAt = some x) (hd : x ≤ max s.now t) (hs : (s.slot k).state = 2) : exec (.keyExhaust k t) s = .next ((s.atTime t).exhaust k) := by
  have there : ((s.atTime t).slot k).exhaustAt = some x := hx
  show execKeyExhaust k t s = _
  simp only [execKeyExhaust, there]
  exact congrArg Host.Outcome.next (if_pos ⟨hd, hs⟩)

theorem slot_setSlot (v : KeySlot) : (s.setSlot k v).slot k = v := Tbl.get_put_same ..

theorem slot_exhaust : (s.exhaust k).slot k = { s.slot k with state := 3, exhaustAt := none } := by
  have slots : (s.exhaust k).keys = (s.setSlot k { s.slot k with state := 3, exhaustAt := none }).keys :=
    List.foldlRecOn (motive := fun u : State => u.keys = (s.setSlot k { s.slot k with state := 3, exhaustAt := none }).keys) _ _ rfl fun _ hu _ _ => hu
  rw [State.slot, slots]
  exact slot_setSlot _

end

/-- Settles O19: each command by its own equation. -/
theorem cipherEngineEvents : Obligations.CipherEngineEvents := by
  unfold Obligations.CipherEngineEvents Gives
  refine fun h k t test o src aad tag s hh => ⟨fun hi => ⟨exec_cipherWindow hh hi, ?_⟩, exec_cipherWindow_unopened hh, fun op hf hd => ⟨fun f hp hr => ?_, fun f hp hr => ?_, fun id off len j hp hj hfind hr => ⟨fun hm => ?_, fun hm => ?_⟩⟩,
    fun d rest u hr hp hq hk small hs room turn => ⟨fun st hc => ?_, fun hc => ?_⟩, ?_, fun x hx hd hs => ?_⟩
  · rw [State.openWindow, cphOf_setCph]
  · exact exec_cipherOpRelease_frame hh hf hd hr hp
  · exact exec_cipherOpRelease_frame hh hf hd hr hp
  · exact (exec_cipherOpRelease_job hh hf hd hr hp hj hfind).trans (congrArg (fun x : State => Host.Outcome.next (x.settleJob h id).stoXtsDone) (if_pos hm))
  · exact (exec_cipherOpRelease_job hh hf hd hr hp hj hfind).trans (congrArg (fun x : State => Host.Outcome.next (x.settleJob h id).stoXtsDone) (if_neg hm))
  · exact (exec_cipherJobFetch hr hp hq hk small hs hh room turn).trans (takeJob_refused hc)
  · exact ⟨_, (exec_cipherJobFetch hr hp hq hk small hs hh room turn).trans (takeJob_joins hc), rfl⟩
  · obtain ⟨shown, counted, cph, keys⟩ := entropyHealthFail_shown (s := s.atTime t) (h := h) (b := leBytes 1 (min test 1))
    exact ⟨_, exec_entropyHealthFail hh, shown, counted, cph, keys⟩
  · refine ⟨_, exec_keyExhaust hx hd hs, ?_⟩
    rw [slot_exhaust]
    exact ⟨rfl, rfl, rfl, rfl, fun j hj _ => flag_raiseAll (by decide) _ (.inr (by rw [slot_setSlot]; exact hj))⟩

end Sys2Proof.Machine
end

section
/-! PROOFS. Planned traffic (R117, R142 to R146, R345, R351, R352, R414): DMA ops, the ends of bursts, flits at a host port, read-ahead and
best-effort packets. -/

open Sys2Proof.Spec

namespace Sys2Proof.Machine

section
variable {s x : State} {h c p o at_ : Nat} {us : List DmaUnit} {b : Burst} {errs : List (Nat × Nat)}

/-! ### DMA ops -/

/-- A burst that moves nothing: it is counted, and it still takes its time. -/
def dmaIdle (x : State) (h : Nat) (b : Burst) : State := (x.bump Fld.TSQ_CNT_DMA_IDLE_COUNT h).addBurst b

theorem exec_dmaOp_kept (hi : Issues s h 2 0x31 o)
    (hk : (dmaIssued s h o).flag Fld.DMA_STATUS_STOPPED h = true ∨ (bitsOf o 48 43 < 32 ∧ (dmaIssued s h o).plannedBlocked (bitsOf o 48 43 / 4) = true)) :
    exec (.dmaOp h) s = .next (dmaIdle (dmaIssued s h o) h (burstOf (dmaIssued s h o) h o)) := by
  show execDmaOp h s = _
  rw [execDmaOp, takeOp_of_issues hi]
  exact if_pos (hk.imp_right (And.imp_left decide_eq_true))

theorem exec_dmaOp_planned (hi : Issues s h 2 0x31 o) (hs : (dmaIssued s h o).flag Fld.DMA_STATUS_STOPPED h = false)
    (hp : bitsOf o 48 43 < 32 → (dmaIssued s h o).plannedBlocked (bitsOf o 48 43 / 4) = false ∧ (dmaIssued s h o).chBme h (bitsOf o 48 43) = true)
    (hv : (dmaIssued s h o).dmaService h (bitsOf o 48 43) = 1) (hf : (dmaIssued s h o).fillPlanned h (bitsOf o 48 43) (bitsOf o 42 27) = (x, us)) :
    exec (.dmaOp h) s = .next (if us = [] then dmaIdle x h (burstOf (dmaIssued s h o) h o) else x.addBurst { burstOf (dmaIssued s h o) h o with units := us }) := by
  have runs : ¬ ((dmaIssued s h o).flag Fld.DMA_STATUS_STOPPED h = true ∨
      (decide (bitsOf o 48 43 < 32) = true ∧ (dmaIssued s h o).plannedBlocked (bitsOf o 48 43 / 4) = true)) := by
    rintro (stopped | ⟨host, blocked⟩)
    · simp [hs] at stopped
    · simp [(hp (of_decide_eq_true host)).1] at blocked
  have masters : ¬ (decide (bitsOf o 48 43 < 32) = true ∧ (!(dmaIssued s h o).chBme h (bitsOf o 48 43)) = true) := by
    rintro ⟨host, none_⟩
    simp [(hp (of_decide_eq_true host)).2] at none_
  show execDmaOp h s = _
  rw [execDmaOp, takeOp_of_issues hi]
  refine (if_neg runs).trans ((if_pos hv).trans ((if_neg masters).trans ?_))
  have hf : ((issued s h 2 o).occupy h o 1).fillPlanned h (bitsOf o 48 43) (bitsOf o 42 27) = (x, us) := hf
  rw [hf]
  rfl

theorem exec_dmaOp_carrier (hi : Issues s h 2 0x31 o) (hs : (dmaIssued s h o).flag Fld.DMA_STATUS_STOPPED h = false) (hc : bitsOf o 48 43 < 32)
    (hp : (dmaIssued s h o).plannedBlocked (bitsOf o 48 43 / 4) = false) (hv : (dmaIssued s h o).dmaService h (bitsOf o 48 43) = 2)
    (hf : (dmaIssued s h o).fillCarrier h (bitsOf o 48 43 / 4) (decide (bitsOf o 48 43 % 4 < 2)) (bitsOf o 42 27) = (x, us)) :
    let y := x.bump64 Fld.DMA_CNT_CARRIER_IDLE_LO_COUNT Fld.DMA_CNT_CARRIER_IDLE_HI_COUNT (bitsOf o 42 27 - us.length) h
    exec (.dmaOp h) s = .next (if us = [] then dmaIdle y h (burstOf (dmaIssued s h o) h o) else y.addBurst { burstOf (dmaIssued s h o) h o with units := us }) := by
  have runs : ¬ ((dmaIssued s h o).flag Fld.DMA_STATUS_STOPPED h = true ∨
      (decide (bitsOf o 48 43 < 32) = true ∧ (dmaIssued s h o).plannedBlocked (bitsOf o 48 43 / 4) = true)) := by simp [hs, hp]
  have other : (dmaIssued s h o).dmaService h (bitsOf o 48 43) ≠ 1 := by rw [hv]; decide
  have data : (if (!decide (bitsOf o 48 43 < 32)) = true then (dmaIssued s h o, [])
      else (dmaIssued s h o).fillCarrier h (bitsOf o 48 43 / 4) (if bitsOf o 48 43 < 48 then decide (bitsOf o 48 43 % 4 < 2) else true) (bitsOf o 42 27)) = (x, us) := by
    rw [if_neg (by simp [hc]), if_pos (by omega), hf]
  intro y
  show execDmaOp h s = _
  rw [execDmaOp, takeOp_of_issues hi]
  refine (if_neg runs).trans ((if_neg other).trans ((if_pos hv).trans ?_))
  unfold dmaIssued at data
  dsimp only
  rw [data]
  rfl

/-! ### The ends of bursts, and flits at a port -/

/-- The burst leaves the DMA unit. -/
def withoutBurst (s : State) (b : Burst) : State := { s with dma := { s.dma with bursts := s.dma.bursts.filter (fun x => x.id != b.id) } }

/-- What the burst brings is carried out at its other end. -/
def farUnits (s : State) (h : Nat) (b : Burst) (errs : List (Nat × Nat)) : State :=
  (List.range b.units.length).foldl (fun (s : State) i => match b.units[i]? with
    | none => s
    | some x => s.farUnit h b.toward ((errs.find? (fun e => e.1 == i)).getD (0, 0)).2 x) s

theorem farUnits_single {x : DmaUnit} (hx : b.units = [x]) : farUnits s h b errs = s.farUnit h b.toward ((errs.find? (fun e => e.1 == 0)).getD (0, 0)).2 x := by
  simp [farUnits, hx]

section
variable (hb : (s.atTime at_).dma.bursts.find? (fun b => b.hall == h && b.ch == c) = some b)
  (he : (s.atTime at_).burstEnd b ≤ 880 * (s.atTime at_).now)
include hb he

theorem exec_burst_crossed (hp : b.port.isSome = true) (hd : b.done = true) :
    exec (.dmaBurstComplete h c errs at_) s = .next (withoutBurst (s.atTime at_) b) := by
  show execDmaBurstComplete h c errs at_ s = _
  simp only [execDmaBurstComplete, hb]
  exact (if_neg (by simp [hd]; omega)).trans (if_pos hp)

theorem exec_burst_far (hp : b.port = none) : exec (.dmaBurstComplete h c errs at_) s = .next
    (farUnits ((withoutBurst (s.atTime at_) b).bump64 Fld.GAL_CNT_FLITS_LO_COUNT Fld.GAL_CNT_FLITS_HI_COUNT (ceilDiv b.units.length 2)) h b errs) := by
  show execDmaBurstComplete h c errs at_ s = _
  simp only [execDmaBurstComplete, hb]
  exact (if_neg (by simp [hp]; omega)).trans (if_neg (by simp [hp]))

end

/-- The flits that have reached the port by now stand in its queue, the discarded ones at its head passed over. -/
def flitsAtPort (s : State) (p : Nat) (toward : Bool) : State :=
  (s.arriveFlits p toward ((s.dma.bursts.foldl (fun n (b : Burst) => n + b.flits) 0) + 1)).skipDropped p toward

theorem exec_hostFlitRelease {toward bad : Bool} (hp : p < 8) : let u := flitsAtPort (s.atTime at_) p toward
    u.nextFlit p toward = some b → u.departure p toward b ≤ 880 * u.now → u.fld Fld.EP_PORT_STATUS_LSTATE 0 p = 1 ∨ b.flit b.sent = [] →
    exec (.hostFlitRelease p toward bad at_) s = .next (u.passFlit p toward bad b (u.departure p toward b)) := by
  intro u hb due linked
  show execHostFlitRelease p toward bad at_ s = _
  refine (if_neg (by omega)).trans ?_
  change (match u.nextFlit p toward with | none => _ | some b => _) = _
  rw [hb]
  exact if_neg (fun waits => waits.elim (Nat.not_lt.2 due) (fun stays => linked.elim stays.1 stays.2))

/-- What a unit brings into the alcove is the descriptor's data, as far as it reaches. -/
theorem landFrom_alcove {u : DmaUnit} {d : DmaDesc} {data : Bytes} (hd : x.unitDesc h u = some d) :
    (x.landFrom h u data none).alcove = (x.putAlcove h (dmaLocal d.bytes + u.off) (data.take (min u.len (dmaLen d.bytes - u.off)))).alcove := by
  rw [State.landFrom, hd]
  rfl

/-! ### Reads asked ahead, and packets between planned departures -/

theorem exec_readAheadRequest {d : DmaDesc} {a n : Nat} : let u := s.atTime at_
    h < 18 → c < 32 → 2 ≤ c % 4 → u.dmaService h c = 1 → u.plannedBlocked (c / 4) = false → u.flag Fld.DMA_STATUS_STOPPED h = false → u.chBme h c = true →
    ((u.hp (c / 4)).reqs.filter (fun r => r.purpose == 1)).length < (u.hp (c / 4)).tagLimit - 64 → (u.hp (c / 4)).reqs.length < (u.hp (c / 4)).tagLimit →
    (u.dch h c).descs.find? (fun d => (u.nextRead (c / 4) d).isSome) = some d → u.nextRead (c / 4) d = some (a, n) → u.aheadHeld (c / 4) + n ≤ 1048576 →
    exec (.readAheadRequest h c at_) s = .next
      ((u.setDesc h c { d with asked := d.asked + n }).sendRead (c / 4) 1 d.fn a n (h * 64 + c) (d.id * 2 ^ 32 + d.asked)) := by
  intro u hh hc from_ planned open_ runs masters tags room hd hn held
  show execReadAheadRequest h c at_ s = _
  refine (if_neg ?_).trans ((if_neg ?_).trans ?_)
  · show ¬ (18 ≤ h ∨ 32 ≤ c ∨ c % 4 < 2 ∨ u.dmaService h c ≠ 1 ∨ u.plannedBlocked (c / 4) = true ∨ u.flag Fld.DMA_STATUS_STOPPED h = true ∨ (!u.chBme h c) = true)
    simp [planned, open_, runs, masters]
    omega
  · exact fun full => full.elim (Nat.not_le.2 tags) (Nat.not_le.2 room)
  · change (match (u.dch h c).descs.find? (fun d => (u.nextRead (c / 4) d).isSome) with | none => _ | some d => _) = _
    rw [hd]
    dsimp only
    rw [show State.nextRead _ _ _ = some (a, n) from hn]
    exact if_neg (Nat.not_lt.2 held)

theorem exec_bestEffortTlpSend {crossed : Nat} {out : Out} {rest : List Out} : let u := s.atTime at_
    u.nextPacket [] (u.ep.tlps.get [] p) = some (out, rest) → (∀ d, u.nextDeparture p = some d → 880 * max u.now crossed ≤ d) →
    u.flag Fld.EP_PORT_STATUS_LINK_UP 0 p = true → u.fld Fld.EP_PORT_STATUS_LSTATE 0 p = 1 →
    let v := { u with ep := { u.ep with tlps := u.ep.tlps.put p rest } }
    exec (.bestEffortTlpSend p crossed at_) s = .next (((v.setHp p { v.hp p with idleSince := v.now }).leave out).afterPacket out) := by
  intro u ho clear up active v
  show execBestEffortTlpSend p crossed at_ s = _
  rw [execBestEffortTlpSend, show State.nextPacket _ _ _ = some (out, rest) from ho]
  refine if_neg ?_
  show ¬ ((!match u.nextDeparture p with | some d => decide (880 * max u.now crossed ≤ d) | none => true) = true ∨
    (!u.flag Fld.EP_PORT_STATUS_LINK_UP 0 p) = true ∨ u.fld Fld.EP_PORT_STATUS_LSTATE 0 p ≠ 1)
  cases hd : u.nextDeparture p with
  | none => simp [up, active]
  | some d => simpa [up, active] using clear d hd

end

/-- Settles O20. -/
theorem plannedTraffic : Obligations.PlannedTraffic := by
  unfold Obligations.PlannedTraffic Gives
  intro h o c p at_ crossed toward bad errs s
  refine ⟨fun hi => ⟨exec_dmaOp_kept hi, fun hs hp hv x us hf => ?_, fun hs hc hp hv x us hf => ?_⟩, fun _ _ => ⟨rfl, rfl⟩,
    fun b hb he => ⟨exec_burst_crossed hb he, fun x hp hx => ?_, exec_burst_far hb he⟩, fun b hp => exec_hostFlitRelease hp,
    fun x u d data => landFrom_alcove, fun d a n => exec_readAheadRequest, fun x rest => exec_bestEffortTlpSend⟩
  · have run := exec_dmaOp_planned hi hs hp hv hf
    exact ⟨fun some_ => run.trans (congrArg _ (if_neg some_)), fun none_ => run.trans (congrArg _ (if_pos none_))⟩
  · have run := exec_dmaOp_carrier hi hs hc hp hv hf
    exact ⟨fun some_ => run.trans (congrArg _ (if_neg some_)), fun none_ => run.trans (congrArg _ (if_pos none_))⟩
  · have run := exec_burst_far (errs := errs) hb he hp
    rw [farUnits_single hx, hx, List.length_singleton, show ceilDiv 1 2 = 1 by decide] at run
    exact run

end Sys2Proof.Machine
end

section
/-! PROOFS. Cyclic traffic (R123, R195, R201, R203, R207, R208, R210): frames received, the emissions of transmit windows, the deadlines of pools, notifications. -/

open Sys2Proof.Spec

namespace Sys2Proof.Machine

section
variable {s v y : State} {h l i pool seg at_ : Nat} {cut : Bool} {p : Plan.Pool} {w : CtxWin} {c : Chan} {x : ChanHall}

/-! ### Reception -/

theorem exec_cyclicFrameRx {f : RxFrame} (ho : s.bayOwner (l / 8) = some h) (hr : s.running h = true) (hf : (s.port l).cyclicFrame = some f)
    (oldest : ∀ x g, x ∈ s.hallPorts h → (s.port x).cyclicFrame = some g → f.arrival ≤ g.arrival) :
    exec (.cyclicFrameRx l cut) s =
      .next ((s.takeRx l f).cyclicRx h l (f.octets.take (f.octets.length - 4)) ((cyclicAt f.octets).getD 14) f.arrival cut) := by
  show execCyclicFrameRx l cut s = _
  simp only [execCyclicFrameRx, ho, hf]
  refine if_neg ?_
  simp only [hr, Bool.not_true, Bool.false_eq_true, false_or, List.any_eq_true, not_exists, not_and]
  intro x hx older
  cases hg : (s.port x).cyclicFrame with
  | none => simp [hg] at older
  | some g =>
    have := oldest x g hx hg
    simp [hg] at older
    omega

/-! ### Emissions -/

/-- Which flight the window's next emission belongs to, as its frame says it. -/
def ctxFlight (v : State) (w : CtxWin) : Nat := (w.due - v.origin) / (v.flightLen * treadTicks) % 2 ^ 32

/-- The emission of a channel's segment, from its frame on (R201, R215). -/
def sendSegment (v : State) (h : Nat) (cut : Bool) (p : Plan.Pool) (c : Chan) (x : ChanHall) (flight seg : Nat) : Answer :=
  let (eth, hdr, pay) := v.dataOut h p c x flight seg
  if !p.gmac then .next ((v.sendCyclic (stnLane (v.station h c.sid)) (withFcs (eth ++ hdr ++ pay)) false).bump Fld.CYC_CNT_TX_COUNT h)
  else match v.cycSlot c c.txKey with
    | none => .next (v.bump Fld.CYC_CNT_IDLE_COUNT h)
    | some k =>
      let (y, ok) := v.useCycKey h c.sid k
      if !ok then .next (y.bump Fld.CYC_CNT_IDLE_COUNT h)
      else
        let tag := Config.gcmTag (y.slot k).key (cycIv flight c.sid (seg * 16 + (segs p.out - 1)) 1 (y.fld Fld.PLN_RANK_RANK)) (hdr ++ pay) []
        let cut := cut && (y.slot k).eraseAt.isSome
        let z := if cut then y.bump Fld.CYC_CNT_KEY_COUNT h else y
        .next ((z.sendCyclic (stnLane (v.station h c.sid)) (withFcs (eth ++ hdr ++ pay ++ sliceB tag 0 16)) cut).bump Fld.CYC_CNT_TX_COUNT h)

/-- What a window's emission does, by the slot that it serves: nothing but the count without a channel that may send. -/
def emission (v : State) (h pool : Nat) (cut : Bool) (p : Plan.Pool) (w : CtxWin) : Answer :=
  match v.slotChan pool (w.first + w.next / p.segs) with
  | none => .next (v.bump Fld.CYC_CNT_IDLE_COUNT h)
  | some (i, c) => match v.chHall h i with
    | none => .next (v.bump Fld.CYC_CNT_IDLE_COUNT h)
    | some x =>
      if segs p.out ≤ w.next % p.segs ∨ !v.maySend h c x then .next (v.bump Fld.CYC_CNT_IDLE_COUNT h)
      else sendSegment v h cut p c x (ctxFlight v w) (w.next % p.segs)

theorem exec_ctxEmission (hw : ctxNext (s.atTime at_) h pool = some w) (hd : w.due ≤ (s.atTime at_).now) (hp : (s.atTime at_).poolRec pool = some p) :
    exec (.ctxEmission h pool cut at_) s = emission (ctxDone (s.atTime at_) p w) h pool cut p w := by
  show execCtxEmission h pool cut at_ s = _
  change (match ctxNext (s.atTime at_) h pool with | none => _ | some w => _) = _
  rw [hw]
  refine (if_neg (Nat.not_lt.2 hd)).trans ?_
  rw [hp]
  rfl

theorem emission_unbound (hn : v.slotChan pool (w.first + w.next / p.segs) = none) : emission v h pool cut p w = .next (v.bump Fld.CYC_CNT_IDLE_COUNT h) := by
  rw [emission, hn]

section
variable (hc : v.slotChan pool (w.first + w.next / p.segs) = some (i, c))
include hc

theorem emission_elsewhere (hn : v.chHall h i = none) : emission v h pool cut p w = .next (v.bump Fld.CYC_CNT_IDLE_COUNT h) := by
  simp only [emission, hc, hn]

theorem emission_silent (hx : v.chHall h i = some x) (hs : segs p.out ≤ w.next % p.segs ∨ v.maySend h c x = false) :
    emission v h pool cut p w = .next (v.bump Fld.CYC_CNT_IDLE_COUNT h) := by
  simp only [emission, hc, hx]
  exact if_pos (hs.imp_right fun silent => by rw [silent]; rfl)

theorem emission_sends (hx : v.chHall h i = some x) (hs : w.next % p.segs < segs p.out) (hm : v.maySend h c x = true) :
    emission v h pool cut p w = sendSegment v h cut p c x (ctxFlight v w) (w.next % p.segs) := by
  simp only [emission, hc, hx]
  exact if_neg fun silent => silent.elim (Nat.not_le.2 hs) (fun quiet => by simp [hm] at quiet)

end

section
variable {flight k : Nat} {eth hdr pay : Bytes} (hf : v.dataOut h p c x flight seg = (eth, hdr, pay))
include hf

theorem sendSegment_plain (hg : p.gmac = false) : sendSegment v h cut p c x flight seg =
    .next ((v.sendCyclic (stnLane (v.station h c.sid)) (withFcs (eth ++ hdr ++ pay)) false).bump Fld.CYC_CNT_TX_COUNT h) := by
  rw [sendSegment, hf]
  exact if_pos (by rw [hg]; rfl)

theorem sendSegment_tagged (hg : p.gmac = true) (hk : v.cycSlot c c.txKey = some k) (hu : v.useCycKey h c.sid k = (y, true)) (he : (y.slot k).eraseAt = none) :
    sendSegment v h cut p c x flight seg = .next ((y.sendCyclic (stnLane (v.station h c.sid)) (withFcs (eth ++ hdr ++ pay ++ sliceB (Config.gcmTag (y.slot k).key
      (cycIv flight c.sid (seg * 16 + (segs p.out - 1)) 1 (y.fld Fld.PLN_RANK_RANK)) (hdr ++ pay) []) 0 16)) false).bump Fld.CYC_CNT_TX_COUNT h) := by
  rw [sendSegment, hf]
  refine (if_neg (by simp [hg])).trans ?_
  simp only [hk, hu, he, Option.isSome_none, Bool.and_false]
  rfl

end

/-! ### Deadlines and notifications -/

theorem exec_poolDeadline {w : CrxWin} (hw : look s.cyc.crx (h * 65536 + pool) = some w) (hp : (s.atTime at_).poolRec pool = some p) (hn : w.done = false)
    (hd : w.deadline ≤ max s.now at_) (hr : s.running h = true) :
    let u := { s.atTime at_ with cyc := { s.cyc with crx := s.cyc.crx.put (h * 65536 + pool) { w with done := true } } }
    exec (.poolDeadline h pool at_) s = .next ((u.cyc.chans.foldl (fun (s : State) (e : Nat × Chan) =>
      if e.2.pool ≠ pool then s else match s.chHall h e.1 with
        | some x => if x.state < 2 then s else s.slotDeadline h p e.1 e.2 x
        | none => s) u).showBound h) := by
  intro u
  have hw : look (s.atTime at_).cyc.crx (h * 65536 + pool) = some w := hw
  show execPoolDeadline h pool at_ s = _
  simp only [execPoolDeadline, hw, hp]
  have due : ¬ (w.done = true ∨ (s.atTime at_).now < w.deadline ∨ (!(s.atTime at_).running h) = true) := by
    rintro (closed | early | stopped)
    · simp [hn] at closed
    · exact Nat.not_lt.2 hd early
    · have hr : (s.atTime at_).running h = true := hr
      simp [hr] at stopped
  exact if_neg due

theorem eventOwner_cyc (source : Nat) (body : Bytes) (hall : Option Nat) : (s.eventOwner source body hall).cyc = s.cyc := by
  unfold State.eventOwner
  split <;> rfl

/-- Below its limit a hall's notification is sent and counted, and nothing else of the cyclic state changes. -/
theorem notify_cyc {kind sid reason lane tci : Nat} {mac : Bytes} (hl : s.cyc.sent.get 0 h < s.fld Fld.CYC_CFG_NOTIFY_LIMIT h) :
    (s.notify h kind sid reason mac lane tci).cyc = { s.cyc with sent := s.cyc.sent.put h (s.cyc.sent.get 0 h + 1) } := by
  rw [State.notify]
  exact (congrArg State.cyc (if_neg (Nat.not_le.2 hl))).trans (eventOwner_cyc _ _ _)

/-- The hall has no overflow left to report. -/
def overflowTaken (s : State) (h : Nat) : State := { s with cyc := { s.cyc with overflow := s.cyc.overflow.del h } }

theorem notifyOverflowSend_clears {f : Nat} (ho : look s.cyc.overflow h = some f) (hf : f < s.flightNow)
    (hl : s.cyc.sent.get 0 h < s.fld Fld.CYC_CFG_NOTIFY_LIMIT h) :
    ∃ t, exec (.notifyOverflowSend h) s = .next t ∧ t.cyc.overflow = s.cyc.overflow.del h ∧ t.cyc.sent.get 0 h = s.cyc.sent.get 0 h + 1 := by
  have run : exec (.notifyOverflowSend h) s = .next ((overflowTaken s h).notify h 0x09 0 0 [] 0 0) := by
    show execNotifyOverflowSend h s = _
    simp only [execNotifyOverflowSend, ho]
    exact if_pos ⟨hf, hl⟩
  have sent := notify_cyc (s := overflowTaken s h) (kind := 0x09) (sid := 0) (reason := 0) (lane := 0) (tci := 0) (mac := []) hl
  refine ⟨_, run, ?_, ?_⟩ <;> rw [sent]
  · rfl
  · exact Tbl.get_put_same ..

end

/-- Settles O25. -/
theorem cyclicTraffic : Obligations.CyclicTraffic := by
  unfold Obligations.CyclicTraffic Gives
  intro l h pool at_ cut s
  refine ⟨fun f => exec_cyclicFrameRx, fun w p hw hd hp => ?_, fun w p => exec_poolDeadline, fun f => notifyOverflowSend_clears⟩
  have run := exec_ctxEmission (cut := cut) hw hd hp
  exact ⟨fun hn => run.trans (emission_unbound hn), fun i c hc hn => run.trans (emission_elsewhere hc hn),
    fun i c x hc hx hs => run.trans (emission_silent hc hx hs),
    fun i c x eth hdr pay hc hx hs hm hg hf => run.trans ((emission_sends hc hx hs hm).trans (sendSegment_plain hf hg)),
    fun i c x eth hdr pay k y hc hx hs hm hg hf hk hu he => run.trans ((emission_sends hc hx hs hm).trans (sendSegment_tagged hf hg hk hu he))⟩

end Sys2Proof.Machine
end

section
/-! PROOFS. Table windows and the walkers (R120, R257, R261, R276, R290, R292, R293, R295): the clocks of a window, the ends of table commands, the audit's
registers, the sweeps of fragments and bridge entries. -/

open Sys2Proof.Spec

namespace Sys2Proof.Machine

/-! ### Sparse tables without a key -/

section
variable {α : Type} {t : Tbl α} {k j : Nat} {v : α}

/-- No entry of a table has the key. -/
def KeyFree (t : Tbl α) (k : Nat) : Prop := ∀ e ∈ t, e.1 ≠ k

theorem KeyFree.look_eq (hk : KeyFree t k) : look t k = none := by
  induction t with
  | nil => rfl
  | cons e t ih =>
    rw [look, if_neg (hk e List.mem_cons_self), ih fun x hx => hk x (List.mem_cons_of_mem _ hx), ite_self]

theorem keyFree_del : KeyFree (t.del k) k := fun e he => by simpa using (List.mem_filter.1 he).2

theorem KeyFree.del (hk : KeyFree t k) : KeyFree (t.del j) k := fun e he => hk e (List.mem_filter.1 he).1

/-- What another key finds is found without the key too. -/
theorem look_del_of_ne (hj : j ≠ k) (hv : look t j = some v) : look (t.del k) j = some v := by
  induction t with
  | nil => exact hv
  | cons e t ih =>
    rw [look] at hv
    have keep (he : e.1 ≠ k) : Tbl.del (e :: t) k = e :: Tbl.del t k := List.filter_cons_of_pos (by simpa using he)
    split at hv
    · next here =>
      rw [keep (here ▸ hj), look, if_pos here, hv]
    · next other =>
      split at hv
      · simp at hv
      · next past =>
        by_cases he : e.1 = k
        · rw [show Tbl.del (e :: t) k = Tbl.del t k from List.filter_cons_of_neg (by simpa using he), ih hv]
        · rw [keep he, look, if_neg other, if_neg past, ih hv]

end

section
variable {s u : State} {h b x y at_ : Nat} {who : Who}

/-! ### The window -/

theorem exec_tableWindow_closed (hn : ∀ o, ¬ Issues s h 2 0x33 o) : exec (.tableWindow h at_) s = .next ((s.atTime at_).tableServe h) := by
  show execTableWindow h at_ s = _
  rw [execTableWindow, takeOp_of_none hn]

/-- The op of a TABLE window has issued: what an earlier window still owed is served, and the window is open. -/
theorem exec_tableWindow_opens {o : Nat} (hi : Issues s h 2 0x33 o) : let u := ((issued s h 2 o).tableServe h).occupy h o (bitsOf o 46 31)
    let v := u.setSeq h { u.seq h with table := some (bitsOf o 48 47, clockAt (u.seq h).start (Plan.offset o) (u.clocks h), bitsOf o 46 31, 0) }
    exec (.tableWindow h at_) s = .next ((v.atTime at_).tableServe h) := by
  show execTableWindow h at_ s = _
  rw [execTableWindow, takeOp_of_issues hi]

theorem tableServe_of_closed (hn : (s.seq h).table = none) : s.tableServe h = s := by rw [State.tableServe, hn]

/-! ### The end of a table command -/

/-- The hall has the command no more. -/
def withoutJob (s : State) (h : Nat) (rest : List TblJob) : State := { s with tblq := s.tblq.put h rest }

theorem tableDone_last {j : TblJob} {rest : List TblJob} (hq : s.tblq.get [] h = j :: rest) (hst : j.st = 0)
    (last : ∀ e ∈ s.tblq.put h rest, ∀ k ∈ e.2, (k.cmd.fn, k.cmd.idx) ≠ (j.cmd.fn, j.cmd.idx)) :
    s.tableDone h j = if j.acc = [] then (withoutJob s h rest).adminOk j.cmd else ((withoutJob s h rest).adminOut j.cmd j.acc).adminOk j.cmd := by
  have gone : (s.tblq.put h rest).any (fun e => e.2.any (fun k => k.cmd.fn == j.cmd.fn && k.cmd.idx == j.cmd.idx)) = false := by
    simp only [List.any_eq_false, Bool.not_eq_true, Bool.and_eq_false_iff, beq_eq_false_iff_ne]
    intro e he k hk
    have := last e he k hk
    grind
  rw [State.tableDone, hq]
  exact (if_neg (by rw [List.drop_one, List.tail_cons, gone]; decide)).trans (if_neg (not_not.2 hst))

/-! ### The audit's registers -/

theorem exec_auditShadowWrite (hw : s.mayWrite who = true) (hh : h < 18) (hb : b < 512) (value : Nat) (clash : Bool) :
    exec (.auditShadowWrite who h b value clash) s =
      .next ((s.setFld Fld.FWD_AUDIT_SHADOW_DIGEST value h b).setBlockValid h b (if clash then 0 else 1)) :=
  if_neg (by simp [hw]; omega)

theorem auditSt_setAudit (a : AuditSt) : (s.setAudit h a).auditSt h = a := Tbl.get_put_same ..

theorem exec_fwdAuditFailRead_empty (hh : h < 18) (hf : (s.auditSt h).fails = []) :
    exec (.fwdAuditFailRead who h) s = .next (s.answer who (Reg.addr .FWD_AUDIT_FAIL h 0) 0) := by
  refine (if_neg (by omega)).trans ?_
  simp only [hf]

theorem exec_fwdAuditFailRead_head {f g : Nat} {rest : List (Nat × Nat)} (hh : h < 18) (hf : (s.auditSt h).fails = (f, g) :: rest) :
    exec (.fwdAuditFailRead who h) s = .next (((s.setAudit h { s.auditSt h with fails := rest }).latch who (Reg.addr .FWD_AUDIT_FAIL_DIGEST h 0) g).answer who
      (Reg.addr .FWD_AUDIT_FAIL h 0) (2 ^ 31 + rest.length * 65536 + f)) := by
  refine (if_neg (by omega)).trans ?_
  simp only [hf]

/-! ### The sweep of fragment entries -/

/-- The sweep visits a place of the fragment table. -/
def fragVisit (h : Nat) (s : State) (x : Nat) : State :=
  match s.fragAt x with
  | some e => if e.live s.now then s else (s.freeFrag h x).bump Fld.FRG_CNT_AGED_COUNT h
  | none => s

theorem exec_fragEntryExpiry (hh : h < 18) (hb : b < 1024) :
    exec (.fragEntryExpiry h b at_) s = .next (((List.range 4).map (fun w => h * 4096 + b * 4 + w)).foldl (fragVisit h) (s.atTime at_)) :=
  if_neg (by omega)

variable {e : FragEntry} {l : List Nat}

theorem fragVisit_dead (he : s.fragAt x = some e) (hd : e.live s.now = false) : fragVisit h s x = (s.freeFrag h x).bump Fld.FRG_CNT_AGED_COUNT h := by
  simp only [fragVisit, he]
  exact if_neg (by simp [hd])

/-- A visit leaves the table as it is, or frees the place visited, which then held an entry past its time. -/
theorem fragVisit_cases (h : Nat) (s : State) (x : Nat) : fragVisit h s x = s ∨
    (∃ e, s.fragAt x = some e ∧ e.live s.now = false) ∧ (fragVisit h s x).fw.frags = s.fw.frags.del x ∧ (fragVisit h s x).now = s.now := by
  cases he : s.fragAt x with
  | none => left; simp only [fragVisit, he]
  | some e =>
    by_cases hl : e.live s.now = true
    · left; simp only [fragVisit, he, if_pos hl]
    · have dead := Bool.eq_false_iff.2 hl
      exact .inr ⟨⟨e, rfl, dead⟩, by rw [fragVisit_dead he dead]; rfl, by rw [fragVisit_dead he dead]; rfl⟩

theorem keyFree_freed (he : s.fragAt x = some e) (hd : e.live s.now = false) : KeyFree (fragVisit h s x).fw.frags x := by
  rw [fragVisit_dead he hd]
  exact keyFree_del

theorem fragVisit_now : (fragVisit h s x).now = s.now := by
  obtain same | ⟨-, -, now⟩ := fragVisit_cases h s x
  · rw [same]
  · exact now

/-- Other entries, and live ones, stay. -/
theorem fragVisit_keeps (he : s.fragAt y = some e) (hk : y ≠ x ∨ e.live s.now = true) : (fragVisit h s x).fragAt y = some e := by
  obtain same | ⟨⟨f, hf, dead⟩, frags, -⟩ := fragVisit_cases h s x
  · rw [same, he]
  · have other : y ≠ x := hk.elim id fun live eq => by
      subst eq
      simp_all
    rw [State.fragAt, frags]
    exact look_del_of_ne other he

theorem keyFree_fragVisit (hy : KeyFree s.fw.frags y) : KeyFree (fragVisit h s x).fw.frags y := by
  obtain same | ⟨-, frags, -⟩ := fragVisit_cases h s x
  · rwa [same]
  · rw [frags]
    exact hy.del

theorem keyFree_fragVisits (hy : KeyFree s.fw.frags y) : KeyFree (l.foldl (fragVisit h) s).fw.frags y := by
  induction l generalizing s with
  | nil => exact hy
  | cons x l ih => exact ih (keyFree_fragVisit hy)

theorem fragVisits_keep (he : s.fragAt y = some e) (live : e.live s.now = true) : (l.foldl (fragVisit h) s).fragAt y = some e := by
  induction l generalizing s with
  | nil => exact he
  | cons x l ih => exact ih (fragVisit_keeps he (.inr live)) (by rwa [fragVisit_now])

theorem fragVisits_free (hy : y ∈ l) (he : s.fragAt y = some e) (dead : e.live s.now = false) : (l.foldl (fragVisit h) s).fragAt y = none := by
  induction l generalizing s with
  | nil => simp at hy
  | cons x l ih =>
    by_cases here : y = x
    · subst here
      exact (keyFree_fragVisits (keyFree_freed he dead)).look_eq
    · exact ih ((List.mem_cons.1 hy).resolve_left here) (fragVisit_keeps he (.inl here)) (by rwa [fragVisit_now])

/-! ### The sweep of bridge entries -/

theorem sweepEntry_aged {e : Bridge} (he : s.bridgeAt h x = some e) (hs : e.static = false) (hc : s.cfg Fld.FWD_CFG_AGE_S ≠ 0)
    (old : s.cfg Fld.FWD_CFG_AGE_S ≤ since12 s.sec12 e.seen) : s.sweepEntry h x false = (s.freeBridge h x).bump Fld.FWD_CNT_AGED_COUNT h := by
  simp only [State.sweepEntry, he]
  exact (if_neg (by simp [hs])).trans ((if_neg Bool.false_ne_true).trans (if_pos ⟨hc, old⟩))

theorem sweepEntry_static {e : Bridge} {renew : Bool} (he : s.bridgeAt h x = some e) (hs : e.static = true) : s.sweepEntry h x renew = s := by
  simp only [State.sweepEntry, he]
  exact if_pos hs

end

/-- Settles O53. -/
theorem tableWindowsAndWalkers : Obligations.TableWindowsAndWalkers := by
  unfold Obligations.TableWindowsAndWalkers Gives
  intro h b x value at_ who s
  refine ⟨exec_tableWindow_closed, fun o => exec_tableWindow_opens, tableServe_of_closed, fun kind start len used ht => ?_, fun j rest hq hst last => ?_,
    fun hw hh hb => ⟨exec_auditShadowWrite hw hh hb value false, exec_auditShadowWrite hw hh hb value true⟩,
    fun f g rest hh hf => ⟨_, exec_fwdAuditFailRead_head hh hf, ?_, rfl, rfl⟩, exec_fwdAuditFailRead_empty,
    fun hh hb => ⟨_, exec_fragEntryExpiry hh hb, fun w e hw he => ?_, fun w e _ he => fragVisits_keep (s := s.atTime at_) he⟩,
    fun hs hb => if_neg (by simp [hs]; omega), fun e => sweepEntry_aged, fun e he hs => ⟨sweepEntry_static he hs, sweepEntry_static he hs⟩⟩
  · simp only [State.tableServe, ht]
  · have done := tableDone_last hq hst last
    exact ⟨fun none_ => done.trans (if_pos none_), fun some_ => done.trans (if_neg some_)⟩
  · exact congrArg AuditSt.fails (auditSt_setAudit (s := s) _)
  · exact fragVisits_free (s := s.atTime at_) (List.mem_map.2 ⟨w, List.mem_range.2 hw, rfl⟩) he

end Sys2Proof.Machine
end

section
/-! PROOFS. Kernel instructions (R162 to R170): the words that spell them (R165), and what each that computes, loads, stores or
branches leaves. -/

open Sys2Proof.Spec

namespace Sys2Proof.Machine

section
variable {s : State} {m m' : RCore} {h c ecc w op fn rd ra rb imm n count body land act span base : Nat}

/-! ### Instruction words (R165) -/

theorem fmtR_eq (hf : fn < 2 ^ 11) (hd : rd < 32) (ha : ra < 32) (hb : rb < 32) : fmtR op fn rd ra rb = wordR op fn rd ra rb := by
  unfold fmtR wordR; omega

theorem fmtI_eq (hd : rd < 32) (ha : ra < 32) (hi : imm < 2 ^ 16) : fmtI op rd ra imm = wordI op rd ra imm := by
  unfold fmtI wordI; omega

theorem fmtL_eq (hc : count < 2 ^ 14) (hb : body < 2 ^ 12) : fmtL op count body = wordL op count body := by
  unfold fmtL wordL; omega

theorem fmtT_eq (hd : rd < 32) (hl : land < 32) : fmtT op rd land = wordT op rd land := by
  unfold fmtT wordT; omega

theorem fmtE_eq (ha : ra < 32) (hb : rb < 32) (hact : act < 8) (hspan : 1 ≤ span ∧ span ≤ 32) (hbase : base < 32) :
    fmtE op ra rb act span base = wordE op ra rb act span base := by
  unfold fmtE wordE; omega

/-! ### An instruction that runs (R162) -/

/-- Where the next word is the instruction's own and can be read, the instruction takes its effect. -/
theorem rfx_of_runs {k : State → RCore → State} (hr : Runs s h c ecc w) : s.rfx h c w ecc k = k (atWord s h c ecc) (s.rcore h c) := by
  obtain ⟨runs, within, read, next⟩ := hr
  have spelled : ¬ (ecc < 2 ∧ s.codeWord h c (s.rcore h c).pc ≠ some w) := fun ⟨_, other⟩ => other next
  unfold State.rfx
  rw [if_neg (by simp [runs])]
  exact (if_neg (Nat.not_le.2 within)).trans ((if_neg spelled).trans (if_neg (by omega)))

theorem rfxTo_eq (i : Nat) : s.rfxTo h c m n i = stepTo s h c m n i := rfl

/-- A write of a register leaves the place in the kernel. -/
@[simp] theorem set_pc (i : Nat) (v : Word) : (m.set i v).pc = m.pc := by unfold RCore.set; split <;> rfl

/-- The following instruction is next. -/
theorem rfxTo_next (hp : m'.pc = m.pc) : (atWord s h c ecc).rfxTo h c m' n (m.pc + 1) = kernelStep s h c ecc m' n := by
  rw [rfxTo_eq, kernelStep, hp]

theorem rfxCore_of_runs {f : RCore → RCore} (hr : Runs s h c ecc w) (hp : (f (s.rcore h c)).pc = (s.rcore h c).pc) :
    s.rfxCore h c w ecc n f = kernelStep s h c ecc (f (s.rcore h c)) n := by
  rw [State.rfxCore, rfx_of_runs hr, rfxTo_next hp]

theorem rfxR_of_runs {f : Word → Word → Word} (hf : fn < 2 ^ 11) (hd : rd < 32) (ha : ra < 32) (hb : rb < 32) (hr : Runs s h c ecc (wordR 0 fn rd ra rb)) :
    s.rfxR h c ecc fn n rd ra rb f = kernelStep s h c ecc ((s.rcore h c).set rd (f ((s.rcore h c).r ra) ((s.rcore h c).r rb))) n := by
  rw [State.rfxR, fmtR_eq hf hd ha hb, rfxCore_of_runs hr (set_pc ..)]

theorem rfxI_of_runs {f : Word → Word} (hd : rd < 32) (ha : ra < 32) (hi : imm < 2 ^ 16) (hr : Runs s h c ecc (wordI op rd ra imm)) :
    s.rfxI h c ecc op rd ra imm f = kernelStep s h c ecc ((s.rcore h c).set rd (f ((s.rcore h c).r ra))) 1 := by
  rw [State.rfxI, fmtI_eq hd ha hi, rfxCore_of_runs hr (set_pc ..)]

end

/-! ### Arithmetic of words (R166) -/

section
variable (a b : Word) (x y : Int) (n : Nat)

theorem word_sub : a - b = BitVec.ofInt 32 (a.toInt - b.toInt) := by
  rw [← BitVec.toInt_inj]; simp [BitVec.toInt_sub]

theorem word_shiftLeft : a <<< n = BitVec.ofNat 32 (a.toNat * 2 ^ n) := by
  apply BitVec.eq_of_toNat_eq; rw [BitVec.toNat_shiftLeft, BitVec.toNat_ofNat, Nat.shiftLeft_eq]

theorem word_shiftRight : a >>> n = BitVec.ofNat 32 (a.toNat / 2 ^ n) := by
  apply BitVec.eq_of_toNat_eq
  rw [BitVec.toNat_ushiftRight, BitVec.toNat_ofNat, Nat.shiftRight_eq_div_pow, Nat.mod_eq_of_lt ((Nat.div_le_self ..).trans_lt a.isLt)]

theorem word_sshiftRight : a.sshiftRight n = BitVec.ofInt 32 (a.toInt / 2 ^ n) := by
  rw [BitVec.sshiftRight, Int.shiftRight_eq_div_pow]; norm_cast

theorem boolW_decide (p : Prop) [Decidable p] : boolW (decide p) = if p then 1 else 0 := by
  by_cases hp : p <;> simp [boolW, hp]

theorem word_min : (if a.toInt ≤ b.toInt then a else b) = BitVec.ofInt 32 (min a.toInt b.toInt) := by
  rw [min_def, apply_ite (BitVec.ofInt 32), BitVec.ofInt_toInt, BitVec.ofInt_toInt]

theorem word_max : (if a.toInt ≤ b.toInt then b else a) = BitVec.ofInt 32 (max a.toInt b.toInt) := by
  rw [max_def, apply_ite (BitVec.ofInt 32), BitVec.ofInt_toInt, BitVec.ofInt_toInt]

theorem word_minu : (if a.toNat ≤ b.toNat then a else b) = BitVec.ofNat 32 (min a.toNat b.toNat) := by
  rw [min_def, apply_ite (BitVec.ofNat 32), BitVec.ofNat_toNat, BitVec.ofNat_toNat, BitVec.setWidth_eq, BitVec.setWidth_eq]

theorem word_maxu : (if a.toNat ≤ b.toNat then b else a) = BitVec.ofNat 32 (max a.toNat b.toNat) := by
  rw [max_def, apply_ite (BitVec.ofNat 32), BitVec.ofNat_toNat, BitVec.ofNat_toNat, BitVec.setWidth_eq, BitVec.setWidth_eq]

theorem word_mul : a * b = BitVec.ofNat 32 (a.toNat * b.toNat) := rfl

theorem sat32_eq : sat32 x = BitVec.ofInt 32 (saturate32 x) := by
  unfold sat32 clamp saturate32
  congr 1
  split <;> [skip; split] <;> omega

theorem sat64_eq : sat64 x = saturate64 x := by
  unfold sat64 clamp saturate64
  split <;> [skip; split] <;> omega

end

/-- Settles O3: each row of format R writes the word that its operation gives. -/
theorem kernelIntegerOps : Obligations.KernelIntegerOps := by
  unfold Obligations.KernelIntegerOps
  intro h c ecc rd ra rb s hd ha hb m a b op
  have row {fn n : Nat} {i : Instr} {v : Word} (f : Word → Word → Word) (hi : exec i s = .next (s.rfxR h c ecc fn n rd ra rb f)) (hf : fn < 2 ^ 11)
      (hv : f a b = v) : op fn i n v := fun hr => by
    rw [Gives, hi, rfxR_of_runs hf hd ha hb hr, ← hv]
  exact ⟨row _ rfl (by decide) rfl, row _ rfl (by decide) (word_sub a b), row _ rfl (by decide) rfl, row _ rfl (by decide) rfl, row _ rfl (by decide) rfl,
    row _ rfl (by decide) (word_shiftLeft a _), row _ rfl (by decide) (word_shiftRight a _), row _ rfl (by decide) (word_sshiftRight a _),
    row _ rfl (by decide) (boolW_decide _), row _ rfl (by decide) (boolW_decide _), row _ rfl (by decide) (word_min a b), row _ rfl (by decide) (word_max a b),
    row _ rfl (by decide) (word_minu a b), row _ rfl (by decide) (word_maxu a b), row _ rfl (by decide) rfl, row _ rfl (by decide) rfl, row _ rfl (by decide) rfl⟩


/-! ### Divisions and Q16.16 (R167, R168) -/

section
variable {s : State} {h c ecc rd ra rb fn n : Nat} (a b : Word)

theorem word_eq_zero : a = 0#32 ↔ a.toNat = 0 := BitVec.toNat_inj.symm

theorem rfxDiv_of_runs {f : Word → Word → Word} (hf : fn < 2 ^ 11) (hd : rd < 32) (ha : ra < 32) (hb : rb < 32) (hr : Runs s h c ecc (wordR 0 fn rd ra rb)) :
    let m := s.rcore h c
    s.rfxDiv h c ecc fn n rd ra rb f = stepTo (if (m.r rb).toNat = 0 then (atWord s h c ecc).bump Fld.RFX_CNT_DIVZ_COUNT h else atWord s h c ecc) h c
      (m.set rd (f (m.r ra) (m.r rb))) n (m.pc + 1) := by
  simp only [State.rfxDiv, fmtR_eq hf hd ha hb, rfx_of_runs hr, rfxTo_eq, word_eq_zero]

theorem word_divu : (if b = 0#32 then 0xFFFFFFFF#32 else a / b) = if b.toNat = 0 then 0xFFFFFFFF else BitVec.ofNat 32 (a.toNat / b.toNat) := by
  simp only [word_eq_zero]
  congr 1
  exact BitVec.eq_of_toNat_eq (by rw [BitVec.toNat_udiv, BitVec.toNat_ofNat, Nat.mod_eq_of_lt ((Nat.div_le_self ..).trans_lt a.isLt)])

theorem word_remu : (if b = 0#32 then a else a % b) = BitVec.ofNat 32 (a.toNat % b.toNat) := by
  apply BitVec.eq_of_toNat_eq
  rw [BitVec.toNat_ofNat, Nat.mod_eq_of_lt ((Nat.mod_le ..).trans_lt a.isLt)]
  split
  next zero => rw [(word_eq_zero b).1 zero, Nat.mod_zero]
  next => exact BitVec.toNat_umod

theorem word_qdiv : (if b = 0#32 then (if 0 ≤ a.toInt then 0x7FFFFFFF#32 else 0x80000000#32) else sat32 (Int.tdiv (a.toInt * 65536) b.toInt)) =
    if b.toNat = 0 then (if 0 ≤ a.toInt then 0x7FFFFFFF else 0x80000000) else BitVec.ofInt 32 (saturate32 (Int.tdiv (a.toInt * 65536) b.toInt)) := by
  simp only [word_eq_zero, sat32_eq]
  rfl

theorem int_abs_eq (x : Int) : Int.ofNat x.natAbs = if x < 0 then -x else x := by
  show (x.natAbs : Int) = _
  split <;> omega

end

/-- Settles O4: each division writes its quotient or remainder, and each Q16.16 row its saturated result. -/
theorem kernelDivisionsAndQFormat : Obligations.KernelDivisionsAndQFormat := by
  unfold Obligations.KernelDivisionsAndQFormat
  refine ⟨fun h c ecc rd ra rb s hd ha hb => ?_, fun h c ecc rd ra rb s hd ha hb => ?_⟩
  · intro m a b op
    have row {fn n : Nat} {i : Instr} {v : Word} (f : Word → Word → Word) (hi : exec i s = .next (s.rfxDiv h c ecc fn n rd ra rb f)) (hf : fn < 2 ^ 11)
        (hv : f a b = v) : op fn i n v := fun hr => by
      intro t
      rw [Gives, hi, rfxDiv_of_runs hf hd ha hb hr, ← hv]
    exact ⟨row _ rfl (by decide) (word_divu a b), row _ rfl (by decide) (word_remu a b), row _ rfl (by decide) (word_qdiv a b)⟩
  · intro m a b op
    have row {fn n rb : Nat} {i : Instr} {x : Int} (f : Word → Word → Word) (hi : exec i s = .next (s.rfxR h c ecc fn n rd ra rb f)) (hf : fn < 2 ^ 11)
        (hb : rb < 32) (hv : f (m.r ra) (m.r rb) = BitVec.ofInt 32 (saturate32 x)) : op (wordR 0 fn rd ra rb) i n x := fun hr => by
      rw [Gives, hi, rfxR_of_runs hf hd ha hb hr, ← hv]
    exact ⟨row _ rfl (by decide) hb (sat32_eq _), row _ rfl (by decide) hb (sat32_eq _), row _ rfl (by decide) hb (sat32_eq _),
      row _ rfl (by decide) (by decide) (int_abs_eq a ▸ sat32_eq _), row _ rfl (by decide) (by decide) (sat32_eq _)⟩

/-! ### Immediates (R165) -/

section
variable (a b : Word) {imm : Nat}

/-- The immediate sign-extended stands for its signed number. -/
theorem toInt_sext (imm : Nat) : (sext imm).toInt = immInt imm := BitVec.toInt_signExtend_of_le (by decide)

theorem sext_eq (imm : Nat) : sext imm = BitVec.ofInt 32 (immInt imm) := by rw [← toInt_sext, BitVec.ofInt_toInt]

theorem word_add_toInt : a + b = BitVec.ofInt 32 (a.toInt + b.toInt) := by
  rw [BitVec.ofInt_add, BitVec.ofInt_toInt, BitVec.ofInt_toInt]

variable (hi : imm < 2 ^ 16)
include hi

theorem zext_eq : zext imm = BitVec.ofNat 32 imm := congrArg _ (Nat.mod_eq_of_lt hi)

theorem lui_eq : zext imm <<< 16 = BitVec.ofNat 32 (imm * 65536) := by
  rw [zext_eq hi, word_shiftLeft, BitVec.toNat_ofNat, Nat.mod_eq_of_lt (by omega)]
  norm_num

end

/-- Settles O5: each row of format I writes the word that its operation gives of the extended immediate. -/
theorem kernelImmediateOps : Obligations.KernelImmediateOps := by
  unfold Obligations.KernelImmediateOps
  intro h c ecc rd ra imm s hd ha hi m a op
  have row {o : Nat} {i : Instr} {v : Word} (f : Word → Word) (he : exec i s = .next (s.rfxI h c ecc o rd ra imm f)) (hv : f a = v) :
      op (wordI o rd ra imm) i v := fun hr => by
    rw [Gives, he, rfxI_of_runs hd ha hi hr, ← hv]
  have zero_ext := zext_eq hi
  have sign_ext := toInt_sext imm
  refine ⟨row _ rfl (sign_ext ▸ word_add_toInt a _), row _ rfl (by rw [zero_ext]), row _ rfl (by rw [zero_ext]), row _ rfl (by rw [zero_ext]),
    row _ rfl (by rw [boolW_decide, sign_ext]), row _ rfl (by rw [boolW_decide, sext_eq]), fun hr => ?_, fun small => ?_⟩
  · show Host.Outcome.next (s.rfxCore h c (fmtI 7 rd 0 imm) ecc 1 fun m => m.set rd (zext imm <<< 16)) = _
    rw [fmtI_eq hd (by decide) hi, rfxCore_of_runs hr (set_pc ..), lui_eq hi]
  · have count : imm % 32 = imm := Nat.mod_eq_of_lt small
    exact ⟨row _ rfl (by rw [count, word_shiftLeft]), row _ rfl (by rw [count, word_shiftRight]), row _ rfl (by rw [count, word_sshiftRight])⟩

/-! ### The accumulator (R166, R167) -/

theorem toSigned_eq_toInt (w v : Nat) : toSigned (w + 1) v = (BitVec.ofNat (w + 1) v).toInt := by
  rw [toSigned, BitVec.toInt_eq_toNat_cond, BitVec.toNat_ofNat, Nat.add_sub_cancel]
  congr 1
  rw [pow_succ]
  exact propext (by omega)

theorem accRound_eq (acc : Int) (n : Nat) :
    accRound acc n = BitVec.ofInt 32 (saturate32 (if n = 0 then acc else saturate64 (acc + 2 ^ (n - 1)) / 2 ^ n)) := by
  rw [accRound, sat32_eq, sat32_eq, sat64_eq]
  split <;> rfl

/-- Settles O6: each row leaves the core with the accumulator, or the registers, that its operation gives. -/
theorem kernelAccumulator : Obligations.KernelAccumulator := by
  unfold Obligations.KernelAccumulator
  intro h c ecc rd ra rb imm s hd ha hb hi m a b op
  have row {w w' n : Nat} {i : Instr} {m' : RCore} (f : RCore → RCore) (he : exec i s = .next (s.rfxCore h c w' ecc n f)) (hw : w' = w) (hv : f m = m')
      (hp : m'.pc = m.pc := by rfl) : op w i n m' := fun hr => by
    rw [Gives, he, hw, rfxCore_of_runs hr (hv ▸ hp), hv]
  have plain {o x y z : Nat} (hx : x < 32) (hy : y < 32) (hz : z < 32) : fmtR o 0 x y z = wordR o 0 x y z := fmtR_eq (by decide) hx hy hz
  refine ⟨row _ rfl (plain (by decide) ha hb) ?_, row _ rfl (plain (by decide) ha hb) ?_, row _ rfl rfl rfl, row _ rfl (fmtI_eq hd (by decide) (by omega)) ?_ (set_pc ..),
    row _ rfl (plain (by decide) ha hb) ?_, row _ rfl (plain hd (by decide) (by decide)) rfl
      ((set_pc ..).trans (set_pc ..))⟩
  · rw [sat64_eq]
  · rw [sat64_eq]
  · rw [accRound_eq, Nat.mod_eq_of_lt hi]
  · rw [toSigned_eq_toInt]

/-! ### Loads and stores (R164, R169, R171) -/

section
variable {s : State} {h c ecc op rd ra imm n limit : Nat} {k : State → RCore → Nat → State}
  (hd : rd < 32) (ha : ra < 32) (hi : imm < 2 ^ 16) (hr : Runs s h c ecc (wordI op rd ra imm))
include hd ha hi hr

/-- An access within its space and aligned goes on. -/
theorem rfxMem_of_runs (hin : (s.rcore h c).addr ra imm + n ≤ limit) (hal : (s.rcore h c).addr ra imm % n = 0) :
    s.rfxMem h c ecc op rd ra imm n limit k = k (atWord s h c ecc) (s.rcore h c) ((s.rcore h c).addr ra imm) := by
  rw [State.rfxMem, fmtI_eq hd ha hi, rfx_of_runs hr, accessFault, if_neg (Nat.not_lt.2 hin), if_neg (not_not.2 hal)]

/-- Any other aborts the kernel as the instruction starts. -/
theorem rfxMem_stray (hout : limit < (s.rcore h c).addr ra imm + n ∨ (s.rcore h c).addr ra imm % n ≠ 0) :
    s.rfxMem h c ecc op rd ra imm n limit k =
      (atWord s h c ecc).kernelAbort h c (if limit < (s.rcore h c).addr ra imm + n then 2 else 3) (s.rcore h c).next := by
  have fault : accessFault ((s.rcore h c).addr ra imm) n limit = some (if limit < (s.rcore h c).addr ra imm + n then 2 else 3) := by
    unfold accessFault
    split
    next => rfl
    next hin => rw [if_pos (hout.resolve_left hin)]
  rw [State.rfxMem, fmtI_eq hd ha hi, rfx_of_runs hr, fault]

end

/-- A load reads the alcove as the instruction finds it. -/
theorem kernelRead_atWord {s : State} {h c ecc a n : Nat} {m : RCore} : (atWord s h c ecc).kernelRead h m a n = s.kernelRead h m a n := by
  have same : (atWord s h c ecc).alcove = s.alcove := by unfold atWord; dsimp only; split <;> rfl
  simp only [State.kernelRead, same]

/-- Settles O7: each access goes on, or aborts, by the bounds and the alignment of its space. -/
theorem kernelMemoryOps : Obligations.KernelMemoryOps := by
  unfold Obligations.KernelMemoryOps
  intro h c ecc rd ra imm s hd ha hi m a t load store stray
  have row {o n limit : Nat} {i : Instr} {u : State} (k : State → RCore → Nat → State) (he : exec i s = .next (s.rfxMem h c ecc o rd ra imm n limit k))
      (hv : k (atWord s h c ecc) m a = u) : Runs s h c ecc (wordI o rd ra imm) → a + n ≤ limit → a % n = 0 → Gives i s u := fun hr hin hal => by
    rw [Gives, he, rfxMem_of_runs hd ha hi hr hin hal, ← hv]
  have off {o n limit : Nat} {i : Instr} (k : State → RCore → Nat → State) (he : exec i s = .next (s.rfxMem h c ecc o rd ra imm n limit k)) :
      stray o n limit i := fun hr hout => by
    rw [Gives, he, rfxMem_stray hd ha hi hr hout]
    rfl
  have read (n : Nat) : (atWord s h c ecc).kernelRead h m a n = s.kernelRead h m a n := kernelRead_atWord
  exact ⟨row _ rfl (by rw [rfxTo_eq, read]), row _ rfl (by rw [rfxTo_eq, read]), row _ rfl rfl, row _ rfl rfl,
    row _ rfl (rfxTo_next (set_pc ..)), row _ rfl rfl,
    off _ rfl, off _ rfl, off _ rfl, off _ rfl, off _ rfl, off _ rfl⟩

/-! ### Branches and loops (R170) -/

/-- Settles O8: a branch goes where its comparison says, and LOOP enters its body. -/
theorem kernelControlFlow : Obligations.KernelControlFlow := by
  unfold Obligations.KernelControlFlow
  intro h c ecc ra rb off count body s ha hb ho hcount hbody m a b branch
  have row {o x y : Nat} {i : Instr} {taken : Prop} [Decidable taken] (f : RCore → Bool) (he : exec i s = .next (s.rfxBranch h c ecc o x y off f))
      (hx : x < 32) (hy : y < 32) (hv : f m = true ↔ taken) : branch (wordI o x y off) i taken := fun hr => by
    rw [Gives, he, State.rfxBranch, fmtB, fmtI_eq hx hy ho, rfx_of_runs hr, rfxTo_eq]
    congr 2
    exact if_congr hv rfl rfl
  refine ⟨row _ rfl ha hb beq_iff_eq, row _ rfl ha hb bne_iff_ne, row _ rfl ha hb decide_eq_true_iff, row _ rfl ha hb decide_eq_true_iff,
    row _ rfl ha hb decide_eq_true_iff, row _ rfl ha hb decide_eq_true_iff, row _ rfl (by decide) (by decide) (by simp), fun hr => ?_, fun hr => ?_⟩
  · show Host.Outcome.next (s.rfx h c (fmtL 0x27 count body) ecc _) = _
    rw [fmtL_eq hcount hbody, rfx_of_runs hr]
  · show Host.Outcome.next (s.rfxCore h c (fmtR 0x29 0 0 0 0) ecc 1 id) = _
    rw [fmtR_eq (by decide) (by decide) (by decide) (by decide), rfxCore_of_runs hr rfl]
    rfl

end Sys2Proof.Machine
end

section
/-! PROOFS. What an instruction of a kernel can reach (R164, R172), its row among the commands, and the registers of a core (R163). -/

open Sys2Proof.Spec

namespace Sys2Proof.Machine

/-! ### What an instruction can reach (R164, R172) -/

/-- π shows neither the time nor the registers, nor the Almanac's queue, nor a core. -/
structure Elsewhere (h c : Nat) {α : Type} (π : State → α) : Prop where
  now : ∀ s t, π { s with now := t } = π s
  regs : ∀ s r, π { s with regs := r } = π s
  flt : ∀ s f, π { s with flt := f } = π s
  core : ∀ s m, π (s.setCore h c m) = π s

/-- An effect changes nothing that stands elsewhere. -/
def Confined (h c : Nat) (k : State → RCore → State) : Prop :=
  ∀ (α : Type) (π : State → α), Elsewhere h c π → ∀ s m, π (k s m) = π s

section
variable {s : State} {m : RCore} {h c r x w ecc n : Nat} {k : State → RCore → State}

/-- From one state to another only registers change. -/
def RegsFrom (s t : State) : Prop := ∃ g, t = { s with regs := g }

theorem RegsFrom.refl (s : State) : RegsFrom s s := ⟨s.regs, rfl⟩

theorem RegsFrom.setFld {t : State} (hs : RegsFrom s t) (f : Fld) (v o i : Nat) : RegsFrom s (t.setFld f v o i) := by
  obtain ⟨g, rfl⟩ := hs
  exact ⟨_, rfl⟩

/-- An abort writes registers, empties its core's commit buffer, and at most logs. -/
theorem kernelAbort_cases (s : State) (h c r x : Nat) : ∃ g l, let u := ({ s with regs := g }).setCore h c { s.rcore h c with commit := [], logged := l }
    s.kernelAbort h c r x = u ∨ ∃ b, s.kernelAbort h c r x = u.alm 0x0401 3 h 3 (4 * h + c) b := by
  unfold State.kernelAbort
  extract_lets m k i t s1 s2 s3 s4 s5
  have shown : RegsFrom s s4 := .setFld (.setFld (.setFld (.setFld (.setFld (.setFld (.setFld (.setFld (.setFld (.setFld (.refl s)
    _ _ _ _) _ _ _ _) _ _ _ _) _ _ _ _) _ _ _ _) _ _ _ _) _ _ _ _) _ _ _ _) _ _ _ _) _ _ _ _
  clear_value s4
  obtain ⟨g, rfl⟩ := shown
  split
  · exact ⟨g, _, .inl rfl⟩
  · exact ⟨g, _, .inr ⟨_, rfl⟩⟩

section
variable {α : Type} {π : State → α} (hπ : Elsewhere h c π)
include hπ

theorem Elsewhere.kernelAbort (s : State) (r x : Nat) : π (s.kernelAbort h c r x) = π s := by
  obtain ⟨g, l, e | ⟨b, e⟩⟩ := kernelAbort_cases s h c r x <;> rw [e]
  · exact (hπ.core _ _).trans (hπ.regs _ _)
  · exact (alm_unseen hπ.regs hπ.flt ..).trans ((hπ.core _ _).trans (hπ.regs _ _))

theorem Elsewhere.endBudget (s : State) (x : Nat) : π (s.endBudget h c x) = π s := by
  unfold State.endBudget
  extract_lets u
  have aborted : π u = π s := by
    show π (if _ then _ else _) = _
    split
    · exact hπ.kernelAbort ..
    · rfl
  split
  · exact (hπ.regs _ _).trans aborted
  · rfl

/-- An instruction of a core reaches nothing elsewhere, if its effect does not. -/
theorem Elsewhere.rfx (hk : Confined h c k) : π (s.rfx h c w ecc k) = π s := by
  unfold State.rfx
  extract_lets m u
  have begun : π u = π s := (hπ.regs _ _).trans (hπ.now _ _)
  split
  · rfl
  split
  · exact (hπ.endBudget ..).trans (hπ.now _ _)
  split
  · rfl
  split
  · exact (hπ.kernelAbort ..).trans begun
  · refine (hk _ _ hπ _ _).trans ?_
    split
    · exact (hπ.regs _ _).trans begun
    · exact begun

end

/-- Other cores stand elsewhere. -/
theorem elsewhere_rcore {h' c' : Nat} (hc : c < 4) (hc' : c' < 4) (other : (h', c') ≠ (h, c)) : Elsewhere h c (State.rcore · h' c') := by
  have apart : 4 * h' + c' ≠ 4 * h + c := fun e => other (by rw [Prod.mk.injEq]; omega)
  exact ⟨fun _ _ => rfl, fun _ _ => rfl, fun _ _ => rfl, fun _ _ => Tbl.get_put_ne _ _ _ _ _ apart⟩

end

/-! ### The rows of kernel instructions (R165, R166) -/

section
variable {s : State} {i : Instr} {h c ecc w w' op fn rd ra rb imm n : Nat}

theorem confined_to (f : State → RCore → RCore) (n : Nat) (next : State → RCore → Nat) : Confined h c (fun s m => s.rfxTo h c (f s m) n (next s m)) :=
  fun _ _ hπ _ _ => hπ.core _ _

/-- ESCH and ECAN name a span of at least one land: the word cannot spell another (R165). -/
def NamesLand : Instr → Prop
  | .esch _ _ _ _ _ _ span _ => 1 ≤ span
  | .ecan _ _ _ _ span _ => 1 ≤ span
  | _ => True

/-- A command is a row of an instruction of a core: it runs by a word with an effect. One that is not END reaches nothing elsewhere, and its word is
the one that spells the instruction. -/
def KernelRow (i : Instr) (h c ecc w : Nat) : Prop :=
  ∃ w' k, (∀ s, exec i s = .next (s.rfx h c w' ecc k)) ∧ ((∀ e, i ≠ .endOp h c e) → Confined h c k) ∧ (i.wellFormed = true → NamesLand i → w' = w)

section
variable (hw : i.wellFormed = true → NamesLand i → w' = w)
include hw

theorem KernelRow.confined {k : State → RCore → State} (he : ∀ s, exec i s = .next (s.rfx h c w' ecc k)) (hk : Confined h c k) : KernelRow i h c ecc w :=
  ⟨w', k, he, fun _ => hk, hw⟩

theorem KernelRow.core {f : RCore → RCore} (he : ∀ s, exec i s = .next (s.rfxCore h c w' ecc n f)) : KernelRow i h c ecc w :=
  .confined hw he (confined_to _ _ _)

end

theorem KernelRow.div {f : Word → Word → Word} (hw : i.wellFormed = true → NamesLand i → fmtR 0 fn rd ra rb = w)
    (he : ∀ s, exec i s = .next (s.rfxDiv h c ecc fn n rd ra rb f)) : KernelRow i h c ecc w :=
  .confined hw he fun _ _ hπ s m => (hπ.core _ _).trans (by split; exacts [hπ.regs _ _, rfl])

section
variable (hw : i.wellFormed = true → NamesLand i → fmtI op rd ra imm = w)
include hw

theorem KernelRow.mem {k : State → RCore → Nat → State} {limit : Nat} (he : ∀ s, exec i s = .next (s.rfxMem h c ecc op rd ra imm n limit k))
    (hk : ∀ a, Confined h c (fun s m => k s m a)) : KernelRow i h c ecc w :=
  .confined hw he fun _ _ hπ s m => by
    split
    · exact hπ.kernelAbort ..
    · exact hk _ _ _ hπ s m

theorem KernelRow.load (he : ∀ s, exec i s = .next (s.rfxLoad h c ecc op rd ra imm n)) : KernelRow i h c ecc w :=
  .mem hw he fun a _ _ hπ s m => (hπ.core _ _).trans (by
    unfold State.poisonUse
    split
    · exact (hπ.regs _ _).trans (hπ.regs _ _)
    · rfl)

theorem KernelRow.branch {f : RCore → Bool} (he : ∀ s, exec i s = .next (s.rfxBranch h c ecc op rd ra imm f)) : KernelRow i h c ecc w :=
  .confined hw he (confined_to (fun _ m => m) 2 _)

end

/-- The bounds that wellFormed sets. -/
theorem bounds_iff {p : Bool} {q : Prop} [Decidable q] : (p && decide q) = true ↔ p = true ∧ q := by simp

/-- Every command that stands for an instruction of a kernel is such a row: by the shape of its effect and the format of its word. -/
theorem kernelRow_of_word (hi : kernelWord i = some (h, c, ecc, w)) : KernelRow i h c ecc w := by
  cases i
  case divu | remu | qdiv =>
    cases hi
    refine .div (fun ok _ => ?_) fun _ => rfl
    have bounds := bounds_iff.1 ok
    simp only [bounds_iff] at bounds
    exact fmtR_eq (by decide) (by omega) (by omega) (by omega)
  case addOp | subOp | andOp | orOp | xorOp | shl | shr | sar | slt | sltu | minOp | maxOp | minu | maxu | mulOp | mulh | mulhu | qadd | qsub | qmul | qabs |
      qneg | mac | msu | acclr | acset | acget | rfxNop =>
    cases hi
    refine .core (fun ok _ => ?_) fun _ => rfl
    have bounds := bounds_iff.1 ok
    simp only [bounds_iff] at bounds
    exact fmtR_eq (by decide) (by omega) (by omega) (by omega)
  case addi | andi | ori | xori | slti | sltiu | lui | shli | shri | sari | acrd =>
    cases hi
    refine .core (fun ok _ => ?_) fun _ => rfl
    have bounds := bounds_iff.1 ok
    simp only [bounds_iff] at bounds
    exact fmtI_eq (by omega) (by omega) (by omega)
  case ldw | ldhu =>
    cases hi
    refine .load (fun ok _ => ?_) fun _ => rfl
    have bounds := bounds_iff.1 ok
    simp only [bounds_iff] at bounds
    exact fmtI_eq (by omega) (by omega) (by omega)
  case stw | sth | lds | sts =>
    cases hi
    refine .mem (fun ok _ => ?_) (fun _ => rfl) fun _ => confined_to _ _ _
    have bounds := bounds_iff.1 ok
    simp only [bounds_iff] at bounds
    exact fmtI_eq (by omega) (by omega) (by omega)
  case beq | bne | blt | bge | bltu | bgeu | jmp =>
    cases hi
    refine .branch (fun ok _ => ?_) fun _ => rfl
    have bounds := bounds_iff.1 ok
    simp only [bounds_iff] at bounds
    exact fmtI_eq (by omega) (by omega) (by omega)
  case loopOp =>
    cases hi
    refine .confined (fun ok _ => ?_) (fun _ => rfl) fun _ _ hπ _ _ => hπ.core _ _
    have bounds := bounds_iff.1 ok
    simp only [bounds_iff] at bounds
    exact fmtL_eq (by omega) (by omega)
  case timeOp | ecap | elvl =>
    cases hi
    refine .confined (fun ok _ => ?_) (fun _ => rfl) fun _ _ hπ _ _ => hπ.core _ _
    have bounds := bounds_iff.1 ok
    simp only [bounds_iff] at bounds
    exact fmtT_eq (by omega) (by omega)
  case esch | ecan =>
    cases hi
    refine .core (fun ok lands => ?_) fun _ => rfl
    have bounds := bounds_iff.1 ok
    simp only [bounds_iff] at bounds
    exact fmtE_eq (by omega) (by omega) (by omega) ⟨lands, by omega⟩ (by omega)
  case endOp =>
    cases hi
    exact ⟨_, _, fun _ => rfl, fun other => absurd rfl (other _), fun _ _ => rfl⟩
  all_goals exact nomatch hi

end

/-! ### Registers of a core (R163) -/

section
variable (m : RCore) (i j : Nat) (v : Word)

@[simp] theorem r_zero : m.r 0 = 0 := rfl

theorem r_set_same (hi : i % 32 ≠ 0) : (m.set i v).r i = v := by
  rw [RCore.r, RCore.set, if_neg hi, if_neg hi]
  exact Tbl.get_put_same ..

theorem r_set_ne (other : i % 32 ≠ j % 32) : (m.set i v).r j = m.r j := by
  unfold RCore.set
  split
  · rfl
  · simp only [RCore.r, Tbl.get_put_ne _ _ _ _ _ other.symm]

/-- A write of a register writes nothing else of the core. -/
theorem set_frame : (m.set i v).acc = m.acc ∧ (m.set i v).scratch = m.scratch ∧ (m.set i v).commit = m.commit := by
  unfold RCore.set
  split <;> exact ⟨rfl, rfl, rfl⟩

end

/-- The memories, what has left the part, the lands, the queues and the tables. -/
def untouched (s : State) :=
  (s.alcove, s.atrium, s.out, s.lands, s.wq, s.fw, s.bpm, s.keys, s.dma, s.latched, s.wide, s.hallq, s.pending)

/-- Settles O11: the instruction runs as its row does, and nothing but the time, registers, the Almanac's queue and its core shows that. -/
theorem kernelFrameAndRegisters : Obligations.KernelFrameAndRegisters := by
  unfold Obligations.KernelFrameAndRegisters
  refine ⟨fun i h c ecc w s t hi other hh hc he => ?_, fun m i j v => ⟨r_zero _, r_set_same m i v, r_set_ne m i j v, set_frame m i v⟩⟩
  obtain ⟨w', k, row, confined, -⟩ := kernelRow_of_word hi
  obtain rfl : s.rfx h c w' ecc k = t := Host.Outcome.next.inj ((row s).symm.trans he)
  have kept {α : Type} {π : State → α} (hπ : Elsewhere h c π) : π (s.rfx h c w' ecc k) = π s := hπ.rfx (confined other)
  have fields := kept (π := untouched) ⟨fun _ _ => rfl, fun _ _ => rfl, fun _ _ => rfl, fun _ _ => rfl⟩
  simp only [untouched, Prod.mk.injEq] at fields
  obtain ⟨alcove, atrium, out, lands, wq, fw, bpm, keys, dma, latched, wide, hallq, pending⟩ := fields
  exact ⟨alcove, atrium, out, lands, wq, fw, bpm, keys, dma, latched, wide, hallq, pending, fun h' c' _ hc' apart => kept (elsewhere_rcore hc hc' apart)⟩

end Sys2Proof.Machine
end

section
/-! PROOFS. The end of a kernel by END (R171, R172, R182), and the instructions of time and the event lands (R174 to R178). -/

open Sys2Proof.Spec

namespace Sys2Proof.Machine

/-! ### The end of a kernel by END (R171, R172, R182) -/

section
variable {s u : State} {m : RCore} {h c ecc x : Nat}

theorem clockAt_mono {start a b rate : Nat} (hab : a ≤ b) : clockAt start a rate ≤ clockAt start b rate :=
  Nat.add_le_add_left (Nat.div_le_div_right (Nat.mul_le_mul_right _ hab)) _

theorem now_atWord : (atWord s h c ecc).now = max s.now (s.rcore h c).next := by
  unfold atWord; dsimp only; split <;> rfl

/-- The instant of the fourth clock of an END. -/
def RCore.commitAt (m : RCore) : Nat := clockAt m.start (m.issue + m.clock + 4) m.rate

/-- The entries of a commit buffer have been applied in its commit clock. -/
def State.committed (s : State) (h : Nat) (m : RCore) : State := m.commit.foldl (fun x e => x.applyEntry h m e) (s.atTime m.commitAt)

/-- An entry takes no time. -/
theorem applyEntry_now (e : CommitEntry) : (s.applyEntry h m e).now = s.now := by
  cases e with
  | store a b => exact putAlcove_now
  | sched off span base act t width =>
    simp only [State.applyEntry, apply_ite State.now, bump_now, setLand_now, ite_self]
  | cancel off span base => simp only [State.applyEntry, apply_ite State.now, bump_now, setLand_now, ite_self]

theorem committed_now : (s.committed h m).now = max s.now m.commitAt :=
  List.foldlRecOn (motive := fun u : State => u.now = max s.now m.commitAt) _ _ rfl fun _ hu _ _ => (applyEntry_now _).trans hu

/-- The registers show that a kernel has ended by END. -/
def State.showEnd (s : State) (h c : Nat) : State :=
  ((s.bump Fld.RFX_CNT_COMMIT_COUNT h).setFld Fld.RFX_CORE_RUNNING 0 h c).setFld Fld.RFX_CORE_OUTCOME 1 h c

/-- The longest run of a core, and of which kernel, is kept up. -/
def State.noteClocks (s : State) (h c n : Nat) : State :=
  if s.fld Fld.RFX_MAX_CLOCKS_CLOCKS h c < n then
    (s.setFld Fld.RFX_MAX_CLOCKS_CLOCKS n h c).setFld Fld.RFX_MAX_CLOCKS_KERNEL (s.fld Fld.RFX_CORE_KERNEL h c) h c
  else s

/-- The state after an END within the budget, from the state that its buffer left. -/
def State.ended (s : State) (h c : Nat) (m : RCore) : State :=
  ((s.setCore h c { m with commit := [], clock := m.clock + 4 }).showEnd h c).noteClocks h c (min (m.clock + 4) 0xFFFFFF)

theorem exec_endOp (hr : Runs s h c ecc (wordR 0x28 0 0 0 0)) (hb : (s.rcore h c).clock + 4 ≤ (s.rcore h c).budget) :
    exec (.endOp h c ecc) s = .next (((atWord s h c ecc).committed h (s.rcore h c)).ended h c (s.rcore h c)) := by
  show Host.Outcome.next (s.rfx h c (fmtR 0x28 0 0 0 0) ecc _) = _
  rw [fmtR_eq (by decide) (by decide) (by decide) (by decide), rfx_of_runs hr, if_neg (Nat.not_lt.2 hb)]
  rfl

/-- Keeping up the longest run changes registers. -/
theorem regsFrom_noteClocks (n : Nat) : RegsFrom s (s.noteClocks h c n) := by
  unfold State.noteClocks
  split
  · exact .setFld (.setFld (.refl s) ..) ..
  · exact .refl s

/-- It leaves what the core shows. -/
theorem sameAt_noteClocks (n : Nat) : SameAt (· = Reg.addr .RFX_CORE h c) s (s.noteClocks h c n) := by
  have apart : ¬ Reg.addr .RFX_MAX_CLOCKS h c = Reg.addr .RFX_CORE h c := by
    rw [addr_rfxCore]
    show ¬ 0x10000450 + 0x1000000 * h + 4 * c = _
    omega
  exact .ite (.setFld (.setFld (.refl s) _ _ _ _ apart) _ _ _ _ apart) (.refl s)

theorem shown_showEnd : (s.showEnd h c).flag Fld.RFX_CORE_RUNNING h c = false ∧ (s.showEnd h c).fld Fld.RFX_CORE_OUTCOME h c = 1 := by
  constructor
  · rw [State.flag, State.showEnd]
    simp (disch := decide) only [fld_setFld_beside, fld_setFld_same]
    rfl
  · exact fld_setFld_same (by decide)

/-- What an END leaves: the core shows that it ended, with nothing to commit, and the registers and the core alone have changed. -/
theorem ended_shown : ((s.ended h c m).rcore h c).commit = [] ∧ (s.ended h c m).flag Fld.RFX_CORE_RUNNING h c = false ∧
    (s.ended h c m).fld Fld.RFX_CORE_OUTCOME h c = 1 ∧ (s.ended h c m).now = s.now ∧ (s.ended h c m).alcove = s.alcove ∧ (s.ended h c m).lands = s.lands := by
  unfold State.ended
  generalize hv : s.setCore h c { m with commit := [], clock := m.clock + 4 } = v
  obtain ⟨running, outcome⟩ := shown_showEnd (s := v) (h := h) (c := c)
  have kept := sameAt_noteClocks (s := v.showEnd h c) (h := h) (c := c) (min (m.clock + 4) 0xFFFFFF)
  obtain ⟨g, e⟩ := regsFrom_noteClocks (s := v.showEnd h c) (h := h) (c := c) (min (m.clock + 4) 0xFFFFFF)
  refine ⟨?_, (kept.flag _ _ _ rfl).trans running, (kept.fld _ _ _ rfl).trans outcome, ?_⟩
  all_goals rw [e, ← hv]
  · exact congrArg RCore.commit (rcore_setCore (s := s))
  · exact ⟨rfl, rfl, rfl⟩

end

/-! ### Time and the event lands (R174 to R178) -/

section
variable {s : State} {m : RCore} {h c ecc : Nat}

theorem pln_atWord : (atWord s h c ecc).pln = s.pln := by unfold atWord; dsimp only; split <;> rfl
theorem lands_atWord : (atWord s h c ecc).lands = s.lands := by unfold atWord; dsimp only; split <;> rfl

/-- Time counts from the origin of the plan that runs. -/
theorem nsAt_atWord (x : Nat) : (atWord s h c ecc).nsAt m x = (m.start - s.origin) / nsTicks + (m.issue + x) * 100 / m.rate := by
  rw [State.nsAt, State.origin, pln_atWord, State.origin]

theorem land_atWord (k : Nat) : (atWord s h c ecc).land k = s.land k := by rw [State.land, lands_atWord, State.land]

end

/-- Settles O9: the rows of time and lands, by what the state of their word holds, and END by what its commit leaves. -/
theorem kernelTimeLandsCommit : Obligations.KernelTimeLandsCommit := by
  unfold Obligations.KernelTimeLandsCommit
  intro h c ecc rd ra rb act span base land s hd ha hb hact hspan hspan' hbase hland m t ns pair
  have onward {n : Nat} {m' : RCore} (hp : m'.pc = m.pc) : (.next ((atWord s h c ecc).rfxTo h c m' n (m.pc + 1)) : Answer) = .next (kernelStep s h c ecc m' n) :=
    congrArg _ (rfxTo_next hp)
  have paired (r v : Nat) : (pair m r v).pc = m.pc := (set_pc ..).trans (set_pc ..)
  refine ⟨fun hr => ?_, fun lvl e n hr hs => ?_, fun lvl n hr hs => ?_, fun hr => ?_, fun hr => ?_, fun hr => ?_, fun hr hb => ?_⟩
  · show Host.Outcome.next (s.rfx h c (fmtT 0x30 rd 0) ecc _) = _
    rw [fmtT_eq hd (by decide), rfx_of_runs hr, nsAt_atWord]
    exact onward (paired rd ns)
  · show Host.Outcome.next (s.rfx h c (fmtT 0x31 rd land) ecc _) = _
    rw [fmtT_eq hd hland, rfx_of_runs hr, land_atWord, hs]
    exact onward ((set_pc ..).trans (paired ..))
  · show Host.Outcome.next (s.rfx h c (fmtT 0x31 rd land) ecc _) = _
    rw [fmtT_eq hd hland, rfx_of_runs hr, land_atWord, hs]
    exact onward ((set_pc ..).trans (paired rd 0))
  · show Host.Outcome.next (s.rfx h c (fmtT 0x32 rd land) ecc _) = _
    rw [fmtT_eq hd hland, rfx_of_runs hr, land_atWord]
    exact onward (set_pc ..)
  · show Host.Outcome.next (s.rfxCore h c (fmtE 0x33 ra rb act span base) ecc 1 _) = _
    rw [fmtE_eq ha hb hact ⟨hspan, hspan'⟩ hbase, rfxCore_of_runs hr rfl]
  · show Host.Outcome.next (s.rfxCore h c (fmtE 0x34 0 rb 0 span base) ecc 1 _) = _
    rw [fmtE_eq (by decide) hb (by decide) ⟨hspan, hspan'⟩ hbase, rfxCore_of_runs hr rfl]
  · obtain ⟨commit, running, outcome, now, alcove, lands⟩ := ended_shown (s := t.committed h m) (h := h) (c := c) (m := m)
    have begun : m.next ≤ m.commitAt := clockAt_mono (Nat.le_add_right _ _)
    refine ⟨_, exec_endOp hr hb, commit, running, outcome, ?_, alcove, lands⟩
    calc _ = max t.now m.commitAt := now.trans committed_now
      _ = max s.now m.commitAt := by rw [now_atWord, max_assoc, max_eq_right begun]

end Sys2Proof.Machine
end

section
/-! PROOFS. Kernels that do not go on (R182 to R184): what an abort leaves, at the end of a budget and by a word that cannot be read, and the words that
spell an ESCH (R165). -/

open Sys2Proof.Spec

namespace Sys2Proof.Machine

/-! ### Aborts (R182 to R184) -/

section
variable {s u : State} {h c r x : Nat}

theorem rcore_alm (code scope hall kind idx : Nat) (b : Bytes) : (s.alm code scope hall kind idx b).rcore h c = s.rcore h c :=
  alm_unseen (π := (State.rcore · h c)) (fun _ _ => rfl) (fun _ _ => rfl) ..

theorem commit_kernelAbort : ((s.kernelAbort h c r x).rcore h c).commit = [] := by
  obtain ⟨g, l, e | ⟨b, e⟩⟩ := kernelAbort_cases s h c r x <;> rw [e]
  · exact congrArg RCore.commit rcore_setCore
  · exact congrArg RCore.commit ((rcore_alm ..).trans rcore_setCore)

theorem elsewhere_alcove : Elsewhere h c State.alcove := ⟨fun _ _ => rfl, fun _ _ => rfl, fun _ _ => rfl, fun _ _ => rfl⟩
theorem elsewhere_atrium : Elsewhere h c State.atrium := ⟨fun _ _ => rfl, fun _ _ => rfl, fun _ _ => rfl, fun _ _ => rfl⟩

/-- How the registers of a core and its hall show that its kernel was aborted, as the n-th, with a reason and at an index; and whether the core is within a budget. -/
structure AbortShown (h c r i n : Nat) (b : Bool) (u : State) : Prop where
  running : u.flag Fld.RFX_CORE_RUNNING h c = false
  outcome : u.fld Fld.RFX_CORE_OUTCOME h c = 2
  reason : u.fld Fld.RFX_CORE_REASON h c = r
  index : u.fld Fld.RFX_ABORT_INFO_INDEX h = i
  count : u.fld Fld.RFX_CNT_ABORT_COUNT h c = n
  busy : u.coreBusy h c = b

/-- These registers stand in the window of their hall. -/
theorem AbortShown.of_window {t : State} {i n : Nat} {b : Bool} (ht : AbortShown h c r i n b t) (same : SameAt InWindow t u) : AbortShown h c r i n b u := by
  have core : InWindow (Reg.addr .RFX_CORE h c) := by rw [InWindow, addr_rfxCore]; omega
  have info : InWindow (Reg.addr .RFX_ABORT_INFO h 0) := by rw [InWindow, addr_rfxAbortInfo]; omega
  have count : InWindow (Reg.addr .RFX_CNT_ABORT h c) := by rw [InWindow, addr_rfxAborts]; omega
  have status : InWindow (Reg.addr .RFX_STATUS h 0) := by rw [InWindow, addr_rfxStatus]; omega
  have busy : u.fld Fld.RFX_STATUS_BUSY h = t.fld Fld.RFX_STATUS_BUSY h := same.fld _ _ _ status
  exact {
    running := (same.flag Fld.RFX_CORE_RUNNING _ _ core).trans ht.running
    outcome := (same.fld Fld.RFX_CORE_OUTCOME _ _ core).trans ht.outcome
    reason := (same.fld Fld.RFX_CORE_REASON _ _ core).trans ht.reason
    index := (same.fld Fld.RFX_ABORT_INFO_INDEX _ _ info).trans ht.index
    count := (same.fld Fld.RFX_CNT_ABORT_COUNT _ _ count).trans ht.count
    busy := by rw [← ht.busy, State.coreBusy, busy, State.coreBusy] }

/-- The words that an abort writes stand at different addresses. -/
theorem abort_words_apart (hc : c < 4) : [Reg.addr .RFX_CORE h c, Reg.addr .RFX_CNT_ABORT h c, Reg.addr .RFX_STATUS h 0, Reg.addr .RFX_ABORT_INFO h 0,
    Reg.addr .RFX_ABORT_TREAD h 0].Nodup := by
  rw [addr_rfxCore, addr_rfxAborts, addr_rfxStatus, addr_rfxAbortInfo, addr_rfxAbortTread]
  simp only [List.nodup_cons, List.mem_cons, List.not_mem_nil, not_or, List.nodup_nil, not_false_eq_true, and_true]
  omega

/-- An abort shows in the registers as R183 and R184 say. -/
theorem abortShown_kernelAbort (hc : c < 4) (hr : r < 16) : AbortShown h c r (s.fld Fld.RFX_CORE_INDEX h c) ((s.fld Fld.RFX_CNT_ABORT_COUNT h c + 1) % 2 ^ 32) (s.coreBusy h c) (s.kernelAbort h c r x) := by
  have apart := abort_words_apart (h := h) hc
  simp only [List.nodup_cons, List.mem_cons, List.not_mem_nil, not_or] at apart
  obtain ⟨⟨coreCount, coreStatus, coreInfo, coreTread, -⟩, ⟨countStatus, countInfo, countTread, -⟩, ⟨statusInfo, statusTread, -⟩, ⟨infoTread, -⟩, -⟩ := apart
  unfold State.kernelAbort
  extract_lets m k i t s1 s2 s3 s4 s5
  have core : s1.flag Fld.RFX_CORE_RUNNING h c = false ∧ s1.fld Fld.RFX_CORE_OUTCOME h c = 2 ∧ s1.fld Fld.RFX_CORE_REASON h c = r := by
    simp (disch := decide) only [s1, State.flag, fld_setFld_beside, fld_setFld_same]
    exact ⟨rfl, rfl, Nat.mod_eq_of_lt hr⟩
  have ended : SameAt (· ≠ Reg.addr .RFX_CORE h c) s s1 := .setFld (.setFld (.setFld (.refl s) _ _ _ _ (· rfl)) _ _ _ _ (· rfl)) _ _ _ _ (· rfl)
  clear_value s1
  have count : s2.fld Fld.RFX_CNT_ABORT_COUNT h c = (s1.fld Fld.RFX_CNT_ABORT_COUNT h c + 1) % 2 ^ 32 :=
    (fld_setFld_ne _ _ _ _ _ _ _ _ countStatus).trans (fld_bump_same (by decide))
  have busy : s2.fld Fld.RFX_STATUS_BUSY h = s1.fld Fld.RFX_STATUS_BUSY h :=
    (fld_setFld_beside (by decide)).trans (fld_setFld_ne _ _ _ _ _ _ _ _ (Ne.symm countStatus))
  have counted : SameAt (fun a => a ≠ Reg.addr .RFX_CNT_ABORT h c ∧ a ≠ Reg.addr .RFX_STATUS h 0) s1 s2 :=
    .setFld (.setFld (.refl s1) _ _ _ _ (·.1 rfl)) _ _ _ _ (·.2 rfl)
  clear_value s2
  have index : s4.fld Fld.RFX_ABORT_INFO_INDEX h = i :=
    (fld_setFld_ne _ _ _ _ _ _ _ _ infoTread).trans ((fld_setFld_same (by decide)).trans (Nat.mod_eq_of_lt (fld_lt _)))
  have recorded : SameAt (fun a => a ≠ Reg.addr .RFX_ABORT_INFO h 0 ∧ a ≠ Reg.addr .RFX_ABORT_TREAD h 0) s2 s4 :=
    .setFld (.setFld (.setFld (.setFld (.setFld (.refl s2) _ _ _ _ (·.1 rfl)) _ _ _ _ (·.1 rfl)) _ _ _ _ (·.1 rfl)) _ _ _ _ (·.1 rfl)) _ _ _ _ (·.2 rfl)
  clear_value s4
  have emptied : SameAt InWindow s4 s5 := .of_regs rfl
  refine AbortShown.of_window (t := s4) ?_ (.ite emptied (emptied.almAside (by decide) (by decide) ..))
  obtain ⟨running, outcome, reason⟩ := core
  exact {
    running := (recorded.flag Fld.RFX_CORE_RUNNING h c ⟨coreInfo, coreTread⟩).trans ((counted.flag Fld.RFX_CORE_RUNNING h c ⟨coreCount, coreStatus⟩).trans running)
    outcome := (recorded.fld Fld.RFX_CORE_OUTCOME h c ⟨coreInfo, coreTread⟩).trans ((counted.fld Fld.RFX_CORE_OUTCOME h c ⟨coreCount, coreStatus⟩).trans outcome)
    reason := (recorded.fld Fld.RFX_CORE_REASON h c ⟨coreInfo, coreTread⟩).trans ((counted.fld Fld.RFX_CORE_REASON h c ⟨coreCount, coreStatus⟩).trans reason)
    index := index
    count := (recorded.fld Fld.RFX_CNT_ABORT_COUNT h c ⟨countInfo, countTread⟩).trans (count.trans (by rw [ended.fld Fld.RFX_CNT_ABORT_COUNT h c (Ne.symm coreCount)]))
    busy := by
      rw [State.coreBusy, recorded.fld Fld.RFX_STATUS_BUSY h 0 ⟨statusInfo, statusTread⟩, busy, ended.fld Fld.RFX_STATUS_BUSY h 0 (Ne.symm coreStatus), State.coreBusy] }

/-- A core is free again. -/
def State.freeCore (s : State) (h c : Nat) : State := s.setFld Fld.RFX_STATUS_BUSY (withBit (s.fld Fld.RFX_STATUS_BUSY h) c false) h

theorem AbortShown.freeCore {i n : Nat} {b : Bool} (hu : AbortShown h c r i n b u) (hc : c < 4) : AbortShown h c r i n false (u.freeCore h c) := by
  have apart := abort_words_apart (h := h) hc
  simp only [List.nodup_cons, List.mem_cons, List.not_mem_nil, not_or] at apart
  obtain ⟨⟨-, coreStatus, -⟩, ⟨countStatus, -⟩, ⟨statusInfo, -⟩, -⟩ := apart
  have kept : SameAt (· ≠ Reg.addr .RFX_STATUS h 0) u (u.freeCore h c) := .setFld (.refl u) _ _ _ _ (· rfl)
  exact {
    running := (kept.flag Fld.RFX_CORE_RUNNING h c coreStatus).trans hu.running
    outcome := (kept.fld Fld.RFX_CORE_OUTCOME h c coreStatus).trans hu.outcome
    reason := (kept.fld Fld.RFX_CORE_REASON h c coreStatus).trans hu.reason
    index := (kept.fld Fld.RFX_ABORT_INFO_INDEX h 0 (Ne.symm statusInfo)).trans hu.index
    count := (kept.fld Fld.RFX_CNT_ABORT_COUNT h c countStatus).trans hu.count
    busy := bitOf_fld_withBit (by decide) hc }

theorem core_lt_of_kernelRuns (runs : s.kernelRuns h c = true) : c < 4 := by
  simp only [State.kernelRuns, Bool.and_eq_true, decide_eq_true_eq] at runs
  exact runs.1.2

/-- The end of a budget aborts a kernel that has not committed, with nothing to commit, and frees the core. -/
theorem endBudget_aborts (busy : s.coreBusy h c = true) (runs : s.kernelRuns h c = true) (spent : (s.rcore h c).budgetEnd ≤ x) :
    AbortShown h c 1 (s.fld Fld.RFX_CORE_INDEX h c) ((s.fld Fld.RFX_CNT_ABORT_COUNT h c + 1) % 2 ^ 32) false (s.endBudget h c x) ∧ ((s.endBudget h c x).rcore h c).commit = [] := by
  have aborts : s.endBudget h c x = (s.kernelAbort h c 1 ((s.rcore h c).budgetEnd - 1)).freeCore h c := by
    rw [State.endBudget, if_pos ⟨busy, spent⟩, if_pos runs]
    rfl
  have hc := core_lt_of_kernelRuns runs
  rw [aborts]
  exact ⟨(abortShown_kernelAbort hc (by decide)).freeCore hc, commit_kernelAbort⟩

/-! ### An instruction that does not run (R182, R183) -/

variable {w ecc : Nat} {k : State → RCore → State}

theorem rfx_idle (idle : s.kernelRuns h c = false) : s.rfx h c w ecc k = s := if_pos (by simp [idle])

section
variable (runs : s.kernelRuns h c = true)
include runs

theorem rfx_runs : ¬ (!s.kernelRuns h c) = true := by simp [runs]

/-- A kernel whose budget is used up is aborted. -/
theorem rfx_spent (spent : (s.rcore h c).budget ≤ (s.rcore h c).clock) :
    s.rfx h c w ecc k = (s.atTime (s.rcore h c).budgetEnd).endBudget h c (max s.now (s.rcore h c).budgetEnd) := by
  rw [State.rfx, if_neg (rfx_runs runs)]
  exact if_pos spent

theorem rfx_otherWord (within : (s.rcore h c).clock < (s.rcore h c).budget) (read : ecc ≤ 1) (other : s.codeWord h c (s.rcore h c).pc ≠ some w) :
    s.rfx h c w ecc k = s := by
  rw [State.rfx, if_neg (rfx_runs runs)]
  exact (if_neg (Nat.not_le.2 within)).trans (if_pos ⟨by omega, other⟩)

/-- The state in which an instruction begins whose word cannot be read. -/
def State.beginsUnread (s : State) (h c : Nat) : State :=
  (s.atTime (s.rcore h c).next).setFld Fld.RFX_CORE_INDEX (s.rcore h c).pc h c

/-- Such a word aborts the kernel as its instruction starts. -/
theorem rfx_unread (within : (s.rcore h c).clock < (s.rcore h c).budget) (bad : 2 ≤ ecc) :
    s.rfx h c w ecc k = (s.beginsUnread h c).kernelAbort h c 4 (s.rcore h c).next := by
  rw [State.rfx, if_neg (rfx_runs runs)]
  exact (if_neg (Nat.not_le.2 within)).trans ((if_neg (by omega)).trans (if_pos bad))

theorem abortShown_unread : AbortShown h c 4 ((s.rcore h c).pc % 2 ^ 14) ((s.fld Fld.RFX_CNT_ABORT_COUNT h c + 1) % 2 ^ 32) (s.coreBusy h c)
    ((s.beginsUnread h c).kernelAbort h c 4 (s.rcore h c).next) := by
  have hc := core_lt_of_kernelRuns runs
  obtain ⟨coreCount, coreStatus⟩ : Reg.addr .RFX_CORE h c ≠ Reg.addr .RFX_CNT_ABORT h c ∧ Reg.addr .RFX_CORE h c ≠ Reg.addr .RFX_STATUS h 0 := by
    rw [addr_rfxCore, addr_rfxAborts, addr_rfxStatus]; omega
  have index : (s.beginsUnread h c).fld Fld.RFX_CORE_INDEX h c = (s.rcore h c).pc % 2 ^ 14 := fld_setFld_same (by decide)
  have count : (s.beginsUnread h c).fld Fld.RFX_CNT_ABORT_COUNT h c = s.fld Fld.RFX_CNT_ABORT_COUNT h c := fld_setFld_ne _ _ _ _ _ _ _ _ coreCount.symm
  have busy : (s.beginsUnread h c).coreBusy h c = s.coreBusy h c := congrArg (bitOf · c) (fld_setFld_ne _ _ _ _ _ _ _ _ coreStatus.symm)
  exact index ▸ count ▸ busy ▸ abortShown_kernelAbort hc (by decide)

end

end

/-- What O10 says of one instruction in one state. -/
def AbortsAsStated (i : Instr) (h c ecc w : Nat) (s : State) : Prop :=
  let m := s.rcore h c
  (s.kernelRuns h c = false → Gives i s s) ∧
  (s.kernelRuns h c = true → m.clock < m.budget → ecc ≤ 1 → s.codeWord h c m.pc ≠ some w → Gives i s s) ∧
  (s.kernelRuns h c = true → m.budget ≤ m.clock → s.coreBusy h c = true → ∃ u, Gives i s u ∧ (u.rcore h c).commit = [] ∧
    u.flag Fld.RFX_CORE_RUNNING h c = false ∧ u.fld Fld.RFX_CORE_OUTCOME h c = 2 ∧ u.fld Fld.RFX_CORE_REASON h c = 1 ∧ u.coreBusy h c = false ∧
    u.fld Fld.RFX_CNT_ABORT_COUNT h c = (s.fld Fld.RFX_CNT_ABORT_COUNT h c + 1) % 2 ^ 32 ∧ u.alcove = s.alcove ∧ u.atrium = s.atrium) ∧
  (s.kernelRuns h c = true → m.clock < m.budget → 2 ≤ ecc → ∃ u, Gives i s u ∧ (u.rcore h c).commit = [] ∧
    u.flag Fld.RFX_CORE_RUNNING h c = false ∧ u.fld Fld.RFX_CORE_OUTCOME h c = 2 ∧ u.fld Fld.RFX_CORE_REASON h c = 4 ∧ u.coreBusy h c = s.coreBusy h c ∧
    u.fld Fld.RFX_ABORT_INFO_INDEX h = m.pc % 2 ^ 14 ∧ u.fld Fld.RFX_CNT_ABORT_COUNT h c = (s.fld Fld.RFX_CNT_ABORT_COUNT h c + 1) % 2 ^ 32 ∧ u.alcove = s.alcove ∧ u.atrium = s.atrium)

/-- What O10 says holds of every instruction but an ESCH or ECAN with a span of 0. -/
theorem abortsAsStated {i : Instr} {h c ecc w : Nat} {s : State} (ok : i.wellFormed = true) (hi : kernelWord i = some (h, c, ecc, w)) (lands : NamesLand i) :
    AbortsAsStated i h c ecc w s := by
  obtain ⟨w', k, row, -, spelled⟩ := kernelRow_of_word hi
  obtain rfl := spelled ok lands
  refine ⟨fun idle => ?_, fun runs within read other => ?_, fun runs spent busy => ?_, fun runs within bad => ?_⟩
  · rw [Gives, row, rfx_idle idle]
  · rw [Gives, row, rfx_otherWord runs within read other]
  · have ⟨shown, commit⟩ := endBudget_aborts (s := s.atTime (s.rcore h c).budgetEnd) busy runs (le_max_right s.now _)
    exact ⟨_, (row s).trans (congrArg _ (rfx_spent runs spent)), commit, shown.running, shown.outcome, shown.reason, shown.busy, shown.count,
      elsewhere_alcove.endBudget .., elsewhere_atrium.endBudget ..⟩
  · have shown := abortShown_unread runs
    exact ⟨_, (row s).trans (congrArg _ (rfx_unread runs within bad)), commit_kernelAbort, shown.running, shown.outcome, shown.reason, shown.busy, shown.index,
      shown.count, elsewhere_alcove.kernelAbort .., elsewhere_atrium.kernelAbort ..⟩

/-! ### A span of 0 (R165) -/

/-- An entry of a plan image's section directory (R70): of hall 0, with one record. -/
def sectionEntry (ty off len : Nat) : Bytes :=
  leBytes 2 ty ++ leBytes 6 0 ++ leBytes 8 off ++ leBytes 8 len ++ leBytes 4 1 ++ leBytes 4 0

/-- A plan image whose one kernel holds one word: the header's count of sections, the directory, the code and the kernel's record. -/
def oneWordImage (w : Nat) : Bytes :=
  List.replicate 12 0 ++ leBytes 4 2 ++ List.replicate 496 0 ++ sectionEntry 6 0x240 4 ++ sectionEntry 7 0x244 16 ++ leBytes 4 w ++
  (leBytes 4 0 ++ leBytes 4 0 ++ leBytes 4 4 ++ leBytes 4 100)

/-- That kernel runs on core 0 of hall 0; its word is the ESCH of a span of 32, for that is what the model compares with for a span of 0. -/
def spanZeroState : State :=
  { State.reset with pln := { active := oneWordImage (fmtE 0x33 0 0 0 0 0) }, cores := [(0, { budget := 100 })] }.setFld Fld.RFX_CORE_RUNNING 1 0 0

theorem runs_spanZeroState : Runs spanZeroState 0 0 0 (fmtE 0x33 0 0 0 0 0) := by unfold Runs; decide +kernel

/-- Refutes O10: wellFormed lets an ESCH have a span of 0. The field of its word holds the span minus 1 (R165), so that the statement's word is that of a span
of 1, while the model's is that of a span of 32. Where the latter is next the ESCH runs, and its clock passes. Of every other instruction the statement
holds (abortsAsStated). -/
theorem not_kernelAborts : ¬ Obligations.KernelAborts := by
  intro stated
  have row := runs_spanZeroState
  have ⟨runs, within, read, next⟩ := row
  have other : spanZeroState.codeWord 0 0 (spanZeroState.rcore 0 0).pc ≠ some (wordE 0x33 0 0 0 0 0) := by
    rw [next]; decide
  obtain ⟨-, idles, -⟩ := stated (.esch 0 0 0 0 0 0 0 0) 0 0 0 _ spanZeroState (by decide) rfl
  have still : spanZeroState.rfxCore 0 0 (fmtE 0x33 0 0 0 0 0) 0 1 _ = spanZeroState := Host.Outcome.next.inj (idles runs within read other)
  rw [rfxCore_of_runs row rfl] at still
  have clock := congrArg (fun u => (u.rcore 0 0).clock) still
  rw [kernelStep, stepTo, rcore_setCore] at clock
  exact Nat.succ_ne_self _ clock

end Sys2Proof.Machine
end

section
/-! PROOFS. Channels of cyclic exchange (R196 to R200): bind, unbind, rekey, query. -/

open Sys2Proof.Spec

namespace Sys2Proof.Machine

section
variable {s : State} {d : AdminCmd} {i op : Nat} {c : Chan} {k : State → Nat → Chan → State}

/-! ### Bind (R196 to R198) -/

theorem exec_channelBind_refused {detail status : Nat} (ha : Accepted s d 0x18) (hb : s.bindCheck d = .inl (detail, status)) :
    exec (.channelBind d) s = .next (s.adminFail d status detail) :=
  next_admin ha (by rw [hb])

/-- The channel that a bind makes: it holds the slot, and it is pending. -/
def pendingChan (d : AdminCmd) (slot : Nat) : Chan :=
  { sid := d.p 0 % 65536, pool := d.p 0 / 65536, slot := slot, hold := bitOf (d.p 1) 16, lost := bitsOf (d.p 1) 31 24, pcp := bitsOf (d.p 1) 20 18,
    keyA := d.p 2, keyB := d.p 3, txKey := bitsOf (d.p 1) 17 17, newKeys := none, phase := 1 }

/-- The halls that carry a channel's pool. -/
def State.chanHalls (s : State) (c : Chan) : List Nat :=
  match s.poolRec c.pool with
  | some p => s.poolHalls p
  | none => []

/-- A hall begins to carry a channel: armed on the lane of the station's entry, where it has one (R197). -/
def State.beginIn (s : State) (i sid h : Nat) : State :=
  s.setChHall h i (if stnValid (s.station h sid) then { port := some (stnLane (s.station h sid)), armed := true } else {})

/-- A pending channel takes an index, and each hall of its pool begins to carry it. -/
def State.bindChan (s : State) (i : Nat) (c : Chan) : State :=
  (s.chanHalls c).foldl (fun u h => u.beginIn i c.sid h) (s.setChan i c)

theorem exec_channelBind_takes {slot : Nat} (ha : Accepted s d 0x18) (hb : s.bindCheck d = .inr slot) : let u := s.bindChan s.freeChan (pendingChan d slot)
    exec (.channelBind d) s = .next (u.adminOk d (u.handle 3 s.freeChan + slot * 2 ^ 32)) :=
  next_admin ha (by rw [hb]; rfl)

/-! ### Commands on a handle (R199, R200) -/

/-- A command whose handle resolves to no channel is refused. -/
theorem next_chanFor_unresolved (ha : Accepted s d op) (hr : s.resolve 3 (d.p 0) = none) :
    (.next (s.admin d op fun u => u.chanFor d (k u)) : Answer) = .next (s.adminFail d St.badHandle) :=
  next_admin ha (by rw [State.chanFor, hr])

/-- One whose handle names a channel acts on that channel. -/
theorem next_chanFor (ha : Accepted s d op) (hr : s.resolve 3 (d.p 0) = some i) (hc : look s.cyc.chans i = some c) :
    (.next (s.admin d op fun u => u.chanFor d (k u)) : Answer) = .next (k s i c) :=
  next_admin ha (by simp only [State.chanFor, hr, hc])

section
variable (hr : s.resolve 3 (d.p 0) = some i) (hc : look s.cyc.chans i = some c)
include hr hc

theorem exec_channelUnbind (ha : Accepted s d 0x19) :
    exec (.channelUnbind d) s = .next (if c.phase = 1 then (s.endChan i).adminOk d else (s.setChan i { c with phase := 7 }).adminOk d) :=
  next_chanFor ha hr hc

/-- A key that a rekey does not change is given as 0, and both that it leaves are 0 or name key slots: the channel has them from the next landing. -/
theorem exec_channelSetKey {tx a b : Nat} (ha : Accepted s d 0x1A) (hk : c.newKeys.getD (c.txKey, c.keyA, c.keyB) = (tx, a, b))
    (keepA : bitOf (d.p 1) 1 = false → d.p 2 = 0) (keepB : bitOf (d.p 1) 2 = false → d.p 3 = 0) :
    let a' := if bitOf (d.p 1) 1 then d.p 2 else a
    let b' := if bitOf (d.p 1) 2 then d.p 3 else b
    s.keyHandleOk a' = true → s.keyHandleOk b' = true →
      exec (.channelSetKey d) s = .next ((s.setChan i { c with newKeys := some (bitsOf (d.p 1) 0 0, a', b') }).adminOk d) := by
  intro a' b' okA okB
  refine (next_chanFor ha hr hc).trans (congrArg Host.Outcome.next ?_)
  simp only [hk]
  have kept : ¬ ((!bitOf (d.p 1) 1) = true ∧ d.p 2 ≠ 0 ∨ (!bitOf (d.p 1) 2) = true ∧ d.p 3 ≠ 0) := by
    simpa using ⟨keepA, keepB⟩
  have named : ¬ ((!s.keyHandleOk a') = true ∨ (!s.keyHandleOk b') = true) := by
    simp [okA, okB]
  exact (if_neg kept).trans (if_neg named)

/-- What a query answers of a channel: what it is, its state, and its status words in the halls of its pool. -/
def chanRecord (c : Chan) (state word twin : Nat) : Bytes :=
  leBytes 2 c.sid ++ leBytes 2 c.pool ++ leBytes 2 c.slot ++ leBytes 1 state ++ leBytes 1 0 ++ leBytes 8 word ++ leBytes 8 twin ++ leBytes 8 0

/-- A channel's status word in the second hall of a twin pool, where the pool has one. -/
def State.twinWord (s : State) (c : Chan) : List Nat → Nat
  | g :: _ => s.chanWord g c
  | [] => 0

/-- The state code is that of the pool's first hall once the channel is bound. -/
theorem exec_channelQuery {p : Plan.Pool} {h : Nat} {rest : List Nat} {x : ChanHall} (ha : Accepted s d 0x1B) (hp : s.poolRec c.pool = some p)
    (hh : s.poolHalls p = h :: rest) (hx : s.chHall h i = some x) :
    exec (.channelQuery d) s = .next ((s.adminOut d (chanRecord c (if c.phase = 2 then x.state else c.phase) (s.chanWord h c) (s.twinWord c rest))).adminOk d) := by
  refine (next_chanFor ha hr hc).trans (congrArg Host.Outcome.next ?_)
  simp only [hp, hh, hx]
  cases rest <;> rfl

end

end

/-- Settles O54: a bind by the answer of its checks, each other command by the channel that its handle names, or none. -/
theorem channelCommands : Obligations.ChannelCommands := by
  unfold Obligations.ChannelCommands Gives
  refine fun d s => ⟨fun detail status => exec_channelBind_refused, fun slot => exec_channelBind_takes, fun i c hr hc => ⟨fun ha pending => ?_, fun ha other => ?_,
      fun tx a b ha hk keepA keepB => exec_channelSetKey hr hc ha hk keepA keepB, fun p h x y rest ha hp hh hx hy => ?_⟩,
    fun hr => ⟨fun ha => next_chanFor_unresolved ha hr, fun ha => next_chanFor_unresolved ha hr, fun ha => next_chanFor_unresolved ha hr⟩⟩
  · rw [exec_channelUnbind hr hc ha, if_pos pending]
  · rw [exec_channelUnbind hr hc ha, if_neg other]
  · have twin : s.twinWord c rest = y := hy
    rw [exec_channelQuery hr hc ha hp hh hx, twin, chanRecord]

end Sys2Proof.Machine
end

section
/-! PROOFS. Lanes and ports (R221 to R230, R237, R513): frames that arrive and depart, egress stamps, links that come up and go down, eyes, energy, and the faults of ports. -/

open Sys2Proof.Spec

namespace Sys2Proof.Machine

/-! ### Words of lanes -/

section
variable {s : State} {f g : Fld} {b : Bool} {l i j : Nat}

/-- Registers that stand with one stride have words of one index apart where their first words are. -/
theorem addr_ne_of_stride {r q : Reg} (hs : r.info.iStride = q.info.iStride) (hb : r.addr 0 0 ≠ q.addr 0 0) : r.addr 0 i ≠ q.addr 0 i := by
  simp only [Reg.addr, hs] at hb ⊢
  omega

/-- A flag reads as it was stored. -/
theorem flag_setFld_b2n (hf : f.InWord) : (s.setFld f (b2n b) j i).flag f j i = b := by
  have one : 1 < 2 ^ (f.hi + 1 - f.lo) := Nat.one_lt_two_pow (by have := hf.1; omega)
  rw [State.flag, fld_setFld_same hf]
  cases b with
  | false => rw [b2n, if_neg Bool.false_ne_true, Nat.zero_mod]; rfl
  | true => rw [b2n, if_pos rfl, Nat.mod_eq_of_lt one]; rfl

theorem flag_setFld_beside {v : Nat} (h : Beside f g) : (s.setFld f v j i).flag g j i = s.flag g j i := by
  rw [State.flag, fld_setFld_beside h, State.flag]

theorem port_setPort {p : PortSt} : (s.setPort l p).port l = p := Tbl.get_put_same ..

theorem port_setPort_ne {p : PortSt} (hj : j ≠ l) : (s.setPort l p).port j = s.port j := Tbl.get_put_ne _ _ _ _ _ hj

end

/-! ### Frames that arrive (R220, R223, R224, R229) -/

section
variable {s : State} {l ce ue stamp at_ : Nat} {octets : Bytes} {g : Fld}

/-- Counting codewords leaves the ports. -/
theorem arrived_ln : (arrived s l ce ue at_).ln = s.ln := by
  unfold arrived
  dsimp only
  split <;> rfl

theorem port_arrived (j : Nat) : (arrived s l ce ue at_).port j = s.port j := by rw [State.port, arrived_ln, State.port]

/-- Arriving writes no register of the lane but the counters of codewords. -/
theorem fld_arrived (hc : g.reg.addr 0 l ≠ Reg.addr .LN_CNT_FEC_CE 0 l) (hu : g.reg.addr 0 l ≠ Reg.addr .LN_CNT_FEC_UE 0 l) :
    (arrived s l ce ue at_).fld g 0 l = s.fld g 0 l := by
  unfold arrived
  dsimp only
  split
  · rfl
  · exact (fld_setFld_ne _ _ g _ 0 l 0 l hu).trans (fld_setFld_ne _ _ g _ 0 l 0 l hc)

/-- A counter of the port that stands with those of the codewords, and is none of them. -/
theorem count_arrived (hs : g.reg.info.iStride = 0x20) (hc : g.reg.addr 0 0 ≠ Reg.addr .LN_CNT_FEC_CE 0 0) (hu : g.reg.addr 0 0 ≠ Reg.addr .LN_CNT_FEC_UE 0 0) :
    (arrived s l ce ue at_).fld g 0 l = s.fld g 0 l :=
  fld_arrived (addr_ne_of_stride hs hc) (addr_ne_of_stride hs hu)

/-- A frame that has arrived finds no room: the buffer is judged as its first octet came. -/
abbrev NoRoom (u : State) (l mode n : Nat) : Prop := modeLanes mode * 65536 < (u.port l).rxUsed (u.now - octetTicks mode n) + 9216

/-- A frame's length is not one that a port takes, or its check fails. -/
abbrev BadFrame (octets : Bytes) : Prop := octets.length < 64 ∨ 9216 < octets.length ∨ fcsOk octets = false

/-- The instant at which a frame whose delimiter passes the lands at a stamp was at the connector (R229). -/
def State.rxEvent (s : State) (l stamp : Nat) : Nat := ((stamp : Int) - boardTicks (s.fld Fld.LN_LANE_DELAY_RX_PS 0 l)).toNat

/-- A good frame joins the receive buffer. -/
def State.bufferRx (s : State) (l : Nat) (octets : Bytes) (stamp : Nat) : State :=
  s.setPort l { s.port l with rx := (s.port l).rx ++ [{ octets := octets, arrival := s.now, stamp := s.rxEvent l stamp }] }

/-- What becomes of a frame on a port that is up. -/
theorem exec_laneFrameRx (hp : s.isPort l = true) (hu : s.portUp l = true) :
    exec (.laneFrameRx l octets ce ue stamp at_) s = .next (
      let u := arrived s l ce ue at_
      let v := u.bump Fld.LN_CNT_RXFRAMES_COUNT 0 l
      if NoRoom u l (s.laneMode l) octets.length then u.bump Fld.LN_CNT_RXDROP_COUNT 0 l
      else if BadFrame octets then v.bump Fld.LN_CNT_RXERR_COUNT 0 l
      else if beAt octets 12 2 = 0x8808 then v.bump Fld.LN_CNT_MACCTL_COUNT 0 l
      else v.bufferRx l octets stamp) := by
  show execLaneFrameRx l octets ce ue stamp at_ s = _
  have lit : ¬ ((!s.isPort l) = true ∨ (!s.portUp l) = true) := by simp [hp, hu]
  rw [execLaneFrameRx, if_neg lit]
  simp only [apply_ite Host.Outcome.next, BadFrame, Bool.not_eq_true']
  rfl

/-- A frame without room is dropped and counted. -/
theorem laneFrameRx_dropped (hp : s.isPort l = true) (hu : s.portUp l = true) (full : NoRoom (arrived s l ce ue at_) l (s.laneMode l) octets.length) :
    ∃ t, exec (.laneFrameRx l octets ce ue stamp at_) s = .next t ∧ t.ln = s.ln ∧ t.fld Fld.LN_CNT_RXDROP_COUNT 0 l = (s.fld Fld.LN_CNT_RXDROP_COUNT 0 l + 1) % 2 ^ 32 := by
  refine ⟨_, (exec_laneFrameRx hp hu).trans (congrArg Host.Outcome.next (if_pos full)), arrived_ln, ?_⟩
  rw [fld_bump_same (by decide), count_arrived rfl (by decide) (by decide)]
  rfl

/-- A counter of a frame's fate goes up by one, besides the count of the frames received. -/
theorem count_bump_received (hf : g.InWord) (hs : g.reg.info.iStride = 0x20) (hc : g.reg.addr 0 0 ≠ Reg.addr .LN_CNT_FEC_CE 0 0)
    (hu : g.reg.addr 0 0 ≠ Reg.addr .LN_CNT_FEC_UE 0 0) (hr : g.reg.addr 0 0 ≠ Reg.addr .LN_CNT_RXFRAMES 0 0) :
    (((arrived s l ce ue at_).bump Fld.LN_CNT_RXFRAMES_COUNT 0 l).bump g 0 l).fld g 0 l = (s.fld g 0 l + 1) % 2 ^ (g.hi + 1 - g.lo) := by
  have counted : ((arrived s l ce ue at_).bump Fld.LN_CNT_RXFRAMES_COUNT 0 l).fld g 0 l = (arrived s l ce ue at_).fld g 0 l :=
    fld_setFld_ne _ _ g _ 0 l 0 l (addr_ne_of_stride hs hr)
  rw [fld_bump_same hf, counted, count_arrived hs hc hu]

/-- A bad frame is counted and leaves nothing. -/
theorem laneFrameRx_bad (hp : s.isPort l = true) (hu : s.portUp l = true) (room : ¬ NoRoom (arrived s l ce ue at_) l (s.laneMode l) octets.length) (bad : BadFrame octets) :
    ∃ t, exec (.laneFrameRx l octets ce ue stamp at_) s = .next t ∧ t.ln = s.ln ∧ t.fld Fld.LN_CNT_RXERR_COUNT 0 l = (s.fld Fld.LN_CNT_RXERR_COUNT 0 l + 1) % 2 ^ 32 :=
  ⟨_, (exec_laneFrameRx hp hu).trans (congrArg Host.Outcome.next ((if_neg room).trans (if_pos bad))), arrived_ln,
    count_bump_received (by decide) rfl (by decide) (by decide) (by decide)⟩

/-- MAC control is counted and leaves nothing. -/
theorem laneFrameRx_macControl (hp : s.isPort l = true) (hu : s.portUp l = true) (room : ¬ NoRoom (arrived s l ce ue at_) l (s.laneMode l) octets.length)
    (sound : ¬ BadFrame octets) (control : beAt octets 12 2 = 0x8808) :
    ∃ t, exec (.laneFrameRx l octets ce ue stamp at_) s = .next t ∧ t.ln = s.ln ∧ t.fld Fld.LN_CNT_MACCTL_COUNT 0 l = (s.fld Fld.LN_CNT_MACCTL_COUNT 0 l + 1) % 2 ^ 32 :=
  ⟨_, (exec_laneFrameRx hp hu).trans (congrArg Host.Outcome.next ((if_neg room).trans ((if_neg sound).trans (if_pos control)))), arrived_ln,
    count_bump_received (by decide) rfl (by decide) (by decide) (by decide)⟩

/-- A good frame is in the buffer of its port alone, with the instant of its arrival and the stamp of the connector. -/
theorem laneFrameRx_buffered (hp : s.isPort l = true) (hu : s.portUp l = true) (room : ¬ NoRoom (arrived s l ce ue at_) l (s.laneMode l) octets.length)
    (sound : ¬ BadFrame octets) (other : beAt octets 12 2 ≠ 0x8808) :
    ∃ t, exec (.laneFrameRx l octets ce ue stamp at_) s = .next t ∧
      (t.port l).rx = (s.port l).rx ++ [{ octets := octets, arrival := (arrived s l ce ue at_).now, stamp := s.rxEvent l stamp }] ∧
      t.fld Fld.LN_CNT_RXFRAMES_COUNT 0 l = (s.fld Fld.LN_CNT_RXFRAMES_COUNT 0 l + 1) % 2 ^ 32 ∧ ∀ j, j ≠ l → t.port j = s.port j := by
  have lane : l < 256 := by simp only [State.isPort, Bool.and_eq_true, decide_eq_true_eq] at hp; exact hp.1
  let v := (arrived s l ce ue at_).bump Fld.LN_CNT_RXFRAMES_COUNT 0 l
  have ports (j : Nat) : v.port j = s.port j := port_arrived j
  have delay : v.fld Fld.LN_LANE_DELAY_RX_PS 0 l = s.fld Fld.LN_LANE_DELAY_RX_PS 0 l := by
    have apart (base : Nat) (hb : 0x9001000 ≤ base) : Reg.addr .LN_LANE_DELAY 0 l ≠ base + 0 * 0 + 0x20 * l := by
      show 0x9000800 + 0 * 0 + 4 * l ≠ _
      omega
    exact (fld_setFld_ne _ _ _ _ 0 l 0 l (apart 0x9001000 (by decide))).trans (fld_arrived (apart 0x900100c (by decide)) (apart 0x9001010 (by decide)))
  refine ⟨v.bufferRx l octets stamp, (exec_laneFrameRx hp hu).trans (congrArg Host.Outcome.next ((if_neg room).trans ((if_neg sound).trans (if_neg other)))), ?_, ?_, fun j hj => ?_⟩
  · rw [State.bufferRx, port_setPort, ports, State.rxEvent, delay]
    rfl
  · exact (fld_bump_same (by decide)).trans (by rw [count_arrived rfl (by decide) (by decide)]; rfl)
  · rw [State.bufferRx, port_setPort_ne hj, ports]

end

/-! ### Frames that depart (R225, R227, R229) -/

section
variable {s : State} {l h corr stamp at_ : Nat} {opened : Bool} {f : TxFrame} {rest : List TxFrame}

/-- The octets that a frame leaves as: its correctionField corrected, with its FCS. -/
def TxFrame.wireOctets (f : TxFrame) (corr : Nat) : Bytes := withFcs (ptpCorrect f.octets corr)

/-- The time that a departing frame takes on the wire, with preamble and gap. -/
def State.wireTime (s : State) (l : Nat) (f : TxFrame) (corr : Nat) : Nat := octetTicks (s.laneMode l) ((f.wireOctets corr).length + 20)

/-- The instant at which a departing frame is at the connector (R229). -/
def State.txEvent (s : State) (l stamp : Nat) : Nat := ((stamp : Int) + boardTicks (s.fld Fld.LN_LANE_DELAY_TX_PS 0 l)).toNat

/-- The oldest frame leaves its queue, and the port is taken for its time. -/
def State.startTx (s : State) (l wire : Nat) (opened : Bool) (rest : List TxFrame) : State :=
  s.setPort l (if opened then { s.port l with freeAt := s.now + wire, opened := rest } else { s.port l with freeAt := s.now + wire, planned := rest })

/-- The oldest frame of a free port with an open gate leaves, or is dropped where the port is down. -/
theorem exec_portFrameTx (hp : s.isPort l = true) (ho : (s.atTime at_).bayOwner (l / 8) = some h)
    (hq : (if opened then ((s.atTime at_).port l).opened else ((s.atTime at_).port l).planned) = f :: rest) (hf : ((s.atTime at_).port l).freeAt ≤ (s.atTime at_).now)
    (hm : (s.atTime at_).mayStart h l (s.wireTime l f corr) opened = true) :
    exec (.portFrameTx l opened corr stamp at_) s = .next (
      let v := (s.atTime at_).startTx l (s.wireTime l f corr) opened rest
      let w := (v.bump Fld.LN_CNT_TXFRAMES_COUNT 0 l).leave (.frame l (f.wireOctets corr) false)
      if s.portUp l = false then (v.bump Fld.LN_CNT_TXDOWN_COUNT 0 l).dropFrame f
      else (if f.tstamp then w.pushStamp l (s.txEvent l stamp) else w).frameDone f (s.txEvent l stamp)) := by
  have starts : ¬ ((!(s.atTime at_).isPort l) = true ∨ (s.atTime at_).now < ((s.atTime at_).port l).freeAt ∨
      (!(s.atTime at_).mayStart h l (s.wireTime l f corr) opened) = true) := by
    have port : (s.atTime at_).isPort l = true := hp
    simp [port, hm, hf]
  show execPortFrameTx l opened corr stamp at_ s = _
  simp only [execPortFrameTx, ho, hq]
  refine (if_neg starts).trans ?_
  simp only [apply_ite Host.Outcome.next, Bool.not_eq_true']
  rfl

end

/-! ### Egress stamps (R230) -/

section
variable {s : State} {who : Who} {m q t : Nat} {rest : List (Nat × Nat × Nat)}

/-- The head stamp has left the queue, and its words are latched for the reader. -/
def State.takeStamp (s : State) (who : Who) (t : Nat) (rest : List (Nat × Nat × Nat)) : State :=
  (((({ s with ln := { s.ln with stamps := rest } }.setFld Fld.LN_TXTS_STATUS_LEVEL rest.length).latch who (Reg.addr .LN_TXTS_NS 0 0) (nsOf t)).latch
    who (Reg.addr .LN_TXTS_SEC_LO 0 0) (secsOf t)).latch who (Reg.addr .LN_TXTS_SEC_HI 0 0) (fracOf t * 65536 + secsOf t / 2 ^ 32 % 65536))

theorem exec_lnTxtsInfoRead (hs : s.ln.stamps = (m, q, t) :: rest) :
    exec (.lnTxtsInfoRead who) s = .next ((s.takeStamp who t rest).leave (.readValue who (Reg.addr .LN_TXTS_INFO 0 0) (2 ^ 31 + m * 65536 + q % 65536))) := by
  show execLnTxtsInfoRead who s = _
  simp only [execLnTxtsInfoRead, hs]
  rfl

/-- What the registers and the reader's latches hold then. -/
theorem takeStamp_shown : (s.takeStamp who t rest).fld Fld.LN_TXTS_STATUS_LEVEL = rest.length % 2 ^ 11 ∧
    (s.takeStamp who t rest).latchOf who (Reg.addr .LN_TXTS_NS 0 0) = nsOf t % 2 ^ 32 ∧
    (s.takeStamp who t rest).latchOf who (Reg.addr .LN_TXTS_SEC_LO 0 0) = secsOf t % 2 ^ 32 := by
  refine ⟨fld_setFld_same (by decide), ?_, ?_⟩ <;> unfold State.takeStamp
  · rw [latchOf_latch_ne _ _ _ _ _ (by decide), latchOf_latch_ne _ _ _ _ _ (by decide), latchOf_latch]
  · rw [latchOf_latch_ne _ _ _ _ _ (by decide), latchOf_latch]

end

/-- Settles O23: a frame that arrives by its four fates, one that departs by the equation of its start, a stamp by what its read takes. -/
theorem portFrames : Obligations.PortFrames := by
  unfold Obligations.PortFrames Gives
  refine fun l ce ue corr stamp at_ opened octets who s => ⟨fun hp hu => ?_, fun h f rest hp ho hq hf hm => ?_, fun m q t rest hs => ?_⟩
  · have sound (h64 : 64 ≤ octets.length) (h9216 : octets.length ≤ 9216) (fcs : fcsOk octets = true) : ¬ BadFrame octets := by
      rintro (short | long | bad)
      · omega
      · omega
      · exact ne_true_of_eq_false bad fcs
    exact ⟨laneFrameRx_dropped hp hu, laneFrameRx_bad hp hu, fun room h64 h9216 fcs => laneFrameRx_macControl hp hu room (sound h64 h9216 fcs),
      fun room h64 h9216 fcs => laneFrameRx_buffered hp hu room (sound h64 h9216 fcs)⟩
  · have sends := exec_portFrameTx (stamp := stamp) hp ho hq hf hm
    refine ⟨fun up unstamped => sends.trans (congrArg Host.Outcome.next ?_), fun up stamped => sends.trans (congrArg Host.Outcome.next ?_),
      fun down => sends.trans (congrArg Host.Outcome.next (if_pos down))⟩
    · refine (if_neg (ne_false_of_eq_true up)).trans ?_
      rw [unstamped]
      rfl
    · refine (if_neg (ne_false_of_eq_true up)).trans ?_
      rw [stamped]
      rfl
  · obtain ⟨level, ns, sec⟩ := takeStamp_shown (s := s) (who := who) (t := t) (rest := rest)
    exact ⟨_, exec_lnTxtsInfoRead hs, rfl, level, rfl, ns, sec⟩

/-! ### Links (R219, R221) -/

section
variable {s : State} {l lost at_ : Nat} {got : List Nat} {aligned up : Bool}

/-- A port that is down, and may train, shows what its lanes have, and comes up with all that it needs. -/
theorem exec_portLinkUp (hp : s.isPort l = true) (hd : s.portUp l = false) (hr : s.flt.laneReset.get none l = none) (ho : look s.pkg.ocOff (l / 8) = none) :
    exec (.portLinkUp l got aligned at_) s = .next (
      let u := (s.atTime at_).showLanes l got (aligned || modeLanes (s.laneMode l) == 1)
      if u.linkReady l got aligned = true then ((u.raise Fld.LN_LANE_STATUS_LINK_UP 0 l).setFld Fld.LN_LANE_STATUS_TRAINING 0 0 l).linkChange l true else u) := by
  have waits : ¬ ((!(s.atTime at_).isPort l) = true ∨ (s.atTime at_).portUp l = true ∨ ((s.atTime at_).flt.laneReset.get none l).isSome = true ∨
      (look (s.atTime at_).pkg.ocOff (l / 8)).isSome = true) := by
    have port : (s.atTime at_).isPort l = true := hp
    have down : (s.atTime at_).portUp l = false := hd
    simp [port, down, hr, ho]
  exact if_neg waits

theorem exec_portLinkDown (hp : s.isPort l = true) (hl : lost % 16 ≠ 0) : exec (.portLinkDown l lost at_) s = .next ((s.atTime at_).portDown l lost) :=
  congrArg Host.Outcome.next (if_pos ⟨hp, hl⟩)

/-- An entry of the Almanac leaves the status of a lane. -/
theorem flag_alm_laneStatus {g : Fld} (hg : g.reg = .LN_LANE_STATUS) (code scope hall kind idx : Nat) (b : Bytes) :
    (s.alm code scope hall kind idx b).flag g 0 l = s.flag g 0 l := by
  have place : g.reg.addr 0 l = 0x9000400 + 0 * 0 + 4 * l := by rw [hg]; rfl
  exact (SameAt.almAside (P := (0x9000400 ≤ ·)) (by decide) (by decide) (.refl s) code scope hall kind idx b).flag g 0 l (by rw [place]; omega)

/-- A link change is flagged. -/
theorem flag_linkChange : (s.linkChange l up).flag Fld.LN_LANE_STATUS_LINK_CHANGE 0 l = true :=
  (flag_alm_laneStatus rfl ..).trans (flag_setFld_b2n (b := true) (by decide))

/-- A link change is a report: the port is up or down as before. -/
theorem portUp_linkChange : (s.linkChange l up).portUp l = s.portUp l :=
  (flag_alm_laneStatus rfl ..).trans (flag_setFld_beside (by decide))

/-- A port that was up is down, and the change is flagged. -/
theorem portDown_shown (hu : s.portUp l = true) : (s.portDown l lost).portUp l = false ∧ (s.portDown l lost).flag Fld.LN_LANE_STATUS_LINK_CHANGE 0 l = true := by
  unfold State.portDown
  dsimp only
  rw [if_pos hu]
  exact ⟨portUp_linkChange.trans (flag_setFld_b2n (b := false) (by decide)), flag_linkChange⟩

/-- A port that trains shows so where its mode trains. -/
theorem flag_train : (s.train l).flag Fld.LN_LANE_STATUS_TRAINING 0 l = trains (s.laneMode l) (s.flag Fld.LN_LANE_CFG_TRAIN 0 l) :=
  flag_setFld_b2n (by decide)

end

/-! ### Eyes (R237) -/

section
variable {s : State} {who : Who} {l height width at_ : Nat}

/-- A measurement of the lane's eye runs from now on. -/
def State.startEye (s : State) (l : Nat) : State := { s with ln := { s.ln with eyes := s.ln.eyes.put l s.now } }

theorem exec_eyeNow (hl : l < 256) (hw : s.mayWrite who = true) (lit : s.laneDark l = false) : exec (.eyeNow who l at_) s = .next ((s.atTime at_).startEye l) := by
  have takes : ¬ ((!(s.atTime at_).mayWrite who) = true ∨ 256 ≤ l ∨ (s.atTime at_).laneDark l = true) := by
    have lit' : (s.atTime at_).laneDark l = false := lit
    simp [hw, lit', hl]
  exact if_neg takes

/-- The measurement of the lane's eye is over at this instant. -/
def State.endEye (s : State) (l : Nat) : State := { s with ln := { s.ln with eyes := s.ln.eyes.del l, eyeAt := s.ln.eyeAt.put l s.now } }

/-- The lane shows what was measured of its eye. -/
def State.showEye (s : State) (l height width : Nat) : State :=
  (((s.raise Fld.LN_EYE_VALID 0 l).setFld Fld.LN_EYE_HEIGHT (min height 255) 0 l).setFld Fld.LN_EYE_WIDTH (min width 255) 0 l).setFld Fld.LN_EYE_AGE 0 0 l

theorem exec_eyeMeasureDone (hl : l < 256) (lit : s.laneDark l = false) :
    exec (.eyeMeasureDone l height width at_) s = .next (((s.atTime at_).endEye l).showEye l height width) := by
  have takes : ¬ (256 ≤ l ∨ (s.atTime at_).laneDark l = true) := by
    have lit' : (s.atTime at_).laneDark l = false := lit
    simp [lit', hl]
  exact if_neg takes

/-- Height and width stand cut to their octets, and the measurement is new. -/
theorem showEye_shown : (s.showEye l height width).flag Fld.LN_EYE_VALID 0 l = true ∧ (s.showEye l height width).fld Fld.LN_EYE_HEIGHT 0 l = min height 255 ∧
    (s.showEye l height width).fld Fld.LN_EYE_WIDTH 0 l = min width 255 ∧ (s.showEye l height width).fld Fld.LN_EYE_AGE 0 l = 0 := by
  have octet (n : Nat) : min n 255 % 2 ^ 8 = min n 255 := Nat.mod_eq_of_lt (by omega)
  have valid (u : State) : (u.raise Fld.LN_EYE_VALID 0 l).flag Fld.LN_EYE_VALID 0 l = true := flag_setFld_b2n (b := true) (by decide)
  refine ⟨?_, ?_, ?_, ?_⟩ <;> unfold State.showEye
  · rw [flag_setFld_beside (by decide), flag_setFld_beside (by decide), flag_setFld_beside (by decide), valid]
  · rw [fld_setFld_beside (by decide), fld_setFld_beside (by decide), fld_setFld_same (by decide)]
    exact octet height
  · rw [fld_setFld_beside (by decide), fld_setFld_same (by decide)]
    exact octet width
  · rw [fld_setFld_same (by decide), Nat.zero_mod]

end

/-! ### Energy on dark lanes (R48, R56) -/

section
variable {s : State} {l : Nat}

/-- The energy on a lane is noted, and latched for the calm domain. -/
def State.latchEnergy (s : State) (l : Nat) : State :=
  { s with tb := { s.tb with energy := s.tb.energy.put l true } }.setFld Fld.CALM_LANE_ED_ED (s.fld Fld.CALM_LANE_ED_ED 0 (l / 32) ||| 2 ^ (l % 32)) 0 (l / 32)

/-- The report waits for the owner's duty hall, which thaws. -/
def State.awaitReport (s : State) (h l : Nat) : State := { s.thaw h with tb := { s.tb with edLanes := s.tb.edLanes ++ [l] } }

theorem exec_laneEnergyDetect (hl : l < 256) (dark : s.laneDark l = true) (fresh : s.tb.energy.get false l = false) :
    exec (.laneEnergyDetect l) s = .next (match (s.latchEnergy l).ownerDuty with
      | some h => (s.latchEnergy l).awaitReport h l
      | none => (s.latchEnergy l).energyEvent l) := by
  have appears : ¬ ((!s.laneDark l) = true ∨ s.tb.energy.get false l = true ∨ l ≥ 256) := by simp [dark, fresh, hl]
  exact if_neg appears

end

/-! ### Faults of ports (R505, R513) -/

section
variable {s : State} {l cause x at_ : Nat}

theorem exec_laneFault (hp : s.isPort l = true) (hc : cause = 0x40 ∨ cause = 0x41) : exec (.laneFault l cause at_) s = .next ((s.atTime at_).laneFault l cause) := by
  have faults : ¬ ((!(s.atTime at_).isPort l) = true ∨ (cause ≠ 0x40 ∧ cause ≠ 0x41)) := by
    rintro (dark | ⟨ecc, clock⟩)
    · exact ne_true_of_eq_false (Bool.not_eq_true' _ ▸ dark) hp
    · exact hc.elim ecc clock
  exact congrArg Host.Outcome.next (if_neg faults)

/-- A port's reset begins with its fault. -/
theorem laneFault_resets : (s.laneFault l cause).flt.laneReset.get none l = some (s.laneFault l cause).now := Tbl.get_put_same ..

/-- The reset of the port is over. -/
def State.endLaneReset (s : State) (l : Nat) : State := { s with flt := { s.flt with laneReset := s.flt.laneReset.put l none } }

theorem exec_laneResetComplete (hp : s.isPort l = true) (hx : s.flt.laneReset.get none l = some x) :
    exec (.laneResetComplete l at_) s = .next (((s.atTime at_).endLaneReset l).train l) := by
  have resets : (s.atTime at_).flt.laneReset.get none l = some x := hx
  show execLaneResetComplete l at_ s = _
  simp only [execLaneResetComplete, resets]
  exact congrArg Host.Outcome.next (if_pos hp)

end

/-- Settles O24: each command by its own equation, and a port that goes down by what it shows then. -/
theorem laneLinks : Obligations.LaneLinks := by
  unfold Obligations.LaneLinks Gives
  refine fun l lost height width cause at_ got aligned who s hl => ⟨fun hp hd hr ho => ?_, exec_portLinkDown, fun hu => ⟨_, rfl, portDown_shown hu⟩,
    fun hw lit => ⟨_, exec_eyeNow hl hw lit, look_put_same .., rfl⟩, fun lit => ?_, fun dark fresh => ?_,
    ⟨_, rfl, Tbl.get_put_same .., rfl, fun j hj => Tbl.get_put_ne _ _ _ _ _ hj⟩, fun hp hc => ⟨_, exec_laneFault hp hc, laneFault_resets⟩,
    fun x hp hx => ⟨_, exec_laneResetComplete hp hx, Tbl.get_put_same .., flag_train, rfl, rfl⟩⟩
  · have shows := exec_portLinkUp (got := got) (aligned := aligned) (at_ := at_) hp hd hr ho
    exact ⟨fun ready => shows.trans (congrArg Host.Outcome.next (if_pos ready)),
      fun unready => shows.trans (congrArg Host.Outcome.next (if_neg (ne_true_of_eq_false unready)))⟩
  · obtain ⟨valid, high, wide, age⟩ := showEye_shown (s := (s.atTime at_).endEye l) (l := l) (height := height) (width := width)
    exact ⟨_, exec_eyeMeasureDone hl lit, valid, high, wide, age, Tbl.get_put_same .., keyFree_del.look_eq⟩
  · have detects := exec_laneEnergyDetect hl dark fresh
    refine ⟨fun alone => detects.trans (congrArg Host.Outcome.next ?_), fun h duty => detects.trans (congrArg Host.Outcome.next ?_)⟩
    · rw [show (s.latchEnergy l).ownerDuty = none from alone]
      rfl
    · rw [show (s.latchEnergy l).ownerDuty = some h from duty]
      rfl

end Sys2Proof.Machine
end

section
/-! PROOFS. Table commands (R257 to R259, R270, R283, R285, R289, R387): what may be queued at the halls that a command names, classifier entries of the owner and of
tenants, what a landing takes. -/

open Sys2Proof.Spec

namespace Sys2Proof.Machine

section
variable {s : State} {d : AdminCmd} {buf : Bytes} {all : Bool} {h op : Nat}

/-! ### The queues of halls (R258, R289) -/

/-- A command that names a hall which runs no logical hall is unsupported, whatever its operands. -/
theorem tableSubmit_idle (named : h ∈ s.namedHalls (d.p 0 % 256) all) (idle : s.logicalOf h = none) (ok : Bool) :
    s.tableSubmit d buf all ok = s.adminFail d St.unsupported :=
  if_pos (List.any_eq_true.2 ⟨h, named, by simp only [idle]⟩)

/-- Where every hall that it names serves, a command's own checks decide. -/
theorem tableSubmit_serves (serve : HallsServe s d all) (ok : Bool) :
    s.tableSubmit d buf all ok = if ok then Spec.queued s d buf all else s.adminFail d St.badDescriptor := by
  obtain ⟨names, windows⟩ := serve
  rw [State.tableSubmit]
  refine (if_neg fun unserved => ?_).trans ?_
  · obtain ⟨h, named, lacks⟩ := List.any_eq_true.1 unserved
    obtain ⟨l, runs, window⟩ := windows h named
    simp [runs, window] at lacks
  · cases ok with
    | true => exact if_neg (by simp [names])
    | false => exact if_pos (.inr rfl)

/-- A table command whose halls serve and whose checks pass waits in their queues. -/
theorem next_queued {ok : State → Bool} (ha : Accepted s d op) (serve : HallsServe s d all) (valid : ok s = true) :
    (.next (s.admin d op fun u => u.tableSubmit d buf all (ok u)) : Answer) = .next (Spec.queued s d buf all) :=
  next_admin ha (by rw [tableSubmit_serves serve, if_pos valid])

/-- One whose checks fail is refused. -/
theorem next_badDescriptor {ok : State → Bool} (ha : Accepted s d op) (serve : HallsServe s d all) (broken : ok s = false) :
    (.next (s.admin d op fun u => u.tableSubmit d buf all (ok u)) : Answer) = .next (s.adminFail d St.badDescriptor) :=
  next_admin ha (by rw [tableSubmit_serves serve, if_neg (ne_true_of_eq_false broken)])

theorem rangeOk_of_within {top : Nat} (nonempty : 0 < d.p 2) (few : d.p 2 ≤ 256) (within : d.p 1 + d.p 2 ≤ top) : rangeOk d top = true := by
  simp [rangeOk, nonempty, few, within]

/-! ### Classifier entries (R258, R259) -/

/-- A tenant's action that is not its own to write is refused, before its halls are looked at. -/
theorem exec_clsWrite_denied (ha : Accepted s d 0x20) (tenant : s.isOwner d.fn = false) (foreign : s.tenantAction d.fn (tcamAction (sliceB buf 0 160)) = false) :
    exec (.clsWrite d buf) s = .next (s.adminFail d St.accessDenied) :=
  next_admin ha (if_pos (by simp [tenant, foreign]))

/-- The entry of a classifier write as the device keeps it: the owner's as it stands, a tenant's confined to its vport. -/
def State.keptEntry (s : State) (fn : Nat) (e : Bytes) : Bytes := if s.isOwner fn then e else s.tenantEntry fn e

theorem exec_clsWrite_queued (ha : Accepted s d 0x20) (may : s.isOwner d.fn = true ∨ s.tenantAction d.fn (tcamAction (sliceB buf 0 160)) = true)
    (planned : s.planActive = true) (serve : HallsServe s d true)
    (valid : (if bitOf (d.p 0) 8 then actionOk (tcamAction (sliceB buf 0 160)) else tcamOk (sliceB buf 0 160)) = true) :
    exec (.clsWrite d buf) s = .next (Spec.queued s d (s.keptEntry d.fn (sliceB buf 0 160)) true) := by
  have permitted : ¬ ((!s.isOwner d.fn) = true ∧ (!s.tenantAction d.fn (tcamAction (sliceB buf 0 160))) = true) := by
    rcases may with owner | allowed
    · simp [owner]
    · simp [allowed]
  refine next_admin ha ((if_neg permitted).trans ((if_neg (by simp [planned])).trans ?_))
  rw [tableSubmit_serves serve, if_pos valid, State.keptEntry]
  cases s.isOwner d.fn <;> rfl

/-! ### What a landing takes (R270) -/

/-- A bridge domain is staged for the landing. -/
theorem exec_bdWrite (ha : Accepted s d 0x30) (within : d.p 1 < 4096) (valid : domainOk (sliceB buf 0 32) = true) :
    exec (.bdWrite d buf) s = .next { s with fw := { s.fw with bdNew := s.fw.bdNew ++ [(d, d.p 1, sliceB buf 0 32)] } } :=
  next_admin ha (if_neg (by simp [within, valid]))

/-- Flood targets are staged for the landing. -/
theorem exec_floodWrite (ha : Accepted s d 0x31) (nonempty : 0 < d.p 2) (few : d.p 2 ≤ 256) (within : d.p 1 + d.p 2 ≤ 2048) :
    let ws := (List.range (d.p 2)).map (fun i => leAt buf (4 * i) 4)
    ws.all (fun w => dstOk w .flood) = true → exec (.floodWrite d buf) s = .next { s with fw := { s.fw with floodNew := s.fw.floodNew ++ [(d, d.p 1, ws)] } } := by
  intro ws valid
  refine next_admin ha (if_neg ?_)
  rintro (empty | many | past | invalid)
  · omega
  · omega
  · omega
  · exact absurd invalid (by simp [ws, valid])

end

/-- Settles O52: the checks of each command, met by its operands, queue it at the halls that it names; what is staged, denied or unsupported, by its own equation. -/
theorem tableCommands : Obligations.TableCommands := by
  unfold Obligations.TableCommands Gives
  refine fun d buf s => ⟨
    fun ha serve nonempty few within => next_queued ha serve (by simp [nonempty, few, within]),
    fun ha serve valid => next_queued ha serve valid,
    fun ha serve => next_queued ha serve rfl,
    fun ha owner planned serve valid => ?_,
    exec_clsWrite_denied,
    fun ha tenant allowed planned serve valid => ?_,
    fun ha serve nonempty within => next_queued ha serve (by simp [nonempty, within]),
    fun ha serve nonempty few within => next_queued ha serve (rangeOk_of_within nonempty few within),
    fun ha serve nonempty few within => next_queued ha serve (rangeOk_of_within nonempty few within),
    fun ha serve => next_queued ha serve rfl,
    fun ha serve valid => next_queued ha serve valid,
    fun ha serve => next_queued ha serve rfl,
    fun ha serve domain => next_queued ha serve (by simpa using domain),
    fun ha serve nonempty few within => next_queued ha serve (rangeOk_of_within nonempty few within),
    fun ha serve within valid => next_queued ha serve (by simp [within, valid]),
    fun ha serve nonempty few within => next_queued ha serve (rangeOk_of_within nonempty few within),
    fun ha serve within valid => next_queued ha serve (Bool.and_eq_true_iff.2 ⟨decide_eq_true within, valid⟩),
    fun ha serve nonempty few within => next_queued ha serve (rangeOk_of_within nonempty few within),
    exec_bdWrite,
    exec_floodWrite,
    fun h named idle ha => next_admin ha (tableSubmit_idle named idle true),
    fun ha serve broken => next_badDescriptor ha serve broken⟩
  · rw [exec_clsWrite_queued ha (.inl owner) planned serve valid, State.keptEntry, if_pos owner]
  · rw [exec_clsWrite_queued ha (.inr allowed) planned serve valid, State.keptEntry, if_neg (ne_true_of_eq_false tenant)]

end Sys2Proof.Machine
end

section
/-! PROOFS. Key slots and key-encryption keys (R299 to R304, R309): the loads that begin and those that end, and the erase, zeroizing and query of a slot. -/

open Sys2Proof.Spec

namespace Sys2Proof.Machine

section
variable {s : State} {d : AdminCmd} {buf kk : Bytes} {k t target : Nat}

/-! ### Loads begin (R299, R304) -/

/-- The unwrap under a KEK that a load of a key slot orders. -/
def slotLoad (d : AdminCmd) (buf kk : Bytes) (k : Nat) (fresh : Bool) : KeyLoad :=
  let w := sliceB buf 48 (wrappedLen (keyType (sliceB buf 0 48)))
  { target := k, cmd := d, attr := sliceB buf 0 48, fresh := fresh, padded := Config.keyPadded kk w, material := Config.keyUnwrap kk w }

/-- The unwrap under KEK0 that a load of a KEK orders. -/
def kekLoadOf (d : AdminCmd) (buf kk : Bytes) : KeyLoad :=
  { target := 65536 + d.p 0, cmd := d, attr := [], fresh := false, padded := Config.keyPadded kk (sliceB buf 0 40), material := Config.keyUnwrap kk (sliceB buf 0 40) }

/-- The owner may load a key of any type, another function one of the types 1 to 4 (R304). -/
theorem mayLoad_of_type {ty : Nat} (may : s.isOwner d.fn = true ∨ (1 ≤ ty ∧ ty ≤ 4)) : ¬ ((!s.isOwner d.fn) = true ∧ (ty < 1 ∨ 4 < ty)) := by
  rintro ⟨tenant, other⟩
  rw [Bool.not_eq_true'] at tenant
  have own := may.resolve_left (ne_true_of_eq_false tenant)
  omega

section
variable (ha : Accepted s d 0x38) (valid : keyAttrOk (sliceB buf 0 48) = true) (len : d.bufLen = 48 + wrappedLen (keyType (sliceB buf 0 48)))
  (may : s.isOwner d.fn = true ∨ (1 ≤ keyType (sliceB buf 0 48) ∧ keyType (sliceB buf 0 48) ≤ 4)) (hkek : s.kek (leAt (sliceB buf 0 48) 2 1) = some kk)
include ha valid len may hkek

/-- A load that names no slot takes the function's free one. -/
theorem exec_keyLoad_first (unnamed : d.p 0 = 0) (free : s.emptySlot d.fn = some k) :
    exec (.keyLoad d buf) s = .next ((s.setSlot k { s.slot k with state := 1, loader := d.fn }).beginUnwrap (slotLoad d buf kk k true)) := by
  refine next_admin ha ((if_neg (by simp [valid, len])).trans ((if_neg (mayLoad_of_type may)).trans ((if_pos unnamed).trans ?_)))
  simp only [free, hkek]
  rfl

/-- One that names a slot which has a key rewrites it. -/
theorem exec_keyLoad_rewrite (named : d.p 0 ≠ 0) (hr : s.resolve 4 (d.p 0) = some k) (range : s.keyRange d.fn k = true)
    (keyed : s.slotState k = 2 ∨ s.slotState k = 3) : exec (.keyLoad d buf) s = .next (s.beginUnwrap (slotLoad d buf kk k false)) := by
  have live : s.slotState k ≠ 4 := by omega
  have held : ¬ s.slotState k < 2 := by omega
  refine next_admin ha ((if_neg (by simp [valid, len])).trans ((if_neg (mayLoad_of_type may)).trans ((if_neg named).trans ?_)))
  simp only [hr, range, hkek, if_neg live, if_neg held]
  rfl

end

theorem exec_kekLoad (ha : Accepted s d 0x3B) (low : 0 < d.p 0) (high : d.p 0 ≤ 15) (len : d.bufLen = 40) (hkek : s.own.kek0 = some kk) :
    exec (.kekLoad d buf) s = .next (s.beginUnwrap (kekLoadOf d buf kk)) := by
  have root : s.kek 0 = some kk := hkek
  refine next_admin ha ((if_neg (by omega)).trans ?_)
  simp only [root]
  rfl

/-! ### Loads end (R296, R300, R301, R304) -/

/-- An unwrap leaves the key store. -/
def State.endUnwrap (s : State) (target : Nat) : State :=
  { s with keys := { s.keys with loads := removeFirst (fun l => l.target == target) s.keys.loads } }

/-- What the end of an unwrap does: one that is padded or fails its check ends its command, another lands at the tread boundary that follows. -/
def State.unwrapped (u : State) (l : KeyLoad) : State :=
  if l.padded then u.loadFailed l St.badDescriptor
  else match l.material with
    | none => (u.bump Fld.CPH_KS_CNT_UNWRAP_FAIL_COUNT).loadFailed l St.authFail
    | some m => if 65536 ≤ l.target then u.cipherBoundary.landKek l m else u.cipherBoundary.landKey l m

section
variable {l : KeyLoad} {m : Bytes}

theorem unwrapped_padded (hp : l.padded = true) : s.unwrapped l = s.loadFailed l St.badDescriptor := if_pos hp

theorem unwrapped_failed (hp : l.padded = false) (hm : l.material = none) :
    s.unwrapped l = (s.bump Fld.CPH_KS_CNT_UNWRAP_FAIL_COUNT).loadFailed l St.authFail := by
  rw [State.unwrapped, if_neg (ne_true_of_eq_false hp), hm]

theorem unwrapped_landKey (hp : l.padded = false) (hm : l.material = some m) (slot : l.target < 65536) : s.unwrapped l = s.cipherBoundary.landKey l m := by
  rw [State.unwrapped, if_neg (ne_true_of_eq_false hp), hm]
  exact if_neg (Nat.not_le.mpr slot)

theorem unwrapped_landKek (hp : l.padded = false) (hm : l.material = some m) (kek : 65536 ≤ l.target) : s.unwrapped l = s.cipherBoundary.landKek l m := by
  rw [State.unwrapped, if_neg (ne_true_of_eq_false hp), hm]
  exact if_pos kek

/-- The oldest unwrap for a target ends. -/
theorem exec_keyCommit (hl : s.keys.loads.find? (fun l => l.target == target) = some l) :
    exec (.keyCommit target t) s = .next (((s.atTime t).endUnwrap target).unwrapped l) := by
  have oldest : (s.atTime t).keys.loads.find? (fun l => l.target == target) = some l := hl
  show execKeyCommit target t s = _
  simp only [execKeyCommit, oldest, State.unwrapped]
  cases l.padded
  · cases l.material <;> rfl
  · rfl

theorem target_of_find (hl : s.keys.loads.find? (fun l => l.target == target) = some l) : l.target = target := by
  simpa using List.find?_some hl

/-! What a boundary makes of an unwrapped key, in the order of its checks. -/

/-- A slot was REVOKING before this instant. -/
def State.revokedBefore (s : State) (k : Nat) : Bool :=
  match (s.slot k).eraseAt with
  | some e => decide (e < s.now)
  | none => false

theorem revokedBefore_of_past {e : Nat} (he : (s.slot k).eraseAt = some e) (past : e < s.now) : s.revokedBefore k = true := by
  rw [State.revokedBefore, he]
  exact decide_eq_true past

theorem not_revokedBefore (live : ∀ e, (s.slot k).eraseAt = some e → s.now ≤ e) : s.revokedBefore k = false := by
  rw [State.revokedBefore]
  cases he : (s.slot k).eraseAt with
  | none => rfl
  | some e => exact decide_eq_false (Nat.not_lt.mpr (live e he))

theorem landKey_halvesEqual (hx : xtsHalvesEqual (keyType l.attr) m = true) : s.landKey l m = s.loadFailed l St.badDescriptor := if_pos hx

/-- A rewrite whose handle has gone stale since is refused. -/
theorem landKey_stale (hx : xtsHalvesEqual (keyType l.attr) m = false) (rewrite : l.fresh = false) (stale : s.resolve 4 (l.cmd.p 0) = none) :
    s.landKey l m = s.adminFail l.cmd St.badHandle :=
  (if_neg (ne_true_of_eq_false hx)).trans (if_pos (by simp [rewrite, stale]))

section
variable (hx : xtsHalvesEqual (keyType l.attr) m = false) (current : l.fresh = true ∨ (s.resolve 4 (l.cmd.p 0)).isSome = true)
include hx current

theorem landKey_current : s.landKey l m =
    if s.revokedBefore l.target then s.adminFail l.cmd St.keyRevoked
    else ((s.commitKey l m).bump Fld.CPH_KS_CNT_LOAD_COUNT).adminOk l.cmd (s.handle 4 l.target) := by
  have named : ¬ ((!l.fresh) = true ∧ (s.resolve 4 (l.cmd.p 0)).isNone = true) := by
    rcases current with fresh | named
    · simp [fresh]
    · simp [Option.isSome_iff_ne_none.1 named]
  exact (if_neg (ne_true_of_eq_false hx)).trans (if_neg named)

/-- A slot that was REVOKING before the boundary takes no key. -/
theorem landKey_revoked {e : Nat} (he : (s.slot l.target).eraseAt = some e) (past : e < s.now) : s.landKey l m = s.adminFail l.cmd St.keyRevoked := by
  rw [landKey_current hx current, if_pos (revokedBefore_of_past he past)]

theorem landKey_commits (live : ∀ e, (s.slot l.target).eraseAt = some e → s.now ≤ e) :
    s.landKey l m = ((s.commitKey l m).bump Fld.CPH_KS_CNT_LOAD_COUNT).adminOk l.cmd (s.handle 4 l.target) := by
  rw [landKey_current hx current, if_neg (ne_true_of_eq_false (not_revokedBefore live))]

end

theorem commitKey_sized {n n' : Nat} (hz : keySizes (keyType l.attr) = some (n, n')) : let v := s.slot l.target
    s.commitKey l m = s.setSlot l.target { state := 2, attr := l.attr, key := m.take (n + n'), counter := leAt l.attr 8 8, loader := l.cmd.fn, eraseAt := v.eraseAt, eraseCmd := v.eraseCmd, load := v.load + 1, former := s.keepFormer l.target } := by
  simp only [State.commitKey, hz, Option.getD_some]

theorem landKek_stores {i : Nat} (hi : l.target = 65536 + i) : let u := { s with keys := { s.keys with keks := s.keys.keks.put i m } }
    s.landKek l m = ((u.setFld Fld.CPH_KEK_VALID_VALID (putBits (s.fld Fld.CPH_KEK_VALID_VALID) i i 1)).bump Fld.CPH_KS_CNT_LOAD_COUNT).adminOk l.cmd := by
  have index : l.target - 65536 = i := by omega
  simp only [State.landKek, index]
  rfl

end

/-! ### Commands on a handle (R302, R303) -/

/-- A command that is accepted, names a slot and has the authority over its key acts on that slot. -/
theorem next_keyFor {op : Nat} {f : State → Nat → State} (ha : Accepted s d op) (hr : s.resolve 4 (d.p 0) = some k) (range : s.keyRange d.fn k = true)
    (may : s.isOwner d.fn = true ∨ keyType (s.slot k).attr ≤ 4) : (.next (s.admin d op fun u => u.keyFor d (f u)) : Answer) = .next (f s k) := by
  have permitted : ¬ ((!s.keyRange d.fn k) = true ∨ ((!s.isOwner d.fn) = true ∧ 4 < keyType (s.slot k).attr)) := by
    rcases may with owner | open_
    · simp [range, owner]
    · simp [range, open_]
  refine next_admin ha ?_
  simp only [State.keyFor, hr]
  exact if_neg permitted

section
variable (hr : s.resolve 4 (d.p 0) = some k) (range : s.keyRange d.fn k = true) (may : s.isOwner d.fn = true ∨ keyType (s.slot k).attr ≤ 4)
include hr range may

theorem exec_keyErase (ha : Accepted s d 0x39) (keyed : s.slotState k = 2 ∨ s.slotState k = 3) (kept : (s.slot k).eraseAt = none) :
    exec (.keyErase d) s = .next (s.setSlot k { s.slot k with eraseAt := some s.nextTread, eraseCmd := some d }) := by
  have live : ¬ (s.slotState k = 4 ∨ (s.slot k).eraseAt.isSome = true) := by
    rw [kept]
    rintro (revoking | ordered)
    · omega
    · cases ordered
  exact (next_keyFor ha hr range may).trans (congrArg Host.Outcome.next ((if_neg live).trans (if_neg (by omega))))

/-- What a query answers of a slot: its attributes, counter, operations in flight and state, and not its key. -/
def State.slotRecord (u : State) (k : Nat) : Bytes :=
  sliceB (u.slot k).attr 0 48 ++ leBytes 8 (min (u.slot k).counter (2 ^ 64 - 1)) ++ leBytes 4 (u.slotOps k) ++ leBytes 1 (u.slotState k) ++ leBytes 3 0

theorem exec_keyQuery (ha : Accepted s d 0x3A) :
    exec (.keyQuery d) s = .next (((s.cipherTo s.now).adminOut d ((s.cipherTo s.now).slotRecord k)).adminOk d) :=
  next_keyFor ha hr range may

end

theorem exec_kekErase (ha : Accepted s d 0x3C) (low : 0 < d.p 0) (high : d.p 0 ≤ 15) : let u := { s with keys := { s.keys with keks := s.keys.keks.del (d.p 0) } }
    exec (.kekErase d) s = .next ((u.setFld Fld.CPH_KEK_VALID_VALID (putBits (s.fld Fld.CPH_KEK_VALID_VALID) (d.p 0) (d.p 0) 0)).adminOk d) :=
  next_admin ha (if_neg (by omega))

/-! ### Zeroizing (R302) -/

/-- The engines at the tread boundary that follows an instant. -/
def State.boundaryFrom (s : State) (t : Nat) : State := (s.atTime t).cipherBoundary

/-- The erase that ordered it, where one did, is answered. -/
def State.answerErase (u : State) : Option AdminCmd → State
  | some c => u.adminOk c
  | none => u

theorem exec_keyZeroize (revoking : (s.boundaryFrom t).slotState k = 4) (idle : (s.boundaryFrom t).slotOps k = 0) : let u := s.boundaryFrom t
    exec (.keyZeroize k t) s = .next (((u.zeroize k).bump Fld.CPH_KS_CNT_ERASE_COUNT).answerErase (u.slot k).eraseCmd) :=
  if_neg (by rintro (other | busy); exacts [other revoking, busy idle])

theorem slot_zeroize : (s.zeroize k).slot k = {} := slot_setSlot _

end

/-- Settles O36: a load's end by its padding, its check and its target; a command on a slot through its handle; the tread boundary by what it makes of a key and of a spent slot. -/
theorem keyCommands : Obligations.KeyCommands := by
  unfold Obligations.KeyCommands Gives
  refine fun d buf k target at_ s => ⟨fun kk ha valid len may hkek => ⟨exec_keyLoad_first ha valid len may hkek, exec_keyLoad_rewrite ha valid len may hkek⟩,
    fun l hl => ⟨fun hp => ?_, fun hp hm => ?_, fun m hp hm small => ?_, fun m hp hm large => ?_⟩,
    fun l m n n' hz hx current live => ?_,
    fun l m => ⟨landKey_halvesEqual, landKey_stale, fun e hx _ named => landKey_revoked hx (.inr named), fun i => landKek_stores⟩,
    fun ha hr range may => exec_keyErase hr range may ha,
    fun revoking idle => ⟨fun unasked => ?_, fun c asked => ?_⟩,
    ⟨congrArg KeySlot.key slot_zeroize, congrArg KeySlot.state slot_zeroize⟩,
    fun ha hr range may => exec_keyQuery hr range may ha,
    fun kk => exec_kekLoad, exec_kekErase, fun x hx hd hs => ⟨_, exec_keyExhaust hx hd hs, ?_⟩⟩
  · rw [exec_keyCommit hl, unwrapped_padded hp]
    rfl
  · rw [exec_keyCommit hl, unwrapped_failed hp hm]
    rfl
  · rw [exec_keyCommit hl, unwrapped_landKey hp hm (target_of_find hl ▸ small)]
    rfl
  · rw [exec_keyCommit hl, unwrapped_landKek hp hm (target_of_find hl ▸ large)]
    rfl
  · rw [landKey_commits hx current live, commitKey_sized hz]
  · exact (exec_keyZeroize revoking idle).trans (congrArg Host.Outcome.next (congrArg (State.answerErase _) unasked))
  · exact (exec_keyZeroize revoking idle).trans (congrArg Host.Outcome.next (congrArg (State.answerErase _) asked))
  · rw [slot_exhaust]
    exact ⟨rfl, rfl, List.foldlRecOn (motive := fun u : State => u.now = max s.now at_) _ _ rfl fun _ hu _ _ => hu⟩

end Sys2Proof.Machine
end

section
/-! PROOFS. Buffer pools (R322 to R335): the commands on regions and owners, the stocks, the audit and its alarms. -/

open Sys2Proof.Spec

namespace Sys2Proof.Machine

/-! ### Regions (R322 to R324, R333) -/

/-- The region that a BPM_REGION_ADD asks for, its indices from first on. -/
def regionAsked (d : AdminCmd) (first : Nat) : Region :=
  { cls := d.p 0 % 8, loc := bitsOf (d.p 0) 5 4, inst := bitsOf (d.p 0) 12 8, base := d.p64 1, count := d.p 3, first := first, next := first, used := first, allocated := 0 }

/-- The buffers of a class over all regions, and the octets that the regions take. -/
def State.buffersOfClass (s : State) (c : Nat) : Nat := s.bpm.regions.foldl (fun n e => n + (if e.2.cls = c then e.2.count else 0)) 0
def State.poolOctets (s : State) : Nat := s.bpm.regions.foldl (fun n e => n + e.2.count * slotStride e.2.cls e.2.loc) 0

/-- A hall at F3 that takes a region in its alcove is at F2 (R324). -/
def State.thawFor (s : State) (loc inst : Nat) : State :=
  if loc = 0 ∧ s.frost inst = 3 ∧ !s.atF4 then (s.setFrost inst 2).setFld Fld.CALM_HALL_STATE_TARGET 2 0 inst else s

/-- A pair whose broken list has lost a region keeps a list again (R331). -/
def State.mendPair (s : State) (k : Nat) : State := if (s.pair k).cut then s.setPair k { s.pair k with broken := false, cut := false } else s

/-- The indices of a region, as buffer IDs. -/
def Region.inside (r : Region) (id : Nat) : Bool := decide (bufId r.cls r.first ≤ id) && decide (id < bufId r.cls r.first + r.count)

/-- The manager without a region. -/
def State.dropRegion (s : State) (n : Nat) : State := { s with bpm := { s.bpm with regions := s.bpm.regions.del n } }

/-- Another region of the pair stays when a region is removed. -/
def State.pairStays (s : State) (n : Nat) (r : Region) : Bool := (s.bpm.regions.del n).any (fun e => e.2.key == r.key)

/-- The free list of a region's pair, and what of it lies in other regions. -/
def State.pairList (s : State) (r : Region) : List Nat := s.freeList (s.pair r.key).listed (s.pair r.key).head
def State.listBut (s : State) (r : Region) : List Nat := (s.pairList r).filter (fun id => !r.inside id)

/-- The stock of a region's pair that lies in other regions. -/
def State.stockBut (s : State) (r : Region) : List Nat := (s.pair r.key).stock.filter (fun id => !r.inside id)

/-- What a query answers of a region. -/
def Region.record (r : Region) : Bytes :=
  leBytes 4 (r.cls + r.loc * 16 + r.inst * 256) ++ leBytes 8 r.base ++ leBytes 4 r.count ++ leBytes 4 r.used ++ leBytes 4 (r.count - r.allocated) ++ leBytes 4 r.allocated ++ leBytes 4 0

section
variable {s : State} {d : AdminCmd} {r : Region} {n : Nat}

/-- The hall's state and its show are registers: the pools are as they were. -/
@[simp] theorem thawFor_pair (loc inst k : Nat) : (s.thawFor loc inst).pair k = s.pair k := by
  unfold State.thawFor
  split <;> rfl

theorem exec_bpmRegionAdd {first : Nat} (ha : Accepted s d 0x40) (valid : s.regionOk (d.p 0 % 8) (bitsOf (d.p 0) 5 4) (bitsOf (d.p 0) 12 8) (d.p64 1) (d.p 3) = true)
    (free : s.freeRegion = some n) (run : s.freeRun (d.p 0 % 8) (d.p 3) = first) (held : s.buffersOfClass (d.p 0 % 8) + d.p 3 ≤ 2 ^ 29) (indices : first + d.p 3 ≤ 2 ^ 29)
    (octets : s.poolOctets + d.p 3 * slotStride (d.p 0 % 8) (bitsOf (d.p 0) 5 4) ≤ 2 ^ 42) : let r := regionAsked d first
    exec (.bpmRegionAdd d) s = .next ((((s.thawFor r.loc r.inst).mendPair r.key).setRegion n r).showPools.adminOk d first n) := by
  subst run
  refine next_admin ha ((if_neg (by simp [valid])).trans ?_)
  simp only [free]
  refine if_neg ?_
  rintro (many | past | large)
  · exact absurd held (Nat.not_le.mpr many)
  · exact absurd indices (Nat.not_le.mpr past)
  · exact absurd octets (Nat.not_le.mpr large)

theorem exec_bpmRegionAdd_invalid (ha : Accepted s d 0x40)
    (invalid : s.regionOk (d.p 0 % 8) (bitsOf (d.p 0) 5 4) (bitsOf (d.p 0) 12 8) (d.p64 1) (d.p 3) = false) :
    exec (.bpmRegionAdd d) s = .next (s.adminFail d St.badDescriptor) :=
  next_admin ha (if_pos (by simp [invalid]))

section
variable (hr : look s.bpm.regions (d.p 0) = some r)
include hr

theorem exec_bpmRegionQuery (ha : Accepted s d 0x42) : exec (.bpmRegionQuery d) s = .next ((s.adminOut d r.record).adminOk d) :=
  next_admin ha (by simp only [hr]; rfl)

variable (ha : Accepted s d 0x41)
include ha

/-- A region with a buffer allocated stays. -/
theorem exec_bpmRegionRemove_allocated (busy : r.allocated ≠ 0) : exec (.bpmRegionRemove d) s = .next (s.adminFail d St.quota) :=
  next_admin ha (by simp only [hr]; exact if_pos busy)

variable (free : r.allocated = 0)
include free

/-- A pair with no region left is served afresh. -/
theorem exec_bpmRegionRemove_last (last : s.pairStays (d.p 0) r = false) :
    exec (.bpmRegionRemove d) s = .next (((s.dropRegion (d.p 0)).setPair r.key {}).showPools.adminOk d) := by
  refine next_admin ha ?_
  simp only [hr]
  exact (if_neg (not_not_intro free)).trans (if_pos (congrArg not last))

variable (stays : s.pairStays (d.p 0) r = true)
include stays

/-- A list that reaches no buffer of the region keeps its threads. -/
theorem exec_bpmRegionRemove_unlisted (whole : s.listBut r = s.pairList r) :
    exec (.bpmRegionRemove d) s = .next (((s.dropRegion (d.p 0)).setPair r.key { s.pair r.key with stock := s.stockBut r, cut := (s.pair r.key).broken }).showPools.adminOk d) := by
  refine next_admin ha ?_
  simp only [hr]
  exact (if_neg (not_not_intro free)).trans ((if_neg (ne_true_of_eq_false (congrArg not stays))).trans (if_pos whole))

/-- Another is threaded again without them. -/
theorem exec_bpmRegionRemove_listed (part : s.listBut r ≠ s.pairList r) (reachable : s.unreachable r = false) :
    exec (.bpmRegionRemove d) s = .next ((((s.dropRegion (d.p 0)).thread (s.listBut r)).setPair r.key
      { s.pair r.key with stock := s.stockBut r, head := (s.listBut r).head?, listed := (s.listBut r).length }).showPools.adminOk d) := by
  refine next_admin ha ?_
  simp only [hr]
  exact (if_neg (not_not_intro free)).trans ((if_neg (ne_true_of_eq_false (congrArg not stays))).trans ((if_neg part).trans (if_neg (ne_true_of_eq_false reachable))))

end

end

/-! ### Owners (R332, R333) -/

section
variable {s : State} {d : AdminCmd} {buf : Bytes} {o : Nat}

/-- A check of tenants alone does not refuse the owner host, nor a tenant that it does not concern. -/
theorem not_refused {f : Nat} {concerns : Prop} (may : s.isOwner f = true ∨ ¬ concerns) : ¬ ((!s.isOwner f) = true ∧ concerns) := by
  rintro ⟨tenant, concerned⟩
  rcases may with owner | exempt
  · simp [owner] at tenant
  · exact exempt concerned

/-- A command of the owner host, or of the function that holds the buffer owner, acts on the owner that its handle names. -/
theorem ownerFor_of_held {x : Nat} {k : Nat → State} (named : s.ownerIdx x = some o) (present : s.bpm.owners.any (fun e => e.1 == o) = true)
    (may : s.isOwner d.fn = true ∨ (s.bufOwner o).fn = d.fn) : s.ownerFor d x k = k o := by
  simp only [State.ownerFor, named]
  exact (if_neg (by simp [present])).trans (if_neg (not_refused (may.imp_right not_not_intro)))

theorem exec_bpmOwnerCreate {f : Nat} (ha : Accepted s d 0x43) (own : d.p 0 = 0 → f = d.fn) (other : d.p 0 ≠ 0 → f = d.p 0 ∧ s.isOwner d.fn = true) (known : s.fnExists f = true)
    (share : s.isOwner d.fn = true ∨ s.ownersOf d.fn < s.shareAt d.fn 0x0A 2) (free : s.freeOwner = some o) :
    let u := s.setBufOwner o { noOwner with fn := f, ceil := List.replicate 8 0, counts := List.replicate 8 0 }
    exec (.bpmOwnerCreate d) s = .next (u.adminOk d (u.ownerHandle o)) := by
  have holder : (if s.isOwner d.fn = true ∧ d.p 0 ≠ 0 then d.p 0 else d.fn) = f := by
    by_cases zero : d.p 0 = 0
    · rw [if_neg fun c => c.2 zero, own zero]
    · rw [if_pos ⟨(other zero).2, zero⟩, (other zero).1]
  have mayName : s.isOwner d.fn = true ∨ ¬ d.p 0 ≠ 0 := (Decidable.em (d.p 0 = 0)).symm.imp (fun named => (other named).2) not_not_intro
  refine next_admin ha ?_
  simp only [holder, free]
  exact (if_neg (not_refused mayName)).trans ((if_neg (by simp [known])).trans (if_neg (not_refused (share.imp_right Nat.not_le.mpr))))

section
variable (named : s.ownerIdx (d.p 0) = some o) (present : s.bpm.owners.any (fun e => e.1 == o) = true) (may : s.isOwner d.fn = true ∨ (s.bufOwner o).fn = d.fn)
include named present may

/-- Ceilings and an age limit wait for the landing while a plan runs. -/
theorem exec_bpmOwnerSet_staged (ha : Accepted s d 0x44) (planned : s.planActive = true) : exec (.bpmOwnerSet d buf) s = .next
    ((s.setBufOwner o { s.bufOwner o with staged := some ((List.range 8).map (fun c => leAt buf (4 * c) 4), d.p 1) }).adminOk d) :=
  next_admin ha ((ownerFor_of_held named present may).trans (congrArg (fun w => (s.setBufOwner o w).adminOk d) (if_pos planned)))

theorem exec_bpmOwnerSet_now (ha : Accepted s d 0x44) (idle : s.planActive = false) : exec (.bpmOwnerSet d buf) s = .next
    ((s.setBufOwner o { s.bufOwner o with ceil := (List.range 8).map (fun c => leAt buf (4 * c) 4), ageLimit := d.p 1 }).adminOk d) :=
  next_admin ha ((ownerFor_of_held named present may).trans (congrArg (fun w => (s.setBufOwner o w).adminOk d) (if_neg (ne_true_of_eq_false idle))))

theorem exec_bpmOwnerDestroy (ha : Accepted s d 0x45) (tenant : o ≠ 0) (live : (s.bufOwner o).closing = none) :
    exec (.bpmOwnerDestroy d) s = .next ((s.setBufOwner o { s.bufOwner o with closing := some d }).finishOwner o) :=
  next_admin ha ((ownerFor_of_held named present may).trans ((if_neg tenant).trans (if_neg (by simp [live]))))

theorem exec_bpmOwnerDestroy_device (ha : Accepted s d 0x45) (device : o = 0) : exec (.bpmOwnerDestroy d) s = .next (s.adminFail d St.accessDenied) :=
  next_admin ha ((ownerFor_of_held named present may).trans (if_pos device))

end

/-! ### Stocks, audit and alarms (R327, R334, R335) -/

theorem exec_stockRefill_full {c loc inst : Nat} (full : 32 ≤ (s.pair (pairKey c loc inst)).stock.length) : exec (.stockRefill c loc inst) s = .next s :=
  if_neg (Nat.not_lt.mpr full)

theorem exec_stockRefill_low {c loc inst : Nat} (low : (s.pair (pairKey c loc inst)).stock.length < 32) :
    exec (.stockRefill c loc inst) s = .next (s.refill (pairKey c loc inst) 64) :=
  if_pos low

theorem exec_bpmAudit (ha : Accepted s d 0x49) (start : d.p 0 ≤ 8191) (nonempty : 0 < d.p 1) (within : d.p 0 + d.p 1 ≤ 8192)
    (may : s.isOwner d.fn = true ∨ s.bpm.owners.any (fun e => decide (d.p 0 ≤ e.1) && decide (e.1 < d.p 0 + d.p 1) && e.2.fn != d.fn) = false) :
    exec (.bpmAudit d) s = .next ((s.adminOut d (((List.range (d.p 1)).map (fun i => d.p 0 + i)).map s.auditRecord).flatten).adminOk d) :=
  next_admin ha ((if_neg (by omega)).trans (if_neg (not_refused (may.imp_right ne_true_of_eq_false))))

theorem exec_bpmAlarmNextRead {who : Who} {rest : List Nat} (head : s.bpm.alarms = o :: rest) :
    exec (.bpmAlarmNextRead who) s = .next (({ s with bpm := { s.bpm with alarms := rest } }).answer who (Reg.addr .BPM_ALARM_NEXT 0 0) (2 ^ 31 + rest.length * 2 ^ 16 + o)) := by
  show execBpmAlarmNextRead who s = _
  simp only [execBpmAlarmNextRead, head]

theorem exec_bpmAlarmNextRead_empty {who : Who} (empty : s.bpm.alarms = []) :
    exec (.bpmAlarmNextRead who) s = .next (s.answer who (Reg.addr .BPM_ALARM_NEXT 0 0) 0) := by
  show execBpmAlarmNextRead who s = _
  simp only [execBpmAlarmNextRead, empty]

end

/-- Settles O55: each command by its own equation, on the region or the buffer owner that it names. -/
theorem poolCommands : Obligations.PoolCommands := by
  unfold Obligations.PoolCommands Gives
  refine fun d buf c loc inst who s => ⟨fun n ha valid free held indices octets => ?_, exec_bpmRegionAdd_invalid,
    fun r ha hr => ⟨exec_bpmRegionRemove_last hr ha, exec_bpmRegionRemove_unlisted hr ha, exec_bpmRegionRemove_listed hr ha, exec_bpmRegionRemove_allocated hr ha⟩,
    fun r ha hr => exec_bpmRegionQuery hr ha, fun o f => exec_bpmOwnerCreate,
    fun o named present may => ⟨exec_bpmOwnerSet_staged named present may, exec_bpmOwnerSet_now named present may,
      exec_bpmOwnerDestroy named present may, exec_bpmOwnerDestroy_device named present may⟩,
    exec_stockRefill_full, exec_stockRefill_low, exec_bpmAudit, fun o rest => exec_bpmAlarmNextRead, exec_bpmAlarmNextRead_empty⟩
  rw [exec_bpmRegionAdd ha valid free rfl held indices octets, State.mendPair, thawFor_pair]
  rfl

end Sys2Proof.Machine
end

section
/-! PROOFS. Buffers (R326, R329 to R331, R333): their allocation, reference and release. -/

open Sys2Proof.Spec

namespace Sys2Proof.Machine

/-! ### What a write leaves of the manager -/

section
variable {s : State} {o id : Nat} {r : Region}

@[simp] theorem pair_setPair (k : Nat) (p : PoolPair) : (s.setPair k p).pair k = p := Tbl.get_put_same ..
@[simp] theorem bufOwner_setPair (k : Nat) (p : PoolPair) : (s.setPair k p).bufOwner o = s.bufOwner o := by simp only [State.bufOwner, State.setPair]

/-- What the manager shows is registers. -/
@[simp] theorem showPools_bpm : s.showPools.bpm = s.bpm := by
  unfold State.showPools
  simp only [setFld_bpm]
  exact List.foldlRecOn (motive := fun u : State => u.bpm = s.bpm) _ _ rfl fun u hu c _ => by simp only [setFld_bpm, hu]

/-- A header in an alcove lies outside the manager. -/
theorem putHeader_bpm (alcove : r.loc = 0) (x : Header) : (s.putHeader r id x).bpm = s.bpm := by
  simp only [State.putHeader, State.headerWrite, alcove, State.alcoveWrite]

end

/-! ### Allocation (R326, R329, R330) -/

/-- What a BUF_ALLOC answers of an allocation: the buffer and where its data starts, or why there is none. -/
def answerAlloc (d : AdminCmd) : State × (Nat ⊕ Nat) → State
  | (u, .inl id) => u.adminOk d (match u.regionOf id with | some (_, r) => r.dataAt id | none => 0) id
  | (u, .inr st) => u.adminFail d st

/-- A BUF_ALLOC of an owner for the class that it comes to, if any. -/
def State.allocClass (s : State) (d : AdminCmd) (o loc inst : Nat) : Option Nat → State
  | some c => answerAlloc d (s.allocBuffer o c loc inst)
  | none => if (s.bufOwner o).closing.isSome then (s.bump Fld.BPM_CNT_QUOTA_COUNT).adminFail d St.quota else (s.bump Fld.BPM_CNT_NO_BUFFER_COUNT).adminFail d St.noBuffer

/-- The class that a BUF_ALLOC comes to: the one that it names, or the smallest that holds its length. -/
def State.comesTo (s : State) (d : AdminCmd) (c : Option Nat) : Prop :=
  (bitOf (d.p 1) 3 = false ∧ c = some (d.p 1 % 8)) ∨
    (bitOf (d.p 1) 3 = true ∧ 0 < d.p 2 ∧ d.p 2 ≤ 1048576 ∧ c = s.classFor (d.p 2) (bitsOf (d.p 1) 5 4) (bitsOf (d.p 1) 12 8))

/-- A location that a region can have (R322). -/
def Place (loc inst : Nat) : Prop := (loc = 0 ∧ inst < 18) ∨ (loc = 1 ∧ inst < 4) ∨ (loc = 2 ∧ inst < 8)

/-- A free buffer, of region r with number n, is allocated to an owner: its header, its region's and its owner's counts. -/
def State.grant (s : State) (n : Nat) (r : Region) (id o c : Nat) : State :=
  let f := s.flightNow
  let s := s.putHeader r id { next := 0xFFFFFFFF, owner := s.ownerHandle o, refs := 1, state := 1, tag := id % 256, flight := f }
  let s := s.setRegion n { r with allocated := r.allocated + 1, used := max r.used (id % 2 ^ 29 + 1), held := r.held.put o (r.held.get 0 o + 1) }
  let w := s.bufOwner o
  let s := s.setBufOwner o { w with counts := addAt w.counts c 1, buckets := w.buckets.put (s.periodOf f) (w.buckets.get 0 (s.periodOf f) + 1) }
  (s.bump Fld.BPM_CNT_ALLOC_COUNT).showPools

section
variable {s : State} {d : AdminCmd} {o c loc inst id n : Nat} {r : Region} {rest : List Nat}

theorem exec_bufAlloc {cls : Option Nat} (ha : Accepted s d 0x46) (asked : s.comesTo d cls) (place : Place (bitsOf (d.p 1) 5 4) (bitsOf (d.p 1) 12 8))
    (named : s.ownerIdx (d.p 0) = some o) (present : s.bpm.owners.any (fun e => e.1 == o) = true) (may : s.isOwner d.fn = true ∨ (s.bufOwner o).fn = d.fn) :
    exec (.bufAlloc d) s = .next (s.allocClass d o (bitsOf (d.p 1) 5 4) (bitsOf (d.p 1) 12 8) cls) := by
  have sized : ¬ (bitOf (d.p 1) 3 = true ∧ d.p 2 = 0) ∧ ¬ (bitOf (d.p 1) 3 = true ∧ 1048576 < d.p 2) := by
    rcases asked with ⟨byClass, -⟩ | ⟨-, nonempty, fits, -⟩
    · simp [byClass]
    · omega
  have resolved : (if bitOf (d.p 1) 3 = true then s.classFor (d.p 2) (bitsOf (d.p 1) 5 4) (bitsOf (d.p 1) 12 8) else some (d.p 1 % 8)) = cls := by
    rcases asked with ⟨byClass, comes⟩ | ⟨byLength, -, -, comes⟩
    · rw [if_neg (ne_true_of_eq_false byClass), comes]
    · rw [if_pos byLength, comes]
  refine next_admin ha ((if_neg ?_).trans ((if_neg sized.2).trans ((ownerFor_of_held named present may).trans ?_)))
  · unfold Place at place
    rintro (nowhere | hall | stack | port | empty)
    · omega
    · omega
    · omega
    · omega
    · exact sized.1 empty
  · simp only [resolved]
    cases cls with
    | none => rfl
    | some c => rfl

/-- An owner at its quota is refused. -/
theorem allocBuffer_quota (full : s.quotaFull o c = true) : s.allocBuffer o c loc inst = (s.bump Fld.BPM_CNT_QUOTA_COUNT, .inr St.quota) := if_pos full

/-- With no regions there are no buffers. -/
theorem allocBuffer_noRegions (room : s.quotaFull o c = false) (bare : s.bpm.regions = []) :
    s.allocBuffer o c loc inst = (s.bump Fld.BPM_CNT_NO_BUFFER_COUNT, .inr St.noBuffer) := by
  simp [State.allocBuffer, room, bare]

/-- A pair whose stock holds a buffer gives it. -/
theorem takeFree_stock {k : Nat} (stock : (s.pair k).stock = id :: rest) : s.takeFree k = (s.setPair k { s.pair k with stock := rest }, some id, false) := by
  simp only [State.takeFree, stock]

/-- An owner within its quota is granted the first buffer of the stock of a pair with a region that can be reached. -/
theorem allocBuffer_stock {e : Nat × Region} (room : s.quotaFull o c = false) (he : e ∈ s.bpm.regions) (key : e.2.key = pairKey c loc inst) (reachable : s.unreachable e.2 = false)
    (stock : (s.pair (pairKey c loc inst)).stock = id :: rest) (hr : s.regionOf id = some (n, r)) : s.allocBuffer o c loc inst =
      ((s.setPair (pairKey c loc inst) { s.pair (pairKey c loc inst) with stock := rest }).grant n r id o c, .inl id) := by
  have reach : s.bpm.regions.any (fun e => e.2.key == pairKey c loc inst && !s.unreachable e.2) = true := List.any_eq_true.2 ⟨e, he, by simp [key, reachable]⟩
  have kept : (s.setPair (pairKey c loc inst) { s.pair (pairKey c loc inst) with stock := rest }).regionOf id = some (n, r) := hr
  rw [State.allocBuffer, if_neg (ne_true_of_eq_false room)]
  simp only [reach, if_true, takeFree_stock stock, kept]
  rfl

/-- A grant leaves the pairs, and its owner has one buffer more of the class. -/
theorem grant_alcove (alcove : r.loc = 0) : let t := s.grant n r id o c
    (∀ k, t.pair k = s.pair k) ∧ (t.bufOwner o).counts = addAt (s.bufOwner o).counts c 1 := by
  constructor
  · intro k
    simp only [State.grant, State.pair, showPools_bpm, bump_bpm, State.setBufOwner, State.setRegion, putHeader_bpm alcove]
  · simp only [State.grant, State.bufOwner, showPools_bpm, bump_bpm, State.setBufOwner, State.setRegion, putHeader_bpm alcove, Tbl.get_put_same]

end

/-! ### References and release (R331, R333) -/

section
variable {s : State} {d : AdminCmd} {buf : Bytes} {id n : Nat} {r : Region}

theorem addRefs_one {f : Option Nat} (sound : s.refFault id f = none) (hr : s.regionOf id = some (n, r)) (few : (s.header r id).refs < 65535) :
    s.addRefs id 1 f = (s.putHeader r id { s.header r id with refs := (s.header r id).refs + 1 }, none) := by
  simp only [State.addRefs, sound, hr]
  exact if_neg (by omega)

theorem exec_bufRef (ha : Accepted s d 0x47) (sound : s.refFault (d.p 0) (some d.fn) = none) (hr : s.regionOf (d.p 0) = some (n, r)) (few : (s.header r (d.p 0)).refs < 65535) :
    exec (.bufRef d) s = .next ((s.putHeader r (d.p 0) { s.header r (d.p 0) with refs := (s.header r (d.p 0)).refs + 1 }).adminOk d) :=
  next_admin ha (by rw [addRefs_one sound hr few])

theorem exec_bufRef_refused {st : Nat} (ha : Accepted s d 0x47) (fault : s.refFault (d.p 0) (some d.fn) = some st) :
    exec (.bufRef d) s = .next ((s.noteRefFault (d.p 0) st (some d.fn)).adminFail d st) := by
  have refused : s.addRefs (d.p 0) 1 (some d.fn) = (s.noteRefFault (d.p 0) st (some d.fn), some st) := by simp only [State.addRefs, fault]
  exact next_admin ha (by rw [refused])

theorem exec_bufRelease {u : State} {done : Nat} {st : Option Nat} (ha : Accepted s d 0x48) (nonempty : 0 < d.p 0) (few : d.p 0 ≤ 64)
    (each : s.releaseAll d.fn ((List.range (d.p 0)).map (fun i => leAt buf (4 * i) 4)) = (u, done, st)) :
    exec (.bufRelease d buf) s = .next (u.adminDone d (st.getD St.success) 0 0 done) :=
  next_admin ha ((if_neg (by omega)).trans (by rw [each]))

theorem exec_bufRelease_many (ha : Accepted s d 0x48) (many : 64 < d.p 0) : exec (.bufRelease d buf) s = .next (s.adminFail d St.badDescriptor) :=
  next_admin ha (if_pos (.inr many))

/-- The release of the last reference frees the buffer. -/
theorem release_last {f : Option Nat} (sound : s.refFault id f = none) (hr : s.regionOf id = some (n, r)) (last : (s.header r id).refs ≤ 1) :
    s.release id f = (s.freeBuffer n r id (s.header r id), none) := by
  simp only [State.release, sound, hr]
  exact if_pos last

/-- A list of one buffer is its one release. -/
theorem releaseAll_one {f : Nat} {u : State} (freed : s.release id (some f) = (u, none)) : s.releaseAll f [id] = (u, 1, none) := by
  simp only [State.releaseAll, freed]

end

/-- Settles O56: an allocation by the class that it comes to; references and releases by the fault that they meet, if any. -/
theorem bufferCommands : Obligations.BufferCommands := by
  unfold Obligations.BufferCommands Gives
  refine fun d buf o s => ⟨fun c ha asked place named present may => ?_, fun id rest n r k room hk stock hr key alcove _ mem => ?_, fun n r => exec_bufRef, fun st => exec_bufRef_refused,
    fun u n st => exec_bufRelease, fun n r ha one sound hr last => ?_, exec_bufRelease_many⟩
  · rw [exec_bufAlloc ha asked place named present may]
    refine ⟨fun k hc full => ?_, fun k hc room empty => ?_, fun k id u hc given => ?_, fun k st u hc refused => ?_, fun hc live => ?_⟩ <;> rw [hc, State.allocClass]
    · rw [allocBuffer_quota full, answerAlloc]
    · rw [allocBuffer_noRegions room empty, answerAlloc]
    · rw [given]
      rfl
    · rw [refused, answerAlloc]
    · rw [live]
      rfl
  · subst hk
    obtain ⟨e, he, rfl⟩ := List.mem_map.1 mem
    obtain ⟨pairs, counts⟩ := grant_alcove (s := s.setPair (pairKey (d.p 1 % 8) 0 0) { s.pair (pairKey (d.p 1 % 8) 0 0) with stock := rest }) (n := n) (id := id) (o := o) (c := d.p 1 % 8) alcove
    have given := allocBuffer_stock room he key (by simp [State.unreachable, alcove]) stock hr
    refine ⟨_, given, ?_, ?_⟩
    · rw [pairs, pair_setPair]
    · rw [counts, bufOwner_setPair]
  · have each : s.releaseAll d.fn ((List.range (d.p 0)).map (fun i => leAt buf (4 * i) 4)) = (s.freeBuffer n r (leAt buf 0 4) (s.header r (leAt buf 0 4)), 1, none) := by
      rw [one]
      exact releaseAll_one (release_last sound hr last)
    rw [exec_bufRelease ha (by omega) (by omega) each, Option.getD_none]

end Sys2Proof.Machine
end

section
/-! PROOFS. Doorbells (R376 to R378, R383, R476): producer and consumer writes, re-arms and moderation of the ring behind a page. -/

open Sys2Proof.Spec

namespace Sys2Proof.Machine

/-! ### Queues, CQs and the doorbell-wake latch -/

section
variable {s t : State} {k j fn h : Nat} {q : Queue} {c : Cq}

@[simp] theorem queue_setQueue : (s.setQueue k q).queue k = q := Tbl.get_put_same ..
@[simp] theorem cq_setCq : (s.setCq k c).cq k = c := Tbl.get_put_same ..

theorem queue_setQueue_ne (hj : j ≠ k) : (s.setQueue k q).queue j = s.queue j := Tbl.get_put_ne _ _ _ _ _ hj

/-- Queues and CQs are read from the work queues alone. -/
theorem queue_congr (hw : t.wq = s.wq) : t.queue k = s.queue k := by rw [State.queue, hw, State.queue]
theorem cq_congr (hw : t.wq = s.wq) : t.cq k = s.cq k := by rw [State.cq, hw, State.cq]

/-- π shows no register. -/
abbrev Regless {α : Type} (π : State → α) : Prop := ∀ (u : State) (f : Fld) (v o i : Nat), π (u.setFld f v o i) = π u

section
variable {α : Type} {π : State → α} (hπ : Regless π)
include hπ

/-- A thaw request concerns registers alone. -/
theorem Regless.thaw : π (s.thaw h) = π s := by
  unfold State.thaw
  dsimp only
  split
  · exact (hπ ..).trans (hπ ..)
  · exact hπ ..

/-- So does the doorbell-wake latch. -/
theorem Regless.dbWake : π (s.dbWake fn) = π s := by
  unfold State.dbWake
  split
  · split
    · exact (Regless.thaw hπ).trans (hπ ..)
    · rfl
  · rfl

end

@[simp] theorem dbWake_wq : (s.dbWake fn).wq = s.wq := Regless.dbWake fun _ _ _ _ _ => rfl
theorem dbWake_cqs : (s.dbWake fn).wq.cqs = s.wq.cqs := by rw [dbWake_wq]
theorem dbWake_queues : (s.dbWake fn).wq.queues = s.wq.queues := by rw [dbWake_wq]
@[simp] theorem queue_dbWake : (s.dbWake fn).queue k = s.queue k := queue_congr dbWake_wq
@[simp] theorem cq_dbWake : (s.dbWake fn).cq k = s.cq k := cq_congr dbWake_wq

/-- The address lies above the registers of the frost levels. -/
abbrev AboveCalm (a : Nat) : Prop := 0x1000 ≤ a

theorem SameAt.thaw (hs : SameAt AboveCalm s t) (hh : h < 32) : SameAt AboveCalm s (t.thaw h) := by
  have frost : ¬ AboveCalm (Reg.addr .CALM_HALL_STATE 0 h) := by rw [addr_hallState, AboveCalm]; omega
  have counted : SameAt AboveCalm s (t.bump Fld.CALM_THAW_CNT_COUNT) := hs.setFld _ _ 0 0 (by decide)
  exact .ite (counted.setFld _ _ 0 h frost) counted

/-- The doorbell-wake latch and its thaw request change nothing above those registers. -/
theorem sameAt_dbWake : SameAt AboveCalm s (s.dbWake fn) := by
  unfold State.dbWake
  split
  next hall named =>
    have duty : s.fld Fld.CALM_DUTY_PORT_HALL 0 (portOf fn) < 32 := bitsOf_lt ..
    have hall_lt : hall < 32 := by
      simp only [State.dutyHall, Option.ite_none_right_eq_some, Option.some.injEq] at named
      exact named.2 ▸ duty
    exact .ite (.thaw ((SameAt.refl s).setFld ⟨.CALM_DBWAKE, portOf fn, portOf fn⟩ 1 0 0 (show ¬ AboveCalm (Reg.addr .CALM_DBWAKE 0 0) by decide)) hall_lt) (.refl s)
  next => exact .refl s

/-- A record for a CQ that is not there goes nowhere. -/
theorem cqPost_absent {hall : Nat} {r : CRec} {rsv : Bool} (gone : (s.cq k).present = false) : s.cqPost k hall r rsv = s := if_pos (by rw [gone]; rfl)

end

/-! ### Producer and consumer writes (R377, R378) -/

section
variable {s : State} {k fn page value : Nat}

theorem exec_doorbellProducer (hb : s.bell fn page false = some k) (room : sub32 value (s.queue k).p + sub32 (s.queue k).p (s.queue k).c ≤ 2 ^ (s.queue k).sizeLog2) :
    exec (.doorbellProducer fn page value) s = .next ((s.dbWake fn).setQueue k { s.queue k with p := value }) := by
  show execDoorbellProducer fn page value s = _
  simp only [execDoorbellProducer, hb, queue_dbWake, producerOk, decide_eq_true room, if_true]

/-- A queue whose producer write was refused, with the flag and the count of it. -/
def State.overrunQueue (s : State) (k : Nat) : State :=
  ((s.setQueue k { s.queue k with state := .error, detail := 1 }).raise Fld.WQ_STATUS_OVERRUN).bump Fld.WQ_CNT_OVERRUN_COUNT

theorem exec_doorbellProducer_overrun (hb : s.bell fn page false = some k) (full : 2 ^ (s.queue k).sizeLog2 < sub32 value (s.queue k).p + sub32 (s.queue k).p (s.queue k).c) :
    exec (.doorbellProducer fn page value) s = .next (
      let u := (s.dbWake fn).overrunQueue k
      u.cqPost (if k ≥ 65536 then k else (s.queue k).cq) (if k ≥ 65536 then 18 else u.servingHall (s.queue k)) (u.queueReport k (s.queue k).p value St.queueOverrun 1) false) := by
  show execDoorbellProducer fn page value s = _
  simp only [execDoorbellProducer, hb, queue_dbWake, producerOk, decide_eq_false (Nat.not_le.mpr full), Bool.false_eq_true, if_false, State.overrunQueue]

theorem overrunQueue_shown : (s.overrunQueue k).queue k = { s.queue k with state := .error, detail := 1 } ∧ (s.overrunQueue k).flag Fld.WQ_STATUS_OVERRUN = true :=
  ⟨queue_setQueue (s := s), (flag_setFld_spares (by decide)).trans (flag_raise (by decide))⟩

theorem exec_doorbellConsumer (hb : s.bell fn page true = some k) (within : sub32 value (s.cq k).c ≤ sub32 (s.cq k).p (s.cq k).c) :
    exec (.doorbellConsumer fn page value) s =
      .next ((s.dbWake fn).setCq k { s.cq k with c := value, stallStart := if value = (s.cq k).c then (s.cq k).stallStart else none }) := by
  show execDoorbellConsumer fn page value s = _
  simp only [execDoorbellConsumer, hb, cq_dbWake, if_pos within]

theorem exec_doorbellConsumer_overrun (hb : s.bell fn page true = some k) (beyond : sub32 (s.cq k).p (s.cq k).c < sub32 value (s.cq k).c) :
    exec (.doorbellConsumer fn page value) s =
      .next (((((s.dbWake fn).setCq k { s.cq k with state := 3, detail := 4 }).raise Fld.WQ_STATUS_OVERRUN).bump Fld.WQ_CNT_OVERRUN_COUNT).pauseFeeders k true) := by
  show execDoorbellConsumer fn page value s = _
  simp only [execDoorbellConsumer, hb, cq_dbWake, if_neg (Nat.not_le.mpr beyond)]

/-! ### Re-arms and moderation (R383, R476) -/

theorem exec_doorbellRearm (hb : s.bell fn page false = some k) (halted : (s.queue k).state = .haltedEpoch) (epoch : value % 65536 = s.fld Fld.FLT_FN_EPOCH_EPOCH fn) :
    exec (.doorbellRearm fn page value) s = .next ((s.dbWake fn).setQueue k
      { s.queue k with state := .active, c := (s.queue k).wm, ready := [], inProg := [], finished := [], batchSum := 0, staleSince := none }) := by
  show execDoorbellRearm fn page value s = _
  simp only [execDoorbellRearm, hb, halted, epoch, and_self, if_true]

theorem exec_staleRearm (hb : s.bell fn page false = some k) (stale : (s.queue k).state ≠ .haltedEpoch ∨ value % 65536 ≠ s.fld Fld.FLT_FN_EPOCH_EPOCH fn) :
    exec (.doorbellRearm fn page value) s = .next ((s.dbWake fn).bump Fld.WQ_CNT_REARM_STALE_COUNT) := by
  show execDoorbellRearm fn page value s = _
  simp only [execDoorbellRearm, hb]
  exact if_neg (by tauto)

theorem exec_cqModerationWrite (hb : s.bell fn page true = some k) : exec (.cqModerationWrite fn page value) s =
    .next (s.setCq k { s.cq k with irqEn := bitOf value 31, holdCnt := bitsOf value 27 16, holdUs := bitsOf value 15 0 }) := by
  show execCqModerationWrite fn page value s = _
  simp only [execCqModerationWrite, hb]

/-! ### Pages that name no live ring (R376) -/

theorem exec_doorbell_ignored (hb : s.bell fn page false = none) :
    exec (.doorbellProducer fn page value) s = .next s.bellIgnored ∧ exec (.doorbellRearm fn page value) s = .next s.bellIgnored := by
  constructor
  · show execDoorbellProducer fn page value s = _
    rw [execDoorbellProducer, hb]
  · show execDoorbellRearm fn page value s = _
    rw [execDoorbellRearm, hb]

theorem exec_cqDoorbell_ignored (hb : s.bell fn page true = none) :
    exec (.doorbellConsumer fn page value) s = .next s.bellIgnored ∧ exec (.cqModerationWrite fn page value) s = .next s.bellIgnored := by
  constructor
  · show execDoorbellConsumer fn page value s = _
    rw [execDoorbellConsumer, hb]
  · show execCqModerationWrite fn page value s = _
    rw [execCqModerationWrite, hb]

end

/-- Settles O31: each doorbell by its own test, accepted or not, of the ring behind its page. -/
theorem doorbellRules : Obligations.DoorbellRules := by
  unfold Obligations.DoorbellRules Gives
  refine fun fn page value k s _ => ⟨?_, ?_, ?_, ?_, ?_, ?_, ?_, ?_, exec_doorbell_ignored, exec_cqDoorbell_ignored⟩
  · rintro q hb rfl room
    exact ⟨_, exec_doorbellProducer hb room, queue_setQueue, fun j hj => (queue_setQueue_ne hj).trans queue_dbWake, dbWake_cqs⟩
  · rintro q hb rfl full gone
    have absent : (((s.dbWake fn).overrunQueue k).cq (if k ≥ 65536 then k else (s.queue k).cq)).present = false :=
      (congrArg Cq.present (cq_dbWake (s := s))).trans gone
    obtain ⟨state, flag⟩ := overrunQueue_shown (s := s.dbWake fn) (k := k)
    refine ⟨_, exec_doorbellProducer_overrun hb full, ?_, ?_⟩ <;> dsimp only <;> rw [cqPost_absent absent]
    · rw [state, queue_dbWake]
    · exact flag
  · rintro q hb rfl full
    rw [exec_doorbellProducer_overrun hb full, State.overrunQueue, queue_dbWake]
  · rintro c hb rfl within
    exact ⟨_, exec_doorbellConsumer hb within, cq_setCq, dbWake_queues⟩
  · rintro c hb rfl beyond
    exact exec_doorbellConsumer_overrun hb beyond
  · rintro q hb rfl halted epoch
    exact ⟨_, exec_doorbellRearm hb halted epoch, queue_setQueue⟩
  · rintro q hb rfl stale
    refine ⟨_, exec_staleRearm hb stale, dbWake_wq, ?_⟩
    rw [fld_bump_same (by decide), sameAt_dbWake.fld _ _ _ (by decide)]
    rfl
  · rintro c hb rfl
    exact exec_cqModerationWrite hb

end Sys2Proof.Machine
end

section
/-! PROOFS. Entries of rings, staged records, stalls, admin starts and events (R366, R379, R380, R385, R387, R390). -/

open Sys2Proof.Spec

namespace Sys2Proof.Machine

/-! ### Entries (R366, R367) -/

section
variable {s : State} {k idx at_ : Nat} {entry : Bytes}

/-- What is left of the read that brought an entry in. -/
def State.entryTaken (u : State) (k idx : Nat) : State := u.endRead (u.servingHall (u.queue k)) 0 k idx

/-- The steps of a fetch once its entry is at hand and the ring has a place for it. -/
def State.takeEntry (u : State) (k idx : Nat) (entry : Bytes) : Answer :=
  let q := u.queue k
  let v := u.entryTaken k idx
  let d := parseDesc idx entry
  let held := decide (k ≥ 65536) || q.isRq
  if leAt entry 0 1 % 2 ≠ phaseOf idx q.sizeLog2 then .next ((v.bump Fld.WQ_CNT_REFETCH_COUNT).setQueue k { q with staleSince := some (q.staleSince.getD u.now) })
  else if idx ≠ (if held then add32 q.c q.ready.length else q.c) then .next u
  else if held then
    let x := v.setQueue k { q with staleSince := none, ready := q.ready ++ [d] }
    .next (if q.isRq then x.rqSkim k 1 else x)
  else if !u.admits q then if u.inflightBlocks q then .next (u.setFn q.fn { u.fn q.fn with admitWait := add32 (u.fn q.fn).admitWait 1 }) else .next u
  else
    let w := (v.setQueue k { q with c := add32 idx 1, staleSince := none, inProg := q.inProg ++ [idx] }).setCq q.cq { u.cq q.cq with reserved := (u.cq q.cq).reserved + 1 }
    if d.opcode = 0 ∧ headerOk entry = true then .next (w.descDone k idx ⟨d.cookie, d.batchEnd, St.success, 0, 0, 0, 0, 0⟩)
    else if d.opcode = 1 ∧ headerOk entry = true then .next (w.setQueue k { w.queue k with ready := q.ready ++ [d] })
    else .next (w.descDone k idx ⟨d.cookie, d.batchEnd, St.badDescriptor, 0, 0, 0, 0, 0⟩)

theorem exec_queueEntryFetch (hand : EntryAtHand (s.atTime at_) k idx) (below : sub32 idx ((s.atTime at_).queue k).c < sub32 ((s.atTime at_).queue k).p ((s.atTime at_).queue k).c)
    (within : sub32 idx ((s.atTime at_).queue k).c < 2 ^ ((s.atTime at_).queue k).sizeLog2) :
    exec (.queueEntryFetch k idx entry at_) s = (s.atTime at_).takeEntry k idx entry := by
  show execQueueEntryFetch k idx entry at_ s = _
  unfold execQueueEntryFetch State.takeEntry State.entryTaken
  generalize s.atTime at_ = u at *
  obtain ⟨present, active, there⟩ := hand
  have served : (if k ≥ 65536 then u.aqFetches (u.queue k).fn && (u.queue k).present && (u.queue k).state == .active
      else (u.queue k).present && (u.queue k).state == .active && u.fnRuns (u.queue k).fn && u.queueServed (u.queue k)) = true ∧
      (decide (k ≥ 65536) || u.readDone (u.servingHall (u.queue k)) 0 k idx) = true := by
    by_cases admin : 65536 ≤ k
    · rw [if_pos admin] at there
      simp [present, active, there, admin]
    · rw [if_neg admin] at there
      obtain ⟨runs, served, done⟩ := there
      simp [present, active, runs, served, done, admin]
  obtain ⟨fetches, brought⟩ := served
  dsimp only
  rw [fetches, brought, decide_eq_true below, Bool.true_and, if_neg (by simp; omega)]
  by_cases phase : leAt entry 0 1 % 2 = phaseOf idx (u.queue k).sizeLog2
  · rw [beq_iff_eq.mpr phase, if_neg (by decide), if_neg (not_not.mpr phase)]
  · rw [beq_false_of_ne phase, if_pos phase]
    rfl


section
variable {u : State} {q : Queue} (hq : u.queue k = q)
include hq

/-- An admitted send queue's entry reserves a place for its record and is in progress. -/
theorem takeEntry_admitted (phase : leAt entry 0 1 % 2 = phaseOf idx q.sizeLog2) (ring : k < 65536) (send : q.isRq = false) (next : idx = q.c) (admits : u.admits q = true) :
    let d := parseDesc idx entry
    let w := ((u.endRead (u.servingHall q) 0 k idx).setQueue k { q with c := add32 idx 1, staleSince := none, inProg := q.inProg ++ [idx] }).setCq q.cq { u.cq q.cq with reserved := (u.cq q.cq).reserved + 1 }
    u.takeEntry k idx entry =
      if d.opcode = 0 ∧ headerOk entry = true then .next (w.descDone k idx ⟨d.cookie, d.batchEnd, St.success, 0, 0, 0, 0, 0⟩)
      else if d.opcode = 1 ∧ headerOk entry = true then .next (w.setQueue k { w.queue k with ready := q.ready ++ [d] })
      else .next (w.descDone k idx ⟨d.cookie, d.batchEnd, St.badDescriptor, 0, 0, 0, 0, 0⟩) := by
  subst hq
  dsimp only [State.takeEntry, State.entryTaken]
  rw [if_neg (not_not.mpr phase), send, Bool.or_false, decide_eq_false (Nat.not_le.mpr ring), admits]
  exact if_neg (not_not.mpr next)

/-- The entry of a receive queue or an AQ is held behind those held already. -/
theorem takeEntry_held (phase : leAt entry 0 1 % 2 = phaseOf idx q.sizeLog2) (next : idx = add32 q.c q.ready.length) (held : 65536 ≤ k ∨ q.isRq = true) :
    let x := (u.endRead (u.servingHall q) 0 k idx).setQueue k { q with staleSince := none, ready := q.ready ++ [parseDesc idx entry] }
    u.takeEntry k idx entry = .next (if q.isRq then x.rqSkim k 1 else x) := by
  subst hq
  have holds : (decide (k ≥ 65536) || (u.queue k).isRq) = true := by simpa using held
  dsimp only [State.takeEntry, State.entryTaken]
  rw [if_neg (not_not.mpr phase), holds, if_pos rfl, if_pos rfl, if_neg (not_not.mpr next)]

theorem takeEntry_wrongPhase (phase : leAt entry 0 1 % 2 ≠ phaseOf idx q.sizeLog2) :
    u.takeEntry k idx entry = .next (((u.endRead (u.servingHall q) 0 k idx).bump Fld.WQ_CNT_REFETCH_COUNT).setQueue k { q with staleSince := some (q.staleSince.getD u.now) }) := by
  subst hq
  exact if_pos phase

end

theorem exec_stalePhaseTimeout {t : Nat} (since : (s.queue k).staleSince = some t) (present : (s.queue k).present = true) (active : (s.queue k).state = .active)
    (late : t + s.fld Fld.WQ_CFG_PHASE_US * 1000 * 65536 < max s.now at_) :
    exec (.stalePhaseTimeout k at_) s = .next (((s.atTime at_).setQueue k { s.queue k with state := .error, detail := 3, staleSince := none }).raise Fld.WQ_STATUS_PHASE) := by
  show execStalePhaseTimeout k at_ s = _
  have hs : ((s.atTime at_).queue k).staleSince = some t := since
  simp only [execStalePhaseTimeout, hs]
  exact if_pos ⟨present, active, decide_eq_true late⟩

/-! ### Staged records and stalls (R379, R380) -/

/-- A staged record that is not the last leaves its CQ as it is, but for the record's own effect. -/
theorem drainStaged_one {r : Staged} {t : List Staged} {x : State} (staged : (s.cq k).staged = r :: t) (more : t ≠ []) (running : (s.cq k).state = 0) (space : 0 < (s.cq k).space)
    (mark : r.crec.mark = none) (nave : 18 ≤ r.hall) (written : ((s.setCq k { s.cq k with staged := t }).cqWrite State.hostWrite k r.crec).showStage r.hall = x) (after : (x.cq k).state = 0) :
    s.drainStaged k 1 = x := by
  have free : (s.cq k).state ≠ 3 ∧ 0 < (s.cq k).space := ⟨by rw [running]; decide, space⟩
  have still : ¬ (x.cq k).state = 1 := by rw [after]; decide
  rw [State.drainStaged, staged]
  dsimp only
  rw [if_pos free, if_neg (Nat.not_lt.mpr nave), written, if_neg fun h => more h.1, if_neg fun h => still h.1, mark]
  rfl

theorem exec_cqStallTimeout {t : Nat} (start : (s.cq k).stallStart = some t) (present : (s.cq k).present = true) (full : (s.cq k).state = 1)
    (late : t + s.fld Fld.WQ_CFG_CQ_STALL_MS * 1000000 * 65536 < max s.now at_) :
    let feeders := (s.wq.queues.filter (fun e => e.2.present && e.2.cq == k && (e.2.state == .active || e.2.state == .paused || e.2.state == .haltedEpoch))).map (·.1)
    let u := feeders.foldl (fun (s : State) q => s.stallQueue q k) (s.atTime at_)
    exec (.cqStallTimeout k at_) s = .next (((u.setCq k { u.cq k with stallStart := none }).raise Fld.WQ_STATUS_STALL).bump Fld.WQ_CNT_STALL_COUNT) := by
  show execCqStallTimeout k at_ s = _
  have hs : ((s.atTime at_).cq k).stallStart = some t := start
  simp only [execCqStallTimeout, hs]
  exact if_pos ⟨present, full, decide_eq_true late⟩

/-! ### Admin starts (R387) -/

theorem exec_adminCommandStart {fn : Nat} {d : Desc} {rest : List Desc} (ready : (s.queue (adminKey fn)).ready = d :: rest) (fetches : s.aqFetches fn = true)
    (room : (s.queue (adminKey fn)).inProg.length < 64) :
    let c := parseAdmin fn d.idx d.bytes
    let q := s.queue (adminKey fn)
    let v := s.setQueue (adminKey fn) { q with ready := rest, c := add32 q.c 1, inProg := q.inProg ++ [d.idx] }
    let u := { v with wq := { v.wq with inflight := v.wq.inflight ++ [c], gone := v.wq.gone.filter (· != (fn, d.idx)) } }
    exec (.adminCommandStart fn) s = .next (if opAssigned c.opcode then (match u.adminCheck c c.opcode with | some (st, dt) => u.adminFail c st dt | none => u)
      else if c.reserved ≠ 0 then u.adminFail c St.badDescriptor else u.adminFail c St.unsupported) := by
  intro c q v u
  have start : exec (.adminCommandStart fn) s = if !opAssigned c.opcode then .next (if c.reserved ≠ 0 then u.adminFail c St.badDescriptor else u.adminFail c St.unsupported)
      else match u.adminCheck c c.opcode with | some (st, dt) => .next (u.adminFail c st dt) | none => .next u := by
    show execAdminCommandStart fn s = _
    simp only [execAdminCommandStart, ready, fetches]
    exact if_neg (by simpa using room)
  rw [start]
  cases opAssigned c.opcode
  · rfl
  · cases u.adminCheck c c.opcode <;> rfl

/-! ### Events (R390, R580) -/

theorem exec_asyncEventPost {e : Event} {rest : List Event} (raised : s.wq.raised = e :: rest) :
    exec .asyncEventPost s = .next ({ s with wq := { s.wq with raised := rest } }.postEvent e) := by
  show execAsyncEventPost s = _
  simp only [execAsyncEventPost, raised]

theorem exec_eventQueueDrain_dropped {fn : Nat} (room : s.cqRoom (s.evqKey fn) = true) (dropped : (s.wq.evWait.get {} fn).dropped ≠ 0) :
    exec (.eventQueueDrain fn) s =
      .next ((s.setEvWait fn { s.wq.evWait.get {} fn with dropped := 0, bits := 0 }).cqPost (s.evqKey fn) 18 (droppedRec (s.wq.evWait.get {} fn)) false) := by
  show execEventQueueDrain fn s = _
  simp only [execEventQueueDrain, room]
  exact if_pos dropped

theorem exec_eventQueueDrain_waiting {fn : Nat} {e : Event} {rest : List Event} (room : s.cqRoom (s.evqKey fn) = true) (dropped : (s.wq.evWait.get {} fn).dropped = 0)
    (waiting : (s.wq.evWait.get {} fn).waiting = e :: rest) :
    exec (.eventQueueDrain fn) s = .next ((s.setEvWait fn { s.wq.evWait.get {} fn with waiting := rest }).cqPost (s.evqKey fn) 18 (eventRec e) false) := by
  show execEventQueueDrain fn s = _
  simp only [execEventQueueDrain, room, dropped, waiting]
  rfl

end

/-- Settles O32: an entry by what it is and whether its queue admits it, then each of the other steps by its own guard. -/
theorem queueWork : Obligations.QueueWork := by
  unfold Obligations.QueueWork Gives
  refine fun k idx fn at_ entry s => ⟨?_, ?_, rfl, ?_, ?_, ?_, ?_, ?_, ?_, ?_⟩
  · rintro u q hq hand below within v d w
    rw [exec_queueEntryFetch (entry := entry) hand (hq ▸ below) (hq ▸ within)]
    refine ⟨fun phase ring send next admits => ?_, fun phase next => ⟨fun ring send => ?_, fun ring held => ?_⟩, takeEntry_wrongPhase hq⟩
    · rw [takeEntry_admitted hq phase ring send next admits]
      refine ⟨fun nop ok => if_pos ⟨nop, ok⟩, fun work ok => ?_, fun bad => ?_⟩
      · exact (if_neg (by rw [work]; simp)).trans (if_pos ⟨work, ok⟩)
      · have other : ∀ o ≤ 1, ¬ (d.opcode = o ∧ headerOk entry = true) := fun o ho ⟨e, ok⟩ => bad.elim (by omega) (by simp [ok])
        exact (if_neg (other 0 (by omega))).trans (if_neg (other 1 (by omega)))
    · rw [takeEntry_held hq phase next (.inl ring), send]
      rfl
    · rw [takeEntry_held hq phase next (.inr held), held]
      rfl
  · rintro q t rfl since present active late
    exact ⟨_, exec_stalePhaseTimeout since present active late, queue_setQueue (s := s.atTime at_), flag_raise (by decide)⟩
  · rintro r t x staged more running space mark nave rfl after
    exact congrArg _ (drainStaged_one staged more running space mark nave rfl after)
  · rintro c t rfl start present full late
    exact exec_cqStallTimeout start present full late
  · exact fun d rest => exec_adminCommandStart
  · exact fun e rest => exec_asyncEventPost
  · exact fun x e room waiting dropped => if_pos ⟨room, waiting, dropped⟩
  · exact exec_eventQueueDrain_dropped
  · exact fun e rest => exec_eventQueueDrain_waiting

end Sys2Proof.Machine
end

section
/-! PROOFS. The admin rings (R385, R393): the writes that make them and end them. -/

open Sys2Proof.Spec

namespace Sys2Proof.Machine

section
variable {s : State} {f g : Fld} {v o i : Nat}

/-- Two fields stand in words of different registers that lie at the same strides. -/
abbrev Apart (f g : Fld) : Prop :=
  f.reg.info.oStride = g.reg.info.oStride ∧ f.reg.info.iStride = g.reg.info.iStride ∧ g.reg.info.base ≠ f.reg.info.base

/-- A write to one such word leaves the other's fields. -/
theorem fld_setFld_apart (h : Apart f g) : (s.setFld f v o i).fld g o i = s.fld g o i := by
  obtain ⟨outer, inner, base⟩ := h
  exact fld_setFld_ne s f g v o i o i (by rw [Reg.addr, Reg.addr, outer, inner]; omega)

theorem flag_setFld_apart (h : Apart f g) : (s.setFld f v o i).flag g o i = s.flag g o i := by rw [State.flag, fld_setFld_apart h, State.flag]

end

section
variable {who : Who} {fn value : Nat} {s : State} (may : s.mayWriteFn who fn = true)
include may

theorem exec_aqCfgWrite_enable (off : s.flag Fld.WQ_FN_AQ_CFG_EN fn = false) (on : bitOf value 31 = true) :
    exec (.aqCfgWrite who fn value) s = .next (
      ((s.setFld Fld.WQ_FN_AQ_CFG_SIZE_LOG2 (ringSize (s.fld Fld.WQ_FN_AQ_CFG_SIZE_LOG2 fn) value) fn).setFld Fld.WQ_FN_AQ_CFG_EN 1 fn).setQueue (adminKey fn)
        { present := true, fn := fn, sizeLog2 := ringSize (s.fld Fld.WQ_FN_AQ_CFG_SIZE_LOG2 fn) value, cq := adminKey fn, base := s.fld Fld.WQ_FN_AQ_BASE_LO_ADDR fn * 4096 + 2 ^ 32 * s.fld Fld.WQ_FN_AQ_BASE_HI_ADDR fn }) := by
  show execAqCfgWrite who fn value s = _
  simp (disch := decide) only [execAqCfgWrite, may, off, on, fld_setFld_apart]
  rfl

theorem exec_aqCfgWrite_disabled (off : s.flag Fld.WQ_FN_AQ_CFG_EN fn = false) (still : bitOf value 31 = false) :
    exec (.aqCfgWrite who fn value) s = .next (s.setFld Fld.WQ_FN_AQ_CFG_SIZE_LOG2 (ringSize (s.fld Fld.WQ_FN_AQ_CFG_SIZE_LOG2 fn) value) fn) := by
  show execAqCfgWrite who fn value s = _
  simp only [execAqCfgWrite, may, off, still]
  rfl

theorem exec_aqCfgWrite_end (on : s.flag Fld.WQ_FN_AQ_CFG_EN fn = true) (off : bitOf value 31 = false) : exec (.aqCfgWrite who fn value) s = .next (s.resetAdminRings fn) := by
  show execAqCfgWrite who fn value s = _
  simp only [execAqCfgWrite, may, on, off]
  rfl

theorem exec_acqCfgWrite_enable (off : s.flag Fld.WQ_FN_ACQ_CFG_EN fn = false) (on : bitOf value 31 = true) :
    exec (.acqCfgWrite who fn value) s = .next (
      (((s.setFld Fld.WQ_FN_ACQ_CFG_SIZE_LOG2 (ringSize (s.fld Fld.WQ_FN_ACQ_CFG_SIZE_LOG2 fn) value) fn).setFld Fld.WQ_FN_ACQ_CFG_VECTOR (bitsOf value 26 16) fn).setFld Fld.WQ_FN_ACQ_CFG_EN 1 fn).setCq (adminKey fn)
        { present := true, fn := fn, sizeLog2 := ringSize (s.fld Fld.WQ_FN_ACQ_CFG_SIZE_LOG2 fn) value, vector := bitsOf value 26 16, base := s.fld Fld.WQ_FN_ACQ_BASE_LO_ADDR fn * 4096 + 2 ^ 32 * s.fld Fld.WQ_FN_ACQ_BASE_HI_ADDR fn }) := by
  show execAcqCfgWrite who fn value s = _
  simp (disch := decide) only [execAcqCfgWrite, may, off, on, fld_setFld_apart]
  rfl

theorem exec_acqCfgWrite_disabled (off : s.flag Fld.WQ_FN_ACQ_CFG_EN fn = false) (still : bitOf value 31 = false) :
    exec (.acqCfgWrite who fn value) s = .next ((s.setFld Fld.WQ_FN_ACQ_CFG_SIZE_LOG2 (ringSize (s.fld Fld.WQ_FN_ACQ_CFG_SIZE_LOG2 fn) value) fn).setFld Fld.WQ_FN_ACQ_CFG_VECTOR (bitsOf value 26 16) fn) := by
  show execAcqCfgWrite who fn value s = _
  simp only [execAcqCfgWrite, may, off, still]
  rfl

theorem exec_acqCfgWrite_vector (on : s.flag Fld.WQ_FN_ACQ_CFG_EN fn = true) (stays : bitOf value 31 = true) :
    exec (.acqCfgWrite who fn value) s =
      .next ((s.setFld Fld.WQ_FN_ACQ_CFG_VECTOR (bitsOf value 26 16) fn).setCq (adminKey fn) { s.cq (adminKey fn) with vector := bitsOf value 26 16 }) := by
  show execAcqCfgWrite who fn value s = _
  simp only [execAcqCfgWrite, may, on, stays]
  rfl

theorem exec_acqCfgWrite_end (on : s.flag Fld.WQ_FN_ACQ_CFG_EN fn = true) (off : bitOf value 31 = false) : exec (.acqCfgWrite who fn value) s = .next (s.resetAdminRings fn) := by
  show execAcqCfgWrite who fn value s = _
  simp only [execAcqCfgWrite, may, on, off]
  rfl

end

section
variable {s : State} {f : Fld} {v o i value : Nat}

/-- A ring is put among the rings: no register changes, at any index. -/
@[simp] theorem flag_of_setQueue {k : Nat} {q : Queue} : (s.setQueue k q).flag f o i = s.flag f o i := flag_congr s f o i (setQueue_regs s k q)
@[simp] theorem fld_of_setCq {k : Nat} {c : Cq} : (s.setCq k c).fld f o i = s.fld f o i := fld_congr s f o i (setCq_regs s k c)
@[simp] theorem flag_of_setCq {k : Nat} {c : Cq} : (s.setCq k c).flag f o i = s.flag f o i := flag_congr s f o i (setCq_regs s k c)

theorem fld_setFld_fits (hf : f.InWord) (hv : v < 2 ^ (f.hi + 1 - f.lo)) : (s.setFld f v o i).fld f o i = v := by rw [fld_setFld_same hf, Nat.mod_eq_of_lt hv]

theorem flag_setFld_one (hf : f.InWord) : (s.setFld f 1 o i).flag f o i = true := flag_setFld_b2n (b := true) hf
theorem flag_setFld_clear (hf : f.InWord) : (s.setFld f 0 o i).flag f o i = false := flag_setFld_b2n (b := false) hf

/-- A ring's size has a place in its register. -/
theorem ringSize_lt {old : Nat} (h : old < 32) : ringSize old value < 32 := by
  unfold ringSize
  dsimp only
  split
  · exact Nat.mod_lt _ (by decide)
  · exact h

/-- Both admin rings of a function are gone after a reset of them (R385). -/
theorem resetAdminRings_shown (s : State) (fn : Nat) : (s.resetAdminRings fn).queue (adminKey fn) = {} ∧ (s.resetAdminRings fn).cq (adminKey fn) = {} ∧
    (s.resetAdminRings fn).flag Fld.WQ_FN_AQ_CFG_EN fn = false ∧ (s.resetAdminRings fn).flag Fld.WQ_FN_ACQ_CFG_EN fn = false :=
  ⟨Tbl.get_put_same .., cq_setCq, (flag_setFld_apart (by decide)).trans (flag_setFld_clear (by decide)), flag_setFld_clear (by decide)⟩

end

/-- Settles O33: each write by whether its ring is enabled and whether the write enables it. -/
theorem adminRingWrites : Obligations.AdminRingWrites := by
  unfold Obligations.AdminRingWrites Gives
  refine fun who fn value s _ may => ⟨fun off on => ?_, fun off on => ?_, fun on stays => ?_, fun off still => ?_, fun off still => ?_, fun off => ?_, resetAdminRings_shown s fn⟩
  · refine ⟨_, exec_aqCfgWrite_enable may off on, ?_, queue_setQueue⟩
    rw [flag_of_setQueue, flag_setFld_one (by decide)]
  · refine ⟨_, exec_acqCfgWrite_enable may off on, ?_, ?_, cq_setCq⟩
    · rw [flag_of_setCq, flag_setFld_one (by decide)]
    · rw [fld_of_setCq, fld_setFld_beside (by decide)]
      exact fld_setFld_fits (by decide) (bitsOf_lt ..)
  · exact ⟨_, exec_acqCfgWrite_vector may on stays, cq_setCq, rfl⟩
  · refine ⟨_, exec_aqCfgWrite_disabled may off still, ?_, rfl, ?_⟩
    · rw [flag_setFld_beside (by decide), off]
    · exact fld_setFld_fits (by decide) (ringSize_lt (fld_lt _))
  · refine ⟨_, exec_acqCfgWrite_disabled may off still, ?_, rfl, ?_⟩
    · rw [flag_setFld_beside (by decide), flag_setFld_beside (by decide), off]
    · exact fld_setFld_fits (by decide) (bitsOf_lt ..)
  · exact ⟨fun on => exec_aqCfgWrite_end may on off, fun on => exec_acqCfgWrite_end may on off⟩

end Sys2Proof.Machine
end

section
/-! PROOFS. Ring commands (R360 to R362, R388, R389): what an accepted command makes, ends, tells or resets. -/

open Sys2Proof.Spec

namespace Sys2Proof.Machine

section
variable {d : AdminCmd} {s t : State} {op k : Nat}

/-! ### Commands on a ring (R389) -/

/-- A command that is accepted and names a queue it has the authority over acts on that queue. -/
theorem next_queueFor {f : State → Nat → State} (ha : Accepted s d op) (named : NamesQueue s d k) (hk : f s k = t) :
    (.next (s.admin d op fun u => u.queueFor d true (f u)) : Answer) = .next t := by
  obtain ⟨key, present, may⟩ := named
  refine next_admin ha ?_
  simp only [State.queueFor, key, present, may, true_and, hk]
  rfl

/-- A command that is accepted and names a CQ of its function acts on that CQ. -/
theorem next_cqFor {f : State → Nat → State} (ha : Accepted s d op) (named : NamesCq s d k) (hk : f s k = t) :
    (.next (s.admin d op fun u => u.cqFor d (f u)) : Answer) = .next t := by
  obtain ⟨key, present, own⟩ := named
  refine next_admin ha ?_
  simp [State.cqFor, key, present, own, hk]

theorem exec_queueDestroy (ha : Accepted s d 0x02) (named : NamesQueue s d k) (ring : k < 65536) (unbound : s.queueBound k = false) (kept : (s.queue k).state ≠ .destroying) :
    exec (.queueDestroy d) s = .next
      ((s.setQueue k { s.queue k with state := .destroying, destroyCmd := some d, ready := (s.queue k).ready.filter (fun e => (s.queue k).inProg.contains e.idx) }).finishDestroy k) :=
  next_queueFor ha named ((if_neg (by omega)).trans ((if_neg (by simp [unbound])).trans (if_neg kept)))

theorem exec_cqDestroy (ha : Accepted s d 0x04) (named : NamesCq s d k) (ring : k < 65536) (unused : s.wq.queues.any (fun e => e.2.present && e.2.cq == k) = false)
    (events : s.fld Fld.WQ_FN_EVQ_HANDLE d.fn ≠ s.handle 2 k) :
    let u := (s.setCq k {}).nextGen 2 k
    let v := { u with wq := { u.wq with pages := u.wq.pages.filter (fun e => !(e.2 == (k, true))) } }
    exec (.cqDestroy d) s = .next ((v.setFld Fld.WQ_QUEUES_CQS (v.fld Fld.WQ_QUEUES_CQS - 1)).adminOk d) :=
  next_cqFor ha named ((if_neg (by omega)).trans (if_neg (by simp only [unused, events, Bool.false_eq_true, or_self, not_false_eq_true])))

/-! ### Creation (R361 to R364, R388) -/

theorem exec_cqCreate {pg : Nat} (ha : Accepted s d 0x03) (least : 4 ≤ d.p 0 % 32) (most : d.p 0 % 32 ≤ 16) (page : d.p64 2 % 4096 = 0) (vector : bitsOf (d.p 0) 26 16 < vectorLimit d.fn)
    (share : s.isOwner d.fn = true ∨ s.cqsOf d.fn < s.shareAt d.fn 6 2) (free : s.freeIndex true 1 65535 = some k) (door : s.freePage d.fn 2 (pageLimit d.fn) = some pg) :
    let t := ((s.setCq k { present := true, fn := d.fn, base := d.p64 2, sizeLog2 := d.p 0 % 32, vector := bitsOf (d.p 0) 26 16 }).setPage d.fn pg k true).setFld Fld.WQ_QUEUES_CQS (s.fld Fld.WQ_QUEUES_CQS + 1)
    exec (.cqCreate d) s = .next (t.adminOk d (t.handle 2 k + 2 ^ 32 * pg)) := by
  have formed : ¬ (d.p 0 % 32 < 4 ∨ 16 < d.p 0 % 32 ∨ d.p64 2 % 4096 ≠ 0 ∨ vectorLimit d.fn ≤ bitsOf (d.p 0) 26 16) := by omega
  have within : ¬ ((!s.isOwner d.fn) = true ∧ s.shareAt d.fn 6 2 ≤ s.cqsOf d.fn) := by
    rintro ⟨other, full⟩
    simp only [Bool.not_eq_true'] at other
    exact share.elim (by simp [other]) (by omega)
  refine next_admin ha ((if_neg formed).trans ((if_neg within).trans ?_))
  rw [free, door]
  rfl

/-- The ring that the parameters of a create ask for (R361). -/
def asksQueue (d : AdminCmd) (cqk : Nat) : Queue :=
  { present := true, isRq := d.p 0 % 4 == 1, kind := bitsOf (d.p 0) 5 2, batch := bitOf (d.p 0) 6, stopOnErr := bitOf (d.p 0) 7, sizeLog2 := bitsOf (d.p 0) 12 8, hall := bitsOf (d.p 0) 23 16,
    ch := bitsOf (d.p 0) 29 24, cq := cqk, base := d.p64 2, vport := d.p 4 % 8192, owner := if d.p 0 % 4 == 1 && bitsOf (d.p 0) 5 2 == 1 then d.p 5 else 0, loc := d.p 6 % 4, locIdx := bitsOf (d.p 6) 7 4, fn := d.fn }

theorem exec_queueCreate {pg cqk : Nat} {pool : Bool} (hpool : (d.p 0 % 4 == 1 && bitsOf (d.p 0) 5 2 == 1) = pool) (ha : Accepted s d 0x01) (ty : d.p 0 % 4 < 2) (kind : bitsOf (d.p 0) 5 2 < 4)
    (rq : d.p 0 % 4 = 1 → bitsOf (d.p 0) 5 2 < 2 ∧ bitOf (d.p 0) 6 = false)
    (place : pool = true → d.p 6 % 4 ≠ 3 ∧ ¬ (d.p 6 % 4 = 1 ∧ 4 ≤ bitsOf (d.p 6) 7 4) ∧ ¬ (d.p 6 % 4 = 2 ∧ 8 ≤ bitsOf (d.p 6) 7 4))
    (dma : d.p 0 % 4 = 0 → bitsOf (d.p 0) 5 2 = 2 → s.isOwner d.fn = true) (least : 4 ≤ bitsOf (d.p 0) 12 8) (most : bitsOf (d.p 0) 12 8 ≤ 16) (page : d.p64 2 % 4096 = 0)
    (hall : bitsOf (d.p 0) 23 16 = 0xFF ∨ bitsOf (d.p 0) 23 16 < 16) (cq : s.ringKey 2 (d.p 1) d.fn = some cqk) (there : (s.cq cqk).present = true) (own : (s.cq cqk).fn = d.fn)
    (buffers : pool = true → (s.ownerIdx (d.p 5)).isSome = true ∧ (s.isOwner d.fn = true ∨ s.bpm.owners.any (fun e => some e.1 == s.ownerIdx (d.p 5) && e.2.fn == d.fn) = true))
    (share : s.isOwner d.fn = true ∨ s.queuesOf d.fn < s.shareAt d.fn 4 2) (free : s.freeIndex false 1 65535 = some k) (door : s.freePage d.fn 2 (pageLimit d.fn) = some pg) :
    let t := ((s.setQueue k (asksQueue d cqk)).setPage d.fn pg k false).setFld Fld.WQ_QUEUES_QUEUES (s.fld Fld.WQ_QUEUES_QUEUES + 1)
    exec (.queueCreate d) s = .next (t.adminOk d (t.handle 1 k + 2 ^ 32 * pg)) := by
  refine next_admin ha ?_
  dsimp only
  rw [hpool]
  have typed : ¬ (2 ≤ d.p 0 % 4 ∨ (d.p 0 % 4 == 1) = true ∧ 2 ≤ bitsOf (d.p 0) 5 2 ∨ 4 ≤ bitsOf (d.p 0) 5 2 ∨ pool = true ∧ d.p 6 % 4 = 3) := by
    rintro (h | ⟨h, two⟩ | h | ⟨h, three⟩)
    · omega
    · have := rq (beq_iff_eq.mp h); omega
    · omega
    · exact (place h).1 three
  have permitted : ¬ ((!(d.p 0 % 4 == 1)) = true ∧ bitsOf (d.p 0) 5 2 = 2 ∧ (!s.isOwner d.fn) = true) := by
    rintro ⟨send, two, other⟩
    have zero : d.p 0 % 4 = 0 := by simp at send; omega
    simp [dma zero two] at other
  have formed : ¬ (bitsOf (d.p 0) 12 8 < 4 ∨ 16 < bitsOf (d.p 0) 12 8 ∨ (d.p 0 % 4 == 1) = true ∧ bitOf (d.p 0) 6 = true ∨ d.p64 2 % 4096 ≠ 0 ∨
      (!decide (bitsOf (d.p 0) 23 16 = 0xFF ∨ bitsOf (d.p 0) 23 16 < 16)) = true ∨ pool = true ∧ (d.p 6 % 4 = 1 ∧ 4 ≤ bitsOf (d.p 6) 7 4 ∨ d.p 6 % 4 = 2 ∧ 8 ≤ bitsOf (d.p 6) 7 4)) := by
    rintro (h | h | ⟨h, batch⟩ | h | h | ⟨h, inst⟩)
    · omega
    · omega
    · simp [(rq (beq_iff_eq.mp h)).2] at batch
    · exact h page
    · simp [hall] at h
    · obtain ⟨_, no1, no2⟩ := place h; exact inst.elim no1 no2
  have owned : ¬ (pool = true ∧ (s.ownerIdx (d.p 5)).isNone = true) := fun ⟨h, none_⟩ => by
    have some_ := (buffers h).1
    cases hs : s.ownerIdx (d.p 5) <;> simp [hs] at some_ none_
  have may : ¬ (pool = true ∧ (!s.isOwner d.fn) = true ∧ (!s.bpm.owners.any (fun e => some e.1 == s.ownerIdx (d.p 5) && e.2.fn == d.fn)) = true) := by
    rintro ⟨h, other, none_⟩
    simp only [Bool.not_eq_true'] at other none_
    exact (buffers h).2.elim (by simp [other]) (by simp only [none_, Bool.false_eq_true, imp_self])
  have within : ¬ ((!s.isOwner d.fn) = true ∧ s.shareAt d.fn 4 2 ≤ s.queuesOf d.fn) := by
    rintro ⟨other, full⟩
    simp only [Bool.not_eq_true'] at other
    exact share.elim (by simp [other]) (by omega)
  rw [if_neg typed, if_neg permitted, if_neg formed, cq]
  dsimp only
  rw [there, own, if_neg (by decide), if_neg (by simp), if_neg owned, if_neg may, if_neg within, free, door]
  subst hpool
  rfl

/-! ### Queries and resets (R382, R388) -/

theorem exec_queueQuery (ha : Accepted s d 0x05) (named : NamesQueue s d k) (ring : d.p 0 / 2 ^ 28 ≠ 2) :
    let q := s.queue k
    exec (.queueQuery d) s = .next ((s.adminOut d (queueQuery q.p q.c q.wm q.state.code q.detail q.sizeLog2 (if 65536 ≤ k then 0xFE else q.hall) (if 65536 ≤ q.cq then 0x20010000 else s.handle 2 q.cq))).adminOk d) := by
  obtain ⟨key, present, may⟩ := named
  refine next_admin ha ((if_neg ring).trans ?_)
  simp only [State.queueFor, key, present, may, true_and]
  rfl

theorem exec_queueQuery_cq (ha : Accepted s d 0x05) (key : s.ringKey 2 (d.p 0) d.fn = some k) (ring : d.p 0 / 2 ^ 28 = 2) (present : (s.cq k).present = true)
    (may : (s.cq k).fn = d.fn ∨ s.isOwner d.fn = true) :
    let c := s.cq k
    exec (.queueQuery d) s = .next ((s.adminOut d (queueQuery c.p c.c 0 c.state c.detail c.sizeLog2 0xFE (d.p 0))).adminOk d) := by
  have permitted : ¬ ((s.cq k).fn ≠ d.fn ∧ (!s.isOwner d.fn) = true) := by
    rintro ⟨other, none_⟩
    exact may.elim other (by simp_all)
  refine next_admin ha ((if_pos ring).trans ?_)
  rw [key]
  dsimp only
  rw [present, if_neg (by decide), if_neg permitted]

/-! ### Events and hand-offs (R119, R388, R390) -/

theorem exec_evqSet (ha : Accepted s d 0x07) (named : d.p 0 = 0x20010000 ∨ ∃ k, NamesCq s d k) :
    exec (.evqSet d) s = .next ((s.setFld Fld.WQ_FN_EVQ_HANDLE (d.p 0) d.fn).adminOk d) := by
  refine next_admin ha ?_
  by_cases admin : d.p 0 = 0x20010000
  · rw [if_pos admin, admin]
  · obtain ⟨k, key, present, own⟩ := named.resolve_left admin
    rw [if_neg admin]
    simp [State.cqFor, key, present, own]

theorem exec_handoffBind {o : Nat} (ha : Accepted s d 0x08) (hall : d.p 0 % 256 < 16) (mapped : s.flag Fld.TSQ_MAP_VALID 0 (d.p 0 % 256) = true) (owner : s.ownerIdx (d.p 1) = some o)
    (key : s.ringKey 1 (d.p 2) d.fn = some k) (ring : k < 65536) (present : (s.queue k).present = true) (rq : (s.queue k).isRq = true) (kind : (s.queue k).kind = 1) :
    exec (.handoffBind d) s = .next { s with handoffPending := s.handoffPending ++ [(d, some (d.p 1, k))] } := by
  refine next_admin ha ?_
  simp only [hall, mapped, owner, key, present, rq, kind, Nat.not_le.mpr ring]
  rfl

theorem exec_handoffUnbind (ha : Accepted s d 0x09) (hall : d.p 0 % 256 < 16) (mapped : s.flag Fld.TSQ_MAP_VALID 0 (d.p 0 % 256) = true) :
    exec (.handoffUnbind d) s = .next { s with handoffPending := s.handoffPending ++ [(d, none)] } := by
  refine next_admin ha ?_
  simp only [hall, mapped]
  rfl

end

/-- Settles O34: each accepted command by the checks its parameters pass. -/
theorem ringCommands : Obligations.RingCommands := by
  unfold Obligations.RingCommands Gives
  refine fun d s => ⟨fun ha => next_admin ha rfl, ?_, fun k => exec_queueDestroy, fun k pg => exec_cqCreate, fun k => exec_cqDestroy, fun k => exec_queueQuery, fun k => exec_queueQuery_cq,
    fun k ha named => next_queueFor ha named rfl, exec_evqSet, fun o k => exec_handoffBind, exec_handoffUnbind⟩
  exact fun pg k cqk => exec_queueCreate rfl

end Sys2Proof.Machine
end

section
/-! PROOFS. Interrupts of the host (R409, R475 to R477) and of the management cores (R465 to R473). -/

open Sys2Proof.Spec

namespace Sys2Proof.Machine

section
variable {s x : State} {f v k g core at_ : Nat}

@[simp] theorem fn_setFn {t : FnSt} : (s.setFn f t).fn f = t := Tbl.get_put_same ..
@[simp] theorem mcore_setMcore {c : MCore} : (s.setMcore k c).mcore k = c := Tbl.get_put_same ..

/-- The cores are read from the interrupt controller alone, which showing one leaves as it is. -/
theorem mcore_congr {t : State} (h : t.sic.cores = s.sic.cores) : t.mcore k = s.mcore k := by rw [State.mcore, h, State.mcore]
@[simp] theorem showCore_sic : (s.showCore k).sic = s.sic := rfl
@[simp] theorem mcore_showCore {j : Nat} : (s.showCore k).mcore j = s.mcore j := rfl

/-- An instant that Device Time has passed. -/
theorem expired_atTime {e : Nat} (past : e < max s.now at_) : (s.atTime at_).expired e = true := decide_eq_true past

/-! ### Host vectors (R409, R475 to R477) -/

theorem exec_interruptDue {fn vec : Nat} {rest : List (Nat × Nat)} (due : s.wq.dueIrqs = (fn, vec) :: rest) :
    exec .interruptDue s = .next ({ s with wq := { s.wq with dueIrqs := rest } }.irq fn vec) := by
  show execInterruptDue s = _
  simp only [execInterruptDue, due]

theorem exec_cqHoldExpiry (holding : (s.cq k).holding = true) (past : (s.cq k).holdStart + (s.cq k).holdUs * 1000 * 65536 < max s.now at_) :
    exec (.cqHoldExpiry k at_) s = .next (((s.atTime at_).setCq k { s.cq k with holding := false, holdSeen := 0 }).irqDue (s.cq k).fn (s.cq k).vector) :=
  if_pos ⟨holding, expired_atTime past⟩

/-- A gap that ends: what it held back goes, if the conditions hold. -/
theorem exec_vectorGapEnd {e : Nat} (gap : look (s.fn f).gaps v = some e) (past : e < max s.now at_) :
    let u := (s.atTime at_).setFn f { s.fn f with gaps := (s.fn f).gaps.del v }
    exec (.vectorGapEnd f v at_) s = .next (if (s.fn f).pba.contains v && s.inD0 f && (s.fn f).vstate == 0 && s.msixOpen f v then u.sendMsix f v else u) := by
  intro u
  have running : look ((s.atTime at_).fn f).gaps v = some e := gap
  have opened : u.msixOpen f v = s.msixOpen f v := by rw [State.msixOpen, fn_setFn, State.msixOpen]
  show execVectorGapEnd f v at_ s = _
  simp only [execVectorGapEnd, running]
  rw [if_pos (expired_atTime past), ← opened]
  rfl

theorem irq_sent (vec : v < vectorLimit f) (d0 : x.inD0 f = true) (runs : (x.fn f).vstate = 0) (gap : x.gapRuns f v = false) (opened : x.msixOpen f v = true) : x.irq f v = x.sendMsix f v := by
  simp [State.irq, vec, d0, runs, gap, opened]

theorem irq_held (vec : v < vectorLimit f) (d0 : x.inD0 f = true) (closed : (x.fn f).vstate ≠ 0 ∨ x.gapRuns f v = true ∨ x.msixOpen f v = false) : x.irq f v = x.setPba f v := by
  unfold State.irq
  rw [if_neg (by omega), if_neg (by simp [d0]), if_pos (by simpa using closed)]

/-! ### Arbitration (R467 to R472) -/

/-- A core to which a source is delivered has it on top of its stack. -/
theorem deliver_stack {n pc : Nat} : ((x.deliver n k pc).mcore k).stack = (n, x.prio n) :: (x.mcore k).stack := by
  unfold State.deliver
  extract_lets c vbase c1 c2 g l s1 sic s2 s3
  have stack : c2.stack = (n, x.prio n) :: (x.mcore k).stack := by unfold c2; split <;> rfl
  have shown : s1.mcore k = c2 := mcore_showCore.trans mcore_setMcore
  have edges : s2.sic.cores = s1.sic.cores := by unfold s2; split <;> rfl
  have counted : s3.sic.cores = s1.sic.cores := (congrArg SicSt.cores (bump_sic ..)).trans edges
  have lulls (u : State) (hl : Lull) : ((u.setLull g hl).raise Fld.SIC_GROUP_LULL_LULLING 0 g).sic.cores = u.sic.cores := by
    rw [raise_sic]
    rfl
  rw [← stack, ← shown, ← mcore_congr counted]
  split
  · rfl
  · rw [mcore_congr (lulls ..)]

theorem arbitrate_one {accepts n c : Nat} {pcs : List Nat} (calm : x.lulled n = false) (best : ((List.range 8).filter (fun j => x.eligible accepts n j)).foldl (betterCore x) none = some c) :
    State.arbitrate accepts pcs [n] [] x = x.deliver n c (pcs.getD c 0) := by
  simp only [State.arbitrate, calm, List.contains_nil, Bool.not_false, Bool.true_and, best, Bool.false_eq_true, if_false]

theorem exec_lullExpiry {accepts t : Nat} {pcs : List Nat} (lull : (s.lull g).expiry = some t) (past : t < max s.now at_) (runs : s.flag Fld.CALM_STATE_STANDBY = false) :
    let u := ((s.atTime at_).setLull g {}).setFld Fld.SIC_GROUP_LULL_LULLING 0 0 g
    exec (.lullExpiry g at_ accepts pcs) s = .next (State.arbitrate accepts pcs u.candidates [] u) := by
  have running : ((s.atTime at_).lull g).expiry = some t := lull
  show execLullExpiry g at_ accepts pcs s = _
  simp only [execLullExpiry, running]
  exact if_pos ⟨expired_atTime past, by rw [flag_atTime, runs]; rfl⟩

/-! ### What software writes (R465, R470, R473) -/

section
variable {who : Who} {w value : Nat} (may : s.mayWrite who = true)
include may

theorem exec_sicCoreComplete (held : (s.mcore core).stack.any (fun t => t.1 == value % 2048) = true) :
    exec (.sicCoreComplete who core value) s = .next ((s.setMcore core { s.mcore core with stack := (s.mcore core).stack.filter (fun t => t.1 != value % 2048) }).showCore core) :=
  (if_neg (by simp [may])).trans (if_pos held)

theorem exec_sicCoreComplete_spurious (absent : (s.mcore core).stack.any (fun t => t.1 == value % 2048) = false) :
    exec (.sicCoreComplete who core value) s = .next ((s.bump Fld.SIC_CNT_SPURIOUS_COUNT 0 core).raise Fld.SIC_FLAGS_SPURIOUS) :=
  (if_neg (by simp [may])).trans (if_neg (by simp only [absent, Bool.false_eq_true, not_false_eq_true]))

theorem exec_sicSgi (idle : s.sic.edge.contains (96 + value % 32) = false) :
    exec (.sicSgi who value) s = .next { s with sic := { s.sic with edge := s.sic.edge ++ [96 + value % 32] } } :=
  (if_neg (by simp [may])).trans (congrArg _ (if_neg (by simp only [idle, Bool.false_eq_true, not_false_eq_true])))

theorem exec_sicCoreFlush : exec (.sicCoreFlush who core) s = .next (
    let u := (s.setMcore core { s.mcore core with stack := [] }).showCore core
    { u with sic := { u.sic with edge := u.sic.edge ++ (((s.mcore core).stack.map (fun t => t.1)).filter (fun n => isEdge n && !u.sic.edge.contains n)) } }) :=
  if_neg (by simp [may])

theorem exec_sicSrcPendClear :
    exec (.sicSrcPendClear who w value) s = .next { s with sic := { s.sic with edge := s.sic.edge.filter (fun n => !(n / 32 == w && bitOf value (n % 32))) } } :=
  if_neg (by simp [may])

end

/-- The edge sources of a flushed stack are pending. -/
theorem flush_pends {old : List Nat} {stack : List (Nat × Nat)} {e : Nat × Nat} (he : e ∈ stack) (edge : isEdge e.1 = true) :
    (old ++ ((stack.map (fun t => t.1)).filter (fun n => isEdge n && !old.contains n))).contains e.1 = true := by
  by_cases pending : e.1 ∈ old
  · simp [pending]
  · have onStack : ∃ b, (e.1, b) ∈ stack := ⟨e.2, he⟩
    simp [pending, edge, onStack]

theorem contains_filter (l : List Nat) (p : Nat → Bool) (n : Nat) : (l.filter p).contains n = (l.contains n && p n) := by
  rw [Bool.eq_iff_iff]
  simp

end

/-- Settles O35: each event by its own guard, the arbitration by its one source, and the writes by what they name. -/
theorem interruptCommands : Obligations.InterruptCommands := by
  unfold Obligations.InterruptCommands Gives
  refine fun k f v g core value w at_ accepts pcs who s => ⟨fun fn vec rest => exec_interruptDue, fun holding past => ⟨_, exec_cqHoldExpiry holding past, ?_, ?_, rfl⟩, fun e gap past quiet => ?_,
    fun e gap past pends d0 runs opened => ?_, fun x => ⟨irq_sent, irq_held⟩, fun runs => if_neg (by simp [runs]), fun x n c calm best => ⟨arbitrate_one calm best, deliver_stack⟩,
    fun stopped => if_pos stopped, fun may held => ⟨_, exec_sicCoreComplete may held, ?_⟩, fun may absent => ⟨_, exec_sicCoreComplete_spurious may absent, rfl, flag_raise (by decide)⟩,
    fun may idle => ⟨_, exec_sicSgi may idle, rfl, rfl⟩, fun may => ⟨_, exec_sicCoreFlush may, ?_, fun e he edge => flush_pends he edge⟩,
    fun may => ⟨_, exec_sicSrcPendClear may, fun n => contains_filter .., rfl⟩, fun t => exec_lullExpiry⟩
  · exact congrArg Cq.holding (cq_setCq (s := s.atTime at_))
  · exact congrArg Cq.holdSeen (cq_setCq (s := s.atTime at_))
  · refine ⟨_, exec_vectorGapEnd gap past, ?_⟩
    rw [quiet]
    exact ⟨congrArg FnSt.gaps fn_setFn, rfl⟩
  · rw [exec_vectorGapEnd gap past, pends, d0, runs, opened]
    rfl
  · rw [mcore_showCore, mcore_setMcore]
  · exact congrArg MCore.stack ((mcore_showCore (k := core)).trans mcore_setMcore)

end Sys2Proof.Machine
end

section
/-! PROOFS. Power states of functions, drains and link states (R409 to R414, R436). -/

open Sys2Proof.Spec

namespace Sys2Proof.Machine

section
variable {s t u : State} {f p v at_ : Nat}

theorem addr_portStatus : Reg.addr .EP_PORT_STATUS 0 p = 0x1000080 + 0 * 0 + 4 * p := rfl
theorem addr_fnState : Reg.addr .EP_FN_STATE f 0 = 0x30009808 + 0x10000 * f + 0 * 0 := rfl

/-- The register of a port's status lies outside the windows. -/
theorem portStatus_low (hp : p < 8) {g : Fld} (hg : g.reg = .EP_PORT_STATUS) : g.reg.addr 0 p < 0x10000000 := by rw [hg, addr_portStatus]; omega

/-- The register of a function's state lies in its window. -/
theorem fnState_window {g : Fld} (hg : g.reg = .EP_FN_STATE) : InWindow (g.reg.addr f 0) := by rw [hg, addr_fnState, InWindow]; omega

theorem portOf_lt (hf : f < 8192) : portOf f < 8 := by unfold portOf; omega

@[simp] theorem hp_setHp {h : HpSt} : (s.setHp p h).hp p = h := Tbl.get_put_same ..

/-- Functions are read from the endpoint alone. -/
theorem fn_congr (h : t.ep = s.ep) : t.fn f = s.fn f := by rw [State.fn, h, State.fn]

@[simp] theorem fn_atTime : (s.atTime at_).fn f = s.fn f := rfl
@[simp] theorem inProgress_atTime : (s.atTime at_).inProgress f = s.inProgress f := rfl

/-! ### D3hot and D0 (R410, R411) -/

/-- A function shows D3hot, and drains what it has in progress. -/
def State.enterD3 (u : State) (f : Nat) : State :=
  ((u.setFld Fld.EP_FN_STATE_DSTATE 3 f).setFn f { u.fn f with drain := if u.inProgress f = 0 then none else some u.newDrain }).setFld
    Fld.EP_FN_STATE_DRAINING (if u.inProgress f = 0 then 0 else 1) f

/-- The port shows it, and enters L1 when it was the last function in D0 (R413). -/
def State.showD3 (v : State) (f : Nat) : State :=
  let w := if isPf f then (v.raise Fld.EP_PORT_STATUS_PF_D3 0 (portOf f)).raise Fld.EP_PORT_STATUS_PLANNED_BLOCKED 0 (portOf f) else v
  if (w.portFns (portOf f)).all (fun g => !w.inD0 g) ∧ w.fld Fld.EP_PORT_STATUS_LSTATE 0 (portOf f) = 1 then w.setFld Fld.EP_PORT_STATUS_LSTATE 2 0 (portOf f) else w

theorem exec_powerstateD3hot (d0 : s.inD0 f = true) (there : s.fnExists f = true) : exec (.powerstateD3hot f at_) s = .next (((s.atTime at_).enterD3 f).showD3 f) := by
  have goes : ¬ ((!(s.atTime at_).inD0 f) = true ∨ (!(s.atTime at_).fnExists f) = true) := by
    show ¬ ((!s.inD0 f) = true ∨ (!s.fnExists f) = true)
    simp [d0, there]
  exact if_neg goes

theorem Regless.showD3 {α : Type} {π : State → α} (hπ : Regless π) : π (u.showD3 f) = π u := by
  unfold State.showD3
  extract_lets w
  have shown : π w = π u := by
    unfold w
    split
    · exact (hπ ..).trans (hπ ..)
    · rfl
  split
  · exact (hπ ..).trans shown
  · exact shown

theorem sameAt_showD3 (hf : f < 8192) : SameAt InWindow u (u.showD3 f) := by
  have low {g : Fld} (hg : g.reg = .EP_PORT_STATUS) : g.reg.addr 0 (portOf f) < 0x10000000 := portStatus_low (portOf_lt hf) hg
  unfold State.showD3
  extract_lets w
  have shown : SameAt InWindow u w := .ite (.raise (.raise (.refl u) (low rfl)) (low rfl)) (.refl u)
  exact .ite (shown.low (low rfl)) shown

/-- The physical function's power state shows at its port, where it blocks planned bursts (R414). -/
theorem showD3_pf (pf : f % 1024 = 0) : (u.showD3 f).flag Fld.EP_PORT_STATUS_PF_D3 0 (portOf f) = true ∧ (u.showD3 f).flag Fld.EP_PORT_STATUS_PLANNED_BLOCKED 0 (portOf f) = true := by
  have raised (w : State) (g : Fld) (hg : g.InWord) : (w.raise g 0 (portOf f)).flag g 0 (portOf f) = true := flag_setFld_one hg
  unfold State.showD3
  rw [if_pos (show isPf f = true from beq_iff_eq.mpr pf)]
  extract_lets w
  have shown : w.flag Fld.EP_PORT_STATUS_PF_D3 0 (portOf f) = true ∧ w.flag Fld.EP_PORT_STATUS_PLANNED_BLOCKED 0 (portOf f) = true :=
    ⟨(flag_setFld_beside (by decide)).trans (raised _ _ (by decide)), raised _ _ (by decide)⟩
  split
  · exact ⟨(flag_setFld_beside (by decide)).trans shown.1, (flag_setFld_beside (by decide)).trans shown.2⟩
  · exact shown

/-- What a message leaves: registers, rings, and all of the function but its pending bits and gaps. -/
@[simp] theorem emit_wq {x : Out} : (s.emit x).wq = s.wq := by unfold State.emit; split <;> rfl
@[simp] theorem fn_emit {x : Out} {g : Nat} : (s.emit x).fn g = s.fn g := by unfold State.emit; split <;> rfl

theorem sendMsix_regs : (s.sendMsix f v).regs = s.regs := emit_regs ..
theorem sendMsix_wq : (s.sendMsix f v).wq = s.wq := emit_wq
theorem sendMsix_fn {α : Type} {g : FnSt → α} (hg : ∀ t b e, g { t with pba := b, gaps := e } = g t) : g ((s.sendMsix f v).fn f) = g (s.fn f) := by
  rw [State.sendMsix]
  rw [fn_emit, fn_setFn, hg]

/-- What no message of a function changes, sending all that is pending leaves. -/
theorem sendPending_keeps {α : Type} {π : State → α} (hπ : ∀ (w : State) v, π (w.sendMsix f v) = π w) : π (s.sendPending f) = π s := by
  unfold State.sendPending
  split
  · rfl
  · refine List.foldlRecOn (motive := fun w => π w = π s) _ _ rfl fun w hw v _ => ?_
    split
    · exact (hπ ..).trans hw
    · exact hw

theorem sendPending_regs : (s.sendPending f).regs = s.regs := sendPending_keeps fun _ _ => sendMsix_regs
theorem sendPending_wq : (s.sendPending f).wq = s.wq := sendPending_keeps fun _ _ => sendMsix_wq
theorem sendPending_fn {α : Type} {g : FnSt → α} (hg : ∀ t b e, g { t with pba := b, gaps := e } = g t) : g ((s.sendPending f).fn f) = g (s.fn f) :=
  sendPending_keeps (π := fun w => g (w.fn f)) fun _ _ => sendMsix_fn hg

/-- A function shows D0 again, its drain given up. -/
def State.enterD0 (s : State) (f : Nat) : State :=
  ((s.setFld Fld.EP_FN_STATE_DSTATE 0 f).setFld Fld.EP_FN_STATE_DRAINING 0 f).setFn f { s.fn f with drain := none }

theorem exec_powerstateD0 (low : s.inD0 f = false) (warm : s.flag Fld.EP_FN_STATE_D3COLD f = false) :
    exec (.powerstateD0 f) s = .next ((if isPf f then ((s.enterD0 f).setFld Fld.EP_PORT_STATUS_PF_D3 0 0 (portOf f)).showBlocked (portOf f) else s.enterD0 f).sendPending f) :=
  if_neg (by simp [low, warm])

theorem enterD0_shown : (s.enterD0 f).inD0 f = true ∧ (s.enterD0 f).flag Fld.EP_FN_STATE_DRAINING f = false ∧ ((s.enterD0 f).fn f).drain = none := by
  refine ⟨?_, flag_setFld_clear (by decide), congrArg FnSt.drain fn_setFn⟩
  have zero : ((s.setFld Fld.EP_FN_STATE_DSTATE 0 f).setFld Fld.EP_FN_STATE_DRAINING 0 f).fld Fld.EP_FN_STATE_DSTATE f = 0 := by
    rw [fld_setFld_beside (by decide), fld_setFld_same (by decide), Nat.zero_mod]
  exact beq_iff_eq.mpr zero

/-! ### Drains and quiesces (R411, R436) -/

theorem exec_d3DrainDeadline {d : Drain} (drain : (s.fn f).drain = some d) (due : (s.atTime at_).drainOver d = true) : exec (.d3DrainDeadline f at_) s = .next (
    let w := ((s.atTime at_).setFn f { s.fn f with drain := none }).setFld Fld.EP_FN_STATE_DRAINING 0 f
    if s.inProgress f = 0 then w else w.functionFault f 0x30 (s.inProgress f)) := by
  show execD3DrainDeadline f at_ s = _
  simp only [execD3DrainDeadline, fn_atTime, inProgress_atTime, drain]
  exact if_pos due

theorem exec_quiesceDeadline_idle {x : AdminCmd × Drain} (quiesce : (s.fn f).quiesce = some x) (idle : s.inProgress f = 0) :
    exec (.quiesceDeadline f at_) s = .next ((s.atTime at_).quiesced f) := by
  show execQuiesceDeadline f at_ s = _
  simp only [execQuiesceDeadline, fn_atTime, inProgress_atTime, quiesce]
  exact if_pos idle

theorem exec_quiesceDeadline_over {c : AdminCmd} {dr : Drain} (quiesce : (s.fn f).quiesce = some (c, dr)) (busy : 0 < s.inProgress f) (due : (s.atTime at_).drainOver dr = true) :
    exec (.quiesceDeadline f at_) s = .next ((((s.atTime at_).setFn f { s.fn f with discarded := s.inProgress f }).functionFault f 0x32 (s.inProgress f)).quiesced f) := by
  show execQuiesceDeadline f at_ s = _
  simp only [execQuiesceDeadline, fn_atTime, inProgress_atTime, quiesce]
  rw [if_neg (Nat.pos_iff_ne_zero.mp busy), if_pos due]

/-! ### Links (R413, R414) -/

theorem exec_pmeTurnOff (up : s.flag Fld.EP_PORT_STATUS_LINK_UP 0 p = true) : exec (.pmeTurnOff p) s =
    .next (((if s.fld Fld.EP_PORT_STATUS_LSTATE 0 p = 2 then s.setFld Fld.EP_PORT_STATUS_LSTATE 1 0 p else s).emit (.tlp p 2 [] [])).showBlocked p) :=
  if_neg (by simp [up])

/-- A packet waits at its port behind those already there (R146). -/
theorem emit_tlp {kind : Nat} {a : List Nat} {b : Bytes} : (s.emit (.tlp p kind a b)).ep.tlps.get [] p = s.ep.tlps.get [] p ++ [.tlp p kind a b] := Tbl.get_put_same ..

theorem fld_showBlocked {g : Fld} (hg : Beside Fld.EP_PORT_STATUS_PLANNED_BLOCKED g) : (s.showBlocked p).fld g 0 p = s.fld g 0 p := fld_setFld_beside hg

theorem fld_leaveL1 : (if s.fld Fld.EP_PORT_STATUS_LSTATE 0 p = 2 then s.setFld Fld.EP_PORT_STATUS_LSTATE 1 0 p else s).fld Fld.EP_PORT_STATUS_LSTATE 0 p =
    if s.fld Fld.EP_PORT_STATUS_LSTATE 0 p = 2 then 1 else s.fld Fld.EP_PORT_STATUS_LSTATE 0 p := by
  split
  · exact fld_setFld_fits (by decide) (by decide)
  · rfl

/-- With PME_TO_Ack sent the link is in L2/L3 Ready (R413). -/
theorem afterPacket_lstate (hp : p < 8) : (s.afterPacket (.tlp p 2 [] [])).fld Fld.EP_PORT_STATUS_LSTATE 0 p = 3 := by
  have cold (w : State) (g : Nat) : SameAt Low w (if w.inD0 g then w else w.raise Fld.EP_FN_STATE_D3COLD g) :=
    .ite (.refl w) (.setFld (.refl w) _ _ _ _ (Nat.not_lt.mpr (fnState_window rfl)))
  have folded : SameAt Low (s.setFld Fld.EP_PORT_STATUS_LSTATE 3 0 p) ((s.portFns p).foldl (fun s f => if s.inD0 f then s else s.raise Fld.EP_FN_STATE_D3COLD f) (s.setFld Fld.EP_PORT_STATUS_LSTATE 3 0 p)) :=
    .foldl fun w g _ => cold w g
  show State.fld (State.showBlocked _ p) _ 0 p = 3
  rw [fld_showBlocked (by decide), folded.fld _ _ _ (portStatus_low hp rfl)]
  exact fld_setFld_fits (by decide) (by decide)

theorem exec_aspmL1Entry (aspm : bitOf (s.hp p).aspm 1 = true) (timed : s.fld Fld.EP_PORT_CFG_L1_IDLE_US 0 p ≠ 0) (l0 : s.fld Fld.EP_PORT_STATUS_LSTATE 0 p = 1)
    (idle : (s.hp p).idleSince + s.fld Fld.EP_PORT_CFG_L1_IDLE_US 0 p * 1000 * 65536 ≤ max s.now at_) (unplanned : s.planBursts.contains p = false) :
    exec (.aspmL1Entry p at_) s = .next (((s.atTime at_).setFld Fld.EP_PORT_STATUS_LSTATE 2 0 p).showBlocked p) :=
  if_pos ⟨aspm, timed, l0, idle, by rw [atTime_planBursts, unplanned]; rfl⟩

theorem exec_l1Exit (l1 : s.fld Fld.EP_PORT_STATUS_LSTATE 0 p = 2) : exec (.l1Exit p at_) s =
    .next ((((s.atTime at_).setFld Fld.EP_PORT_STATUS_LSTATE 1 0 p).setHp p { s.hp p with idleSince := max s.now at_ }).showBlocked p) :=
  if_neg (not_not.mpr l1)

theorem exec_busMasterEnableWrite {v : Bool} : exec (.busMasterEnableWrite f v) s = .next (
    let u := s.setFn f { s.fn f with bme := v }
    let w := if isPf f then u.showBlocked (portOf f) else u
    if v then w.sendPending f else w) := rfl

/-- What no register tells, showing whether a port's bursts are blocked leaves. -/
theorem Regless.showPf {α : Type} {π : State → α} (hπ : Regless π) : π (if isPf f then u.showBlocked (portOf f) else u) = π u := by
  split
  · exact hπ ..
  · rfl

end

/-- Settles O37: what each step of a power state, a drain or a link shows and keeps. -/
theorem functionPowerStates : Obligations.FunctionPowerStates := by
  unfold Obligations.FunctionPowerStates Gives
  refine fun f p at_ s hf hp => ⟨fun d0 there => ⟨_, exec_powerstateD3hot d0 there, ?_⟩, fun low warm => ⟨_, exec_powerstateD0 low warm, ?_⟩, fun d drain due idle => ⟨_, exec_d3DrainDeadline drain due, ?_⟩,
    fun d drain due busy => ?_, fun up => ⟨_, exec_pmeTurnOff up, ?_, ?_⟩, afterPacket_lstate hp, fun aspm timed l0 idle unplanned => ⟨_, exec_aspmL1Entry aspm timed l0 idle unplanned, ?_, rfl⟩,
    fun l1 => ⟨_, exec_l1Exit l1, ?_, ?_⟩, fun v => ⟨_, exec_busMasterEnableWrite, ?_⟩, fun x => exec_quiesceDeadline_idle, fun c dr => exec_quiesceDeadline_over⟩
  · have window := sameAt_showD3 (u := (s.atTime at_).enterD3 f) hf
    have shows : ((s.atTime at_).enterD3 f).fld Fld.EP_FN_STATE_DSTATE f = 3 := (fld_setFld_beside (by decide)).trans (fld_setFld_fits (by decide) (by decide))
    have drains : ((s.atTime at_).enterD3 f).flag Fld.EP_FN_STATE_DRAINING f = decide (0 < s.inProgress f) := by
      have stored : (if (s.atTime at_).inProgress f = 0 then 0 else 1) = b2n (decide (0 < s.inProgress f)) := by
        rw [inProgress_atTime, b2n]
        split <;> split <;> simp_all
      rw [State.enterD3, stored]
      exact flag_setFld_b2n (by decide)
    refine ⟨?_, Regless.showD3 fun _ _ _ _ _ => rfl, Regless.showD3 fun _ _ _ _ _ => rfl, ?_, ?_, fun pf => showD3_pf pf⟩
    · rw [window.fld _ _ _ (fnState_window rfl), shows]
    · rw [window.flag _ _ _ (fnState_window rfl), drains]
    · rw [fn_congr (Regless.showD3 (π := State.ep) fun _ _ _ _ _ => rfl)]
      exact congrArg FnSt.drain (fn_setFn (s := (s.atTime at_).setFld Fld.EP_FN_STATE_DSTATE 3 f))
  · have low {g : Fld} (hg : g.reg = .EP_PORT_STATUS) : g.reg.addr 0 (portOf f) < 0x10000000 := portStatus_low (portOf_lt hf) hg
    have window : SameAt InWindow (s.enterD0 f) (if isPf f then ((s.enterD0 f).setFld Fld.EP_PORT_STATUS_PF_D3 0 0 (portOf f)).showBlocked (portOf f) else s.enterD0 f) :=
      .ite (.low (.low (.refl _) (low rfl)) (low rfl)) (.refl _)
    obtain ⟨d0, rests, ended⟩ := enterD0_shown (s := s) (f := f)
    refine ⟨?_, ?_, ?_, ?_⟩
    · rw [State.inD0, fld_congr _ _ _ _ sendPending_regs, window.fld _ _ _ (fnState_window rfl)]
      exact d0
    · rw [sendPending_fn (g := FnSt.drain) fun _ _ _ => rfl, fn_congr, ended]
      split <;> rfl
    · rw [flag_congr _ _ _ _ sendPending_regs, window.flag _ _ _ (fnState_window rfl), rests]
    · rw [sendPending_wq]
      split <;> rfl
  · rw [if_pos idle]
    exact ⟨congrArg FnSt.drain (fn_setFn (s := s.atTime at_)), flag_setFld_clear (by decide), rfl⟩
  · rw [exec_d3DrainDeadline drain due, if_neg (Nat.pos_iff_ne_zero.mp busy)]
  · exact emit_tlp.trans (by split <;> rfl)
  · rw [fld_showBlocked (by decide), fld_congr _ _ _ _ (emit_regs ..), fld_leaveL1]
  · exact (fld_showBlocked (by decide)).trans (fld_setFld_fits (by decide) (by decide))
  · exact (fld_showBlocked (by decide)).trans (fld_setFld_fits (s := s.atTime at_) (by decide) (by decide))
  · exact congrArg HpSt.idleSince (hp_setHp (s := s))
  · have bme : ((if isPf f then (s.setFn f { s.fn f with bme := v }).showBlocked (portOf f) else s.setFn f { s.fn f with bme := v }).fn f).bme = v := by
      rw [fn_congr (Regless.showPf (π := State.ep) fun _ _ _ _ _ => rfl), fn_setFn]
    cases v with
    | false => exact ⟨bme, Regless.showPf (π := State.wq) fun _ _ _ _ _ => rfl, fun _ => Regless.showPf (π := State.out) fun _ _ _ _ _ => rfl⟩
    | true => exact ⟨(sendPending_fn fun _ _ _ => rfl).trans bme, sendPending_wq.trans (Regless.showPf (π := State.wq) fun _ _ _ _ _ => rfl), nofun⟩

end Sys2Proof.Machine
end

section
/-! PROOFS. Commands on virtual functions (R427 to R443): shares, quiesce and resume, dirty-page logs, saved and restored state. -/

open Sys2Proof.Spec

namespace Sys2Proof.Machine

section
variable {d : AdminCmd} {buf : Bytes} {s t : State} {op : Nat}

/-! ### Shares (R428, R431, R443) -/

theorem exec_vfnShareSet (ha : Accepted s d 0x50) (sound : s.shareCheck buf = none) (idle : s.planActive = false) :
    exec (.vfnShareSet d buf) s = .next ({ s with vfn := { s.vfn with shares := s.vfn.shares.put (leAt buf 0 2) (sliceB buf 0 128) } }.adminOk d) := by
  refine next_admin ha ?_
  rw [sound]
  exact if_neg (by simp [idle])

/-- The commands that wait with a function's staged record. -/
def State.shareWaits (s : State) (f : Nat) : List AdminCmd :=
  match look s.vfn.staged f with
  | some e => e.2
  | none => []

theorem exec_vfnShareSet_staged (ha : Accepted s d 0x50) (sound : s.shareCheck buf = none) (active : s.planActive = true) :
    exec (.vfnShareSet d buf) s = .next
      ({ s with vfn := { s.vfn with staged := s.vfn.staged.put (leAt buf 0 2) (sliceB buf 0 128, s.shareWaits (leAt buf 0 2) ++ [d]) } }.raise Fld.VFN_STATUS_SHARE_PENDING) := by
  refine next_admin ha ?_
  rw [sound]
  exact if_pos active

theorem exec_vfnShareQuery (ha : Accepted s d 0x51) (may : s.isOwner d.fn = true ∨ d.p 0 = d.fn) (there : s.fnExists (d.p 0) = true) :
    exec (.vfnShareQuery d) s = .next (match look s.vfn.staged (d.p 0) with
      | some e => (s.drawn.adminOut d (s.share (d.p 0) ++ e.1 ++ s.allowances (d.p 0) s.free)).adminOk d 0 1
      | none => (s.drawn.adminOut d (s.share (d.p 0) ++ List.replicate 128 0 ++ s.allowances (d.p 0) s.free)).adminOk d 0 0) := by
  have permitted : ¬ ((!s.isOwner d.fn) = true ∧ d.fn ≠ d.p 0) := by
    rintro ⟨other, apart⟩
    exact may.elim (by simpa using other) fun e => apart e.symm
  refine next_admin ha ((if_neg permitted).trans ((if_neg (by simp [there])).trans ?_))
  cases look s.vfn.staged (d.p 0) <;> rfl

/-! ### Quiesce and resume (R436, R437) -/

/-- A command that is accepted and names a VF the sender may act on acts on that VF. -/
theorem next_vfFor {k : State → Nat → State} (ha : Accepted s d op) (there : s.fnExists (d.p 0) = true) (vf : isPf (d.p 0) = false)
    (may : s.isOwner d.fn = true ∨ d.fn = 1024 * portOf (d.p 0)) (hk : k s (d.p 0) = t) : (.next (s.admin d op fun u => u.vfFor d (k u)) : Answer) = .next t := by
  refine next_admin ha ((if_neg ?_).trans ((if_neg (by simp [there, vf])).trans hk))
  rcases may with owner | pf
  · simp [owner]
  · simp [← pf]

/-- The same for the saves and restores, which need it quiesced. -/
theorem next_quiescedFor {k : State → Nat → State} (ha : Accepted s d op) (there : s.fnExists (d.p 0) = true) (vf : isPf (d.p 0) = false)
    (may : s.isOwner d.fn = true ∨ d.fn = 1024 * portOf (d.p 0)) (quiesced : (s.fn (d.p 0)).vstate = 2) (hk : k s (d.p 0) = t) :
    (.next (s.admin d op fun u => u.quiescedFor d (k u)) : Answer) = .next t :=
  next_vfFor ha there vf may ((if_neg (not_not.mpr quiesced)).trans hk)

theorem quiesced_eq {u : State} {f : Nat} {c : AdminCmd} {dr : Drain} (waits : (u.fn f).quiesce = some (c, dr)) :
    u.quiesced f = (u.setFn f { u.fn f with vstate := 2, quiesce := none }).adminOk c 0 (u.fn f).discarded := by
  simp only [State.quiesced, waits]

/-- A page is left for a restored ring in a function that has none. -/
theorem one_le_pageLimit (f : Nat) : 1 ≤ pageLimit f := by unfold pageLimit; split <;> decide

/-- What a restore of one record answers with the ring's new handle and page in it. -/
def State.restoredOut (s : State) (d : AdminCmd) (b : Bytes) (ty : Nat) (x : State × (Nat × Nat × Nat)) : State :=
  x.1.adminOut d (spliceB b 0 (leBytes 4 (x.1.handle ty x.2.2.1) ++ leBytes 4 (leAt b 4 4 % 65536 + x.2.2.2 * 65536)) ++ [])

/-- A restored ring is found again by its handle in the record. -/
theorem restoreCq_source {f : Nat} {b : Bytes} : (s.restoreCq f b).2.1 = leAt b 0 4 := rfl
theorem restoreQueue_source {f : Nat} {b : Bytes} : (s.restoreQueue f [] b).2.1 = leAt b 0 4 := rfl
theorem find_restored {x : Nat × Nat × Nat} {h : Nat} (hx : x.1 = h) : ([x].find? (fun e => e.1 == h)).getD (0, 0, 0) = x := by simp [hx]

section
variable (there : s.fnExists (d.p 0) = true) (vf : isPf (d.p 0) = false) (may : s.isOwner d.fn = true ∨ d.fn = 1024 * portOf (d.p 0))
include there vf may

theorem exec_vfnQuiesce (ha : Accepted s d 0x52) (running : (s.fn (d.p 0)).vstate ≠ 1) :
    let f := d.p 0
    let u := s.setFn f { s.fn f with vstate := 1, quiesce := some (d, s.newDrain), discarded := 0 }
    exec (.vfnQuiesce d) s = .next (if s.inProgress f = 0 then (u.setFn f { s.fn f with vstate := 2, quiesce := none, discarded := 0 }).adminOk d 0 0 else u) := by
  intro f u
  have ended : u.quiesced f = (u.setFn f { s.fn f with vstate := 2, quiesce := none, discarded := 0 }).adminOk d 0 0 := by
    rw [quiesced_eq (u := u) (congrArg FnSt.quiesce fn_setFn), fn_setFn]
  rw [← ended]
  exact next_vfFor ha there vf may (if_neg running)

theorem exec_vfnResume (ha : Accepted s d 0x53) (quiesced : (s.fn (d.p 0)).vstate = 2) :
    exec (.vfnResume d) s = .next (((s.setFn (d.p 0) { s.fn (d.p 0) with vstate := 0 }).sendPending (d.p 0)).adminOk d) :=
  next_vfFor ha there vf may (if_neg (not_not.mpr quiesced))

/-! ### Dirty-page logs (R438 to R441) -/

theorem exec_vfnLogStart (ha : Accepted s d 0x54) (idle : (s.fn (d.p 0)).log = none) (base : d.p64 1 % 4096 = 0) (least : 0 < d.p 3) (most : d.p 3 ≤ 2 ^ 28) (map : d.p64 4 % 64 = 0) :
    exec (.vfnLogStart d) s = .next (((s.setFn (d.p 0) { s.fn (d.p 0) with
      log := some { issuer := d.fn, base := d.p64 1, pages := d.p 3, map := d.p64 4, failed := false, bits := [], count := 0, waiting := [] } }).showLogs (portOf (d.p 0))).adminOk d) :=
  next_vfFor ha there vf may ((if_neg (by rw [idle]; decide)).trans (if_neg (by omega)))

/-! ### Saved state (R442) -/

theorem exec_vfnStateSave_empty (ha : Accepted s d 0x57) (quiesced : (s.fn (d.p 0)).vstate = 2) (queues : s.wq.queues = []) (cqs : s.wq.cqs = []) :
    exec (.vfnStateSave d) s = .next ((s.adminOut d []).adminOk d 0 0) := by
  refine next_quiescedFor ha there vf may quiesced ?_
  rw [queues, cqs]
  rfl

theorem exec_vfnStateSave_one {k : Nat} {q : Queue} (ha : Accepted s d 0x57) (quiesced : (s.fn (d.p 0)).vstate = 2) (queues : s.wq.queues = [(k, q)]) (ring : k < 65536) (present : q.present = true)
    (own : q.fn = d.p 0) (cq : q.cq < 65536) (cqs : s.wq.cqs = []) (room : 32 ≤ d.bufLen) :
    exec (.vfnStateSave d) s = .next ((s.adminOut d (saveRec (s.handle 1 k) (b2n q.isRq) q.kind (b2n q.batch) (b2n q.stopOnErr) q.sizeLog2 q.state.code q.hall q.base q.p q.c q.wm (s.handle 2 q.cq))).adminOk d 0 1) := by
  refine next_quiescedFor ha there vf may quiesced ?_
  have chosen : [(k, q)].filter (fun e => e.2.present && e.2.fn == d.p 0 && decide (e.1 < 65536)) = [(k, q)] := by simp [present, own, ring]
  rw [queues, cqs, chosen]
  simp only [List.map_cons, List.map_nil, List.filter_nil, List.foldl_nil, List.length_cons, List.length_nil, List.flatten_cons, List.flatten_nil]
  rw [if_neg (by omega), if_neg (by omega), List.append_nil]

section
variable (ha : Accepted s d 0x58) (quiesced : (s.fn (d.p 0)).vstate = 2) (noQueues : s.queuesOf (d.p 0) = 0) (noCqs : s.cqsOf (d.p 0) = 0) (one : d.p 1 = 1) (sound : saveOk (sliceB buf 0 32) = true)
include ha quiesced noQueues noCqs one sound

theorem exec_vfnStateRestore_cq (isCq : leAt (sliceB buf 0 32) 4 4 % 4 = 2) (share : 1 ≤ s.shareAt (d.p 0) 6 2) (cqs : s.fld Fld.WQ_QUEUES_CQS < 65535) (queues : s.fld Fld.WQ_QUEUES_QUEUES ≤ 65535) :
    exec (.vfnStateRestore d buf) s = .next ((s.restoredOut d (sliceB buf 0 32) 2 (s.restoreCq (d.p 0) (sliceB buf 0 32))).adminOk d 0 0) := by
  have pages := one_le_pageLimit (d.p 0)
  have kind : (leAt (sliceB buf 0 32) 4 4 % 4 == 2) = true := beq_iff_eq.mpr isCq
  have cqOk : saveCqOk [sliceB buf 0 32] (sliceB buf 0 32) = true := by rw [saveCqOk, kind]; rfl
  refine next_quiescedFor ha there vf may quiesced ?_
  simp only [one, List.range_one, List.map_cons, List.map_nil, Nat.mul_zero, List.filter_cons, List.filter_nil, kind, List.foldl_cons, List.foldl_nil, noQueues, noCqs, List.all_cons, List.all_nil, sound, cqOk,
    if_true, Bool.not_true, Bool.false_eq_true, if_false, List.length_cons, List.length_nil, List.nil_append, find_restored restoreCq_source, List.flatten_cons, List.flatten_nil, Bool.and_true]
  rw [if_neg (by decide), if_neg (by omega)]
  rfl

theorem exec_vfnStateRestore_queue (isQueue : leAt (sliceB buf 0 32) 4 4 % 4 ≤ 1) (acq : leAt (sliceB buf 0 32) 28 4 = 0x20010000) (share : 1 ≤ s.shareAt (d.p 0) 4 2)
    (cqs : s.fld Fld.WQ_QUEUES_CQS ≤ 65535) (queues : s.fld Fld.WQ_QUEUES_QUEUES < 65535) :
    exec (.vfnStateRestore d buf) s = .next ((s.restoredOut d (sliceB buf 0 32) 1 (s.restoreQueue (d.p 0) [] (sliceB buf 0 32))).adminOk d 0 1) := by
  have pages := one_le_pageLimit (d.p 0)
  have kind : (leAt (sliceB buf 0 32) 4 4 % 4 == 2) = false := beq_false_of_ne (by omega)
  have cqOk : saveCqOk [sliceB buf 0 32] (sliceB buf 0 32) = true := by rw [saveCqOk, acq, beq_self_eq_true, Bool.or_true, Bool.true_or]
  refine next_quiescedFor ha there vf may quiesced ?_
  simp only [one, List.range_one, List.map_cons, List.map_nil, Nat.mul_zero, List.filter_cons, List.filter_nil, kind, List.foldl_cons, List.foldl_nil, noQueues, noCqs, List.all_cons, List.all_nil, sound, cqOk,
    if_true, Bool.not_true, Bool.not_false, Bool.false_eq_true, if_false, List.length_cons, List.length_nil, List.nil_append, find_restored restoreQueue_source, List.flatten_cons, List.flatten_nil, Bool.and_true]
  rw [if_neg (by decide), if_neg (by omega)]
  rfl

end
end

/-- A command that is accepted and names a VF with a log of the sender's acts on that log. -/
theorem next_logFor {l : VfLog} {k : State → Nat → VfLog → State} (ha : Accepted s d op) (there : s.fnExists (d.p 0) = true) (vf : isPf (d.p 0) = false) (log : (s.fn (d.p 0)).log = some l)
    (issuer : l.issuer = d.fn) (hk : k s (d.p 0) l = t) : (.next (s.admin d op fun u => u.logFor d (k u)) : Answer) = .next t := by
  refine next_admin ha ((if_neg (by simp [there, vf])).trans ?_)
  rw [log]
  exact (if_pos issuer).trans hk

end

/-- Settles O38: each command by the function or log it names and the checks its parameters pass. -/
theorem virtualFunctionCommands : Obligations.VirtualFunctionCommands := by
  unfold Obligations.VirtualFunctionCommands Gives
  refine fun d buf s => ⟨exec_vfnShareSet, ?_, ?_, ?_, ?_, ?_, ?_⟩
  · rintro cs ha sound active rfl
    exact ⟨_, exec_vfnShareSet_staged ha sound active, look_put_same .., rfl, flag_raise (by decide)⟩
  · intro ha may there none_
    rw [exec_vfnShareQuery ha may there, none_]
  · intro b cs ha may there some_
    rw [exec_vfnShareQuery ha may there, some_]
  · refine fun there vf may => ⟨exec_vfnQuiesce there vf may, exec_vfnResume there vf may, exec_vfnLogStart there vf may, exec_vfnStateSave_empty there vf may, ?_, ?_, ?_⟩
    · exact fun k q => exec_vfnStateSave_one there vf may
    · exact fun ha quiesced noQueues noCqs one isCq sound => exec_vfnStateRestore_cq there vf may ha quiesced noQueues noCqs one sound isCq
    · exact fun ha quiesced noQueues noCqs one isQueue sound => exec_vfnStateRestore_queue there vf may ha quiesced noQueues noCqs one sound isQueue
  · refine fun l there vf log issuer => ⟨fun ha runs map => next_logFor ha there vf log issuer ((if_neg (by simp [runs])).trans (if_neg (not_not.mpr map))), fun ha => next_logFor ha there vf log issuer rfl⟩
  · exact fun ha owner absent => next_admin ha ((if_neg (by simp [owner])).trans (if_pos (by simp [absent])))

end Sys2Proof.Machine
end

section
/-! PROOFS. Host ports from outside (R410, R414, R422, R423, R491, R494): training, lost links, resets, PERST# and virtual functions. -/

open Sys2Proof.Spec

namespace Sys2Proof.Machine

section
variable {s : State} {p gen width f n at_ : Nat} {flit : Bool}

@[simp] theorem portFns_atTime : (s.atTime at_).portFns p = s.portFns p := rfl
@[simp] theorem hp_atTime : (s.atTime at_).hp p = s.hp p := rfl
@[simp] theorem inD0_atTime : (s.atTime at_).inD0 f = s.inD0 f := rfl

/-! ### What a port's status shows (R414, R416) -/

theorem addr_galStatus : Reg.addr .GAL_STATUS 0 0 = 0x3000000 := rfl

/-- The rates' own flags are all that evaluating them writes. -/
theorem fld_showRates (hp : p < 8) {g : Fld} (hg : Beside Fld.EP_PORT_STATUS_READ_SHORT g) : (s.showRates p).fld g 0 p = s.fld g 0 p := by
  have apart : g.reg.addr 0 p ≠ Reg.addr .GAL_STATUS 0 0 := by rw [hg.1, addr_galStatus, show Fld.EP_PORT_STATUS_READ_SHORT.reg = .EP_PORT_STATUS from rfl, addr_portStatus]; omega
  unfold State.showRates
  dsimp only
  split
  · exact (fld_setFld_ne _ _ _ _ _ _ _ _ apart).trans (fld_setFld_beside hg)
  · exact fld_setFld_beside hg

theorem sameAt_showRates (hp : p < 8) : SameAt InWindow s (s.showRates p) :=
  .ite (.raise (.low (.refl s) (portStatus_low hp rfl)) (by decide)) (.low (.refl s) (portStatus_low hp rfl))

/-- WAKE_N is released, where it was asserted. -/
theorem fld_wakeReleased {v : State} {g : Fld} (hg : Beside Fld.EP_PORT_STATUS_WAKE_N g) :
    (if v.flag Fld.EP_PORT_STATUS_WAKE_N 0 p then (v.setFld Fld.EP_PORT_STATUS_WAKE_N 0 0 p).emit (.pin 1 p true) else v).fld g 0 p = v.fld g 0 p := by
  split
  · rw [fld_congr _ _ _ _ (emit_regs ..), fld_setFld_beside hg]
  · rfl

/-- A port that has trained shows it, whatever else it shows besides. -/
theorem fld_linkUp (hp : p < 8) {g : Fld} (h1 : Beside Fld.EP_PORT_STATUS_READ_SHORT g) (h2 : Beside Fld.EP_PORT_STATUS_PLANNED_BLOCKED g) (h3 : Beside Fld.EP_PORT_STATUS_WAKE_N g) :
    (linkUp s p gen width flit).fld g 0 p = (((((s.raise Fld.EP_PORT_STATUS_LINK_UP 0 p).setFld Fld.EP_PORT_STATUS_GEN gen 0 p).setFld Fld.EP_PORT_STATUS_WIDTH width 0 p).setFld
      Fld.EP_PORT_STATUS_FLIT (b2n (flit || gen == 3)) 0 p).setFld Fld.EP_PORT_STATUS_LSTATE 1 0 p).fld g 0 p := by
  unfold linkUp
  extract_lets v1 v2 v3
  rw [fld_showRates hp h1, fld_showBlocked h2]
  exact fld_wakeReleased h3

theorem linkUp_shown (hp : p < 8) : (linkUp s p gen width flit).flag Fld.EP_PORT_STATUS_LINK_UP 0 p = true ∧ (linkUp s p gen width flit).fld Fld.EP_PORT_STATUS_GEN 0 p = gen % 4 ∧
    (linkUp s p gen width flit).fld Fld.EP_PORT_STATUS_LSTATE 0 p = 1 := by
  refine ⟨?_, ?_, ?_⟩
  · rw [State.flag, fld_linkUp hp (by decide) (by decide) (by decide)]
    simp (disch := decide) only [fld_setFld_beside, State.raise, fld_setFld_same]
    rfl
  · rw [fld_linkUp hp (by decide) (by decide) (by decide)]
    simp (disch := decide) only [fld_setFld_beside, fld_setFld_same]
    rfl
  · rw [fld_linkUp hp (by decide) (by decide) (by decide)]
    exact fld_setFld_fits (by decide) (by decide)

/-! ### Training and lost links (R410, R481, R491, R494) -/

theorem exec_hostLinkUp (hp : p < 8) (enabled : s.flag Fld.EP_PORT_MAP_EN 0 p = true) (perst : (s.hp p).perst = false) (down : s.flag Fld.EP_PORT_STATUS_LINK_UP 0 p = false) (powered : s.own.powered = true)
    (gens : gen ≤ s.fld Fld.EP_PORT_CFG_GEN 0 p) (widths : width ≤ s.fld Fld.EP_PORT_MAP_WIDTH 0 p + 2) :
    let u := linkUp (if (s.portFns p).filter (fun f => s.flag Fld.EP_FN_STATE_D3COLD f) = [] then s.atTime at_ else (s.atTime at_).portReset p []) p gen width flit
    exec (.hostLinkUp p gen width flit at_) s = .next (match u.own.restoreEvent with
      | some r => if u.ownerValid ∧ portOf u.ownerFn = p then ({ u with own := { u.own with restoreEvent := none } }).eventOwner 0x05 (leBytes 1 r) else u
      | none => u) := by
  have trains : ¬ (8 ≤ p ∨ (!(s.atTime at_).flag Fld.EP_PORT_MAP_EN 0 p) = true ∨ ((s.atTime at_).hp p).perst = true ∨ (s.atTime at_).flag Fld.EP_PORT_STATUS_LINK_UP 0 p = true ∨
      (!(s.atTime at_).own.powered) = true ∨ (s.atTime at_).fld Fld.EP_PORT_CFG_GEN 0 p < gen ∨ (s.atTime at_).fld Fld.EP_PORT_MAP_WIDTH 0 p + 2 < width) := by
    simp [enabled, perst, down, powered, hp, gens, widths]
  exact if_neg trains

theorem exec_hotReset (hp : p < 8) (up : s.flag Fld.EP_PORT_STATUS_LINK_UP 0 p = true) : exec (.hotReset p at_) s = .next (((s.atTime at_).portReset p []).linkLost p) :=
  if_neg (by simp [up, hp])

theorem exec_hostLinkDown (hp : p < 8) (up : s.flag Fld.EP_PORT_STATUS_LINK_UP 0 p = true) :
    let cold := (s.portFns p).filter (fun f => !s.inD0 f)
    exec (.hostLinkDown p at_) s = .next (((cold.foldl (fun (s : State) f => s.raise Fld.EP_FN_STATE_D3COLD f) (s.atTime at_)).portReset p cold).linkLost p) :=
  if_neg (by simp [up, hp])

/-! ### PERST# (R48, R395, R491) -/

/-- An edge of PERST# at an enabled port: its level, and its latch. -/
def State.perstLevel (s : State) (p : Nat) (a : Bool) : State :=
  (s.setHp p { s.hp p with perst := a }).setFld Fld.CALM_PERST_EDGE (putBits (s.fld Fld.CALM_PERST_EDGE) p p 1)

theorem exec_perstEdge {a : Bool} (hp : p < 8) (edge : (s.hp p).perst ≠ a) : exec (.perstEdge p a at_) s =
    if !s.flag Fld.EP_PORT_MAP_EN 0 p then .next ((s.atTime at_).setHp p { s.hp p with perst := a })
    else .next ((if a then ((s.atTime at_).perstLevel p a).portReset p [] else (s.atTime at_).perstLevel p a).linkLost p) :=
  if_neg (by simp [hp, edge])

/-! ### Function Level Reset and virtual functions (R422, R425) -/

theorem exec_flr (there : s.fnExists f = true) :
    let u := (s.atTime at_).bump Fld.EP_CNT_FLR_COUNT 0 (portOf f)
    exec (.flr f at_) s = .next (if isPf f then ((((((u.setVfs (portOf f) false 0).resetFn f).initPort (portOf f)).raise Fld.EP_FN_STATE_FLR_BUSY f).showBlocked (portOf f)).showRates (portOf f))
      else (u.resetFn f).raise Fld.EP_FN_STATE_FLR_BUSY f) := by
  have goes : ¬ (!(s.atTime at_).fnExists f) = true := by
    rw [show (s.atTime at_).fnExists f = s.fnExists f from rfl, there]
    decide
  show execFlr f at_ s = _
  unfold execFlr
  dsimp only
  rw [if_neg goes]
  split <;> rfl

/-- A function that is being reset is busy. -/
theorem flrBusy_shown (hf : f < 8192) (u v : State) :
    (if isPf f then ((u.raise Fld.EP_FN_STATE_FLR_BUSY f).showBlocked (portOf f)).showRates (portOf f) else v.raise Fld.EP_FN_STATE_FLR_BUSY f).flag Fld.EP_FN_STATE_FLR_BUSY f = true := by
  have raised (w : State) : (w.raise Fld.EP_FN_STATE_FLR_BUSY f).flag Fld.EP_FN_STATE_FLR_BUSY f = true := flag_setFld_one (by decide)
  split
  · have shown (w : State) : SameAt InWindow w ((w.showBlocked (portOf f)).showRates (portOf f)) :=
      .trans (.low (.refl w) (portStatus_low (portOf_lt hf) rfl)) (sameAt_showRates (portOf_lt hf))
    rw [(shown _).flag _ _ _ (fnState_window rfl), raised]
  · exact raised v

theorem exec_flrComplete (busy : s.flag Fld.EP_FN_STATE_FLR_BUSY f = true) : exec (.flrComplete f at_) s = .next ((s.atTime at_).setFld Fld.EP_FN_STATE_FLR_BUSY 0 f) :=
  if_neg (by simp [busy])

theorem exec_vfEnableWrite {en : Bool} (hp : p < 8) (there : s.fnExists (1024 * p) = true) :
    exec (.vfEnableWrite p en n at_) s = .next ((s.atTime at_).setVfs p en (if n ≤ 512 then n else s.fld Fld.VFN_PORT_NUM_VFS 0 p)) := by
  have exists_ : (s.atTime at_).fnExists (1024 * p) = true := there
  exact if_neg (by simp [hp, exists_])

theorem setVfs_shown {en : Bool} (hn : n < 1024) : (s.setVfs p en n).flag Fld.VFN_PORT_VF_EN 0 p = en ∧ (s.setVfs p en n).fld Fld.VFN_PORT_NUM_VFS 0 p = n := by
  unfold State.setVfs State.showLogs
  extract_lets old s1 k
  constructor
  · rw [flag_setFld_beside (by decide), flag_setFld_beside (by decide), flag_setFld_b2n (by decide)]
  · rw [fld_setFld_beside (by decide)]
    exact fld_setFld_fits (by decide) hn

end

/-- Settles O39: each event of a port by its guards, and what its status then shows. -/
theorem hostPortEvents : Obligations.HostPortEvents := by
  unfold Obligations.HostPortEvents Gives
  refine fun p gen width f n at_ flit en s hp => ⟨fun enabled perst down powered gens widths => ⟨linkUp_shown hp, ?_, ?_, ?_⟩, fun up => ⟨exec_hotReset hp up, exec_hostLinkDown hp up⟩, ⟨?_, ?_, ?_⟩, ?_, ?_, ?_⟩
  · intro none_
    rw [exec_hostLinkUp hp enabled perst down powered gens widths, none_]
  · intro r some_ owner port
    rw [exec_hostLinkUp hp enabled perst down powered gens widths, some_]
    exact congrArg _ (if_pos ⟨owner, port⟩)
  · intro r some_ other
    rw [exec_hostLinkUp hp enabled perst down powered gens widths, some_]
    exact congrArg _ (if_neg fun h => other.elim (fun none_ => Bool.false_ne_true (none_.symm.trans h.1)) fun ne => ne h.2)
  · intro level enabled
    rw [exec_perstEdge hp (by simp [level]), enabled]
    rfl
  · intro level enabled
    rw [exec_perstEdge hp (by simp [level]), enabled]
    rfl
  · intro a edge disabled
    refine ⟨_, (exec_perstEdge hp edge).trans (if_pos (by simp [disabled])), ?_, rfl⟩
    rw [hp_setHp]
  · exact fun hf there => ⟨_, exec_flr there, flrBusy_shown hf _ _, rfl⟩
  · exact fun busy => ⟨_, exec_flrComplete busy, flag_setFld_clear (by decide), fld_setFld_beside (s := s.atTime at_) (by decide), rfl⟩
  · intro there
    have fits : (if n ≤ 512 then n else s.fld Fld.VFN_PORT_NUM_VFS 0 p) < 1024 := by
      split
      · omega
      · exact fld_lt _
    exact ⟨_, exec_vfEnableWrite hp there, setVfs_shown fits⟩

end Sys2Proof.Machine
end

section
/-! PROOFS. Answers to the part's own reads (R417 to R419): time-outs, completions, late and unexpected ones. -/

open Sys2Proof.Spec

namespace Sys2Proof.Machine

section
variable {s : State} {p what tag status fn arg addr at_ : Nat} {data : Bytes} {r : HostReq} (hp : p < 8)
include hp

/-! ### Time-outs (R417, R418) -/

theorem exec_completionTimeout_tracked (tracked : (s.hp p).reqs.find? (fun r => r.tag == tag) = some r) (late : r.sent + ctoUs (s.hp p).ctoValue * 1000 * 65536 < max s.now at_) :
    let u := (s.atTime at_).takeReq p tag
    exec (.completionTimeout p 0 tag fn arg addr at_) s =
      .next ((((u.setHp p { u.hp p with late := tag :: (u.hp p).late }).bump Fld.EP_CNT_CTO_COUNT 0 p).aer p 14 false).requestFailed p r.purpose 4 r.fn r.arg r.addr) := by
  refine (if_neg (by omega)).trans ((if_pos rfl).trans ?_)
  rw [hp_atTime, tracked]
  exact if_neg (by simp [expired_atTime late, nsTicks])

theorem exec_completionTimeout_named (named : what ≠ 0) (hw : what ≤ 8) : exec (.completionTimeout p what tag fn arg addr at_) s =
    .next ((((s.atTime at_).bump Fld.EP_CNT_CTO_COUNT 0 p).aer p 14 false).requestFailed p what 4 fn arg addr) :=
  (if_neg (by omega)).trans (if_neg named)

/-! ### Completions (R418, R419) -/

/-- The state in which a completion is looked up: data that came poisoned is logged first. -/
def State.completing (s : State) (p status at_ : Nat) : State := if status = 3 then (s.atTime at_).aer p 12 true else s.atTime at_

theorem exec_readCompletionRx_named (hs : status ≤ 3) (named : what ≠ 0) (hw : what ≤ 8) : exec (.readCompletionRx p what tag status data fn arg addr at_) s =
    .next (if status = 0 then s.completing p status at_ else (s.completing p status at_).requestFailed p what status fn arg addr) :=
  (if_neg (by omega)).trans (if_pos named)

/-- A completion by tag: of a tracked request, a late one, or an unexpected one. -/
theorem exec_readCompletionRx_tag (hs : status ≤ 3) :
    let c := s.completing p status at_
    exec (.readCompletionRx p 0 tag status data fn arg addr at_) s = match (c.hp p).reqs.find? (fun r => r.tag == tag) with
      | some r => .next (if status = 0 then (c.takeReq p tag).readArrived r data else (c.takeReq p tag).requestFailed p r.purpose status r.fn r.arg r.addr)
      | none => if (c.hp p).late.contains tag then .next (((c.setHp p { c.hp p with late := removeFirst (· == tag) (c.hp p).late }).bump Fld.EP_LATE_CPL_COUNT 0 p).aer p 16 true)
        else .next ((c.bump Fld.EP_CNT_UNEXP_CPL_COUNT 0 p).aer p 16 true) := by
  intro c
  refine (if_neg (by omega)).trans ((if_neg (by simp)).trans ?_)
  rfl

end

/-- Settles O40: a time-out by the request it names, a completion by what its tag finds. -/
theorem completionsOfReads : Obligations.CompletionsOfReads := by
  unfold Obligations.CompletionsOfReads Gives
  refine fun p what tag status fn arg addr at_ data s hp hw hs => ⟨fun r => exec_completionTimeout_tracked hp, fun named => exec_completionTimeout_named hp named hw, fun r tracked => ?_, fun r failed tracked => ?_,
    fun named failed => (exec_readCompletionRx_named hp hs named hw).trans (congrArg _ (if_neg failed)), fun named => exec_readCompletionRx_named hp (by omega) named hw, fun untracked late => ?_, fun untracked unknown => ?_⟩
  · rw [exec_readCompletionRx_tag hp (by omega), show ((s.completing p 0 at_).hp p).reqs.find? (fun r => r.tag == tag) = some r from tracked]
    rfl
  · rw [exec_readCompletionRx_tag hp hs, State.completing, tracked]
    exact congrArg _ (if_neg failed)
  · rw [exec_readCompletionRx_tag hp hs, State.completing, untracked]
    exact if_pos late
  · rw [exec_readCompletionRx_tag hp hs, State.completing, untracked]
    exact if_neg (by simp only [unknown, Bool.false_eq_true, not_false_eq_true])

end Sys2Proof.Machine
end

section
/-! PROOFS. Memory windows (R404 to R407) and the requests of hosts (R403, R420). -/

open Sys2Proof.Spec

namespace Sys2Proof.Machine

section
variable {s : State} {f off len at_ : Nat} {data : Bytes} {who : Who}

/-! ### Commits and loads of a window table (R406, R407) -/

section
variable (may : s.mayPage who f = true) (there : s.fnExists f = true)
include may there

theorem mayWindows : ¬ ((!s.mayPage who f) = true ∨ (!s.fnExists f) = true) := by simp [may, there]

theorem exec_winCommit (sound : s.winFail f = none) : exec (.winCommit who f) s = .next (s.copyWins f true) := by
  refine (if_neg (mayWindows may there)).trans ?_
  rw [sound]

theorem exec_winCommit_refused {w r : Nat} (broken : s.winFail f = some (w, r)) : exec (.winCommit who f) s =
    .next (((s.raise Fld.EP_WIN_STATUS_ERROR f).setFld Fld.EP_WIN_STATUS_ENTRY w f).setFld Fld.EP_WIN_STATUS_REASON r f) := by
  refine (if_neg (mayWindows may there)).trans ?_
  rw [broken]

theorem exec_winLoad : exec (.winLoad who f) s = .next (s.copyWins f false) := if_neg (mayWindows may there)

end

/-- A refused commit shows the entry and why. -/
theorem winError_shown {w r : Nat} (hw : w < 64) (hr : r < 16) :
    let t := ((s.raise Fld.EP_WIN_STATUS_ERROR f).setFld Fld.EP_WIN_STATUS_ENTRY w f).setFld Fld.EP_WIN_STATUS_REASON r f
    t.flag Fld.EP_WIN_STATUS_ERROR f = true ∧ t.fld Fld.EP_WIN_STATUS_ENTRY f = w ∧ t.fld Fld.EP_WIN_STATUS_REASON f = r := by
  refine ⟨?_, ?_, fld_setFld_fits (by decide) (Nat.lt_trans hr (by decide))⟩
  · rw [flag_setFld_beside (by decide), flag_setFld_beside (by decide)]
    exact flag_setFld_one (by decide)
  · rw [fld_setFld_beside (by decide)]
    exact fld_setFld_fits (by decide) hw

/-! ### Requests to a window (R404, R405, R420) -/

/-- The live entry that an offset falls in. -/
abbrev State.windowAt (s : State) (f off : Nat) : Option WinEntry :=
  ((List.range 64).map (fun w => s.liveWin f w)).find? (fun e => e.valid && decide (e.bar ≤ off) && decide (off < e.bar + e.size))

section
variable (takes : s.takesMem f = true)
include takes

/-- A request that no live entry takes. -/
theorem exec_bar4Request_miss {write : Bool} (miss : s.windowAt f off = none) :
    exec (.bar4Request f write off len data false) s = .next ((s.bump Fld.EP_CNT_WIN_MISS_COUNT 0 (portOf f)).answerUr f write) := by
  refine (if_neg (by simp [takes])).trans ((if_neg (by simp)).trans ?_)
  unfold State.windowAt at miss
  rw [miss]

theorem exec_bar4Request_poisoned : exec (.bar4Request f true off len data true) s = .next (s.aer (portOf f) 12 true) :=
  (if_neg (by simp [takes])).trans (if_pos ⟨rfl, rfl⟩)

section
variable {e : WinEntry} {k i a : Nat} (hit : s.windowAt f off = some e) (range : s.winRange e = true) (known : s.winKnown e = true) (granted : s.winGranted f e = true) (place : s.winPlace e = some (k, i, a))
include hit range known granted place

theorem exec_bar4Request_write (may : e.wr = true) (within : off + data.length ≤ e.bar + e.size) :
    exec (.bar4Request f true off len data false) s = .next (s.winWrite k i (a + (off - e.bar)) data) := by
  refine (if_neg (by simp [takes])).trans ((if_neg (by simp)).trans ?_)
  unfold State.windowAt at hit
  rw [hit]
  dsimp only
  rw [place]
  exact (if_neg (by simp [range, known, granted, may, within])).trans (if_pos rfl)

theorem exec_bar4Request_read (may : e.rd = true) (within : off + len ≤ e.bar + e.size) :
    let r := s.winRead k i (a + (off - e.bar)) len
    exec (.bar4Request f false off len data false) s = .next (if r.2 then (s.poisonUse true).emit (.tlp (portOf f) 9 [f] r.1) else s.emit (.readBytes f r.1)) := by
  intro r
  refine (if_neg (by simp [takes])).trans ((if_neg (by simp)).trans ?_)
  unfold State.windowAt at hit
  rw [hit]
  dsimp only
  rw [place]
  exact (if_neg (by simp [range, known, granted, may, within])).trans (if_neg (by decide))

end
end

theorem exec_bar4Request_untaken {write poisoned : Bool} (away : s.takesMem f = false) (there : s.fnExists f = true) :
    exec (.bar4Request f write off len data poisoned) s = .next (s.answerUr f write) :=
  (if_pos (by simp [away])).trans (congrArg _ (if_pos there))

/-! ### Requests of hosts (R403, R420) -/

/-- A request to a function of an enabled port is answered by its kind. -/
theorem exec_hostRequest {op : HostOp} (hf : f < 8192) (enabled : s.flag Fld.EP_PORT_MAP_EN 0 (portOf f) = true) :
    let u := s.atTime at_
    exec (.hostRequest f op at_) s = match op with
      | .memRead bar o n => .next (u.hostLoad f bar o n at_)
      | .memWrite bar o b => .next (u.hostStore f bar o b at_)
      | .cfgRead o => .next (if u.fnExists f then u.emit (.readBytes f (leBytes 4 (u.cfgWord f (o / 4 * 4)))) else u.answerUr f false)
      | .cfgWrite o b => .next (if u.fnExists f then (u.cfgWrite f o b at_).emit (.tlp (portOf f) 10 [f] []) else u.answerUr f false)
      | .other 3 => .next (u.answerUr f true)
      | .other 4 => .next u
      | .other _ => .next (u.answerUr f false) := by
  intro u
  exact if_neg (by simp [hf, enabled])

theorem host_untaken (away : s.takesMem f = false) (bar : Nat) (b : Bytes) : s.hostLoad f bar off len at_ = s.answerUr f false ∧ s.hostStore f bar off b at_ = s.answerUr f true :=
  ⟨if_pos (by simp [away]), if_pos (by simp [away])⟩

section
variable (takes : s.takesMem f = true)
include takes

theorem hostLoad_bar0_waits {h : Nat} (pf : isPf f = true) (sees : s.sees (.fn f) (canonical (off / 4 * 4)) = true) (waits : s.boundaryHall off = some h) :
    s.hostLoad f 0 off len at_ = s.await h (.fn f) off (.load len) := by
  simp [State.hostLoad, takes, pf, sees, waits]

theorem hostLoad_bar0 (now : s.boundaryHall off = none) :
    let r := s.readWords f (off / 4 * 4) at_ ((off + len + 3) / 4 - off / 4)
    s.hostLoad f 0 off len at_ = r.1.emit (.readBytes f (sliceB r.2 (off % 4) len)) := by
  simp [State.hostLoad, takes, now]

/-- A write reaches the BAR it names. -/
theorem hostStore_eq (bar : Nat) : s.hostStore f bar off data at_ = match bar with
    | 0 => s.bar0Write f off data at_
    | 2 => s.bellWrite f off data
    | 4 => stateOf s (execBar4Request f true off 0 data false s)
    | _ => s.answerUr f true := if_neg (by simp [takes])

theorem hostStore_bar0_word (aligned : off % 4 = 0) (word : data.length = 4) : s.hostStore f 0 off data at_ = s.writeBar0 f off (leNat data) at_ :=
  (hostStore_eq takes 0).trans (if_pos ⟨word, aligned⟩)

theorem hostStore_bar0_pair (aligned : off % 8 = 0) (pair : data.length = 8) :
    s.hostStore f 0 off data at_ = (s.writeBar0 f off (leNat (data.take 4)) at_).writeBar0 f (off + 4) (leNat (data.drop 4)) at_ :=
  (hostStore_eq takes 0).trans ((if_neg (by omega)).trans (if_pos ⟨pair, aligned⟩))

theorem hostLoad_bar2 : s.hostLoad f 2 off len at_ = s.bellIgnored.emit (.readBytes f (List.replicate len 0)) := if_neg (by simp [takes])

theorem hostLoad_bar4 {t : State} (reads : exec (.bar4Request f false off len [] false) s = .next t) : s.hostLoad f 4 off len at_ = t :=
  (if_neg (by simp [takes])).trans (congrArg (stateOf s) reads)

theorem hostStore_bar4 {t : State} (writes : exec (.bar4Request f true off 0 data false) s = .next t) : s.hostStore f 4 off data at_ = t :=
  (hostStore_eq takes 4).trans (congrArg (stateOf s) writes)

end
end

/-- Settles O41: window tables, then window requests, then the requests of hosts by kind and BAR. -/
theorem windowsAndHostRequests : Obligations.WindowsAndHostRequests := by
  unfold Obligations.WindowsAndHostRequests Gives
  refine fun f off len at_ data who s => ⟨exec_winCommit, fun w r may there broken hw hr => ?_, exec_winLoad, fun e k i a takes hit place => ?_, fun w takes => exec_bar4Request_miss takes, exec_bar4Request_poisoned,
    fun w b => exec_bar4Request_untaken, fun hf enabled => ?_, fun away n b => host_untaken away n b, fun takes => ?_⟩
  · obtain ⟨error, entry, reason⟩ := winError_shown (s := s) (f := f) hw hr
    exact ⟨_, exec_winCommit_refused may there broken, error, entry, reason, rfl⟩
  · obtain ⟨found, range, known, granted⟩ := hit
    refine ⟨exec_bar4Request_write takes found range known granted place, fun b may within read => ?_, fun b may within read => ?_⟩
    · rw [exec_bar4Request_read takes found range known granted place may within, read]
      rfl
    · rw [exec_bar4Request_read takes found range known granted place may within, read]
      rfl
  · refine ⟨fun n b => ⟨exec_hostRequest hf enabled, exec_hostRequest hf enabled⟩, fun there => (exec_hostRequest hf enabled).trans (congrArg _ (if_pos there)),
      fun there => (exec_hostRequest hf enabled).trans (congrArg _ (if_pos there)), fun absent => ⟨(exec_hostRequest hf enabled).trans (congrArg _ (if_neg ?_)), (exec_hostRequest hf enabled).trans (congrArg _ (if_neg ?_))⟩,
      exec_hostRequest hf enabled, exec_hostRequest hf enabled, exec_hostRequest hf enabled⟩
    · exact fun there => Bool.false_ne_true (absent.symm.trans there)
    · exact fun there => Bool.false_ne_true (absent.symm.trans there)
  · exact ⟨fun h pf sees waits => hostLoad_bar0_waits takes pf sees waits, hostLoad_bar0 takes, hostStore_bar0_word takes, hostStore_bar0_pair takes, ⟨hostLoad_bar2 takes, hostStore_eq takes 2⟩,
      fun t => hostLoad_bar4 takes, fun t => hostStore_bar4 takes⟩

end Sys2Proof.Machine
end

section
/-! PROOFS. Storage connections, their timers and their commands (R447 to R461). -/

open Sys2Proof.Spec

namespace Sys2Proof.Machine

section
variable {d : AdminCmd} {buf host b : Bytes} {c k h at_ : Nat} {s : State} {v : StoConn}

@[simp] theorem conn_atTime : (s.atTime at_).conn c = s.conn c := rfl
@[simp] theorem conn_setConn : (s.setConn c v).conn c = some v := look_put_same ..
@[simp] theorem physOf_atTime {l : Nat} : (s.atTime at_).physOf l = s.physOf l := rfl
@[simp] theorem queue_atTime : (s.atTime at_).queue k = s.queue k := rfl

/-! ### Connection commands (R447 to R449) -/

/-- The connection that an accepted create makes. -/
def State.newConn (s : State) (d : AdminCmd) (b : Bytes) (k : Nat) : StoConn :=
  { record := b, fn := (s.queue k).fn, sq := k, createCmd := some d, iss := s.free % 2 ^ 32, una := s.free % 2 ^ 32, needSyn := true, scale := scaleFor (leAt b 0x42 2 * 1024), cwnd := 0 }

theorem exec_stoConnCreate (hb : sliceB buf 0 128 = b) (ha : Accepted s d 0x60) (sound : stoRecordOk b = true) (hall : s.physOf (leAt b 4 1) = some h) (flow : (s.flow h (leAt b 6 2)).isSome = true)
    (key : s.ringKey 1 (leAt b 0 4) d.fn = some k) (present : (s.queue k).present = true) (serves : (s.queue k).hall = leAt b 4 1) (sq : (s.queue k).isRq = false) (kind : (s.queue k).kind = 3)
    (esp : bitOf (leAt b 5 1) 4 = true → ∃ i, s.resolve 4 (leAt b 0x44 4) = some i ∧ keyRx (s.slot i).attr = true ∧ isEsp (keyType (s.slot i).attr) = true)
    (unbound : s.sto.conns.any (fun e => e.2.sq == k) = false) (room : s.sto.conns.length < 4096)
    (fresh : s.sto.conns.any (fun e => e.2.hall == leAt b 4 1 && e.2.flag 0 == bitOf (leAt b 5 1) 0 && sliceB e.2.record 0x18 36 == sliceB b 0x18 36) = false) :
    exec (.stoConnCreate d buf) s = .next
      ((s.drawn.setConn (((List.range 4096).find? (fun i => (s.conn i).isNone)).getD 0) (s.newConn d b k)).setFld Fld.STO_STATUS_CONNS (s.fld Fld.STO_STATUS_CONNS + 1)) := by
  subst hb
  refine next_admin ha ?_
  simp only [key, hall, flow, sound, present, serves, sq, kind, unbound, fresh]
  rw [if_neg (by simp)]
  by_cases keyed : bitOf (leAt (sliceB buf 0 128) 5 1) 4 = true
  · obtain ⟨i, slot, receives, isEsp_⟩ := esp keyed
    simp only [slot, receives, isEsp_]
    rw [if_neg (by simp), if_neg (by simp), if_neg (by simp [room])]
    rfl
  · rw [if_neg (by simp [keyed]), if_neg (by simp [keyed]), if_neg (by simp [room])]
    rfl

section
variable (named : s.resolve 6 (d.p 0) = some c) (conn : s.conn c = some v)
include named conn

/-- A close acts on its connection, which keeps the command. -/
theorem exec_stoConnClose (ha : Accepted s d 0x61) :
    let u := s.setConn c { v with closeCmd := some d }
    exec (.stoConnClose d) s = .next (if v.state = 3 ∨ (v.tcp = 0 ∧ d.p 1 = 0) then u.connClose c
      else if d.p 1 = 1 then ((match u.physOf v.hall with
        | some h => if v.tcp = 0 then u else (u.drawn.flowAppend h v.flow (frameRecord (u.tcpFrame v (u.free % 65536) 0x14 v.nxt [] []) false)).1
        | none => u).connFail c 7).connClose c
      else (u.setConn c { v with closeCmd := some d, state := 2 }).connFinish c) := by
  intro u
  refine next_admin ha ?_
  rw [named]
  dsimp only
  rw [conn] <;> rfl

theorem exec_stoConnQuery (ha : Accepted s d 0x62) (may : s.isOwner d.fn = true ∨ d.fn = v.fn) :
    exec (.stoConnQuery d) s = .next ((s.adminOut d (leBytes 1 v.state ++ leBytes 1 v.reason ++ leBytes 2 0 ++ leBytes 4 v.cmds.length ++ leBytes 1 v.cpda ++
        leBytes 1 (b2n v.hdgst) ++ leBytes 2 (b2n v.ddgst) ++ leBytes 4 v.maxH2c ++ leBytes 4 v.peerMss ++ leBytes 4 v.retrans ++ leBytes 40 0)).adminOk d) := by
  have permitted : ¬ ((!s.isOwner d.fn) = true ∧ d.fn ≠ v.fn) := by
    rintro ⟨other, apart⟩
    exact may.elim (by simpa using other) apart
  refine next_admin ha ?_
  rw [named]
  dsimp only
  rw [conn]
  exact if_neg permitted

end

theorem exec_stoConn_unnamed (none_ : s.resolve 6 (d.p 0) = none) :
    (Accepted s d 0x61 → exec (.stoConnClose d) s = .next (s.adminFail d St.badHandle)) ∧ (Accepted s d 0x62 → exec (.stoConnQuery d) s = .next (s.adminFail d St.badHandle)) := by
  constructor <;> intro ha <;> refine next_admin ha ?_ <;> rw [none_]

/-! ### Timers (R451, R452) -/

/-- A connection whose retransmission timer has expired once more: twice the time, from now. -/
def StoConn.backOff (v : StoConn) (now : Nat) : StoConn :=
  { v with retries := v.retries + 1, rto := min 60000000 (2 * v.rto), timed := none, recovering := false, dups := 0, rtoAt := some (now + min 60000000 (2 * v.rto) * 1000 * 65536) }

section
variable {t : Nat} (conn : s.conn c = some v) (timer : v.rtoAt = some t) (past : t < max s.now at_) (alive : v.state ≠ 3)
include conn timer past alive

theorem exec_rtoExpiry : exec (.rtoExpiry c at_) s = if s.fld Fld.STO_CFG_RETRIES ≤ v.retries + 1 then .next ((s.atTime at_).connFail c 2)
    else .next ((s.atTime at_).setConn c (if v.tcp = 0 then { v.backOff (max s.now at_) with needSyn := true }
      else { v.backOff (max s.now at_) with ssthresh := max (sub32 v.nxt v.una / 2) (2 * max 1 v.smss), cwnd := max 1 v.smss, sent := 0, needFin := v.tcp == 2, rexmit := v.outq != [] })) := by
  show execRtoExpiry c at_ s = _
  simp only [execRtoExpiry, conn_atTime, conn, timer]
  rw [if_neg (by simp [expired_atTime past, alive])]
  by_cases syn : v.tcp = 0
  · rw [if_pos syn, if_pos syn]
    rfl
  · rw [if_neg syn, if_neg syn]
    rfl

end

theorem exec_delayedAck {t : Nat} (conn : s.conn c = some v) (timer : v.ackAt = some t) (past : t < max s.now at_) :
    exec (.delayedAck c at_) s = .next ((s.atTime at_).setConn c { v with needAck := true }) := by
  show execDelayedAck c at_ s = _
  simp only [execDelayedAck, conn_atTime, conn, timer]
  rw [if_pos (expired_atTime past)]

/-! ### Segments (R449 to R454) -/

/-- A segment that has a whole header and a right checksum. -/
def StoConn.WholeSegment (v : StoConn) (b : Bytes) : Prop := 20 ≤ segHdr b ∧ segHdr b ≤ b.length ∧ onesSum (v.pseudo false b.length ++ b) 0 = 0xFFFF

section
variable {rest : List Bytes} (conn : s.conn c = some v) (queued : s.sto.rx.get [] c = b :: rest)
include conn queued

/-- A segment that is damaged, or of a connection that has failed, is dropped. -/
theorem exec_stoSegmentRx_dropped (bad : ¬ v.WholeSegment b ∨ v.state = 3) :
    exec (.stoSegmentRx c at_) s = .next { s.atTime at_ with sto := { s.sto with rx := s.sto.rx.put c rest } } := by
  have here : (s.atTime at_).sto.rx.get [] c = b :: rest := queued
  have drops : v.state = 3 ∨ segHdr b < 20 ∨ b.length < segHdr b ∨ onesSum (v.pseudo false b.length ++ b) 0 ≠ 0xFFFF := by
    unfold StoConn.WholeSegment at bad
    omega
  show execStoSegmentRx c at_ s = _
  simp only [execStoSegmentRx, conn_atTime, conn, here]
  exact if_pos drops

theorem exec_stoSegmentRx (whole : v.WholeSegment b) (alive : v.state ≠ 3) :
    let u := { s.atTime at_ with sto := { s.sto with rx := s.sto.rx.put c rest } }
    exec (.stoSegmentRx c at_) s = if v.tcp = 0 then .next (u.synSent c v b) else .next (u.segIn c v b) := by
  have here : (s.atTime at_).sto.rx.get [] c = b :: rest := queued
  have kept : ¬ (v.state = 3 ∨ segHdr b < 20 ∨ b.length < segHdr b ∨ onesSum (v.pseudo false b.length ++ b) 0 ≠ 0xFFFF) := by
    unfold StoConn.WholeSegment at whole
    omega
  show execStoSegmentRx c at_ s = _
  simp only [execStoSegmentRx, conn_atTime, conn, here]
  exact if_neg kept

end

theorem synSent_noise {u : State} (noAck : bitOf (beAt b 13 1) 4 = false) (noRst : bitOf (beAt b 13 1) 2 = false) : u.synSent c v b = u := by
  simp [State.synSent, noAck, noRst]

theorem synSent_reset {u : State} (ack : bitOf (beAt b 13 1) 4 = true) (rst : bitOf (beAt b 13 1) 2 = true) (number : beAt b 8 4 = add32 v.iss 1) : u.synSent c v b = u.connFail c 3 := by
  simp [State.synSent, ack, rst, number]

theorem exec_segmentEnqueue (conn : s.conn c = some v) (hall : s.physOf v.hall = some h) (runs : s.running h = true) :
    let u := if v.state ≤ 2 ∧ v.outq.length < v.sent + v.smss + 1 then (s.atTime at_).answerR2t c v host else s.atTime at_
    let x := (u.conn c).getD v
    ∀ fl seq opts pay w t, u.nextSegment x = some (fl, seq, opts, pay, w) → u.flowAppend h x.flow (frameRecord (u.tcpFrame x (u.free % 65536) fl seq opts pay) false) = (t, true) →
    exec (.segmentEnqueue c host at_) s = .next (((t.drawn.setConn c w).bumpBy Fld.STO_CNT_RETRANS_COUNT (w.retrans - x.retrans)).connClosing c) := by
  intro u x fl seq opts pay w t next room
  have stays : ¬ (!(s.atTime at_).running h) = true := by
    rw [show (s.atTime at_).running h = s.running h from rfl, runs]
    decide
  show execSegmentEnqueue c host at_ s = _
  simp only [execSegmentEnqueue, conn_atTime, conn, physOf_atTime, hall]
  rw [if_neg stays]
  simp only [u, x] at next room
  simp only [next, room, u, x]

/-! ### Commands (R455 to R457) -/

section
variable {e : Desc} {rest : List Desc} {u : State} (ready : (s.queue k).ready = e :: rest) (present : (s.queue k).present = true) (sq : (s.queue k).isRq = false) (kind : (s.queue k).kind = 3) (ring : k < 65536)
  (turn : (s.atTime at_).openTurn ((s.atTime at_).servingHall (s.queue k)) ((s.atTime at_).stoClass ((s.atTime at_).servingHall (s.queue k))) (s.queue k).fn = some u)
include ready present sq kind ring turn

theorem exec_stoCommandFetch :
    let w := u.setQueue k { s.queue k with ready := rest }
    exec (.stoCommandFetch k at_) s = match w.stoCheck k (s.queue k).fn e.bytes with
      | some (dt, st) => .next (w.descDone k e.idx ⟨e.cookie, e.batchEnd, st, dt, 0, 0, 0, 0⟩)
      | none => match w.sto.conns.find? (fun x => x.2.sq == k) with
        | some (c, v) => .next (w.setConn c { v with waiting := v.waiting ++ [e] })
        | none => .next w := by
  intro w
  show execStoCommandFetch k at_ s = _
  simp only [execStoCommandFetch, queue_atTime, ready]
  refine (if_neg (by simp [present, sq, kind, ring])).trans ?_
  rw [turn] <;> rfl

end

section
variable {e : Desc} {rest : List Desc} {cid : Nat} (conn : s.conn c = some v) (waiting : v.waiting = e :: rest)
  (free : (List.range v.depth).find? (fun i => !v.cmds.any (fun m => m.cid == i)) = some cid) (hall : s.physOf v.hall = some h) (runs : v.state = 1 ∨ v.state = 2)
include conn waiting free hall runs

theorem exec_stoCommandStart : exec (.stoCommandStart c host at_) s =
    match (s.atTime at_).stoReady h c (stoArg 65536 e.idx) v e.bytes 0 (if stoInCap e.bytes then stoLen e.bytes else 0) with
    | (u, false) => .next u
    | (u, true) => .next (u.stoStart h c v e rest cid host) := by
  show execStoCommandStart c host at_ s = _
  simp only [execStoCommandStart, conn_atTime, conn, waiting, free, physOf_atTime, hall]
  exact if_neg (by omega)

/-- A command without in-capsule data, whose buffer is host memory, starts at once. -/
theorem exec_stoCommandStart_host (inHost : stoHost e.bytes = true) (outside : stoInCap e.bytes = false) : exec (.stoCommandStart c host at_) s = .next
    ((((s.atTime at_).setConn c { v with waiting := rest }).setConn c { v with waiting := rest, cmds := v.cmds ++ [{ cid := cid, desc := e, moved := 0 }] }).pduOut c 4 0 (stoSqe e.bytes cid) []) := by
  have atHand : (s.atTime at_).stoReady h c (stoArg 65536 e.idx) v e.bytes 0 (if stoInCap e.bytes then stoLen e.bytes else 0) = (s.atTime at_, true) := by
    rw [outside]
    exact if_pos (.inr rfl)
  rw [exec_stoCommandStart conn waiting free hall runs, atHand]
  simp [State.stoStart, inHost, outside]

end
end

/-- Settles O57: connections, their timers and segments, then the commands, each by its guards. -/
theorem storageCommands : Obligations.StorageCommands := by
  unfold Obligations.StorageCommands Gives
  refine fun d buf host c k at_ s => ⟨fun h => exec_stoConnCreate rfl, fun v named conn => ⟨?_, ?_, ?_, ?_, exec_stoConnQuery named conn⟩, exec_stoConn_unnamed, fun v t conn timer past alive => ⟨?_, ?_⟩,
    fun v t => exec_delayedAck, fun v b rest conn queued => ⟨exec_stoSegmentRx_dropped conn queued, ?_, ?_, synSent_noise, synSent_reset⟩, fun e rest u ready present sq kind ring turn => ⟨?_, ?_⟩,
    fun e rest v cid h conn waiting free hall runs => ⟨?_, ?_, exec_stoCommandStart_host conn waiting free hall runs⟩, fun v h => exec_segmentEnqueue⟩
  · exact fun ha ends => (exec_stoConnClose named conn ha).trans (congrArg _ (if_pos ends))
  · intro ha alive syn abort
    rw [exec_stoConnClose named conn ha, if_neg (by omega), if_pos abort]
    cases State.physOf _ v.hall with
    | none => rfl
    | some h => exact congrArg (fun u : State => Host.Outcome.next ((u.connFail c 7).connClose c)) (if_pos syn)
  · intro h ha alive begun abort hall
    rw [exec_stoConnClose named conn ha, if_neg (by omega), if_pos abort, hall]
    exact congrArg (fun u : State => Host.Outcome.next ((u.connFail c 7).connClose c)) (if_neg begun)
  · intro ha alive begun close
    rw [exec_stoConnClose named conn ha, if_neg (by omega), if_neg (by omega)]
  · exact fun last => (exec_rtoExpiry conn timer past alive).trans (if_pos last)
  · refine fun more => ⟨fun syn => ?_, fun begun => ?_⟩
    · rw [exec_rtoExpiry conn timer past alive, if_neg (by omega), if_pos syn]
      rfl
    · have unsent : (v.outq != []) = decide (v.outq ≠ []) := by cases v.outq <;> rfl
      rw [exec_rtoExpiry conn timer past alive, if_neg (by omega), if_neg begun, beq_eq_decide, unsent]
      rfl
  · exact fun whole alive syn => (exec_stoSegmentRx conn queued whole alive).trans (if_pos syn)
  · exact fun whole alive begun => (exec_stoSegmentRx conn queued whole alive).trans (if_neg begun)
  · intro dt st broken
    rw [exec_stoCommandFetch ready present sq kind ring turn, broken]
  · intro v sound found
    rw [exec_stoCommandFetch ready present sq kind ring turn, sound]
    dsimp only
    rw [found]
  · intro u atHand
    rw [exec_stoCommandStart conn waiting free hall runs, atHand]
  · intro u awaited
    rw [exec_stoCommandStart conn waiting free hall runs, awaited]

end Sys2Proof.Machine
end

section
/-! PROOFS. Ownership (R495 to R499): claims, releases, seizures, renewals and the lapse of a lease. -/

open Sys2Proof.Spec

namespace Sys2Proof.Machine

section
variable {d : AdminCmd} {b : Bytes} {s : State} {at_ : Nat}

@[simp] theorem epoch_atTime : (s.atTime at_).epoch = s.epoch := rfl

/-! ### Pending changes (R496) -/

/-- What is kept of the ownership beyond its registers changes none of them. -/
theorem fld_withOwn {o : OwnSt} {g : Fld} {i j : Nat} : ({ s with own := o } : State).fld g i j = s.fld g i j := rfl
theorem flag_withOwn {o : OwnSt} {g : Fld} {i j : Nat} : ({ s with own := o } : State).flag g i j = s.flag g i j := rfl

/-- A change that is shown as pending. -/
def State.showPending (s : State) (d : AdminCmd) (kind port : Nat) : State :=
  let s := ((s.raise Fld.OWN_STATE_PENDING).setFld Fld.OWN_STATE_PENDING_KIND kind).setFld Fld.OWN_STATE_PENDING_PORT port
  { s with own := { s.own with changeCmd := some d } }

/-- While a plan is active a change waits for the landing. -/
theorem pendChange_active {kind port : Nat} (active : s.planActive = true) : s.pendChange d kind port = s.showPending d kind port := by
  have still : (s.showPending d kind port).planActive = true := by
    rw [← active, State.planActive, State.showPending, fld_withOwn, fld_setFld_spares (by decide), fld_setFld_spares (by decide), fld_raise_spares (by decide), State.planActive]
  exact if_pos still

theorem showPending_shown {kind port : Nat} (hk : kind < 4) : (s.showPending d kind port).flag Fld.OWN_STATE_PENDING = true ∧ (s.showPending d kind port).fld Fld.OWN_STATE_PENDING_KIND = kind ∧
    (s.showPending d kind port).own.changeCmd = some d ∧ (s.showPending d kind port).ownerValid = s.ownerValid := by
  refine ⟨?_, ?_, rfl, ?_⟩
  · rw [State.showPending, flag_withOwn, flag_setFld_spares (by decide), flag_setFld_spares (by decide), flag_raise (by decide)]
  · rw [State.showPending, fld_withOwn, fld_setFld_spares (by decide), fld_setFld_of_lt (by decide) hk]
  · rw [State.ownerValid, State.showPending, flag_withOwn, flag_setFld_spares (by decide), flag_setFld_spares (by decide), flag_raise_spares (by decide), State.ownerValid]

/-! ### Claims and releases (R496, R497) -/

/-- An accepted claim meets the checks of the rule in order. -/
theorem exec_ownClaim (ha : Accepted s d 0x70) : exec (.ownClaim d) s = .next (
    if d.p 0 ≠ s.epoch then s.refused d St.accessDenied 2
    else if s.isOwner d.fn ∧ !s.flag Fld.OWN_STATE_PENDING then s.adminOk d s.epoch
    else if s.flag Fld.OWN_STATE_PENDING then s.refused d St.accessDenied 4
    else if s.epoch ≥ 0xFFFFFFFF then s.refused d St.quota 5
    else if s.ownerValid ∧ !s.flag Fld.OWN_STATE_LAPSED then s.refused d St.accessDenied 3
    else s.pendChange d 0 (portOf d.fn)) := by
  obtain ⟨kept, passed⟩ := ha
  show execOwnClaim d s = _
  rw [execOwnClaim, kept, passed]
  rfl

section
variable (ha : Accepted s d 0x70) (current : d.p 0 = s.epoch) (stranger : s.isOwner d.fn = false) (still : s.flag Fld.OWN_STATE_PENDING = false) (left : s.epoch < 0xFFFFFFFF)
include ha current stranger still left

theorem exec_ownClaim_pends (open_ : s.ownerValid = false ∨ s.flag Fld.OWN_STATE_LAPSED = true) : exec (.ownClaim d) s = .next (s.pendChange d 0 (portOf d.fn)) := by
  rw [exec_ownClaim ha, if_neg (not_not.mpr current), if_neg (by simp [stranger]), if_neg (by simp [still]), if_neg (by omega), if_neg ?_]
  rintro ⟨valid, lasts⟩
  exact open_.elim (by simp [valid]) (by simpa using lasts)

theorem exec_ownClaim_held (valid : s.ownerValid = true) (lasts : s.flag Fld.OWN_STATE_LAPSED = false) : exec (.ownClaim d) s = .next (s.refused d St.accessDenied 3) := by
  rw [exec_ownClaim ha, if_neg (not_not.mpr current), if_neg (by simp [stranger]), if_neg (by simp [still]), if_neg (by omega), if_pos (by simp [valid, lasts])]

end

theorem exec_ownRelease (ha : Accepted s d 0x71) (still : s.flag Fld.OWN_STATE_PENDING = false) (left : s.epoch < 0xFFFFFFFF) : exec (.ownRelease d) s = .next (s.pendChange d 2 0) :=
  next_admin ha ((if_neg (by simp [still])).trans (if_neg (by omega)))

/-! ### Signed commands (R486, R499) -/

/-- A signed command that is accepted, and whose record passes, does what its own checks and effect leave. -/
theorem next_signed {op used : Nat} {ok : Bool} {k : State → State} {t : State} (ha : Accepted s d op) (sound : s.signedCheck op used ok b = none) (hk : k s = t) :
    (.next (s.signed d b op used ok k) : Answer) = .next t := by
  obtain ⟨kept, passed⟩ := ha
  rw [State.signed, kept, passed, ← hk]
  simp only [sound]
  rfl

section
variable (ha : Accepted s d 0x72) (sound : s.signedCheck 0x72 1 (leAt b 0x18 1 == portOf d.fn) b = none) (left : s.epoch < 0xFFFFFFFF)
include ha sound left

theorem exec_ownSeize (still : s.flag Fld.OWN_STATE_PENDING = false) : exec (.ownSeize d b) s = .next (s.newNonce.pendChange d 1 (portOf d.fn)) := by
  refine next_signed ha sound ?_
  rw [still]
  exact (if_neg (by simp)).trans (if_neg (by omega))

/-- A claim that was pending is refused for the seizure. -/
theorem exec_ownSeize_claim {c : AdminCmd} (pends : s.flag Fld.OWN_STATE_PENDING = true) (claim : s.fld Fld.OWN_STATE_PENDING_KIND = 0) (cmd : s.own.changeCmd = some c) :
    exec (.ownSeize d b) s = .next ((s.refused c St.accessDenied 4).newNonce.pendChange d 1 (portOf d.fn)) := by
  refine next_signed ha sound ?_
  rw [pends, claim, cmd]
  exact (if_neg (by simp)).trans (if_neg (by omega))

end

/-! ### Leases (R495) -/

theorem exec_ownRenew {f : Nat} (owner : s.isOwner f = true) : exec (.ownRenew (.fn f) s.epoch at_) s =
    .next ({ s.atTime at_ with own := { s.own with leaseStart := max s.now at_ } }.setFld Fld.OWN_STATE_LAPSED 0) := by
  have good : ((s.atTime at_).isOwner f && s.epoch == (s.atTime at_).epoch) = true := by
    rw [show (s.atTime at_).isOwner f = s.isOwner f from rfl, owner, epoch_atTime, beq_self_eq_true]
    rfl
  exact if_pos good

theorem exec_ownRenew_bad {f value : Nat} (bad : s.isOwner f = false ∨ value ≠ s.epoch) : exec (.ownRenew (.fn f) value at_) s =
    .next (((s.atTime at_).bump Fld.OWN_CNT_RENEW_BAD_COUNT).raise Fld.OWN_FLAGS_RENEW_BAD) := by
  have no : ¬ ((s.atTime at_).isOwner f && value == (s.atTime at_).epoch) = true := by
    rw [show (s.atTime at_).isOwner f = s.isOwner f from rfl, epoch_atTime]
    rcases bad with stranger | stale
    · simp [stranger]
    · simp [stale]
  exact if_neg no

theorem exec_leaseLapse (valid : s.ownerValid = true) (lasts : s.flag Fld.OWN_STATE_LAPSED = false) (past : s.own.leaseStart + s.fld Fld.OWN_LEASE_TERM_MS * 1000000 * 65536 < max s.now at_) :
    exec (.leaseLapse at_) s = .next (((((s.atTime at_).raise Fld.OWN_STATE_LAPSED).raise Fld.OWN_FLAGS_LAPSED).almDev 0x0C05 (leBytes 4 (s.fld Fld.OWN_STATE_OWNER_PORT) ++ leBytes 4 s.epoch)).eventPfs 0x08
      (ownBody (s.fld Fld.OWN_STATE_OWNER_PORT) s.epoch 3)) := by
  have lapses : (s.atTime at_).ownerValid = true ∧ (!(s.atTime at_).flag Fld.OWN_STATE_LAPSED) = true ∧
      (s.atTime at_).expired ((s.atTime at_).own.leaseStart + (s.atTime at_).fld Fld.OWN_LEASE_TERM_MS * 1000000 * nsTicks) = true :=
    ⟨valid, by simp [lasts], expired_atTime past⟩
  have flagged : (((s.atTime at_).raise Fld.OWN_STATE_LAPSED).raise Fld.OWN_FLAGS_LAPSED).epoch = s.epoch := (fld_raise_spares (by decide)).trans (fld_raise_spares (by decide))
  have logged (c : Bytes) : ((((s.atTime at_).raise Fld.OWN_STATE_LAPSED).raise Fld.OWN_FLAGS_LAPSED).almDev 0x0C05 c).epoch = s.epoch := (fld_almDev _ _ (by decide) (by decide)).trans flagged
  refine (if_pos lapses).trans ?_
  rw [logged, flagged, fld_atTime]

end

/-- Settles O44: claims by the order of their checks, then releases, seizures, renewals and the lapse. -/
theorem ownershipCommands : Obligations.OwnershipCommands := by
  unfold Obligations.OwnershipCommands Gives
  refine fun d b who value at_ s => ⟨fun ha current stranger still left open_ => ⟨exec_ownClaim_pends ha current stranger still left open_, fun active => ?_⟩, fun ha current owner still => ?_, fun ha stale => ?_,
    fun ha current pends => ?_, exec_ownClaim_held, exec_ownRelease, fun ha sound left => ⟨exec_ownSeize ha sound left, fun c => exec_ownSeize_claim ha sound left⟩, ?_, ?_, exec_leaseLapse⟩
  · rw [exec_ownClaim_pends ha current stranger still left open_, pendChange_active active]
    exact ⟨_, rfl, showPending_shown (by decide)⟩
  · rw [exec_ownClaim ha, if_neg (not_not.mpr current), if_pos (by simp [owner, still])]
  · rw [exec_ownClaim ha, if_pos stale]
  · rw [exec_ownClaim ha, if_neg (not_not.mpr current), if_neg (by simp [pends]), if_pos pends]
  · rintro f rfl owner rfl
    exact ⟨_, exec_ownRenew owner, rfl, flag_setFld_zero (by decide)⟩
  · rintro f rfl bad
    exact ⟨_, exec_ownRenew_bad bad, rfl, flag_raise (by decide)⟩

end Sys2Proof.Machine
end

section
/-! PROOFS. Trust and firmware (R484 to R490): plan keys, KEK0, images, the fused minimum and the boot ROM. -/

open Sys2Proof.Spec

namespace Sys2Proof.Machine

section
variable {d : AdminCmd} {b : Bytes} {s : State} {at_ : Nat}

/-! ### Signed commands on the trust store (R488 to R490) -/

theorem exec_plankeyEnroll (ha : Accepted s d 0x74) (sound : s.signedCheck 0x74 98 (decide (leAt b 0x18 1 < 4) && leAt b 0x19 1 == 4) b = none) (free : look s.own.planKeys (leAt b 0x18 1) = none) :
    exec (.plankeyEnroll d b) s =
      .next (({ s with own := { s.own with planKeys := s.own.planKeys.put (leAt b 0x18 1) ⟨payloadAt b 1 97, false⟩ } }.showPlanKeys.newNonce).adminOk d) :=
  next_signed ha sound (if_neg (by simp [free]))

theorem exec_plankeyRevoke {k : PlanKey} (ha : Accepted s d 0x75) (sound : s.signedCheck 0x75 1 (decide (leAt b 0x18 1 < 4)) b = none) (key : s.planKey (leAt b 0x18 1) = some k)
    (others : 1 < (s.own.planKeys.filter (fun e => !e.2.revoked)).length) : exec (.plankeyRevoke d b) s =
      .next (({ s with own := { s.own with planKeys := s.own.planKeys.put (leAt b 0x18 1) { k with revoked := true } } }.showPlanKeys.newNonce).adminOk d) := by
  refine next_signed ha sound ?_
  rw [key]
  exact if_neg (Nat.not_le.mpr others)

theorem exec_kek0Install {k : Bytes} (ha : Accepted s d 0x76) (sound : s.signedCheck 0x76 137 true b = none)
    (wrapped : Config.keyUnwrap (Config.kek0WrapKey (payloadAt b 0 97) (beBytes 8 Config.serial.toNat)) (payloadAt b 97 40) = some k) :
    exec (.kek0Install d b) s = .next ((({ s with own := { s.own with kek0 := some k } }.setFld ⟨.CPH_KEK_VALID, 0, 0⟩ 1).newNonce).adminOk d) := by
  refine next_signed ha sound ?_
  rw [wrapped]

section
variable (ha : Accepted s d 0x77) (sound : s.signedCheck 0x77 0 true b = none) (none_ : s.own.clearCmd = none)
include ha sound none_

theorem exec_commissionClear (idle : s.planActive = false) : exec (.commissionClear d b) s = .next (s.newNonce.clearTrust.adminOk d) :=
  next_signed ha sound ((if_neg (by simp [none_])).trans (if_neg (by simp [idle])))

theorem exec_commissionClear_waits (active : s.planActive = true) : exec (.commissionClear d b) s = .next { s.newNonce with own := { s.newNonce.own with clearCmd := some d } } :=
  next_signed ha sound ((if_neg (by simp [none_])).trans (if_pos active))

end

/-! ### Images (R485) -/

theorem exec_fwUpdate (ha : Accepted s d 0x78) (passes : s.imageOk b = true) : exec (.fwUpdate d b) s = .next (
    let slot := 1 - s.fld Fld.OWN_BOOT_STATUS_IMAGE
    (({ s with own := if slot = 0 then { s.own with imageA := b } else { s.own with imageB := b } } : State).setFld Fld.OWN_BOOT_STATUS_PREFER slot).adminOk d) :=
  next_admin ha (if_neg (by simp [passes]))

/-! ### The boot ROM (R484, R492) -/

/-- A field that running an image does not write. -/
abbrev RunSpares (g : Fld) : Prop :=
  Fld.OWN_BOOT_STATUS_STAGE.Spares g ∧ Fld.OWN_BOOT_STATUS_IMAGE.Spares g ∧ Fld.ATR_STATUS_POWERED.Spares g ∧ Fld.OWN_FW_SVN_RUNNING.Spares g

/-- The registers that a running image shows, before what the part keeps beyond them. -/
def State.showRuns (s : State) (slot svn : Nat) : State :=
  let s := (s.setFld Fld.OWN_BOOT_STATUS_STAGE 2).setFld Fld.OWN_BOOT_STATUS_IMAGE slot
  let s := if s.flag Fld.CALM_STATE_STANDBY then s else s.setFld Fld.ATR_STATUS_POWERED 15
  s.setFld Fld.OWN_FW_SVN_RUNNING svn

theorem runImage_regs {slot : Nat} : (s.runImage slot b).regs = (s.showRuns slot (leAt b 8 1)).regs := rfl

theorem fld_showRuns {slot svn : Nat} {g : Fld} (hp : Fld.ATR_STATUS_POWERED.Spares g) (hr : Fld.OWN_FW_SVN_RUNNING.Spares g) :
    (s.showRuns slot svn).fld g = ((s.setFld Fld.OWN_BOOT_STATUS_STAGE 2).setFld Fld.OWN_BOOT_STATUS_IMAGE slot).fld g := by
  unfold State.showRuns
  dsimp only
  rw [fld_setFld_spares hr]
  split
  · rfl
  · exact fld_setFld_spares hp

theorem fld_runImage {slot : Nat} {g : Fld} (hg : RunSpares g) : (s.runImage slot b).fld g = s.fld g := by
  obtain ⟨stage, image, power, running⟩ := hg
  rw [fld_congr _ _ _ _ runImage_regs, fld_showRuns power running, fld_setFld_spares image, fld_setFld_spares stage]

theorem runImage_shown {slot : Nat} (hs : slot < 2) : (s.runImage slot b).fld Fld.OWN_BOOT_STATUS_STAGE = 2 ∧ (s.runImage slot b).fld Fld.OWN_BOOT_STATUS_IMAGE = slot ∧
    (s.runImage slot b).own.entry = leAt b 16 8 := by
  refine ⟨?_, ?_, rfl⟩
  · rw [fld_congr _ _ _ _ runImage_regs, fld_showRuns (by decide) (by decide), fld_setFld_spares (by decide), fld_setFld_of_lt (by decide) (by decide)]
  · rw [fld_congr _ _ _ _ runImage_regs, fld_showRuns (by decide) (by decide), fld_setFld_of_lt (by decide) hs]

/-- Whether an image passes rests on the fused minimum alone. -/
theorem imageOk_congr {t : State} (h : t.fld Fld.OWN_FW_SVN_MIN = s.fld Fld.OWN_FW_SVN_MIN) : t.imageOk b = s.imageOk b := by rw [State.imageOk, h, State.imageOk]

@[simp] theorem imageOk_atTime : (s.atTime at_).imageOk b = s.imageOk b := imageOk_congr (fld_atTime ..)

/-- The image that a slot holds, and the mark that it failed. -/
def State.slotImage (s : State) (n : Nat) : Bytes := if n = 0 then s.own.imageA else s.own.imageB
def State.markSlot (s : State) (n v : Nat) : State := if n = 0 then s.setFld Fld.OWN_BOOT_STATUS_A_BAD v else s.setFld Fld.OWN_BOOT_STATUS_B_BAD v

theorem slotImage_zero : s.slotImage 0 = s.own.imageA := rfl
theorem slotImage_one : s.slotImage 1 = s.own.imageB := rfl
theorem markSlot_zero {v : Nat} : s.markSlot 0 v = s.setFld Fld.OWN_BOOT_STATUS_A_BAD v := rfl
theorem markSlot_one {v : Nat} : s.markSlot 1 v = s.setFld Fld.OWN_BOOT_STATUS_B_BAD v := rfl

theorem fld_markSlot {n v : Nat} {g : Fld} (ha : Fld.OWN_BOOT_STATUS_A_BAD.Spares g) (hb : Fld.OWN_BOOT_STATUS_B_BAD.Spares g) : (s.markSlot n v).fld g = s.fld g := by
  unfold State.markSlot
  split
  · exact fld_setFld_spares ha
  · exact fld_setFld_spares hb

/-- The boot ROM's choice: the preferred image, else the other, which the mark on the first does not concern, else recovery. -/
def State.boots (s : State) (pref : Nat) : State :=
  if s.imageOk (s.slotImage pref) then (s.markSlot pref 0).runImage pref (s.slotImage pref)
  else if (s.markSlot pref 1).imageOk (s.slotImage (1 - pref)) then
    (((((s.markSlot pref 1).markSlot (1 - pref) 0).runImage (1 - pref) (s.slotImage (1 - pref))).raise Fld.OWN_FLAGS_BOOT_FALLBACK).almDev 0x0C02 (leBytes 1 (1 - pref) ++ leBytes 1 (leAt (s.slotImage (1 - pref)) 8 1)))
  else ((s.markSlot pref 1).markSlot (1 - pref) 1).setFld Fld.OWN_BOOT_STATUS_STAGE 3

theorem boots_lastReset {pref : Nat} : (s.boots pref).fld Fld.OWN_BOOT_STATUS_LAST_RESET = s.fld Fld.OWN_BOOT_STATUS_LAST_RESET := by
  unfold State.boots
  split
  · rw [fld_runImage (by decide), fld_markSlot (by decide) (by decide)]
  · split
    · rw [fld_almDev _ _ (by decide) (by decide), fld_raise_spares (by decide), fld_runImage (by decide), fld_markSlot (by decide) (by decide), fld_markSlot (by decide) (by decide)]
    · rw [fld_setFld_spares (by decide), fld_markSlot (by decide) (by decide), fld_markSlot (by decide) (by decide)]

theorem exec_firmwareVerify (waits : s.fld Fld.OWN_BOOT_STATUS_STAGE < 2) (powered : s.own.powered = true) : exec (.firmwareVerify at_) s = .next (
    let t := (s.atTime at_).boots (s.fld Fld.OWN_BOOT_STATUS_PREFER)
    if s.fld Fld.OWN_BOOT_STATUS_LAST_RESET = 2 then t.failInflight else t) := by
  have goes : ¬ (2 ≤ (s.atTime at_).fld Fld.OWN_BOOT_STATUS_STAGE ∨ (!(s.atTime at_).own.powered) = true) := by
    simp [waits, powered]
  have decides : exec (.firmwareVerify at_) s = .next (
      let t := (s.atTime at_).boots ((s.atTime at_).fld Fld.OWN_BOOT_STATUS_PREFER)
      if t.fld Fld.OWN_BOOT_STATUS_LAST_RESET = 2 then t.failInflight else t) := if_neg goes
  rw [decides]
  dsimp only
  rw [boots_lastReset, fld_atTime, fld_atTime]

section
variable {pref : Nat}

theorem boots_first (passes : s.imageOk (s.slotImage pref) = true) : s.boots pref = (s.markSlot pref 0).runImage pref (s.slotImage pref) := if_pos passes

theorem imageOk_markSlot {n v : Nat} : (s.markSlot n v).imageOk b = s.imageOk b := imageOk_congr (fld_markSlot (by decide) (by decide))

theorem boots_other (fails : s.imageOk (s.slotImage pref) = false) (passes : s.imageOk (s.slotImage (1 - pref)) = true) :
    s.boots pref = (((((s.markSlot pref 1).markSlot (1 - pref) 0).runImage (1 - pref) (s.slotImage (1 - pref))).raise Fld.OWN_FLAGS_BOOT_FALLBACK).almDev 0x0C02
      (leBytes 1 (1 - pref) ++ leBytes 1 (leAt (s.slotImage (1 - pref)) 8 1))) := by
  rw [State.boots, fails, imageOk_markSlot, passes]
  rfl

theorem boots_neither (fails : s.imageOk (s.slotImage pref) = false) (failsToo : s.imageOk (s.slotImage (1 - pref)) = false) :
    s.boots pref = ((s.markSlot pref 1).markSlot (1 - pref) 1).setFld Fld.OWN_BOOT_STATUS_STAGE 3 := by
  rw [State.boots, fails, imageOk_markSlot, failsToo]
  rfl

end

theorem recovery_shown : let t := ((s.markSlot 0 1).markSlot 1 1).setFld Fld.OWN_BOOT_STATUS_STAGE 3
    t.fld Fld.OWN_BOOT_STATUS_STAGE = 3 ∧ t.flag Fld.OWN_BOOT_STATUS_A_BAD = true ∧ t.flag Fld.OWN_BOOT_STATUS_B_BAD = true := by
  have marked (u : State) {f : Fld} (hf : f.InWord) : (u.setFld f 1).flag f = true := flag_raise hf
  refine ⟨fld_setFld_of_lt (by decide) (by decide), ?_, ?_⟩
  · exact ((flag_setFld_spares (by decide)).trans (flag_setFld_spares (by decide))).trans (marked s (by decide))
  · exact (flag_setFld_spares (by decide)).trans (marked _ (by decide))

end

/-- Settles O45: the signed commands, the images, then the boot ROM's choice. -/
theorem trustAndFirmware : Obligations.TrustAndFirmware := by
  unfold Obligations.TrustAndFirmware Gives
  refine fun d b at_ s => ⟨exec_plankeyEnroll, fun k => exec_plankeyRevoke, fun k => exec_kek0Install, fun ha sound none_ => ⟨exec_commissionClear ha sound none_, exec_commissionClear_waits ha sound none_⟩,
    fun ha passes => ⟨fun runs => ?_, fun runs => ?_⟩, fun ha => next_admin ha rfl, fun ha => next_admin ha rfl, fun waits powered prefers => ⟨fun cold passes => ?_, fun warm passes => ?_, fun cold fails passes => ?_, fun cold fails failsB => ?_⟩,
    fun waits powered prefers cold passes => ?_⟩
  · rw [exec_fwUpdate ha passes, runs]
    rfl
  · rw [exec_fwUpdate ha passes, runs]
    rfl
  · rw [exec_firmwareVerify waits powered, prefers, boots_first (pref := 0) (imageOk_atTime.trans passes), slotImage_zero, markSlot_zero, atTime_own]
    dsimp only
    rw [if_neg cold]
    exact ⟨_, rfl, rfl, runImage_shown (by decide)⟩
  · rw [exec_firmwareVerify waits powered, prefers, boots_first (pref := 0) (imageOk_atTime.trans passes), slotImage_zero, markSlot_zero, atTime_own]
    exact congrArg _ (if_pos warm)
  · rw [exec_firmwareVerify waits powered, prefers, boots_other (pref := 0) (imageOk_atTime.trans fails) (imageOk_atTime.trans passes), slotImage_one, markSlot_zero, markSlot_one, atTime_own]
    exact congrArg _ (if_neg cold)
  · rw [exec_firmwareVerify waits powered, prefers, boots_neither (pref := 0) (imageOk_atTime.trans fails) (imageOk_atTime.trans failsB)]
    dsimp only
    rw [if_neg cold]
    exact ⟨_, rfl, recovery_shown⟩
  · rw [exec_firmwareVerify waits powered, prefers, boots_first (pref := 1) (imageOk_atTime.trans passes), slotImage_one, markSlot_one, atTime_own]
    dsimp only
    rw [if_neg cold]
    exact ⟨_, rfl, runImage_shown (by decide)⟩

end Sys2Proof.Machine
end

section
/-! PROOFS. The Almanac (R521 to R526), the status pages (R511) and the watchdog's kick. -/

open Sys2Proof.Spec

namespace Sys2Proof.Machine

section
variable {d : AdminCmd} {e : AlmEntry} {rest : List AlmEntry} {who : Who} {value at_ : Nat} {s : State}

/-! ### Writing an entry (R522) -/

/-- The entry stands in the ring, and the next SEQ is shown. -/
def State.almPut (s : State) (e : AlmEntry) : State :=
  let q := s.fld Fld.ALM_HEAD_SEQ
  ({ s with flt := { s.flt with ring := s.flt.ring.put (q % 32768) (almBytes q e) } }).setFld Fld.ALM_HEAD_SEQ (seqNext q)

/-- The ring is fuller than its mark allows. -/
def State.highWater (s : State) (q : Nat) : State :=
  if s.fld Fld.ALM_CFG_HIGH_WATER < sub32 (seqNext q) (s.fld Fld.ALM_MARK_SEQ) then s.raise Fld.ALM_STATUS_HIGH_WATER else s

/-- What is kept of a freeze. -/
def State.withFreeze (s : State) (n : Option Nat) : State := { s with flt := { s.flt with freezeLeft := n } }

/-- A freeze is counted down and begins, or is asked for. -/
def State.freezes (s : State) (left : Option Nat) (q : Nat) (e : AlmEntry) : State :=
  match left with
  | some n =>
    if n ≤ 1 then (((s.withFreeze none).raise Fld.ALM_STATUS_FROZEN).raise Fld.ALM_STATUS_FROZE).setFld Fld.ALM_FROZEN_SEQ_SEQ q
    else s.withFreeze (some (n - 1))
  | none => if s.flag Fld.ALM_CFG_FREEZE_EN ∧ (e.code = 0x0D02 ∨ e.code = 0x0D03 ∨ e.code = 0x0D04) then s.withFreeze (some 1024) else s

theorem almWrite_eq : s.almWrite e = ((s.almPut e).highWater (s.fld Fld.ALM_HEAD_SEQ)).freezes s.flt.freezeLeft (s.fld Fld.ALM_HEAD_SEQ) e := rfl

theorem almPut_shown : (s.almPut e).flt.ring = s.flt.ring.put (s.fld Fld.ALM_HEAD_SEQ % 32768) (almBytes (s.fld Fld.ALM_HEAD_SEQ) e) ∧ (s.almPut e).flt.almQueue = s.flt.almQueue ∧
    (s.almPut e).fld Fld.ALM_HEAD_SEQ = seqNext (s.fld Fld.ALM_HEAD_SEQ) := by
  refine ⟨rfl, rfl, fld_setFld_of_lt (by decide) ?_⟩
  show seqNext (s.fld Fld.ALM_HEAD_SEQ) < 2 ^ 32
  unfold seqNext
  split <;> omega

/-- Neither the mark nor a freeze touches the ring, the write queue or the next SEQ. -/
def State.SameRing (s t : State) : Prop := t.flt.ring = s.flt.ring ∧ t.flt.almQueue = s.flt.almQueue ∧ t.fld Fld.ALM_HEAD_SEQ = s.fld Fld.ALM_HEAD_SEQ

theorem sameRing_highWater {q : Nat} : s.SameRing (s.highWater q) := by
  unfold State.highWater
  split
  · exact ⟨rfl, rfl, fld_raise_spares (by decide)⟩
  · exact ⟨rfl, rfl, rfl⟩

theorem sameRing_withFreeze {n : Option Nat} : s.SameRing (s.withFreeze n) := ⟨rfl, rfl, rfl⟩

theorem sameRing_freezes {left : Option Nat} {q : Nat} : s.SameRing (s.freezes left q e) := by
  unfold State.freezes
  split
  · split
    · refine ⟨rfl, rfl, ?_⟩
      rw [fld_setFld_spares (by decide), fld_raise_spares (by decide), fld_raise_spares (by decide)]
      rfl
    · exact sameRing_withFreeze
  · split
    · exact sameRing_withFreeze
    · exact ⟨rfl, rfl, rfl⟩

theorem almWrite_shown : (s.almWrite e).flt.ring.get [] (s.fld Fld.ALM_HEAD_SEQ % 32768) = almBytes (s.fld Fld.ALM_HEAD_SEQ) e ∧ (s.almWrite e).flt.almQueue = s.flt.almQueue ∧
    (s.almWrite e).fld Fld.ALM_HEAD_SEQ = seqNext (s.fld Fld.ALM_HEAD_SEQ) := by
  obtain ⟨ring, queue, head⟩ := almPut_shown (s := s) (e := e)
  obtain ⟨ringW, queueW, headW⟩ := sameRing_highWater (s := s.almPut e) (q := s.fld Fld.ALM_HEAD_SEQ)
  obtain ⟨ringF, queueF, headF⟩ := sameRing_freezes (s := (s.almPut e).highWater (s.fld Fld.ALM_HEAD_SEQ)) (e := e) (left := s.flt.freezeLeft) (q := s.fld Fld.ALM_HEAD_SEQ)
  rw [almWrite_eq]
  refine ⟨?_, queueF.trans (queueW.trans queue), headF.trans (headW.trans head)⟩
  rw [ringF, ringW, ring, Tbl.get_put_same]

theorem seqNext_fld {f : Fld} (hf : f.hi = 31 ∧ f.lo = 0) : seqNext (s.fld f) = if s.fld f = 0xFFFFFFFF then 1 else s.fld f + 1 := by
  have bound : s.fld f < 2 ^ (f.hi + 1 - f.lo) := fld_lt f
  rw [hf.1, hf.2] at bound
  unfold seqNext
  split <;> split <;> omega

/-! ### The head of the write queue (R522) -/

/-- What the queue holds after its head has gone. -/
def State.queueTail (s : State) (rest : List AlmEntry) : State := { s with flt := { s.flt with almQueue := rest } }

/-- One more entry of the code in this second. -/
def State.countCode (s : State) (c : Nat) : State := { s with flt := { s.flt with almCounts := s.flt.almCounts.put c (s.flt.almCounts.get 0 c + 1) } }

section
variable (queue : s.flt.almQueue = e :: rest)
include queue

theorem exec_almanacWrite : exec .almanacWrite s = .next (
    if s.flag Fld.ALM_STATUS_FROZEN then (s.queueTail rest).bump Fld.ALM_CNT_LOST_COUNT
    else if !neverSuppressed e.code && decide (s.fld Fld.ALM_CFG_CODE_RATE ≤ s.flt.almCounts.get 0 e.code) then ((s.queueTail rest).bump Fld.ALM_CNT_SUPPRESSED_COUNT).raise Fld.ALM_STATUS_SUPPRESSED
    else ((s.queueTail rest).countCode e.code).almWrite e) := by
  show execAlmanacWrite s = _
  rw [execAlmanacWrite, queue, apply_ite Host.Outcome.next, apply_ite Host.Outcome.next]
  rfl

theorem exec_almanacWrite_lost (frozen : s.flag Fld.ALM_STATUS_FROZEN = true) : exec .almanacWrite s = .next ((s.queueTail rest).bump Fld.ALM_CNT_LOST_COUNT) := by
  rw [exec_almanacWrite queue, if_pos frozen]

variable (runs : s.flag Fld.ALM_STATUS_FROZEN = false)
include runs

theorem exec_almanacWrite_written (counts : neverSuppressed e.code = true ∨ s.flt.almCounts.get 0 e.code < s.fld Fld.ALM_CFG_CODE_RATE) :
    exec .almanacWrite s = .next (((s.queueTail rest).countCode e.code).almWrite e) := by
  rw [exec_almanacWrite queue, if_neg (ne_true_of_eq_false runs), if_neg ?_]
  rcases counts with never | few
  · simp [never]
  · simp [Nat.not_le.mpr few]

theorem exec_almanacWrite_suppressed (may : neverSuppressed e.code = false) (used : s.fld Fld.ALM_CFG_CODE_RATE ≤ s.flt.almCounts.get 0 e.code) :
    exec .almanacWrite s = .next (((s.queueTail rest).bump Fld.ALM_CNT_SUPPRESSED_COUNT).raise Fld.ALM_STATUS_SUPPRESSED) := by
  rw [exec_almanacWrite queue, if_neg (ne_true_of_eq_false runs), if_pos (by simp [may, used])]

end

/-! ### Commands of the Almanac and the status page (R511, R526) -/

theorem exec_almUnfreeze (may : s.mayWrite who = true) (one : value % 2 = 1) : exec (.almUnfreeze who value) s = .next s.unfreeze :=
  if_neg (by simp [may, one])

theorem unfreeze_shown : s.unfreeze.flag Fld.ALM_STATUS_FROZEN = false ∧ s.unfreeze.flt.freezeLeft = none ∧ s.unfreeze.flt.ring = s.flt.ring :=
  ⟨flag_setFld_zero (by decide), rfl, rfl⟩

theorem exec_almRead (ha : Accepted s d 0x84) (some_ : 0 < d.p 1) (most : d.p 1 ≤ 32768) : exec (.almRead d) s = .next (
    let es := (seqRange (d.p 0) (d.p 1)).map s.almEntry
    (s.adminOut d es.flatten).adminOk d (s.fld Fld.ALM_HEAD_SEQ) (es.filter (fun b => leAt b 0 4 != 0)).length) :=
  next_admin ha (if_neg (by omega))

theorem exec_fltStatusPageSet (ha : Accepted s d 0x80) (aligned : d.p64 0 % 64 = 0) : exec (.fltStatusPageSet d) s = .next
    ((((s.setFld Fld.FLT_FN_PAGE_LO_ADDR (d.p64 0 / 64) d.fn).setFld Fld.FLT_FN_PAGE_HI_ADDR (d.p64 0 / 2 ^ 32) d.fn).setFld Fld.FLT_FN_PAGE_LO_VALID (if d.p64 0 = 0 then 0 else 1) d.fn).adminOk d) :=
  next_admin ha (if_neg (by omega))

/-- The watchdog was kicked by a core. -/
def State.kicked (s : State) (k : Nat) : State := { s with flt := { s.flt with wdogKick := s.now, wdogCore := k } }

theorem exec_wdogKick {k : Nat} (one : value % 2 = 1) : exec (.wdogKick (.core k) value at_) s = .next ((s.atTime at_).kicked k) := if_pos one

end

/-- Settles O48: the head entry by its three fates, then the commands and the kick. -/
theorem almanacAndPageCommands : Obligations.AlmanacAndPageCommands := by
  unfold Obligations.AlmanacAndPageCommands Gives
  refine fun d who value at_ s => ⟨fun e rest queue frozen => ?_, fun e rest queue runs counts => ?_, fun e rest queue runs may used => ?_, fun may one => ⟨_, exec_almUnfreeze may one, unfreeze_shown⟩,
    exec_almRead, fun ha => next_admin ha rfl, exec_fltStatusPageSet, fun ha => next_admin ha rfl, ?_⟩
  · exact ⟨_, exec_almanacWrite_lost queue frozen, rfl, rfl, fld_bump_same (by decide)⟩
  · obtain ⟨ring, kept, head⟩ := almWrite_shown (s := (s.queueTail rest).countCode e.code) (e := e)
    exact ⟨_, exec_almanacWrite_written queue runs counts, kept, ring, head.trans (seqNext_fld (s := s) (by decide))⟩
  · exact ⟨_, exec_almanacWrite_suppressed queue runs may used, rfl, rfl, flag_raise (by decide)⟩
  · rintro k rfl one
    exact ⟨_, exec_wdogKick one, rfl, rfl, rfl⟩

end Sys2Proof.Machine
end

section
/-! PROOFS. Barometer passes (R529 to R540): what a pass publishes, the steps of a hall below its plan, and stale grades. -/

open Sys2Proof.Spec

namespace Sys2Proof.Machine

section
variable {s t u : State} {ms : List HallMeas} {ret : List Nat} {wear at_ h l n : Nat} {tw : Int}

/-! ### What measuring leaves (R531 to R538) -/

/-- Measurements touch neither the registers below the Almanac's, nor Device Time, nor the number of passes. -/
structure Measures (s t : State) : Prop where
  below : SameAt BelowFaults s t
  now : t.now = s.now
  passes : t.baro.passes = s.baro.passes

theorem Measures.refl : Measures s s := ⟨.refl s, rfl, rfl⟩

theorem Measures.trans (hs : Measures s t) (ht : Measures t u) : Measures s u := ⟨hs.below.trans ht.below, ht.now.trans hs.now, ht.passes.trans hs.passes⟩

theorem Measures.ite {c : Prop} [Decidable c] (ht : Measures s t) (hu : Measures s u) : Measures s (if c then t else u) := by split <;> assumption

theorem Measures.foldl {α : Type} {f : State → α → State} {xs : List α} (hf : ∀ v, ∀ x ∈ xs, Measures v (f v x)) : Measures s (xs.foldl f s) :=
  List.foldlRecOn (motive := Measures s) xs f .refl fun v hv x hx => hv.trans (hf v x hx)

/-- A field of a register of the Almanac's block or one behind it. -/
abbrev Behind (f : Fld) : Prop := 0x7000000 ≤ f.reg.info.base

theorem Measures.setFld {f : Fld} {v o i : Nat} (hs : Measures s t) (hf : Behind f) : Measures s (t.setFld f v o i) :=
  ⟨hs.below.setFld f v o i (by unfold BelowFaults Reg.addr; unfold Behind at hf; omega), hs.now, hs.passes⟩

theorem Measures.raiseIf {f : Fld} {o i : Nat} {c : Prop} [Decidable c] (hs : Measures s t) (hf : Behind f) : Measures s (if c then t.raise f o i else t) :=
  .ite (hs.setFld hf) hs

theorem Measures.almHall {code hall : Nat} {b : Bytes} (hs : Measures s t) : Measures s (t.almHall code hall b) :=
  ⟨hs.below.almBelow .., (alm_unseen (fun _ _ => rfl) (fun _ _ => rfl) ..).trans hs.now, (alm_unseen (π := fun v => v.baro.passes) (fun _ _ => rfl) (fun _ _ => rfl) ..).trans hs.passes⟩

theorem Measures.setAge {a : HallAge} (hs : Measures s t) : Measures s (t.setAge h a) := ⟨hs.below.trans (.of_regs rfl), hs.now, hs.passes⟩

/-- A hall's record: its changes of grade are reported, its age is kept, and its registers show it. -/
theorem Measures.passMeasured {m : HallMeas} {w tm : Nat} (hs : Measures s t) : Measures s (t.passMeasured m w tm) := by
  refine .raiseIf ?shown (by decide)
  case shown =>
    iterate 19 refine .setFld ?_ (by decide)
    refine .setAge ?reported
    have changed {c : Prop} [Decidable c] {code hall : Nat} {b : Bytes} : Measures s (if c then t.almHall code hall b else t) := .ite hs.almHall hs
    exact .ite (.almHall (.setFld (.raiseIf changed (by decide)) (by decide))) (.raiseIf changed (by decide))

theorem Measures.passHall {m : HallMeas} : Measures s (s.passHall m) := by
  have flagged : Measures s (if (counted m).length < 24 then s.raise Fld.BARO_STATUS_CANARY else s) := .raiseIf .refl (by decide)
  exact .ite .refl (.ite (.passMeasured (flagged.trans ⟨.of_regs rfl, rfl, rfl⟩)) flagged.passMeasured)

theorem physOf_measures (hs : Measures s t) {x : Nat} : t.physOf x = s.physOf x := by
  unfold State.physOf
  by_cases hx : x < 16
  · have below : BelowFaults (Reg.addr .TSQ_MAP 0 x) := by
      show 0x2001100 + 0 * 0 + 4 * x < _
      omega
    rw [hs.below.flag Fld.TSQ_MAP_VALID 0 x below, hs.below.fld Fld.TSQ_MAP_PHYS 0 x below]
  · rw [if_neg (by simp [hx]), if_neg (by simp [hx])]

theorem usedPhys_measures (hs : Measures s t) : t.usedPhys = s.usedPhys :=
  congrArg (List.filterMap · (List.range 16)) (funext fun _ => physOf_measures hs)

/-! ### What a pass publishes (R529, R545) -/

/-- The lanes whose eye is low, the stacks' retention, and the store's wear. -/
def State.passLanes (s : State) : State :=
  let lanes := (List.range 256).filter s.eyeLow
  let s := (List.range 8).foldl (fun (s : State) w => s.setFld Fld.BARO_LANE_LOW_LOW ((lanes.filter (fun l => l / 32 == w)).foldl (fun n l => n + 2 ^ (l % 32)) 0) 0 w) s
  if lanes = [] then s else s.raise Fld.BARO_STATUS_LANE_EYE

def State.passStacks (s : State) (ret : List Nat) : State :=
  let s := (List.range 4).foldl (fun (s : State) k => s.setFld Fld.BARO_STACK_RET_Q (min 255 (ret.getD k 0)) 0 k) s
  if (List.range 4).any (fun k => decide (ret.getD k 0 < 8)) then s.raise Fld.BARO_STATUS_RETENTION else s

def State.passWear (s : State) (wear : Nat) : State :=
  let s := s.setFld Fld.BARO_NVS_WEAR_PCT (min 255 wear)
  if 80 ≤ wear then s.raise Fld.BARO_STATUS_NVS_WEAR else s

/-- The pass counts itself, its second, and that it is not stale. -/
def State.passCounted (s : State) : State := ((s.bump Fld.BARO_PASS_CNT_COUNT).setFld Fld.BARO_PASS_SEC_SEC (secsOf s.now)).setFld Fld.BARO_STATUS_STALE 0

/-- All that a pass measures and shows. -/
def State.measures (s : State) (ms : List HallMeas) (ret : List Nat) (wear : Nat) : State :=
  (((((ms.filter (fun m => s.measured m.hall)).foldl State.passHall s).passLanes).passStacks ret).passWear wear).passCounted

/-- What the part keeps of the pass beyond the registers. -/
def State.passKept (s : State) : State := { s with baro := { s.baro with passAt := s.now, passes := s.baro.passes + 1 } }

theorem Measures.passLanes (hs : Measures s t) : Measures s t.passLanes := by
  have folded : Measures s (((List.range 8).foldl (fun (v : State) w => v.setFld Fld.BARO_LANE_LOW_LOW ((((List.range 256).filter t.eyeLow).filter (fun l => l / 32 == w)).foldl (fun n l => n + 2 ^ (l % 32)) 0) 0 w) t)) :=
    hs.trans (.foldl fun _ _ _ => .setFld .refl (by decide))
  exact .ite folded (folded.setFld (by decide))

theorem Measures.passStacks (hs : Measures s t) : Measures s (t.passStacks ret) :=
  .raiseIf (hs.trans (.foldl fun _ _ _ => .setFld .refl (by decide))) (by decide)

theorem Measures.passWear (hs : Measures s t) : Measures s (t.passWear wear) := .raiseIf (.setFld hs (by decide)) (by decide)

/-- All that a pass measures, before it counts itself. -/
theorem Measures.uncounted : Measures s (((((ms.filter (fun m => s.measured m.hall)).foldl State.passHall s).passLanes).passStacks ret).passWear wear) :=
  have halls : Measures s ((ms.filter (fun m => s.measured m.hall)).foldl State.passHall s) := .foldl fun _ _ _ => .passHall
  halls.passLanes.passStacks.passWear

theorem Measures.measures : Measures s (s.measures ms ret wear) :=
  .setFld (.setFld (.setFld .uncounted (by decide)) (by decide)) (by decide)

theorem measures_shown : (s.measures ms ret wear).flag Fld.BARO_STATUS_STALE = false ∧ (s.measures ms ret wear).fld Fld.BARO_NVS_WEAR_PCT = min 255 wear ∧
    (s.measures ms ret wear).fld Fld.BARO_PASS_SEC_SEC = s.now / 65536000000000 % 2 ^ 32 := by
  refine ⟨flag_setFld_zero (by decide), ?_, ?_⟩
  · have small : min 255 wear < 2 ^ 8 := by omega
    have worn (v : State) : (v.passWear wear).fld Fld.BARO_NVS_WEAR_PCT = min 255 wear := by
      unfold State.passWear
      dsimp only
      split
      · exact (fld_raise_spares (by decide)).trans (fld_setFld_of_lt (by decide) small)
      · exact fld_setFld_of_lt (by decide) small
    exact (fld_setFld_spares (by decide)).trans ((fld_setFld_spares (by decide)).trans ((fld_setFld_spares (by decide)).trans (worn _)))
  · rw [State.measures, State.passCounted, fld_setFld_spares (by decide), fld_setFld_same (by decide), Measures.uncounted.now]
    rfl

/-- Halls below their plan are dealt with among those that were measured. -/
def State.dealsWith (done : List HallMeas) (s : State) (h : Nat) : State :=
  match done.find? (fun m => m.hall == h) with
  | some m => s.belowPlan h (tWorst m (worst (counted m)).2)
  | none => s

theorem dealsWith_unmeasured {done : List HallMeas} (none_ : ∀ m ∈ done, m.hall ≠ h) : s.dealsWith done h = s := by
  have nowhere : done.find? (fun m => m.hall == h) = none := List.find?_eq_none.mpr fun m hm => by simp [none_ m hm]
  rw [State.dealsWith, nowhere]

theorem exec_baroPass (runs : s.fld Fld.OWN_BOOT_STATUS_STAGE = 2) (awake : s.atF4 = false) (sound : s.flt.deviceFault = none) : exec (.baroPass ms ret wear at_) s = .next (
    let t := ((s.atTime at_).measures ms ret wear).passKept
    t.usedPhys.foldl (State.dealsWith (ms.filter (fun m => (s.atTime at_).measured m.hall))) t) := by
  have goes : ¬ ((s.atTime at_).fld Fld.OWN_BOOT_STATUS_STAGE ≠ 2 ∨ (s.atTime at_).atF4 = true ∨ (s.atTime at_).flt.deviceFault.isSome = true) := by
    have awake' : (s.atTime at_).atF4 = false := awake
    simp [runs, awake', sound]
  exact if_neg goes

theorem exec_baroPass_unplanned (runs : s.fld Fld.OWN_BOOT_STATUS_STAGE = 2) (awake : s.atF4 = false) (sound : s.flt.deviceFault = none) (unplanned : ∀ m ∈ ms, m.hall ∉ s.usedPhys) :
    exec (.baroPass ms ret wear at_) s = .next ((s.atTime at_).measures ms ret wear).passKept := by
  have used : ((s.atTime at_).measures ms ret wear).passKept.usedPhys = s.usedPhys :=
    usedPhys_measures (s := s.atTime at_) (t := (s.atTime at_).measures ms ret wear) Measures.measures
  rw [exec_baroPass runs awake sound]
  refine congrArg Host.Outcome.next ?_
  dsimp only
  rw [used]
  refine List.foldlRecOn (motive := (· = _)) _ _ rfl fun v hv h hh => ?_
  rw [dealsWith_unmeasured fun m hm e => unplanned m (List.mem_of_mem_filter hm) (e ▸ hh), hv]

/-! ### A hall below its plan (R540) -/

section
variable (logical : s.logicalOf h = some l)
include logical

theorem belowPlan_meets (meets : s.fld Fld.BARO_MT_W0_CERT_G 0 h ≤ Plan.reqGrade s.pln.active ((Plan.phys s.pln.active l).getD h)) : s.belowPlan h tw = s := by
  rw [State.belowPlan, logical]
  exact if_pos (Or.inl meets)

variable (misses : Plan.reqGrade s.pln.active ((Plan.phys s.pln.active l).getD h) < s.fld Fld.BARO_MT_W0_CERT_G 0 h) (runs : s.fld Fld.FLT_HALL_STATE 0 h = 0)
include misses runs

theorem belowPlan_reserve (enabled : s.flag Fld.BARO_CFG_RESERVE_EN = true) (holds_ : s.fld Fld.BARO_MT_W0_CERT_G_RES 0 h ≤ Plan.reqGrade s.pln.active ((Plan.phys s.pln.active l).getD h))
    (steps : reserveSteps h (s.fld Fld.CALM_HALL_STATE_GRADE 0 h) tw = some n) : s.belowPlan h tw = s.useReserve h n := by
  rw [State.belowPlan, logical]
  dsimp only
  rw [if_neg (by omega), if_pos (by simp [enabled, holds_]), steps]

variable (disabled : s.flag Fld.BARO_CFG_RESERVE_EN = false) (fresh : s.recov h = none)
include disabled fresh

theorem belowPlan_faults (spareless : s.chooseSpare h l = none) : s.belowPlan h tw = s.hallFault h 7 := by
  rw [State.belowPlan, logical]
  dsimp only
  rw [if_neg (by omega), if_neg (by simp [disabled]), fresh]
  dsimp only
  rw [spareless]

theorem belowPlan_spare {x : Nat} (spare : s.chooseSpare h l = some x) : s.belowPlan h tw =
    s.setRecov h (some { route := 3, cause := 7, since := s.now, logical := some l, spare := some x, resetDone := false, minTreads := if s.frost x ≤ 2 then 160 else 15000, cmd := none }) := by
  rw [State.belowPlan, logical]
  dsimp only
  rw [if_neg (by omega), if_neg (by simp [disabled]), fresh]
  dsimp only
  rw [spare, disabled]
  rfl

end

/-! ### Stale grades (R530) -/

theorem exec_baroStale : exec (.baroStale at_) s = .next (if s.baro.passAt + 1800 * 65536000000000 ≤ max s.now at_ then (s.atTime at_).raise Fld.BARO_STATUS_STALE else s.atTime at_) := rfl

end

/-- Settles O49: what a pass publishes, the steps of a hall below its plan, and the age of the last pass. -/
theorem barometerPasses : Obligations.BarometerPasses := by
  unfold Obligations.BarometerPasses Gives
  refine fun ms ret wear at_ h l n tw s => ⟨fun runs awake sound unplanned => ?_, fun logical => ⟨belowPlan_meets logical, fun misses runs => ⟨belowPlan_reserve logical misses runs, belowPlan_faults logical misses runs,
    fun x disabled fresh => belowPlan_spare logical misses runs disabled fresh⟩⟩, fun past => ?_, fun recent => ?_⟩
  · obtain ⟨stale, worn, second⟩ := measures_shown (s := s.atTime at_) (ms := ms) (ret := ret) (wear := wear)
    have kept : Measures (s.atTime at_) ((s.atTime at_).measures ms ret wear) := .measures
    exact ⟨_, exec_baroPass_unplanned runs awake sound unplanned, kept.now, congrArg (· + 1) kept.passes, stale, worn, second⟩
  · rw [exec_baroStale, if_pos past]
    exact ⟨_, rfl, flag_raise (by decide), rfl⟩
  · rw [exec_baroStale, if_neg (by omega)]

end Sys2Proof.Machine
end

section
/-! PROOFS. Supplies and temperatures (R554, R555, R565 to R567). -/

open Sys2Proof.Spec

namespace Sys2Proof.Machine

section
variable {s : State} {b t at_ : Nat} {lid : Bool} {x : Int}

/-- The state at an instant with another package. -/
def State.pkgAt (s : State) (at_ : Nat) (p : PkgSt) : State := { s.atTime at_ with pkg := p }

/-! ### The input (R554) -/

theorem exec_inputUv (powered : s.own.powered = true) (armed : s.pkg.uvArmed = true) : exec (.inputUv at_) s = .next ((s.pkgAt at_ { s.pkg with uvArmed := false }).thermLatch 3) := by
  have latches : ¬ ((!(s.atTime at_).own.powered) = true ∨ (!(s.atTime at_).pkg.uvArmed) = true) := by simp [powered, armed]
  exact if_neg latches

/-! ### Module supplies (R555) -/

/-- The ports of a bay whose supply is off go down and train no more. -/
def State.bayDown (s : State) (b : Nat) : State :=
  (List.range 8).foldl (fun (v : State) i => if v.isPort (8 * b + i) then (v.portDown (8 * b + i) 15).setFld Fld.LN_LANE_STATUS_TRAINING 0 0 (8 * b + i) else v) s

/-- The ports of a bay whose supply is on again train. -/
def State.bayTrains (s : State) (b : Nat) : State := (List.range 8).foldl (fun (v : State) i => if v.isPort (8 * b + i) then v.train (8 * b + i) else v) s

theorem exec_moduleOvercurrent (bay : b < 32) (asked : s.supplyAsked b = true) (on : look s.pkg.ocOff b = none) :
    exec (.moduleOvercurrent b at_) s = .next ((s.pkgAt at_ { s.pkg with ocOff := s.pkg.ocOff.put b (max s.now at_) }).bayDown b) := by
  have switches : ¬ (32 ≤ b ∨ (!(s.atTime at_).supplyAsked b) = true ∨ (look (s.atTime at_).pkg.ocOff b).isSome = true) := by
    have asked' : (s.atTime at_).supplyAsked b = true := asked
    simp [asked', on, bay]
  exact if_neg switches

theorem bayDown_portless (none_ : ∀ i, i < 8 → s.isPort (8 * b + i) = false) : s.bayDown b = s :=
  List.foldlRecOn (motive := (· = s)) (List.range 8) _ rfl fun v hv i hi => by
    rw [hv, none_ i (List.mem_range.mp hi)]
    rfl

section
variable (off : look s.pkg.ocOff b = some t) (past : t + 65536000000000 ≤ max s.now at_)
include off past

theorem exec_moduleSupplyRetry : exec (.moduleSupplyRetry b at_) s = .next (
    let u := s.pkgAt at_ { s.pkg with ocOff := s.pkg.ocOff.del b }
    if u.supplyAsked b then u.bayTrains b else u) := by
  have waited : ¬ (s.atTime at_).now < t + secTicks := Nat.not_lt.mpr past
  show execModuleSupplyRetry b at_ s = _
  rw [execModuleSupplyRetry, atTime_pkg, off]
  dsimp only
  rw [if_neg waited]
  show (if (!(s.pkgAt at_ { s.pkg with ocOff := s.pkg.ocOff.del b }).supplyAsked b) = true then _ else _) = _
  cases (s.pkgAt at_ { s.pkg with ocOff := s.pkg.ocOff.del b }).supplyAsked b <;> rfl

end

/-! ### Temperatures (R565 to R567) -/

/-- How long a trip threshold has held. -/
def State.tripClock (s : State) : State := { s with pkg := { s.pkg with tripSince := since s.now s.pkg.tripSince (atOrAbove s.pkg.lid lidTrip || atOrAbove s.pkg.tj junctionTrip) } }

theorem exec_thermalSample (powered : s.own.powered = true) :
    exec (.thermalSample lid x at_) s = .next (if lid then (s.atTime at_).lidSample x else (s.atTime at_).junctionSample x).tripClock :=
  if_neg (by simp [powered])

theorem exec_thermalTrip (holds_ : s.pkg.tripSince = some t) (past : t + 1000000 * 65536 ≤ max s.now at_) (first : s.pkg.tripped = false) :
    exec (.thermalTrip at_) s = .next (((s.pkgAt at_ { s.pkg with tripped := true }).deviceFaults 0x22).leave (.pin 4 0 false)) := by
  have trips : ¬ ((s.atTime at_).now < t + 1000000 * nsTicks ∨ s.pkg.tripped = true) := by
    rintro (early | again)
    · exact absurd past (Nat.not_le.mpr early)
    · simp [first] at again
  show execThermalTrip at_ s = _
  rw [execThermalTrip, atTime_pkg, holds_]
  exact if_neg trips

theorem exec_thermalHoldEnd (cool : s.pkg.coolSince = some t) (held : s.pkg.hold = true) (past : t + 60 * 65536000000000 ≤ max s.now at_) :
    exec (.thermalHoldEnd at_) s = .next ((s.pkgAt at_ { s.pkg with hold := false, tripped := false }).leave (.pin 4 0 true)) := by
  have ends : ¬ ((!s.pkg.hold) = true ∨ (s.atTime at_).now < t + 60 * secTicks) := by
    rintro (free | early)
    · simp [held] at free
    · exact absurd past (Nat.not_le.mpr early)
  show execThermalHoldEnd at_ s = _
  rw [execThermalHoldEnd, atTime_pkg, cool]
  exact if_neg ends

end

/-- Settles O50: the input, the module supplies, then samples, the trip and its hold. -/
theorem supplyAndThermalEvents : Obligations.SupplyAndThermalEvents := by
  unfold Obligations.SupplyAndThermalEvents Gives
  refine fun b at_ lid x s => ⟨exec_inputUv, rfl, fun bay asked on => ⟨exec_moduleOvercurrent bay asked on, fun none_ => ?_⟩, fun t off past => ⟨fun unasked => ?_, fun asked => ?_⟩, exec_thermalSample,
    fun t => exec_thermalTrip, fun t => exec_thermalHoldEnd⟩
  · exact (exec_moduleOvercurrent bay asked on).trans (congrArg Host.Outcome.next (bayDown_portless none_))
  · exact (exec_moduleSupplyRetry off past).trans (congrArg Host.Outcome.next (if_neg (ne_true_of_eq_false unasked)))
  · exact (exec_moduleSupplyRetry off past).trans (congrArg Host.Outcome.next (if_pos asked))

end Sys2Proof.Machine
end

section
/-! PROOFS. The side ports (R560 to R564): the SMBus target and the JTAG test access port. -/

open Sys2Proof.Spec

namespace Sys2Proof.Machine

section
variable {s : State} {pec : Bool} {code n v i drive sample at_ : Nat}

/-! ### SMBus (R560, R561) -/

theorem smbTakes_powered (powered : s.own.powered = true) : s.smbTakes true = true := by rw [State.smbTakes, powered]; rfl

theorem smbTakes_silent (silent : pec = false ∨ s.own.powered = false) : s.smbTakes pec = false := by
  unfold State.smbTakes
  rcases silent with bad | dead
  · rw [bad, Bool.and_false]
  · rw [dead, Bool.false_and]

/-- A read of a powered part with a good PEC answers its octets. -/
theorem smbRead_answers (powered : s.own.powered = true) : s.smbRead true code n v = s.leave (.smb code (leBytes n v)) := if_pos (smbTakes_powered powered)

/-- A read that is not acknowledged answers nothing. -/
theorem smbRead_silent (silent : pec = false ∨ s.own.powered = false) : s.smbRead pec code n v = s := if_neg (ne_true_of_eq_false (smbTakes_silent silent))

theorem exec_smbStatus (powered : s.own.powered = true) : exec (.smbStatus true) s = .next (
    let t := s.leave (.smb 0x00 (leBytes 1 (b2n s.pkg.alert * 128 + b2n s.pkg.hold * 64 + b2n s.atF4 * 32 + b2n s.planActive * 16 + (s.word .CALM_THERM).toNat % 16)))
    if s.pkg.alert then { t with pkg := { s.pkg with alert := false } }.leave (.pin 3 0 true) else t) := by
  refine (if_neg (by simp [smbTakes_powered powered])).trans ?_
  dsimp only
  rw [smbRead_answers powered]
  rfl

theorem exec_smbStatus_silent (silent : pec = false ∨ s.own.powered = false) : exec (.smbStatus pec) s = .next s := if_pos (by simp [smbTakes_silent silent])

/-- DEVICE_RESET is taken with a good PEC and 0xA5 alone. -/
theorem exec_smbDeviceReset (takes : s.smbTakes pec = true) : exec (.smbDeviceReset pec 0xA5 at_) s = .next (s.atTime at_).deviceReset :=
  congrArg Host.Outcome.next (if_pos ⟨takes, rfl⟩)

theorem exec_smbDeviceReset_ignored (ignored : ¬ (s.smbTakes pec = true ∧ v = 0xA5)) : exec (.smbDeviceReset pec v at_) s = .next (s.atTime at_) :=
  congrArg Host.Outcome.next (if_neg ignored)

/-! ### The test access port (R563, R564) -/

/-- Two things leave in order. -/
theorem leave_leave_out {x y : Out} : ((s.leave x).leave y).out = s.out ++ [x, y] := List.append_assoc ..

/-- The boundary register as it was loaded. -/
def State.loaded (s : State) (n : Nat) : State := { s with pkg := { s.pkg with scan := n } }

theorem loaded_regs : (s.loaded n).regs = s.regs := rfl
theorem tap_regs : (s.tap i).regs = s.regs := rfl

section
variable (idle : s.planActive = false)
include idle

theorem exec_jtagExtest : exec (.jtagExtest drive sample) s = .next ((((s.tap 1).loaded drive).leave (.note 10 [drive])).leave (.jtag 0 sample)) :=
  congrArg Host.Outcome.next (if_pos (by simp [idle]))

theorem exec_jtagClamp : exec .jtagClamp s = .next (((s.tap 3).leave (.note 10 [s.pkg.scan])).leave (.jtag 2 0)) :=
  congrArg (fun t : State => Host.Outcome.next (t.leave (.jtag 2 0))) (if_pos (by simp [idle]))

theorem exec_jtagHighz : exec .jtagHighz s = .next (((s.tap 4).leave (.note 11 [])).leave (.jtag 2 0)) :=
  congrArg (fun t : State => Host.Outcome.next (t.leave (.jtag 2 0))) (if_pos (by simp [idle]))

end

section
variable (active : s.planActive = true)
include active

theorem exec_jtagExtest_bypass : exec (.jtagExtest drive sample) s = .next ((s.tap 1).leave (.jtag 2 0)) :=
  congrArg Host.Outcome.next (if_neg (by simp [active]))

theorem exec_jtagClamp_bypass : exec .jtagClamp s = .next ((s.tap 3).leave (.jtag 2 0)) :=
  congrArg (fun t : State => Host.Outcome.next (t.leave (.jtag 2 0))) (if_neg (by simp [active]))

theorem exec_jtagHighz_bypass : exec .jtagHighz s = .next ((s.tap 4).leave (.jtag 2 0)) :=
  congrArg (fun t : State => Host.Outcome.next (t.leave (.jtag 2 0))) (if_neg (by simp [active]))

end

/-- The package with the test access port in its reset. -/
def PkgSt.tapReset (p : PkgSt) : PkgSt := { p with jtag := 0, scanned := false }

theorem tapReset_idle {p : PkgSt} (unscanned : p.scanned = false) (idcode_ : p.jtag = 0) : p.tapReset = p := by
  rw [PkgSt.tapReset, ← unscanned, ← idcode_]

/-- An instruction has taken the lands. -/
def State.tookLands (s : State) : Bool := s.pkg.scanned || ((s.pkg.jtag == 1 || s.pkg.jtag == 3 || s.pkg.jtag == 4) && !s.planActive)

theorem exec_jtagTestLogicReset : exec (.jtagTestLogicReset at_) s = .next (
    if s.tookLands = true ∧ s.own.powered = true then (s.pkgAt at_ s.pkg.tapReset).deviceReset else s.pkgAt at_ s.pkg.tapReset) := rfl

theorem exec_jtagTestLogicReset_idle (unscanned : s.pkg.scanned = false) (idcode_ : s.pkg.jtag = 0) : exec (.jtagTestLogicReset at_) s = .next (s.atTime at_) := by
  have untaken : ¬ (s.tookLands = true ∧ s.own.powered = true) := by simp [State.tookLands, unscanned, idcode_]
  rw [exec_jtagTestLogicReset, if_neg untaken, tapReset_idle unscanned idcode_]
  rfl

theorem exec_jtagTestLogicReset_resets (powered : s.own.powered = true) (took : s.pkg.scanned = true ∨ (s.planActive = false ∧ (s.pkg.jtag = 1 ∨ s.pkg.jtag = 3 ∨ s.pkg.jtag = 4))) :
    exec (.jtagTestLogicReset at_) s = .next (s.pkgAt at_ s.pkg.tapReset).deviceReset := by
  have taken : s.tookLands = true := by simpa [State.tookLands, and_comm, or_assoc] using took
  rw [exec_jtagTestLogicReset, if_pos ⟨taken, powered⟩]

end

/-- Settles O51: the SMBus reads by what acknowledges them, then the instructions of the test access port. -/
theorem sidePorts : Obligations.SidePorts := by
  unfold Obligations.SidePorts Gives
  refine fun v drive sample at_ s => ⟨fun powered => ?smb, fun pec silent => ?silent, fun other => exec_smbDeviceReset_ignored fun h => other h.2, fun idle => ⟨_, exec_jtagExtest idle, ?extest⟩,
    fun active => ⟨_, exec_jtagExtest_bypass active, rfl, rfl⟩, ⟨_, rfl, rfl, rfl, rfl⟩, ⟨_, rfl, rfl, rfl⟩, ?clamp, ?highz, ⟨_, rfl, rfl, rfl⟩, exec_jtagTestLogicReset_idle, exec_jtagTestLogicReset_resets⟩
  case smb =>
    have answers (code n w : Nat) : (Host.Outcome.next (s.smbRead true code n w) : Answer) = .next (s.leave (.smb code (leBytes n w))) := congrArg Host.Outcome.next (smbRead_answers powered)
    refine ⟨fun calm => ?_, fun alert => ?_, answers 0x01 2 (word16 s.pkg.lid), answers 0x02 2 (word16 s.pkg.tj), answers 0x03 2 v, answers 0x04 2 v, answers 0x05 2 v, answers 0x06 2 v, answers 0x07 2 v,
      answers 0x08 1 (s.fld Fld.OWN_BOOT_STATUS_LAST_RESET * 16 + s.fld Fld.OWN_BOOT_STATUS_STAGE), answers 0x10 8 Config.serial.toNat, answers 0x11 4 idcode, exec_smbDeviceReset (smbTakes_powered powered)⟩
    · rw [exec_smbStatus powered, calm]
      dsimp only
      rw [show b2n false * 128 = 0 from rfl, Nat.zero_add]
      rfl
    · rw [exec_smbStatus powered, alert]
      exact ⟨_, rfl, rfl, rfl, leave_leave_out⟩
  case silent =>
    have nothing (code n w : Nat) : (Host.Outcome.next (s.smbRead pec code n w) : Answer) = .next s := congrArg Host.Outcome.next (smbRead_silent silent)
    exact ⟨nothing 0x03 2 v, exec_smbStatus_silent silent, nothing 0x10 8 Config.serial.toNat, nothing 0x01 2 (word16 s.pkg.lid),
      nothing 0x08 1 (s.fld Fld.OWN_BOOT_STATUS_LAST_RESET * 16 + s.fld Fld.OWN_BOOT_STATUS_STAGE), exec_smbDeviceReset_ignored (by simp [smbTakes_silent silent])⟩
  case extest =>
    refine ⟨leave_leave_out, rfl, rfl, ?_⟩
    rw [leave_regs, leave_regs, loaded_regs, tap_regs]
  case clamp =>
    cases active : s.planActive with
    | false =>
      refine ⟨_, exec_jtagClamp active, ?_, rfl⟩
      rw [leave_leave_out, if_neg Bool.false_ne_true]
      rfl
    | true => exact ⟨_, exec_jtagClamp_bypass active, rfl, rfl⟩
  case highz =>
    cases active : s.planActive with
    | false =>
      refine ⟨_, exec_jtagHighz active, ?_, rfl⟩
      rw [leave_leave_out, if_neg Bool.false_ne_true]
      rfl
    | true => exact ⟨_, exec_jtagHighz_bypass active, rfl, rfl⟩

end Sys2Proof.Machine
end
